-- ==== Sys2Proof/Word.lean ====
section
/-!
DEFINITION. The word types of the CH6480: a register is 32 bits (R10, R17), storage is addressed by bytes (R22).
-/

namespace Sys2Proof

/-- A register word: every access in the register space is one 32-bit word (R21). -/
abbrev Word := BitVec 32

/-- One byte of a table entry, a frame or an image. -/
abbrev Byte := BitVec 8

/-- An EUI-48 address. -/
abbrev Mac48 := BitVec 48

/-- A TB96 value as it stands in registers (R3). -/
abbrev Tb96 := BitVec 96

/-- An SNS64 interval, two's complement, in units of 2^-16 ns (R5). -/
abbrev Sns64 := BitVec 64

end Sys2Proof
end

