-- ==== Sys2Proof/Syntax.lean ====
section
/-!
DEFINITION. The commands of the CH6480 as a block: every row of the table of operations and events is one constructor.
A row that is an access carries the master that makes it, the object it names and the word; a row that is an event of a
pin, of a measurement or of a timer carries what the event brings with it.
-/

namespace Sys2Proof

/-- The masters that make register accesses (R24, R645); the Ferryman and the Calibration Sequencer write only their own
fields, inside other commands. -/
inductive BusMaster where
  | pcie | spi | mmp | loader
deriving DecidableEq, Repr

/-- What the balls show at reset release (R616, R561, R60) and the levels sampled there: BOOT_SEL,
MATE_ROLE and OCXO_WARM. -/
structure Straps where
  bootSel : Fin 4
  mateRole : Bool
  ocxoWarm : Bool
deriving DecidableEq, Repr

/-- What a training frame asks of one tap (R222). -/
inductive CoeffReq where
  | hold | increment | decrement
deriving DecidableEq, Repr

/-- A training frame of the partner (R222): preset, initial values, or a request for each tap, and whether its receiver is ready. -/
structure TrainFrame where
  preset : Bool
  initial : Bool
  pre : CoeffReq
  main : CoeffReq
  post : CoeffReq
  ready : Bool
deriving DecidableEq, Repr

/-- What a LINKED, TRAINING or aligned lane lost (R212, R219). -/
inductive LossCause where
  | signal | cdr | alignment
deriving DecidableEq, Repr

/-- The latency values a lane records (R237): RX_SLIP, TX_GBOX and DESKEW, in UI. -/
structure LaneLat where
  slip : Fin 128
  gbox : Fin 128
  deskew : Fin 8192
deriving DecidableEq, Repr

/-- What happens at the receive elastic buffer up to a frame's first block (R235): the partner's clock brings its fill one block up or
down, or an idle passes, at which the buffer may act. -/
inductive EbStep where
  | up | down | idle
deriving DecidableEq, Repr

/-- The inputs of a receive stamp (R263 to R268, R300): CLK_FAB cycles since the SFD was detected, crossing occupancy in words, the count d
and RS_BLK. -/
structure RxTiming where
  ago : Nat
  occ : Int
  d : Nat
  blk : Fin 20
deriving DecidableEq, Repr

/-- A frame's parse window as it stands at the decision (R370): the bytes from the destination address on, up to 128 of them
(all, with the FCS, where the frame has ended), the inputs of its receive stamp, and what the elastic buffer met. -/
structure RxWindow where
  bytes : List Byte
  ended : Bool
  bad : Bool
  rx : RxTiming
  eb : List (Fin 4 × EbStep)
deriving DecidableEq, Repr

/-- The inputs of a transmit stamp (R263 to R268, R300): CLK_FAB cycles from this event until the SFD crosses the timestamp
point, transmit crossing occupancy, gearbox count and RS_BLK. -/
structure TxTiming where
  ahead : Nat
  occ : Int
  d : Nat
  blk : Fin 20
deriving DecidableEq, Repr

/-- One beat of a DDMTD channel (R295, R296): the helper cycles of the transitions around the edge of the input beat and of the
reference beat, in order; or no edge for two beat periods. -/
inductive Beat where
  | absent
  | edges (inp ref : List Int)
deriving DecidableEq, Repr

/-- An edge on PPSIN0 or PPSIN1: which way it goes, and the CLK_FAB cycle of the tick in which it is sampled (R184, R185). -/
structure PinEdge where
  falling : Bool
  fab : Fin 5
deriving DecidableEq, Repr

/-- Bits at the receiver of a lane, the oldest first (R242). -/
structure LineBits where
  lane : Fin 65
  bits : List Bool
deriving DecidableEq, Repr

/-- A codeword of a spilled page that does not read as written (R550): its burst and its number there, the bits of its 72 that are inverted,
by Hamming position, and its address tag where that differs. -/
structure PageErr where
  burst : Fin 64
  codeword : Fin 8
  bits : List (Fin 72)
  tag : Option (Fin 256)
deriving DecidableEq, Repr

/-- A spilled page as it is read: the codewords that do not read as written (R551). -/
structure PageCheck where
  errs : List PageErr
deriving DecidableEq, Repr

/-- Bits that have flipped where a register word is stored (R553): of the word, of the parity of its four bytes, and of the shadow CRC-32 of
its block. -/
structure CfgUpset where
  addr : Word
  mask : Word
  parity : Fin 16
  shadow : Word
deriving DecidableEq, Repr

/-- What a round of the march found failing (R579): spare rows and quarantined cells. -/
structure MarchFails where
  rows : Nat
  cells : Nat
deriving DecidableEq, Repr

/-- A received mPacket (R474, R476): its bytes from the SMD on, with its mCRC or FCS; the inputs of its stamp; and what the elastic buffer
met. -/
structure MPacket where
  bytes : List Byte
  rx : RxTiming
  eb : List (Fin 4 × EbStep)
deriving DecidableEq, Repr

/-- The sums of the eight raw codes one and two periods before a coarse edge, of the start and of the stop interpolator: the
means K1 and K2 in 1/8 code (R487). -/
structure TiuCal where
  startK1 : Nat
  startK2 : Nat
  stopK1 : Nat
  stopK2 : Nat
deriving DecidableEq, Repr

/-- The raw codes of a calibration (R487): of each interpolator, those of the events one Tc before a coarse edge and of those two Tc
before one, eight each. -/
structure TiuCodes where
  startOne : List (Fin 512)
  startTwo : List (Fin 512)
  stopOne : List (Fin 512)
  stopTwo : List (Fin 512)
deriving DecidableEq, Repr

/-- An edge at an interpolator: coarse index of the edge ending its tau, and its raw code, 0 to 511 (R487, R489, R517). -/
structure TiuEdge where
  coarse : Int
  code : Fin 512
deriving DecidableEq, Repr

/-- An edge of a source of the TIU (R484, R485): the source's code, whether the edge falls, and where the channel's interpolator places it. -/
structure TiuInput where
  src : Fin 32
  falling : Bool
  edge : TiuEdge
deriving DecidableEq, Repr

/-- An edge of the stop's source: as the stop's interpolator places it, and, where the start has the same source (R486), as the start's
does and how many CLK_FAB cycles ago it was sampled there. -/
structure TiuStop where
  src : Fin 32
  falling : Bool
  edge : TiuEdge
  start : TiuEdge
  ago : Nat
deriving DecidableEq, Repr

/-- What a pass of the Calibration Sequencer measured for one instance (R516 to R520). -/
inductive CalResult where
  /-- Class 0: the histogram of raw codes as (code, events), and K1 and K2 in 1/8 code. -/
  | bins (hist : List (Nat × Nat)) (k1 k2 : Nat)
  /-- Class 0: PERIOD elapsed before 65,536 events. -/
  | starved
  /-- Class 1: the longest transition span in helper cycles. -/
  | span (n : Nat)
  /-- Class 2: measured receive and transmit delay less the factory values, in 2^-16 pu. -/
  | latency (rx tx : Int)
  /-- Class 3: the 64 errors, in rotator codes. -/
  | table (errs : List Int)
  /-- Class 4: the VOFF offset that zeroes the midpoint, in steps; or the step gain, in microvolts. -/
  | offset (steps : Int)
  | gain (uV : Nat)
  /-- Class 5: ones counted among 2^24 bits of the data sampler. -/
  | ones (n : Nat)
deriving DecidableEq, Repr

/-- Bits of one stored byte and its check bits that differ from what was written: byte offset in the word and the mask over
the Hamming positions, bit `i` for position `i`, bit 0 for c4 (R535). -/
structure Flip where
  byte : Nat
  mask : Fin 8192
deriving DecidableEq, Repr

/-- How an I2C command ended on the bus (R667). -/
inductive I2cResult where
  | ok | nack | busStuck
deriving DecidableEq, Repr


/-- A request to the PCIe endpoint (R651, R652, R665): a read of a dword of configuration space, a write of the command register or of
the MSI-X control word, and, beside the table's words, a write of a vector's mask in the MSI-X table of BAR2 (log entry 144). -/
inductive CfgReq where
  | read (reg : Fin 1024)
  | command (bme : Bool)
  | msix (enable mask : Bool)
  | vector (v : Fin 32) (masked : Bool)
deriving DecidableEq, Repr

/-- A command or event of the block: one constructor per row of the table of operations and events. -/
inductive Instr where
  /-- REGISTER_WRITE (R17). -/
  | registerWrite (m : BusMaster) (addr : Word) (be : Fin 16) (v : Word)
  /-- WIDE_VALUE_CAPTURE (R11). -/
  | wideValueCapture (m : BusMaster) (addr : Word)
  /-- WIDE_VALUE_STAGE (R12). -/
  | wideValueStage (m : BusMaster) (addr : Word) (v : Word)
  /-- WIDE_VALUE_COMMIT (R12). -/
  | wideValueCommit (m : BusMaster) (addr : Word) (v : Word)
  /-- RC_FIELD_READ (R17). -/
  | rcFieldRead (m : BusMaster) (addr : Word)
  /-- ACCESS_TIMEOUT (R650). -/
  | accessTimeout (m : BusMaster) (addr : Word) (write : Bool)
  /-- RESET_ASSERT (R38). -/
  | resetAssert
  /-- RAIL_BELOW_RESET (R589). -/
  | railBelowReset (rail : Fin 5)
  /-- RESET_RELEASE (R615). -/
  | resetRelease (straps : Straps)
  /-- ROOT_DECLARATION_READ (R52). -/
  | rootDeclarationRead (a : List Byte) (b : List Byte)
  /-- CLOCK_START_RETRY (R38). -/
  | clockStartRetry
  /-- CAPSTAN_LOCK (R56). -/
  | capstanLock (band : Fin 512) (ppm : Int)
  /-- CAPSTAN_BAND_SEARCH (R58). -/
  | capstanBandSearch
  /-- SAFE_RATIO_END (R69). -/
  | safeRatioEnd
  /-- HW_REGION_INIT (R618). -/
  | hwRegionInit
  /-- CAPSTAN_LOSS_OF_LOCK (R69). -/
  | capstanLossOfLock
  /-- FREQUENCY_EXCURSION (R67). -/
  | frequencyExcursion
  /-- CAPSTAN_RELOCK_TIMEOUT (R72). -/
  | capstanRelockTimeout
  /-- CAPSTAN_RETRY (R72). -/
  | capstanRetry
  /-- OCXO_COOL (R55). -/
  | ocxoCool
  /-- DITHER_RESEED (R63). -/
  | ditherReseed (m : BusMaster) (v : Word)
  /-- AUX_PLAN_HOP (R77). -/
  | auxPlanHop (m : BusMaster) (n : Fin 2) (v : Word)
  /-- AUX_HOP_COMPLETE (R77). -/
  | auxHopComplete (n : Fin 2) (band : Fin 256)
  /-- AUX_LOSS_OF_LOCK (R75). -/
  | auxLossOfLock (n : Fin 2)
  /-- CLKOUT_ENABLE (R84). -/
  | clkoutEnable (m : BusMaster) (n : Fin 12) (v : Word)
  /-- CLKOUT_DISABLE (R85). -/
  | clkoutDisable (m : BusMaster) (n : Fin 12) (v : Word)
  /-- OUT_PHASE_WRITE (R88). -/
  | outPhaseWrite (m : BusMaster) (n : Fin 12) (v : Word)
  /-- ZDB_MEASURE (R91). -/
  | zdbMeasure (n : Fin 4) (err : Int)
  /-- FB_LOST (R94). -/
  | fbLost (n : Fin 4)
  /-- PPS_REALIGN (R107). -/
  | ppsRealign (m : BusMaster) (v : Word)
  /-- PPS_CFG_APPLY (R109). -/
  | ppsCfgApply (n : Fin 4)
  /-- PPS_OUT_ENABLE (R114). -/
  | ppsOutEnable (m : BusMaster) (n : Fin 4) (v : Word)
  /-- REF_LOSS (R115). -/
  | refLoss (n : Fin 16)
  /-- REF_FREQ_GATE (R117). -/
  | refFreqGate (n : Fin 16) (f : Int)
  /-- REF_INSTAB_UPDATE (R117). -/
  | refInstabUpdate (n : Fin 16) (mean : Int)
  /-- REF_PHASE_SAMPLE (R117). -/
  | refPhaseSample (n : Fin 16) (p : Int)
  /-- REF_SLOT_ENABLE (R118). -/
  | refSlotEnable (m : BusMaster) (n : Fin 16) (v : Word)
  /-- REF_SOAK_EXPIRE (R118). -/
  | refSoakExpire (n : Fin 16)
  /-- REF_WTR_EXPIRE (R118). -/
  | refWtrExpire (n : Fin 16)
  /-- REF_SWITCH_COMMIT (R125). -/
  | refSwitchCommit
  /-- DPLL_UPDATE (R132). -/
  | dpllUpdate (sample : Int)
  /-- DPLL_LOCKED (R134). -/
  | dpllLocked
  /-- REF_MODE_AUTO (R122). -/
  | refModeAuto (m : BusMaster) (v : Word)
  /-- REF_MODE_FORCED (R124). -/
  | refModeForced (m : BusMaster) (v : Word)
  /-- FORCE_HOLDOVER (R134). -/
  | forceHoldover (m : BusMaster) (v : Word)
  /-- FORCE_FREERUN (R136). -/
  | forceFreerun (m : BusMaster) (v : Word)
  /-- DCO_OWNER_CHANGE (R138). -/
  | dcoOwnerChange (m : BusMaster) (v : Word)
  /-- DCO_OFFSET_WRITE (R137). -/
  | dcoOffsetWrite (m : BusMaster) (v : Word)
  /-- HOLD_HISTORY_WRITE (R139). -/
  | holdHistoryWrite
  /-- FRAM_PERIODIC_SAVE (R144). -/
  | framPeriodicSave
  /-- FRAM_SAVE_READBACK (R144). -/
  | framSaveReadback (same : Bool)
  /-- FRAM_START_READ (R146). -/
  | framStartRead
  /-- ENS_ENABLE (R148). -/
  | ensEnable (m : BusMaster) (v : Word)
  /-- ENS_ALLAN_UPDATE (R150). -/
  | ensAllanUpdate
  /-- ENS_ESTIMATE_UPDATE (R150). -/
  | ensEstimateUpdate
  /-- ENS_MEMBER_RETURN (R152). -/
  | ensMemberReturn (k : Fin 8)
  /-- TB_INCR_WRITE (R171). -/
  | tbIncrWrite (m : BusMaster) (v : Word)
  /-- TB_SHADOW_MISMATCH (R174). -/
  | tbShadowMismatch
  /-- TB_HOST_STATE_REQ (R175). -/
  | tbHostStateReq (m : BusMaster) (v : Word)
  /-- TB_STEP_APPLY (R179). -/
  | tbStepApply
  /-- TB_STEER_SRC_WRITE (R354). -/
  | tbSteerSrcWrite (m : BusMaster) (v : Word)
  /-- TB_STEER_OWNER_WRITE (R172). -/
  | tbSteerOwnerWrite (m : BusMaster) (v : Word)
  /-- TB_STEP_GO (R180). -/
  | tbStepGo (m : BusMaster) (v : Word)
  /-- TB_LOAD_GO (R180). -/
  | tbLoadGo (m : BusMaster) (v : Word)
  /-- TB_SNAP_SW (R184). -/
  | tbSnapSw (m : BusMaster) (v : Word)
  /-- PPSIN_EDGE (R185). -/
  | ppsinEdge (n : Fin 2) (e : PinEdge)
  /-- TODIN_MESSAGE (R189). -/
  | todinMessage (bytes : List Byte)
  /-- TODIN_EDGE (R189). -/
  | todinEdge (n : Fin 2) (e : PinEdge)
  /-- TODIN_EDGE_TIMEOUT (R189). -/
  | todinEdgeTimeout
  /-- TODOUT_SEND (R188). -/
  | todoutSend
  /-- SCH_ARM (R191). -/
  | schArm (m : BusMaster) (n : Fin 64) (v : Word)
  /-- SCH_DISARM (R196). -/
  | schDisarm (m : BusMaster) (n : Fin 64) (v : Word)
  /-- SCH_ACTION_DUE (R192). -/
  | schActionDue (n : Fin 64)
  /-- QUAD_CFG_WRITE (R209). -/
  | quadCfgWrite (m : BusMaster) (q : Fin 16) (v : Word)
  /-- QUAD_PLL_LOCKED (R80). -/
  | quadPllLocked (q : Fin 17) (band : Fin 128)
  /-- QUAD_PLL_LOSS (R212). -/
  | quadPllLoss (q : Fin 17)
  /-- QUAD_PLL_RELOCK_TIMEOUT (R212). -/
  | quadPllRelockTimeout (q : Fin 17)
  /-- LANE_ENABLE (R212). -/
  | laneEnable (m : BusMaster) (n : Fin 65) (v : Word)
  /-- LANE_DISABLE (R212). -/
  | laneDisable (m : BusMaster) (n : Fin 65) (v : Word)
  /-- LANE_SIGNAL_DETECTED (R212). -/
  | laneSignalDetected (n : Fin 65)
  /-- LANE_CDR_LOCKED (R212). -/
  | laneCdrLocked (n : Fin 65)
  /-- CDR_TIMEOUT (R212). -/
  | cdrTimeout (n : Fin 65)
  /-- LANE_TRAINING_DONE (R222). -/
  | laneTrainingDone (n : Fin 65) (frames : List TrainFrame)
  /-- TRAIN_FALLBACK (R225). -/
  | trainFallback (n : Fin 65)
  /-- LANE_LOSS_OF_SIGNAL (R212). -/
  | laneLossOfSignal (n : Fin 65) (cause : LossCause)
  /-- LANE_ALIGNED (R219). -/
  | laneAligned (n : Fin 65) (lat : List LaneLat)
  /-- ALIGN_TIMEOUT (R212). -/
  | alignTimeout (n : Fin 65)
  /-- LANE_BACKOFF_RESET (R214). -/
  | laneBackoffReset (n : Fin 65)
  /-- LANE_SYNT_ESTIMATE (R228). -/
  | laneSyntEstimate (n : Fin 65) (beats : List Beat) (every : Nat)
  /-- LANE_CROSSING_MARGIN (R230). -/
  | laneCrossingMargin (n : Fin 65)
  /-- LANE_CLOCK_REQ_WRITE (R230). -/
  | laneClockReqWrite (m : BusMaster) (n : Fin 65) (v : Word)
  /-- LANE_CLOCK_SWITCH (R231). -/
  | laneClockSwitch (n : Fin 65) (lat : List LaneLat)
  /-- LANE_SWITCH_FORCE (R231). -/
  | laneSwitchForce (n : Fin 65) (lat : List LaneLat)
  /-- RCS_LANE_WRITE (R239). -/
  | rcsLaneWrite (m : BusMaster) (k : Fin 4) (v : Word)
  /-- RCS_RESTART (R239). -/
  | rcsRestart (k : Fin 4)
  /-- PRBS_GEN_ENABLE (R241). -/
  | prbsGenEnable (m : BusMaster) (n : Fin 65) (v : Word)
  /-- INJ_SINGLE (R243). -/
  | injSingle (m : BusMaster) (n : Fin 65) (v : Word)
  /-- EYE_SCAN_START (R245). -/
  | eyeScanStart (m : BusMaster) (n : Fin 65) (v : Word)
  /-- EYE_SCAN_DONE (R245). -/
  | eyeScanDone (n : Fin 65) (errs : Nat)
  /-- PORT_ENABLE (R259). -/
  | portEnable (m : BusMaster) (p : Fin 66) (v : Word)
  /-- PORT_DISABLE (R259). -/
  | portDisable (m : BusMaster) (p : Fin 66) (v : Word)
  /-- PORT_UP_HOLD_EXPIRE (R259). -/
  | portUpHoldExpire (p : Fin 66)
  /-- PORT_DOWN_HOLD_EXPIRE (R259). -/
  | portDownHoldExpire (p : Fin 66)
  /-- FLUSH_DONE (R430). -/
  | flushDone (p : Fin 66)
  /-- FRAME_DECISION (R370). -/
  | frameDecision (p : Fin 66) (rx : RxWindow)
  /-- FRAME_END (R377). -/
  | frameEnd (p : Fin 66) (rest : List Byte) (bad : Bool)
  /-- EGRESS_SCHEDULE (R421). -/
  | egressSchedule (p : Fin 66) (tx : TxTiming)
  /-- PHA_SAMPLE (R294). -/
  | phaSample (c : Fin 80) (beat : Beat)
  /-- PHA_TXPH_MEASURE (R301). -/
  | phaTxphMeasure (q : Fin 17) (phase : Fin 26215)
  /-- PHA_CH_CFG_WRITE (R305). -/
  | phaChCfgWrite (m : BusMaster) (c : Fin 80) (v : Word)
  /-- PHA_TRIM_WRITE (R311). -/
  | phaTrimWrite (m : BusMaster) (p : Fin 66) (tx : Bool) (v : Word)
  /-- FM_ENABLE (R329). -/
  | fmEnable (m : BusMaster) (v : Word)
  /-- FM_DISABLE (R360). -/
  | fmDisable (m : BusMaster) (v : Word)
  /-- FM_BLOCK_RESET (R357). -/
  | fmBlockReset (m : BusMaster) (v : Word)
  /-- FM_DOMAIN_ENABLE (R327). -/
  | fmDomainEnable (m : BusMaster) (d : Fin 4) (v : Word)
  /-- FM_DOMAIN_DISABLE (R327). -/
  | fmDomainDisable (m : BusMaster) (d : Fin 4) (v : Word)
  /-- FM_SESSION_ENABLE (R329). -/
  | fmSessionEnable (m : BusMaster) (k : Fin 512) (v : Word)
  /-- FM_SESSION_DISABLE (R333). -/
  | fmSessionDisable (m : BusMaster) (k : Fin 512) (v : Word)
  /-- INITIALIZATION_COMPLETE (R333). -/
  | initializationComplete (k : Fin 512)
  /-- SYNC_RX (R348). -/
  | syncRx
  /-- FOLLOW_UP_RX (R348). -/
  | followUpRx
  /-- DELAY_REQ_RX (R343). -/
  | delayReqRx
  /-- DELAY_RESP_RX (R346). -/
  | delayRespRx
  /-- PDELAY_REQ_RX (R343). -/
  | pdelayReqRx
  /-- PDELAY_RESP_RX (R309). -/
  | pdelayRespRx
  /-- PDELAY_RESP_FOLLOW_UP_RX (R309). -/
  | pdelayRespFollowUpRx
  /-- ANNOUNCE_RX (R340). -/
  | announceRx
  /-- SIGNALING_RX (R334). -/
  | signalingRx
  /-- SYNC_DUE (R338). -/
  | syncDue (k : Fin 512)
  /-- DELAY_REQ_DUE (R338). -/
  | delayReqDue (k : Fin 512)
  /-- PDELAY_REQ_DUE (R338). -/
  | pdelayReqDue (k : Fin 512)
  /-- ANNOUNCE_DUE (R338). -/
  | announceDue (k : Fin 512)
  /-- L1SYNC_DUE (R334). -/
  | l1syncDue (k : Fin 512)
  /-- STAMP_RETURN (R339). -/
  | stampReturn
  /-- STATE_DECISION (R340). -/
  | stateDecision (d : Fin 4)
  /-- QUALIFICATION_TIMEOUT (R333). -/
  | qualificationTimeout (k : Fin 512)
  /-- ANNOUNCE_RECEIPT_TIMEOUT (R355). -/
  | announceReceiptTimeout (k : Fin 512)
  /-- SYNC_RECEIPT_TIMEOUT (R355). -/
  | syncReceiptTimeout (k : Fin 512)
  /-- FOLLOW_UP_TIMEOUT (R348). -/
  | followUpTimeout (k : Fin 512)
  /-- RESPONSE_TIMEOUT (R355). -/
  | responseTimeout (k : Fin 512)
  /-- L1SYNC_RECEIPT_TIMEOUT (R355). -/
  | l1syncReceiptTimeout (k : Fin 512)
  /-- SESSION_STALL (R355). -/
  | sessionStall (k : Fin 512)
  /-- ENGINE_STALL (R355). -/
  | engineStall
  /-- GLB_RELOAD (R43). -/
  | glbReload (m : BusMaster) (v : Word)
  /-- MAC_CMD_INSERT (R379). -/
  | macCmdInsert (m : BusMaster) (v : Word)
  /-- MAC_CMD_DELETE (R379). -/
  | macCmdDelete (m : BusMaster) (v : Word)
  /-- MAC_CMD_LOOKUP (R379). -/
  | macCmdLookup (m : BusMaster) (v : Word)
  /-- FLUSH_DYNAMIC (R379). -/
  | flushDynamic (m : BusMaster) (v : Word)
  /-- FLUSH_DYNAMIC_DONE (R379). -/
  | flushDynamicDone
  /-- MAC_AGE_SCAN (R378). -/
  | macAgeScan
  /-- STREAM_ENTRY_WRITE (R393). -/
  | streamEntryWrite (m : BusMaster) (n : Fin 4096) (be : Fin 16) (v : Word)
  /-- METER_ENTRY_WRITE (R402). -/
  | meterEntryWrite (m : BusMaster) (n : Fin 8192) (w : Fin 5) (be : Fin 16) (v : Word)
  /-- FRER_RESET (R393). -/
  | frerReset (n : Fin 4096)
  /-- SPILL_ENABLE (R413). -/
  | spillEnable (m : BusMaster) (v : Word)
  /-- SPILL_INIT_DONE (R413). -/
  | spillInitDone
  /-- SPILL_INIT_TIMEOUT (R413). -/
  | spillInitTimeout
  /-- SPILL_PAGE_WRITE (R414). -/
  | spillPageWrite (p : Fin 66) (t : Fin 8)
  /-- REFILL_PAGE_READ (R417). -/
  | refillPageRead (p : Fin 66) (t : Fin 8)
  /-- REFILL_READ_DONE (R551). -/
  | refillReadDone (p : Fin 66) (t : Fin 8) (check : PageCheck)
  /-- READ_RETRY (R420). -/
  | readRetry (p : Fin 66) (t : Fin 8)
  /-- GATE_EVENT (R425). -/
  | gateEvent (p : Fin 66)
  /-- QUEUE_STUCK_TIMEOUT (R432). -/
  | queueStuckTimeout (p : Fin 66) (t : Fin 8)
  /-- RESIDENCE_SWEEP (R433). -/
  | residenceSweep
  /-- QUEUE_RESUME (R434). -/
  | queueResume (m : BusMaster) (p : Fin 66) (t : Fin 8) (v : Word)
  /-- POOL_AGE_EPOCH (R441). -/
  | poolAgeEpoch
  /-- ALLOC (R442). -/
  | alloc (m : BusMaster) (v : Word)
  /-- FREE (R442). -/
  | free (m : BusMaster) (v : Word)
  /-- INCREF (R442). -/
  | incref (m : BusMaster) (v : Word)
  /-- QUERY (R442). -/
  | query (m : BusMaster) (v : Word)
  /-- POOL_ENABLE (R443). -/
  | poolEnable (m : BusMaster) (n : Fin 16) (v : Word)
  /-- XC_STREAM_INSTALL (R457). -/
  | xcStreamInstall (m : BusMaster) (n : Fin 1024) (v : Word)
  /-- XC_STREAM_UNINSTALL (R456). -/
  | xcStreamUninstall (m : BusMaster) (n : Fin 1024) (v : Word)
  /-- XC_LAUNCH (R462). -/
  | xcLaunch (p : Fin 66) (tx : TxTiming)
  /-- VERIFY_DONE (R476). -/
  | verifyDone (p : Fin 66) (ok : Bool)
  /-- MPACKET_RX (R474). -/
  | mpacketRx (p : Fin 66) (mp : MPacket)
  /-- TIU_ARM (R503). -/
  | tiuArm (m : BusMaster) (v : Word)
  /-- TIU_DISARM (R503). -/
  | tiuDisarm (m : BusMaster) (v : Word)
  /-- TIU_BASE_LOCKED (R495). -/
  | tiuBaseLocked
  /-- TIU_CAL_DONE (R487). -/
  | tiuCalDone (k : TiuCodes)
  /-- TIU_START_EDGE (R497). -/
  | tiuStartEdge (e : TiuInput) (stop : TiuEdge) (ago : Nat)
  /-- TIU_STOP_EDGE (R497). -/
  | tiuStopEdge (e : TiuStop)
  /-- TIU_WINDOW_CLOSE (R499). -/
  | tiuWindowClose
  /-- TIU_START_TIMEOUT (R495). -/
  | tiuStartTimeout
  /-- TIU_REF_PRESENT (R493). -/
  | tiuRefPresent
  /-- TIU_REF_LOST (R493). -/
  | tiuRefLost
  /-- TIU_FIFO_READ (R515). -/
  | tiuFifoRead (m : BusMaster)
  /-- CAL_PASS_START (R521). -/
  | calPassStart (k : Fin 6)
  /-- CAL_RUN (R521). -/
  | calRun (m : BusMaster) (k : Fin 6) (v : Word)
  /-- CAL_APPLY (R524). -/
  | calApply (k : Fin 6) (inst : Fin 80) (r : CalResult)
  /-- SCRUB_WORD_READ (R552). -/
  | scrubWordRead (r : Fin 16) (addr : Word) (flips : List Flip) (last : Bool)
  /-- TABLE_RELOAD_DONE (R546). -/
  | tableReloadDone (sections : List (List Byte))
  /-- CFG_SWEEP (R553). -/
  | cfgSweep (upsets : List CfgUpset)
  /-- ECC_INJ_ARM (R558). -/
  | eccInjArm (m : BusMaster) (v : Word)
  /-- ECC_LOG_READ (R559). -/
  | eccLogRead (m : BusMaster)
  /-- PAIR_ENABLE (R562). -/
  | pairEnable (m : BusMaster) (v : Word)
  /-- PAIR_DISABLE (R569). -/
  | pairDisable (m : BusMaster) (v : Word)
  /-- MATE_ALIVE_LOST (R568). -/
  | mateAliveLost
  /-- MATE_ALIVE_PRESENT (R564). -/
  | mateAlivePresent
  /-- HEALTH_SEND (R566). -/
  | healthSend
  /-- HEALTH_RX (R566). -/
  | healthRx (body : List Byte)
  /-- REPORT_TIMEOUT (R568). -/
  | reportTimeout
  /-- FIRST_REPORT_TIMEOUT (R569). -/
  | firstReportTimeout
  /-- SEQ_RX (R575). -/
  | seqRx (body : List Byte)
  /-- SEQ_SEND (R575). -/
  | seqSend
  /-- SEQ_MATCH_TIMEOUT (R575). -/
  | seqMatchTimeout (n : Fin 4096)
  /-- HO_REQ (R581). -/
  | hoReq (m : BusMaster) (v : Word)
  /-- HO_REVERTIVE_REQUEST (R581). -/
  | hoRevertiveRequest
  /-- HO_REQ_RX (R581). -/
  | hoReqRx (body : List Byte)
  /-- HO_ACK_RX (R581). -/
  | hoAckRx (body : List Byte)
  /-- HO_ABORT_RX (R582). -/
  | hoAbortRx (body : List Byte)
  /-- HO_ACK_TIMEOUT (R582). -/
  | hoAckTimeout
  /-- DEMOTE_RX (R569). -/
  | demoteRx (body : List Byte)
  /-- MARCH_TEST (R579). -/
  | marchTest (fails : MarchFails)
  /-- LANE_LOOP_TEST (R579). -/
  | laneLoopTest (n : Fin 65) (errs : Nat)
  /-- RAIL_WARNING (R589). -/
  | railWarning (rail : Fin 5)
  /-- PFAIL_ASSERT (R590). -/
  | pfailAssert
  /-- SHED_GROUP (R592): `g` names shed group g + 1. -/
  | shedGroup (g : Fin 3)
  /-- SHED3_ENTRY (R592). -/
  | shed3Entry
  /-- SUPPLY_TRIGGER_CLEAR (R594). -/
  | supplyTriggerClear
  /-- RESTORE_START (R598). -/
  | restoreStart
  /-- RESTORE_STEP (R598). -/
  | restoreStep
  /-- IMAGE_READ_START (R629). -/
  | imageReadStart
  /-- SECTION_READ_DONE (R629). -/
  | sectionReadDone (bytes : List Byte)
  /-- HEADER (R621). -/
  | header (bytes : List Byte)
  /-- WRITE32 (R620). -/
  | write32
  /-- WRITE_BLOCK (R620). -/
  | writeBlock
  /-- FILL (R620). -/
  | fill
  /-- MODIFY (R620). -/
  | modify
  /-- WAIT_TIME (R620). -/
  | waitTime
  /-- WAIT_TIME_EXPIRE (R620). -/
  | waitTimeExpire
  /-- WAIT_BIT (R620). -/
  | waitBit
  /-- WAIT_BIT_TIMEOUT (R620). -/
  | waitBitTimeout
  /-- TABLE_LOAD (R626). -/
  | tableLoad
  /-- KEY (R620). -/
  | key
  /-- SIGNATURE (R629). -/
  | signature
  /-- SIGNATURE_VERIFIED (R629). -/
  | signatureVerified
  /-- END (R627). -/
  | end_
  /-- IMAGE_UNDO_DONE (R632). -/
  | imageUndoDone
  /-- LOAD_TIMEOUT (R638). -/
  | loadTimeout
  /-- HOST_LOAD_START (R634). -/
  | hostLoadStart (m : BusMaster) (v : Word)
  /-- HOST_ABORT (R630). -/
  | hostAbort (m : BusMaster) (v : Word)
  /-- HOST_FIFO_WRITE (R635). -/
  | hostFifoWrite (m : BusMaster) (v : Word)
  /-- HOST_IDLE (R630). -/
  | hostIdle
  /-- HOST_WAIT_TIMEOUT (R636). -/
  | hostWaitTimeout
  /-- PCIE_PERST (R652). -/
  | pciePerst
  /-- DMA_TX_DESCRIPTOR (R655). -/
  | dmaTxDescriptor (t : Fin 8) (desc : List Word) (frame : List Byte)
  /-- DMA_HOST_READ_TIMEOUT (R654). -/
  | dmaHostReadTimeout (t : Fin 8)
  /-- DMA_RX_DELIVER (R656). -/
  | dmaRxDeliver (t : Fin 8) (bufLen : Nat)
  /-- SPI_WRITE (R657). -/
  | spiWrite (addr : Word) (data : List Byte)
  /-- SPI_READ (R657). -/
  | spiRead (addr : Word) (n : Nat)
  /-- SPI_STATUS (R657). -/
  | spiStatus
  /-- MMP_REQUEST (R660). -/
  | mmpRequest
  /-- BYPASS (R663). -/
  | bypass
  /-- IDCODE (R663). -/
  | idcode
  /-- SAMPLE_PRELOAD (R663). -/
  | samplePreload
  /-- EXTEST (R663). -/
  | extest
  /-- EXTEST_PULSE (R663). -/
  | extestPulse
  /-- EXTEST_TRAIN (R663). -/
  | extestTrain
  /-- EXTEST_EXIT (R663). -/
  | extestExit
  /-- IRQ_REARM (R665). -/
  | irqRearm (m : BusMaster) (v : Word)
  /-- I2C_COMMAND (R667). -/
  | i2cCommand (m : BusMaster) (b : Fin 4) (v : Word)
  /-- I2C_DONE (R667). -/
  | i2cDone (b : Fin 4) (r : I2cResult) (data : List Byte)
  /-- I2C_TIMEOUT (R667). -/
  | i2cTimeout (b : Fin 4)
  /-- MDIO_FRAME (R668). -/
  | mdioFrame (m : BusMaster) (v : Word)
  /-- MDIO_DONE (R668). -/
  | mdioDone (data : Fin 65536)
  /-- PMC_CLEAR (R674). -/
  | pmcClear (m : BusMaster) (v : Word)
  /-- PMC_FREEZE (R674). -/
  | pmcFreeze (m : BusMaster) (v : Word)
  /-- TALLY_DUMP_PERIODIC (R675). -/
  | tallyDumpPeriodic
  /-- TALLY_DUMP_NOW (R675). -/
  | tallyDumpNow (m : BusMaster) (v : Word)
  /-- PRBS_CHECKER_LOCK (R242). -/
  | prbsCheckerLock (l : LineBits)
  /-- PRBS_CHECKER_UNLOCK (R242). -/
  | prbsCheckerUnlock (n : Fin 65) (bits : List Bool)
  /-- TIU_MULTIPLIER_LOSS_OF_LOCK (R494). -/
  | tiuMultiplierLossOfLock
  /-- RAIL_BELOW_HYSTERESIS (R599). -/
  | railBelowHysteresis (rail : Fin 5)
  /-- WAIT_BIT_MATCH (R620). -/
  | waitBitMatch
  /-- FM_BLOCK_RESET_DONE (R357). -/
  | fmBlockResetDone
  /-- PCIE_CONFIGURATION_REQUEST (R652). -/
  | pcieConfigurationRequest (q : CfgReq)
deriving DecidableEq, Repr

end Sys2Proof
end

