-- ==== Sys2Proof/Decode.lean ====
section
/-!
DEFINITION. The commands a word spells. No row of the table of operations and events gives bits: the block has no instruction
words, and a command comes as itself, with its operands.
-/

namespace Sys2Proof

/-- The command an instruction word spells: none, since the table gives no row any bits. -/
def decodeTableWord (_nbits _w : Nat) : Option Instr := none

end Sys2Proof
end

