-- ==== Sys2Proof/Config.lean ====
section
/-!
DEFINITION. What the spec leaves open: free values, each an uninterpreted constant (no body, so nothing can be proved of
its value), applied to the number of the free value (`State.freeNo`, which each use advances) or to the operands.
-/

namespace Sys2Proof

/-- R132 gives the DPLL's bandwidths by code and not the gain that makes them: the proportional gain per mHz, in 2^-32 s^-1, less one. -/
opaque Config.dpllScale : Nat

/-- R132: the phase error the DPLL reports where its reference is a time reference (slots 12 to 15), in pu. -/
opaque Config.dpllPhaseError : Nat → Int

/-- R143 stores R140 evaluated at the save; with no VALID entry and no seed, R140 gives no value. -/
opaque Config.holdEstimate : Nat → Int

/-- R150 divides by a member's variance; where it is zero the spec states no weight. -/
opaque Config.ensembleWeight : Nat → Nat

/-- R352 gives the gains of a domain's servo; where the ensemble steers it names none: the proportional gain, in 2^-16 s^-1. -/
opaque Config.ensembleKp : Nat → Nat

/-- The integral gain where the ensemble steers, in 2^-24 s^-2 (R352 names none). -/
opaque Config.ensembleKi : Nat → Nat

/-- R84 and R85 speak of an output's high and low phase and state no duty: the VCO cycles of the high phase less one, by divider. -/
opaque Config.outHighCycles : Nat → Nat

/-- No row of the table is a rise of the OCXO_WARM input, which R55 reports: whether it rises at a wall time (4 ns units). -/
opaque Config.ocxoRises : Nat → Bool

/-- R240 gives a PRBS by its polynomial and no place to start: where a generator starts in it. -/
opaque Config.prbsStart : Nat → Nat

/-- R221 states no rule for the receiver's adaptation: a step of it (0 none, 1 up, 2 down, modulo 3). -/
opaque Config.adaptStep : Nat → Nat

/-- R222 leaves the requests sent to the partner to the receiver's own adaptation: a request. -/
opaque Config.trainRequest : Nat → Nat

/-- R222 supports the request for the initial taps and states none: the taps, as one number. -/
opaque Config.trainInit : Nat → Nat

/-- R488 and R494 record a result for a measurement that was not made, and state no value for it: its 64 bits. -/
opaque Config.tiuResult : Nat → Nat

/-- The start time recorded with a result whose measurement had no start (R488, R494 state none), in 2^-16 ns. -/
opaque Config.tiuStart : Nat → Nat

/-- R489 divides by the bin positions between K1 and K2; where a table has none there, the spec states no interval, in 2^-16 ns. -/
opaque Config.tiuInterval : Nat → Int

/-- R420 speaks of the reads on one channel and the spec does not say on which channel a page lies: the channel of a page. -/
opaque Config.spillChannel : Nat → Nat

/-- R544 speaks of the banks and rows of a memory and the spec gives no geometry: the bank of a region's byte address. -/
opaque Config.eccBank : Nat → Nat → Nat

/-- The row of a region's byte address (R544). -/
opaque Config.eccRow : Nat → Nat → Nat

/-- R537 names the object a word of a hardware region belongs to and no layout: the object's number, from region and address. -/
opaque Config.eccObject : Nat → Nat → Nat

/-- The byte address, in its region, of an object of a hardware region (R537, R559). -/
opaque Config.eccAddress : Nat → Nat → Nat

/-- An edge of a pulse output reaches the TIU's interpolators by way of its ball (R484); R102 places it within the tick only: the coarse
index of the edge ending its tau, counted from the tick's start. -/
opaque Config.tiuOwnCoarse : Nat → Fin 8

/-- The raw code of such an edge. -/
opaque Config.tiuOwnCode : Nat → Fin 512

/-- R667 ends a command with TIMEOUT and states no BYTES for it: the bytes transferred until then. -/
opaque Config.i2cCount : Nat → Nat

/-- A byte read before the clock stretch that ended a read (R667 states none), by its place. -/
opaque Config.i2cByte : Nat → Nat → Byte

/-- R651 names the Vendor ID as Keadar's and gives no number. -/
opaque Config.pcieVendor : Nat

/-- A dword of configuration space other than the IDs and the class code: the PCI Express Base Specification's, not the spec's (R651). -/
opaque Config.pcieSpace : Nat → Nat

end Sys2Proof
end

