-- ==== Sys2Proof/Machine/Store.lean ====
section
/-!
DEFINITION. Sparse storage in one canonical form: a list of (key, value) pairs with strictly rising keys, in which no
entry holds the value that an unlisted key reads as.  Registers, per-object records and table bytes are all held so.
-/

namespace Sys2Proof.Machine

/-- A sparse map; what an unlisted key reads as is given to each operation. -/
abbrev SMap (α : Type) := List (Nat × α)

/-- The value at key `k`, `d` where none is listed. -/
def smGet {α : Type} (d : α) : SMap α → Nat → α
  | [], _ => d
  | (k', v) :: t, k => if k' = k then v else smGet d t k

/-- The map without key `k`. -/
def smErase {α : Type} : SMap α → Nat → SMap α
  | [], _ => []
  | (k', v) :: t, k => if k' = k then smErase t k else (k', v) :: smErase t k

/-- The map with the pair put before the first greater key. -/
def smInsert {α : Type} : SMap α → Nat → α → SMap α
  | [], k, v => [(k, v)]
  | (k', v') :: t, k, v => if k < k' then (k, v) :: (k', v') :: t else (k', v') :: smInsert t k v

/-- Key `k` now reads `v`; nothing is listed for it where `v` is what an unlisted key reads as. -/
def smSet {α : Type} [DecidableEq α] (d : α) (m : SMap α) (k : Nat) (v : α) : SMap α :=
  if v = d then smErase m k else smInsert (smErase m k) k v

/-- The keys rise strictly, the first above `lo` where a bound is given. -/
def smSorted {α : Type} : Option Nat → SMap α → Bool
  | _, [] => true
  | none, (k, _) :: t => smSorted (some k) t
  | some b, (k, _) :: t => decide (b < k) && smSorted (some k) t

/-- The canonical form: strictly rising keys and no entry that reads as an unlisted key does. -/
def smWf {α : Type} [DecidableEq α] (d : Nat → α) (m : SMap α) : Bool :=
  smSorted none m && m.all (fun e => decide (e.2 ≠ d e.1))

end Sys2Proof.Machine
end

