-- ==== Sys2Proof/Machine/State.lean ====
section
/-!
DEFINITION. The machine's state as plain data: the register file (sparse, canonical), the tables of the table windows, the
FRAM, the records behind the registers (one structure per block), what has left the device, and the queue of commands.
-/

namespace Sys2Proof.Machine

/-- A register: its address and the word it holds after reset (R689). -/
structure Reg where
  addr : Nat
  reset : Word
deriving DecidableEq, Repr

/-- A field of a register word. -/
structure Fld where
  reg : Reg
  lsb : Nat
  width : Nat
deriving DecidableEq, Repr

/-- A value wider than 32 bits, in consecutive words, the lowest first (R10). -/
structure Wide where
  addr : Nat
  words : Nat
  reset : Nat
deriving DecidableEq, Repr

/-- Word `k` of a wide value. -/
def Wide.word (w : Wide) (k : Nat) : Reg := ⟨w.addr + 4 * k, BitVec.ofNat 32 (w.reset / 2 ^ (32 * k))⟩

/-- The device states of R38. -/
inductive DevState where
  | reset | clockStart | loading | running | safeMode
deriving DecidableEq, Repr

/-! ### Records behind the registers -/

/-- Where a clock output stands in its cycle (R84, R85): stopped, held low before its first edge, in a high phase, in a low phase, or
held low before it may go to high impedance. -/
inductive OutPhase where
  | off | hold | high | low | stop
deriving DecidableEq, Repr

/-- A clock output: applied phase (pu), where it stands, the grid number of its cycle, the place of its next edge (2^-32 VCO cycles after
the last release of its source), the code its rotator is set to (whole VCO cycles times 1024 and the remainder), whether a target
written while stopped waits for the rotator (R89, R90), a linearity table not yet live (R519), good zero-delay measurements in a row
(R92), the source and the divider it runs on, and the place from which its first edge is awaited (R84, R85). -/
structure OutRec where
  applied : Int := 0
  phase : OutPhase := .off
  idx : Int := 0
  next : Int := 0
  code : Int := 0
  jump : Bool := false
  table : Option (List Int) := none
  zdbGood : Nat := 0
  src : Nat := 0
  div : Nat := 0
  start : Int := 0
deriving DecidableEq, Repr

/-- A pulse output: its pulse counter (2^-40 ns), the settings in effect, whether writes wait, and where its pulses stand
(R102 to R109). -/
structure PpsRec where
  count : Nat := 0
  mode : Nat := 0
  period : Nat := 1000000000
  width : Nat := 100000000
  offset : Int := 0
  pattern : Nat := 0
  pend : Bool := false
  since : Nat := 0
  gave : Bool := false
  guard : Bool := false
  high : Bool := false
  left : Nat := 0
  edgeSec : Nat := 0
  realign : Bool := false
deriving DecidableEq, Repr

/-- The MASH 1-1-1 modulator (R61): its three 32-bit accumulators, the carries of the second and third stage that the differences
need, and the whole multiplier it gives in this cycle. -/
structure MashRec where
  a1 : Nat := 0
  a2 : Nat := 0
  a3 : Nat := 0
  c2 : Int := 0
  c3 : Int := 0
  c3old : Int := 0
  mult : Int := 0
deriving DecidableEq, Repr

/-- The synthesiser: a lock attempt under way and the band it tries first, relock overdue (R72), LFSR with its last bit, pre-accumulator
and modulator, per aux the plan (plus 1) being locked, the multiplier in force (2^-32; 0 none), a hop that waits for the Capstan and the
wall time its half rate ends, the VCO cycles (2^-32) of each source since its release, and the wall time of the Capstan's last release
(R61 to R83, R293). -/
structure SynRec where
  attempt : Bool := false
  tryBand : Nat := 0
  late : Bool := false
  lfsr : BitVec 23 := 0x7FFFFF
  ditherBit : Bool := false
  preAcc : Nat := 0
  mash : MashRec := {}
  auxHop : SMap Nat := []
  auxMul : SMap Nat := []
  auxWait : SMap Bool := []
  auxSafe : SMap Nat := []
  vco : SMap Nat := []
  release : Nat := 0
deriving DecidableEq, Repr

/-- A step pending in the time base: its size in 2^-40 ns. -/
abbrev StepReq := Option Int

/-- The time base: counter and shadow (2^-40 ns), offsets counted toward FINE, pending steps by origin (a TIME_STEP
action's with its number), the runs of (TB_INCR, ticks) behind the holdover mean, the time-of-day receiver, and a software snapshot asked for (R169 to R189). -/
structure TbRec where
  count : Nat := 0
  shadow : Nat := 0
  fineCount : Nat := 0
  ferryStep : StepReq := none
  hostStep : StepReq := none
  load : Option Nat := none
  todin : StepReq := none
  actSteps : List (Int × Nat) := []
  runs : List (Nat × Nat) := []
  autoDue : Bool := true
  tod : List Nat := []
  snapDue : Bool := false
deriving DecidableEq, Repr

/-- The Allan-variance estimator of R150: the last two 16 s means, and the estimate num / den in SNS64 squared. -/
structure Allan where
  x1 : Option Int := none
  x2 : Option Int := none
  num : Nat := 0
  den : Nat := 1
  terms : Nat := 0
deriving DecidableEq, Repr

/-- A stored phase sample of a candidate, in pu, and its tick. -/
structure RefPoint where
  phase : Int
  at_ : Nat
deriving DecidableEq, Repr

/-- A candidate reference: what R118 remembers of it, its last phase samples and its timers (CLK_TIME ticks). -/
structure RefRec where
  fromFailed : Bool := false
  wasQual : Bool := false
  lost : Bool := false
  freqSeen : Bool := false
  against : Bool := false
  p1 : Option RefPoint := none
  p2 : Option RefPoint := none
  timerEnd : Nat := 0
  rival : Option Nat := none
  nearSince : Option Nat := none
  allan : Allan := {}
deriving DecidableEq, Repr

/-- One entry of the holdover history (R139). -/
structure HoldEntry where
  mean : Int
  valid : Bool
deriving DecidableEq, Repr

/-- A header save whose read-back is due (R144). -/
structure FramSave where
  slotB : Bool
  seq : Nat
  idx : Nat
deriving DecidableEq, Repr

/-- Selector, DPLL and holdover (R122 to R147). -/
structure SelRec where
  target : Option Nat := none
  buildOut : Int := 0
  integ : Int := 0
  takeUp : Bool := false
  ctrlWait : Option Nat := none
  seedOn : Bool := false
  lossSec : Nat := 0
  fromSeed : Bool := false
  secs : Nat := 0
  dcoSum : Int := 0
  dcoTicks : Nat := 0
  secBad : Bool := true
  hist : List HoldEntry := []
  sinceSave : Nat := 0
  readDue : Bool := false
  readDone : Bool := false
  newestB : Bool := true
  newestSeq : Nat := 0
  newestIdx : Nat := 0
  anyHeader : Bool := false
  save : Option FramSave := none
  seed : Int := 0
  seedTime : Nat := 0
  seedAged : Bool := false
  lgSlotB : Bool := false
  lgSeq : Nat := 1
deriving DecidableEq, Repr

/-- An ensemble member (R149 to R152): estimator, second differences, latest offset, sum of the offsets of this 16 s,
updates in a row beyond DISAGREE, and since when it has been near E. -/
structure EnsRec where
  allan : Allan := {}
  diffs : Nat := 0
  latest : Option Int := none
  sum : Int := 0
  n : Nat := 0
  beyond : Nat := 0
  nearSince : Option Nat := none
deriving DecidableEq, Repr

/-- A buffer of a pool (R437), and its written mark (R538). -/
structure BufRec where
  alloc : Bool := false
  owner : Nat := 0
  refs : Nat := 0
  age : Nat := 0
  written : Bool := false
deriving DecidableEq, Repr

/-- One cell of a queued copy: its copy, its number in the frame, and its buffer in pool 0. -/
structure QCell where
  copy : Nat
  k : Nat
  buf : Nat
deriving DecidableEq, Repr

/-- A page of a spilled segment: its buffer in pool 1 and the cells written into it (R414). -/
structure QPage where
  buf : Nat
  cells : List QCell
deriving DecidableEq, Repr

/-- A queue: its copies in order, its three segments, RED average (avg / 2^avgExp cells), deficit, credit (10^-9 bits) and the
time (ps) it stands for, stuck flushes, page reads under way with the cells each has taken, and whether a refill goes on (R405 to R434). -/
structure QRec where
  copies : List Nat := []
  head : List QCell := []
  pages : List QPage := []
  staging : List QCell := []
  avg : Nat := 0
  avgExp : Nat := 0
  deficit : Int := 0
  credit : Int := 0
  creditAt : Nat := 0
  stuckAt : List Nat := []
  reads : Nat := 0
  taken : List (List Nat) := []
  refilling : Bool := false
deriving DecidableEq, Repr

/-- An insertion command carried with a frame (R272, R279). -/
structure InsCmd where
  op : Nat := 0
  l4 : Nat := 0
  loopback : Bool := false
  offset : Nat := 0
  l4off : Nat := 0
  base : Nat := 0
  addend : Int := 0
deriving DecidableEq, Repr

/-- A frame the Ferryman has handed to a port's egress (R335, R339): its bytes without FCS, its insertion command, the session,
the kind of message (0 to 4: Sync, Delay_Req, Pdelay_Req, Pdelay_Resp two-step, any other), sequenceId and pool 3 buffer. -/
structure OrigMsg where
  bytes : List Byte := []
  ins : InsCmd := {}
  sess : Nat := 0
  kind : Nat := 4
  seq : Nat := 0
  buf : Nat := 0
deriving DecidableEq, Repr

/-- What the Ferryman knows with a receive stamp (R335, R346, R349): the port's TRIM_GEN, TB_EPOCH, the gain and DOM_OFFSET of the session's
domain, and the CLK_TIME cycle. -/
structure StampCtx where
  gen : Nat := 0
  epoch : Nat := 0
  gain : Int := 0
  doff : Int := 0
  at_ : Nat := 0
deriving DecidableEq, Repr

/-- A frame held or in reception: ingress port, the bytes so far, whether its tail has arrived and it is good, its stamp,
class, colour, tag and what the pipeline decided of it; whether it is to end as bad, and whether a cell of it carries a
poison mark (R549). -/
structure FrameRec where
  live : Bool := false
  port : Nat := 0
  bytes : List Byte := []
  tail : Bool := false
  good : Bool := true
  stamp : Nat := 0
  fine : Bool := false
  invalid : Bool := false
  vid : Nat := 0
  pcp : Nat := 0
  dei : Bool := false
  tc : Nat := 0
  colour : Nat := 0
  learn : Bool := false
  meter : Option Nat := none
  provisional : Nat := 0
  seqNo : Option Nat := none
  push : Bool := false
  pop : Bool := false
  paired : Option Nat := none
  waiting : Bool := false
  cells : List Nat := []
  copies : Nat := 0
  express : Option Nat := none
  arrived : Nat := 0
  ins : InsCmd := {}
  fate : Nat := 0
  fateSess : Nat := 0
  ctx : StampCtx := {}
  poisoned : Bool := false
  poison : Bool := false
deriving DecidableEq, Repr

/-- One copy of a frame, for one egress port, with its transmit stamp once it has begun, and how many of the frame's bytes had arrived
then, and whether its tail had (R276). -/
structure CopyRec where
  live : Bool := false
  frame : Nat := 0
  port : Nat := 0
  queue : Nat := 0
  cut : Bool := false
  ce : Bool := false
  untag : Bool := false
  ins : InsCmd := {}
  sending : Bool := false
  stamp : Nat := 0
  had : Nat := 0
  whole : Bool := false
  stomp : Bool := false
deriving DecidableEq, Repr

/-- A launch pending or under way on an express egress port: stream, copy, and the launch time L as a CLK_FAB cycle, counted five to a
CLK_TIME tick, with the fine phase beyond its start (1/16,896 of 1/16 ps) (R462, R464, R470 to R472). -/
structure LaunchRec where
  stream : Nat
  copy : Nat
  at_ : Int
  fine : Int := 0
  launched : Bool
deriving DecidableEq, Repr

/-- A frame in transmission, or preempted (R339, R421, R475): a queue's copy, or else a frame of the Ferryman; whether it is preemptable, with
its number; when the present fragment began (ps) and the bytes sent before it; where this one is to stop; the places at which the frame has
been cut, and how many fragments have been put out; when its SFD crosses the timestamp point (ps); a Ferryman frame's stamp with its
TRIM_GEN and TB_EPOCH; the cells it holds; and whether it is to be stomped. -/
structure TxRec where
  copy : Option Nat := none
  ferry : OrigMsg := {}
  pre : Bool := false
  num : Nat := 0
  start : Nat := 0
  sent : Nat := 0
  stop : Option Nat := none
  cuts : List Nat := []
  shown : Nat := 0
  sfd : Nat := 0
  stamp : Nat := 0
  gen : Nat := 0
  epoch : Nat := 0
  cells : List Nat := []
  stomp : Bool := false
deriving DecidableEq, Repr

/-- What is known as a frame's SFD crosses the timestamp point, before its session is: TRIM_GEN of the port, TB_EPOCH, gain and DOM_OFFSET of
the four domains, and the CLK_TIME cycle (R311, R335, R349). -/
structure CtxSnap where
  gen : Nat := 0
  epoch : Nat := 0
  doms : List (Int × Int) := []
  at_ : Nat := 0
deriving DecidableEq, Repr

/-- A frame's arrival at the receive timestamp point: its stamp and whether that is fine, what was known with it, and T_rx as a CLK_FAB cycle
with the fine phase beyond its start (R263, R264, R462). -/
structure Arrival where
  stamp : Nat := 0
  fine : Bool := false
  ctx : CtxSnap := {}
  fab : Int := 0
  frac : Int := 0
deriving DecidableEq, Repr

/-- A port: the frame in reception, the frame in transmission and one preempted, the number of the next preemptable frame, launches, gate
base time, held enable, reassembly (its bytes, whether it is open, its arrival, frame number and fragment count), verify mPackets sent and
when the last was (wall time), the Ferryman's frames not yet begun, and what has been looped back and not yet received, mPackets marked
(R244, R259, R339, R427, R470 to R476). -/
structure PortRec where
  rx : Option Nat := none
  tx : Option TxRec := none
  held : Option TxRec := none
  txNum : Nat := 0
  launches : List LaunchRec := []
  gateT : Nat := 0
  heldEnable : Bool := false
  flushing : Bool := false
  linkSince : Option Nat := none
  lastQ : Nat := 0
  fragBytes : List Byte := []
  fragOpen : Bool := false
  fragArr : Arrival := {}
  fragNum : Nat := 0
  fragCount : Nat := 0
  verified : Nat × Nat := (0, 0)
  gateRx : Bool := false
  ferry : List OrigMsg := []
  looped : List (Bool × List Byte) := []
deriving DecidableEq, Repr

/-- The Queue Manager: RED generator, flushes under way as (port, cells to free), deferred frees as (class, cell), the
pages spilled before the spill DRAM last returned to READY, and the page reads in a row that timed out, per channel (R410, R420,
R430, R441). -/
structure QmRec where
  lfsr : BitVec 16 := 1
  flushes : List (Nat × List Nat) := []
  deferred : List (Nat × Nat) := []
  oldPages : List Nat := []
  timeouts : SMap Nat := []
deriving DecidableEq, Repr

/-- The FLUSH_DYNAMIC under way: of the entries of one port, or of all (R379, R399). -/
structure FwdRec where
  flush : Option (Option Nat) := none
deriving DecidableEq, Repr

/-- A meter's two buckets, in 2^-1 millionths of a byte, and when they were last filled (R386). -/
structure MeterRec where
  tc : Int := 0
  tp : Int := 0
  at_ : Nat := 0
deriving DecidableEq, Repr

/-- A sample in the window of a frequency estimate (R303): its tick, UNWRAP where it is valid, and whether it is a RANGE sample. -/
structure WinSample where
  at_ : Nat
  u : Option Int := none
  range : Bool := false
deriving DecidableEq, Repr

/-- What PHA_CHc_SAMPLE and PHA_CHc_UNWRAP read before a sample of a lane channel, and the sample's CLK_TIME cycle (R305). -/
structure SampleWas where
  clk : Nat
  sample : Word
  unwrap : Word
deriving DecidableEq, Repr

/-- A phase channel: whether it has run, the last eight valid samples (unwrapped, with their ticks, newest first), every sample of the last
100 ms of a lane channel, the newest first, its SELF_ERR run and its restart (R296 to R304), what the newest sample replaced, and the cycles
of the host's last write of its threshold (R528) and of its last loss of CDR lock (R305). -/
structure PhaRec where
  started : Bool := false
  last : Option Nat := none
  recent : List (Int × Nat) := []
  win : List WinSample := []
  selfBad : Nat := 0
  xBad : Nat := 0
  before : Option SampleWas := none
  hostAt : Option Nat := none
  lostAt : Option Nat := none
deriving DecidableEq, Repr

/-- The transmit survey (R301): whose turn it is among the PLLs, and those that have just locked and are measured first. -/
structure SurveyRec where
  turn : Nat := 0
  first : List Nat := []
deriving DecidableEq, Repr

/-- A towline sequence record waiting to be sent, or received and not yet matched (R575). -/
structure SeqRec where
  stream : Nat
  kind : Nat
  n : Nat
  fcs : Nat
  at_ : Nat
deriving DecidableEq, Repr

/-- The Pair Controller (R564 to R582); `hoWritten` says that a write of HO_REQ asked for the handover, `clash` stands while neither unit wins, `recs` holds a second and the records sent in
it, `aliveOut` the level of MATE_ALIVE_OUT. -/
structure PairRec where
  txSeq : Nat := 0
  repSeq : Nat := 0
  failed : Bool := false
  missed : Nat := 0
  lastValid : Option Nat := none
  hoT : Option Nat := none
  hoAsked : Bool := false
  hoWritten : Bool := false
  noAskUntil : Nat := 0
  healthySince : Option Nat := none
  lockSince : Option Nat := none
  worstDev : Nat := 0
  marchFails : Nat := 0
  loopErrs : Nat := 0
  lastUe : Option Nat := none
  lastUpset : Option Nat := none
  clash : Bool := false
  recs : Nat × Nat := (0, 0)
  toSend : List SeqRec := []
  got : List SeqRec := []
  closing : List Nat := []
  waits : List (Nat × Nat) := []
  aliveOut : Bool := false
deriving DecidableEq, Repr

/-! ### Serial lanes (R207 to R254) -/

/-- A pattern generator: the state of its pattern, the bits sent since error injection at a rate began, and a single injection that
waits for the next bit (R240, R243). -/
structure GenRec where
  st : Nat := 0
  n : Nat := 0
  inj : Bool := false
deriving DecidableEq, Repr

/-- A pattern checker: the state of its own pattern, the last bits received, the newest first, and which of the last bits were errors
(R242). -/
structure ChkRec where
  st : Nat := 0
  last : List Bool := []
  errs : List Bool := []
deriving DecidableEq, Repr

/-- A lane: failures in a row, times of PMA resets (10 s window), fell back since it entered LINKED, runs of passing and of
failing estimates, the CLK_TIME tick from which its estimates' window runs, the clocking switch requested (to SYNTONOUS?) and whether
at the next block, training given up in this attempt, an eye scan (1 running, 2 waiting for calibration), training in this attempt, a
fallback to be counted, the wall time of the last step of its adaptation, the phase the crossing has taken up since it was centred
(tenths of a pu), and its generator and checker (R212 to R246). -/
structure LaneRec where
  fails : Nat := 0
  pmaAt : List Nat := []
  fellBack : Bool := false
  passRun : Nat := 0
  failRun : Nat := 0
  switch : Option Bool := none
  forced : Bool := false
  gaveUp : Bool := false
  eye : Nat := 0
  train : Bool := false
  counted : Bool := false
  winFrom : Nat := 0
  adaptAt : Nat := 0
  cross : Int := 0
  gen : GenRec := {}
  chk : ChkRec := {}
deriving DecidableEq, Repr

/-- A quad PLL (0 to 15) or the LM PLL (16): powered, relocking, LM's stored band, a plan change that waits for the Capstan, the
wall time its clocks' half rate ends (R70, R73, R208 to R211), and when (ps) its latency constants last changed, with what they were
(R525). -/
structure PllRec where
  on : Bool := false
  waits : Bool := false
  band : Nat := 0
  planDue : Bool := false
  half : Nat := 0
  latAt : Nat := 0
  latRx : Int := 0
  latTx : Int := 0
deriving DecidableEq, Repr

/-! ### The Ferryman (R323 to R358) -/

/-- A PTP message in the receive queue: the session it is for, its type, source port identity, sequenceId, flags,
correctionField, logMessageInterval, timestamp field (2^-16 ns), the bytes after the header's 34, its receive stamp
(2^-16 ns), TRIM_GEN and TB_EPOCH at the stamp, the domain's gain and DOM_OFFSET there (R349), and its pool 3 buffer. -/
structure PtpMsg where
  sess : Nat := 0
  ty : Nat := 0
  srcId : Nat := 0
  srcPort : Nat := 0
  seq : Nat := 0
  flags : Nat := 0
  corr : Int := 0
  logInt : Int := 0
  ts : Int := 0
  body : List Byte := []
  stamp : Int := 0
  gen : Nat := 0
  epoch : Nat := 0
  gain : Int := 0
  doff : Int := 0
  at_ : Nat := 0
  buf : Nat := 0
deriving DecidableEq, Repr

/-- A transmit stamp on its way back to the Ferryman (R339): session, kind of message, sequenceId, stamp (2^-16 ns), TRIM_GEN and
TB_EPOCH at the stamp, and the pool 3 buffer the message held. -/
structure StampRet where
  sess : Nat
  kind : Nat
  seq : Nat
  stamp : Int
  gen : Nat
  epoch : Nat
  lost : Bool
  buf : Nat
deriving DecidableEq, Repr

/-- A foreign-master record (R340): the sender, its Announce's data set, how many messages came within the window, and when. -/
structure Foreign where
  srcId : Nat
  srcPort : Nat
  gmId : Nat
  prio1 : Nat
  gmClass : Nat
  accuracy : Nat
  variance : Nat
  prio2 : Nat
  steps : Nat
  utc : Nat
  flags : Nat
  timeSource : Nat
  path : List Nat
  times : List Nat
deriving DecidableEq, Repr

/-- A Sync received and awaiting its Follow_Up, or kept for the delay computation: sequenceId, sender, receive stamp,
correction, TRIM_GEN, epoch, gain and DOM_OFFSET. -/
structure SyncRec where
  seq : Nat
  srcId : Nat
  srcPort : Nat
  t2 : Int
  corr : Int
  ms : Int
  gen : Nat
  epoch : Nat
  gain : Int
  doff : Int
deriving DecidableEq, Repr

/-- A delay exchange under way: sequenceId, the request's transmit stamp, the response's contents (R308, R309). -/
structure ExchRec where
  seq : Nat
  own : Option Int := none
  gen : Nat := 0
  epoch : Nat := 0
  answered : Bool := false
  t4 : Int := 0
  gen4 : Nat := 0
  epoch4 : Nat := 0
  t2 : Int := 0
  t3 : Int := 0
  corr : Int := 0
  needFu : Bool := false
  srcId : Nat := 0
  srcPort : Nat := 0
deriving DecidableEq, Repr

/-- A Pdelay_Req being answered in two steps: requester, sequenceId, receive stamp, correction (R343). -/
structure ReqRec where
  seq : Nat
  srcId : Nat
  srcPort : Nat
  stamp : Int
  corr : Int
deriving DecidableEq, Repr

/-- A member of an outlier run, or an accepted offset: its value and the domain's gain at its stamp (R349). -/
structure OffRec where
  o : Int
  gain : Int
deriving DecidableEq, Repr

/-- A session (R328 to R357). -/
structure SessRec where
  committed : Bool := false
  foreign : List Foreign := []
  annDone : Bool := false
  syncGood : Bool := false
  waitFu : Option SyncRec := none
  syncs : List SyncRec := []
  exch : Option ExchRec := none
  pexch : Option ExchRec := none
  answering : List ReqRec := []
  dfSet : Bool := false
  dRun : List Int := []
  acc : Option OffRec := none
  accAt : Option Nat := none
  run : List OffRec := []
  confirm : Nat := 0
  lost : Nat := 0
  resetsAt : List Nat := []
  stallsAt : List Nat := []
  nrr : List (Int × Int × Nat) := []
  syncSeq : Nat := 0
  annSeq : Nat := 0
  delaySeq : Nat := 0
  pdelaySeq : Nat := 0
  sigSeq : Nat := 0
  parentKey : Option (Nat × Nat) := none
  l1Peer : Option Nat := none
  held : Bool := false
  logSync : Int := 0
  syncOut : Bool := false
deriving DecidableEq, Repr

/-- A domain (R349 to R354): servo integrator (4 x 10^-18 x 2^-40), DOM_OFFSET, gain and the rates of both in units of
4 ns x 2^-42 x 10^-18, offsets in a row within THRESH, a step pending, the rateRatio carried on (2^-41, GPTP), and the parent; key 4 is the ensemble's. -/
structure DomRec where
  integ : Int := 0
  doff : Int := 0
  gain : Int := 0
  rate : Int := 0
  prop : Int := 0
  synced : Nat := 0
  step : Option Int := none
  rateOff : Int := 0
  gmInfo : List Byte := []
  parent : Option Foreign := none
deriving DecidableEq, Repr

/-- The Ferryman's timers (R333, R338, R355); `decision` is the announce interval of a domain. -/
inductive TimerKind where
  | sync | announce | delayReq | pdelayReq | l1sync | annReceipt | syncReceipt | followUp | response | l1Receipt | qualify | decision
deriving DecidableEq, Repr

/-- A timer on the calendar wheel or in the timer queue (R338): its session, or the domain of a decision, its due time in CLK_TIME cycles,
which names its slot, and the turns the wheel has still to make. -/
structure FmTimer where
  kind : TimerKind
  who : Nat
  due : Nat
  turns : Nat := 0
deriving DecidableEq, Repr

/-- The Ferryman's queues, its calendar wheel, which queue is served next, the domains with a decision due at once, and the block resets
(R335, R338 to R340, R357). -/
structure FmRec where
  rxq : List PtpMsg := []
  wheel : List FmTimer := []
  timerq : List FmTimer := []
  timersTurn : Bool := false
  decide : List Nat := []
  stamps : List StampRet := []
  resetsAt : List Nat := []
deriving DecidableEq, Repr

/-! ### Time Interval Unit (R484 to R515) -/

/-- A run that DISARM ended, as it stood, and when (wall time): a result of the same cycle is still written (R504). -/
structure TiuWas where
  at_ : Nat
  st : Nat
  start : Option TiuEdge
  held : Option TiuEdge
  startInvalid : Bool
deriving DecidableEq, Repr

/-- The TIU: calibration in force (1/8 codes), bin tables in force and waiting (cumulative events by code; empty: uniform), the
last accepted edge of each channel, the held stop, the measurement's start, warm-up seen low, sums of the run, result count
and FIFO (result, flags), when a write of ARM armed the run, when the last run ended DONE and the run DISARM ended (R504), edge histograms and batches of R517. -/
structure TiuRec where
  cal : TiuCal := ⟨0, 0, 0, 0⟩
  calOk : Bool := false
  binsA : List Nat := []
  binsB : List Nat := []
  nextA : Option (List Nat) := none
  nextB : Option (List Nat) := none
  multLocked : Bool := false
  lastA : Option TiuEdge := none
  lastB : Option TiuEdge := none
  held : Option TiuEdge := none
  start : Option TiuEdge := none
  startAt : Nat := 0
  startInvalid : Bool := false
  cold : Bool := false
  n : Nat := 0
  sum : Int := 0
  sum2 : Nat := 0
  seq : Nat := 0
  fifo : List (Nat × Nat) := []
  armedAt : Option Nat := none
  doneAt : Option Nat := none
  was : Option TiuWas := none
  batchA : List Nat := []
  batchB : List Nat := []
  histA : SMap Nat := []
  histB : SMap Nat := []
deriving DecidableEq, Repr

/-! ### Calibration (R516 to R529) -/

/-- The Calibration Sequencer: starts owed (a class, or 100 + a lane for its sampler step), those deferred to the next NORMAL in the same
code, the classes whose pass under way, or owed, a write of CAL_k_RUN asked for, the instances still to be calibrated in the
passes under way as (class, instance; class 6 a sampler step), failures in a row, rotator tables, sampler offsets and gains, CTLE
trims, and deglitch thresholds that wait for their channel's next beat edge (R516, R521, R527). -/
structure CalRec where
  owed : List Nat := []
  later : List Nat := []
  asked : List Nat := []
  askedOwed : List Nat := []
  queue : List (Nat × Nat) := []
  fails : SMap Nat := []
  rotator : SMap (List Int) := []
  offset : SMap Int := []
  gain : SMap Nat := []
  trim : SMap Int := []
  thresh : SMap (Option Nat) := []
deriving DecidableEq, Repr

/-! ### Supply (R588 to R601) -/

/-- The Supply Monitor: a restore is under way (else RESTORING is a hold), what triggered (bit 0 PFAIL_N, bit 1 a rail), whether the time base
was INVALID at t0, and t0 in wall time, with whether it was the first trigger after NORMAL (R595, R596, R598). -/
structure PwrRec where
  restoring : Bool := false
  trig : Nat := 0
  t0Invalid : Bool := false
  at_ : Option (Nat × Bool) := none
deriving DecidableEq, Repr

/-! ### Stored-data protection (R535 to R554) -/

/-- A tracked word of a bank (R544): region, bank, row, byte address in the region, consecutive passes that corrected it, corrected in this pass. -/
structure TrackRec where
  region : Nat
  bank : Nat
  row : Nat
  addr : Nat
  count : Nat
  now : Bool
deriving DecidableEq, Repr

/-- A section of the image that the reload directory keeps (R626): where it lies in the image, its length and its CRC-32. -/
structure SecRec where
  offset : Nat
  length : Nat
  crc : Nat
deriving DecidableEq, Repr

/-- A host write held during a table reload (R546). -/
structure HeldWrite where
  addr : Nat
  be : Nat
  v : Nat
deriving DecidableEq, Repr

/-- Stored-data protection: error log (two words each) and count, check bits inverted by injection (key: region x 2^32 +
address), trackers, spare rows used by region and bank, retired entries, reload directory, reloads waiting, held writes,
cells quarantined for a second test as (cell, byte address, pass), when each region was reloaded within 10 s, blocks whose mismatch
was met in this reload, the bits of register words that differ from the value last written and, from bit 32 on, of their bytes' parity, by
address, the bits of a block's shadow CRC-32 that differ from its fields as written, by address bits [27:16] (R553), and the injected errors
that stand in a hardware region, as (region, object, inverted bits) (R558). -/
structure EccRec where
  log : List (Nat × Nat) := []
  seq : Nat := 0
  flips : SMap Nat := []
  track : List TrackRec := []
  spares : SMap Nat := []
  retired : List (Nat × Nat) := []
  dir : SMap (List SecRec) := []
  reloads : List Nat := []
  held : List HeldWrite := []
  quarantine : List (Nat × Nat × Nat) := []
  reloadAt : SMap (List Nat) := []
  met : List Nat := []
  upsets : SMap Nat := []
  shadow : SMap Nat := []
  injected : List (Nat × Nat × Nat) := []
deriving DecidableEq, Repr

/-! ### Loader (R615 to R639) -/

/-- What the loader waits for inside a section (R620): nothing, a time, or a bit with its address, mask, expected value and FAIL. -/
inductive LdrWait where
  | none
  | time
  | bit (addr mask expect : Nat) (fail : Bool)
deriving DecidableEq, Repr

/-- The loader: images left to try (0 A, 1 B, 2 host), headers of the single-bit reads, the header and section table of the
image under way, its bytes so far, the records of the section under way and the section read ahead, the next section, one
retry used, key and signature seen, enables held back, table records, reload in progress, host interface and stream, and the wait. -/
structure LdrRec where
  left : List Nat := []
  hdrA : List Byte := []
  hdrB : List Byte := []
  active : Bool := false
  hdr : List Byte := []
  all : List Byte := []
  buf : List Byte := []
  buf2 : Option (List Byte) := none
  executing : Bool := false
  next : Nat := 0
  retry : Bool := false
  offset : Nat := 0
  signKey : Option (List Byte) := none
  sigAt : Option Nat := none
  sig : List Byte := []
  tblRegion : Option Nat := none
  tblMixed : Bool := false
  tblBytes : SMap Nat := []
  defer : List HeldWrite := []
  dirNew : SMap (List SecRec) := []
  reload : Bool := false
  escal : Bool := false
  hostIf : Nat := 0
  stream : List Byte := []
  wait : LdrWait := .none
  started : Nat := 0
  imgCrc : Nat := 0
  imgVer : Nat := 0
deriving DecidableEq, Repr

/-- The factory values of the calibrated objects (R516): bin tables of the two interpolators, rotator tables, sampler offsets and gains (microvolts
per VOFF step), CTLE trims. -/
structure CalOtp where
  binsA : List Nat := []
  binsB : List Nat := []
  rotator : SMap (List Int) := []
  offset : SMap Int := []
  gain : SMap Nat := []
  trim : SMap Int := []
deriving DecidableEq, Repr

/-- What is fused at the factory (R53, R60, R484, R516, R629): SECURE, KEY_HASH (blank: none), ROOT_DEFAULT in the SYN_ROOT layout, the
Capstan band, the delay (2^-40 ns) from each source of the TIU to the start's and to the stop's interpolator, and what is calibrated. -/
structure OtpRec where
  secure : Bool := false
  keyHash : Option Nat := none
  rootDefault : Nat := 3
  band : Nat := 0
  tiuStart : SMap Int := []
  tiuStop : SMap Int := []
  cal : CalOtp := {}
deriving DecidableEq, Repr

/-! ### Management (R645 to R677) -/

/-- An MMP request waiting (R662): ingress port and frame. -/
structure MmpReq where
  port : Nat
  frame : List Byte
deriving DecidableEq, Repr

/-- A copy waiting to be delivered to a receive ring out of queue order: a loop-back copy with its stamp, flags and pool 2 buffers (R280). -/
structure LbCopy where
  bytes : List Byte
  port : Nat
  tc : Nat
  stamp : Nat
  flags : Nat
  bufs : List Nat
deriving DecidableEq, Repr

/-- The JTAG instructions of R663. -/
inductive JtagInstr where
  | bypass | idcode | sample | extest | extestPulse | extestTrain
deriving DecidableEq, Repr

/-- An access that waits for a block whose clock is gated (R74, R650): a word written with its byte enables, a word read, or what is
left of an SPI WRITE or READ. -/
inductive WaitAccess where
  | write (m : BusMaster) (addr be : Nat) (v : Word)
  | read (m : BusMaster) (addr : Nat)
  | spiWrite (addr : Nat) (bytes : List Byte)
  | spiRead (addr n : Nat)
deriving DecidableEq, Repr

/-- Management: Bus Master Enable, SPI status byte, accesses that wait, MMP requests waiting, loop-back copies waiting, the JTAG
instruction, whether the next tally dump is the first since NORMAL, and the records lost since the last written (R650 to R677). -/
structure MgtRec where
  bme : Bool := false
  msixEn : Bool := false
  msixMask : Bool := false
  vecMask : Nat := 0xFFFFFFFF
  vecPend : Nat := 0
  spiStat : Nat := 0
  waiting : List WaitAccess := []
  mmpq : List MmpReq := []
  loops : List LbCopy := []
  jtag : JtagInstr := .idcode
  resumed : Bool := false
  lost : Nat := 0
deriving DecidableEq, Repr

/-! ### What leaves the device -/

/-- What the device puts on its balls, in order. -/
inductive Out where
  /-- An edge of a pulse output: its level from there on, and its pulse-counter time in 2^-40 ns (R102). -/
  | pps (n : Nat) (level : Bool) (at_ : Nat)
  /-- A towline frame on P65, from its destination to its body (R565). -/
  | towline (frame : List Byte)
  /-- A frame on a port, as sent; stomped with an inverted FCS (R281). -/
  | frame (port : Nat) (bytes : List Byte) (stomped : Bool)
  /-- An mPacket of a preemptable frame, or a verify or respond packet, from its SMD on (R474 to R476). -/
  | mpacket (port : Nat) (bytes : List Byte)
  /-- A frame delivered to a receive ring: ring, descriptor words 3 to 7, bytes (R656). -/
  | dmaRx (ring : Nat) (desc : List Nat) (bytes : List Byte)
  /-- A transmit descriptor written back: ring, word 3 (R653). -/
  | dmaTx (ring w3 : Nat)
  /-- The serial bits a lane's pattern generator drives (R240, R241). -/
  | serial (lane : Nat) (bits : List Bool)
  /-- A training frame a lane sends: the statuses it answers for the three taps, and its own request (R222, R224). -/
  | train (lane : Nat) (status : List Nat) (request : Nat)
  /-- An error control block sent before a stomped frame's end on a 64b/66b port: its eight characters (R281). -/
  | errorBlock (port : Nat)
  /-- An MSI-X message (R665). -/
  | msix (v : Nat)
  /-- A time-of-day message on TODOUT (R188). -/
  | tod (bytes : List Byte)
  /-- Bytes driven on SPI_MISO (R657). -/
  | spi (bytes : List Byte)
  /-- A command to the QSPI flash: READ 0x13 or QUAD I/O FAST READ 0xEC, and where it starts (R617). -/
  | flash (cmd addr : Nat)
  /-- A command to the FRAM: its bytes from the command byte on (R142). -/
  | fram (bytes : List Byte)
  /-- A register read's data, to the master that read. -/
  | data (m : BusMaster) (addr v : Nat)
  /-- A JTAG data register (R663). -/
  | jtag (v : Nat)
  /-- A write transfer of I2C master `bus`, at 400 kHz or 100 kHz: the address, the bytes, and the pause after it in ms (R667). -/
  | i2c (bus : Nat) (fast : Bool) (addr : Nat) (bytes : List Byte) (wait : Nat)
  /-- A read transfer of I2C master `bus`: so many bytes from an offset. -/
  | i2cRead (bus : Nat) (fast : Bool) (addr offset len : Nat)
  /-- Nine clocks and a stop on a bus whose SDA is held low (R667). -/
  | i2cFree (bus : Nat)
  /-- An MDIO frame, at 125 MHz / (2 × (`div` + 1)) (R668). -/
  | mdio (div op port dev data : Nat)
  /-- A tally-dump record written to the host ring: its address and its words (R676, R677). -/
  | dump (addr : Nat) (words : List Nat)
  /-- A completion of a PCIe configuration request; Retry Status or success (R652). -/
  | cfg (retry : Bool)
  /-- The data of a PCIe configuration read (R651). -/
  | cfgData (reg v : Nat)
  /-- A PCIe memory request is answered with Unsupported Request (R652). -/
  | unsupported
deriving DecidableEq, Repr

/-! ### Outcomes -/

/-- Reasons to stop with a fault: none.  The spec gives every access and event an effect, or a discard that is recorded, so no
command of the block stops the machine; the type has no constructor. -/
inductive Fault where
deriving DecidableEq, Repr

/-- Reasons to refuse a command. -/
inductive Refusal where
  /-- Raised by the dispatcher for a row that has no meaning yet; safe: the machine stops. -/
  | notModelled (mnemonic : String)
deriving DecidableEq, Repr

/-- The device (R25 to R43): every register, table, queue and engine record, what has left it, and the commands waiting.
`now` counts 4 ns of wall time, `clk` the CLK_TIME ticks; `freeNo` numbers the free values spent, `out` and `pending` are the
model's own. -/
structure State where
  regs : SMap Word := []
  mem : SMap Byte := []
  fram : SMap Byte := []
  otp : OtpRec := {}
  inReset : Bool := false
  now : Nat := 0
  clk : Nat := 0
  shadows : SMap (List Word) := []
  stages : SMap (Option Word) := []
  syn : SynRec := {}
  outs : SMap OutRec := []
  pps : SMap PpsRec := []
  refs : SMap RefRec := []
  sel : SelRec := {}
  ens : SMap EnsRec := []
  tb : TbRec := {}
  lanes : SMap LaneRec := []
  plls : SMap PllRec := []
  rcsHeld : SMap Bool := []
  ports : SMap PortRec := []
  pha : SMap PhaRec := []
  survey : SurveyRec := {}
  fm : FmRec := {}
  doms : SMap DomRec := []
  sess : SMap SessRec := []
  fwd : FwdRec := {}
  meters : SMap MeterRec := []
  frames : SMap FrameRec := []
  copies : SMap CopyRec := []
  queues : SMap QRec := []
  qm : QmRec := {}
  bufs : SMap BufRec := []
  epoch : Nat := 0
  tiu : TiuRec := {}
  cal : CalRec := {}
  ecc : EccRec := {}
  pair : PairRec := {}
  pwr : PwrRec := {}
  ldr : LdrRec := {}
  mgt : MgtRec := {}
  escAt : List Nat := []
  escDue : Nat := 0
  freeNo : Nat := 0
  out : List Out := []
  pending : List Instr := []
deriving DecidableEq, Repr

/-- The period of a calibration class at reset, in seconds (R516). -/
def calPeriod (k : Nat) : Nat :=
  if k = 0 then 10 else if k = 3 then 300 else if k = 4 then 60 else 1

/-- The machine right after reset release (R38, R615, R689): CLOCK_START, every register at its reset value, nothing listed
in any table, no command waiting.  Fused values are log entry 3. -/
def State.reset : State := {}

end Sys2Proof.Machine
end

