-- ==== Sys2Proof/Machine/Fields.lean ====
section
/-!
DEFINITION. Every register of the Register Map (R689) with its reset value, and every field, under the manual's own names:
register `R` of the manual is `R`, its field `F` is `R_F`, index letters are arguments.  A register that is one value has
the field `R_V`; where that value is wider than a word, `R` itself is a `Wide` (R10).
-/

namespace Sys2Proof.Machine

/-- GLB_DEVICE_ID at 0x00000000 (R2). -/
def GLB_DEVICE_ID : Reg := ⟨0x00000000, BitVec.ofNat 32 (0x648000B0)⟩
/-- GLB_DEVICE_ID.PART, bits 31..16, RO. -/
def GLB_DEVICE_ID_PART : Fld := ⟨GLB_DEVICE_ID, 16, 16⟩
/-- GLB_DEVICE_ID.REV, bits 7..0, RO. -/
def GLB_DEVICE_ID_REV : Fld := ⟨GLB_DEVICE_ID, 0, 8⟩
/-- GLB_ACC_STATUS at 0x00000004 (R24). -/
def GLB_ACC_STATUS : Reg := ⟨0x00000004, BitVec.ofNat 32 (0)⟩
/-- GLB_ACC_STATUS.LAST_MASTER, bits 10..8, RO. -/
def GLB_ACC_STATUS_LAST_MASTER : Fld := ⟨GLB_ACC_STATUS, 8, 3⟩
/-- GLB_ACC_STATUS.PARTIAL, bits 2..2, RW1C. -/
def GLB_ACC_STATUS_PARTIAL : Fld := ⟨GLB_ACC_STATUS, 2, 1⟩
/-- GLB_ACC_STATUS.UNMAPPED, bits 1..1, RW1C. -/
def GLB_ACC_STATUS_UNMAPPED : Fld := ⟨GLB_ACC_STATUS, 1, 1⟩
/-- GLB_ACC_STATUS.FMT_ERR, bits 0..0, RW1C. -/
def GLB_ACC_STATUS_FMT_ERR : Fld := ⟨GLB_ACC_STATUS, 0, 1⟩
/-- GLB_STATE at 0x00000008 (R42). -/
def GLB_STATE : Reg := ⟨0x00000008, BitVec.ofNat 32 (0x301)⟩
/-- GLB_STATE.ENTRY_CAUSE, bits 23..20, RO. -/
def GLB_STATE_ENTRY_CAUSE : Fld := ⟨GLB_STATE, 20, 4⟩
/-- GLB_STATE.DEV_ESC_COUNT, bits 15..12, RO. -/
def GLB_STATE_DEV_ESC_COUNT : Fld := ⟨GLB_STATE, 12, 4⟩
/-- GLB_STATE.IMAGE, bits 9..8, RO. -/
def GLB_STATE_IMAGE : Fld := ⟨GLB_STATE, 8, 2⟩
/-- GLB_STATE.STATE, bits 2..0, RO. -/
def GLB_STATE_STATE : Fld := ⟨GLB_STATE, 0, 3⟩
/-- GLB_MODE_ERR at 0x0000000C (R51). -/
def GLB_MODE_ERR : Reg := ⟨0x0000000C, BitVec.ofNat 32 (0)⟩
/-- GLB_MODE_ERR.VALID, bits 31..31, RW1C. -/
def GLB_MODE_ERR_VALID : Fld := ⟨GLB_MODE_ERR, 31, 1⟩
/-- GLB_MODE_ERR.OVERFLOW, bits 30..30, RW1C. -/
def GLB_MODE_ERR_OVERFLOW : Fld := ⟨GLB_MODE_ERR, 30, 1⟩
/-- GLB_MODE_ERR.OBJ_KIND, bits 28..26, RO. -/
def GLB_MODE_ERR_OBJ_KIND : Fld := ⟨GLB_MODE_ERR, 26, 3⟩
/-- GLB_MODE_ERR.OBJECT_ID, bits 25..16, RO. -/
def GLB_MODE_ERR_OBJECT_ID : Fld := ⟨GLB_MODE_ERR, 16, 10⟩
/-- GLB_MODE_ERR.CODE, bits 7..0, RO. -/
def GLB_MODE_ERR_CODE : Fld := ⟨GLB_MODE_ERR, 0, 8⟩
/-- GLB_CTRL at 0x00000010 (R43). -/
def GLB_CTRL : Reg := ⟨0x00000010, BitVec.ofNat 32 (0)⟩
/-- GLB_CTRL.RELOAD, bits 0..0, RWS. -/
def GLB_CTRL_RELOAD : Fld := ⟨GLB_CTRL, 0, 1⟩
/-- SYN_ROOT at 0x00100000 (R54). -/
def SYN_ROOT : Reg := ⟨0x00100000, BitVec.ofNat 32 (0x3)⟩
/-- SYN_ROOT.SOURCE_ID, bits 31..16, RO. -/
def SYN_ROOT_SOURCE_ID : Fld := ⟨SYN_ROOT, 16, 16⟩
/-- SYN_ROOT.FROM_OTP, bits 3..3, RO. -/
def SYN_ROOT_FROM_OTP : Fld := ⟨SYN_ROOT, 3, 1⟩
/-- SYN_ROOT.FREQ, bits 2..0, RO. -/
def SYN_ROOT_FREQ : Fld := ⟨SYN_ROOT, 0, 3⟩
/-- SYN_STATUS at 0x00100004 (R74). -/
def SYN_STATUS : Reg := ⟨0x00100004, BitVec.ofNat 32 (0)⟩
/-- SYN_STATUS.BAND_CUR, bits 24..16, RO. -/
def SYN_STATUS_BAND_CUR : Fld := ⟨SYN_STATUS, 16, 9⟩
/-- SYN_STATUS.AUX1_LOCKED, bits 6..6, RO. -/
def SYN_STATUS_AUX1_LOCKED : Fld := ⟨SYN_STATUS, 6, 1⟩
/-- SYN_STATUS.AUX0_LOCKED, bits 5..5, RO. -/
def SYN_STATUS_AUX0_LOCKED : Fld := ⟨SYN_STATUS, 5, 1⟩
/-- SYN_STATUS.SAFE_RATIO, bits 4..4, RO. -/
def SYN_STATUS_SAFE_RATIO : Fld := ⟨SYN_STATUS, 4, 1⟩
/-- SYN_STATUS.GATED, bits 3..3, RO. -/
def SYN_STATUS_GATED : Fld := ⟨SYN_STATUS, 3, 1⟩
/-- SYN_STATUS.SEARCHING, bits 2..2, RO. -/
def SYN_STATUS_SEARCHING : Fld := ⟨SYN_STATUS, 2, 1⟩
/-- SYN_STATUS.LOCKED, bits 1..1, RO. -/
def SYN_STATUS_LOCKED : Fld := ⟨SYN_STATUS, 1, 1⟩
/-- SYN_STATUS.OCXO_WARM, bits 0..0, RO. -/
def SYN_STATUS_OCXO_WARM : Fld := ⟨SYN_STATUS, 0, 1⟩
/-- SYN_BAND_STORE at 0x00100008 (R60). -/
def SYN_BAND_STORE : Reg := ⟨0x00100008, BitVec.ofNat 32 (0)⟩
/-- SYN_BAND_STORE.FREEZE, bits 16..16, RW. -/
def SYN_BAND_STORE_FREEZE : Fld := ⟨SYN_BAND_STORE, 16, 1⟩
/-- SYN_BAND_STORE.BAND, bits 8..0, RW. -/
def SYN_BAND_STORE_BAND : Fld := ⟨SYN_BAND_STORE, 0, 9⟩
/-- SYN_DITHER at 0x0010000C (R64). -/
def SYN_DITHER : Reg := ⟨0x0010000C, BitVec.ofNat 32 (0x2)⟩
/-- SYN_DITHER.RESEED, bits 4..4, RWS. -/
def SYN_DITHER_RESEED : Fld := ⟨SYN_DITHER, 4, 1⟩
/-- SYN_DITHER.MODE, bits 1..0, RW. -/
def SYN_DITHER_MODE : Fld := ⟨SYN_DITHER, 0, 2⟩
/-- SYN_DITHER_SEED at 0x00100010 (R65). -/
def SYN_DITHER_SEED : Reg := ⟨0x00100010, BitVec.ofNat 32 (0x7FFFFF)⟩
/-- SYN_DITHER_SEED.SEED, bits 22..0, RW. -/
def SYN_DITHER_SEED_SEED : Fld := ⟨SYN_DITHER_SEED, 0, 23⟩
/-- SYN_EVENT at 0x00100014 (R75). -/
def SYN_EVENT : Reg := ⟨0x00100014, BitVec.ofNat 32 (0)⟩
/-- SYN_EVENT.CFG_ERR, bits 8..8, RW1C. -/
def SYN_EVENT_CFG_ERR : Fld := ⟨SYN_EVENT, 8, 1⟩
/-- SYN_EVENT.SEED_ZERO, bits 7..7, RW1C. -/
def SYN_EVENT_SEED_ZERO : Fld := ⟨SYN_EVENT, 7, 1⟩
/-- SYN_EVENT.AUX1_LOL, bits 6..6, RW1C. -/
def SYN_EVENT_AUX1_LOL : Fld := ⟨SYN_EVENT, 6, 1⟩
/-- SYN_EVENT.AUX0_LOL, bits 5..5, RW1C. -/
def SYN_EVENT_AUX0_LOL : Fld := ⟨SYN_EVENT, 5, 1⟩
/-- SYN_EVENT.SEARCH_USED, bits 4..4, RW1C. -/
def SYN_EVENT_SEARCH_USED : Fld := ⟨SYN_EVENT, 4, 1⟩
/-- SYN_EVENT.ROOT_MISMATCH, bits 3..3, RW1C. -/
def SYN_EVENT_ROOT_MISMATCH : Fld := ⟨SYN_EVENT, 3, 1⟩
/-- SYN_EVENT.EXCURSION, bits 2..2, RW1C. -/
def SYN_EVENT_EXCURSION : Fld := ⟨SYN_EVENT, 2, 1⟩
/-- SYN_EVENT.LOL, bits 1..1, RW1C. -/
def SYN_EVENT_LOL : Fld := ⟨SYN_EVENT, 1, 1⟩
/-- SYN_EVENT.OCXO_COOL, bits 0..0, RW1C. -/
def SYN_EVENT_OCXO_COOL : Fld := ⟨SYN_EVENT, 0, 1⟩
/-- SYN_AUX_CFG at 0x00100100 (R78). -/
def SYN_AUX_CFG (n : Nat) : Reg := ⟨0x00100100 + 0x80 * n, BitVec.ofNat 32 (0)⟩
/-- SYN_AUX_CFG.HOPPING, bits 4..4, RO. -/
def SYN_AUX_CFG_HOPPING (n : Nat) : Fld := ⟨SYN_AUX_CFG n, 4, 1⟩
/-- SYN_AUX_CFG.EN, bits 3..3, RW. -/
def SYN_AUX_CFG_EN (n : Nat) : Fld := ⟨SYN_AUX_CFG n, 3, 1⟩
/-- SYN_AUX_CFG.PLAN_SEL, bits 2..0, RW. -/
def SYN_AUX_CFG_PLAN_SEL (n : Nat) : Fld := ⟨SYN_AUX_CFG n, 0, 3⟩
/-- SYN_AUX_PLAN_CTL at 0x00100140 (R79). -/
def SYN_AUX_PLAN_CTL (n : Nat) (k : Nat) : Reg := ⟨0x00100140 + 0x80 * n + 0x8 * k, BitVec.ofNat 32 (0x18)⟩
/-- SYN_AUX_PLAN_CTL.BAND_VALID, bits 16..16, RW. -/
def SYN_AUX_PLAN_CTL_BAND_VALID (n : Nat) (k : Nat) : Fld := ⟨SYN_AUX_PLAN_CTL n k, 16, 1⟩
/-- SYN_AUX_PLAN_CTL.BAND, bits 15..8, RW. -/
def SYN_AUX_PLAN_CTL_BAND (n : Nat) (k : Nat) : Fld := ⟨SYN_AUX_PLAN_CTL n k, 8, 8⟩
/-- SYN_AUX_PLAN_CTL.N_INT, bits 7..0, RW. -/
def SYN_AUX_PLAN_CTL_N_INT (n : Nat) (k : Nat) : Fld := ⟨SYN_AUX_PLAN_CTL n k, 0, 8⟩
/-- SYN_AUX_PLAN_FRAC at 0x00100144 (R79). -/
def SYN_AUX_PLAN_FRAC (n : Nat) (k : Nat) : Reg := ⟨0x00100144 + 0x80 * n + 0x8 * k, BitVec.ofNat 32 (0)⟩
/-- SYN_AUX_PLAN_FRAC.N_FRAC, bits 31..0, RW. -/
def SYN_AUX_PLAN_FRAC_N_FRAC (n : Nat) (k : Nat) : Fld := ⟨SYN_AUX_PLAN_FRAC n k, 0, 32⟩
/-- SYN_QPLL_PLAN at 0x00100400 (R81). -/
def SYN_QPLL_PLAN (q : Nat) (k : Nat) : Reg := ⟨0x00100400 + 0x20 * q + 0x4 * k, BitVec.ofNat 32 (0)⟩
/-- SYN_QPLL_PLAN.VALID, bits 15..15, RW. -/
def SYN_QPLL_PLAN_VALID (q : Nat) (k : Nat) : Fld := ⟨SYN_QPLL_PLAN q k, 15, 1⟩
/-- SYN_QPLL_PLAN.BAND, bits 14..8, RW. -/
def SYN_QPLL_PLAN_BAND (q : Nat) (k : Nat) : Fld := ⟨SYN_QPLL_PLAN q k, 8, 7⟩
/-- SYN_QPLL_PLAN.N, bits 7..0, RW. -/
def SYN_QPLL_PLAN_N (q : Nat) (k : Nat) : Fld := ⟨SYN_QPLL_PLAN q k, 0, 8⟩
/-- OUT_CFG at 0x00110000 (R95). -/
def OUT_CFG (n : Nat) : Reg := ⟨0x00110000 + 0x20 * n, BitVec.ofNat 32 (0x12000063)⟩
/-- OUT_CFG.STD, bits 29..28, RW. -/
def OUT_CFG_STD (n : Nat) : Fld := ⟨OUT_CFG n, 28, 2⟩
/-- OUT_CFG.SRC, bits 27..26, RW. -/
def OUT_CFG_SRC (n : Nat) : Fld := ⟨OUT_CFG n, 26, 2⟩
/-- OUT_CFG.STOP_HIZ, bits 25..25, RW. -/
def OUT_CFG_STOP_HIZ (n : Nat) : Fld := ⟨OUT_CFG n, 25, 1⟩
/-- OUT_CFG.DIV_M1, bits 19..0, RW. -/
def OUT_CFG_DIV_M1 (n : Nat) : Fld := ⟨OUT_CFG n, 0, 20⟩
/-- OUT_PHASE at 0x00110004 (R96). -/
def OUT_PHASE (n : Nat) : Reg := ⟨0x00110004 + 0x20 * n, BitVec.ofNat 32 (0)⟩
/-- OUT_PHASE.PHASE, bits 31..0, RW. -/
def OUT_PHASE_PHASE (n : Nat) : Fld := ⟨OUT_PHASE n, 0, 32⟩
/-- OUT_SLEW at 0x00110008 (R97). -/
def OUT_SLEW (n : Nat) : Reg := ⟨0x00110008 + 0x20 * n, BitVec.ofNat 32 (0x10)⟩
/-- OUT_SLEW.SLEW, bits 11..0, RW. -/
def OUT_SLEW_SLEW (n : Nat) : Fld := ⟨OUT_SLEW n, 0, 12⟩
/-- OUT_STATUS at 0x0011000C (R98). -/
def OUT_STATUS (n : Nat) : Reg := ⟨0x0011000C + 0x20 * n, BitVec.ofNat 32 (0)⟩
/-- OUT_STATUS.FB_LOST, bits 5..5, RO. -/
def OUT_STATUS_FB_LOST (n : Nat) : Fld := ⟨OUT_STATUS n, 5, 1⟩
/-- OUT_STATUS.ZDB_LOCKED, bits 4..4, RO. -/
def OUT_STATUS_ZDB_LOCKED (n : Nat) : Fld := ⟨OUT_STATUS n, 4, 1⟩
/-- OUT_STATUS.SAFE_RATIO, bits 3..3, RO. -/
def OUT_STATUS_SAFE_RATIO (n : Nat) : Fld := ⟨OUT_STATUS n, 3, 1⟩
/-- OUT_STATUS.STALE, bits 2..2, RO. -/
def OUT_STATUS_STALE (n : Nat) : Fld := ⟨OUT_STATUS n, 2, 1⟩
/-- OUT_STATUS.SLEWING, bits 1..1, RO. -/
def OUT_STATUS_SLEWING (n : Nat) : Fld := ⟨OUT_STATUS n, 1, 1⟩
/-- OUT_STATUS.RUNNING, bits 0..0, RO. -/
def OUT_STATUS_RUNNING (n : Nat) : Fld := ⟨OUT_STATUS n, 0, 1⟩
/-- OUT_ZDB at 0x00110010 (R99). -/
def OUT_ZDB (n : Nat) : Reg := ⟨0x00110010 + 0x20 * n, BitVec.ofNat 32 (0)⟩
/-- OUT_ZDB.TRIM, bits 31..15, RO. -/
def OUT_ZDB_TRIM (n : Nat) : Fld := ⟨OUT_ZDB n, 15, 17⟩
/-- OUT_ZDB.EN, bits 0..0, RW. -/
def OUT_ZDB_EN (n : Nat) : Fld := ⟨OUT_ZDB n, 0, 1⟩
/-- OUT_ENABLE at 0x00110400 (R100). -/
def OUT_ENABLE : Reg := ⟨0x00110400, BitVec.ofNat 32 (0)⟩
/-- OUT_ENABLE.EN, bits 11..0, RW. -/
def OUT_ENABLE_EN : Fld := ⟨OUT_ENABLE, 0, 12⟩
/-- OUT_EVENT at 0x00110404 (R101). -/
def OUT_EVENT : Reg := ⟨0x00110404, BitVec.ofNat 32 (0)⟩
/-- OUT_EVENT.FB_LOST, bits 7..4, RW1C. -/
def OUT_EVENT_FB_LOST : Fld := ⟨OUT_EVENT, 4, 4⟩
/-- OUT_EVENT.FREQ_LIMIT, bits 2..2, RW1C. -/
def OUT_EVENT_FREQ_LIMIT : Fld := ⟨OUT_EVENT, 2, 1⟩
/-- OUT_EVENT.CFG_BUSY, bits 1..1, RW1C. -/
def OUT_EVENT_CFG_BUSY : Fld := ⟨OUT_EVENT, 1, 1⟩
/-- OUT_EVENT.CFG_ERR, bits 0..0, RW1C. -/
def OUT_EVENT_CFG_ERR : Fld := ⟨OUT_EVENT, 0, 1⟩
/-- PPS_CFG at 0x00110800 (R110). -/
def PPS_CFG : Reg := ⟨0x00110800, BitVec.ofNat 32 (0x1)⟩
/-- PPS_CFG.AUTO_REALIGN, bits 1..1, RW. -/
def PPS_CFG_AUTO_REALIGN : Fld := ⟨PPS_CFG, 1, 1⟩
/-- PPS_CFG.MUTE_INVALID, bits 0..0, RW. -/
def PPS_CFG_MUTE_INVALID : Fld := ⟨PPS_CFG, 0, 1⟩
/-- PPS_STATUS at 0x00110804 (R111). -/
def PPS_STATUS : Reg := ⟨0x00110804, BitVec.ofNat 32 (0)⟩
/-- PPS_STATUS.REALIGN_REJ, bits 11..8, RW1C. -/
def PPS_STATUS_REALIGN_REJ : Fld := ⟨PPS_STATUS, 8, 4⟩
/-- PPS_STATUS.MUTED, bits 7..4, RO. -/
def PPS_STATUS_MUTED : Fld := ⟨PPS_STATUS, 4, 4⟩
/-- PPS_STATUS.MISALIGNED, bits 3..0, RO. -/
def PPS_STATUS_MISALIGNED : Fld := ⟨PPS_STATUS, 0, 4⟩
/-- PPS_REALIGN at 0x00110808 (R112). -/
def PPS_REALIGN : Reg := ⟨0x00110808, BitVec.ofNat 32 (0)⟩
/-- PPS_REALIGN.REALIGN, bits 3..0, RWS. -/
def PPS_REALIGN_REALIGN : Fld := ⟨PPS_REALIGN, 0, 4⟩
/-- PPS_OUT_CFG at 0x00110840 (R113). -/
def PPS_OUT_CFG (n : Nat) : Reg := ⟨0x00110840 + 0x20 * n, BitVec.ofNat 32 (0)⟩
/-- PPS_OUT_CFG.POLARITY, bits 3..3, RW. -/
def PPS_OUT_CFG_POLARITY (n : Nat) : Fld := ⟨PPS_OUT_CFG n, 3, 1⟩
/-- PPS_OUT_CFG.MODE, bits 2..1, RW. -/
def PPS_OUT_CFG_MODE (n : Nat) : Fld := ⟨PPS_OUT_CFG n, 1, 2⟩
/-- PPS_OUT_CFG.EN, bits 0..0, RW. -/
def PPS_OUT_CFG_EN (n : Nat) : Fld := ⟨PPS_OUT_CFG n, 0, 1⟩
/-- PPS_OUT_PERIOD at 0x00110844 (R114). -/
def PPS_OUT_PERIOD (n : Nat) : Reg := ⟨0x00110844 + 0x20 * n, BitVec.ofNat 32 (0x3B9ACA00)⟩
/-- PPS_OUT_PERIOD.V, bits 31..0, RW. -/
def PPS_OUT_PERIOD_V (n : Nat) : Fld := ⟨PPS_OUT_PERIOD n, 0, 32⟩
/-- PPS_OUT_WIDTH at 0x00110848 (R114). -/
def PPS_OUT_WIDTH (n : Nat) : Reg := ⟨0x00110848 + 0x20 * n, BitVec.ofNat 32 (0x05F5E100)⟩
/-- PPS_OUT_WIDTH.V, bits 31..0, RW. -/
def PPS_OUT_WIDTH_V (n : Nat) : Fld := ⟨PPS_OUT_WIDTH n, 0, 32⟩
/-- PPS_OUT_OFFSET at 0x0011084C (R114). -/
def PPS_OUT_OFFSET (n : Nat) : Reg := ⟨0x0011084C + 0x20 * n, BitVec.ofNat 32 (0)⟩
/-- PPS_OUT_OFFSET.V, bits 31..0, RW. -/
def PPS_OUT_OFFSET_V (n : Nat) : Fld := ⟨PPS_OUT_OFFSET n, 0, 32⟩
/-- PPS_OUT_PATTERN at 0x00110850, 2 words (R114). -/
def PPS_OUT_PATTERN (n : Nat) : Wide := ⟨0x00110850 + 0x20 * n, 2, 0⟩
/-- PPS_OUT_DIFF at 0x00110858, 2 words (R114). -/
def PPS_OUT_DIFF (n : Nat) : Wide := ⟨0x00110858 + 0x20 * n, 2, 0⟩
/-- REF_CTRL at 0x00200000 (R155). -/
def REF_CTRL : Reg := ⟨0x00200000, BitVec.ofNat 32 (0x8)⟩
/-- REF_CTRL.FORCE_SLOT, bits 11..8, RW. -/
def REF_CTRL_FORCE_SLOT : Fld := ⟨REF_CTRL, 8, 4⟩
/-- REF_CTRL.REVERTIVE, bits 3..3, RW. -/
def REF_CTRL_REVERTIVE : Fld := ⟨REF_CTRL, 3, 1⟩
/-- REF_CTRL.MODE, bits 2..0, RW. -/
def REF_CTRL_MODE : Fld := ⟨REF_CTRL, 0, 3⟩
/-- REF_STATUS at 0x00200004 (R156). -/
def REF_STATUS : Reg := ⟨0x00200004, BitVec.ofNat 32 (0)⟩
/-- REF_STATUS.FORCE_WAIT, bits 11..11, RO. -/
def REF_STATUS_FORCE_WAIT : Fld := ⟨REF_STATUS, 11, 1⟩
/-- REF_STATUS.DISPUTE_ALARM, bits 10..10, RO. -/
def REF_STATUS_DISPUTE_ALARM : Fld := ⟨REF_STATUS, 10, 1⟩
/-- REF_STATUS.SWITCHING, bits 9..9, RO. -/
def REF_STATUS_SWITCHING : Fld := ⟨REF_STATUS, 9, 1⟩
/-- REF_STATUS.SEL_VALID, bits 8..8, RO. -/
def REF_STATUS_SEL_VALID : Fld := ⟨REF_STATUS, 8, 1⟩
/-- REF_STATUS.SELECTED, bits 3..0, RO. -/
def REF_STATUS_SELECTED : Fld := ⟨REF_STATUS, 0, 4⟩
/-- REF_EVENT at 0x00200008 (R157). -/
def REF_EVENT : Reg := ⟨0x00200008, BitVec.ofNat 32 (0)⟩
/-- REF_EVENT.ENS_DROP, bits 10..10, RW1C. -/
def REF_EVENT_ENS_DROP : Fld := ⟨REF_EVENT, 10, 1⟩
/-- REF_EVENT.SEED_REJECTED, bits 9..9, RW1C. -/
def REF_EVENT_SEED_REJECTED : Fld := ⟨REF_EVENT, 9, 1⟩
/-- REF_EVENT.SEED_USED, bits 8..8, RW1C. -/
def REF_EVENT_SEED_USED : Fld := ⟨REF_EVENT, 8, 1⟩
/-- REF_EVENT.FRAM_ERR, bits 7..7, RW1C. -/
def REF_EVENT_FRAM_ERR : Fld := ⟨REF_EVENT, 7, 1⟩
/-- REF_EVENT.DCO_NOT_OWNER, bits 6..6, RW1C. -/
def REF_EVENT_DCO_NOT_OWNER : Fld := ⟨REF_EVENT, 6, 1⟩
/-- REF_EVENT.CFG_ERR, bits 5..5, RW1C. -/
def REF_EVENT_CFG_ERR : Fld := ⟨REF_EVENT, 5, 1⟩
/-- REF_EVENT.FREERUN, bits 4..4, RW1C. -/
def REF_EVENT_FREERUN : Fld := ⟨REF_EVENT, 4, 1⟩
/-- REF_EVENT.HOLDOVER, bits 3..3, RW1C. -/
def REF_EVENT_HOLDOVER : Fld := ⟨REF_EVENT, 3, 1⟩
/-- REF_EVENT.DISPUTE, bits 2..2, RW1C. -/
def REF_EVENT_DISPUTE : Fld := ⟨REF_EVENT, 2, 1⟩
/-- REF_EVENT.LOSS, bits 1..1, RW1C. -/
def REF_EVENT_LOSS : Fld := ⟨REF_EVENT, 1, 1⟩
/-- REF_EVENT.SWITCH, bits 0..0, RW1C. -/
def REF_EVENT_SWITCH : Fld := ⟨REF_EVENT, 0, 1⟩
/-- REF_WTR at 0x0020000C (R158). -/
def REF_WTR : Reg := ⟨0x0020000C, BitVec.ofNat 32 (0x12C)⟩
/-- REF_WTR.WTR, bits 11..0, RW. -/
def REF_WTR_WTR : Fld := ⟨REF_WTR, 0, 12⟩
/-- REF_DISAGREE at 0x00200010 (R158). -/
def REF_DISAGREE : Reg := ⟨0x00200010, BitVec.ofNat 32 (0xC3500)⟩
/-- REF_DISAGREE.DISAGREE, bits 23..0, RW. -/
def REF_DISAGREE_DISAGREE : Fld := ⟨REF_DISAGREE, 0, 24⟩
/-- REF_SLOT_CFG at 0x00200100 (R159). -/
def REF_SLOT_CFG (n : Nat) : Reg := ⟨0x00200100 + 0x20 * n, BitVec.ofNat 32 (if n < 12 then 0xFFF0 else 0xFFF0 + 0x10000 * (n - 12))⟩
/-- REF_SLOT_CFG.TSRC, bits 18..16, RW. -/
def REF_SLOT_CFG_TSRC (n : Nat) : Fld := ⟨REF_SLOT_CFG n, 16, 3⟩
/-- REF_SLOT_CFG.QUAL, bits 15..8, RW. -/
def REF_SLOT_CFG_QUAL (n : Nat) : Fld := ⟨REF_SLOT_CFG n, 8, 8⟩
/-- REF_SLOT_CFG.PRIO, bits 7..4, RW. -/
def REF_SLOT_CFG_PRIO (n : Nat) : Fld := ⟨REF_SLOT_CFG n, 4, 4⟩
/-- REF_SLOT_CFG.EN, bits 0..0, RW. -/
def REF_SLOT_CFG_EN (n : Nat) : Fld := ⟨REF_SLOT_CFG n, 0, 1⟩
/-- REF_SLOT_FWIN at 0x00200104 (R160). -/
def REF_SLOT_FWIN (n : Nat) : Reg := ⟨0x00200104 + 0x20 * n, BitVec.ofNat 32 (0x08C61800)⟩
/-- REF_SLOT_FWIN.V, bits 27..0, RW. -/
def REF_SLOT_FWIN_V (n : Nat) : Fld := ⟨REF_SLOT_FWIN n, 0, 28⟩
/-- REF_SLOT_SOAK at 0x00200108 (R160). -/
def REF_SLOT_SOAK (n : Nat) : Reg := ⟨0x00200108 + 0x20 * n, BitVec.ofNat 32 (0xA)⟩
/-- REF_SLOT_SOAK.V, bits 11..0, RW. -/
def REF_SLOT_SOAK_V (n : Nat) : Fld := ⟨REF_SLOT_SOAK n, 0, 12⟩
/-- REF_SLOT_HIT at 0x0020010C (R160). -/
def REF_SLOT_HIT (n : Nat) : Reg := ⟨0x0020010C + 0x20 * n, BitVec.ofNat 32 (0x64000)⟩
/-- REF_SLOT_HIT.V, bits 31..0, RW. -/
def REF_SLOT_HIT_V (n : Nat) : Fld := ⟨REF_SLOT_HIT n, 0, 32⟩
/-- REF_SLOT_STATE at 0x00200110 (R160). -/
def REF_SLOT_STATE (n : Nat) : Reg := ⟨0x00200110 + 0x20 * n, BitVec.ofNat 32 (0)⟩
/-- REF_SLOT_STATE.REMAIN, bits 27..16, RO. -/
def REF_SLOT_STATE_REMAIN (n : Nat) : Fld := ⟨REF_SLOT_STATE n, 16, 12⟩
/-- REF_SLOT_STATE.STATE, bits 2..0, RO. -/
def REF_SLOT_STATE_STATE (n : Nat) : Fld := ⟨REF_SLOT_STATE n, 0, 3⟩
/-- REF_SLOT_FREQ at 0x00200114 (R160). -/
def REF_SLOT_FREQ (n : Nat) : Reg := ⟨0x00200114 + 0x20 * n, BitVec.ofNat 32 (0)⟩
/-- REF_SLOT_FREQ.V, bits 31..0, RO. -/
def REF_SLOT_FREQ_V (n : Nat) : Fld := ⟨REF_SLOT_FREQ n, 0, 32⟩
/-- REF_SLOT_INSTAB at 0x00200118 (R160). -/
def REF_SLOT_INSTAB (n : Nat) : Reg := ⟨0x00200118 + 0x20 * n, BitVec.ofNat 32 (0xFFFFFFFF)⟩
/-- REF_SLOT_INSTAB.V, bits 31..0, RO. -/
def REF_SLOT_INSTAB_V (n : Nat) : Fld := ⟨REF_SLOT_INSTAB n, 0, 32⟩
/-- REF_SLOT_NOM at 0x0020011C (R160). -/
def REF_SLOT_NOM (n : Nat) : Reg := ⟨0x0020011C + 0x20 * n, BitVec.ofNat 32 (0x00989680)⟩
/-- REF_SLOT_NOM.V, bits 29..0, RW. -/
def REF_SLOT_NOM_V (n : Nat) : Fld := ⟨REF_SLOT_NOM n, 0, 30⟩
/-- DPLL_CFG at 0x00200400 (R161). -/
def DPLL_CFG : Reg := ⟨0x00200400, BitVec.ofNat 32 (0x64)⟩
/-- DPLL_CFG.BW, bits 3..0, RW. -/
def DPLL_CFG_BW : Fld := ⟨DPLL_CFG, 0, 4⟩
/-- DPLL_CFG.ACQ_BW, bits 7..4, RW. -/
def DPLL_CFG_ACQ_BW : Fld := ⟨DPLL_CFG, 4, 4⟩
/-- DPLL_STATUS at 0x00200404 (R162). -/
def DPLL_STATUS : Reg := ⟨0x00200404, BitVec.ofNat 32 (0x4)⟩
/-- DPLL_STATUS.STATE, bits 9..8, RO. -/
def DPLL_STATUS_STATE : Fld := ⟨DPLL_STATUS, 8, 2⟩
/-- DPLL_STATUS.BW_CLAMPED, bits 4..4, RO. -/
def DPLL_STATUS_BW_CLAMPED : Fld := ⟨DPLL_STATUS, 4, 1⟩
/-- DPLL_STATUS.BW_APPLIED, bits 3..0, RO. -/
def DPLL_STATUS_BW_APPLIED : Fld := ⟨DPLL_STATUS, 0, 4⟩
/-- DPLL_LOCK at 0x00200408 (R161). -/
def DPLL_LOCK : Reg := ⟨0x00200408, BitVec.ofNat 32 (0x00011000)⟩
/-- DPLL_LOCK.PE, bits 15..0, RW. -/
def DPLL_LOCK_PE : Fld := ⟨DPLL_LOCK, 0, 16⟩
/-- DPLL_LOCK.LOCK_MIN, bits 27..16, RW. -/
def DPLL_LOCK_LOCK_MIN : Fld := ⟨DPLL_LOCK, 16, 12⟩
/-- DPLL_PHASE_ERR at 0x0020040C (R161). -/
def DPLL_PHASE_ERR : Reg := ⟨0x0020040C, BitVec.ofNat 32 (0)⟩
/-- DPLL_PHASE_ERR.V, bits 31..0, RO. -/
def DPLL_PHASE_ERR_V : Fld := ⟨DPLL_PHASE_ERR, 0, 32⟩
/-- DCO_CTRL at 0x00200800 (R163). -/
def DCO_CTRL : Reg := ⟨0x00200800, BitVec.ofNat 32 (0)⟩
/-- DCO_CTRL.OWNER, bits 0..0, RW. -/
def DCO_CTRL_OWNER : Fld := ⟨DCO_CTRL, 0, 1⟩
/-- DCO_OFFSET at 0x00200804, 2 words (R163). -/
def DCO_OFFSET : Wide := ⟨0x00200804, 2, 0⟩
/-- DCO_OFFSET.SEXT, bits 63..34, RO. -/
def DCO_OFFSET_SEXT : Fld := ⟨(DCO_OFFSET).word 1, 2, 30⟩
/-- HOLD_CFG at 0x00200C00 (R164). -/
def HOLD_CFG : Reg := ⟨0x00200C00, BitVec.ofNat 32 (0x00080040)⟩
/-- HOLD_CFG.WINDOW, bits 12..0, RW. -/
def HOLD_CFG_WINDOW : Fld := ⟨HOLD_CFG, 0, 13⟩
/-- HOLD_CFG.GUARD, bits 26..16, RW. -/
def HOLD_CFG_GUARD : Fld := ⟨HOLD_CFG, 16, 11⟩
/-- HOLD_STATUS at 0x00200C04 (R165). -/
def HOLD_STATUS : Reg := ⟨0x00200C04, BitVec.ofNat 32 (0)⟩
/-- HOLD_STATUS.USED, bits 31..16, RO. -/
def HOLD_STATUS_USED : Fld := ⟨HOLD_STATUS, 16, 16⟩
/-- HOLD_STATUS.FRAM_ERR, bits 6..6, RO. -/
def HOLD_STATUS_FRAM_ERR : Fld := ⟨HOLD_STATUS, 6, 1⟩
/-- HOLD_STATUS.SEED, bits 5..4, RO. -/
def HOLD_STATUS_SEED : Fld := ⟨HOLD_STATUS, 4, 2⟩
/-- HOLD_STATUS.GUARD_USED, bits 1..1, RO. -/
def HOLD_STATUS_GUARD_USED : Fld := ⟨HOLD_STATUS, 1, 1⟩
/-- HOLD_STATUS.EXTENDED, bits 0..0, RO. -/
def HOLD_STATUS_EXTENDED : Fld := ⟨HOLD_STATUS, 0, 1⟩
/-- HOLD_VALUE at 0x00200C08, 2 words (R164). -/
def HOLD_VALUE : Wide := ⟨0x00200C08, 2, 0⟩
/-- HOLD_VALUE.SEXT, bits 63..34, RO. -/
def HOLD_VALUE_SEXT : Fld := ⟨(HOLD_VALUE).word 1, 2, 30⟩
/-- HOLD_FREERUN at 0x00200C10, 2 words (R164). -/
def HOLD_FREERUN : Wide := ⟨0x00200C10, 2, 0⟩
/-- HOLD_FREERUN.SEXT, bits 63..34, RO. -/
def HOLD_FREERUN_SEXT : Fld := ⟨(HOLD_FREERUN).word 1, 2, 30⟩
/-- HOLD_FRAM_CFG at 0x00200C18 (R164). -/
def HOLD_FRAM_CFG : Reg := ⟨0x00200C18, BitVec.ofNat 32 (0)⟩
/-- HOLD_FRAM_CFG.EN, bits 0..0, RW. -/
def HOLD_FRAM_CFG_EN : Fld := ⟨HOLD_FRAM_CFG, 0, 1⟩
/-- HOLD_FRAM_CFG.WARM_EN, bits 1..1, RW. -/
def HOLD_FRAM_CFG_WARM_EN : Fld := ⟨HOLD_FRAM_CFG, 1, 1⟩
/-- REF_ENS_CTRL at 0x00201000 (R167). -/
def REF_ENS_CTRL : Reg := ⟨0x00201000, BitVec.ofNat 32 (0x00640000)⟩
/-- REF_ENS_CTRL.EN, bits 0..0, RW. -/
def REF_ENS_CTRL_EN : Fld := ⟨REF_ENS_CTRL, 0, 1⟩
/-- REF_ENS_CTRL.DISAGREE, bits 27..16, RW. -/
def REF_ENS_CTRL_DISAGREE : Fld := ⟨REF_ENS_CTRL, 16, 12⟩
/-- REF_ENS_STATUS at 0x00201004 (R167). -/
def REF_ENS_STATUS : Reg := ⟨0x00201004, BitVec.ofNat 32 (0)⟩
/-- REF_ENS_STATUS.FUSED_COUNT, bits 3..0, RO. -/
def REF_ENS_STATUS_FUSED_COUNT : Fld := ⟨REF_ENS_STATUS, 0, 4⟩
/-- REF_ENS_STATUS.VALID, bits 8..8, RO. -/
def REF_ENS_STATUS_VALID : Fld := ⟨REF_ENS_STATUS, 8, 1⟩
/-- REF_ENS_OFFSET at 0x00201008, 2 words (R167). -/
def REF_ENS_OFFSET : Wide := ⟨0x00201008, 2, 0⟩
/-- REF_ENS_MEMBER at 0x00201040 (R168). -/
def REF_ENS_MEMBER (k : Nat) : Reg := ⟨0x00201040 + 0x8 * k, BitVec.ofNat 32 (0)⟩
/-- REF_ENS_MEMBER.SESSION, bits 8..0, RW. -/
def REF_ENS_MEMBER_SESSION (k : Nat) : Fld := ⟨REF_ENS_MEMBER k, 0, 9⟩
/-- REF_ENS_MEMBER.EN, bits 15..15, RW. -/
def REF_ENS_MEMBER_EN (k : Nat) : Fld := ⟨REF_ENS_MEMBER k, 15, 1⟩
/-- REF_ENS_MSTAT at 0x00201044 (R168). -/
def REF_ENS_MSTAT (k : Nat) : Reg := ⟨0x00201044 + 0x8 * k, BitVec.ofNat 32 (0)⟩
/-- REF_ENS_MSTAT.STATE, bits 1..0, RO. -/
def REF_ENS_MSTAT_STATE (k : Nat) : Fld := ⟨REF_ENS_MSTAT k, 0, 2⟩
/-- REF_ENS_MSTAT.WEIGHT, bits 31..16, RO. -/
def REF_ENS_MSTAT_WEIGHT (k : Nat) : Fld := ⟨REF_ENS_MSTAT k, 16, 16⟩
/-- HOLD_HIST at 0x00208000, 2 words (R166). -/
def HOLD_HIST (k : Nat) : Wide := ⟨0x00208000 + 0x8 * k, 2, 0⟩
/-- HOLD_HIST.VALID, bits 63..63, RO. -/
def HOLD_HIST_VALID (k : Nat) : Fld := ⟨(HOLD_HIST k).word 1, 31, 1⟩
/-- TB_CTRL at 0x00300000 (R197). -/
def TB_CTRL : Reg := ⟨0x00300000, BitVec.ofNat 32 (0)⟩
/-- TB_CTRL.STEER_SRC, bits 6..4, RW. -/
def TB_CTRL_STEER_SRC : Fld := ⟨TB_CTRL, 4, 3⟩
/-- TB_CTRL.STEER_OWNER, bits 0..0, RW. -/
def TB_CTRL_STEER_OWNER : Fld := ⟨TB_CTRL, 0, 1⟩
/-- TB_STATUS at 0x00300004 (R199). -/
def TB_STATUS : Reg := ⟨0x00300004, BitVec.ofNat 32 (0)⟩
/-- TB_STATUS.SRC_VOID, bits 7..7, RO. -/
def TB_STATUS_SRC_VOID : Fld := ⟨TB_STATUS, 7, 1⟩
/-- TB_STATUS.SLEW_CLAMP, bits 6..6, RO. -/
def TB_STATUS_SLEW_CLAMP : Fld := ⟨TB_STATUS, 6, 1⟩
/-- TB_STATUS.STEP_PENDING, bits 5..5, RO. -/
def TB_STATUS_STEP_PENDING : Fld := ⟨TB_STATUS, 5, 1⟩
/-- TB_STATUS.EFF_OWNER, bits 4..4, RO. -/
def TB_STATUS_EFF_OWNER : Fld := ⟨TB_STATUS, 4, 1⟩
/-- TB_STATUS.DISCONT, bits 3..3, RW1C. -/
def TB_STATUS_DISCONT : Fld := ⟨TB_STATUS, 3, 1⟩
/-- TB_STATUS.WAS_FINE, bits 2..2, RO. -/
def TB_STATUS_WAS_FINE : Fld := ⟨TB_STATUS, 2, 1⟩
/-- TB_STATUS.STATE, bits 1..0, RO. -/
def TB_STATUS_STATE : Fld := ⟨TB_STATUS, 0, 2⟩
/-- TB_EVENT at 0x00300008 (R200). -/
def TB_EVENT : Reg := ⟨0x00300008, BitVec.ofNat 32 (0)⟩
/-- TB_EVENT.SRC_VOID, bits 9..9, RW1C. -/
def TB_EVENT_SRC_VOID : Fld := ⟨TB_EVENT, 9, 1⟩
/-- TB_EVENT.CFG_ERR, bits 8..8, RW1C. -/
def TB_EVENT_CFG_ERR : Fld := ⟨TB_EVENT, 8, 1⟩
/-- TB_EVENT.TOD_ERR, bits 7..7, RW1C. -/
def TB_EVENT_TOD_ERR : Fld := ⟨TB_EVENT, 7, 1⟩
/-- TB_EVENT.NOT_OWNER, bits 6..6, RW1C. -/
def TB_EVENT_NOT_OWNER : Fld := ⟨TB_EVENT, 6, 1⟩
/-- TB_EVENT.INVALID, bits 5..5, RW1C. -/
def TB_EVENT_INVALID : Fld := ⟨TB_EVENT, 5, 1⟩
/-- TB_EVENT.DIVERGE, bits 4..4, RW1C. -/
def TB_EVENT_DIVERGE : Fld := ⟨TB_EVENT, 4, 1⟩
/-- TB_EVENT.STEP_COLLIDE, bits 3..3, RW1C. -/
def TB_EVENT_STEP_COLLIDE : Fld := ⟨TB_EVENT, 3, 1⟩
/-- TB_EVENT.STEP_REJ, bits 2..2, RW1C. -/
def TB_EVENT_STEP_REJ : Fld := ⟨TB_EVENT, 2, 1⟩
/-- TB_EVENT.BACK_SLEW, bits 1..1, RW1C. -/
def TB_EVENT_BACK_SLEW : Fld := ⟨TB_EVENT, 1, 1⟩
/-- TB_EVENT.STEP, bits 0..0, RW1C. -/
def TB_EVENT_STEP : Fld := ⟨TB_EVENT, 0, 1⟩
/-- TB_EPOCH at 0x0030000C (R201). -/
def TB_EPOCH : Reg := ⟨0x0030000C, BitVec.ofNat 32 (0)⟩
/-- TB_EPOCH.V, bits 31..0, RO. -/
def TB_EPOCH_V : Fld := ⟨TB_EPOCH, 0, 32⟩
/-- TB_TIME at 0x00300010, 3 words (R201). -/
def TB_TIME : Wide := ⟨0x00300010, 3, 0⟩
/-- TB_INCR at 0x00300020, 2 words (R201). -/
def TB_INCR : Wide := ⟨0x00300020, 2, 0x040000000000⟩
/-- TB_POLICY at 0x00300028 (R201). -/
def TB_POLICY : Reg := ⟨0x00300028, BitVec.ofNat 32 (0x64)⟩
/-- TB_POLICY.SLEW_MAX, bits 9..0, RW. -/
def TB_POLICY_SLEW_MAX : Fld := ⟨TB_POLICY, 0, 10⟩
/-- TB_POLICY.ALLOW_BACKWARD_STEP, bits 16..16, RW. -/
def TB_POLICY_ALLOW_BACKWARD_STEP : Fld := ⟨TB_POLICY, 16, 1⟩
/-- TB_STEP_THRESH at 0x0030002C (R201). -/
def TB_STEP_THRESH : Reg := ⟨0x0030002C, BitVec.ofNat 32 (0x3E8)⟩
/-- TB_STEP_THRESH.V, bits 31..0, RW. -/
def TB_STEP_THRESH_V : Fld := ⟨TB_STEP_THRESH, 0, 32⟩
/-- TB_FINE at 0x00300030 (R201). -/
def TB_FINE : Reg := ⟨0x00300030, BitVec.ofNat 32 (0x00080032)⟩
/-- TB_FINE.THRESH, bits 15..0, RW. -/
def TB_FINE_THRESH : Fld := ⟨TB_FINE, 0, 16⟩
/-- TB_FINE.COUNT, bits 23..16, RW. -/
def TB_FINE_COUNT : Fld := ⟨TB_FINE, 16, 8⟩
/-- TB_HOST_STATE at 0x00300034 (R201). -/
def TB_HOST_STATE : Reg := ⟨0x00300034, BitVec.ofNat 32 (0x1)⟩
/-- TB_HOST_STATE.REQ, bits 1..0, RW. -/
def TB_HOST_STATE_REQ : Fld := ⟨TB_HOST_STATE, 0, 2⟩
/-- TB_STEP at 0x00300040, 2 words (R201). -/
def TB_STEP : Wide := ⟨0x00300040, 2, 0⟩
/-- TB_STEP_CTRL at 0x00300048 (R201). -/
def TB_STEP_CTRL : Reg := ⟨0x00300048, BitVec.ofNat 32 (0)⟩
/-- TB_STEP_CTRL.GO, bits 0..0, RWS. -/
def TB_STEP_CTRL_GO : Fld := ⟨TB_STEP_CTRL, 0, 1⟩
/-- TB_LOAD at 0x00300050, 3 words (R201). -/
def TB_LOAD : Wide := ⟨0x00300050, 3, 0⟩
/-- TB_LOAD_CTRL at 0x0030005C (R201). -/
def TB_LOAD_CTRL : Reg := ⟨0x0030005C, BitVec.ofNat 32 (0)⟩
/-- TB_LOAD_CTRL.GO, bits 0..0, RWS. -/
def TB_LOAD_CTRL_GO : Fld := ⟨TB_LOAD_CTRL, 0, 1⟩
/-- TB_LAST_TIME at 0x00300060, 3 words (R201). -/
def TB_LAST_TIME : Wide := ⟨0x00300060, 3, 0⟩
/-- TB_LAST_SIZE at 0x00300070, 2 words (R201). -/
def TB_LAST_SIZE : Wide := ⟨0x00300070, 2, 0⟩
/-- TB_LAST_CAUSE at 0x00300078 (R201). -/
def TB_LAST_CAUSE : Reg := ⟨0x00300078, BitVec.ofNat 32 (0)⟩
/-- TB_LAST_CAUSE.V, bits 3..0, RO. -/
def TB_LAST_CAUSE_V : Fld := ⟨TB_LAST_CAUSE, 0, 4⟩
/-- TB_HOLD_INCR at 0x00300080, 2 words (R201). -/
def TB_HOLD_INCR : Wide := ⟨0x00300080, 2, 0x040000000000⟩
/-- TB_SNAP_CTRL at 0x00300100 (R202). -/
def TB_SNAP_CTRL : Reg := ⟨0x00300100, BitVec.ofNat 32 (0)⟩
/-- TB_SNAP_CTRL.PPSIN1_FALL, bits 4..4, RW. -/
def TB_SNAP_CTRL_PPSIN1_FALL : Fld := ⟨TB_SNAP_CTRL, 4, 1⟩
/-- TB_SNAP_CTRL.PPSIN0_FALL, bits 3..3, RW. -/
def TB_SNAP_CTRL_PPSIN0_FALL : Fld := ⟨TB_SNAP_CTRL, 3, 1⟩
/-- TB_SNAP_CTRL.PPSIN1_EN, bits 2..2, RW. -/
def TB_SNAP_CTRL_PPSIN1_EN : Fld := ⟨TB_SNAP_CTRL, 2, 1⟩
/-- TB_SNAP_CTRL.PPSIN0_EN, bits 1..1, RW. -/
def TB_SNAP_CTRL_PPSIN0_EN : Fld := ⟨TB_SNAP_CTRL, 1, 1⟩
/-- TB_SNAP_CTRL.SW, bits 0..0, RWS. -/
def TB_SNAP_CTRL_SW : Fld := ⟨TB_SNAP_CTRL, 0, 1⟩
/-- TB_SNAP at 0x00300110, 4 words (R202). -/
def TB_SNAP (m : Nat) : Wide := ⟨0x00300110 + 0x10 * m, 4, 0⟩
/-- TB_SNAP.EPOCH, bits 111..96, RO. -/
def TB_SNAP_EPOCH (m : Nat) : Fld := ⟨(TB_SNAP m).word 3, 0, 16⟩
/-- TB_SNAP.STATE, bits 113..112, RO. -/
def TB_SNAP_STATE (m : Nat) : Fld := ⟨(TB_SNAP m).word 3, 16, 2⟩
/-- TB_SNAP.VALID, bits 120..120, RO. -/
def TB_SNAP_VALID (m : Nat) : Fld := ⟨(TB_SNAP m).word 3, 24, 1⟩
/-- TB_SNAP.OVERRUN, bits 121..121, RO. -/
def TB_SNAP_OVERRUN (m : Nat) : Fld := ⟨(TB_SNAP m).word 3, 25, 1⟩
/-- TB_TOD_CFG at 0x00300200 (R203). -/
def TB_TOD_CFG : Reg := ⟨0x00300200, BitVec.ofNat 32 (0x640)⟩
/-- TB_TOD_CFG.IN_LOAD, bits 18..18, RW. -/
def TB_TOD_CFG_IN_LOAD : Fld := ⟨TB_TOD_CFG, 18, 1⟩
/-- TB_TOD_CFG.IN_SEL, bits 17..17, RW. -/
def TB_TOD_CFG_IN_SEL : Fld := ⟨TB_TOD_CFG, 17, 1⟩
/-- TB_TOD_CFG.IN_EN, bits 16..16, RW. -/
def TB_TOD_CFG_IN_EN : Fld := ⟨TB_TOD_CFG, 16, 1⟩
/-- TB_TOD_CFG.TX_DELAY, bits 13..4, RW. -/
def TB_TOD_CFG_TX_DELAY : Fld := ⟨TB_TOD_CFG, 4, 10⟩
/-- TB_TOD_CFG.OUT_SRC, bits 2..1, RW. -/
def TB_TOD_CFG_OUT_SRC : Fld := ⟨TB_TOD_CFG, 1, 2⟩
/-- TB_TOD_CFG.OUT_EN, bits 0..0, RW. -/
def TB_TOD_CFG_OUT_EN : Fld := ⟨TB_TOD_CFG, 0, 1⟩
/-- TB_TOD_UTC at 0x00300204 (R204). -/
def TB_TOD_UTC : Reg := ⟨0x00300204, BitVec.ofNat 32 (0x00080025)⟩
/-- TB_TOD_UTC.UTC_OFFSET, bits 15..0, RW. -/
def TB_TOD_UTC_UTC_OFFSET : Fld := ⟨TB_TOD_UTC, 0, 16⟩
/-- TB_TOD_UTC.LEAP61, bits 16..16, RW. -/
def TB_TOD_UTC_LEAP61 : Fld := ⟨TB_TOD_UTC, 16, 1⟩
/-- TB_TOD_UTC.LEAP59, bits 17..17, RW. -/
def TB_TOD_UTC_LEAP59 : Fld := ⟨TB_TOD_UTC, 17, 1⟩
/-- TB_TOD_UTC.VALID, bits 18..18, RW. -/
def TB_TOD_UTC_VALID : Fld := ⟨TB_TOD_UTC, 18, 1⟩
/-- TB_TOD_UTC.AUTO, bits 19..19, RW. -/
def TB_TOD_UTC_AUTO : Fld := ⟨TB_TOD_UTC, 19, 1⟩
/-- TB_TOD_IN_STATUS at 0x00300208 (R204). -/
def TB_TOD_IN_STATUS : Reg := ⟨0x00300208, BitVec.ofNat 32 (0)⟩
/-- TB_TOD_IN_STATUS.GOOD, bits 15..0, RC. -/
def TB_TOD_IN_STATUS_GOOD : Fld := ⟨TB_TOD_IN_STATUS, 0, 16⟩
/-- TB_TOD_IN_STATUS.BAD, bits 23..16, RC. -/
def TB_TOD_IN_STATUS_BAD : Fld := ⟨TB_TOD_IN_STATUS, 16, 8⟩
/-- TB_TOD_IN_DIFF at 0x00300210, 2 words (R204). -/
def TB_TOD_IN_DIFF : Wide := ⟨0x00300210, 2, 0⟩
/-- SCH_LATE at 0x00300800, 2 words (R205). -/
def SCH_LATE : Wide := ⟨0x00300800, 2, 0⟩
/-- SCH_ACT_TIME at 0x00301000, 3 words (R206). -/
def SCH_ACT_TIME (n : Nat) : Wide := ⟨0x00301000 + 0x20 * n, 3, 0⟩
/-- SCH_ACT_PERIOD at 0x0030100C (R206). -/
def SCH_ACT_PERIOD (n : Nat) : Reg := ⟨0x0030100C + 0x20 * n, BitVec.ofNat 32 (0)⟩
/-- SCH_ACT_PERIOD.V, bits 31..0, RW. -/
def SCH_ACT_PERIOD_V (n : Nat) : Fld := ⟨SCH_ACT_PERIOD n, 0, 32⟩
/-- SCH_ACT_CTRL at 0x00301010 (R206). -/
def SCH_ACT_CTRL (n : Nat) : Reg := ⟨0x00301010 + 0x20 * n, BitVec.ofNat 32 (0)⟩
/-- SCH_ACT_CTRL.ARM, bits 31..31, RWS. -/
def SCH_ACT_CTRL_ARM (n : Nat) : Fld := ⟨SCH_ACT_CTRL n, 31, 1⟩
/-- SCH_ACT_CTRL.DISARM, bits 30..30, WO. -/
def SCH_ACT_CTRL_DISARM (n : Nat) : Fld := ⟨SCH_ACT_CTRL n, 30, 1⟩
/-- SCH_ACT_CTRL.LATE_POLICY, bits 4..4, RW. -/
def SCH_ACT_CTRL_LATE_POLICY (n : Nat) : Fld := ⟨SCH_ACT_CTRL n, 4, 1⟩
/-- SCH_ACT_CTRL.TYPE, bits 3..0, RW. -/
def SCH_ACT_CTRL_TYPE (n : Nat) : Fld := ⟨SCH_ACT_CTRL n, 0, 4⟩
/-- SCH_ACT_PARAM0 at 0x00301014 (R206). -/
def SCH_ACT_PARAM0 (n : Nat) : Reg := ⟨0x00301014 + 0x20 * n, BitVec.ofNat 32 (0)⟩
/-- SCH_ACT_PARAM0.V, bits 31..0, RW. -/
def SCH_ACT_PARAM0_V (n : Nat) : Fld := ⟨SCH_ACT_PARAM0 n, 0, 32⟩
/-- SCH_ACT_PARAM1 at 0x00301018 (R206). -/
def SCH_ACT_PARAM1 (n : Nat) : Reg := ⟨0x00301018 + 0x20 * n, BitVec.ofNat 32 (0)⟩
/-- SCH_ACT_PARAM1.V, bits 31..0, RW. -/
def SCH_ACT_PARAM1_V (n : Nat) : Fld := ⟨SCH_ACT_PARAM1 n, 0, 32⟩
/-- SCH_ACT_STATUS at 0x0030101C (R206). -/
def SCH_ACT_STATUS (n : Nat) : Reg := ⟨0x0030101C + 0x20 * n, BitVec.ofNat 32 (0)⟩
/-- SCH_ACT_STATUS.RUNS, bits 31..16, RO. -/
def SCH_ACT_STATUS_RUNS (n : Nat) : Fld := ⟨SCH_ACT_STATUS n, 16, 16⟩
/-- SCH_ACT_STATUS.RESULT, bits 2..0, RO. -/
def SCH_ACT_STATUS_RESULT (n : Nat) : Fld := ⟨SCH_ACT_STATUS n, 0, 3⟩
/-- LN_CTRL at 0x00400000 (R249). -/
def LN_CTRL (n : Nat) : Reg := ⟨0x00400000 + 0x1000 * n, BitVec.ofNat 32 (0x13000)⟩
/-- LN_CTRL.AUTO_RETURN, bits 16..16, RW. -/
def LN_CTRL_AUTO_RETURN (n : Nat) : Fld := ⟨LN_CTRL n, 16, 1⟩
/-- LN_CTRL.SHED_GROUP, bits 13..12, RW. -/
def LN_CTRL_SHED_GROUP (n : Nat) : Fld := ⟨LN_CTRL n, 12, 2⟩
/-- LN_CTRL.LOOPBACK, bits 9..8, RW. -/
def LN_CTRL_LOOPBACK (n : Nat) : Fld := ⟨LN_CTRL n, 8, 2⟩
/-- LN_CTRL.RX_POL_INV, bits 5..5, RW. -/
def LN_CTRL_RX_POL_INV (n : Nat) : Fld := ⟨LN_CTRL n, 5, 1⟩
/-- LN_CTRL.TX_POL_INV, bits 4..4, RW. -/
def LN_CTRL_TX_POL_INV (n : Nat) : Fld := ⟨LN_CTRL n, 4, 1⟩
/-- LN_CTRL.TRAIN_EN, bits 2..2, RW. -/
def LN_CTRL_TRAIN_EN (n : Nat) : Fld := ⟨LN_CTRL n, 2, 1⟩
/-- LN_CTRL.CLOCK_REQ, bits 1..1, RW. -/
def LN_CTRL_CLOCK_REQ (n : Nat) : Fld := ⟨LN_CTRL n, 1, 1⟩
/-- LN_CTRL.EN, bits 0..0, RW. -/
def LN_CTRL_EN (n : Nat) : Fld := ⟨LN_CTRL n, 0, 1⟩
/-- LN_STATUS at 0x00400004 (R250). -/
def LN_STATUS (n : Nat) : Reg := ⟨0x00400004 + 0x1000 * n, BitVec.ofNat 32 (0)⟩
/-- LN_STATUS.BACKOFF, bits 25..16, RO. -/
def LN_STATUS_BACKOFF (n : Nat) : Fld := ⟨LN_STATUS n, 16, 10⟩
/-- LN_STATUS.SHED, bits 9..9, RO. -/
def LN_STATUS_SHED (n : Nat) : Fld := ⟨LN_STATUS n, 9, 1⟩
/-- LN_STATUS.LOS, bits 8..8, RO. -/
def LN_STATUS_LOS (n : Nat) : Fld := ⟨LN_STATUS n, 8, 1⟩
/-- LN_STATUS.SYNT_OK, bits 7..7, RO. -/
def LN_STATUS_SYNT_OK (n : Nat) : Fld := ⟨LN_STATUS n, 7, 1⟩
/-- LN_STATUS.UNTRAINED, bits 6..6, RO. -/
def LN_STATUS_UNTRAINED (n : Nat) : Fld := ⟨LN_STATUS n, 6, 1⟩
/-- LN_STATUS.CDR_LOCKED, bits 5..5, RO. -/
def LN_STATUS_CDR_LOCKED (n : Nat) : Fld := ⟨LN_STATUS n, 5, 1⟩
/-- LN_STATUS.CLOCK_EFF, bits 4..4, RO. -/
def LN_STATUS_CLOCK_EFF (n : Nat) : Fld := ⟨LN_STATUS n, 4, 1⟩
/-- LN_STATUS.STATE, bits 2..0, RO. -/
def LN_STATUS_STATE (n : Nat) : Fld := ⟨LN_STATUS n, 0, 3⟩
/-- LN_EVENT at 0x00400008 (R251). -/
def LN_EVENT (n : Nat) : Reg := ⟨0x00400008 + 0x1000 * n, BitVec.ofNat 32 (0)⟩
/-- LN_EVENT.CFG_BUSY, bits 11..11, RW1C. -/
def LN_EVENT_CFG_BUSY (n : Nat) : Fld := ⟨LN_EVENT n, 11, 1⟩
/-- LN_EVENT.CFG_ERR, bits 10..10, RW1C. -/
def LN_EVENT_CFG_ERR (n : Nat) : Fld := ⟨LN_EVENT n, 10, 1⟩
/-- LN_EVENT.EB_ERR, bits 9..9, RW1C. -/
def LN_EVENT_EB_ERR (n : Nat) : Fld := ⟨LN_EVENT n, 9, 1⟩
/-- LN_EVENT.FAULT, bits 8..8, RW1C. -/
def LN_EVENT_FAULT (n : Nat) : Fld := ⟨LN_EVENT n, 8, 1⟩
/-- LN_EVENT.PMA_RESET, bits 7..7, RW1C. -/
def LN_EVENT_PMA_RESET (n : Nat) : Fld := ⟨LN_EVENT n, 7, 1⟩
/-- LN_EVENT.ALIGN_TIMEOUT, bits 6..6, RW1C. -/
def LN_EVENT_ALIGN_TIMEOUT (n : Nat) : Fld := ⟨LN_EVENT n, 6, 1⟩
/-- LN_EVENT.CDR_TIMEOUT, bits 5..5, RW1C. -/
def LN_EVENT_CDR_TIMEOUT (n : Nat) : Fld := ⟨LN_EVENT n, 5, 1⟩
/-- LN_EVENT.TRAIN_LOS, bits 4..4, RW1C. -/
def LN_EVENT_TRAIN_LOS (n : Nat) : Fld := ⟨LN_EVENT n, 4, 1⟩
/-- LN_EVENT.TRAIN_FALLBACK, bits 3..3, RW1C. -/
def LN_EVENT_TRAIN_FALLBACK (n : Nat) : Fld := ⟨LN_EVENT n, 3, 1⟩
/-- LN_EVENT.LOS, bits 2..2, RW1C. -/
def LN_EVENT_LOS (n : Nat) : Fld := ⟨LN_EVENT n, 2, 1⟩
/-- LN_EVENT.SYNT_RETURN, bits 1..1, RW1C. -/
def LN_EVENT_SYNT_RETURN (n : Nat) : Fld := ⟨LN_EVENT n, 1, 1⟩
/-- LN_EVENT.SYNT_FALLBACK, bits 0..0, RW1C. -/
def LN_EVENT_SYNT_FALLBACK (n : Nat) : Fld := ⟨LN_EVENT n, 0, 1⟩
/-- LN_SYNT_LIMIT at 0x0040000C (R252). -/
def LN_SYNT_LIMIT (n : Nat) : Reg := ⟨0x0040000C + 0x1000 * n, BitVec.ofNat 32 (0x27100)⟩
/-- LN_SYNT_LIMIT.V, bits 23..0, RW. -/
def LN_SYNT_LIMIT_V (n : Nat) : Fld := ⟨LN_SYNT_LIMIT n, 0, 24⟩
/-- LN_SYNT_HOLD at 0x00400010 (R252). -/
def LN_SYNT_HOLD (n : Nat) : Reg := ⟨0x00400010 + 0x1000 * n, BitVec.ofNat 32 (0xA)⟩
/-- LN_SYNT_HOLD.V, bits 15..0, RW. -/
def LN_SYNT_HOLD_V (n : Nat) : Fld := ⟨LN_SYNT_HOLD n, 0, 16⟩
/-- LN_EQ at 0x00400014 (R252). -/
def LN_EQ (n : Nat) : Reg := ⟨0x00400014 + 0x1000 * n, BitVec.ofNat 32 (0x110)⟩
/-- LN_EQ.PEAK, bits 5..0, RW. -/
def LN_EQ_PEAK (n : Nat) : Fld := ⟨LN_EQ n, 0, 6⟩
/-- LN_EQ.ADAPT_EN, bits 8..8, RW. -/
def LN_EQ_ADAPT_EN (n : Nat) : Fld := ⟨LN_EQ n, 8, 1⟩
/-- LN_EQ.PEAK_CUR, bits 21..16, RO. -/
def LN_EQ_PEAK_CUR (n : Nat) : Fld := ⟨LN_EQ n, 16, 6⟩
/-- LN_EQ.FROZEN, bits 24..24, RO. -/
def LN_EQ_FROZEN (n : Nat) : Fld := ⟨LN_EQ n, 24, 1⟩
/-- LN_TX_PRESET at 0x00400018 (R252). -/
def LN_TX_PRESET (n : Nat) : Reg := ⟨0x00400018 + 0x1000 * n, BitVec.ofNat 32 (0x3F00)⟩
/-- LN_TX_PRESET.PRE, bits 4..0, RW. -/
def LN_TX_PRESET_PRE (n : Nat) : Fld := ⟨LN_TX_PRESET n, 0, 5⟩
/-- LN_TX_PRESET.MAIN, bits 13..8, RW. -/
def LN_TX_PRESET_MAIN (n : Nat) : Fld := ⟨LN_TX_PRESET n, 8, 6⟩
/-- LN_TX_PRESET.POST, bits 20..16, RW. -/
def LN_TX_PRESET_POST (n : Nat) : Fld := ⟨LN_TX_PRESET n, 16, 5⟩
/-- LN_TX_CUR at 0x0040001C (R252). -/
def LN_TX_CUR (n : Nat) : Reg := ⟨0x0040001C + 0x1000 * n, BitVec.ofNat 32 (0x3F00)⟩
/-- LN_TX_CUR.PRE, bits 4..0, RO. -/
def LN_TX_CUR_PRE (n : Nat) : Fld := ⟨LN_TX_CUR n, 0, 5⟩
/-- LN_TX_CUR.MAIN, bits 13..8, RO. -/
def LN_TX_CUR_MAIN (n : Nat) : Fld := ⟨LN_TX_CUR n, 8, 6⟩
/-- LN_TX_CUR.POST, bits 20..16, RO. -/
def LN_TX_CUR_POST (n : Nat) : Fld := ⟨LN_TX_CUR n, 16, 5⟩
/-- LN_LAT at 0x00400020 (R252). -/
def LN_LAT (n : Nat) : Reg := ⟨0x00400020 + 0x1000 * n, BitVec.ofNat 32 (0)⟩
/-- LN_LAT.RX_SLIP, bits 6..0, RO. -/
def LN_LAT_RX_SLIP (n : Nat) : Fld := ⟨LN_LAT n, 0, 7⟩
/-- LN_LAT.TX_GBOX, bits 14..8, RO. -/
def LN_LAT_TX_GBOX (n : Nat) : Fld := ⟨LN_LAT n, 8, 7⟩
/-- LN_LAT.DESKEW, bits 28..16, RO. -/
def LN_LAT_DESKEW (n : Nat) : Fld := ⟨LN_LAT n, 16, 13⟩
/-- LN_LAT.VALID, bits 31..31, RO. -/
def LN_LAT_VALID (n : Nat) : Fld := ⟨LN_LAT n, 31, 1⟩
/-- LN_LAT_RX at 0x00400024 (R252). -/
def LN_LAT_RX (n : Nat) : Reg := ⟨0x00400024 + 0x1000 * n, BitVec.ofNat 32 (0)⟩
/-- LN_LAT_RX.V, bits 23..0, RO. -/
def LN_LAT_RX_V (n : Nat) : Fld := ⟨LN_LAT_RX n, 0, 24⟩
/-- LN_LAT_TX at 0x00400028 (R252). -/
def LN_LAT_TX (n : Nat) : Reg := ⟨0x00400028 + 0x1000 * n, BitVec.ofNat 32 (0)⟩
/-- LN_LAT_TX.V, bits 15..0, RO. -/
def LN_LAT_TX_V (n : Nat) : Fld := ⟨LN_LAT_TX n, 0, 16⟩
/-- LN_EB at 0x0040002C (R252). -/
def LN_EB (n : Nat) : Reg := ⟨0x0040002C + 0x1000 * n, BitVec.ofNat 32 (0)⟩
/-- LN_EB.FILL, bits 5..0, RO. -/
def LN_EB_FILL (n : Nat) : Fld := ⟨LN_EB n, 0, 6⟩
/-- LN_PRBS_CTRL at 0x00400030 (R252). -/
def LN_PRBS_CTRL (n : Nat) : Reg := ⟨0x00400030 + 0x1000 * n, BitVec.ofNat 32 (0x450)⟩
/-- LN_PRBS_CTRL.GEN_EN, bits 0..0, RW. -/
def LN_PRBS_CTRL_GEN_EN (n : Nat) : Fld := ⟨LN_PRBS_CTRL n, 0, 1⟩
/-- LN_PRBS_CTRL.CHK_EN, bits 1..1, RW. -/
def LN_PRBS_CTRL_CHK_EN (n : Nat) : Fld := ⟨LN_PRBS_CTRL n, 1, 1⟩
/-- LN_PRBS_CTRL.PATTERN, bits 6..4, RW. -/
def LN_PRBS_CTRL_PATTERN (n : Nat) : Fld := ⟨LN_PRBS_CTRL n, 4, 3⟩
/-- LN_PRBS_CTRL.INVERT, bits 7..7, RW. -/
def LN_PRBS_CTRL_INVERT (n : Nat) : Fld := ⟨LN_PRBS_CTRL n, 7, 1⟩
/-- LN_PRBS_CTRL.INJ_SINGLE, bits 8..8, RWS. -/
def LN_PRBS_CTRL_INJ_SINGLE (n : Nat) : Fld := ⟨LN_PRBS_CTRL n, 8, 1⟩
/-- LN_PRBS_CTRL.INJ_EN, bits 9..9, RW. -/
def LN_PRBS_CTRL_INJ_EN (n : Nat) : Fld := ⟨LN_PRBS_CTRL n, 9, 1⟩
/-- LN_PRBS_CTRL.SQ_HALF, bits 15..10, RW. -/
def LN_PRBS_CTRL_SQ_HALF (n : Nat) : Fld := ⟨LN_PRBS_CTRL n, 10, 6⟩
/-- LN_PRBS_CTRL.INJ_PERIOD, bits 31..16, RW. -/
def LN_PRBS_CTRL_INJ_PERIOD (n : Nat) : Fld := ⟨LN_PRBS_CTRL n, 16, 16⟩
/-- LN_PRBS_STATUS at 0x00400034 (R252). -/
def LN_PRBS_STATUS (n : Nat) : Reg := ⟨0x00400034 + 0x1000 * n, BitVec.ofNat 32 (0)⟩
/-- LN_PRBS_STATUS.CHK_LOCK, bits 0..0, RO. -/
def LN_PRBS_STATUS_CHK_LOCK (n : Nat) : Fld := ⟨LN_PRBS_STATUS n, 0, 1⟩
/-- LN_PRBS_STATUS.OVF, bits 1..1, RW1C. -/
def LN_PRBS_STATUS_OVF (n : Nat) : Fld := ⟨LN_PRBS_STATUS n, 1, 1⟩
/-- LN_PRBS_ERR at 0x00400038, 2 words (R252). -/
def LN_PRBS_ERR (n : Nat) : Wide := ⟨0x00400038 + 0x1000 * n, 2, 0⟩
/-- LN_USER_PAT at 0x00400040, 3 words (R252). -/
def LN_USER_PAT (n : Nat) : Wide := ⟨0x00400040 + 0x1000 * n, 3, 0⟩
/-- LN_EYE_CTRL at 0x00400050 (R252). -/
def LN_EYE_CTRL (n : Nat) : Reg := ⟨0x00400050 + 0x1000 * n, BitVec.ofNat 32 (0xA0000)⟩
/-- LN_EYE_CTRL.PHASE, bits 5..0, RW. -/
def LN_EYE_CTRL_PHASE (n : Nat) : Fld := ⟨LN_EYE_CTRL n, 0, 6⟩
/-- LN_EYE_CTRL.VOFF, bits 15..8, RW. -/
def LN_EYE_CTRL_VOFF (n : Nat) : Fld := ⟨LN_EYE_CTRL n, 8, 8⟩
/-- LN_EYE_CTRL.DWELL, bits 20..16, RW. -/
def LN_EYE_CTRL_DWELL (n : Nat) : Fld := ⟨LN_EYE_CTRL n, 16, 5⟩
/-- LN_EYE_CTRL.START, bits 31..31, RWS. -/
def LN_EYE_CTRL_START (n : Nat) : Fld := ⟨LN_EYE_CTRL n, 31, 1⟩
/-- LN_EYE_STATUS at 0x00400054 (R252). -/
def LN_EYE_STATUS (n : Nat) : Reg := ⟨0x00400054 + 0x1000 * n, BitVec.ofNat 32 (0)⟩
/-- LN_EYE_STATUS.RESULT, bits 1..0, RO. -/
def LN_EYE_STATUS_RESULT (n : Nat) : Fld := ⟨LN_EYE_STATUS n, 0, 2⟩
/-- LN_EYE_ERR at 0x00400058 (R252). -/
def LN_EYE_ERR (n : Nat) : Reg := ⟨0x00400058 + 0x1000 * n, BitVec.ofNat 32 (0)⟩
/-- LN_EYE_ERR.V, bits 31..0, RO. -/
def LN_EYE_ERR_V (n : Nat) : Fld := ⟨LN_EYE_ERR n, 0, 32⟩
/-- LN_CNT0 at 0x00400060 (R252). -/
def LN_CNT0 (n : Nat) : Reg := ⟨0x00400060 + 0x1000 * n, BitVec.ofNat 32 (0)⟩
/-- LN_CNT0.LOS, bits 15..0, RC. -/
def LN_CNT0_LOS (n : Nat) : Fld := ⟨LN_CNT0 n, 0, 16⟩
/-- LN_CNT0.TRAIN_FALLBACK, bits 31..16, RC. -/
def LN_CNT0_TRAIN_FALLBACK (n : Nat) : Fld := ⟨LN_CNT0 n, 16, 16⟩
/-- LN_CNT1 at 0x00400064 (R252). -/
def LN_CNT1 (n : Nat) : Reg := ⟨0x00400064 + 0x1000 * n, BitVec.ofNat 32 (0)⟩
/-- LN_CNT1.SYNT_FALLBACK, bits 15..0, RC. -/
def LN_CNT1_SYNT_FALLBACK (n : Nat) : Fld := ⟨LN_CNT1 n, 0, 16⟩
/-- LN_CNT1.PMA_RESETS, bits 31..16, RC. -/
def LN_CNT1_PMA_RESETS (n : Nat) : Fld := ⟨LN_CNT1 n, 16, 16⟩
/-- LN_CNT2 at 0x00400068 (R252). -/
def LN_CNT2 (n : Nat) : Reg := ⟨0x00400068 + 0x1000 * n, BitVec.ofNat 32 (0)⟩
/-- LN_CNT2.EB_INS, bits 15..0, RC. -/
def LN_CNT2_EB_INS (n : Nat) : Fld := ⟨LN_CNT2 n, 0, 16⟩
/-- LN_CNT2.EB_DEL, bits 31..16, RC. -/
def LN_CNT2_EB_DEL (n : Nat) : Fld := ⟨LN_CNT2 n, 16, 16⟩
/-- LN_CNT3 at 0x0040006C (R252). -/
def LN_CNT3 (n : Nat) : Reg := ⟨0x0040006C + 0x1000 * n, BitVec.ofNat 32 (0)⟩
/-- LN_CNT3.LINKUPS, bits 15..0, RC. -/
def LN_CNT3_LINKUPS (n : Nat) : Fld := ⟨LN_CNT3 n, 0, 16⟩
/-- LN_CNT3.EB_ERR, bits 31..16, RC. -/
def LN_CNT3_EB_ERR (n : Nat) : Fld := ⟨LN_CNT3 n, 16, 16⟩
/-- LN_QUAD_CFG at 0x00450000 (R253). -/
def LN_QUAD_CFG (q : Nat) : Reg := ⟨0x00450000 + 0x10 * q, BitVec.ofNat 32 (0x2)⟩
/-- LN_QUAD_CFG.RATE, bits 1..0, RW. -/
def LN_QUAD_CFG_RATE (q : Nat) : Fld := ⟨LN_QUAD_CFG q, 0, 2⟩
/-- LN_QUAD_CFG.PLAN, bits 6..4, RW. -/
def LN_QUAD_CFG_PLAN (q : Nat) : Fld := ⟨LN_QUAD_CFG q, 4, 3⟩
/-- LN_QUAD_STATUS at 0x00450004 (R253). -/
def LN_QUAD_STATUS (q : Nat) : Reg := ⟨0x00450004 + 0x10 * q, BitVec.ofNat 32 (0)⟩
/-- LN_QUAD_STATUS.PLL_LOCKED, bits 0..0, RO. -/
def LN_QUAD_STATUS_PLL_LOCKED (q : Nat) : Fld := ⟨LN_QUAD_STATUS q, 0, 1⟩
/-- LN_QUAD_STATUS.RELOCKING, bits 1..1, RO. -/
def LN_QUAD_STATUS_RELOCKING (q : Nat) : Fld := ⟨LN_QUAD_STATUS q, 1, 1⟩
/-- LN_QUAD_STATUS.CFG_ERR, bits 8..8, RW1C. -/
def LN_QUAD_STATUS_CFG_ERR (q : Nat) : Fld := ⟨LN_QUAD_STATUS q, 8, 1⟩
/-- LN_QUAD_STATUS.CFG_BUSY, bits 9..9, RW1C. -/
def LN_QUAD_STATUS_CFG_BUSY (q : Nat) : Fld := ⟨LN_QUAD_STATUS q, 9, 1⟩
/-- LN_QUAD_STATUS.PLL_FAIL, bits 10..10, RW1C. -/
def LN_QUAD_STATUS_PLL_FAIL (q : Nat) : Fld := ⟨LN_QUAD_STATUS q, 10, 1⟩
/-- LN_RCS_CFG at 0x00460000 (R254). -/
def LN_RCS_CFG (m : Nat) : Reg := ⟨0x00460000 + 0x4 * m, BitVec.ofNat 32 (0)⟩
/-- LN_RCS_CFG.LANE, bits 6..0, RW. -/
def LN_RCS_CFG_LANE (m : Nat) : Fld := ⟨LN_RCS_CFG m, 0, 7⟩
/-- LN_RCS_CFG.EN, bits 8..8, RW. -/
def LN_RCS_CFG_EN (m : Nat) : Fld := ⟨LN_RCS_CFG m, 8, 1⟩
/-- LN_RCS_CFG.ACTIVE, bits 16..16, RO. -/
def LN_RCS_CFG_ACTIVE (m : Nat) : Fld := ⟨LN_RCS_CFG m, 16, 1⟩
/-- LN_RCS_CFG.CFG_ERR, bits 24..24, RW1C. -/
def LN_RCS_CFG_CFG_ERR (m : Nat) : Fld := ⟨LN_RCS_CFG m, 24, 1⟩
/-- MAC_CFG at 0x00800000 (R285). -/
def MAC_CFG (p : Nat) : Reg := ⟨0x00800000 + 0x1000 * p, BitVec.ofNat 32 (0x25800100)⟩
/-- MAC_CFG.MAX_LEN, bits 29..16, RW. -/
def MAC_CFG_MAX_LEN (p : Nat) : Fld := ⟨MAC_CFG p, 16, 14⟩
/-- MAC_CFG.UDP4_MODE, bits 8..8, RW. -/
def MAC_CFG_UDP4_MODE (p : Nat) : Fld := ⟨MAC_CFG p, 8, 1⟩
/-- MAC_CFG.PROTECTED, bits 4..4, RW. -/
def MAC_CFG_PROTECTED (p : Nat) : Fld := ⟨MAC_CFG p, 4, 1⟩
/-- MAC_CFG.FEC, bits 2..1, RW. -/
def MAC_CFG_FEC (p : Nat) : Fld := ⟨MAC_CFG p, 1, 2⟩
/-- MAC_CFG.EN, bits 0..0, RW. -/
def MAC_CFG_EN (p : Nat) : Fld := ⟨MAC_CFG p, 0, 1⟩
/-- MAC_STATUS at 0x00800004 (R286). -/
def MAC_STATUS (p : Nat) : Reg := ⟨0x00800004 + 0x1000 * p, BitVec.ofNat 32 (0)⟩
/-- MAC_STATUS.TS_FINE, bits 11..11, RO. -/
def MAC_STATUS_TS_FINE (p : Nat) : Fld := ⟨MAC_STATUS p, 11, 1⟩
/-- MAC_STATUS.SPEED, bits 10..9, RO. -/
def MAC_STATUS_SPEED (p : Nat) : Fld := ⟨MAC_STATUS p, 9, 2⟩
/-- MAC_STATUS.FLUSH_BUSY, bits 7..7, RO. -/
def MAC_STATUS_FLUSH_BUSY (p : Nat) : Fld := ⟨MAC_STATUS p, 7, 1⟩
/-- MAC_STATUS.LINK, bits 6..6, RO. -/
def MAC_STATUS_LINK (p : Nat) : Fld := ⟨MAC_STATUS p, 6, 1⟩
/-- MAC_STATUS.STATE, bits 2..0, RO. -/
def MAC_STATUS_STATE (p : Nat) : Fld := ⟨MAC_STATUS p, 0, 3⟩
/-- MAC_EVENT at 0x00800008 (R287). -/
def MAC_EVENT (p : Nat) : Reg := ⟨0x00800008 + 0x1000 * p, BitVec.ofNat 32 (0)⟩
/-- MAC_EVENT.CF_SAT, bits 6..6, RW1C. -/
def MAC_EVENT_CF_SAT (p : Nat) : Fld := ⟨MAC_EVENT p, 6, 1⟩
/-- MAC_EVENT.INS_SKIP, bits 5..5, RW1C. -/
def MAC_EVENT_INS_SKIP (p : Nat) : Fld := ⟨MAC_EVENT p, 5, 1⟩
/-- MAC_EVENT.STOMP, bits 4..4, RW1C. -/
def MAC_EVENT_STOMP (p : Nat) : Fld := ⟨MAC_EVENT p, 4, 1⟩
/-- MAC_EVENT.FLUSH_DONE, bits 3..3, RW1C. -/
def MAC_EVENT_FLUSH_DONE (p : Nat) : Fld := ⟨MAC_EVENT p, 3, 1⟩
/-- MAC_EVENT.LINK_DOWN, bits 2..2, RW1C. -/
def MAC_EVENT_LINK_DOWN (p : Nat) : Fld := ⟨MAC_EVENT p, 2, 1⟩
/-- MAC_EVENT.CFG_BUSY, bits 1..1, RW1C. -/
def MAC_EVENT_CFG_BUSY (p : Nat) : Fld := ⟨MAC_EVENT p, 1, 1⟩
/-- MAC_EVENT.CFG_ERR, bits 0..0, RW1C. -/
def MAC_EVENT_CFG_ERR (p : Nat) : Fld := ⟨MAC_EVENT p, 0, 1⟩
/-- MAC_HOLD at 0x0080000C (R288). -/
def MAC_HOLD (p : Nat) : Reg := ⟨0x0080000C + 0x1000 * p, BitVec.ofNat 32 (0x0064000A)⟩
/-- MAC_HOLD.DOWN_HOLD, bits 9..0, RW. -/
def MAC_HOLD_DOWN_HOLD (p : Nat) : Fld := ⟨MAC_HOLD p, 0, 10⟩
/-- MAC_HOLD.UP_HOLD, bits 25..16, RW. -/
def MAC_HOLD_UP_HOLD (p : Nat) : Fld := ⟨MAC_HOLD p, 16, 10⟩
/-- MAC_TS_RX_LAT at 0x00800010, 2 words (R288). -/
def MAC_TS_RX_LAT (p : Nat) : Wide := ⟨0x00800010 + 0x1000 * p, 2, 0⟩
/-- MAC_TS_TX_LAT at 0x00800018, 2 words (R288). -/
def MAC_TS_TX_LAT (p : Nat) : Wide := ⟨0x00800018 + 0x1000 * p, 2, 0⟩
/-- MAC_CNT0 at 0x00800020 (R288). -/
def MAC_CNT0 (p : Nat) : Reg := ⟨0x00800020 + 0x1000 * p, BitVec.ofNat 32 (0)⟩
/-- MAC_CNT0.STOMP, bits 15..0, RC. -/
def MAC_CNT0_STOMP (p : Nat) : Fld := ⟨MAC_CNT0 p, 0, 16⟩
/-- MAC_CNT0.INS_SKIP, bits 31..16, RC. -/
def MAC_CNT0_INS_SKIP (p : Nat) : Fld := ⟨MAC_CNT0 p, 16, 16⟩
/-- MAC_CNT1 at 0x00800024 (R288). -/
def MAC_CNT1 (p : Nat) : Reg := ⟨0x00800024 + 0x1000 * p, BitVec.ofNat 32 (0)⟩
/-- MAC_CNT1.DROPPED, bits 31..0, RC. -/
def MAC_CNT1_DROPPED (p : Nat) : Fld := ⟨MAC_CNT1 p, 0, 32⟩
/-- MAC_CNT2 at 0x00800028 (R288). -/
def MAC_CNT2 (p : Nat) : Reg := ⟨0x00800028 + 0x1000 * p, BitVec.ofNat 32 (0)⟩
/-- MAC_CNT2.LB_DROP, bits 15..0, RC. -/
def MAC_CNT2_LB_DROP (p : Nat) : Fld := ⟨MAC_CNT2 p, 0, 16⟩
/-- MAC_CNT2.CF_SAT, bits 31..16, RC. -/
def MAC_CNT2_CF_SAT (p : Nat) : Fld := ⟨MAC_CNT2 p, 16, 16⟩
/-- MAC_CNT3 at 0x0080002C (R288). -/
def MAC_CNT3 (p : Nat) : Reg := ⟨0x0080002C + 0x1000 * p, BitVec.ofNat 32 (0)⟩
/-- MAC_CNT3.GATE_RX_LOST, bits 15..0, RC. -/
def MAC_CNT3_GATE_RX_LOST (p : Nat) : Fld := ⟨MAC_CNT3 p, 0, 16⟩
/-- MAC_C30 at 0x00800100, 2 words (R669). -/
def MAC_C30 (p : Nat) (k : Nat) : Wide := ⟨0x00800100 + 0x1000 * p + 0x8 * k, 2, 0⟩
/-- PHA_EVENT at 0x00C00000 (R317). -/
def PHA_EVENT : Reg := ⟨0x00C00000, BitVec.ofNat 32 (0)⟩
/-- PHA_EVENT.SELF_ERR, bits 4..4, RW1C. -/
def PHA_EVENT_SELF_ERR : Fld := ⟨PHA_EVENT, 4, 1⟩
/-- PHA_EVENT.GLITCH, bits 3..3, RW1C. -/
def PHA_EVENT_GLITCH : Fld := ⟨PHA_EVENT, 3, 1⟩
/-- PHA_EVENT.RANGE, bits 2..2, RW1C. -/
def PHA_EVENT_RANGE : Fld := ⟨PHA_EVENT, 2, 1⟩
/-- PHA_EVENT.CFG_BUSY, bits 1..1, RW1C. -/
def PHA_EVENT_CFG_BUSY : Fld := ⟨PHA_EVENT, 1, 1⟩
/-- PHA_EVENT.CFG_ERR, bits 0..0, RW1C. -/
def PHA_EVENT_CFG_ERR : Fld := ⟨PHA_EVENT, 0, 1⟩
/-- PHA_CH_VALID at 0x00C00010, 3 words (R318). -/
def PHA_CH_VALID : Wide := ⟨0x00C00010, 3, 0⟩
/-- PHA_CH_CFG at 0x00C00100 (R319). -/
def PHA_CH_CFG (c : Nat) : Reg := ⟨0x00C00100 + 0x10 * c, BitVec.ofNat 32 (0x100)⟩
/-- PHA_CH_CFG.TAP, bits 19..16, RW. -/
def PHA_CH_CFG_TAP (c : Nat) : Fld := ⟨PHA_CH_CFG c, 16, 4⟩
/-- PHA_CH_CFG.PRESCALE, bits 15..8, RW. -/
def PHA_CH_CFG_PRESCALE (c : Nat) : Fld := ⟨PHA_CH_CFG c, 8, 8⟩
/-- PHA_CH_CFG.BASE, bits 6..4, RW. -/
def PHA_CH_CFG_BASE (c : Nat) : Fld := ⟨PHA_CH_CFG c, 4, 3⟩
/-- PHA_CH_CFG.EN, bits 0..0, RW. -/
def PHA_CH_CFG_EN (c : Nat) : Fld := ⟨PHA_CH_CFG c, 0, 1⟩
/-- PHA_CH_DG at 0x00C00104 (R320). -/
def PHA_CH_DG (c : Nat) : Reg := ⟨0x00C00104 + 0x10 * c, BitVec.ofNat 32 (0x100)⟩
/-- PHA_CH_DG.THRESH, bits 11..0, RW. -/
def PHA_CH_DG_THRESH (c : Nat) : Fld := ⟨PHA_CH_DG c, 0, 12⟩
/-- PHA_CH_SAMPLE at 0x00C00108 (R320). -/
def PHA_CH_SAMPLE (c : Nat) : Reg := ⟨0x00C00108 + 0x10 * c, BitVec.ofNat 32 (0)⟩
/-- PHA_CH_SAMPLE.RAW, bits 13..0, RO. -/
def PHA_CH_SAMPLE_RAW (c : Nat) : Fld := ⟨PHA_CH_SAMPLE c, 0, 14⟩
/-- PHA_CH_SAMPLE.VALID, bits 16..16, RO. -/
def PHA_CH_SAMPLE_VALID (c : Nat) : Fld := ⟨PHA_CH_SAMPLE c, 16, 1⟩
/-- PHA_CH_SAMPLE.RANGE, bits 17..17, RO. -/
def PHA_CH_SAMPLE_RANGE (c : Nat) : Fld := ⟨PHA_CH_SAMPLE c, 17, 1⟩
/-- PHA_CH_SAMPLE.GLITCH, bits 18..18, RO. -/
def PHA_CH_SAMPLE_GLITCH (c : Nat) : Fld := ⟨PHA_CH_SAMPLE c, 18, 1⟩
/-- PHA_CH_SAMPLE.NO_CLK, bits 19..19, RO. -/
def PHA_CH_SAMPLE_NO_CLK (c : Nat) : Fld := ⟨PHA_CH_SAMPLE c, 19, 1⟩
/-- PHA_CH_SAMPLE.SEQ, bits 31..24, RO. -/
def PHA_CH_SAMPLE_SEQ (c : Nat) : Fld := ⟨PHA_CH_SAMPLE c, 24, 8⟩
/-- PHA_CH_UNWRAP at 0x00C0010C (R320). -/
def PHA_CH_UNWRAP (c : Nat) : Reg := ⟨0x00C0010C + 0x10 * c, BitVec.ofNat 32 (0)⟩
/-- PHA_CH_UNWRAP.V, bits 31..0, RO. -/
def PHA_CH_UNWRAP_V (c : Nat) : Fld := ⟨PHA_CH_UNWRAP c, 0, 32⟩
/-- PHA_TXPH at 0x00C00800 (R321). -/
def PHA_TXPH (q : Nat) : Reg := ⟨0x00C00800 + 0x4 * q, BitVec.ofNat 32 (0)⟩
/-- PHA_TXPH.PHASE, bits 15..0, RO. -/
def PHA_TXPH_PHASE (q : Nat) : Fld := ⟨PHA_TXPH q, 0, 16⟩
/-- PHA_TXPH.VALID, bits 31..31, RO. -/
def PHA_TXPH_VALID (q : Nat) : Fld := ⟨PHA_TXPH q, 31, 1⟩
/-- PHA_PORT_TRIM_RX at 0x00C01000 (R322). -/
def PHA_PORT_TRIM_RX (p : Nat) : Reg := ⟨0x00C01000 + 0x10 * p, BitVec.ofNat 32 (0)⟩
/-- PHA_PORT_TRIM_RX.V, bits 31..0, RW. -/
def PHA_PORT_TRIM_RX_V (p : Nat) : Fld := ⟨PHA_PORT_TRIM_RX p, 0, 32⟩
/-- PHA_PORT_TRIM_TX at 0x00C01004 (R322). -/
def PHA_PORT_TRIM_TX (p : Nat) : Reg := ⟨0x00C01004 + 0x10 * p, BitVec.ofNat 32 (0)⟩
/-- PHA_PORT_TRIM_TX.V, bits 31..0, RW. -/
def PHA_PORT_TRIM_TX_V (p : Nat) : Fld := ⟨PHA_PORT_TRIM_TX p, 0, 32⟩
/-- PHA_PORT_ASYM at 0x00C01008 (R322). -/
def PHA_PORT_ASYM (p : Nat) : Reg := ⟨0x00C01008 + 0x10 * p, BitVec.ofNat 32 (0)⟩
/-- PHA_PORT_ASYM.V, bits 31..0, RW. -/
def PHA_PORT_ASYM_V (p : Nat) : Fld := ⟨PHA_PORT_ASYM p, 0, 32⟩
/-- PHA_PORT_STATUS at 0x00C0100C (R322). -/
def PHA_PORT_STATUS (p : Nat) : Reg := ⟨0x00C0100C + 0x10 * p, BitVec.ofNat 32 (0)⟩
/-- PHA_PORT_STATUS.TRIM_GEN, bits 7..0, RO. -/
def PHA_PORT_STATUS_TRIM_GEN (p : Nat) : Fld := ⟨PHA_PORT_STATUS p, 0, 8⟩
/-- PHA_PORT_STATUS.FINE_RX, bits 8..8, RO. -/
def PHA_PORT_STATUS_FINE_RX (p : Nat) : Fld := ⟨PHA_PORT_STATUS p, 8, 1⟩
/-- PHA_PORT_STATUS.FINE_TX, bits 9..9, RO. -/
def PHA_PORT_STATUS_FINE_TX (p : Nat) : Fld := ⟨PHA_PORT_STATUS p, 9, 1⟩
/-- FM_CTRL at 0x00D00000 (R360). -/
def FM_CTRL : Reg := ⟨0x00D00000, BitVec.ofNat 32 (0)⟩
/-- FM_CTRL.RESET, bits 1..1, RWS. -/
def FM_CTRL_RESET : Fld := ⟨FM_CTRL, 1, 1⟩
/-- FM_CTRL.EN, bits 0..0, RW. -/
def FM_CTRL_EN : Fld := ⟨FM_CTRL, 0, 1⟩
/-- FM_STATUS at 0x00D00004 (R361). -/
def FM_STATUS : Reg := ⟨0x00D00004, BitVec.ofNat 32 (0)⟩
/-- FM_STATUS.QMAX, bits 23..16, RC. -/
def FM_STATUS_QMAX : Fld := ⟨FM_STATUS, 16, 8⟩
/-- FM_STATUS.BLK_RESETS, bits 5..4, RO. -/
def FM_STATUS_BLK_RESETS : Fld := ⟨FM_STATUS, 4, 2⟩
/-- FM_STATUS.RESETTING, bits 1..1, RO. -/
def FM_STATUS_RESETTING : Fld := ⟨FM_STATUS, 1, 1⟩
/-- FM_STATUS.RUNNING, bits 0..0, RO. -/
def FM_STATUS_RUNNING : Fld := ⟨FM_STATUS, 0, 1⟩
/-- FM_EVENT at 0x00D00008 (R362). -/
def FM_EVENT : Reg := ⟨0x00D00008, BitVec.ofNat 32 (0)⟩
/-- FM_EVENT.SESS_SUSPEND, bits 9..9, RW1C. -/
def FM_EVENT_SESS_SUSPEND : Fld := ⟨FM_EVENT, 9, 1⟩
/-- FM_EVENT.SESS_RESET, bits 8..8, RW1C. -/
def FM_EVENT_SESS_RESET : Fld := ⟨FM_EVENT, 8, 1⟩
/-- FM_EVENT.BLOCK_RESET, bits 7..7, RW1C. -/
def FM_EVENT_BLOCK_RESET : Fld := ⟨FM_EVENT, 7, 1⟩
/-- FM_EVENT.NEG_DELAY, bits 6..6, RW1C. -/
def FM_EVENT_NEG_DELAY : Fld := ⟨FM_EVENT, 6, 1⟩
/-- FM_EVENT.JUMP, bits 5..5, RW1C. -/
def FM_EVENT_JUMP : Fld := ⟨FM_EVENT, 5, 1⟩
/-- FM_EVENT.PARENT, bits 4..4, RW1C. -/
def FM_EVENT_PARENT : Fld := ⟨FM_EVENT, 4, 1⟩
/-- FM_EVENT.POOL_EMPTY, bits 3..3, RW1C. -/
def FM_EVENT_POOL_EMPTY : Fld := ⟨FM_EVENT, 3, 1⟩
/-- FM_EVENT.OVERLOAD, bits 2..2, RW1C. -/
def FM_EVENT_OVERLOAD : Fld := ⟨FM_EVENT, 2, 1⟩
/-- FM_EVENT.CFG_BUSY, bits 1..1, RW1C. -/
def FM_EVENT_CFG_BUSY : Fld := ⟨FM_EVENT, 1, 1⟩
/-- FM_EVENT.CFG_ERR, bits 0..0, RW1C. -/
def FM_EVENT_CFG_ERR : Fld := ⟨FM_EVENT, 0, 1⟩
/-- FM_JUMP_THRESH at 0x00D0000C (R363). -/
def FM_JUMP_THRESH : Reg := ⟨0x00D0000C, BitVec.ofNat 32 (0x64)⟩
/-- FM_JUMP_THRESH.V, bits 23..0, RW. -/
def FM_JUMP_THRESH_V : Fld := ⟨FM_JUMP_THRESH, 0, 24⟩
/-- FM_CONFIRM at 0x00D00010 (R363). -/
def FM_CONFIRM : Reg := ⟨0x00D00010, BitVec.ofNat 32 (4)⟩
/-- FM_CONFIRM.V, bits 3..0, RW. -/
def FM_CONFIRM_V : Fld := ⟨FM_CONFIRM, 0, 4⟩
/-- FM_CNT0 at 0x00D00020 (R363). -/
def FM_CNT0 : Reg := ⟨0x00D00020, BitVec.ofNat 32 (0)⟩
/-- FM_CNT0.RX_OVERLOAD, bits 15..0, RC. -/
def FM_CNT0_RX_OVERLOAD : Fld := ⟨FM_CNT0, 0, 16⟩
/-- FM_CNT0.POOL_EMPTY, bits 31..16, RC. -/
def FM_CNT0_POOL_EMPTY : Fld := ⟨FM_CNT0, 16, 16⟩
/-- FM_CNT1 at 0x00D00024 (R363). -/
def FM_CNT1 : Reg := ⟨0x00D00024, BitVec.ofNat 32 (0)⟩
/-- FM_CNT1.NO_SESSION, bits 15..0, RC. -/
def FM_CNT1_NO_SESSION : Fld := ⟨FM_CNT1, 0, 16⟩
/-- FM_CNT1.UNSUPPORTED, bits 31..16, RC. -/
def FM_CNT1_UNSUPPORTED : Fld := ⟨FM_CNT1, 16, 16⟩
/-- FM_DOM_CFG at 0x00D01000 (R364). -/
def FM_DOM_CFG (d : Nat) : Reg := ⟨0x00D01000 + 0x100 * d, BitVec.ofNat 32 (0x10)⟩
/-- FM_DOM_CFG.DOMAIN_NUMBER, bits 31..24, RW. -/
def FM_DOM_CFG_DOMAIN_NUMBER (d : Nat) : Fld := ⟨FM_DOM_CFG d, 24, 8⟩
/-- FM_DOM_CFG.PROFILE, bits 17..16, RW. -/
def FM_DOM_CFG_PROFILE (d : Nat) : Fld := ⟨FM_DOM_CFG d, 16, 2⟩
/-- FM_DOM_CFG.ROLE, bits 13..12, RW. -/
def FM_DOM_CFG_ROLE (d : Nat) : Fld := ⟨FM_DOM_CFG d, 12, 2⟩
/-- FM_DOM_CFG.SLAVE_ONLY, bits 8..8, RW. -/
def FM_DOM_CFG_SLAVE_ONLY (d : Nat) : Fld := ⟨FM_DOM_CFG d, 8, 1⟩
/-- FM_DOM_CFG.AUTO_CLASS, bits 4..4, RW. -/
def FM_DOM_CFG_AUTO_CLASS (d : Nat) : Fld := ⟨FM_DOM_CFG d, 4, 1⟩
/-- FM_DOM_CFG.EN, bits 0..0, RW. -/
def FM_DOM_CFG_EN (d : Nat) : Fld := ⟨FM_DOM_CFG d, 0, 1⟩
/-- FM_DOM_ID at 0x00D01004, 2 words (R365). -/
def FM_DOM_ID (d : Nat) : Wide := ⟨0x00D01004 + 0x100 * d, 2, 0⟩
/-- FM_DOM_DS at 0x00D0100C (R365). -/
def FM_DOM_DS (d : Nat) : Reg := ⟨0x00D0100C + 0x100 * d, BitVec.ofNat 32 (0xA0FE8080)⟩
/-- FM_DOM_DS.PRIORITY1, bits 7..0, RW. -/
def FM_DOM_DS_PRIORITY1 (d : Nat) : Fld := ⟨FM_DOM_DS d, 0, 8⟩
/-- FM_DOM_DS.PRIORITY2, bits 15..8, RW. -/
def FM_DOM_DS_PRIORITY2 (d : Nat) : Fld := ⟨FM_DOM_DS d, 8, 8⟩
/-- FM_DOM_DS.CLOCK_ACCURACY, bits 23..16, RW. -/
def FM_DOM_DS_CLOCK_ACCURACY (d : Nat) : Fld := ⟨FM_DOM_DS d, 16, 8⟩
/-- FM_DOM_DS.TIME_SOURCE, bits 31..24, RW. -/
def FM_DOM_DS_TIME_SOURCE (d : Nat) : Fld := ⟨FM_DOM_DS d, 24, 8⟩
/-- FM_DOM_QUAL at 0x00D01010 (R365). -/
def FM_DOM_QUAL (d : Nat) : Reg := ⟨0x00D01010 + 0x100 * d, BitVec.ofNat 32 (0xF80706)⟩
/-- FM_DOM_QUAL.CLASS_FINE, bits 7..0, RW. -/
def FM_DOM_QUAL_CLASS_FINE (d : Nat) : Fld := ⟨FM_DOM_QUAL d, 0, 8⟩
/-- FM_DOM_QUAL.CLASS_HOLD, bits 15..8, RW. -/
def FM_DOM_QUAL_CLASS_HOLD (d : Nat) : Fld := ⟨FM_DOM_QUAL d, 8, 8⟩
/-- FM_DOM_QUAL.CLASS_COARSE, bits 23..16, RW. -/
def FM_DOM_QUAL_CLASS_COARSE (d : Nat) : Fld := ⟨FM_DOM_QUAL d, 16, 8⟩
/-- FM_DOM_DS2 at 0x00D01014 (R365). -/
def FM_DOM_DS2 (d : Nat) : Reg := ⟨0x00D01014 + 0x100 * d, BitVec.ofNat 32 (0x80FFFF)⟩
/-- FM_DOM_DS2.VARIANCE, bits 15..0, RW. -/
def FM_DOM_DS2_VARIANCE (d : Nat) : Fld := ⟨FM_DOM_DS2 d, 0, 16⟩
/-- FM_DOM_DS2.LOCAL_PRIO, bits 23..16, RW. -/
def FM_DOM_DS2_LOCAL_PRIO (d : Nat) : Fld := ⟨FM_DOM_DS2 d, 16, 8⟩
/-- FM_DOM_ANN at 0x00D01018 (R365). -/
def FM_DOM_ANN (d : Nat) : Reg := ⟨0x00D01018 + 0x100 * d, BitVec.ofNat 32 (0x030301)⟩
/-- FM_DOM_ANN.LOG_ANN, bits 3..0, RW. -/
def FM_DOM_ANN_LOG_ANN (d : Nat) : Fld := ⟨FM_DOM_ANN d, 0, 4⟩
/-- FM_DOM_ANN.ANN_TIMEOUT, bits 15..8, RW. -/
def FM_DOM_ANN_ANN_TIMEOUT (d : Nat) : Fld := ⟨FM_DOM_ANN d, 8, 8⟩
/-- FM_DOM_ANN.SYNC_TIMEOUT, bits 23..16, RW. -/
def FM_DOM_ANN_SYNC_TIMEOUT (d : Nat) : Fld := ⟨FM_DOM_ANN d, 16, 8⟩
/-- FM_DOM_SERVO at 0x00D0101C (R365). -/
def FM_DOM_SERVO (d : Nat) : Reg := ⟨0x00D0101C + 0x100 * d, BitVec.ofNat 32 (0x40001000)⟩
/-- FM_DOM_SERVO.KP, bits 15..0, RW. -/
def FM_DOM_SERVO_KP (d : Nat) : Fld := ⟨FM_DOM_SERVO d, 0, 16⟩
/-- FM_DOM_SERVO.KI, bits 31..16, RW. -/
def FM_DOM_SERVO_KI (d : Nat) : Fld := ⟨FM_DOM_SERVO d, 16, 16⟩
/-- FM_DOM_DLY at 0x00D01020 (R365). -/
def FM_DOM_DLY (d : Nat) : Reg := ⟨0x00D01020 + 0x100 * d, BitVec.ofNat 32 (0xA04)⟩
/-- FM_DOM_DLY.FILT, bits 3..0, RW. -/
def FM_DOM_DLY_FILT (d : Nat) : Fld := ⟨FM_DOM_DLY d, 0, 4⟩
/-- FM_DOM_DLY.NEG_LIMIT, bits 15..8, RW. -/
def FM_DOM_DLY_NEG_LIMIT (d : Nat) : Fld := ⟨FM_DOM_DLY d, 8, 8⟩
/-- FM_DOM_STATUS at 0x00D01030 (R365). -/
def FM_DOM_STATUS (d : Nat) : Reg := ⟨0x00D01030 + 0x100 * d, BitVec.ofNat 32 (0)⟩
/-- FM_DOM_STATUS.SYNCED, bits 0..0, RO. -/
def FM_DOM_STATUS_SYNCED (d : Nat) : Fld := ⟨FM_DOM_STATUS d, 0, 1⟩
/-- FM_DOM_STATUS.WAS_SYNCED, bits 1..1, RO. -/
def FM_DOM_STATUS_WAS_SYNCED (d : Nat) : Fld := ⟨FM_DOM_STATUS d, 1, 1⟩
/-- FM_DOM_STATUS.TREF_VALID, bits 2..2, RO. -/
def FM_DOM_STATUS_TREF_VALID (d : Nat) : Fld := ⟨FM_DOM_STATUS d, 2, 1⟩
/-- FM_DOM_STATUS.GM, bits 3..3, RO. -/
def FM_DOM_STATUS_GM (d : Nat) : Fld := ⟨FM_DOM_STATUS d, 3, 1⟩
/-- FM_DOM_STATUS.STEPS_REMOVED, bits 15..8, RO. -/
def FM_DOM_STATUS_STEPS_REMOVED (d : Nat) : Fld := ⟨FM_DOM_STATUS d, 8, 8⟩
/-- FM_DOM_STATUS.SLAVE_SESS, bits 24..16, RO. -/
def FM_DOM_STATUS_SLAVE_SESS (d : Nat) : Fld := ⟨FM_DOM_STATUS d, 16, 9⟩
/-- FM_DOM_STATUS.SLAVE_VALID, bits 25..25, RO. -/
def FM_DOM_STATUS_SLAVE_VALID (d : Nat) : Fld := ⟨FM_DOM_STATUS d, 25, 1⟩
/-- FM_DOM_PARENT at 0x00D01034, 2 words (R365). -/
def FM_DOM_PARENT (d : Nat) : Wide := ⟨0x00D01034 + 0x100 * d, 2, 0⟩
/-- FM_DOM_PARENT_PORT at 0x00D0103C (R365). -/
def FM_DOM_PARENT_PORT (d : Nat) : Reg := ⟨0x00D0103C + 0x100 * d, BitVec.ofNat 32 (0xFF0000)⟩
/-- FM_DOM_PARENT_PORT.PORT, bits 15..0, RO. -/
def FM_DOM_PARENT_PORT_PORT (d : Nat) : Fld := ⟨FM_DOM_PARENT_PORT d, 0, 16⟩
/-- FM_DOM_PARENT_PORT.GM_CLASS, bits 23..16, RO. -/
def FM_DOM_PARENT_PORT_GM_CLASS (d : Nat) : Fld := ⟨FM_DOM_PARENT_PORT d, 16, 8⟩
/-- FM_DOM_GM at 0x00D01040, 2 words (R365). -/
def FM_DOM_GM (d : Nat) : Wide := ⟨0x00D01040 + 0x100 * d, 2, 0⟩
/-- FM_DOM_OFFSET at 0x00D01048, 2 words (R365). -/
def FM_DOM_OFFSET (d : Nat) : Wide := ⟨0x00D01048 + 0x100 * d, 2, 0⟩
/-- FM_DOM_LAST at 0x00D01050, 2 words (R365). -/
def FM_DOM_LAST (d : Nat) : Wide := ⟨0x00D01050 + 0x100 * d, 2, 0⟩
/-- FM_DOM_INTEG at 0x00D01058 (R365). -/
def FM_DOM_INTEG (d : Nat) : Reg := ⟨0x00D01058 + 0x100 * d, BitVec.ofNat 32 (0)⟩
/-- FM_DOM_INTEG.V, bits 31..0, RO. -/
def FM_DOM_INTEG_V (d : Nat) : Fld := ⟨FM_DOM_INTEG d, 0, 32⟩
/-- FM_PORT_MAC at 0x00D02000, 2 words (R369). -/
def FM_PORT_MAC (p : Nat) : Wide := ⟨0x00D02000 + 0x20 * p, 2, 0⟩
/-- FM_PORT_IP4 at 0x00D02008 (R369). -/
def FM_PORT_IP4 (p : Nat) : Reg := ⟨0x00D02008 + 0x20 * p, BitVec.ofNat 32 (0)⟩
/-- FM_PORT_IP4.V, bits 31..0, RW. -/
def FM_PORT_IP4_V (p : Nat) : Fld := ⟨FM_PORT_IP4 p, 0, 32⟩
/-- FM_PORT_IP6 at 0x00D0200C, 4 words (R369). -/
def FM_PORT_IP6 (p : Nat) : Wide := ⟨0x00D0200C + 0x20 * p, 4, 0⟩
/-- FM_SESS_CFG at 0x00D10000 (R366). -/
def FM_SESS_CFG (s : Nat) : Reg := ⟨0x00D10000 + 0x40 * s, BitVec.ofNat 32 (0x80040040)⟩
/-- FM_SESS_CFG.LOCAL_PRIO, bits 31..24, RW. -/
def FM_SESS_CFG_LOCAL_PRIO (s : Nat) : Fld := ⟨FM_SESS_CFG s, 24, 8⟩
/-- FM_SESS_CFG.L1SYNC_EN, bits 18..18, RW. -/
def FM_SESS_CFG_L1SYNC_EN (s : Nat) : Fld := ⟨FM_SESS_CFG s, 18, 1⟩
/-- FM_SESS_CFG.NOT_SLAVE, bits 17..17, RW. -/
def FM_SESS_CFG_NOT_SLAVE (s : Nat) : Fld := ⟨FM_SESS_CFG s, 17, 1⟩
/-- FM_SESS_CFG.MASTER_ONLY, bits 16..16, RW. -/
def FM_SESS_CFG_MASTER_ONLY (s : Nat) : Fld := ⟨FM_SESS_CFG s, 16, 1⟩
/-- FM_SESS_CFG.MEASURE, bits 15..15, RW. -/
def FM_SESS_CFG_MEASURE (s : Nat) : Fld := ⟨FM_SESS_CFG s, 15, 1⟩
/-- FM_SESS_CFG.PORT, bits 14..8, RW. -/
def FM_SESS_CFG_PORT (s : Nat) : Fld := ⟨FM_SESS_CFG s, 8, 7⟩
/-- FM_SESS_CFG.DA_SEL, bits 7..7, RW. -/
def FM_SESS_CFG_DA_SEL (s : Nat) : Fld := ⟨FM_SESS_CFG s, 7, 1⟩
/-- FM_SESS_CFG.STEP, bits 6..6, RW. -/
def FM_SESS_CFG_STEP (s : Nat) : Fld := ⟨FM_SESS_CFG s, 6, 1⟩
/-- FM_SESS_CFG.DELAY, bits 5..5, RW. -/
def FM_SESS_CFG_DELAY (s : Nat) : Fld := ⟨FM_SESS_CFG s, 5, 1⟩
/-- FM_SESS_CFG.TRANSPORT, bits 4..3, RW. -/
def FM_SESS_CFG_TRANSPORT (s : Nat) : Fld := ⟨FM_SESS_CFG s, 3, 2⟩
/-- FM_SESS_CFG.DOMAIN, bits 2..1, RW. -/
def FM_SESS_CFG_DOMAIN (s : Nat) : Fld := ⟨FM_SESS_CFG s, 1, 2⟩
/-- FM_SESS_CFG.EN, bits 0..0, RW. -/
def FM_SESS_CFG_EN (s : Nat) : Fld := ⟨FM_SESS_CFG s, 0, 1⟩
/-- FM_SESS_INTV at 0x00D10004 (R368). -/
def FM_SESS_INTV (s : Nat) : Reg := ⟨0x00D10004 + 0x40 * s, BitVec.ofNat 32 (0xC0C)⟩
/-- FM_SESS_INTV.LOG_SYNC, bits 3..0, RW. -/
def FM_SESS_INTV_LOG_SYNC (s : Nat) : Fld := ⟨FM_SESS_INTV s, 0, 4⟩
/-- FM_SESS_INTV.LOG_DREQ, bits 11..8, RW. -/
def FM_SESS_INTV_LOG_DREQ (s : Nat) : Fld := ⟨FM_SESS_INTV s, 8, 4⟩
/-- FM_SESS_INTV.LOG_PDREQ, bits 19..16, RW. -/
def FM_SESS_INTV_LOG_PDREQ (s : Nat) : Fld := ⟨FM_SESS_INTV s, 16, 4⟩
/-- FM_SESS_INTV.LOG_L1SYNC, bits 27..24, RW. -/
def FM_SESS_INTV_LOG_L1SYNC (s : Nat) : Fld := ⟨FM_SESS_INTV s, 24, 4⟩
/-- FM_SESS_VLAN at 0x00D10008 (R368). -/
def FM_SESS_VLAN (s : Nat) : Reg := ⟨0x00D10008 + 0x40 * s, BitVec.ofNat 32 (0x30001)⟩
/-- FM_SESS_VLAN.VID, bits 11..0, RW. -/
def FM_SESS_VLAN_VID (s : Nat) : Fld := ⟨FM_SESS_VLAN s, 0, 12⟩
/-- FM_SESS_VLAN.PCP, bits 14..12, RW. -/
def FM_SESS_VLAN_PCP (s : Nat) : Fld := ⟨FM_SESS_VLAN s, 12, 3⟩
/-- FM_SESS_VLAN.TAGGED, bits 15..15, RW. -/
def FM_SESS_VLAN_TAGGED (s : Nat) : Fld := ⟨FM_SESS_VLAN s, 15, 1⟩
/-- FM_SESS_VLAN.LOST_RESP, bits 23..16, RW. -/
def FM_SESS_VLAN_LOST_RESP (s : Nat) : Fld := ⟨FM_SESS_VLAN s, 16, 8⟩
/-- FM_SESS_STATUS at 0x00D1000C (R367). -/
def FM_SESS_STATUS (s : Nat) : Reg := ⟨0x00D1000C + 0x40 * s, BitVec.ofNat 32 (3)⟩
/-- FM_SESS_STATUS.RESETS_10S, bits 19..16, RO. -/
def FM_SESS_STATUS_RESETS_10S (s : Nat) : Fld := ⟨FM_SESS_STATUS s, 16, 4⟩
/-- FM_SESS_STATUS.REFUSED, bits 15..12, RO. -/
def FM_SESS_STATUS_REFUSED (s : Nat) : Fld := ⟨FM_SESS_STATUS s, 12, 4⟩
/-- FM_SESS_STATUS.L1SYNC, bits 10..8, RO. -/
def FM_SESS_STATUS_L1SYNC (s : Nat) : Fld := ⟨FM_SESS_STATUS s, 8, 3⟩
/-- FM_SESS_STATUS.RECEIVING, bits 7..7, RO. -/
def FM_SESS_STATUS_RECEIVING (s : Nat) : Fld := ⟨FM_SESS_STATUS s, 7, 1⟩
/-- FM_SESS_STATUS.SUSPENDED, bits 6..6, RO. -/
def FM_SESS_STATUS_SUSPENDED (s : Nat) : Fld := ⟨FM_SESS_STATUS s, 6, 1⟩
/-- FM_SESS_STATUS.NO_DELAY, bits 5..5, RO. -/
def FM_SESS_STATUS_NO_DELAY (s : Nat) : Fld := ⟨FM_SESS_STATUS s, 5, 1⟩
/-- FM_SESS_STATUS.DEGRADED, bits 4..4, RO. -/
def FM_SESS_STATUS_DEGRADED (s : Nat) : Fld := ⟨FM_SESS_STATUS s, 4, 1⟩
/-- FM_SESS_STATUS.STATE, bits 3..0, RO. -/
def FM_SESS_STATUS_STATE (s : Nat) : Fld := ⟨FM_SESS_STATUS s, 0, 4⟩
/-- FM_SESS_OFFSET at 0x00D10010, 2 words (R368). -/
def FM_SESS_OFFSET (s : Nat) : Wide := ⟨0x00D10010 + 0x40 * s, 2, 0⟩
/-- FM_SESS_DELAY at 0x00D10018, 2 words (R368). -/
def FM_SESS_DELAY (s : Nat) : Wide := ⟨0x00D10018 + 0x40 * s, 2, 0⟩
/-- FM_SESS_NRR at 0x00D10020 (R368). -/
def FM_SESS_NRR (s : Nat) : Reg := ⟨0x00D10020 + 0x40 * s, BitVec.ofNat 32 (0)⟩
/-- FM_SESS_NRR.V, bits 31..0, RO. -/
def FM_SESS_NRR_V (s : Nat) : Fld := ⟨FM_SESS_NRR s, 0, 32⟩
/-- FM_SESS_CNT0 at 0x00D10028 (R368). -/
def FM_SESS_CNT0 (s : Nat) : Reg := ⟨0x00D10028 + 0x40 * s, BitVec.ofNat 32 (0)⟩
/-- FM_SESS_CNT0.RX, bits 15..0, RC. -/
def FM_SESS_CNT0_RX (s : Nat) : Fld := ⟨FM_SESS_CNT0 s, 0, 16⟩
/-- FM_SESS_CNT0.TX, bits 31..16, RC. -/
def FM_SESS_CNT0_TX (s : Nat) : Fld := ⟨FM_SESS_CNT0 s, 16, 16⟩
/-- FM_SESS_CNT1 at 0x00D1002C (R368). -/
def FM_SESS_CNT1 (s : Nat) : Reg := ⟨0x00D1002C + 0x40 * s, BitVec.ofNat 32 (0)⟩
/-- FM_SESS_CNT1.OUTLIER, bits 15..0, RC. -/
def FM_SESS_CNT1_OUTLIER (s : Nat) : Fld := ⟨FM_SESS_CNT1 s, 0, 16⟩
/-- FM_SESS_CNT1.LOST_RESP, bits 31..16, RC. -/
def FM_SESS_CNT1_LOST_RESP (s : Nat) : Fld := ⟨FM_SESS_CNT1 s, 16, 16⟩
/-- FM_SESS_CNT2 at 0x00D10030 (R368). -/
def FM_SESS_CNT2 (s : Nat) : Reg := ⟨0x00D10030 + 0x40 * s, BitVec.ofNat 32 (0)⟩
/-- FM_SESS_CNT2.ANN_TO, bits 15..0, RC. -/
def FM_SESS_CNT2_ANN_TO (s : Nat) : Fld := ⟨FM_SESS_CNT2 s, 0, 16⟩
/-- FM_SESS_CNT2.SYNC_TO, bits 31..16, RC. -/
def FM_SESS_CNT2_SYNC_TO (s : Nat) : Fld := ⟨FM_SESS_CNT2 s, 16, 16⟩
/-- FM_SESS_CNT3 at 0x00D10034 (R368). -/
def FM_SESS_CNT3 (s : Nat) : Reg := ⟨0x00D10034 + 0x40 * s, BitVec.ofNat 32 (0)⟩
/-- FM_SESS_CNT3.DISCARD, bits 15..0, RC. -/
def FM_SESS_CNT3_DISCARD (s : Nat) : Fld := ⟨FM_SESS_CNT3 s, 0, 16⟩
/-- FM_SESS_CNT3.RESETS, bits 31..16, RC. -/
def FM_SESS_CNT3_RESETS (s : Nat) : Fld := ⟨FM_SESS_CNT3 s, 16, 16⟩
/-- FWD_CTRL at 0x01000000 (R397). -/
def FWD_CTRL : Reg := ⟨0x01000000, BitVec.ofNat 32 (0x012C0003)⟩
/-- FWD_CTRL.AGE_TIME, bits 31..16, RW. -/
def FWD_CTRL_AGE_TIME : Fld := ⟨FWD_CTRL, 16, 16⟩
/-- FWD_CTRL.RSVD_TO_CPU, bits 2..2, RW. -/
def FWD_CTRL_RSVD_TO_CPU : Fld := ⟨FWD_CTRL, 2, 1⟩
/-- FWD_CTRL.LEARN_EN, bits 1..1, RW. -/
def FWD_CTRL_LEARN_EN : Fld := ⟨FWD_CTRL, 1, 1⟩
/-- FWD_CTRL.CT_EN, bits 0..0, RW. -/
def FWD_CTRL_CT_EN : Fld := ⟨FWD_CTRL, 0, 1⟩
/-- FWD_EVENT at 0x01000004 (R398). -/
def FWD_EVENT : Reg := ⟨0x01000004, BitVec.ofNat 32 (0)⟩
/-- FWD_EVENT.FRER_RESET, bits 4..4, RW1C. -/
def FWD_EVENT_FRER_RESET : Fld := ⟨FWD_EVENT, 4, 1⟩
/-- FWD_EVENT.MAC_CMD_FAIL, bits 3..3, RW1C. -/
def FWD_EVENT_MAC_CMD_FAIL : Fld := ⟨FWD_EVENT, 3, 1⟩
/-- FWD_EVENT.MAC_CMD_DONE, bits 2..2, RW1C. -/
def FWD_EVENT_MAC_CMD_DONE : Fld := ⟨FWD_EVENT, 2, 1⟩
/-- FWD_EVENT.LEARN_FULL, bits 1..1, RW1C. -/
def FWD_EVENT_LEARN_FULL : Fld := ⟨FWD_EVENT, 1, 1⟩
/-- FWD_EVENT.CFG_ERR, bits 0..0, RW1C. -/
def FWD_EVENT_CFG_ERR : Fld := ⟨FWD_EVENT, 0, 1⟩
/-- FWD_MAC_CMD at 0x01000010 (R399). -/
def FWD_MAC_CMD : Reg := ⟨0x01000010, BitVec.ofNat 32 (0)⟩
/-- FWD_MAC_CMD.OP, bits 2..0, RW. -/
def FWD_MAC_CMD_OP : Fld := ⟨FWD_MAC_CMD, 0, 3⟩
/-- FWD_MAC_CMD.PORT, bits 14..8, RW. -/
def FWD_MAC_CMD_PORT : Fld := ⟨FWD_MAC_CMD, 8, 7⟩
/-- FWD_MAC_CMD.PORT_FILTER, bits 15..15, RW. -/
def FWD_MAC_CMD_PORT_FILTER : Fld := ⟨FWD_MAC_CMD, 15, 1⟩
/-- FWD_MAC_CMD.RESULT, bits 18..16, RO. -/
def FWD_MAC_CMD_RESULT : Fld := ⟨FWD_MAC_CMD, 16, 3⟩
/-- FWD_MAC_CMD.GO, bits 31..31, RWS. -/
def FWD_MAC_CMD_GO : Fld := ⟨FWD_MAC_CMD, 31, 1⟩
/-- FWD_MAC_KEY at 0x01000014, 2 words (R399). -/
def FWD_MAC_KEY : Wide := ⟨0x01000014, 2, 0⟩
/-- FWD_MAC_KEY.VID, bits 59..48, RW. -/
def FWD_MAC_KEY_VID : Fld := ⟨(FWD_MAC_KEY).word 1, 16, 12⟩
/-- FWD_MAC_DATA at 0x0100001C (R399). -/
def FWD_MAC_DATA : Reg := ⟨0x0100001C, BitVec.ofNat 32 (0)⟩
/-- FWD_MAC_DATA.DEST, bits 9..0, RW. -/
def FWD_MAC_DATA_DEST : Fld := ⟨FWD_MAC_DATA, 0, 10⟩
/-- FWD_MAC_DATA.GROUP, bits 12..12, RW. -/
def FWD_MAC_DATA_GROUP : Fld := ⟨FWD_MAC_DATA, 12, 1⟩
/-- FWD_MAC_DATA.STATIC, bits 13..13, RW. -/
def FWD_MAC_DATA_STATIC : Fld := ⟨FWD_MAC_DATA, 13, 1⟩
/-- FWD_MAC_DATA.HIT, bits 14..14, RW. -/
def FWD_MAC_DATA_HIT : Fld := ⟨FWD_MAC_DATA, 14, 1⟩
/-- FWD_MAC_DATA.VALID, bits 31..31, RW. -/
def FWD_MAC_DATA_VALID : Fld := ⟨FWD_MAC_DATA, 31, 1⟩
/-- FWD_CNT_FRAMES at 0x01000040 (R399). -/
def FWD_CNT_FRAMES (i : Nat) : Reg := ⟨0x01000040 + 0x10 * i, BitVec.ofNat 32 (0)⟩
/-- FWD_CNT_FRAMES.V, bits 31..0, RC. -/
def FWD_CNT_FRAMES_V (i : Nat) : Fld := ⟨FWD_CNT_FRAMES i, 0, 32⟩
/-- FWD_CNT_VLAN_DROP at 0x01000044 (R399). -/
def FWD_CNT_VLAN_DROP (i : Nat) : Reg := ⟨0x01000044 + 0x10 * i, BitVec.ofNat 32 (0)⟩
/-- FWD_CNT_VLAN_DROP.V, bits 31..0, RC. -/
def FWD_CNT_VLAN_DROP_V (i : Nat) : Fld := ⟨FWD_CNT_VLAN_DROP i, 0, 32⟩
/-- FWD_CNT_FILTER_DROP at 0x01000048 (R399). -/
def FWD_CNT_FILTER_DROP (i : Nat) : Reg := ⟨0x01000048 + 0x10 * i, BitVec.ofNat 32 (0)⟩
/-- FWD_CNT_FILTER_DROP.V, bits 31..0, RC. -/
def FWD_CNT_FILTER_DROP_V (i : Nat) : Fld := ⟨FWD_CNT_FILTER_DROP i, 0, 32⟩
/-- FWD_CNT_FCS_DROP at 0x0100004C (R399). -/
def FWD_CNT_FCS_DROP (i : Nat) : Reg := ⟨0x0100004C + 0x10 * i, BitVec.ofNat 32 (0)⟩
/-- FWD_CNT_FCS_DROP.V, bits 31..0, RC. -/
def FWD_CNT_FCS_DROP_V (i : Nat) : Fld := ⟨FWD_CNT_FCS_DROP i, 0, 32⟩
/-- FWD_CNT_LEARN at 0x01000060 (R399). -/
def FWD_CNT_LEARN : Reg := ⟨0x01000060, BitVec.ofNat 32 (0)⟩
/-- FWD_CNT_LEARN.FULL, bits 31..0, RC. -/
def FWD_CNT_LEARN_FULL : Fld := ⟨FWD_CNT_LEARN, 0, 32⟩
/-- FWD_PORT_CFG at 0x01001000 (R400). -/
def FWD_PORT_CFG (p : Nat) : Reg := ⟨0x01001000 + 0x10 * p, BitVec.ofNat 32 (0x001C0001)⟩
/-- FWD_PORT_CFG.DEI_TRUST, bits 21..21, RW. -/
def FWD_PORT_CFG_DEI_TRUST (p : Nat) : Fld := ⟨FWD_PORT_CFG p, 21, 1⟩
/-- FWD_PORT_CFG.CT_EN, bits 20..20, RW. -/
def FWD_PORT_CFG_CT_EN (p : Nat) : Fld := ⟨FWD_PORT_CFG p, 20, 1⟩
/-- FWD_PORT_CFG.LEARN_EN, bits 19..19, RW. -/
def FWD_PORT_CFG_LEARN_EN (p : Nat) : Fld := ⟨FWD_PORT_CFG p, 19, 1⟩
/-- FWD_PORT_CFG.INGRESS_FILTER, bits 18..18, RW. -/
def FWD_PORT_CFG_INGRESS_FILTER (p : Nat) : Fld := ⟨FWD_PORT_CFG p, 18, 1⟩
/-- FWD_PORT_CFG.ACCEPT, bits 17..16, RW. -/
def FWD_PORT_CFG_ACCEPT (p : Nat) : Fld := ⟨FWD_PORT_CFG p, 16, 2⟩
/-- FWD_PORT_CFG.DEF_PCP, bits 14..12, RW. -/
def FWD_PORT_CFG_DEF_PCP (p : Nat) : Fld := ⟨FWD_PORT_CFG p, 12, 3⟩
/-- FWD_PORT_CFG.PVID, bits 11..0, RW. -/
def FWD_PORT_CFG_PVID (p : Nat) : Fld := ⟨FWD_PORT_CFG p, 0, 12⟩
/-- FWD_PORT_PCP2TC at 0x01001004 (R400). -/
def FWD_PORT_PCP2TC (p : Nat) : Reg := ⟨0x01001004 + 0x10 * p, BitVec.ofNat 32 (0x00FAC688)⟩
/-- FWD_PORT_PCP2TC.V, bits 23..0, RW. -/
def FWD_PORT_PCP2TC_V (p : Nat) : Fld := ⟨FWD_PORT_PCP2TC p, 0, 24⟩
/-- QM_EVENT at 0x01400000 (R445). -/
def QM_EVENT : Reg := ⟨0x01400000, BitVec.ofNat 32 (0)⟩
/-- QM_EVENT.SPILL_LOST, bits 7..7, RW1C. -/
def QM_EVENT_SPILL_LOST : Fld := ⟨QM_EVENT, 7, 1⟩
/-- QM_EVENT.SPILL_FAIL, bits 6..6, RW1C. -/
def QM_EVENT_SPILL_FAIL : Fld := ⟨QM_EVENT, 6, 1⟩
/-- QM_EVENT.AGED, bits 5..5, RW1C. -/
def QM_EVENT_AGED : Fld := ⟨QM_EVENT, 5, 1⟩
/-- QM_EVENT.SUSPEND, bits 4..4, RW1C. -/
def QM_EVENT_SUSPEND : Fld := ⟨QM_EVENT, 4, 1⟩
/-- QM_EVENT.STUCK, bits 3..3, RW1C. -/
def QM_EVENT_STUCK : Fld := ⟨QM_EVENT, 3, 1⟩
/-- QM_EVENT.CFG_BUSY, bits 1..1, RW1C. -/
def QM_EVENT_CFG_BUSY : Fld := ⟨QM_EVENT, 1, 1⟩
/-- QM_EVENT.CFG_ERR, bits 0..0, RW1C. -/
def QM_EVENT_CFG_ERR : Fld := ⟨QM_EVENT, 0, 1⟩
/-- QM_STATUS at 0x01400004 (R446). -/
def QM_STATUS : Reg := ⟨0x01400004, BitVec.ofNat 32 (0)⟩
/-- QM_STATUS.FLUSH_BUSY, bits 0..0, RO. -/
def QM_STATUS_FLUSH_BUSY : Fld := ⟨QM_STATUS, 0, 1⟩
/-- QM_STATUS.DEFER_BUSY, bits 1..1, RO. -/
def QM_STATUS_DEFER_BUSY : Fld := ⟨QM_STATUS, 1, 1⟩
/-- QM_RESERVE at 0x01400008 (R446). -/
def QM_RESERVE : Reg := ⟨0x01400008, BitVec.ofNat 32 (0xA00)⟩
/-- QM_RESERVE.V, bits 17..0, RW. -/
def QM_RESERVE_V : Fld := ⟨QM_RESERVE, 0, 18⟩
/-- QM_STUCK at 0x0140000C (R446). -/
def QM_STUCK : Reg := ⟨0x0140000C, BitVec.ofNat 32 (0x64)⟩
/-- QM_STUCK.V, bits 13..0, RW. -/
def QM_STUCK_V : Fld := ⟨QM_STUCK, 0, 14⟩
/-- QM_MAX_RESIDENCE at 0x01400010 (R446). -/
def QM_MAX_RESIDENCE : Reg := ⟨0x01400010, BitVec.ofNat 32 (0x1F4)⟩
/-- QM_MAX_RESIDENCE.V, bits 12..0, RW. -/
def QM_MAX_RESIDENCE_V : Fld := ⟨QM_MAX_RESIDENCE, 0, 13⟩
/-- QM_ENTRIES at 0x01400014 (R446). -/
def QM_ENTRIES : Reg := ⟨0x01400014, BitVec.ofNat 32 (0x80000)⟩
/-- QM_ENTRIES.V, bits 19..0, RO. -/
def QM_ENTRIES_V : Fld := ⟨QM_ENTRIES, 0, 20⟩
/-- QM_SPILL_CFG at 0x01400020 (R446). -/
def QM_SPILL_CFG : Reg := ⟨0x01400020, BitVec.ofNat 32 (0x21000002)⟩
/-- QM_SPILL_CFG.EN, bits 0..0, RW. -/
def QM_SPILL_CFG_EN : Fld := ⟨QM_SPILL_CFG, 0, 1⟩
/-- QM_SPILL_CFG.CHANNELS, bits 1..1, RW. -/
def QM_SPILL_CFG_CHANNELS : Fld := ⟨QM_SPILL_CFG, 1, 1⟩
/-- QM_SPILL_CFG.SIZE, bits 6..4, RW. -/
def QM_SPILL_CFG_SIZE : Fld := ⟨QM_SPILL_CFG, 4, 3⟩
/-- QM_SPILL_CFG.X16, bits 8..8, RW. -/
def QM_SPILL_CFG_X16 : Fld := ⟨QM_SPILL_CFG, 8, 1⟩
/-- QM_SPILL_CFG.DENSITY, bits 9..9, RW. -/
def QM_SPILL_CFG_DENSITY : Fld := ⟨QM_SPILL_CFG, 9, 1⟩
/-- QM_SPILL_CFG.STAGE, bits 31..16, RW. -/
def QM_SPILL_CFG_STAGE : Fld := ⟨QM_SPILL_CFG, 16, 16⟩
/-- QM_SPILL_STATUS at 0x01400024 (R446). -/
def QM_SPILL_STATUS : Reg := ⟨0x01400024, BitVec.ofNat 32 (0)⟩
/-- QM_SPILL_STATUS.STATE, bits 2..0, RO. -/
def QM_SPILL_STATUS_STATE : Fld := ⟨QM_SPILL_STATUS, 0, 3⟩
/-- QM_SPILL_STATUS.CAUSE, bits 9..8, RO. -/
def QM_SPILL_STATUS_CAUSE : Fld := ⟨QM_SPILL_STATUS, 8, 2⟩
/-- QM_REFILL at 0x01400028 (R446). -/
def QM_REFILL : Reg := ⟨0x01400028, BitVec.ofNat 32 (0x02000100)⟩
/-- QM_REFILL.LOW, bits 15..0, RW. -/
def QM_REFILL_LOW : Fld := ⟨QM_REFILL, 0, 16⟩
/-- QM_REFILL.HIGH, bits 31..16, RW. -/
def QM_REFILL_HIGH : Fld := ⟨QM_REFILL, 16, 16⟩
/-- QM_CNT0 at 0x01400030 (R446). -/
def QM_CNT0 : Reg := ⟨0x01400030, BitVec.ofNat 32 (0)⟩
/-- QM_CNT0.READ_RETRY, bits 15..0, RC. -/
def QM_CNT0_READ_RETRY : Fld := ⟨QM_CNT0, 0, 16⟩
/-- QM_CNT0.REFILL_NOBUF, bits 31..16, RC. -/
def QM_CNT0_REFILL_NOBUF : Fld := ⟨QM_CNT0, 16, 16⟩
/-- QM_CNT1 at 0x01400034 (R446). -/
def QM_CNT1 : Reg := ⟨0x01400034, BitVec.ofNat 32 (0)⟩
/-- QM_CNT1.NOBUF0, bits 15..0, RC. -/
def QM_CNT1_NOBUF0 : Fld := ⟨QM_CNT1, 0, 16⟩
/-- QM_CNT1.NOBUF1, bits 31..16, RC. -/
def QM_CNT1_NOBUF1 : Fld := ⟨QM_CNT1, 16, 16⟩
/-- QM_RED at 0x01401000 (R447). -/
def QM_RED (k : Nat) : Reg := ⟨0x01401000 + 0x40 * k, BitVec.ofNat 32 (0x9)⟩
/-- QM_RED.WEIGHT, bits 3..0, RW. -/
def QM_RED_WEIGHT (k : Nat) : Fld := ⟨QM_RED k, 0, 4⟩
/-- QM_RED_MIN at 0x01401010 (R447). -/
def QM_RED_MIN (k : Nat) (c : Nat) : Reg := ⟨0x01401010 + 0x40 * k + 0x10 * c, BitVec.ofNat 32 (0x0FFFFFFF)⟩
/-- QM_RED_MIN.V, bits 27..0, RW. -/
def QM_RED_MIN_V (k : Nat) (c : Nat) : Fld := ⟨QM_RED_MIN k c, 0, 28⟩
/-- QM_RED_MAX at 0x01401014 (R447). -/
def QM_RED_MAX (k : Nat) (c : Nat) : Reg := ⟨0x01401014 + 0x40 * k + 0x10 * c, BitVec.ofNat 32 (0x0FFFFFFF)⟩
/-- QM_RED_MAX.V, bits 27..0, RW. -/
def QM_RED_MAX_V (k : Nat) (c : Nat) : Fld := ⟨QM_RED_MAX k c, 0, 28⟩
/-- QM_RED_MAXP at 0x01401018 (R447). -/
def QM_RED_MAXP (k : Nat) (c : Nat) : Reg := ⟨0x01401018 + 0x40 * k + 0x10 * c, BitVec.ofNat 32 (0)⟩
/-- QM_RED_MAXP.V, bits 7..0, RW. -/
def QM_RED_MAXP_V (k : Nat) (c : Nat) : Fld := ⟨QM_RED_MAXP k c, 0, 8⟩
/-- QM_PORT_GATE at 0x01410000 (R448). -/
def QM_PORT_GATE (p : Nat) : Reg := ⟨0x01410000 + 0x40 * p, BitVec.ofNat 32 (0x00FF0000)⟩
/-- QM_PORT_GATE.OPER_GATES, bits 23..16, RO. -/
def QM_PORT_GATE_OPER_GATES (p : Nat) : Fld := ⟨QM_PORT_GATE p, 16, 8⟩
/-- QM_PORT_GATE.CUR_ENTRY, bits 15..8, RO. -/
def QM_PORT_GATE_CUR_ENTRY (p : Nat) : Fld := ⟨QM_PORT_GATE p, 8, 8⟩
/-- QM_PORT_GATE.OPER_LIST, bits 2..2, RO. -/
def QM_PORT_GATE_OPER_LIST (p : Nat) : Fld := ⟨QM_PORT_GATE p, 2, 1⟩
/-- QM_PORT_GATE.OPER_VALID, bits 1..1, RO. -/
def QM_PORT_GATE_OPER_VALID (p : Nat) : Fld := ⟨QM_PORT_GATE p, 1, 1⟩
/-- QM_PORT_GATE.EN, bits 0..0, RW. -/
def QM_PORT_GATE_EN (p : Nat) : Fld := ⟨QM_PORT_GATE p, 0, 1⟩
/-- QM_PORT_LIST_CYCLE at 0x01410008 (R449). -/
def QM_PORT_LIST_CYCLE (p : Nat) (l : Nat) : Reg := ⟨0x01410008 + 0x40 * p + 0x8 * l, BitVec.ofNat 32 (0)⟩
/-- QM_PORT_LIST_CYCLE.V, bits 29..0, RW. -/
def QM_PORT_LIST_CYCLE_V (p : Nat) (l : Nat) : Fld := ⟨QM_PORT_LIST_CYCLE p l, 0, 30⟩
/-- QM_PORT_LIST_COUNT at 0x0141000C (R449). -/
def QM_PORT_LIST_COUNT (p : Nat) (l : Nat) : Reg := ⟨0x0141000C + 0x40 * p + 0x8 * l, BitVec.ofNat 32 (0)⟩
/-- QM_PORT_LIST_COUNT.V, bits 8..0, RW. -/
def QM_PORT_LIST_COUNT_V (p : Nat) (l : Nat) : Fld := ⟨QM_PORT_LIST_COUNT p l, 0, 9⟩
/-- QM_PORT_SWAPS at 0x01410018 (R449). -/
def QM_PORT_SWAPS (p : Nat) : Reg := ⟨0x01410018 + 0x40 * p, BitVec.ofNat 32 (0)⟩
/-- QM_PORT_SWAPS.V, bits 31..0, RC. -/
def QM_PORT_SWAPS_V (p : Nat) : Fld := ⟨QM_PORT_SWAPS p, 0, 32⟩
/-- QM_Q_CFG at 0x01420000 (R451). -/
def QM_Q_CFG (q : Nat) : Reg := ⟨0x01420000 + 0x40 * q, BitVec.ofNat 32 (0)⟩
/-- QM_Q_CFG.ALPHA, bits 19..16, RW. -/
def QM_Q_CFG_ALPHA (q : Nat) : Fld := ⟨QM_Q_CFG q, 16, 4⟩
/-- QM_Q_CFG.RED_EN, bits 8..8, RW. -/
def QM_Q_CFG_RED_EN (q : Nat) : Fld := ⟨QM_Q_CFG q, 8, 1⟩
/-- QM_Q_CFG.RED_PROFILE, bits 7..4, RW. -/
def QM_Q_CFG_RED_PROFILE (q : Nat) : Fld := ⟨QM_Q_CFG q, 4, 4⟩
/-- QM_Q_CFG.ECN_EN, bits 3..3, RW. -/
def QM_Q_CFG_ECN_EN (q : Nat) : Fld := ⟨QM_Q_CFG q, 3, 1⟩
/-- QM_Q_CFG.SPILL_EN, bits 2..2, RW. -/
def QM_Q_CFG_SPILL_EN (q : Nat) : Fld := ⟨QM_Q_CFG q, 2, 1⟩
/-- QM_Q_CFG.CBS_EN, bits 1..1, RW. -/
def QM_Q_CFG_CBS_EN (q : Nat) : Fld := ⟨QM_Q_CFG q, 1, 1⟩
/-- QM_Q_CFG.SCHED, bits 0..0, RW. -/
def QM_Q_CFG_SCHED (q : Nat) : Fld := ⟨QM_Q_CFG q, 0, 1⟩
/-- QM_Q_MIN at 0x01420004 (R452). -/
def QM_Q_MIN (q : Nat) : Reg := ⟨0x01420004 + 0x40 * q, BitVec.ofNat 32 (0x10)⟩
/-- QM_Q_MIN.V, bits 17..0, RW. -/
def QM_Q_MIN_V (q : Nat) : Fld := ⟨QM_Q_MIN q, 0, 18⟩
/-- QM_Q_QUANTUM at 0x01420008 (R452). -/
def QM_Q_QUANTUM (q : Nat) : Reg := ⟨0x01420008 + 0x40 * q, BitVec.ofNat 32 (0x600)⟩
/-- QM_Q_QUANTUM.V, bits 15..0, RW. -/
def QM_Q_QUANTUM_V (q : Nat) : Fld := ⟨QM_Q_QUANTUM q, 0, 16⟩
/-- QM_Q_SPILL_MAX at 0x0142000C (R452). -/
def QM_Q_SPILL_MAX (q : Nat) : Reg := ⟨0x0142000C + 0x40 * q, BitVec.ofNat 32 (0x4000)⟩
/-- QM_Q_SPILL_MAX.V, bits 24..0, RW. -/
def QM_Q_SPILL_MAX_V (q : Nat) : Fld := ⟨QM_Q_SPILL_MAX q, 0, 25⟩
/-- QM_Q_IDLE_SLOPE at 0x01420010 (R452). -/
def QM_Q_IDLE_SLOPE (q : Nat) : Reg := ⟨0x01420010 + 0x40 * q, BitVec.ofNat 32 (0)⟩
/-- QM_Q_IDLE_SLOPE.V, bits 31..0, RW. -/
def QM_Q_IDLE_SLOPE_V (q : Nat) : Fld := ⟨QM_Q_IDLE_SLOPE q, 0, 32⟩
/-- QM_Q_HI_CREDIT at 0x01420014 (R452). -/
def QM_Q_HI_CREDIT (q : Nat) : Reg := ⟨0x01420014 + 0x40 * q, BitVec.ofNat 32 (0)⟩
/-- QM_Q_HI_CREDIT.V, bits 31..0, RW. -/
def QM_Q_HI_CREDIT_V (q : Nat) : Fld := ⟨QM_Q_HI_CREDIT q, 0, 32⟩
/-- QM_Q_LO_CREDIT at 0x01420018 (R452). -/
def QM_Q_LO_CREDIT (q : Nat) : Reg := ⟨0x01420018 + 0x40 * q, BitVec.ofNat 32 (0)⟩
/-- QM_Q_LO_CREDIT.V, bits 31..0, RW. -/
def QM_Q_LO_CREDIT_V (q : Nat) : Fld := ⟨QM_Q_LO_CREDIT q, 0, 32⟩
/-- QM_Q_STATUS at 0x0142001C (R452). -/
def QM_Q_STATUS (q : Nat) : Reg := ⟨0x0142001C + 0x40 * q, BitVec.ofNat 32 (0)⟩
/-- QM_Q_STATUS.MODE, bits 1..0, RO. -/
def QM_Q_STATUS_MODE (q : Nat) : Fld := ⟨QM_Q_STATUS q, 0, 2⟩
/-- QM_Q_STATUS.SUSPENDED, bits 2..2, RW1C. -/
def QM_Q_STATUS_SUSPENDED (q : Nat) : Fld := ⟨QM_Q_STATUS q, 2, 1⟩
/-- QM_Q_STATUS.STUCK_10S, bits 7..4, RO. -/
def QM_Q_STATUS_STUCK_10S (q : Nat) : Fld := ⟨QM_Q_STATUS q, 4, 4⟩
/-- QM_Q_CELLS at 0x01420020 (R452). -/
def QM_Q_CELLS (q : Nat) : Reg := ⟨0x01420020 + 0x40 * q, BitVec.ofNat 32 (0)⟩
/-- QM_Q_CELLS.V, bits 17..0, RO. -/
def QM_Q_CELLS_V (q : Nat) : Fld := ⟨QM_Q_CELLS q, 0, 18⟩
/-- QM_Q_PAGES at 0x01420024 (R452). -/
def QM_Q_PAGES (q : Nat) : Reg := ⟨0x01420024 + 0x40 * q, BitVec.ofNat 32 (0)⟩
/-- QM_Q_PAGES.V, bits 24..0, RO. -/
def QM_Q_PAGES_V (q : Nat) : Fld := ⟨QM_Q_PAGES q, 0, 25⟩
/-- QM_Q_AVG at 0x01420028 (R452). -/
def QM_Q_AVG (q : Nat) : Reg := ⟨0x01420028 + 0x40 * q, BitVec.ofNat 32 (0)⟩
/-- QM_Q_AVG.V, bits 27..0, RO. -/
def QM_Q_AVG_V (q : Nat) : Fld := ⟨QM_Q_AVG q, 0, 28⟩
/-- QM_Q_FRAMES at 0x0142002C (R452). -/
def QM_Q_FRAMES (q : Nat) : Reg := ⟨0x0142002C + 0x40 * q, BitVec.ofNat 32 (0)⟩
/-- QM_Q_FRAMES.V, bits 19..0, RO. -/
def QM_Q_FRAMES_V (q : Nat) : Fld := ⟨QM_Q_FRAMES q, 0, 20⟩
/-- QM_Q_CNT0 at 0x01420030 (R452). -/
def QM_Q_CNT0 (q : Nat) : Reg := ⟨0x01420030 + 0x40 * q, BitVec.ofNat 32 (0)⟩
/-- QM_Q_CNT0.TAIL_DROP, bits 15..0, RC. -/
def QM_Q_CNT0_TAIL_DROP (q : Nat) : Fld := ⟨QM_Q_CNT0 q, 0, 16⟩
/-- QM_Q_CNT0.RED_DROP, bits 31..16, RC. -/
def QM_Q_CNT0_RED_DROP (q : Nat) : Fld := ⟨QM_Q_CNT0 q, 16, 16⟩
/-- QM_Q_CNT1 at 0x01420034 (R452). -/
def QM_Q_CNT1 (q : Nat) : Reg := ⟨0x01420034 + 0x40 * q, BitVec.ofNat 32 (0)⟩
/-- QM_Q_CNT1.ECN_MARK, bits 15..0, RC. -/
def QM_Q_CNT1_ECN_MARK (q : Nat) : Fld := ⟨QM_Q_CNT1 q, 0, 16⟩
/-- QM_Q_CNT1.FLUSHED, bits 31..16, RC. -/
def QM_Q_CNT1_FLUSHED (q : Nat) : Fld := ⟨QM_Q_CNT1 q, 16, 16⟩
/-- QM_Q_CNT2 at 0x01420038 (R452). -/
def QM_Q_CNT2 (q : Nat) : Reg := ⟨0x01420038 + 0x40 * q, BitVec.ofNat 32 (0)⟩
/-- QM_Q_CNT2.AGED, bits 15..0, RC. -/
def QM_Q_CNT2_AGED (q : Nat) : Fld := ⟨QM_Q_CNT2 q, 0, 16⟩
/-- QM_Q_CNT2.STUCK_FLUSH, bits 31..16, RC. -/
def QM_Q_CNT2_STUCK_FLUSH (q : Nat) : Fld := ⟨QM_Q_CNT2 q, 16, 16⟩
/-- QM_Q_CREDIT at 0x0142003C (R452). -/
def QM_Q_CREDIT (q : Nat) : Reg := ⟨0x0142003C + 0x40 * q, BitVec.ofNat 32 (0)⟩
/-- QM_Q_CREDIT.V, bits 31..0, RO. -/
def QM_Q_CREDIT_V (q : Nat) : Fld := ⟨QM_Q_CREDIT q, 0, 32⟩
/-- POOL_EVENT at 0x01800000 (R453). -/
def POOL_EVENT : Reg := ⟨0x01800000, BitVec.ofNat 32 (0)⟩
/-- POOL_EVENT.CMD_DONE, bits 6..6, RW1C. -/
def POOL_EVENT_CMD_DONE : Fld := ⟨POOL_EVENT, 6, 1⟩
/-- POOL_EVENT.AGED, bits 5..5, RW1C. -/
def POOL_EVENT_AGED : Fld := ⟨POOL_EVENT, 5, 1⟩
/-- POOL_EVENT.EMPTY, bits 4..4, RW1C. -/
def POOL_EVENT_EMPTY : Fld := ⟨POOL_EVENT, 4, 1⟩
/-- POOL_EVENT.REF_OVF, bits 3..3, RW1C. -/
def POOL_EVENT_REF_OVF : Fld := ⟨POOL_EVENT, 3, 1⟩
/-- POOL_EVENT.OWNER_FAULT, bits 2..2, RW1C. -/
def POOL_EVENT_OWNER_FAULT : Fld := ⟨POOL_EVENT, 2, 1⟩
/-- POOL_EVENT.DOUBLE_FREE, bits 1..1, RW1C. -/
def POOL_EVENT_DOUBLE_FREE : Fld := ⟨POOL_EVENT, 1, 1⟩
/-- POOL_EVENT.CFG_ERR, bits 0..0, RW1C. -/
def POOL_EVENT_CFG_ERR : Fld := ⟨POOL_EVENT, 0, 1⟩
/-- POOL_ERR_LOG at 0x01800004, 2 words (R454). -/
def POOL_ERR_LOG : Wide := ⟨0x01800004, 2, 0⟩
/-- POOL_ERR_LOG.INDEX, bits 23..0, RO. -/
def POOL_ERR_LOG_INDEX : Fld := ⟨(POOL_ERR_LOG).word 0, 0, 24⟩
/-- POOL_ERR_LOG.POOL, bits 27..24, RO. -/
def POOL_ERR_LOG_POOL : Fld := ⟨(POOL_ERR_LOG).word 0, 24, 4⟩
/-- POOL_ERR_LOG.CLASS, bits 31..28, RO. -/
def POOL_ERR_LOG_CLASS : Fld := ⟨(POOL_ERR_LOG).word 0, 28, 4⟩
/-- POOL_ERR_LOG.KIND, bits 33..32, RO. -/
def POOL_ERR_LOG_KIND : Fld := ⟨(POOL_ERR_LOG).word 1, 0, 2⟩
/-- POOL_ERR_LOG.OVERFLOW, bits 62..62, RW1C. -/
def POOL_ERR_LOG_OVERFLOW : Fld := ⟨(POOL_ERR_LOG).word 1, 30, 1⟩
/-- POOL_ERR_LOG.VALID, bits 63..63, RW1C. -/
def POOL_ERR_LOG_VALID : Fld := ⟨(POOL_ERR_LOG).word 1, 31, 1⟩
/-- POOL_CMD at 0x01800010 (R454). -/
def POOL_CMD : Reg := ⟨0x01800010, BitVec.ofNat 32 (0)⟩
/-- POOL_CMD.OP, bits 2..0, RW. -/
def POOL_CMD_OP : Fld := ⟨POOL_CMD, 0, 3⟩
/-- POOL_CMD.POOL, bits 11..8, RW. -/
def POOL_CMD_POOL : Fld := ⟨POOL_CMD, 8, 4⟩
/-- POOL_CMD.RESULT, bits 14..12, RO. -/
def POOL_CMD_RESULT : Fld := ⟨POOL_CMD, 12, 3⟩
/-- POOL_CMD.GO, bits 31..31, RWS. -/
def POOL_CMD_GO : Fld := ⟨POOL_CMD, 31, 1⟩
/-- POOL_CMD_INDEX at 0x01800014 (R454). -/
def POOL_CMD_INDEX : Reg := ⟨0x01800014, BitVec.ofNat 32 (0)⟩
/-- POOL_CMD_INDEX.V, bits 23..0, RW. -/
def POOL_CMD_INDEX_V : Fld := ⟨POOL_CMD_INDEX, 0, 24⟩
/-- POOL_CMD_STATE at 0x01800018 (R454). -/
def POOL_CMD_STATE : Reg := ⟨0x01800018, BitVec.ofNat 32 (0)⟩
/-- POOL_CMD_STATE.ALLOCATED, bits 0..0, RO. -/
def POOL_CMD_STATE_ALLOCATED : Fld := ⟨POOL_CMD_STATE, 0, 1⟩
/-- POOL_CMD_STATE.OWNER, bits 7..4, RO. -/
def POOL_CMD_STATE_OWNER : Fld := ⟨POOL_CMD_STATE, 4, 4⟩
/-- POOL_CMD_STATE.REFCOUNT, bits 15..8, RO. -/
def POOL_CMD_STATE_REFCOUNT : Fld := ⟨POOL_CMD_STATE, 8, 8⟩
/-- POOL_CMD_STATE.AGE, bits 19..16, RO. -/
def POOL_CMD_STATE_AGE : Fld := ⟨POOL_CMD_STATE, 16, 4⟩
/-- POOL_CFG at 0x01800100 (R455). -/
def POOL_CFG (n : Nat) : Reg := ⟨0x01800100 + 0x20 * n, BitVec.ofNat 32 (if n = 1 then 2 else if n < 4 then 3 else 0)⟩
/-- POOL_CFG.EN, bits 0..0, RW. -/
def POOL_CFG_EN (n : Nat) : Fld := ⟨POOL_CFG n, 0, 1⟩
/-- POOL_CFG.AGE_EN, bits 1..1, RW. -/
def POOL_CFG_AGE_EN (n : Nat) : Fld := ⟨POOL_CFG n, 1, 1⟩
/-- POOL_SHARE_MASK at 0x01800104 (R455). -/
def POOL_SHARE_MASK (n : Nat) : Reg := ⟨0x01800104 + 0x20 * n, BitVec.ofNat 32 (if n = 0 then 0x470 else if n = 1 then 0x424 else if n = 2 then 0x530 else if n = 3 then 0x430 else 0)⟩
/-- POOL_SHARE_MASK.V, bits 15..0, RW. -/
def POOL_SHARE_MASK_V (n : Nat) : Fld := ⟨POOL_SHARE_MASK n, 0, 16⟩
/-- POOL_SIZE at 0x01800108 (R455). -/
def POOL_SIZE (n : Nat) : Reg := ⟨0x01800108 + 0x20 * n, BitVec.ofNat 32 (if n = 0 then 0x40000 else if n = 2 then 0x4000 else if n = 3 then 0x800 else 0)⟩
/-- POOL_SIZE.V, bits 24..0, RW. -/
def POOL_SIZE_V (n : Nat) : Fld := ⟨POOL_SIZE n, 0, 25⟩
/-- POOL_FREE at 0x0180010C (R455). -/
def POOL_FREE (n : Nat) : Reg := ⟨0x0180010C + 0x20 * n, BitVec.ofNat 32 (if n = 0 then 0x40000 else if n = 2 then 0x4000 else if n = 3 then 0x800 else 0)⟩
/-- POOL_FREE.V, bits 24..0, RO. -/
def POOL_FREE_V (n : Nat) : Fld := ⟨POOL_FREE n, 0, 25⟩
/-- POOL_LOW_WATER at 0x01800110 (R455). -/
def POOL_LOW_WATER (n : Nat) : Reg := ⟨0x01800110 + 0x20 * n, BitVec.ofNat 32 (if n = 0 then 0x40000 else if n = 2 then 0x4000 else if n = 3 then 0x800 else 0)⟩
/-- POOL_LOW_WATER.V, bits 24..0, RC. -/
def POOL_LOW_WATER_V (n : Nat) : Fld := ⟨POOL_LOW_WATER n, 0, 25⟩
/-- POOL_CNT0 at 0x01800114 (R455). -/
def POOL_CNT0 (n : Nat) : Reg := ⟨0x01800114 + 0x20 * n, BitVec.ofNat 32 (0)⟩
/-- POOL_CNT0.EMPTY_FAIL, bits 15..0, RC. -/
def POOL_CNT0_EMPTY_FAIL (n : Nat) : Fld := ⟨POOL_CNT0 n, 0, 16⟩
/-- POOL_CNT0.DOUBLE_FREE, bits 31..16, RC. -/
def POOL_CNT0_DOUBLE_FREE (n : Nat) : Fld := ⟨POOL_CNT0 n, 16, 16⟩
/-- POOL_CNT1 at 0x01800118 (R455). -/
def POOL_CNT1 (n : Nat) : Reg := ⟨0x01800118 + 0x20 * n, BitVec.ofNat 32 (0)⟩
/-- POOL_CNT1.OWNER_FAULT, bits 15..0, RC. -/
def POOL_CNT1_OWNER_FAULT (n : Nat) : Fld := ⟨POOL_CNT1 n, 0, 16⟩
/-- POOL_CNT1.AGED, bits 31..16, RC. -/
def POOL_CNT1_AGED (n : Nat) : Fld := ⟨POOL_CNT1 n, 16, 16⟩
/-- POOL_CNT2 at 0x0180011C (R455). -/
def POOL_CNT2 (n : Nat) : Reg := ⟨0x0180011C + 0x20 * n, BitVec.ofNat 32 (0)⟩
/-- POOL_CNT2.REF_OVF, bits 15..0, RC. -/
def POOL_CNT2_REF_OVF (n : Nat) : Fld := ⟨POOL_CNT2 n, 0, 16⟩
/-- XC_CTRL at 0x01C00000 (R478). -/
def XC_CTRL : Reg := ⟨0x01C00000, BitVec.ofNat 32 (0)⟩
/-- XC_CTRL.EN, bits 0..0, RW. -/
def XC_CTRL_EN : Fld := ⟨XC_CTRL, 0, 1⟩
/-- XC_EVENT at 0x01C00004 (R479). -/
def XC_EVENT : Reg := ⟨0x01C00004, BitVec.ofNat 32 (0)⟩
/-- XC_EVENT.STOPPED, bits 6..6, RW1C. -/
def XC_EVENT_STOPPED : Fld := ⟨XC_EVENT, 6, 1⟩
/-- XC_EVENT.VERIFY_FAIL, bits 5..5, RW1C. -/
def XC_EVENT_VERIFY_FAIL : Fld := ⟨XC_EVENT, 5, 1⟩
/-- XC_EVENT.OVERLEN, bits 4..4, RW1C. -/
def XC_EVENT_OVERLEN : Fld := ⟨XC_EVENT, 4, 1⟩
/-- XC_EVENT.LATE, bits 2..2, RW1C. -/
def XC_EVENT_LATE : Fld := ⟨XC_EVENT, 2, 1⟩
/-- XC_EVENT.CFG_BUSY, bits 1..1, RW1C. -/
def XC_EVENT_CFG_BUSY : Fld := ⟨XC_EVENT, 1, 1⟩
/-- XC_EVENT.CFG_ERR, bits 0..0, RW1C. -/
def XC_EVENT_CFG_ERR : Fld := ⟨XC_EVENT, 0, 1⟩
/-- XC_CNT at 0x01C00010 (R480). -/
def XC_CNT : Reg := ⟨0x01C00010, BitVec.ofNat 32 (0)⟩
/-- XC_CNT.NOT_INSTALLED, bits 15..0, RC. -/
def XC_CNT_NOT_INSTALLED : Fld := ⟨XC_CNT, 0, 16⟩
/-- XC_CNT.WRONG_PORT, bits 31..16, RC. -/
def XC_CNT_WRONG_PORT : Fld := ⟨XC_CNT, 16, 16⟩
/-- XC_PORT_CFG at 0x01C01000 (R481). -/
def XC_PORT_CFG (p : Nat) : Reg := ⟨0x01C01000 + 0x20 * p, BitVec.ofNat 32 (0xA00)⟩
/-- XC_PORT_CFG.VERIFY_MS, bits 15..8, RW. -/
def XC_PORT_CFG_VERIFY_MS (p : Nat) : Fld := ⟨XC_PORT_CFG p, 8, 8⟩
/-- XC_PORT_CFG.VERIFY_DIS, bits 3..3, RW. -/
def XC_PORT_CFG_VERIFY_DIS (p : Nat) : Fld := ⟨XC_PORT_CFG p, 3, 1⟩
/-- XC_PORT_CFG.ADD_FRAG, bits 2..1, RW. -/
def XC_PORT_CFG_ADD_FRAG (p : Nat) : Fld := ⟨XC_PORT_CFG p, 1, 2⟩
/-- XC_PORT_CFG.PREEMPT, bits 0..0, RW. -/
def XC_PORT_CFG_PREEMPT (p : Nat) : Fld := ⟨XC_PORT_CFG p, 0, 1⟩
/-- XC_PORT_STATUS at 0x01C01004 (R482). -/
def XC_PORT_STATUS (p : Nat) : Reg := ⟨0x01C01004 + 0x20 * p, BitVec.ofNat 32 (0)⟩
/-- XC_PORT_STATUS.CLASS0_TC, bits 2..0, RO. -/
def XC_PORT_STATUS_CLASS0_TC (p : Nat) : Fld := ⟨XC_PORT_STATUS p, 0, 3⟩
/-- XC_PORT_STATUS.CLASS0_VALID, bits 3..3, RO. -/
def XC_PORT_STATUS_CLASS0_VALID (p : Nat) : Fld := ⟨XC_PORT_STATUS p, 3, 1⟩
/-- XC_PORT_STATUS.CLASS1_TC, bits 6..4, RO. -/
def XC_PORT_STATUS_CLASS1_TC (p : Nat) : Fld := ⟨XC_PORT_STATUS p, 4, 3⟩
/-- XC_PORT_STATUS.CLASS1_VALID, bits 7..7, RO. -/
def XC_PORT_STATUS_CLASS1_VALID (p : Nat) : Fld := ⟨XC_PORT_STATUS p, 7, 1⟩
/-- XC_PORT_STATUS.VERIFY, bits 10..8, RO. -/
def XC_PORT_STATUS_VERIFY (p : Nat) : Fld := ⟨XC_PORT_STATUS p, 8, 3⟩
/-- XC_PORT_STATUS.PREEMPT_ACTIVE, bits 11..11, RO. -/
def XC_PORT_STATUS_PREEMPT_ACTIVE (p : Nat) : Fld := ⟨XC_PORT_STATUS p, 11, 1⟩
/-- XC_PORT_STATUS.PENDING, bits 12..12, RO. -/
def XC_PORT_STATUS_PENDING (p : Nat) : Fld := ⟨XC_PORT_STATUS p, 12, 1⟩
/-- XC_PORT_CNT0 at 0x01C01008 (R482). -/
def XC_PORT_CNT0 (p : Nat) : Reg := ⟨0x01C01008 + 0x20 * p, BitVec.ofNat 32 (0)⟩
/-- XC_PORT_CNT0.PREEMPTED, bits 15..0, RC. -/
def XC_PORT_CNT0_PREEMPTED (p : Nat) : Fld := ⟨XC_PORT_CNT0 p, 0, 16⟩
/-- XC_PORT_CNT0.REASSEMBLED, bits 31..16, RC. -/
def XC_PORT_CNT0_REASSEMBLED (p : Nat) : Fld := ⟨XC_PORT_CNT0 p, 16, 16⟩
/-- XC_PORT_CNT1 at 0x01C0100C (R482). -/
def XC_PORT_CNT1 (p : Nat) : Reg := ⟨0x01C0100C + 0x20 * p, BitVec.ofNat 32 (0)⟩
/-- XC_PORT_CNT1.REASM_ERR, bits 15..0, RC. -/
def XC_PORT_CNT1_REASM_ERR (p : Nat) : Fld := ⟨XC_PORT_CNT1 p, 0, 16⟩
/-- XC_STREAM_CFG at 0x01C10000 (R483). -/
def XC_STREAM_CFG (s : Nat) : Reg := ⟨0x01C10000 + 0x20 * s, BitVec.ofNat 32 (0)⟩
/-- XC_STREAM_CFG.EN, bits 0..0, RW. -/
def XC_STREAM_CFG_EN (s : Nat) : Fld := ⟨XC_STREAM_CFG s, 0, 1⟩
/-- XC_STREAM_CFG.TC, bits 3..1, RW. -/
def XC_STREAM_CFG_TC (s : Nat) : Fld := ⟨XC_STREAM_CFG s, 1, 3⟩
/-- XC_STREAM_CFG.INGRESS, bits 14..8, RW. -/
def XC_STREAM_CFG_INGRESS (s : Nat) : Fld := ⟨XC_STREAM_CFG s, 8, 7⟩
/-- XC_STREAM_CFG.EGRESS, bits 22..16, RW. -/
def XC_STREAM_CFG_EGRESS (s : Nat) : Fld := ⟨XC_STREAM_CFG s, 16, 7⟩
/-- XC_STREAM_MAX_LEN at 0x01C10004 (R483). -/
def XC_STREAM_MAX_LEN (s : Nat) : Reg := ⟨0x01C10004 + 0x20 * s, BitVec.ofNat 32 (0x5F2)⟩
/-- XC_STREAM_MAX_LEN.V, bits 13..0, RW. -/
def XC_STREAM_MAX_LEN_V (s : Nat) : Fld := ⟨XC_STREAM_MAX_LEN s, 0, 14⟩
/-- XC_STREAM_STATUS at 0x01C10008 (R483). -/
def XC_STREAM_STATUS (s : Nat) : Reg := ⟨0x01C10008 + 0x20 * s, BitVec.ofNat 32 (0)⟩
/-- XC_STREAM_STATUS.STATE, bits 1..0, RO. -/
def XC_STREAM_STATUS_STATE (s : Nat) : Fld := ⟨XC_STREAM_STATUS s, 0, 2⟩
/-- XC_STREAM_STATUS.COARSE, bits 2..2, RO. -/
def XC_STREAM_STATUS_COARSE (s : Nat) : Fld := ⟨XC_STREAM_STATUS s, 2, 1⟩
/-- XC_STREAM_STATUS.LAST_CAUSE, bits 10..8, RO. -/
def XC_STREAM_STATUS_LAST_CAUSE (s : Nat) : Fld := ⟨XC_STREAM_STATUS s, 8, 3⟩
/-- XC_STREAM_CNT0 at 0x01C1000C (R483). -/
def XC_STREAM_CNT0 (s : Nat) : Reg := ⟨0x01C1000C + 0x20 * s, BitVec.ofNat 32 (0)⟩
/-- XC_STREAM_CNT0.CROSSED, bits 31..0, RC. -/
def XC_STREAM_CNT0_CROSSED (s : Nat) : Fld := ⟨XC_STREAM_CNT0 s, 0, 32⟩
/-- XC_STREAM_CNT1 at 0x01C10010 (R483). -/
def XC_STREAM_CNT1 (s : Nat) : Reg := ⟨0x01C10010 + 0x20 * s, BitVec.ofNat 32 (0)⟩
/-- XC_STREAM_CNT1.LATE_EXPRESS, bits 31..0, RC. -/
def XC_STREAM_CNT1_LATE_EXPRESS (s : Nat) : Fld := ⟨XC_STREAM_CNT1 s, 0, 32⟩
/-- XC_STREAM_CNT2 at 0x01C10014 (R483). -/
def XC_STREAM_CNT2 (s : Nat) : Reg := ⟨0x01C10014 + 0x20 * s, BitVec.ofNat 32 (0)⟩
/-- XC_STREAM_CNT2.OVERLEN, bits 15..0, RC. -/
def XC_STREAM_CNT2_OVERLEN (s : Nat) : Fld := ⟨XC_STREAM_CNT2 s, 0, 16⟩
/-- TIU_CTRL at 0x02000000 (R507). -/
def TIU_CTRL : Reg := ⟨0x02000000, BitVec.ofNat 32 (0)⟩
/-- TIU_CTRL.DISARM, bits 1..1, WO. -/
def TIU_CTRL_DISARM : Fld := ⟨TIU_CTRL, 1, 1⟩
/-- TIU_CTRL.ARM, bits 0..0, RWS. -/
def TIU_CTRL_ARM : Fld := ⟨TIU_CTRL, 0, 1⟩
/-- TIU_CFG at 0x02000004 (R508). -/
def TIU_CFG : Reg := ⟨0x02000004, BitVec.ofNat 32 (0x100)⟩
/-- TIU_CFG.BASE, bits 17..16, RW. -/
def TIU_CFG_BASE : Fld := ⟨TIU_CFG, 16, 2⟩
/-- TIU_CFG.STOP_EDGE, bits 13..13, RW. -/
def TIU_CFG_STOP_EDGE : Fld := ⟨TIU_CFG, 13, 1⟩
/-- TIU_CFG.STOP_SRC, bits 12..8, RW. -/
def TIU_CFG_STOP_SRC : Fld := ⟨TIU_CFG, 8, 5⟩
/-- TIU_CFG.START_EDGE, bits 5..5, RW. -/
def TIU_CFG_START_EDGE : Fld := ⟨TIU_CFG, 5, 1⟩
/-- TIU_CFG.START_SRC, bits 4..0, RW. -/
def TIU_CFG_START_SRC : Fld := ⟨TIU_CFG, 0, 5⟩
/-- TIU_N at 0x02000008 (R509). -/
def TIU_N : Reg := ⟨0x02000008, BitVec.ofNat 32 (1)⟩
/-- TIU_N.V, bits 15..0, RW. -/
def TIU_N_V : Fld := ⟨TIU_N, 0, 16⟩
/-- TIU_START_TO at 0x0200000C (R509). -/
def TIU_START_TO : Reg := ⟨0x0200000C, BitVec.ofNat 32 (0x7D0)⟩
/-- TIU_START_TO.V, bits 15..0, RW. -/
def TIU_START_TO_V : Fld := ⟨TIU_START_TO, 0, 16⟩
/-- TIU_WIN_OPEN at 0x02000010 (R509). -/
def TIU_WIN_OPEN : Reg := ⟨0x02000010, BitVec.ofNat 32 (0)⟩
/-- TIU_WIN_OPEN.V, bits 31..0, RW. -/
def TIU_WIN_OPEN_V : Fld := ⟨TIU_WIN_OPEN, 0, 32⟩
/-- TIU_WIN_CLOSE at 0x02000014 (R509). -/
def TIU_WIN_CLOSE : Reg := ⟨0x02000014, BitVec.ofNat 32 (0x3B9ACA00)⟩
/-- TIU_WIN_CLOSE.V, bits 31..0, RW. -/
def TIU_WIN_CLOSE_V : Fld := ⟨TIU_WIN_CLOSE, 0, 32⟩
/-- TIU_STATUS at 0x02000018 (R510). -/
def TIU_STATUS : Reg := ⟨0x02000018, BitVec.ofNat 32 (0)⟩
/-- TIU_STATUS.MEAS, bits 31..16, RO. -/
def TIU_STATUS_MEAS : Fld := ⟨TIU_STATUS, 16, 16⟩
/-- TIU_STATUS.RUN_END, bits 10..8, RO. -/
def TIU_STATUS_RUN_END : Fld := ⟨TIU_STATUS, 8, 3⟩
/-- TIU_STATUS.OCXO_WARM, bits 6..6, RO. -/
def TIU_STATUS_OCXO_WARM : Fld := ⟨TIU_STATUS, 6, 1⟩
/-- TIU_STATUS.REF_PRESENT, bits 5..5, RO. -/
def TIU_STATUS_REF_PRESENT : Fld := ⟨TIU_STATUS, 5, 1⟩
/-- TIU_STATUS.BASE_LOCKED, bits 4..4, RO. -/
def TIU_STATUS_BASE_LOCKED : Fld := ⟨TIU_STATUS, 4, 1⟩
/-- TIU_STATUS.STATE, bits 2..0, RO. -/
def TIU_STATUS_STATE : Fld := ⟨TIU_STATUS, 0, 3⟩
/-- TIU_EVENT at 0x0200001C (R511). -/
def TIU_EVENT : Reg := ⟨0x0200001C, BitVec.ofNat 32 (0)⟩
/-- TIU_EVENT.FIFO_OVF, bits 6..6, RW1C. -/
def TIU_EVENT_FIFO_OVF : Fld := ⟨TIU_EVENT, 6, 1⟩
/-- TIU_EVENT.CAL_FAIL, bits 5..5, RW1C. -/
def TIU_EVENT_CAL_FAIL : Fld := ⟨TIU_EVENT, 5, 1⟩
/-- TIU_EVENT.NO_REF, bits 4..4, RW1C. -/
def TIU_EVENT_NO_REF : Fld := ⟨TIU_EVENT, 4, 1⟩
/-- TIU_EVENT.ABORT, bits 3..3, RW1C. -/
def TIU_EVENT_ABORT : Fld := ⟨TIU_EVENT, 3, 1⟩
/-- TIU_EVENT.RUN_DONE, bits 2..2, RW1C. -/
def TIU_EVENT_RUN_DONE : Fld := ⟨TIU_EVENT, 2, 1⟩
/-- TIU_EVENT.CFG_BUSY, bits 1..1, RW1C. -/
def TIU_EVENT_CFG_BUSY : Fld := ⟨TIU_EVENT, 1, 1⟩
/-- TIU_EVENT.CFG_ERR, bits 0..0, RW1C. -/
def TIU_EVENT_CFG_ERR : Fld := ⟨TIU_EVENT, 0, 1⟩
/-- TIU_LAST at 0x02000020, 6 words (R513). -/
def TIU_LAST : Wide := ⟨0x02000020, 6, 0⟩
/-- TIU_STAT at 0x02000040, 10 words (R514). -/
def TIU_STAT : Wide := ⟨0x02000040, 10, 0⟩
/-- TIU_FIFO at 0x02000080, 3 words (R515). -/
def TIU_FIFO : Wide := ⟨0x02000080, 3, 0⟩
/-- TIU_FIFO_LEVEL at 0x02000090 (R515). -/
def TIU_FIFO_LEVEL : Reg := ⟨0x02000090, BitVec.ofNat 32 (0)⟩
/-- TIU_FIFO_LEVEL.LEVEL, bits 6..0, RO. -/
def TIU_FIFO_LEVEL_LEVEL : Fld := ⟨TIU_FIFO_LEVEL, 0, 7⟩
/-- TIU_FIFO_LEVEL.OVF, bits 31..16, RC. -/
def TIU_FIFO_LEVEL_OVF : Fld := ⟨TIU_FIFO_LEVEL, 16, 16⟩
/-- CAL_EVENT at 0x02100004 (R531). -/
def CAL_EVENT : Reg := ⟨0x02100004, BitVec.ofNat 32 (0)⟩
/-- CAL_EVENT.ABANDONED, bits 5..5, RW1C. -/
def CAL_EVENT_ABANDONED : Fld := ⟨CAL_EVENT, 5, 1⟩
/-- CAL_EVENT.PERSIST, bits 4..4, RW1C. -/
def CAL_EVENT_PERSIST : Fld := ⟨CAL_EVENT, 4, 1⟩
/-- CAL_EVENT.STARVED, bits 3..3, RW1C. -/
def CAL_EVENT_STARVED : Fld := ⟨CAL_EVENT, 3, 1⟩
/-- CAL_EVENT.FAIL, bits 2..2, RW1C. -/
def CAL_EVENT_FAIL : Fld := ⟨CAL_EVENT, 2, 1⟩
/-- CAL_EVENT.DEFERRED, bits 1..1, RW1C. -/
def CAL_EVENT_DEFERRED : Fld := ⟨CAL_EVENT, 1, 1⟩
/-- CAL_EVENT.CFG_ERR, bits 0..0, RW1C. -/
def CAL_EVENT_CFG_ERR : Fld := ⟨CAL_EVENT, 0, 1⟩
/-- CAL_STATUS at 0x02100008 (R532). -/
def CAL_STATUS : Reg := ⟨0x02100008, BitVec.ofNat 32 (0)⟩
/-- CAL_STATUS.CH78_INST, bits 12..8, RO. -/
def CAL_STATUS_CH78_INST : Fld := ⟨CAL_STATUS, 8, 5⟩
/-- CAL_STATUS.CH78_CLASS, bits 6..4, RO. -/
def CAL_STATUS_CH78_CLASS : Fld := ⟨CAL_STATUS, 4, 3⟩
/-- CAL_STATUS.CH78_BUSY, bits 0..0, RO. -/
def CAL_STATUS_CH78_BUSY : Fld := ⟨CAL_STATUS, 0, 1⟩
/-- CAL_CFG at 0x02100100 (R533). -/
def CAL_CFG (k : Nat) : Reg := ⟨0x02100100 + 0x20 * k, BitVec.ofNat 32 (1 + 65536 * calPeriod k)⟩
/-- CAL_CFG.EN, bits 0..0, RW. -/
def CAL_CFG_EN (k : Nat) : Fld := ⟨CAL_CFG k, 0, 1⟩
/-- CAL_CFG.PERIOD, bits 31..16, RW. -/
def CAL_CFG_PERIOD (k : Nat) : Fld := ⟨CAL_CFG k, 16, 16⟩
/-- CAL_K_STATUS at 0x02100104 (R533). -/
def CAL_K_STATUS (k : Nat) : Reg := ⟨0x02100104 + 0x20 * k, BitVec.ofNat 32 (0)⟩
/-- CAL_K_STATUS.STATE, bits 1..0, RO. -/
def CAL_K_STATUS_STATE (k : Nat) : Fld := ⟨CAL_K_STATUS k, 0, 2⟩
/-- CAL_K_STATUS.LAST_RESULT, bits 6..4, RO. -/
def CAL_K_STATUS_LAST_RESULT (k : Nat) : Fld := ⟨CAL_K_STATUS k, 4, 3⟩
/-- CAL_K_STATUS.TB_INVALID, bits 8..8, RO. -/
def CAL_K_STATUS_TB_INVALID (k : Nat) : Fld := ⟨CAL_K_STATUS k, 8, 1⟩
/-- CAL_K_STATUS.LAST_INST, bits 23..16, RO. -/
def CAL_K_STATUS_LAST_INST (k : Nat) : Fld := ⟨CAL_K_STATUS k, 16, 8⟩
/-- CAL_COUNT at 0x02100108 (R533). -/
def CAL_COUNT (k : Nat) : Reg := ⟨0x02100108 + 0x20 * k, BitVec.ofNat 32 (0)⟩
/-- CAL_COUNT.V, bits 31..0, RO. -/
def CAL_COUNT_V (k : Nat) : Fld := ⟨CAL_COUNT k, 0, 32⟩
/-- CAL_LAST at 0x0210010C, 3 words (R533). -/
def CAL_LAST (k : Nat) : Wide := ⟨0x0210010C + 0x20 * k, 3, 0⟩
/-- CAL_FAILS at 0x02100118 (R533). -/
def CAL_FAILS (k : Nat) : Reg := ⟨0x02100118 + 0x20 * k, BitVec.ofNat 32 (0)⟩
/-- CAL_FAILS.V, bits 15..0, RC. -/
def CAL_FAILS_V (k : Nat) : Fld := ⟨CAL_FAILS k, 0, 16⟩
/-- CAL_RUN at 0x0210011C (R533). -/
def CAL_RUN (k : Nat) : Reg := ⟨0x0210011C + 0x20 * k, BitVec.ofNat 32 (0)⟩
/-- CAL_RUN.V, bits 0..0, RWS. -/
def CAL_RUN_V (k : Nat) : Fld := ⟨CAL_RUN k, 0, 1⟩
/-- CAL_LAT at 0x02100400 (R534). -/
def CAL_LAT (q : Nat) : Reg := ⟨0x02100400 + 0x4 * q, BitVec.ofNat 32 (0)⟩
/-- CAL_LAT.RX, bits 15..0, RO. -/
def CAL_LAT_RX (q : Nat) : Fld := ⟨CAL_LAT q, 0, 16⟩
/-- CAL_LAT.TX, bits 31..16, RO. -/
def CAL_LAT_TX (q : Nat) : Fld := ⟨CAL_LAT q, 16, 16⟩
/-- ECC_CTRL at 0x02200000 (R556). -/
def ECC_CTRL : Reg := ⟨0x02200000, BitVec.ofNat 32 (0x30F)⟩
/-- ECC_CTRL.STUCK_THRESH, bits 11..8, RW. -/
def ECC_CTRL_STUCK_THRESH : Fld := ⟨ECC_CTRL, 8, 4⟩
/-- ECC_CTRL.REMAP_EN, bits 3..3, RW. -/
def ECC_CTRL_REMAP_EN : Fld := ⟨ECC_CTRL, 3, 1⟩
/-- ECC_CTRL.CFG_RELOAD, bits 2..2, RW. -/
def ECC_CTRL_CFG_RELOAD : Fld := ⟨ECC_CTRL, 2, 1⟩
/-- ECC_CTRL.CFG_CHECK_EN, bits 1..1, RW. -/
def ECC_CTRL_CFG_CHECK_EN : Fld := ⟨ECC_CTRL, 1, 1⟩
/-- ECC_CTRL.SCRUB_EN, bits 0..0, RW. -/
def ECC_CTRL_SCRUB_EN : Fld := ⟨ECC_CTRL, 0, 1⟩
/-- ECC_EVENT at 0x02200004 (R557). -/
def ECC_EVENT : Reg := ⟨0x02200004, BitVec.ofNat 32 (0)⟩
/-- ECC_EVENT.POISON, bits 11..11, RW1C. -/
def ECC_EVENT_POISON : Fld := ⟨ECC_EVENT, 11, 1⟩
/-- ECC_EVENT.SPILL_UE, bits 10..10, RW1C. -/
def ECC_EVENT_SPILL_UE : Fld := ⟨ECC_EVENT, 10, 1⟩
/-- ECC_EVENT.CFG_UPSET, bits 9..9, RW1C. -/
def ECC_EVENT_CFG_UPSET : Fld := ⟨ECC_EVENT, 9, 1⟩
/-- ECC_EVENT.RELOAD_FAIL, bits 8..8, RW1C. -/
def ECC_EVENT_RELOAD_FAIL : Fld := ⟨ECC_EVENT, 8, 1⟩
/-- ECC_EVENT.RELOAD, bits 7..7, RW1C. -/
def ECC_EVENT_RELOAD : Fld := ⟨ECC_EVENT, 7, 1⟩
/-- ECC_EVENT.SPARES_OUT, bits 6..6, RW1C. -/
def ECC_EVENT_SPARES_OUT : Fld := ⟨ECC_EVENT, 6, 1⟩
/-- ECC_EVENT.RETIRED, bits 5..5, RW1C. -/
def ECC_EVENT_RETIRED : Fld := ⟨ECC_EVENT, 5, 1⟩
/-- ECC_EVENT.REMAP, bits 4..4, RW1C. -/
def ECC_EVENT_REMAP : Fld := ⟨ECC_EVENT, 4, 1⟩
/-- ECC_EVENT.UE, bits 3..3, RW1C. -/
def ECC_EVENT_UE : Fld := ⟨ECC_EVENT, 3, 1⟩
/-- ECC_EVENT.CE, bits 2..2, RW1C. -/
def ECC_EVENT_CE : Fld := ⟨ECC_EVENT, 2, 1⟩
/-- ECC_EVENT.CFG_ERR, bits 0..0, RW1C. -/
def ECC_EVENT_CFG_ERR : Fld := ⟨ECC_EVENT, 0, 1⟩
/-- ECC_INIT_DONE at 0x02200008 (R558). -/
def ECC_INIT_DONE : Reg := ⟨0x02200008, BitVec.ofNat 32 (1)⟩
/-- ECC_INIT_DONE.V, bits 15..0, W1S. -/
def ECC_INIT_DONE_V : Fld := ⟨ECC_INIT_DONE, 0, 16⟩
/-- ECC_SCRUB at 0x0220000C (R558). -/
def ECC_SCRUB : Reg := ⟨0x0220000C, BitVec.ofNat 32 (4)⟩
/-- ECC_SCRUB.PERIOD_MS, bits 9..0, RW. -/
def ECC_SCRUB_PERIOD_MS : Fld := ⟨ECC_SCRUB, 0, 10⟩
/-- ECC_SCRUB_STATUS at 0x02200010 (R558). -/
def ECC_SCRUB_STATUS : Reg := ⟨0x02200010, BitVec.ofNat 32 (0)⟩
/-- ECC_SCRUB_STATUS.V, bits 31..0, RO. -/
def ECC_SCRUB_STATUS_V : Fld := ⟨ECC_SCRUB_STATUS, 0, 32⟩
/-- ECC_CFG_STATUS at 0x02200014 (R558). -/
def ECC_CFG_STATUS : Reg := ⟨0x02200014, BitVec.ofNat 32 (0)⟩
/-- ECC_CFG_STATUS.BASE, bits 11..0, RO. -/
def ECC_CFG_STATUS_BASE : Fld := ⟨ECC_CFG_STATUS, 0, 12⟩
/-- ECC_CFG_STATUS.VALID, bits 31..31, RW1C. -/
def ECC_CFG_STATUS_VALID : Fld := ⟨ECC_CFG_STATUS, 31, 1⟩
/-- ECC_CNT0 at 0x02200018 (R558). -/
def ECC_CNT0 : Reg := ⟨0x02200018, BitVec.ofNat 32 (0)⟩
/-- ECC_CNT0.CE, bits 15..0, RC. -/
def ECC_CNT0_CE : Fld := ⟨ECC_CNT0, 0, 16⟩
/-- ECC_CNT0.UE, bits 31..16, RC. -/
def ECC_CNT0_UE : Fld := ⟨ECC_CNT0, 16, 16⟩
/-- ECC_CNT1 at 0x0220001C (R558). -/
def ECC_CNT1 : Reg := ⟨0x0220001C, BitVec.ofNat 32 (0)⟩
/-- ECC_CNT1.POISON_DROP, bits 15..0, RC. -/
def ECC_CNT1_POISON_DROP : Fld := ⟨ECC_CNT1, 0, 16⟩
/-- ECC_CNT1.SPILL_UE, bits 31..16, RC. -/
def ECC_CNT1_SPILL_UE : Fld := ⟨ECC_CNT1, 16, 16⟩
/-- ECC_INJ at 0x02200020 (R558). -/
def ECC_INJ : Reg := ⟨0x02200020, BitVec.ofNat 32 (0)⟩
/-- ECC_INJ.REGION, bits 3..0, RW. -/
def ECC_INJ_REGION : Fld := ⟨ECC_INJ, 0, 4⟩
/-- ECC_INJ.MODE, bits 5..4, RW. -/
def ECC_INJ_MODE : Fld := ⟨ECC_INJ, 4, 2⟩
/-- ECC_INJ.ARM, bits 31..31, RWS. -/
def ECC_INJ_ARM : Fld := ⟨ECC_INJ, 31, 1⟩
/-- ECC_LOG_LEVEL at 0x02200030 (R558). -/
def ECC_LOG_LEVEL : Reg := ⟨0x02200030, BitVec.ofNat 32 (0)⟩
/-- ECC_LOG_LEVEL.LEVEL, bits 5..0, RO. -/
def ECC_LOG_LEVEL_LEVEL : Fld := ⟨ECC_LOG_LEVEL, 0, 6⟩
/-- ECC_LOG_LEVEL.OVF, bits 31..31, RW1C. -/
def ECC_LOG_LEVEL_OVF : Fld := ⟨ECC_LOG_LEVEL, 31, 1⟩
/-- ECC_LOG at 0x02200040, 2 words (R559). -/
def ECC_LOG : Wide := ⟨0x02200040, 2, 0⟩
/-- ECC_REG at 0x02200100, 2 words (R560). -/
def ECC_REG (r : Nat) : Wide := ⟨0x02200100 + 0x8 * r, 2, 0⟩
/-- ECC_REG.REMAPPED, bits 15..0, RO. -/
def ECC_REG_REMAPPED (r : Nat) : Fld := ⟨(ECC_REG r).word 0, 0, 16⟩
/-- ECC_REG.RETIRED, bits 31..16, RO. -/
def ECC_REG_RETIRED (r : Nat) : Fld := ⟨(ECC_REG r).word 0, 16, 16⟩
/-- ECC_REG.BACKED, bits 32..32, RO. -/
def ECC_REG_BACKED (r : Nat) : Fld := ⟨(ECC_REG r).word 1, 0, 1⟩
/-- ECC_REG.RELOADING, bits 33..33, RO. -/
def ECC_REG_RELOADING (r : Nat) : Fld := ⟨(ECC_REG r).word 1, 1, 1⟩
/-- ECC_REG.SPARES_OUT, bits 34..34, RO. -/
def ECC_REG_SPARES_OUT (r : Nat) : Fld := ⟨(ECC_REG r).word 1, 2, 1⟩
/-- PAIR_CTRL at 0x02300000 (R584). -/
def PAIR_CTRL : Reg := ⟨0x02300000, BitVec.ofNat 32 (0x2)⟩
/-- PAIR_CTRL.HO_REQ, bits 16..16, RWS. -/
def PAIR_CTRL_HO_REQ : Fld := ⟨PAIR_CTRL, 16, 1⟩
/-- PAIR_CTRL.MATE_SLOT_EN, bits 10..10, RW. -/
def PAIR_CTRL_MATE_SLOT_EN : Fld := ⟨PAIR_CTRL, 10, 1⟩
/-- PAIR_CTRL.MATE_SLOT, bits 9..8, RW. -/
def PAIR_CTRL_MATE_SLOT : Fld := ⟨PAIR_CTRL, 8, 2⟩
/-- PAIR_CTRL.DOMAIN, bits 5..4, RW. -/
def PAIR_CTRL_DOMAIN : Fld := ⟨PAIR_CTRL, 4, 2⟩
/-- PAIR_CTRL.REVERTIVE, bits 1..1, RW. -/
def PAIR_CTRL_REVERTIVE : Fld := ⟨PAIR_CTRL, 1, 1⟩
/-- PAIR_CTRL.EN, bits 0..0, RW. -/
def PAIR_CTRL_EN : Fld := ⟨PAIR_CTRL, 0, 1⟩
/-- PAIR_STATUS at 0x02300004 (R585). -/
def PAIR_STATUS : Reg := ⟨0x02300004, BitVec.ofNat 32 (0)⟩
/-- PAIR_STATUS.HEALTHY_S, bits 31..16, RO. -/
def PAIR_STATUS_HEALTHY_S : Fld := ⟨PAIR_STATUS, 16, 16⟩
/-- PAIR_STATUS.REFUSED, bits 15..12, RO. -/
def PAIR_STATUS_REFUSED : Fld := ⟨PAIR_STATUS, 12, 4⟩
/-- PAIR_STATUS.MATE_ALIVE, bits 11..11, RO. -/
def PAIR_STATUS_MATE_ALIVE : Fld := ⟨PAIR_STATUS, 11, 1⟩
/-- PAIR_STATUS.MATE_STATE, bits 10..8, RO. -/
def PAIR_STATUS_MATE_STATE : Fld := ⟨PAIR_STATUS, 8, 3⟩
/-- PAIR_STATUS.MATE_SEEN, bits 7..7, RO. -/
def PAIR_STATUS_MATE_SEEN : Fld := ⟨PAIR_STATUS, 7, 1⟩
/-- PAIR_STATUS.TLOCK, bits 6..6, RO. -/
def PAIR_STATUS_TLOCK : Fld := ⟨PAIR_STATUS, 6, 1⟩
/-- PAIR_STATUS.HEALTHY, bits 5..5, RO. -/
def PAIR_STATUS_HEALTHY : Fld := ⟨PAIR_STATUS, 5, 1⟩
/-- PAIR_STATUS.PREFERRED, bits 4..4, RO. -/
def PAIR_STATUS_PREFERRED : Fld := ⟨PAIR_STATUS, 4, 1⟩
/-- PAIR_STATUS.HO_FROM_ACTIVE, bits 3..3, RO. -/
def PAIR_STATUS_HO_FROM_ACTIVE : Fld := ⟨PAIR_STATUS, 3, 1⟩
/-- PAIR_STATUS.STATE, bits 2..0, RO. -/
def PAIR_STATUS_STATE : Fld := ⟨PAIR_STATUS, 0, 3⟩
/-- PAIR_EVENT at 0x02300008 (R586). -/
def PAIR_EVENT : Reg := ⟨0x02300008, BitVec.ofNat 32 (0)⟩
/-- PAIR_EVENT.IMAGE_DIFF, bits 12..12, RW1C. -/
def PAIR_EVENT_IMAGE_DIFF : Fld := ⟨PAIR_EVENT, 12, 1⟩
/-- PAIR_EVENT.SELFTEST_FAIL, bits 11..11, RW1C. -/
def PAIR_EVENT_SELFTEST_FAIL : Fld := ⟨PAIR_EVENT, 11, 1⟩
/-- PAIR_EVENT.SEQ_MISS, bits 10..10, RW1C. -/
def PAIR_EVENT_SEQ_MISS : Fld := ⟨PAIR_EVENT, 10, 1⟩
/-- PAIR_EVENT.ID_CLASH, bits 9..9, RW1C. -/
def PAIR_EVENT_ID_CLASH : Fld := ⟨PAIR_EVENT, 9, 1⟩
/-- PAIR_EVENT.DUAL_ACTIVE, bits 8..8, RW1C. -/
def PAIR_EVENT_DUAL_ACTIVE : Fld := ⟨PAIR_EVENT, 8, 1⟩
/-- PAIR_EVENT.DEMOTE, bits 7..7, RW1C. -/
def PAIR_EVENT_DEMOTE : Fld := ⟨PAIR_EVENT, 7, 1⟩
/-- PAIR_EVENT.HO_ABORT, bits 6..6, RW1C. -/
def PAIR_EVENT_HO_ABORT : Fld := ⟨PAIR_EVENT, 6, 1⟩
/-- PAIR_EVENT.HANDOVER, bits 5..5, RW1C. -/
def PAIR_EVENT_HANDOVER : Fld := ⟨PAIR_EVENT, 5, 1⟩
/-- PAIR_EVENT.MATE_FAIL, bits 4..4, RW1C. -/
def PAIR_EVENT_MATE_FAIL : Fld := ⟨PAIR_EVENT, 4, 1⟩
/-- PAIR_EVENT.CFG_BUSY, bits 1..1, RW1C. -/
def PAIR_EVENT_CFG_BUSY : Fld := ⟨PAIR_EVENT, 1, 1⟩
/-- PAIR_EVENT.CFG_ERR, bits 0..0, RW1C. -/
def PAIR_EVENT_CFG_ERR : Fld := ⟨PAIR_EVENT, 0, 1⟩
/-- PAIR_TIMING at 0x0230000C (R587). -/
def PAIR_TIMING : Reg := ⟨0x0230000C, BitVec.ofNat 32 (0x0064003C)⟩
/-- PAIR_TIMING.WTR, bits 11..0, RW. -/
def PAIR_TIMING_WTR : Fld := ⟨PAIR_TIMING, 0, 12⟩
/-- PAIR_TIMING.HO_LEAD, bits 25..16, RW. -/
def PAIR_TIMING_HO_LEAD : Fld := ⟨PAIR_TIMING, 16, 10⟩
/-- PAIR_SEQ at 0x02300010 (R587). -/
def PAIR_SEQ : Reg := ⟨0x02300010, BitVec.ofNat 32 (0x00080032)⟩
/-- PAIR_SEQ.WAIT, bits 9..0, RW. -/
def PAIR_SEQ_WAIT : Fld := ⟨PAIR_SEQ, 0, 10⟩
/-- PAIR_SEQ.SKIP, bits 23..16, RW. -/
def PAIR_SEQ_SKIP : Fld := ⟨PAIR_SEQ, 16, 8⟩
/-- PAIR_LOCK at 0x02300014 (R587). -/
def PAIR_LOCK : Reg := ⟨0x02300014, BitVec.ofNat 32 (0x000A0199)⟩
/-- PAIR_LOCK.LIMIT, bits 15..0, RW. -/
def PAIR_LOCK_LIMIT : Fld := ⟨PAIR_LOCK, 0, 16⟩
/-- PAIR_LOCK.LOCK_S, bits 31..16, RW. -/
def PAIR_LOCK_LOCK_S : Fld := ⟨PAIR_LOCK, 16, 16⟩
/-- PAIR_XCHK at 0x02300018 (R587). -/
def PAIR_XCHK : Reg := ⟨0x02300018, BitVec.ofNat 32 (0x00C80000)⟩
/-- PAIR_XCHK.OUT, bits 3..0, RW. -/
def PAIR_XCHK_OUT : Fld := ⟨PAIR_XCHK, 0, 4⟩
/-- PAIR_XCHK.REFIN, bits 6..4, RW. -/
def PAIR_XCHK_REFIN : Fld := ⟨PAIR_XCHK, 4, 3⟩
/-- PAIR_XCHK.EN, bits 7..7, RW. -/
def PAIR_XCHK_EN : Fld := ⟨PAIR_XCHK, 7, 1⟩
/-- PAIR_XCHK.LIMIT, bits 31..16, RW. -/
def PAIR_XCHK_LIMIT : Fld := ⟨PAIR_XCHK, 16, 16⟩
/-- PAIR_XCHK_TRIM at 0x0230001C (R587). -/
def PAIR_XCHK_TRIM : Reg := ⟨0x0230001C, BitVec.ofNat 32 (0)⟩
/-- PAIR_XCHK_TRIM.V, bits 31..0, RW. -/
def PAIR_XCHK_TRIM_V : Fld := ⟨PAIR_XCHK_TRIM, 0, 32⟩
/-- PAIR_CNT0 at 0x02300020 (R587). -/
def PAIR_CNT0 : Reg := ⟨0x02300020, BitVec.ofNat 32 (0)⟩
/-- PAIR_CNT0.SEQ_MISS, bits 15..0, RC. -/
def PAIR_CNT0_SEQ_MISS : Fld := ⟨PAIR_CNT0, 0, 16⟩
/-- PAIR_CNT0.SEQ_ORPHAN, bits 31..16, RC. -/
def PAIR_CNT0_SEQ_ORPHAN : Fld := ⟨PAIR_CNT0, 16, 16⟩
/-- PAIR_CNT1 at 0x02300024 (R587). -/
def PAIR_CNT1 : Reg := ⟨0x02300024, BitVec.ofNat 32 (0)⟩
/-- PAIR_CNT1.REPORTS_MISSED, bits 15..0, RC. -/
def PAIR_CNT1_REPORTS_MISSED : Fld := ⟨PAIR_CNT1, 0, 16⟩
/-- PAIR_CNT1.REPORTS_BAD, bits 31..16, RC. -/
def PAIR_CNT1_REPORTS_BAD : Fld := ⟨PAIR_CNT1, 16, 16⟩
/-- PAIR_CNT2 at 0x02300028 (R587). -/
def PAIR_CNT2 : Reg := ⟨0x02300028, BitVec.ofNat 32 (0)⟩
/-- PAIR_CNT2.HANDOVERS, bits 15..0, RC. -/
def PAIR_CNT2_HANDOVERS : Fld := ⟨PAIR_CNT2, 0, 16⟩
/-- PAIR_CNT2.HO_ABORTS, bits 31..16, RC. -/
def PAIR_CNT2_HO_ABORTS : Fld := ⟨PAIR_CNT2, 16, 16⟩
/-- PAIR_CNT3 at 0x0230002C (R587). -/
def PAIR_CNT3 : Reg := ⟨0x0230002C, BitVec.ofNat 32 (0)⟩
/-- PAIR_CNT3.SEQ_REC_DROP, bits 15..0, RC. -/
def PAIR_CNT3_SEQ_REC_DROP : Fld := ⟨PAIR_CNT3, 0, 16⟩
/-- PAIR_CNT3.TAKEOVERS, bits 31..16, RC. -/
def PAIR_CNT3_TAKEOVERS : Fld := ⟨PAIR_CNT3, 16, 16⟩
/-- PAIR_TEST at 0x02300030 (R587). -/
def PAIR_TEST : Reg := ⟨0x02300030, BitVec.ofNat 32 (0x00FF001F)⟩
/-- PAIR_TEST.RESULTS, bits 4..0, RO. -/
def PAIR_TEST_RESULTS : Fld := ⟨PAIR_TEST, 0, 5⟩
/-- PAIR_TEST.LANE, bits 23..16, RO. -/
def PAIR_TEST_LANE : Fld := ⟨PAIR_TEST, 16, 8⟩
/-- PAIR_MATE_REPORT at 0x02300040, 16 words (R587). -/
def PAIR_MATE_REPORT : Wide := ⟨0x02300040, 16, 0⟩
/-- PAIR_GENSEL at 0x02300400 (R587). -/
def PAIR_GENSEL (w : Nat) : Reg := ⟨0x02300400 + 0x4 * w, BitVec.ofNat 32 (0)⟩
/-- PAIR_GENSEL.V, bits 31..0, RW. -/
def PAIR_GENSEL_V (w : Nat) : Fld := ⟨PAIR_GENSEL w, 0, 32⟩
/-- PWR_CTRL at 0x02400000 (R609). -/
def PWR_CTRL : Reg := ⟨0x02400000, BitVec.ofNat 32 (0xF807)⟩
/-- PWR_CTRL.LG_CLASS, bits 15..8, RW. -/
def PWR_CTRL_LG_CLASS : Fld := ⟨PWR_CTRL, 8, 8⟩
/-- PWR_CTRL.LG_ANN_EN, bits 2..2, RW. -/
def PWR_CTRL_LG_ANN_EN : Fld := ⟨PWR_CTRL, 2, 1⟩
/-- PWR_CTRL.LG_FRAM_EN, bits 1..1, RW. -/
def PWR_CTRL_LG_FRAM_EN : Fld := ⟨PWR_CTRL, 1, 1⟩
/-- PWR_CTRL.PFAIL_EN, bits 0..0, RW. -/
def PWR_CTRL_PFAIL_EN : Fld := ⟨PWR_CTRL, 0, 1⟩
/-- PWR_STATUS at 0x02400004 (R610). -/
def PWR_STATUS : Reg := ⟨0x02400004, BitVec.ofNat 32 (0)⟩
/-- PWR_STATUS.GROUPS_SHED, bits 17..16, RO. -/
def PWR_STATUS_GROUPS_SHED : Fld := ⟨PWR_STATUS, 16, 2⟩
/-- PWR_STATUS.BELOW_HYST, bits 13..9, RO. -/
def PWR_STATUS_BELOW_HYST : Fld := ⟨PWR_STATUS, 9, 5⟩
/-- PWR_STATUS.BELOW_WARN, bits 8..4, RO. -/
def PWR_STATUS_BELOW_WARN : Fld := ⟨PWR_STATUS, 4, 5⟩
/-- PWR_STATUS.PFAIL, bits 3..3, RO. -/
def PWR_STATUS_PFAIL : Fld := ⟨PWR_STATUS, 3, 1⟩
/-- PWR_STATUS.RESTORING, bits 2..2, RO. -/
def PWR_STATUS_RESTORING : Fld := ⟨PWR_STATUS, 2, 1⟩
/-- PWR_STATUS.STAGE, bits 1..0, RO. -/
def PWR_STATUS_STAGE : Fld := ⟨PWR_STATUS, 0, 2⟩
/-- PWR_EVENT at 0x02400008 (R611). -/
def PWR_EVENT : Reg := ⟨0x02400008, BitVec.ofNat 32 (0)⟩
/-- PWR_EVENT.LG_DONE, bits 7..7, RW1C. -/
def PWR_EVENT_LG_DONE : Fld := ⟨PWR_EVENT, 7, 1⟩
/-- PWR_EVENT.RESTORED, bits 6..6, RW1C. -/
def PWR_EVENT_RESTORED : Fld := ⟨PWR_EVENT, 6, 1⟩
/-- PWR_EVENT.SHED3, bits 5..5, RW1C. -/
def PWR_EVENT_SHED3 : Fld := ⟨PWR_EVENT, 5, 1⟩
/-- PWR_EVENT.SHED2, bits 4..4, RW1C. -/
def PWR_EVENT_SHED2 : Fld := ⟨PWR_EVENT, 4, 1⟩
/-- PWR_EVENT.SHED1, bits 3..3, RW1C. -/
def PWR_EVENT_SHED1 : Fld := ⟨PWR_EVENT, 3, 1⟩
/-- PWR_EVENT.PFAIL, bits 2..2, RW1C. -/
def PWR_EVENT_PFAIL : Fld := ⟨PWR_EVENT, 2, 1⟩
/-- PWR_EVENT.WARN, bits 1..1, RW1C. -/
def PWR_EVENT_WARN : Fld := ⟨PWR_EVENT, 1, 1⟩
/-- PWR_EVENT.CFG_ERR, bits 0..0, RW1C. -/
def PWR_EVENT_CFG_ERR : Fld := ⟨PWR_EVENT, 0, 1⟩
/-- PWR_RESTORE_HOLD at 0x0240000C (R612). -/
def PWR_RESTORE_HOLD : Reg := ⟨0x0240000C, BitVec.ofNat 32 (0xA)⟩
/-- PWR_RESTORE_HOLD.V, bits 9..0, RW. -/
def PWR_RESTORE_HOLD_V : Fld := ⟨PWR_RESTORE_HOLD, 0, 10⟩
/-- PWR_CNT at 0x02400010 (R612). -/
def PWR_CNT : Reg := ⟨0x02400010, BitVec.ofNat 32 (0)⟩
/-- PWR_CNT.TRIGGERS, bits 15..0, RC. -/
def PWR_CNT_TRIGGERS : Fld := ⟨PWR_CNT, 0, 16⟩
/-- PWR_CNT.SHED3, bits 31..16, RC. -/
def PWR_CNT_SHED3 : Fld := ⟨PWR_CNT, 16, 16⟩
/-- PWR_LAST at 0x02400014, 3 words (R612). -/
def PWR_LAST : Wide := ⟨0x02400014, 3, 0⟩
/-- FLT_MAJOR at 0x02400100 (R613). -/
def FLT_MAJOR : Reg := ⟨0x02400100, BitVec.ofNat 32 (0)⟩
/-- FLT_MAJOR.B, bits 11..0, RW1C. -/
def FLT_MAJOR_B : Fld := ⟨FLT_MAJOR, 0, 12⟩
/-- FLT_MINOR at 0x02400104 (R614). -/
def FLT_MINOR : Reg := ⟨0x02400104, BitVec.ofNat 32 (0)⟩
/-- FLT_MINOR.B, bits 4..0, RW1C. -/
def FLT_MINOR_B : Fld := ⟨FLT_MINOR, 0, 5⟩
/-- LDR_STATUS at 0x02500000 (R641). -/
def LDR_STATUS : Reg := ⟨0x02500000, BitVec.ofNat 32 (0x300)⟩
/-- LDR_STATUS.SECTION, bits 29..24, RO. -/
def LDR_STATUS_SECTION : Fld := ⟨LDR_STATUS, 24, 6⟩
/-- LDR_STATUS.BOOT_SEL, bits 11..10, RO. -/
def LDR_STATUS_BOOT_SEL : Fld := ⟨LDR_STATUS, 10, 2⟩
/-- LDR_STATUS.SOURCE, bits 9..8, RO. -/
def LDR_STATUS_SOURCE : Fld := ⟨LDR_STATUS, 8, 2⟩
/-- LDR_STATUS.PHASE, bits 3..0, RO. -/
def LDR_STATUS_PHASE : Fld := ⟨LDR_STATUS, 0, 4⟩
/-- LDR_EVENT at 0x02500004 (R642). -/
def LDR_EVENT : Reg := ⟨0x02500004, BitVec.ofNat 32 (0)⟩
/-- LDR_EVENT.RELOAD, bits 10..10, RW1C. -/
def LDR_EVENT_RELOAD : Fld := ⟨LDR_EVENT, 10, 1⟩
/-- LDR_EVENT.DONE, bits 9..9, RW1C. -/
def LDR_EVENT_DONE : Fld := ⟨LDR_EVENT, 9, 1⟩
/-- LDR_EVENT.WRITE_REJ, bits 8..8, RW1C. -/
def LDR_EVENT_WRITE_REJ : Fld := ⟨LDR_EVENT, 8, 1⟩
/-- LDR_EVENT.WAIT_EXPIRED, bits 7..7, RW1C. -/
def LDR_EVENT_WAIT_EXPIRED : Fld := ⟨LDR_EVENT, 7, 1⟩
/-- LDR_EVENT.SECTION_RETRY, bits 6..6, RW1C. -/
def LDR_EVENT_SECTION_RETRY : Fld := ⟨LDR_EVENT, 6, 1⟩
/-- LDR_EVENT.FAIL_HOST, bits 5..5, RW1C. -/
def LDR_EVENT_FAIL_HOST : Fld := ⟨LDR_EVENT, 5, 1⟩
/-- LDR_EVENT.FAIL_B, bits 4..4, RW1C. -/
def LDR_EVENT_FAIL_B : Fld := ⟨LDR_EVENT, 4, 1⟩
/-- LDR_EVENT.FAIL_A, bits 3..3, RW1C. -/
def LDR_EVENT_FAIL_A : Fld := ⟨LDR_EVENT, 3, 1⟩
/-- LDR_EVENT.HOST_DISCARD, bits 2..2, RW1C. -/
def LDR_EVENT_HOST_DISCARD : Fld := ⟨LDR_EVENT, 2, 1⟩
/-- LDR_EVENT.CFG_ERR, bits 0..0, RW1C. -/
def LDR_EVENT_CFG_ERR : Fld := ⟨LDR_EVENT, 0, 1⟩
/-- LDR_FAIL at 0x02500008 (R644). -/
def LDR_FAIL : Reg := ⟨0x02500008, BitVec.ofNat 32 (0)⟩
/-- LDR_FAIL.CAUSE_A, bits 7..0, RO. -/
def LDR_FAIL_CAUSE_A : Fld := ⟨LDR_FAIL, 0, 8⟩
/-- LDR_FAIL.CAUSE_B, bits 15..8, RO. -/
def LDR_FAIL_CAUSE_B : Fld := ⟨LDR_FAIL, 8, 8⟩
/-- LDR_FAIL.CAUSE_HOST, bits 23..16, RO. -/
def LDR_FAIL_CAUSE_HOST : Fld := ⟨LDR_FAIL, 16, 8⟩
/-- LDR_FAIL_OFFSET at 0x0250000C (R644). -/
def LDR_FAIL_OFFSET : Reg := ⟨0x0250000C, BitVec.ofNat 32 (0)⟩
/-- LDR_FAIL_OFFSET.V, bits 23..0, RO. -/
def LDR_FAIL_OFFSET_V : Fld := ⟨LDR_FAIL_OFFSET, 0, 24⟩
/-- LDR_CFG at 0x02500010 (R643). -/
def LDR_CFG : Reg := ⟨0x02500010, BitVec.ofNat 32 (0xC8)⟩
/-- LDR_CFG.HOST_TO, bits 27..16, RW. -/
def LDR_CFG_HOST_TO : Fld := ⟨LDR_CFG, 16, 12⟩
/-- LDR_CFG.LOAD_TO, bits 12..0, RW. -/
def LDR_CFG_LOAD_TO : Fld := ⟨LDR_CFG, 0, 13⟩
/-- LDR_OTP at 0x02500014 (R644). -/
def LDR_OTP : Reg := ⟨0x02500014, BitVec.ofNat 32 (0)⟩
/-- LDR_OTP.SECURE, bits 0..0, RO. -/
def LDR_OTP_SECURE : Fld := ⟨LDR_OTP, 0, 1⟩
/-- LDR_OTP.KEY_HASH_SET, bits 1..1, RO. -/
def LDR_OTP_KEY_HASH_SET : Fld := ⟨LDR_OTP, 1, 1⟩
/-- LDR_IMAGE_VER at 0x02500018 (R644). -/
def LDR_IMAGE_VER : Reg := ⟨0x02500018, BitVec.ofNat 32 (0)⟩
/-- LDR_IMAGE_VER.V, bits 31..0, RO. -/
def LDR_IMAGE_VER_V : Fld := ⟨LDR_IMAGE_VER, 0, 32⟩
/-- LDR_LOAD_TIME at 0x0250001C (R644). -/
def LDR_LOAD_TIME : Reg := ⟨0x0250001C, BitVec.ofNat 32 (0)⟩
/-- LDR_LOAD_TIME.V, bits 31..0, RO. -/
def LDR_LOAD_TIME_V : Fld := ⟨LDR_LOAD_TIME, 0, 32⟩
/-- LDR_HOST_CTRL at 0x02500020 (R644). -/
def LDR_HOST_CTRL : Reg := ⟨0x02500020, BitVec.ofNat 32 (0)⟩
/-- LDR_HOST_CTRL.START, bits 0..0, RWS. -/
def LDR_HOST_CTRL_START : Fld := ⟨LDR_HOST_CTRL, 0, 1⟩
/-- LDR_HOST_CTRL.ABORT, bits 1..1, WO. -/
def LDR_HOST_CTRL_ABORT : Fld := ⟨LDR_HOST_CTRL, 1, 1⟩
/-- LDR_HOST_STATUS at 0x02500024 (R644). -/
def LDR_HOST_STATUS : Reg := ⟨0x02500024, BitVec.ofNat 32 (0x400)⟩
/-- LDR_HOST_STATUS.SPACE, bits 10..0, RO. -/
def LDR_HOST_STATUS_SPACE : Fld := ⟨LDR_HOST_STATUS, 0, 11⟩
/-- LDR_HOST_STATUS.WAITING, bits 16..16, RO. -/
def LDR_HOST_STATUS_WAITING : Fld := ⟨LDR_HOST_STATUS, 16, 1⟩
/-- LDR_HOST_FIFO at 0x02500028 (R644). -/
def LDR_HOST_FIFO : Reg := ⟨0x02500028, BitVec.ofNat 32 (0)⟩
/-- LDR_HOST_FIFO.V, bits 31..0, WO. -/
def LDR_HOST_FIFO_V : Fld := ⟨LDR_HOST_FIFO, 0, 32⟩
/-- LDR_CNT at 0x0250002C (R644). -/
def LDR_CNT : Reg := ⟨0x0250002C, BitVec.ofNat 32 (0)⟩
/-- LDR_CNT.WRITE_REJ, bits 15..0, RC. -/
def LDR_CNT_WRITE_REJ : Fld := ⟨LDR_CNT, 0, 16⟩
/-- LDR_CNT.SECTION_RETRY, bits 31..16, RC. -/
def LDR_CNT_SECTION_RETRY : Fld := ⟨LDR_CNT, 16, 16⟩
/-- MGT_PRIV at 0x02600000 (R680). -/
def MGT_PRIV : Reg := ⟨0x02600000, BitVec.ofNat 32 (0xA)⟩
/-- MGT_PRIV.LOCK, bits 31..31, W1S. -/
def MGT_PRIV_LOCK : Fld := ⟨MGT_PRIV, 31, 1⟩
/-- MGT_PRIV.MMP, bits 5..4, RW. -/
def MGT_PRIV_MMP : Fld := ⟨MGT_PRIV, 4, 2⟩
/-- MGT_PRIV.SPI, bits 3..2, RW. -/
def MGT_PRIV_SPI : Fld := ⟨MGT_PRIV, 2, 2⟩
/-- MGT_PRIV.PCIE, bits 1..0, RW. -/
def MGT_PRIV_PCIE : Fld := ⟨MGT_PRIV, 0, 2⟩
/-- MGT_EVENT at 0x02600004 (R681). -/
def MGT_EVENT : Reg := ⟨0x02600004, BitVec.ofNat 32 (0)⟩
/-- MGT_EVENT.MMP_DROP, bits 8..8, RW1C. -/
def MGT_EVENT_MMP_DROP : Fld := ⟨MGT_EVENT, 8, 1⟩
/-- MGT_EVENT.MOD_ERR, bits 7..7, RW1C. -/
def MGT_EVENT_MOD_ERR : Fld := ⟨MGT_EVENT, 7, 1⟩
/-- MGT_EVENT.MOD_DONE, bits 6..6, RW1C. -/
def MGT_EVENT_MOD_DONE : Fld := ⟨MGT_EVENT, 6, 1⟩
/-- MGT_EVENT.DMA_ERR, bits 5..5, RW1C. -/
def MGT_EVENT_DMA_ERR : Fld := ⟨MGT_EVENT, 5, 1⟩
/-- MGT_EVENT.ACC_TO, bits 4..4, RW1C. -/
def MGT_EVENT_ACC_TO : Fld := ⟨MGT_EVENT, 4, 1⟩
/-- MGT_EVENT.PRIV, bits 3..3, RW1C. -/
def MGT_EVENT_PRIV : Fld := ⟨MGT_EVENT, 3, 1⟩
/-- MGT_EVENT.CFG_BUSY, bits 1..1, RW1C. -/
def MGT_EVENT_CFG_BUSY : Fld := ⟨MGT_EVENT, 1, 1⟩
/-- MGT_EVENT.CFG_ERR, bits 0..0, RW1C. -/
def MGT_EVENT_CFG_ERR : Fld := ⟨MGT_EVENT, 0, 1⟩
/-- MGT_PRIV_LOG at 0x02600008, 2 words (R682). -/
def MGT_PRIV_LOG : Wide := ⟨0x02600008, 2, 0⟩
/-- MGT_PRIV_LOG.ADDR, bits 31..0, RO. -/
def MGT_PRIV_LOG_ADDR : Fld := ⟨(MGT_PRIV_LOG).word 0, 0, 32⟩
/-- MGT_PRIV_LOG.MASTER, bits 34..32, RO. -/
def MGT_PRIV_LOG_MASTER : Fld := ⟨(MGT_PRIV_LOG).word 1, 0, 3⟩
/-- MGT_PRIV_LOG.LEVEL, bits 36..35, RO. -/
def MGT_PRIV_LOG_LEVEL : Fld := ⟨(MGT_PRIV_LOG).word 1, 3, 2⟩
/-- MGT_PRIV_LOG.OVERFLOW, bits 62..62, RW1C. -/
def MGT_PRIV_LOG_OVERFLOW : Fld := ⟨(MGT_PRIV_LOG).word 1, 30, 1⟩
/-- MGT_PRIV_LOG.VALID, bits 63..63, RW1C. -/
def MGT_PRIV_LOG_VALID : Fld := ⟨(MGT_PRIV_LOG).word 1, 31, 1⟩
/-- MGT_CFG at 0x02600010 (R682). -/
def MGT_CFG : Reg := ⟨0x02600010, BitVec.ofNat 32 (0xA)⟩
/-- MGT_CFG.ACC_TO, bits 9..0, RW. -/
def MGT_CFG_ACC_TO : Fld := ⟨MGT_CFG, 0, 10⟩
/-- MGT_IRQ_SRC at 0x02600020 (R664). -/
def MGT_IRQ_SRC : Reg := ⟨0x02600020, BitVec.ofNat 32 (0)⟩
/-- MGT_IRQ_SRC.V, bits 31..0, RO. -/
def MGT_IRQ_SRC_V : Fld := ⟨MGT_IRQ_SRC, 0, 32⟩
/-- MGT_IRQ_EN at 0x02600024 (R665). -/
def MGT_IRQ_EN : Reg := ⟨0x02600024, BitVec.ofNat 32 (0)⟩
/-- MGT_IRQ_EN.V, bits 31..0, RW. -/
def MGT_IRQ_EN_V : Fld := ⟨MGT_IRQ_EN, 0, 32⟩
/-- MGT_IRQ_PIN_EN at 0x02600028 (R665). -/
def MGT_IRQ_PIN_EN : Reg := ⟨0x02600028, BitVec.ofNat 32 (0)⟩
/-- MGT_IRQ_PIN_EN.V, bits 31..0, RW. -/
def MGT_IRQ_PIN_EN_V : Fld := ⟨MGT_IRQ_PIN_EN, 0, 32⟩
/-- MGT_IRQ_REARM at 0x0260002C (R665). -/
def MGT_IRQ_REARM : Reg := ⟨0x0260002C, BitVec.ofNat 32 (0)⟩
/-- MGT_IRQ_REARM.V, bits 31..0, WO. -/
def MGT_IRQ_REARM_V : Fld := ⟨MGT_IRQ_REARM, 0, 32⟩
/-- MGT_IRQ_VEC at 0x02600040 (R682). -/
def MGT_IRQ_VEC (i : Nat) : Reg := ⟨0x02600040 + 0x4 * i, BitVec.ofNat 32 (0x03020100+0x04040404*i)⟩
/-- MGT_IRQ_VEC.V0, bits 4..0, RW. -/
def MGT_IRQ_VEC_V0 (i : Nat) : Fld := ⟨MGT_IRQ_VEC i, 0, 5⟩
/-- MGT_IRQ_VEC.V1, bits 12..8, RW. -/
def MGT_IRQ_VEC_V1 (i : Nat) : Fld := ⟨MGT_IRQ_VEC i, 8, 5⟩
/-- MGT_IRQ_VEC.V2, bits 20..16, RW. -/
def MGT_IRQ_VEC_V2 (i : Nat) : Fld := ⟨MGT_IRQ_VEC i, 16, 5⟩
/-- MGT_IRQ_VEC.V3, bits 28..24, RW. -/
def MGT_IRQ_VEC_V3 (i : Nat) : Fld := ⟨MGT_IRQ_VEC i, 24, 5⟩
/-- MGT_LN_SUMMARY at 0x02600060, 3 words (R682). -/
def MGT_LN_SUMMARY : Wide := ⟨0x02600060, 3, 0⟩
/-- MGT_MAC_SUMMARY at 0x02600070, 3 words (R682). -/
def MGT_MAC_SUMMARY : Wide := ⟨0x02600070, 3, 0⟩
/-- MGT_DMA_CTRL at 0x02600100 (R682). -/
def MGT_DMA_CTRL : Reg := ⟨0x02600100, BitVec.ofNat 32 (0)⟩
/-- MGT_DMA_CTRL.EN, bits 0..0, RW. -/
def MGT_DMA_CTRL_EN : Fld := ⟨MGT_DMA_CTRL, 0, 1⟩
/-- MGT_DMA_CTRL.LB_RING, bits 10..8, RW. -/
def MGT_DMA_CTRL_LB_RING : Fld := ⟨MGT_DMA_CTRL, 8, 3⟩
/-- MGT_DMA_EVENT at 0x02600104 (R682). -/
def MGT_DMA_EVENT : Reg := ⟨0x02600104, BitVec.ofNat 32 (0)⟩
/-- MGT_DMA_EVENT.V, bits 15..0, RW1C. -/
def MGT_DMA_EVENT_V : Fld := ⟨MGT_DMA_EVENT, 0, 16⟩
/-- MGT_RING_BASE at 0x02600200, 2 words (R683). -/
def MGT_RING_BASE (i : Nat) : Wide := ⟨0x02600200 + 0x20 * i, 2, 0⟩
/-- MGT_RING_SIZE at 0x02600208 (R683). -/
def MGT_RING_SIZE (i : Nat) : Reg := ⟨0x02600208 + 0x20 * i, BitVec.ofNat 32 (0x40)⟩
/-- MGT_RING_SIZE.V, bits 12..0, RW. -/
def MGT_RING_SIZE_V (i : Nat) : Fld := ⟨MGT_RING_SIZE i, 0, 13⟩
/-- MGT_RING_HEAD at 0x0260020C (R683). -/
def MGT_RING_HEAD (i : Nat) : Reg := ⟨0x0260020C + 0x20 * i, BitVec.ofNat 32 (0)⟩
/-- MGT_RING_HEAD.V, bits 11..0, RO. -/
def MGT_RING_HEAD_V (i : Nat) : Fld := ⟨MGT_RING_HEAD i, 0, 12⟩
/-- MGT_RING_TAIL at 0x02600210 (R683). -/
def MGT_RING_TAIL (i : Nat) : Reg := ⟨0x02600210 + 0x20 * i, BitVec.ofNat 32 (0)⟩
/-- MGT_RING_TAIL.V, bits 11..0, RW. -/
def MGT_RING_TAIL_V (i : Nat) : Fld := ⟨MGT_RING_TAIL i, 0, 12⟩
/-- MGT_RING_EN at 0x02600214 (R683). -/
def MGT_RING_EN (i : Nat) : Reg := ⟨0x02600214 + 0x20 * i, BitVec.ofNat 32 (0)⟩
/-- MGT_RING_EN.V, bits 0..0, RW. -/
def MGT_RING_EN_V (i : Nat) : Fld := ⟨MGT_RING_EN i, 0, 1⟩
/-- MGT_RING_FRAMES at 0x02600218 (R683). -/
def MGT_RING_FRAMES (i : Nat) : Reg := ⟨0x02600218 + 0x20 * i, BitVec.ofNat 32 (0)⟩
/-- MGT_RING_FRAMES.V, bits 31..0, RC. -/
def MGT_RING_FRAMES_V (i : Nat) : Fld := ⟨MGT_RING_FRAMES i, 0, 32⟩
/-- MGT_MMP_CFG at 0x02600400 (R682). -/
def MGT_MMP_CFG : Reg := ⟨0x02600400, BitVec.ofNat 32 (0x700)⟩
/-- MGT_MMP_CFG.EN, bits 0..0, RW. -/
def MGT_MMP_CFG_EN : Fld := ⟨MGT_MMP_CFG, 0, 1⟩
/-- MGT_MMP_CFG.TC, bits 10..8, RW. -/
def MGT_MMP_CFG_TC : Fld := ⟨MGT_MMP_CFG, 8, 3⟩
/-- MGT_MMP_CFG.KEY_SET, bits 16..16, RO. -/
def MGT_MMP_CFG_KEY_SET : Fld := ⟨MGT_MMP_CFG, 16, 1⟩
/-- MGT_MMP_MAC at 0x02600404, 2 words (R682). -/
def MGT_MMP_MAC : Wide := ⟨0x02600404, 2, 0⟩
/-- MGT_MMP_LAST_SEQ at 0x02600410, 2 words (R682). -/
def MGT_MMP_LAST_SEQ : Wide := ⟨0x02600410, 2, 0⟩
/-- MGT_MMP_CNT at 0x02600418 (R682). -/
def MGT_MMP_CNT : Reg := ⟨0x02600418, BitVec.ofNat 32 (0)⟩
/-- MGT_MMP_CNT.FORMAT, bits 7..0, RC. -/
def MGT_MMP_CNT_FORMAT : Fld := ⟨MGT_MMP_CNT, 0, 8⟩
/-- MGT_MMP_CNT.AUTH, bits 15..8, RC. -/
def MGT_MMP_CNT_AUTH : Fld := ⟨MGT_MMP_CNT, 8, 8⟩
/-- MGT_MMP_CNT.REPLAY, bits 23..16, RC. -/
def MGT_MMP_CNT_REPLAY : Fld := ⟨MGT_MMP_CNT, 16, 8⟩
/-- MGT_MMP_CNT.BUSY, bits 31..24, RC. -/
def MGT_MMP_CNT_BUSY : Fld := ⟨MGT_MMP_CNT, 24, 8⟩
/-- MGT_MMP_ACCEPTED at 0x0260041C (R682). -/
def MGT_MMP_ACCEPTED : Reg := ⟨0x0260041C, BitVec.ofNat 32 (0)⟩
/-- MGT_MMP_ACCEPTED.V, bits 31..0, RC. -/
def MGT_MMP_ACCEPTED_V : Fld := ⟨MGT_MMP_ACCEPTED, 0, 32⟩
/-- MGT_MMP_KEY at 0x02600420, 8 words (R682). -/
def MGT_MMP_KEY : Wide := ⟨0x02600420, 8, 0⟩
/-- MGT_MMP_PORTS at 0x02600440, 3 words (R682). -/
def MGT_MMP_PORTS : Wide := ⟨0x02600440, 3, 0⟩
/-- MGT_I2C_CFG at 0x02601000 (R684). -/
def MGT_I2C_CFG (i : Nat) : Reg := ⟨0x02601000 + 0x100 * i, BitVec.ofNat 32 (0x57000)⟩
/-- MGT_I2C_CFG.EN, bits 0..0, RW. -/
def MGT_I2C_CFG_EN (i : Nat) : Fld := ⟨MGT_I2C_CFG i, 0, 1⟩
/-- MGT_I2C_CFG.FAST, bits 1..1, RW. -/
def MGT_I2C_CFG_FAST (i : Nat) : Fld := ⟨MGT_I2C_CFG i, 1, 1⟩
/-- MGT_I2C_CFG.MUX_EN, bits 2..2, RW. -/
def MGT_I2C_CFG_MUX_EN (i : Nat) : Fld := ⟨MGT_I2C_CFG i, 2, 1⟩
/-- MGT_I2C_CFG.MUX_ADDR, bits 14..8, RW. -/
def MGT_I2C_CFG_MUX_ADDR (i : Nat) : Fld := ⟨MGT_I2C_CFG i, 8, 7⟩
/-- MGT_I2C_CFG.WR_WAIT, bits 23..16, RW. -/
def MGT_I2C_CFG_WR_WAIT (i : Nat) : Fld := ⟨MGT_I2C_CFG i, 16, 8⟩
/-- MGT_I2C_CMD at 0x02601004 (R684). -/
def MGT_I2C_CMD (i : Nat) : Reg := ⟨0x02601004 + 0x100 * i, BitVec.ofNat 32 (0x5000)⟩
/-- MGT_I2C_CMD.GO, bits 0..0, RWS. -/
def MGT_I2C_CMD_GO (i : Nat) : Fld := ⟨MGT_I2C_CMD i, 0, 1⟩
/-- MGT_I2C_CMD.WRITE, bits 1..1, RW. -/
def MGT_I2C_CMD_WRITE (i : Nat) : Fld := ⟨MGT_I2C_CMD i, 1, 1⟩
/-- MGT_I2C_CMD.PAGE_EN, bits 2..2, RW. -/
def MGT_I2C_CMD_PAGE_EN (i : Nat) : Fld := ⟨MGT_I2C_CMD i, 2, 1⟩
/-- MGT_I2C_CMD.MUX_CH, bits 7..5, RW. -/
def MGT_I2C_CMD_MUX_CH (i : Nat) : Fld := ⟨MGT_I2C_CMD i, 5, 3⟩
/-- MGT_I2C_CMD.DEV, bits 14..8, RW. -/
def MGT_I2C_CMD_DEV (i : Nat) : Fld := ⟨MGT_I2C_CMD i, 8, 7⟩
/-- MGT_I2C_CMD.OFFSET, bits 23..16, RW. -/
def MGT_I2C_CMD_OFFSET (i : Nat) : Fld := ⟨MGT_I2C_CMD i, 16, 8⟩
/-- MGT_I2C_CMD.PAGE, bits 31..24, RW. -/
def MGT_I2C_CMD_PAGE (i : Nat) : Fld := ⟨MGT_I2C_CMD i, 24, 8⟩
/-- MGT_I2C_LEN at 0x02601008 (R684). -/
def MGT_I2C_LEN (i : Nat) : Reg := ⟨0x02601008 + 0x100 * i, BitVec.ofNat 32 (1)⟩
/-- MGT_I2C_LEN.V, bits 7..0, RW. -/
def MGT_I2C_LEN_V (i : Nat) : Fld := ⟨MGT_I2C_LEN i, 0, 8⟩
/-- MGT_I2C_STATUS at 0x0260100C (R684). -/
def MGT_I2C_STATUS (i : Nat) : Reg := ⟨0x0260100C + 0x100 * i, BitVec.ofNat 32 (0)⟩
/-- MGT_I2C_STATUS.BUSY, bits 0..0, RO. -/
def MGT_I2C_STATUS_BUSY (i : Nat) : Fld := ⟨MGT_I2C_STATUS i, 0, 1⟩
/-- MGT_I2C_STATUS.RESULT, bits 3..1, RO. -/
def MGT_I2C_STATUS_RESULT (i : Nat) : Fld := ⟨MGT_I2C_STATUS i, 1, 3⟩
/-- MGT_I2C_STATUS.BYTES, bits 15..8, RO. -/
def MGT_I2C_STATUS_BYTES (i : Nat) : Fld := ⟨MGT_I2C_STATUS i, 8, 8⟩
/-- MGT_I2C_DATA at 0x02601080 (R684). -/
def MGT_I2C_DATA (i : Nat) (j : Nat) : Reg := ⟨0x02601080 + 0x100 * i + 0x4 * j, BitVec.ofNat 32 (0)⟩
/-- MGT_I2C_DATA.V, bits 31..0, RW. -/
def MGT_I2C_DATA_V (i : Nat) (j : Nat) : Fld := ⟨MGT_I2C_DATA i j, 0, 32⟩
/-- MGT_MDIO_CFG at 0x02601400 (R684). -/
def MGT_MDIO_CFG : Reg := ⟨0x02601400, BitVec.ofNat 32 (0x18)⟩
/-- MGT_MDIO_CFG.DIV, bits 7..0, RW. -/
def MGT_MDIO_CFG_DIV : Fld := ⟨MGT_MDIO_CFG, 0, 8⟩
/-- MGT_MDIO_CMD at 0x02601404 (R684). -/
def MGT_MDIO_CMD : Reg := ⟨0x02601404, BitVec.ofNat 32 (0)⟩
/-- MGT_MDIO_CMD.GO, bits 0..0, RWS. -/
def MGT_MDIO_CMD_GO : Fld := ⟨MGT_MDIO_CMD, 0, 1⟩
/-- MGT_MDIO_CMD.OP, bits 3..1, RW. -/
def MGT_MDIO_CMD_OP : Fld := ⟨MGT_MDIO_CMD, 1, 3⟩
/-- MGT_MDIO_CMD.PHYAD, bits 8..4, RW. -/
def MGT_MDIO_CMD_PHYAD : Fld := ⟨MGT_MDIO_CMD, 4, 5⟩
/-- MGT_MDIO_CMD.REGAD, bits 13..9, RW. -/
def MGT_MDIO_CMD_REGAD : Fld := ⟨MGT_MDIO_CMD, 9, 5⟩
/-- MGT_MDIO_CMD.DATA, bits 31..16, RW. -/
def MGT_MDIO_CMD_DATA : Fld := ⟨MGT_MDIO_CMD, 16, 16⟩
/-- MGT_MDIO_STATUS at 0x02601408 (R684). -/
def MGT_MDIO_STATUS : Reg := ⟨0x02601408, BitVec.ofNat 32 (0)⟩
/-- MGT_MDIO_STATUS.BUSY, bits 0..0, RO. -/
def MGT_MDIO_STATUS_BUSY : Fld := ⟨MGT_MDIO_STATUS, 0, 1⟩
/-- MGT_MDIO_STATUS.RDATA, bits 31..16, RO. -/
def MGT_MDIO_STATUS_RDATA : Fld := ⟨MGT_MDIO_STATUS, 16, 16⟩
/-- PMC_CTRL at 0x02700000 (R686). -/
def PMC_CTRL : Reg := ⟨0x02700000, BitVec.ofNat 32 (0)⟩
/-- PMC_CTRL.FREEZE, bits 0..0, RW. -/
def PMC_CTRL_FREEZE : Fld := ⟨PMC_CTRL, 0, 1⟩
/-- PMC_CTRL.CLEAR, bits 1..1, RWS. -/
def PMC_CTRL_CLEAR : Fld := ⟨PMC_CTRL, 1, 1⟩
/-- PMC_OVF at 0x02700004, 2 words (R686). -/
def PMC_OVF : Wide := ⟨0x02700004, 2, 0⟩
/-- PMC_EVENT at 0x0270000C (R686). -/
def PMC_EVENT : Reg := ⟨0x0270000C, BitVec.ofNat 32 (0)⟩
/-- PMC_EVENT.CFG_ERR, bits 0..0, RW1C. -/
def PMC_EVENT_CFG_ERR : Fld := ⟨PMC_EVENT, 0, 1⟩
/-- PMC_EVENT.CFG_BUSY, bits 1..1, RW1C. -/
def PMC_EVENT_CFG_BUSY : Fld := ⟨PMC_EVENT, 1, 1⟩
/-- PMC_EVENT.OVF, bits 2..2, RW1C. -/
def PMC_EVENT_OVF : Fld := ⟨PMC_EVENT, 2, 1⟩
/-- PMC_EVENT.DUMP, bits 3..3, RW1C. -/
def PMC_EVENT_DUMP : Fld := ⟨PMC_EVENT, 3, 1⟩
/-- PMC_EVENT.DUMP_LOST, bits 4..4, RW1C. -/
def PMC_EVENT_DUMP_LOST : Fld := ⟨PMC_EVENT, 4, 1⟩
/-- PMC_DUMP_CTRL at 0x02700010 (R686). -/
def PMC_DUMP_CTRL : Reg := ⟨0x02700010, BitVec.ofNat 32 (0x03E80000)⟩
/-- PMC_DUMP_CTRL.EN, bits 0..0, RW. -/
def PMC_DUMP_CTRL_EN : Fld := ⟨PMC_DUMP_CTRL, 0, 1⟩
/-- PMC_DUMP_CTRL.DEST, bits 1..1, RW. -/
def PMC_DUMP_CTRL_DEST : Fld := ⟨PMC_DUMP_CTRL, 1, 1⟩
/-- PMC_DUMP_CTRL.NOW, bits 2..2, RWS. -/
def PMC_DUMP_CTRL_NOW : Fld := ⟨PMC_DUMP_CTRL, 2, 1⟩
/-- PMC_DUMP_CTRL.PERIOD, bits 31..16, RW. -/
def PMC_DUMP_CTRL_PERIOD : Fld := ⟨PMC_DUMP_CTRL, 16, 16⟩
/-- PMC_DUMP_STATUS at 0x02700014 (R686). -/
def PMC_DUMP_STATUS : Reg := ⟨0x02700014, BitVec.ofNat 32 (0)⟩
/-- PMC_DUMP_STATUS.CHIP_WR, bits 6..0, RO. -/
def PMC_DUMP_STATUS_CHIP_WR : Fld := ⟨PMC_DUMP_STATUS, 0, 7⟩
/-- PMC_DUMP_STATUS.PAUSED, bits 16..16, RO. -/
def PMC_DUMP_STATUS_PAUSED : Fld := ⟨PMC_DUMP_STATUS, 16, 1⟩
/-- PMC_DUMP_SEQ at 0x02700018 (R686). -/
def PMC_DUMP_SEQ : Reg := ⟨0x02700018, BitVec.ofNat 32 (0)⟩
/-- PMC_DUMP_SEQ.V, bits 31..0, RO. -/
def PMC_DUMP_SEQ_V : Fld := ⟨PMC_DUMP_SEQ, 0, 32⟩
/-- PMC_DUMP_LOST at 0x0270001C (R686). -/
def PMC_DUMP_LOST : Reg := ⟨0x0270001C, BitVec.ofNat 32 (0)⟩
/-- PMC_DUMP_LOST.V, bits 31..0, RC. -/
def PMC_DUMP_LOST_V : Fld := ⟨PMC_DUMP_LOST, 0, 32⟩
/-- PMC_DUMP_HOST_BASE at 0x02700020, 2 words (R686). -/
def PMC_DUMP_HOST_BASE : Wide := ⟨0x02700020, 2, 0⟩
/-- PMC_DUMP_HOST_SIZE at 0x02700028 (R686). -/
def PMC_DUMP_HOST_SIZE : Reg := ⟨0x02700028, BitVec.ofNat 32 (0x10)⟩
/-- PMC_DUMP_HOST_SIZE.V, bits 16..0, RW. -/
def PMC_DUMP_HOST_SIZE_V : Fld := ⟨PMC_DUMP_HOST_SIZE, 0, 17⟩
/-- PMC_DUMP_HOST_WR at 0x0270002C (R686). -/
def PMC_DUMP_HOST_WR : Reg := ⟨0x0270002C, BitVec.ofNat 32 (0)⟩
/-- PMC_DUMP_HOST_WR.V, bits 15..0, RO. -/
def PMC_DUMP_HOST_WR_V : Fld := ⟨PMC_DUMP_HOST_WR, 0, 16⟩
/-- PMC_DUMP_HOST_RD at 0x02700030 (R686). -/
def PMC_DUMP_HOST_RD : Reg := ⟨0x02700030, BitVec.ofNat 32 (0)⟩
/-- PMC_DUMP_HOST_RD.V, bits 15..0, RW. -/
def PMC_DUMP_HOST_RD_V : Fld := ⟨PMC_DUMP_HOST_RD, 0, 16⟩
/-- PMC_CNT_CFG at 0x02700100 (R685). -/
def PMC_CNT_CFG (i : Nat) : Reg := ⟨0x02700100 + 0x20 * i, BitVec.ofNat 32 (0x3FEFF000)⟩
/-- PMC_CNT_CFG.EN, bits 31..31, RW. -/
def PMC_CNT_CFG_EN (i : Nat) : Fld := ⟨PMC_CNT_CFG i, 31, 1⟩
/-- PMC_CNT_CFG.ADDR_EN, bits 30..30, RW. -/
def PMC_CNT_CFG_ADDR_EN (i : Nat) : Fld := ⟨PMC_CNT_CFG i, 30, 1⟩
/-- PMC_CNT_CFG.MASTER_MASK, bits 29..24, RW. -/
def PMC_CNT_CFG_MASTER_MASK (i : Nat) : Fld := ⟨PMC_CNT_CFG i, 24, 6⟩
/-- PMC_CNT_CFG.PRIV_MASK, bits 23..21, RW. -/
def PMC_CNT_CFG_PRIV_MASK (i : Nat) : Fld := ⟨PMC_CNT_CFG i, 21, 3⟩
/-- PMC_CNT_CFG.TC_MASK, bits 19..12, RW. -/
def PMC_CNT_CFG_TC_MASK (i : Nat) : Fld := ⟨PMC_CNT_CFG i, 12, 8⟩
/-- PMC_CNT_CFG.EVENT, bits 9..0, RW. -/
def PMC_CNT_CFG_EVENT (i : Nat) : Fld := ⟨PMC_CNT_CFG i, 0, 10⟩
/-- PMC_CNT_ADDR_LO at 0x02700104 (R686). -/
def PMC_CNT_ADDR_LO (i : Nat) : Reg := ⟨0x02700104 + 0x20 * i, BitVec.ofNat 32 (0)⟩
/-- PMC_CNT_ADDR_LO.V, bits 31..0, RW. -/
def PMC_CNT_ADDR_LO_V (i : Nat) : Fld := ⟨PMC_CNT_ADDR_LO i, 0, 32⟩
/-- PMC_CNT_ADDR_HI at 0x02700108 (R686). -/
def PMC_CNT_ADDR_HI (i : Nat) : Reg := ⟨0x02700108 + 0x20 * i, BitVec.ofNat 32 (0xFFFFFFFF)⟩
/-- PMC_CNT_ADDR_HI.V, bits 31..0, RW. -/
def PMC_CNT_ADDR_HI_V (i : Nat) : Fld := ⟨PMC_CNT_ADDR_HI i, 0, 32⟩
/-- PMC_CNT at 0x0270010C, 2 words (R686). -/
def PMC_CNT (i : Nat) : Wide := ⟨0x0270010C + 0x20 * i, 2, 0⟩
/-- PMC_CNT.OVF, bits 63..63, RO. -/
def PMC_CNT_OVF (i : Nat) : Fld := ⟨(PMC_CNT i).word 1, 31, 1⟩

end Sys2Proof.Machine
end

