-- ==== Sys2Proof/Machine/Ops.lean ====
section
/-!
DEFINITION. The named operations every meaning is written over: reading and writing a register, a field or a wide value,
setting an event bit, counting, the per-object records, the alarms' bits, the performance-counter events, and rounding.
-/

namespace Sys2Proof.Machine

/-! ### Words, fields, wide values -/

/-- The word a register holds. -/
def State.word (s : State) (r : Reg) : Word := smGet r.reset s.regs r.addr

/-- The register holds the word. -/
def State.setWord (s : State) (r : Reg) (w : Word) : State :=
  { s with regs := smSet r.reset s.regs r.addr w }

/-- A word with `width` bits from `lsb` replaced by the low bits of `v`. -/
def insertBits (w : Word) (lsb width v : Nat) : Word :=
  let m : Word := BitVec.ofNat 32 (2 ^ width - 1) <<< lsb
  (w &&& ~~~m) ||| ((BitVec.ofNat 32 (v % 2 ^ width)) <<< lsb)

/-- The bits of a word from `lsb`. -/
def extractBits (w : Word) (lsb width : Nat) : Nat := w.toNat / 2 ^ lsb % 2 ^ width

/-- A field's value. -/
def State.get (s : State) (f : Fld) : Nat := extractBits (s.word f.reg) f.lsb f.width

/-- A field takes a value (its low bits), and the rest of its register stays. -/
def State.put (s : State) (f : Fld) (v : Nat) : State :=
  s.setWord f.reg (insertBits (s.word f.reg) f.lsb f.width v)

/-- A field reads other than 0. -/
def State.on (s : State) (f : Fld) : Bool := s.get f != 0

/-- A field's value as two's complement. -/
def State.geti (s : State) (f : Fld) : Int :=
  let v := s.get f
  if 2 * v < 2 ^ f.width then (v : Int) else (v : Int) - 2 ^ f.width

/-- A Boolean into a one-bit field. -/
def State.putB (s : State) (f : Fld) (b : Bool) : State := s.put f (if b then 1 else 0)

/-- A signed number into a field, modulo its width. -/
def State.puti (s : State) (f : Fld) (v : Int) : State := s.put f (v % (2 ^ f.width : Int)).toNat

/-- Bit `k` of a field. -/
def State.bit (s : State) (f : Fld) (k : Nat) : Bool := (s.get f).testBit k

/-- Bit `k` of a field is set or cleared. -/
def State.putBit (s : State) (f : Fld) (k : Nat) (b : Bool) : State :=
  s.put ⟨f.reg, f.lsb + k, 1⟩ (if b then 1 else 0)

/-- A sticky event bit is set (R17). -/
def State.ev (s : State) (f : Fld) : State := s.put f 1

/-- A counter field counts `n`, wrapping. -/
def State.count (s : State) (f : Fld) (n : Nat := 1) : State := s.put f (s.get f + n)

/-- A counter field counts `n`, saturating. -/
def State.countSat (s : State) (f : Fld) (n : Nat := 1) : State :=
  s.put f (min (s.get f + n) (2 ^ f.width - 1))

/-- The words of a wide value from `k` on, the lowest first (R10). -/
def State.wideFrom (s : State) (w : Wide) : Nat → Nat → Nat
  | 0, _ => 0
  | n + 1, k => (s.word (w.word k)).toNat + 2 ^ 32 * s.wideFrom w n (k + 1)

/-- A wide value (R10). -/
def State.wide (s : State) (w : Wide) : Nat := s.wideFrom w w.words 0

/-- Words `k` on of a wide value take the successive words of `v`. -/
def State.putWideFrom (s : State) (w : Wide) : Nat → Nat → Nat → State
  | 0, _, _ => s
  | n + 1, k, v => (s.setWord (w.word k) (BitVec.ofNat 32 v)).putWideFrom w n (k + 1) (v / 2 ^ 32)

/-- A wide value is written whole. -/
def State.putWide (s : State) (w : Wide) (v : Nat) : State := s.putWideFrom w w.words 0 v

/-- A natural number read as two's complement of `n` bits. -/
def signed (n v : Nat) : Int :=
  let v := v % 2 ^ n
  if 2 * v < 2 ^ n then (v : Int) else (v : Int) - 2 ^ n

/-- An integer as the natural number of its `n`-bit two's complement. -/
def unsigned (n : Nat) (v : Int) : Nat := (v % (2 ^ n : Int)).toNat

/-- A wide value as two's complement of `n` bits. -/
def State.widei (s : State) (w : Wide) (n : Nat := 64) : Int := signed n (s.wide w)

/-- A signed number into a wide value, in `n` bits. -/
def State.putWidei (s : State) (w : Wide) (v : Int) (n : Nat := 64) : State := s.putWide w (unsigned n v)

/-! ### Rounding and clamping -/

/-- `a / b` to the nearest integer, ties to even (R9); 0 for `b = 0`. -/
def roundDiv (a : Int) (b : Nat) : Int :=
  if b = 0 then 0 else
  let q := a / (b : Int)
  let r := a % (b : Int)
  if 2 * r < b then q
  else if 2 * r = b then (if q % 2 = 0 then q else q + 1)
  else q + 1

/-- `v` held between `lo` and `hi`. -/
def clampI (lo hi v : Int) : Int := if v < lo then lo else if hi < v then hi else v

/-- The absolute value as a natural number. -/
def absN (v : Int) : Nat := v.natAbs

/-! ### Free values, outputs -/

/-- The number of the next free value, and the state in which it is spent. -/
def State.fresh (s : State) : Nat × State := (s.freeNo, { s with freeNo := s.freeNo + 1 })

/-- Something leaves the device. -/
def State.send (s : State) (o : Out) : State := { s with out := s.out ++ [o] }

/-! ### Per-object records -/

/-- The record of candidate `n`. -/
def State.refRec (s : State) (n : Nat) : RefRec := smGet {} s.refs n

/-- The record of candidate `n` is replaced. -/
def State.setRef (s : State) (n : Nat) (r : RefRec) : State := { s with refs := smSet {} s.refs n r }

/-- The record of ensemble member `n`. -/
def State.ensRec (s : State) (n : Nat) : EnsRec := smGet {} s.ens n

/-- The record of ensemble member `n` is replaced. -/
def State.setEns (s : State) (n : Nat) (r : EnsRec) : State := { s with ens := smSet {} s.ens n r }

/-- The record of lane `n`. -/
def State.laneRec (s : State) (n : Nat) : LaneRec := smGet {} s.lanes n

/-- The record of lane `n` is replaced. -/
def State.setLane (s : State) (n : Nat) (r : LaneRec) : State := { s with lanes := smSet {} s.lanes n r }

/-- The record of PLL `n`, 16 for LM. -/
def State.pllRec (s : State) (n : Nat) : PllRec := smGet {} s.plls n

/-- The record of PLL `n`, 16 for LM is replaced. -/
def State.setPll (s : State) (n : Nat) (r : PllRec) : State := { s with plls := smSet {} s.plls n r }

/-- The record of port `n`. -/
def State.portRec (s : State) (n : Nat) : PortRec := smGet {} s.ports n

/-- The record of port `n` is replaced. -/
def State.setPort (s : State) (n : Nat) (r : PortRec) : State := { s with ports := smSet {} s.ports n r }

/-- The record of phase channel `n`. -/
def State.phaRec (s : State) (n : Nat) : PhaRec := smGet {} s.pha n

/-- The record of phase channel `n` is replaced. -/
def State.setPha (s : State) (n : Nat) (r : PhaRec) : State := { s with pha := smSet {} s.pha n r }

/-- The record of domain `n`. -/
def State.domRec (s : State) (n : Nat) : DomRec := smGet {} s.doms n

/-- The record of domain `n` is replaced. -/
def State.setDom (s : State) (n : Nat) (r : DomRec) : State := { s with doms := smSet {} s.doms n r }

/-- The record of session `n`. -/
def State.sessRec (s : State) (n : Nat) : SessRec := smGet {} s.sess n

/-- The record of session `n` is replaced. -/
def State.setSess (s : State) (n : Nat) (r : SessRec) : State := { s with sess := smSet {} s.sess n r }

/-- Frame `n`. -/
def State.frameRec (s : State) (n : Nat) : FrameRec := smGet {} s.frames n

/-- Frame `n` is replaced. -/
def State.setFrame (s : State) (n : Nat) (r : FrameRec) : State := { s with frames := smSet {} s.frames n r }

/-- Copy `n`. -/
def State.copyRec (s : State) (n : Nat) : CopyRec := smGet {} s.copies n

/-- Copy `n` is replaced. -/
def State.setCopy (s : State) (n : Nat) (r : CopyRec) : State := { s with copies := smSet {} s.copies n r }

/-- Queue `n`, 8 p + t. -/
def State.queueRec (s : State) (n : Nat) : QRec := smGet {} s.queues n

/-- Queue `n`, 8 p + t is replaced. -/
def State.setQueue (s : State) (n : Nat) (r : QRec) : State := { s with queues := smSet {} s.queues n r }

/-- Meter `n`. -/
def State.meterRec (s : State) (n : Nat) : MeterRec := smGet {} s.meters n

/-- Meter `n` is replaced. -/
def State.setMeter (s : State) (n : Nat) (r : MeterRec) : State := { s with meters := smSet {} s.meters n r }

/-- Apply `f` for each listed number, in order. -/
def forEach {α : Type} (l : List α) (f : α → State → State) (s : State) : State :=
  l.foldl (fun s a => f a s) s

/-- CLK_TIME ticks in a number of milliseconds (250 MHz, R33). -/
def ticksMs (n : Nat) : Nat := 250000 * n

/-- CLK_TIME ticks in 10 s, the window of R603. -/
def ticks10s : Nat := 2500000000

/-- The times of a list that lie within the last 10 s of `now`. -/
def recent (now : Nat) (l : List Nat) : List Nat := l.filter (fun t => now < t + ticks10s)

/-! ### Device state -/

/-- The device state of R38. -/
def State.dev (s : State) : DevState :=
  if s.inReset then .reset else
  match s.get GLB_STATE_STATE with
  | 1 => .clockStart
  | 2 => .loading
  | 3 => .running
  | _ => .safeMode

/-- The code of a device state in GLB_STATE.STATE (R42); RESET has none. -/
def DevState.code : DevState → Nat
  | .reset => 1
  | .clockStart => 1
  | .loading => 2
  | .running => 3
  | .safeMode => 4

/-- The device is RUNNING. -/
def State.running (s : State) : Bool := s.dev = .running

/-- The domain clocks are gated (R69). -/
def State.gated (s : State) : Bool := s.on SYN_STATUS_GATED

/-! ### Performance counters (R671 to R673) -/

/-- What a filter may look at: the traffic class of a frame event, or the access of a management event (R672). -/
inductive PmcKind where
  | plain
  | frame (tc : Nat)
  | access (level master addr : Nat)

/-- Whether an event passes the filters of counter `n` (R672). -/
def pmcPasses (s : State) (n : Nat) : PmcKind → Bool
  | .plain => true
  | .frame tc => s.bit (PMC_CNT_CFG_TC_MASK n) tc
  | .access lvl m a =>
    s.bit (PMC_CNT_CFG_PRIV_MASK n) lvl && s.bit (PMC_CNT_CFG_MASTER_MASK n) m &&
    (!s.on (PMC_CNT_CFG_ADDR_EN n) ||
      decide (s.get (PMC_CNT_ADDR_LO_V n) ≤ a) && decide (a ≤ s.get (PMC_CNT_ADDR_HI_V n)))

/-- Counter `n` adds; past 2^48 - 1 it keeps the remainder and its overflow bit is set (R673). -/
def pmcAdd (n k : Nat) (s : State) : State :=
  let v := s.wide (PMC_CNT n) % 2 ^ 48 + k
  let s1 := s.putWide (PMC_CNT n) (v % 2 ^ 48)
  if 2 ^ 48 ≤ v then
    (s1.putBit ⟨PMC_OVF.word (n / 32), 0, 32⟩ (n % 32) true).ev PMC_EVENT_OVF
  else s1

/-- An event of a code adds to every counter that counts it and passes it (R671). -/
def pmcEvent (code : Nat) (kind : PmcKind) (k : Nat) (s : State) : State :=
  if s.on PMC_CTRL_FREEZE then s else
  forEach (List.range 64) (fun n s =>
    if s.on (PMC_CNT_CFG_EN n) && s.get (PMC_CNT_CFG_EVENT n) == code && pmcPasses s n kind then pmcAdd n k s else s) s

/-! ### Alarms' bits -/

/-- A minor alarm source sets its bit (R602, R614). -/
def raiseMinor (b : Nat) (s : State) : State := s.putBit FLT_MINOR_B b true

/-- A major alarm is active (R602). -/
def State.majorActive (s : State) : Bool := s.on FLT_MAJOR_B

/-- The result code of a discarded write: the first Forbidden combination is recorded in GLB_MODE_ERR, a later one while
VALID = 1 sets OVERFLOW (R51). -/
def modeErr (kind obj code : Nat) (s : State) : State :=
  if s.on GLB_MODE_ERR_VALID then s.ev GLB_MODE_ERR_OVERFLOW
  else (((s.ev GLB_MODE_ERR_VALID).put GLB_MODE_ERR_OBJ_KIND kind).put GLB_MODE_ERR_OBJECT_ID obj).put
    GLB_MODE_ERR_CODE code

/-- Several combinations met in one cycle: the lowest code is recorded first, the others count as further ones (R51). -/
def modeErrs (l : List (Nat × Nat × Nat)) (s : State) : State :=
  let key := fun (c : Nat × Nat × Nat) => c.1 * 65536 + c.2.1 * 2048 + c.2.2
  let sorted := l.foldl (fun acc c =>
    (acc.takeWhile (fun d => key d ≤ key c)) ++ [c] ++ (acc.dropWhile (fun d => key d ≤ key c))) []
  forEach sorted (fun c s => modeErr c.2.1 c.2.2 c.1 s) s

end Sys2Proof.Machine
end

