-- ==== Sys2Proof/Machine/Flags.lean ====
section
/-!
DEFINITION. The device's value formats (R3 to R9) and the flags that depend on several registers: time conversions, the
rotator code of a phase, the interrupt sources and pins.
-/

namespace Sys2Proof.Machine

/-! ### Time formats (R3, R5, R8).  The device's time is a number of 2^-40 ns, so that TB_INCR adds exactly. -/

/-- One second in units of 2^-40 ns. -/
def sec40 : Nat := 1000000000 * 2 ^ 40

/-- The span of the counters: SECONDS has 48 bits (R3). -/
def span40 : Nat := 2 ^ 48 * sec40

/-- One second in units of 2^-16 ns. -/
def sec16 : Nat := 1000000000 * 2 ^ 16

/-- A time in 2^-16 ns as a TB96 value (R3); its NANOSECONDS are always below 10^9 (R4). -/
def tb96Units (u : Nat) : Nat := u / sec16 % 2 ^ 48 * 2 ^ 48 + u % sec16

/-- A time in 2^-40 ns as a TB96 value, rounded to nearest with ties to even (R9). -/
def tb96Of (t : Nat) : Nat := tb96Units (roundDiv (t % span40 : Nat) (2 ^ 24)).toNat

/-- The time a TB96 value names, in 2^-40 ns. -/
def tb96Time (v : Nat) : Nat := (v / 2 ^ 48) * sec40 + (v % 2 ^ 48) * 2 ^ 24

/-- Whether a TB96 value has NANOSECONDS below 10^9 (R4). -/
def tb96Ok (v : Nat) : Bool := decide (v / 2 ^ 16 % 2 ^ 32 < 1000000000)

/-- An SNS64 interval in 2^-40 ns (R5). -/
def sns40 (v : Int) : Int := v * 2 ^ 24

/-- A difference of times in 2^-40 ns as SNS64, rounded to nearest with ties to even (R9), in 64 bits; one beyond
the range of SNS64 keeps its low 64 bits (DESIGN CHOICE, log entry 159). -/
def snsOf (d : Int) : Nat := unsigned 64 (roundDiv d (2 ^ 24))

/-- A phase in pu as SNS64: one pu is 16 units (R6). -/
def puSns (pu : Int) : Int := 16 * pu

/-- A time moved by a signed amount, modulo the counter's span. -/
def timeAdd (t : Nat) (d : Int) : Nat := (((t : Int) + d) % (span40 : Int)).toNat

/-- One pu in 2^-40 ns: 1/16384 of 4 ns (R6). -/
def pu40 : Nat := 2 ^ 28

/-! ### Bits of lists -/

/-- The numbers below `n` whose bit is set in `v`. -/
def bitsOf (n v : Nat) : List Nat := (List.range n).filter (fun k => v.testBit k)

/-! ### Interrupts (R664, R665) -/

/-- Which interrupt source a register word feeds, with the bits of it that are RW1C events (R664). -/
def irqOfAddr (a : Nat) : Option (Nat × Nat) :=
  if a = 0x00100014 then some (0, 0xFFFFFFFF)
  else if a = 0x00110404 then some (1, 0xFFFFFFFF)
  else if a = 0x00110804 then some (1, 0xF00)
  else if a = 0x00200008 then some (2, 0xFFFFFFFF)
  else if a = 0x00300008 ∨ a = 0x00300800 ∨ a = 0x00300804 then some (3, 0xFFFFFFFF)
  else if 0x00400000 ≤ a ∧ a < 0x00441000 ∧ a % 0x1000 = 8 then some (4, 0xFFFFFFFF)
  else if 0x00800000 ≤ a ∧ a < 0x00842000 ∧ a % 0x1000 = 8 then some (5, 0xFFFFFFFF)
  else if a = 0x00C00000 then some (6, 0xFFFFFFFF)
  else if a = 0x00D00008 then some (7, 0xFFFFFFFF)
  else if a = 0x01000004 then some (8, 0xFFFFFFFF)
  else if a = 0x01400000 then some (9, 0xFFFFFFFF)
  else if 0x01420000 ≤ a ∧ a < 0x01428400 ∧ a % 0x40 = 0x1C then some (9, 0x4)
  else if a = 0x01800000 then some (10, 0xFFFFFFFF)
  else if a = 0x01C00004 then some (11, 0xFFFFFFFF)
  else if a = 0x0200001C then some (12, 0xFFFFFFFF)
  else if a = 0x02100004 then some (13, 0xFFFFFFFF)
  else if a = 0x02200004 then some (14, 0xFFFFFFFF)
  else if a = 0x02300008 then some (15, 0xFFFFFFFF)
  else if a = 0x02400008 then some (16, 0xFFFFFFFF)
  else if a = 0x02500004 then some (17, 0xFFFFFFFF)
  else if a = 0x02400100 then some (18, 0xFFFFFFFF)
  else if a = 0x02400104 then some (19, 0xFFFFFFFF)
  else if a = 0x02600004 then some (20, 0xFFFFFFFF)
  else if a = 0x0270000C then some (21, 0xFFFFFFFF)
  else if a = 0x0000000C then some (22, 0x80000000)
  else if a = 0x00000004 then some (22, 0x7)
  else if 0x00450000 ≤ a ∧ a < 0x00450100 ∧ a % 0x10 = 4 then some (23, 0x700)
  else if 0x00460000 ≤ a ∧ a < 0x00460010 ∧ a % 4 = 0 then some (23, 0x1000000)
  else none

/-- MGT_IRQ_SRC: one bit per source, set while any event bit of its registers reads 1 (R664). -/
def irqSrc (s : State) : Nat :=
  let base := s.regs.foldl (fun m e =>
    match irqOfAddr e.1 with
    | some (src, mask) => if e.2.toNat &&& mask != 0 then m ||| 2 ^ src else m
    | none => m) 0
  let dma := s.get MGT_DMA_EVENT_V
  base ||| ((List.range 8).foldl (fun m t =>
    if dma.testBit t || dma.testBit (8 + t) then m ||| 2 ^ (24 + t) else m) 0)

/-- The vector source `i` feeds (R665). -/
def irqVec (s : State) (i : Nat) : Nat :=
  extractBits (s.word (MGT_IRQ_VEC (i / 4))) (8 * (i % 4)) 5

/-- The OR of a vector's enabled sources (R665). -/
def vecLevel (s : State) (v : Nat) : Bool :=
  (bitsOf 32 (irqSrc s &&& s.get MGT_IRQ_EN_V)).any (fun i => irqVec s i == v)

/-- The vectors with an enabled source that reads 1. -/
def vecsHigh (s : State) : List Nat :=
  let src := bitsOf 32 (irqSrc s &&& s.get MGT_IRQ_EN_V)
  (List.range 32).filter (fun v => src.any (fun i => irqVec s i == v))

/-- IRQ_N is asserted (R665). -/
def irqPin (s : State) : Bool := irqSrc s &&& s.get MGT_IRQ_PIN_EN_V != 0

/-! ### Calibration counts (R529) -/

/-- The class of an entry of the sequencer's queue: a sampler step, kept as class 6, is of class 4. -/
def calClass (k : Nat) : Nat := if k = 6 then 4 else k

/-- A new coefficient is in force (R529). -/
def calApplied (k i : Nat) (s : State) : State :=
  let c := calClass k
  let s := s.count (CAL_COUNT_V c)
  let s := s.putWide (CAL_LAST c) (tb96Of s.tb.count)
  (s.putB (CAL_K_STATUS_TB_INVALID c) (s.get TB_STATUS_STATE == 0)).put (CAL_K_STATUS_LAST_INST c) i

end Sys2Proof.Machine
end

