-- ==== Sys2Proof/Machine/Tables.lean ====
section
/-!
DEFINITION. The memory of the table windows (R690): bytes, little-endian words, and the entry layouts of the forwarding tables
(R376, R382, R384, R402) and the gate lists (R450).  A byte nothing has written reads 0 (log entry 2).
-/

namespace Sys2Proof.Machine

/-- What an unlisted byte of a table window reads as. -/
def memBlank : Byte := 0

/-- A table byte. -/
def State.byte (s : State) (a : Nat) : Byte := smGet memBlank s.mem a

/-- A table byte is written. -/
def State.setByte (s : State) (a : Nat) (b : Byte) : State := { s with mem := smSet memBlank s.mem a b }

/-- The canonical form of the table memory. -/
def Memory.wf (m : SMap Byte) : Bool := smWf (fun _ => memBlank) m

/-- `n` bytes from `a` as a little-endian number. -/
def State.bytesLE (s : State) (a : Nat) : Nat → Nat
  | 0 => 0
  | n + 1 => (s.byte a).toNat + 256 * s.bytesLE (a + 1) n

/-- `n` bytes from `a` hold a little-endian number. -/
def State.storeLE (s : State) (a : Nat) : Nat → Nat → State
  | 0, _ => s
  | n + 1, v => (s.setByte a (BitVec.ofNat 8 v)).storeLE (a + 1) n (v / 256)

/-! ### The check bits of the table regions (R535 to R545) -/

/-- The protected region a table byte lies in, with its byte address there (R537, R690). -/
def eccPlace (a : Nat) : Option (Nat × Nat) :=
  if a < 0x03000000 then none
  else if a < 0x03020000 then some (3, a - 0x03000000)
  else if a < 0x03024000 then some (4, a - 0x03020000)
  else if a < 0x03040000 then none
  else if a < 0x03060000 then some (5, a - 0x03040000)
  else if a < 0x030A0000 then some (6, a - 0x03060000)
  else if a < 0x03100000 then none
  else if a < 0x03300000 then some (7, a - 0x03100000)
  else if a < 0x03500000 then some (8, a - 0x03300000)
  else if a < 0x03600000 then none
  else if a < 0x03642000 then some (9, a - 0x03600000)
  else none

/-- The address of a region's first byte. -/
def eccBase (r : Nat) : Nat :=
  if r = 3 then 0x03000000 else if r = 4 then 0x03020000 else if r = 5 then 0x03040000 else if r = 6 then 0x03060000
  else if r = 7 then 0x03100000 else if r = 8 then 0x03300000 else 0x03600000

/-- The bytes of one entry of a region: table entries, and packet-buffer cells for region 0. -/
def eccSize (r : Nat) : Nat :=
  if r = 0 then 256 else if r = 4 ∨ r = 7 then 16 else if r = 8 then 128 else if r = 9 then 8 else 32

/-- The key of a byte of a region among the inverted bits. -/
def flipKey (r a : Nat) : Nat := r * 2 ^ 32 + a

/-- The bits of a byte, and of its check bits, that differ from what was written. -/
def State.flipsAt (s : State) (r a : Nat) : Nat := smGet 0 s.ecc.flips (flipKey r a)

/-- They take a value. -/
def State.setFlips (s : State) (r a m : Nat) : State :=
  { s with ecc := { s.ecc with flips := smSet 0 s.ecc.flips (flipKey r a) m } }

/-- The blocks, by address bits [27:16], in which a register word, its parity or the shadow differs from what was last written (R553). -/
def upsetBlocks (s : State) : List Nat :=
  (s.ecc.upsets.map (fun (e : Nat × Nat) => e.1 / 2 ^ 16 % 2 ^ 12) ++ s.ecc.shadow.map (fun (e : Nat × Nat) => e.1)).eraseDups

/-- An entry that has been retired takes no write (R545). -/
def entryRetired (s : State) (r a : Nat) : Bool := s.ecc.retired.contains (r, a / eccSize r)

/-- `n` bytes of a region have been written at `a`: their check bits are new, the word's run of corrections ends (R536, R544),
and an armed injection inverts c0, or c0 and c1, of the first (R558). -/
def eccWritten (r a n : Nat) (s : State) : State :=
  let s := if s.ecc.flips.isEmpty then s else (List.range n).foldl (fun (s : State) k => s.setFlips r (a + k) 0) s
  let s : State := { s with ecc := { s.ecc with track := s.ecc.track.filter (fun t =>
    !(t.region == r && decide (a / 4 ≤ t.addr / 4) && decide (t.addr / 4 ≤ (a + n - 1) / 4))) } }
  if s.on ECC_INJ_ARM ∧ s.get ECC_INJ_REGION = r then
    (s.setFlips r a (if s.get ECC_INJ_MODE = 2 then 6 else 2)).put ECC_INJ_ARM 0
  else s

/-- `n` bytes from `a` are written with a little-endian number, check bits and all; nothing in a retired entry. -/
def State.setBytesLE (s : State) (a n v : Nat) : State :=
  match eccPlace a with
  | none => s.storeLE a n v
  | some (r, o) => if entryRetired s r o then s else eccWritten r o n (s.storeLE a n v)

/-- A table word. -/
def State.tword (s : State) (a : Nat) : Nat := s.bytesLE a 4

/-- A table word is written. -/
def State.setTword (s : State) (a v : Nat) : State := s.setBytesLE a 4 v

/-- A part of a table word takes a value. -/
def State.setTbits (s : State) (a lsb width v : Nat) : State :=
  s.setTword a (insertBits (BitVec.ofNat 32 (s.tword a)) lsb width v).toNat

/-- A part of a table word. -/
def State.tbits (s : State) (a lsb width : Nat) : Nat := s.tword a / 2 ^ lsb % 2 ^ width

/-- A counter in a table word counts, wrapping. -/
def State.tcount (s : State) (a lsb width n : Nat) : State := s.setTbits a lsb width (s.tbits a lsb width + n)

/-! ### Where entries lie (R376, R401, R450) -/

def vlanAddr (vid : Nat) : Nat := 0x03000000 + 0x20 * vid
def groupAddr (g : Nat) : Nat := 0x03020000 + 0x10 * g
def streamAddr (n : Nat) : Nat := 0x03040000 + 0x20 * n
def meterAddr (n : Nat) : Nat := 0x03060000 + 0x20 * n
def macAddr (bucket way : Nat) : Nat := 0x03100000 + 0x40 * bucket + 0x10 * way
def classAddr (n : Nat) : Nat := 0x03300000 + 0x80 * n
def gateAddr (p l e : Nat) : Nat := 0x03600000 + 0x1000 * p + 0x800 * l + 8 * e

/-- The address of an on-chip tally-dump slot (R677). -/
def dumpSlot (k : Nat) : Nat := 0x03F00000 + 0x220 * k

/-- A mask of 66 ports in three words (R402). -/
def State.portMask (s : State) (a : Nat) : Nat := s.bytesLE a 12 % 2 ^ 66

/-- A number with one bit for each index below `n` that satisfies `p`. -/
def bitsWhere (n : Nat) (p : Nat → Bool) : Nat := (List.range n).foldl (fun m k => if p k then m + 2 ^ k else m) 0

/-! ### CRC-32 with the IEEE 802.3 polynomial -/

/-- One bit of the reflected CRC-32. -/
def crcBit (c : BitVec 32) : BitVec 32 := if c.getLsbD 0 then (c >>> 1) ^^^ 0xEDB88320 else c >>> 1

/-- One byte of the CRC-32. -/
def crcByte (c : BitVec 32) (b : Byte) : BitVec 32 :=
  crcBit (crcBit (crcBit (crcBit (crcBit (crcBit (crcBit (crcBit (c ^^^ b.zeroExtend 32))))))))

/-- The CRC-32 of a list of bytes. -/
def crc32 (l : List Byte) : BitVec 32 := (l.foldl crcByte 0xFFFFFFFF) ^^^ 0xFFFFFFFF

/-- `n` bytes of a number, the lowest first. -/
def leBytes : Nat → Nat → List Byte
  | 0, _ => []
  | n + 1, v => BitVec.ofNat 8 v :: leBytes n (v / 256)

/-- `n` bytes of a number, the highest first. -/
def beBytes (n v : Nat) : List Byte := (leBytes n v).reverse

/-- A list of bytes as a little-endian number. -/
def natLE : List Byte → Nat
  | [] => 0
  | b :: t => b.toNat + 256 * natLE t

/-- A list of bytes as a big-endian number. -/
def natBE (l : List Byte) : Nat := natLE l.reverse

/-- The byte at an offset, 0 beyond the end. -/
def byteAt (l : List Byte) (k : Nat) : Nat := (l.getD k 0).toNat

/-- `n` bytes at an offset as a big-endian number, bytes beyond the end reading 0. -/
def fieldBE (l : List Byte) (k n : Nat) : Nat :=
  (List.range n).foldl (fun v i => 256 * v + byteAt l (k + i)) 0

/-- A list of bytes with some replaced from an offset on. -/
def patch (l : List Byte) (k : Nat) (new : List Byte) : List Byte :=
  l.take k ++ new ++ l.drop (k + new.length)

/-- The bucket of a MAC table key (R376). -/
def macBucket (vid mac : Nat) : Nat := (crc32 (beBytes 2 (vid % 4096) ++ beBytes 6 mac)).toNat % 2 ^ 15

end Sys2Proof.Machine
end

