-- ==== Sys2Proof/Machine/Pools.lean ====
section
/-!
DEFINITION. The Buffer Pool Manager (R435 to R443): lowest-numbered allocation, checked frees and increments, ageing.
-/

namespace Sys2Proof.Machine

/-- The key of buffer `i` of a pool. -/
def bufKey (pool i : Nat) : Nat := pool * 2 ^ 24 + i

/-- The state of a buffer (R437). -/
def State.buf (s : State) (pool i : Nat) : BufRec := smGet {} s.bufs (bufKey pool i)

/-- A buffer's state is replaced. -/
def State.setBuf (s : State) (pool i : Nat) (b : BufRec) : State :=
  { s with bufs := smSet {} s.bufs (bufKey pool i) b }

/-- The first number from `n` on that a rising list does not name. -/
def firstGap : List Nat → Nat → Nat
  | [], n => n
  | k :: t, n => if k = n then firstGap t (n + 1) else if k < n then firstGap t n else n

/-- The allocated buffers of a pool, rising. -/
def allocated (s : State) (pool : Nat) : List Nat :=
  (s.bufs.filter (fun e => e.1 / 2 ^ 24 == pool && e.2.alloc)).map (fun e => e.1 % 2 ^ 24)

/-- A request fails: counted, and the event set (R438). -/
def poolEmpty (pool : Nat) (s : State) : State := (s.count (POOL_CNT0_EMPTY_FAIL pool)).ev POOL_EVENT_EMPTY

/-- The owner classes of R436. -/
def clsIngress0 : Nat := 0
def clsIngress1 : Nat := 1
def clsRefill : Nat := 2
def clsMgmt : Nat := 3
def clsEgress : Nat := 4
def clsQm : Nat := 5
def clsSpill : Nat := 6
def clsFerryman : Nat := 7
def clsCpuDma : Nat := 8
def clsMacLb : Nat := 9
def clsEcc : Nat := 10

/-- One allocation: the lowest-numbered free buffer, unless the free count stands at the floor or below or the pool is
disabled (R437, R438). -/
def poolAlloc (pool cls floor : Nat) (s : State) : Option Nat × State :=
  let free := s.get (POOL_FREE_V pool)
  if free ≤ floor ∨ !s.on (POOL_CFG_EN pool) then (none, poolEmpty pool s)
  else
    let i := firstGap (allocated s pool) 0
    let s := s.setBuf pool i { s.buf pool i with alloc := true, owner := cls, refs := 1, age := s.epoch }
    let s := s.put (POOL_FREE_V pool) (free - 1)
    let s := s.put (POOL_LOW_WATER_V pool) (min (s.get (POOL_LOW_WATER_V pool)) (free - 1))
    (some i, if pool = 0 then pmcEvent 0x030 .plain 1 s else s)

/-- A rejected free or increment is counted, flagged, and logged where the log is free (R440). -/
def poolReject (pool i cls kind : Nat) (s : State) : State :=
  let s := if kind = 1 then (s.count (POOL_CNT0_DOUBLE_FREE pool)).ev POOL_EVENT_DOUBLE_FREE
    else if kind = 2 then (s.count (POOL_CNT1_OWNER_FAULT pool)).ev POOL_EVENT_OWNER_FAULT
    else (s.count (POOL_CNT2_REF_OVF pool)).ev POOL_EVENT_REF_OVF
  if s.on POOL_ERR_LOG_VALID then s.ev POOL_ERR_LOG_OVERFLOW
  else ((((s.ev POOL_ERR_LOG_VALID).put POOL_ERR_LOG_INDEX i).put POOL_ERR_LOG_POOL pool).put POOL_ERR_LOG_CLASS
    cls).put POOL_ERR_LOG_KIND kind

/-- A class may act on a buffer: its owner, or named in the pool's share mask (R436, R439). -/
def poolMay (s : State) (pool cls : Nat) (b : BufRec) : Bool :=
  b.owner == cls || s.bit (POOL_SHARE_MASK_V pool) cls

/-- A packet-buffer cell that has been retired: it stays with class ECC (R545). -/
def cellRetired (s : State) (pool i : Nat) : Bool := pool == 0 && s.ecc.retired.contains (0, i)

/-- The buffer goes free; a retired cell stays allocated to class ECC (R545). -/
def bufRelease (pool i : Nat) (s : State) : State :=
  if cellRetired s pool i then s.setBuf pool i { s.buf pool i with owner := clsEcc, refs := 1 } else
  let s := s.setBuf pool i { written := (s.buf pool i).written }
  let s := s.put (POOL_FREE_V pool) (s.get (POOL_FREE_V pool) + 1)
  if pool = 0 then pmcEvent 0x031 .plain 1 s else s

/-- A free or decrement (R439); the result is 0, or the kind of its rejection. -/
def poolFree (pool i cls : Nat) (s : State) : Nat × State :=
  let b := s.buf pool i
  if !b.alloc then (1, poolReject pool i cls 1 s)
  else if !poolMay s pool cls b then (2, poolReject pool i cls 2 s)
  else if b.refs ≤ 1 then (0, bufRelease pool i s)
  else (0, s.setBuf pool i { b with refs := b.refs - 1 })

/-- An increment (R439): checked as a free is, and rejected past 255. -/
def poolIncref (pool i cls : Nat) (s : State) : Nat × State :=
  let b := s.buf pool i
  if !b.alloc then (1, poolReject pool i cls 1 s)
  else if !poolMay s pool cls b then (2, poolReject pool i cls 2 s)
  else if 255 ≤ b.refs then (3, poolReject pool i cls 3 s)
  else (0, s.setBuf pool i { b with refs := b.refs + 1 })

/-- A packet-buffer cell is written, with valid check bits and its written mark (R538). -/
def cellWritten (i : Nat) (s : State) : State := eccWritten 0 (256 * i) 256 (s.setBuf 0 i { s.buf 0 i with written := true })

/-- Several buffers of pool 0 are given up once each. -/
def freeCells (cls : Nat) (l : List Nat) (s : State) : State := forEach l (fun i s => (poolFree 0 i cls s).2) s

/-- A free of pool 0 falls due during a flush and is deferred: the class, or `clsReclaim` for a reclaim by age, and the cell (R430). -/
def clsReclaim : Nat := 16

def deferFree (cls i : Nat) (s : State) : State :=
  { s with qm := { s.qm with deferred := s.qm.deferred ++ [(cls, i)] } }.put QM_STATUS_DEFER_BUSY 1

/-- Pool 0 cells go back, or are deferred while a flush runs (R430, R438). -/
def freeCellsQ (cls : Nat) (l : List Nat) (s : State) : State :=
  if s.qm.flushes.isEmpty then freeCells cls l s else forEach l (deferFree cls) s

/-- A buffer is reclaimed for its age (R441); one of pool 0 once the flush engine releases its slots (R430). -/
def bufReclaim (pool i : Nat) (s : State) : State :=
  if pool = 0 ∧ !s.qm.flushes.isEmpty then deferFree clsReclaim i s else bufRelease pool i s

/-- A deferred free applies. -/
def deferredApply (e : Nat × Nat) (s : State) : State :=
  if e.1 = clsReclaim then bufRelease 0 e.2 s else freeCells e.1 [e.2] s

/-- One age sweep of a pool: each allocated buffer 8 or more epochs behind, modulo 16, is reclaimed (R441); a retired cell is
exempt (R545), and so is one whose reclaim is deferred. -/
def poolSweep (pool : Nat) (s : State) : State :=
  forEach (allocated s pool) (fun i s =>
    if 8 ≤ (s.epoch + 16 - (s.buf pool i).age) % 16 ∧ !cellRetired s pool i ∧
        !(pool == 0 && s.qm.deferred.contains (clsReclaim, i)) then
      ((bufReclaim pool i s).count (POOL_CNT1_AGED pool)).ev POOL_EVENT_AGED
    else s) s

/-- Pool `n`, 4 to 15, enabled: every buffer is free (R443). -/
def poolEnable (n : Nat) (s : State) : State :=
  let s := forEach (allocated s n) (fun i s => s.setBuf n i {}) s
  let s := s.put (POOL_CFG_EN n) 1
  (s.put (POOL_FREE_V n) (s.get (POOL_SIZE_V n))).put (POOL_LOW_WATER_V n) (s.get (POOL_SIZE_V n))

/-- Pool 1 takes a size and is enabled, or is disabled with none (R413, R420). -/
def pool1Set (pages : Nat) (s : State) : State :=
  let s := forEach (allocated s 1) (fun i s => s.setBuf 1 i {}) s
  let s := s.putB (POOL_CFG_EN 1) (pages != 0)
  ((s.put (POOL_SIZE_V 1) pages).put (POOL_FREE_V 1) pages).put (POOL_LOW_WATER_V 1) pages

/-- The operations of POOL_CMD for class MGMT, with the result code of R454; during a flush a free of pool 0 is checked at once and deferred
(R430). -/
def poolCmd (s : State) : State :=
  let pool := s.get POOL_CMD_POOL
  let i := s.get POOL_CMD_INDEX_V
  let op := s.get POOL_CMD_OP
  let done := fun (code : Nat) (s : State) => (s.put POOL_CMD_RESULT code).ev POOL_EVENT_CMD_DONE
  if !s.on (POOL_CFG_EN pool) then done 5 s
  else if op = 1 then
    match poolAlloc pool clsMgmt (if pool = 0 then s.get QM_RESERVE_V else 0) s with
    | (some k, s) => done 0 (s.put POOL_CMD_INDEX_V k)
    | (none, s) => done 1 s
  else if s.get (POOL_SIZE_V pool) ≤ i then done 5 s
  else if op = 2 then
    let r := poolFree pool i clsMgmt s
    done (if r.1 = 0 then 0 else r.1 + 1) (if r.1 = 0 ∧ pool = 0 ∧ !s.qm.flushes.isEmpty then deferFree clsMgmt i s else r.2)
  else if op = 3 then
    let r := poolIncref pool i clsMgmt s
    done (if r.1 = 0 then 0 else r.1 + 1) r.2
  else if op = 4 then
    let b := s.buf pool i
    let s := s.putB POOL_CMD_STATE_ALLOCATED b.alloc
    done 0 (((s.put POOL_CMD_STATE_OWNER b.owner).put POOL_CMD_STATE_REFCOUNT b.refs).put POOL_CMD_STATE_AGE b.age)
  else done 0 s

end Sys2Proof.Machine
end

