-- ==== Sys2Proof/Machine/Alarms.lean ====
section
/-!
DEFINITION. What blocks need of the Pair Controller and the alarms: pair roles, the effective owner of the time base (R172,
MC26), towline frames (R565), self-demotion (R576) and major alarms (R602).
-/

namespace Sys2Proof.Machine

/-- The pair states of R569, as PAIR_STATUS.STATE encodes them (R585). -/
inductive PairState where
  | solo | standby | active | handover | mateFailed
deriving DecidableEq, Repr

/-- The code of a pair state. -/
def PairState.code : PairState → Nat
  | .solo => 0
  | .standby => 1
  | .active => 2
  | .handover => 3
  | .mateFailed => 4

/-- The pair state a code names. -/
def pairOfCode (c : Nat) : PairState :=
  if c = 1 then .standby else if c = 2 then .active else if c = 3 then .handover else if c = 4 then .mateFailed
  else .solo

/-- This unit's pair state. -/
def State.pairState (s : State) : PairState := pairOfCode (s.get PAIR_STATUS_STATE)

/-- STANDBY, or HANDOVER from STANDBY: the unit follows its mate. -/
def State.pairFollows (s : State) : Bool :=
  s.pairState = .standby || (s.pairState = .handover && !s.on PAIR_STATUS_HO_FROM_ACTIVE)

/-- A carrying role: ACTIVE, MATE_FAILED, or HANDOVER from ACTIVE (R569, R571). -/
def State.pairCarries (s : State) : Bool :=
  s.pairState = .active || s.pairState = .mateFailed || (s.pairState = .handover && s.on PAIR_STATUS_HO_FROM_ACTIVE)

/-- The host is the effective owner of the time base: STEER_OWNER names it and MC26 does not give the Ferryman (R172). -/
def State.hostOwns (s : State) : Bool :=
  s.on TB_CTRL_STEER_OWNER && !(s.pairState = .standby || s.pairState = .handover)

/-- STEP_PENDING reads 1 while a step or load is pending (R199). -/
def stepPendingBit (s : State) : State :=
  s.putB TB_STATUS_STEP_PENDING
    (s.tb.ferryStep.isSome || s.tb.hostStep.isSome || s.tb.load.isSome || s.tb.todin.isSome)

/-- Where the effective owner differs from `was`, a step pending from the previous owner is discarded (R172). -/
def ownerChanged (was : Bool) (s : State) : State :=
  if s.hostOwns = was then s
  else
    let s := if was then { s with tb := { s.tb with hostStep := none } } else { s with tb := { s.tb with ferryStep := none } }
    stepPendingBit (s.putB TB_STATUS_EFF_OWNER (!was))

/-- The pair takes a state; the effective owner of the time base follows (R172, MC26). -/
def pairSet (p : PairState) (s : State) : State := ownerChanged s.hostOwns (s.put PAIR_STATUS_STATE p.code)

/-- A port is UP. -/
def State.portUp (s : State) (p : Nat) : Bool := s.get (MAC_STATUS_STATE p) == 4

/-- A towline frame, without the padding and the FCS of its MAC: destination, source, EtherType, header and body (R565). -/
def towlineFrame (s : State) (ty n : Nat) (body : List Byte) : List Byte :=
  beBytes 6 0x034B44544C00 ++ beBytes 6 (s.wide (FM_PORT_MAC 65)) ++ [0x88, 0xB6] ++
    leBytes 1 1 ++ leBytes 1 ty ++ leBytes 2 body.length ++ leBytes 4 n ++ body

/-- A received towline frame that is discarded (R565): of another version or TYPE, or with a body that does not fit its TYPE. -/
def towlineMisfit (b : List Byte) : Bool :=
  let n := natLE ((b.drop 16).take 2)
  let fits := match byteAt b 15 with
    | 1 => n == 64
    | 2 => n % 8 == 0 && decide (8 ≤ n) && decide (n ≤ 512)
    | 3 | 4 => n == 12
    | 5 => n == 13
    | 6 => n == 1
    | _ => false
  byteAt b 14 != 1 || !fits || decide (b.length < 22 + n + 4)

/-- A frame as its MAC sends it: padded, with its FCS. -/
def framed (l : List Byte) : List Byte :=
  let p := l ++ List.replicate (60 - l.length) 0
  p ++ leBytes 4 (crc32 p).toNat

/-- A towline frame is sent on P65 while it is UP: header and body (R565); in loop-back it reaches P65's own receiver too (R244). -/
def towlineSend (ty : Nat) (body : List Byte) (s : State) : State :=
  let n := s.pair.txSeq
  let s := { s with pair := { s.pair with txSeq := (n + 1) % 2 ^ 32 } }
  let l := towlineFrame s ty n body
  if !s.portUp 65 then s
  else if s.get (LN_CTRL_LOOPBACK 64) = 1 then
    (s.setPort 65 { s.portRec 65 with looped := (s.portRec 65).looped ++ [(false, framed l)] }).send (.towline l)
  else s.send (.towline l)

/-- The mate's last valid report shows MAJOR_ALARM = 0 (R566, R576). -/
def mateClear (s : State) : Bool := !(s.word (PAIR_MATE_REPORT.word 7)).getLsbD 3

/-- An ACTIVE unit demotes itself: DEMOTE is sent with its cause and the unit goes STANDBY (R576). -/
def selfDemote (cause : Nat) (s : State) : State :=
  if s.pairState = .active then
    (pairSet .standby (towlineSend 6 [BitVec.ofNat 8 cause] s)).ev PAIR_EVENT_DEMOTE
  else s

/-- A major alarm source sets its bit (R602, R613); an ACTIVE unit whose mate shows no major alarm demotes itself (R576). -/
def raiseMajor (b : Nat) (s : State) : State :=
  let s := s.putBit FLT_MAJOR_B b true
  if mateClear s then selfDemote 1 s else s

/-- The supply stage (R610): 0 NORMAL to 3 SHED3. -/
def State.stage (s : State) : Nat := s.get PWR_STATUS_STAGE

end Sys2Proof.Machine
end

