-- ==== Sys2Proof/Machine/Gates.lean ====
section
/-!
DEFINITION. Port geometry (R14, R15, R207), the IEEE 802.1Qbv gates of a port (R424 to R429), and the states of express streams
(R457 to R468), as far as other blocks move them.
-/

namespace Sys2Proof.Machine

/-- The RATE of a port's quad: 0 is 1G, 1 10G, 2 25G, 3 100G four-lane; P65 runs at 10G, P64 counts as 25G. -/
def State.rate (s : State) (p : Nat) : Nat :=
  if p < 64 then s.get (LN_QUAD_CFG_RATE (p / 4)) else if p = 65 then 1 else 2

/-- Port `p` exists: not P4n+1 to P4n+3 of a quad that runs as one 100G four-lane port (R15). -/
def State.portExists (s : State) (p : Nat) : Bool :=
  decide (p < 66) && !(decide (p < 64) && s.rate p == 3 && p % 4 != 0)

/-- The time of one byte on the line, in ps. -/
def byteTime (rate : Nat) : Nat :=
  if rate = 0 then 8000 else if rate = 1 then 800 else if rate = 2 then 320 else 80

/-- The port's speed in kbit/s. -/
def rateKbps (rate : Nat) : Nat :=
  if rate = 0 then 1000000 else if rate = 1 then 10000000 else if rate = 2 then 25000000 else 100000000

/-- The present time in ps, on the 4 ns grid of CLK_TIME. -/
def State.nowPs (s : State) : Nat := 4000 * s.now

/-! ### Gate lists -/

/-- Cycle time (ns) of list `l` of port `p`. -/
def listCycle (s : State) (p l : Nat) : Nat := s.get (QM_PORT_LIST_CYCLE_V p l)

/-- The entries of list `l` of port `p`: gates and interval (R450). -/
def listEntries (s : State) (p l : Nat) : List (Nat × Nat) :=
  (List.range (s.get (QM_PORT_LIST_COUNT_V p l))).map (fun e =>
    (s.tword (gateAddr p l e) % 256, s.tword (gateAddr p l e + 4)))

/-- The entry in force `pos` (2^-40 ns) into a cycle: its number, gates and end; the last entry holds to the end of the
cycle (R424). -/
def entryAt (cyc : Nat) : List (Nat × Nat) → Nat → Nat → Nat → Nat × Nat × Nat
  | [], e, _, _ => (e, 255, cyc)
  | [(g, _)], e, _, _ => (e, g, cyc)
  | (g, iv) :: t, e, start, pos =>
    let stop := start + iv * 2 ^ 40
    if pos < stop then (e, g, min stop cyc) else entryAt cyc t (e + 1) stop pos

/-- The port's gates are governed by an operational list now: EN = 1 and a swap has executed, on a port with gates. -/
def gatesRun (s : State) (p : Nat) : Bool :=
  p != 64 && s.on (QM_PORT_GATE_EN p) && s.on (QM_PORT_GATE_OPER_VALID p)

/-- The entry, gates and remaining time of the operational list at time `t` (R427, R429); before T, entry 0. -/
def gateAt (s : State) (p t : Nat) : Nat × Nat × Nat :=
  let l := s.get (QM_PORT_GATE_OPER_LIST p)
  let cyc := listCycle s p l * 2 ^ 40
  let es := listEntries s p l
  let t0 := (s.portRec p).gateT
  if cyc = 0 then (0, 255, 0)
  else if t < t0 then
    let r := entryAt cyc es 0 0 0
    (0, r.2.1, t0 - t)
  else
    let pos := (t - t0) % cyc
    let r := entryAt cyc es 0 0 pos
    (r.1, r.2.1, r.2.2 - pos)

/-- OPER_GATES and CUR_ENTRY of port `p` follow the list at time `t` of the time base; every gate is open without a list, and while the time
base is INVALID (R428, R429). -/
def gateRefreshAt (p t : Nat) (s : State) : State :=
  if gatesRun s p && s.get TB_STATUS_STATE != 0 then
    let r := gateAt s p t
    (s.put (QM_PORT_GATE_OPER_GATES p) r.2.1).put (QM_PORT_GATE_CUR_ENTRY p) r.1
  else (s.put (QM_PORT_GATE_OPER_GATES p) 255).put (QM_PORT_GATE_CUR_ENTRY p) 0

/-- They follow the list at the present time. -/
def gateRefresh (p : Nat) (s : State) : State := gateRefreshAt p s.tb.count s

/-- The ports whose gate register is not at rest. -/
def gatePorts (s : State) : List Nat :=
  (s.regs.filter (fun e => 0x01410000 ≤ e.1 && e.1 < 0x01411080 && e.1 % 0x40 == 0)).map
    (fun e => (e.1 - 0x01410000) / 0x40)

/-- Every list's position is recomputed from the time base (R429). -/
def gateRefreshAll (s : State) : State := forEach (gatePorts s) gateRefresh s

/-- From time `t` the gate of queue `q` stays open for `dur` (2^-40 ns), over at most `fuel` entries. -/
def gateStays (s : State) (p q : Nat) : Nat → Nat → Nat → Bool
  | 0, _, _ => false
  | fuel + 1, t, dur =>
    let r := gateAt s p t
    if !r.2.1.testBit q then false
    else if dur ≤ r.2.2 then true
    else if r.2.2 = 0 then true
    else gateStays s p q fuel (t + r.2.2) (dur - r.2.2)

/-- Gate of queue `q` open from `t` for `dur`, on a port with gates enabled (R426, R470): as it is at the start of each CLK_FAB cycle until
then, which is when a gate event takes effect (R425). -/
def gateOpenFor (s : State) (p q t dur : Nat) : Bool :=
  let l := s.get (QM_PORT_GATE_OPER_LIST p)
  let cyc := listCycle s p l * 2 ^ 40
  gateStays s p q ((s.get (QM_PORT_LIST_COUNT_V p l) + 1) * (dur / max cyc 1 + 3)) t (5 * (dur - 1) / 2 ^ 42 * 2 ^ 42 / 5 + 1)

/-- The refusals of GATE_SWAP (R427). -/
def gateSwapOk (s : State) (p : Nat) : Bool :=
  let l := 1 - s.get (QM_PORT_GATE_OPER_LIST p)
  p != 64 && s.portExists p && s.on (QM_PORT_GATE_EN p) && listCycle s p l != 0 &&
    s.get (QM_PORT_LIST_COUNT_V p l) != 0

/-- The pending list becomes operational, its first cycle starting at `t` with entry 0 (R427). -/
def gateSwap (p t : Nat) (s : State) : State :=
  let l := 1 - s.get (QM_PORT_GATE_OPER_LIST p)
  let s := (s.put (QM_PORT_GATE_OPER_LIST p) l).put (QM_PORT_GATE_OPER_VALID p) 1
  let s := s.setPort p { s.portRec p with gateT := t }
  gateRefresh p (s.count (QM_PORT_SWAPS_V p))

/-! ### Express streams (R456 to R468) -/

/-- The installed streams: those whose EN reads 1. -/
def installed (s : State) : List Nat :=
  (s.regs.filter (fun e => 0x01C10000 ≤ e.1 && e.1 < 0x01C18000 && e.1 % 0x20 == 0 && e.2.getLsbD 0)).map
    (fun e => (e.1 - 0x01C10000) / 0x20)

/-- The conditions of ACTIVE (R468). -/
def xcMayRun (s : State) (n : Nat) : Bool :=
  let i := s.get (XC_STREAM_CFG_INGRESS n)
  let e := s.get (XC_STREAM_CFG_EGRESS n)
  s.portUp i && s.portUp e && s.get TB_STATUS_STATE != 0 && s.on (QM_PORT_GATE_OPER_VALID e) && s.on XC_CTRL_EN

/-- A lane's clocking in effect is SYNTONOUS. -/
def portSynt (s : State) (p : Nat) : Bool :=
  if p < 64 then s.on (LN_STATUS_CLOCK_EFF p) else if p = 65 then s.on (LN_STATUS_CLOCK_EFF 64) else false

/-- The ±2.5 ns tolerance applies to a stream (R462). -/
def xcCoarse (s : State) (n : Nat) : Bool :=
  let i := s.get (XC_STREAM_CFG_INGRESS n)
  let e := s.get (XC_STREAM_CFG_EGRESS n)
  !(s.on (MAC_STATUS_TS_FINE i) && s.on (PHA_TXPH_VALID (e / 4)) && portSynt s i && portSynt s e)

/-- An installed stream follows its conditions: STOPPED to ACTIVE, or back with XC_EVENT.STOPPED (R468); COARSE follows
R462. -/
def xcRefresh (n : Nat) (s : State) : State :=
  let s := s.putB (XC_STREAM_STATUS_COARSE n) (xcCoarse s n)
  let st := s.get (XC_STREAM_STATUS_STATE n)
  if xcMayRun s n then s.put (XC_STREAM_STATUS_STATE n) 2
  else if st = 2 then (s.put (XC_STREAM_STATUS_STATE n) 1).ev XC_EVENT_STOPPED
  else s.put (XC_STREAM_STATUS_STATE n) 1

/-- Every installed stream follows its conditions. -/
def xcRefreshAll (s : State) : State := forEach (installed s) xcRefresh s

/-- The express classes of a port: the distinct TC of the streams installed with it as egress, first come first (R459). -/
def xcClasses (s : State) (p : Nat) : List Nat :=
  ((if s.on (XC_PORT_STATUS_CLASS0_VALID p) then [s.get (XC_PORT_STATUS_CLASS0_TC p)] else []) ++
   (if s.on (XC_PORT_STATUS_CLASS1_VALID p) then [s.get (XC_PORT_STATUS_CLASS1_TC p)] else []))

/-- The Forbidden combinations an installation meets (R457). -/
def xcErrors (s : State) (tc i e : Nat) : List Nat :=
  (if 64 ≤ i || 64 ≤ e then [11] else []) ++
  (if s.on (QM_PORT_GATE_EN e) then [] else [12]) ++
  (if s.on (XC_PORT_CFG_PREEMPT e) && (s.rate e == 0 || s.rate e == 3) then [13] else []) ++
  (if s.rate i < s.rate e then [14] else []) ++
  (if (xcClasses s e).length == 2 && !(xcClasses s e).contains tc then [15] else [])

/-- A class is added to its port's express classes (R459). -/
def xcAddClass (p tc : Nat) (s : State) : State :=
  if (xcClasses s p).contains tc then s
  else if !s.on (XC_PORT_STATUS_CLASS0_VALID p) then
    (s.put (XC_PORT_STATUS_CLASS0_VALID p) 1).put (XC_PORT_STATUS_CLASS0_TC p) tc
  else (s.put (XC_PORT_STATUS_CLASS1_VALID p) 1).put (XC_PORT_STATUS_CLASS1_TC p) tc

/-- A class leaves its port with the last stream that uses it (R459). -/
def xcDropClass (p tc : Nat) (s : State) : State :=
  if (installed s).any (fun n => s.get (XC_STREAM_CFG_EGRESS n) == p && s.get (XC_STREAM_CFG_TC n) == tc) then s
  else if s.on (XC_PORT_STATUS_CLASS0_VALID p) && s.get (XC_PORT_STATUS_CLASS0_TC p) == tc then
    (s.put (XC_PORT_STATUS_CLASS0_VALID p) 0).put (XC_PORT_STATUS_CLASS0_TC p) 0
  else if s.on (XC_PORT_STATUS_CLASS1_VALID p) && s.get (XC_PORT_STATUS_CLASS1_TC p) == tc then
    (s.put (XC_PORT_STATUS_CLASS1_VALID p) 0).put (XC_PORT_STATUS_CLASS1_TC p) 0
  else s

end Sys2Proof.Machine
end

