-- ==== Sys2Proof/Machine/EccWord.lean ====
section
/-!
DEFINITION. The on-chip code (R535): what a byte's inverted bits make of it, the error log (R543), and what is done with a bad
word of the table regions, found by an access or by the scrubber (R537, R541, R546, R547).
-/

namespace Sys2Proof.Machine

/-- The syndrome S of a byte's inverted Hamming positions. -/
def hamSyndrome (m : Nat) : Nat :=
  ((List.range 13).filter (fun i => m.testBit i)).foldl (fun a i => a ^^^ i) 0

/-- The parity mismatch P. -/
def hamParity (m : Nat) : Nat := ((List.range 13).filter (fun i => m.testBit i)).length % 2

/-- The Hamming positions of the data bits d0 to d7. -/
def hamData : List Nat := [3, 5, 6, 7, 9, 10, 11, 12]

/-- The data bits among inverted positions. -/
def hamMask (m : Nat) : Byte :=
  BitVec.ofNat 8 ((List.range 8).foldl (fun v k => if m.testBit (hamData.getD k 0) then v + 2 ^ k else v) 0)

/-- What the code makes of a byte (R535): 0 clean, 1 corrected, 2 uncorrectable. -/
def hamKind (m : Nat) : Nat :=
  let p := hamParity m
  let x := hamSyndrome m
  if p = 0 ∧ x = 0 then 0 else if p = 1 ∧ x ≤ 12 then 1 else 2

/-- How the byte a requester receives differs from the one written, corrected where the code corrects it. -/
def hamError (m : Nat) : Byte :=
  if hamKind m = 1 ∧ hamSyndrome m ≠ 0 then hamMask (m ^^^ 2 ^ hamSyndrome m) else hamMask m

/-- The syndrome as logged, {P, S}. -/
def hamLogged (m : Nat) : Nat := 16 * hamParity m + hamSyndrome m

/-- A region's ECC_INIT_DONE bit (R539, R540). -/
def eccReady (s : State) (r : Nat) : Bool := s.bit ECC_INIT_DONE_V r

/-- An error is logged where the log has room; else OVF is set (R543). -/
def eccLogAdd (r addr syn : Nat) (ue scrub tag : Bool) (s : State) : State :=
  let n := s.ecc.seq + 1
  let s : State := { s with ecc := { s.ecc with seq := n } }
  if 32 ≤ s.ecc.log.length then s.ev ECC_LOG_LEVEL_OVF
  else
    let w1 := syn % 32 + 2 ^ 5 * r + (if ue then 2 ^ 10 else 0) + (if scrub then 2 ^ 11 else 0) +
      (if tag then 2 ^ 12 else 0) + 2 ^ 16 * (n % 2 ^ 15) + 2 ^ 31
    let l := s.ecc.log ++ [(addr, w1)]
    let s : State := { s with ecc := { s.ecc with log := l } }
    s.put ECC_LOG_LEVEL_LEVEL l.length

/-- A correction counts, sets CE and is logged (R541). -/
def eccCe (r addr syn : Nat) (scrub : Bool) (s : State) : State :=
  eccLogAdd r addr syn false scrub false (pmcEvent 0x050 .plain 1 ((s.count ECC_CNT0_CE).ev ECC_EVENT_CE))

/-- An uncorrectable word counts and sets UE (R537); the scrub test of R579 fails. -/
def eccUe (s : State) : State :=
  let s : State := { s with pair := { s.pair with lastUe := some s.now } }
  let s := s.ev PAIR_EVENT_SELFTEST_FAIL
  pmcEvent 0x051 .plain 1 ((s.count ECC_CNT0_UE).ev ECC_EVENT_UE)

/-- A stored byte is rewritten by the protection itself, its check bits new. -/
def eccRewrite (r a : Nat) (b : Byte) (s : State) : State := (s.setByte (eccBase r + a) b).setFlips r a 0

/-- A byte of a table region as stored. -/
def storedByte (s : State) (r a : Nat) : Byte := s.byte (eccBase r + a) ^^^ hamMask (s.flipsAt r a)

/-- One bit of a stored byte is cleared. -/
def clearStored (r a k : Nat) (s : State) : State :=
  eccRewrite r a (storedByte s r a &&& ~~~(BitVec.ofNat 8 (2 ^ k))) s

/-- The entry of a table region that holds a byte takes its invalidated value (R537). -/
def tableVoid (r a : Nat) (s : State) : State :=
  let e := a / eccSize r * eccSize r
  let zero := fun (k n : Nat) (s : State) => forEach (List.range n) (fun i s => eccRewrite r (e + k + i) 0 s) s
  if r = 3 then clearStored 3 (e + 24) 0 s
  else if r = 4 then zero 0 12 s
  else if r = 5 then zero 0 4 s
  else if r = 6 then clearStored 6 (e + 16) 0 s
  else if r = 7 then clearStored 7 (e + 11) 7 s
  else if r = 8 then clearStored 8 (e + 120) 0 s
  else if r = 9 then gateRefresh (a / 0x1000) (eccRewrite 9 e 0xFF s)
  else s

/-- A region waits for its reload: behind the one under way, in ascending order (R639). -/
def reloadQueue (r : Nat) : List Nat → List Nat
  | [] => [r]
  | h :: t => h :: (t.takeWhile (fun x => decide (x < r)) ++ [r] ++ t.dropWhile (fun x => decide (x < r)))

/-- An image under way is loading the region: before its END the region counts as not backed (R546). -/
def ldrLoads (s : State) (r : Nat) : Bool := s.ldr.active && !(smGet [] s.ldr.dirNew r).isEmpty

/-- The flash address of an image (R617). -/
def imageBase (img : Nat) : Nat := if img = 1 then 0x1000000 else 0

/-- The sections of a region are read again from the image in service (R546, R626). -/
def reloadRead (r : Nat) (s : State) : State :=
  forEach (smGet [] s.ecc.dir r) (fun x s => s.send (.flash 0xEC (imageBase (s.get GLB_STATE_IMAGE) + x.offset))) s

/-- What an uncorrectable word of a table region leads to (R546): the entry is invalidated; a backed region is reloaded, the
third time within 10 s given up (R604), and one not backed raises a major alarm. -/
def tableUe (r a : Nat) (s : State) : State :=
  let s := tableVoid r a s
  if s.on (ECC_REG_RELOADING r) then s
  else if s.on (ECC_REG_BACKED r) && !ldrLoads s r then
    let l := recent s.now (smGet [] s.ecc.reloadAt r)
    if 2 ≤ l.length then raiseMajor 8 (s.put (ECC_REG_BACKED r) 0)
    else
      let s : State := { s with ecc := { s.ecc with reloads := reloadQueue r s.ecc.reloads, reloadAt := smSet [] s.ecc.reloadAt r (l ++ [s.now]) } }
      let s := if s.ecc.reloads = [r] then reloadRead r s else s
      s.put (ECC_REG_RELOADING r) 1
  else raiseMajor 8 s

/-- One byte of a table region is read and checked: corrected and written back, or found uncorrectable (R541, R547). -/
def byteCheck (r a : Nat) (scrub : Bool) (s : State) : Bool × State :=
  let m := s.flipsAt r a
  if hamKind m = 0 then (false, s)
  else if hamKind m = 1 then
    (false, eccCe r a (hamLogged m) scrub (eccRewrite r a (s.byte (eccBase r + a) ^^^ hamError m) s))
  else (true, eccLogAdd r a (hamLogged m) true scrub false s)

/-- A word of a table region is read and checked, byte by byte. -/
def wordCheck (r w : Nat) (scrub : Bool) (s : State) : State :=
  let d := (List.range 4).foldl (fun (x : Bool × State) k =>
    let y := byteCheck r (4 * w + k) scrub x.2
    (x.1 || y.1, y.2)) (false, s)
  if d.1 then tableUe r (4 * w) (eccUe d.2) else d.2

/-- The words of `n` bytes from a table address that hold a byte with inverted bits. -/
def badWords (s : State) (r o n : Nat) : List Nat :=
  ((s.ecc.flips.filter (fun e => decide (flipKey r o ≤ e.1) && decide (e.1 < flipKey r (o + n)))).map
    (fun e => e.1 % 2 ^ 32 / 4)).eraseDups

/-- An access or a lookup reads `n` bytes of a table: what it meets is handled before it is used (R547). -/
def eccLook (a n : Nat) (s : State) : State :=
  if s.ecc.flips.isEmpty then s
  else
    match eccPlace a with
    | none => s
    | some (r, o) => if eccReady s r then forEach (badWords s r o n) (fun w s => wordCheck r w false s) s else s

/-! ### The packet buffer (R537, R541, R549) -/

/-- The frames with a byte in a packet-buffer cell: as received, as queued, or in transmission. -/
def cellFrames (s : State) (i : Nat) : List Nat :=
  let of := fun (c : Nat) => (s.copyRec c).frame
  let direct := (s.frames.filter (fun e => e.2.cells.contains i)).map (fun e => e.1)
  let queued := (s.queues.map (fun e => ((e.2.head ++ e.2.staging).filter (fun c => c.buf == i)).map (fun c => of c.copy))).flatten
  let leaving := (s.ports.map (fun e => ([e.2.tx, e.2.held].filterMap id).filterMap (fun t =>
    if t.cells.contains i then t.copy.map of else none))).flatten
  (direct ++ queued ++ leaving).eraseDups

/-- An allocated cell with an uncorrectable word is poisoned: its frames carry the mark (R549). -/
def cellPoison (i : Nat) (s : State) : State :=
  forEach (cellFrames s i) (fun f s => s.setFrame f { s.frameRec f with poison := true }) s

/-- One byte of a cell is read at egress (R541, R547): corrected and written back, or found uncorrectable. -/
def cellByte (a : Nat) (s : State) : Bool × State :=
  let m := s.flipsAt 0 a
  if hamKind m = 0 then (false, s)
  else if hamKind m = 1 then (false, eccCe 0 a (hamLogged m) false (s.setFlips 0 a 0))
  else (true, eccLogAdd 0 a (hamLogged m) true false false s)

/-- Cells are read at egress: what their words meet is handled (R541, R549). -/
def cellsLook (l : List Nat) (s : State) : State :=
  if s.ecc.flips.isEmpty then s
  else
    forEach l (fun i s => forEach (badWords s 0 (256 * i) 256) (fun w s =>
      let d := (List.range 4).foldl (fun (x : Bool × State) k =>
        let y := cellByte (4 * w + k) x.2
        (x.1 || y.1, y.2)) (false, s)
      if d.1 then cellPoison i (eccUe d.2) else d.2) s) s

/-- A frame's bytes as its cells hold them: a byte that is uncorrectable as stored (R547). -/
def asStored (s : State) (cells : List Nat) (l : List Byte) : List Byte :=
  if s.ecc.flips.isEmpty then l
  else l.zipIdx.map (fun x => match cells[x.2 / 256]? with
    | some i => x.1 ^^^ hamMask (s.flipsAt 0 (256 * i + x.2 % 256))
    | none => x.1)

/-! ### A word as its requester receives it -/

/-- A table word as an access receives it (R541, R547): bytes corrected, an uncorrectable one as stored; as stored in a region that is not
initialised (R540). -/
def readWord (s : State) (a : Nat) : Nat :=
  if s.ecc.flips.isEmpty then s.tword a
  else
    match eccPlace a with
    | none => s.tword a
    | some (r, o) =>
      (List.range 4).foldl (fun v k =>
        let m := s.flipsAt r (o + k)
        v + 256 ^ k * (s.byte (a + k) ^^^ (if eccReady s r then hamError m else hamMask m)).toNat) 0

/-- Several such reads. -/
def eccLooks (l : List (Nat × Nat)) (s : State) : State :=
  if s.ecc.flips.isEmpty then s else forEach l (fun x s => eccLook x.1 x.2 s) s

end Sys2Proof.Machine
end

