-- ==== Sys2Proof/Machine/RegMap.lean ====
section
/-!
DEFINITION. The register map as data (R687 to R689): for each register its block, its place and indices, its reset value,
and the access type (R17) and legal values of each field.  Bits no field names are reserved (R20).
-/

namespace Sys2Proof.Machine

/-- The registers of the index, one name each. -/
inductive RegId where
  | GLB_DEVICE_ID | GLB_ACC_STATUS | GLB_STATE | GLB_MODE_ERR | GLB_CTRL | SYN_ROOT
  | SYN_STATUS | SYN_BAND_STORE | SYN_DITHER | SYN_DITHER_SEED | SYN_EVENT | SYN_AUX_CFG
  | SYN_AUX_PLAN_CTL | SYN_AUX_PLAN_FRAC | SYN_QPLL_PLAN | OUT_CFG | OUT_PHASE | OUT_SLEW
  | OUT_STATUS | OUT_ZDB | OUT_ENABLE | OUT_EVENT | PPS_CFG | PPS_STATUS
  | PPS_REALIGN | PPS_OUT_CFG | PPS_OUT_PERIOD | PPS_OUT_WIDTH | PPS_OUT_OFFSET | PPS_OUT_PATTERN
  | PPS_OUT_DIFF | REF_CTRL | REF_STATUS | REF_EVENT | REF_WTR | REF_DISAGREE
  | REF_SLOT_CFG | REF_SLOT_FWIN | REF_SLOT_SOAK | REF_SLOT_HIT | REF_SLOT_STATE | REF_SLOT_FREQ
  | REF_SLOT_INSTAB | REF_SLOT_NOM | DPLL_CFG | DPLL_STATUS | DPLL_LOCK | DPLL_PHASE_ERR
  | DCO_CTRL | DCO_OFFSET | HOLD_CFG | HOLD_STATUS | HOLD_VALUE | HOLD_FREERUN
  | HOLD_FRAM_CFG | REF_ENS_CTRL | REF_ENS_STATUS | REF_ENS_OFFSET | REF_ENS_MEMBER | REF_ENS_MSTAT
  | HOLD_HIST | TB_CTRL | TB_STATUS | TB_EVENT | TB_EPOCH | TB_TIME
  | TB_INCR | TB_POLICY | TB_STEP_THRESH | TB_FINE | TB_HOST_STATE | TB_STEP
  | TB_STEP_CTRL | TB_LOAD | TB_LOAD_CTRL | TB_LAST_TIME | TB_LAST_SIZE | TB_LAST_CAUSE
  | TB_HOLD_INCR | TB_SNAP_CTRL | TB_SNAP | TB_TOD_CFG | TB_TOD_UTC | TB_TOD_IN_STATUS
  | TB_TOD_IN_DIFF | SCH_LATE | SCH_ACT_TIME | SCH_ACT_PERIOD | SCH_ACT_CTRL | SCH_ACT_PARAM0
  | SCH_ACT_PARAM1 | SCH_ACT_STATUS | LN_CTRL | LN_STATUS | LN_EVENT | LN_SYNT_LIMIT
  | LN_SYNT_HOLD | LN_EQ | LN_TX_PRESET | LN_TX_CUR | LN_LAT | LN_LAT_RX
  | LN_LAT_TX | LN_EB | LN_PRBS_CTRL | LN_PRBS_STATUS | LN_PRBS_ERR | LN_USER_PAT
  | LN_EYE_CTRL | LN_EYE_STATUS | LN_EYE_ERR | LN_CNT0 | LN_CNT1 | LN_CNT2
  | LN_CNT3 | LN_QUAD_CFG | LN_QUAD_STATUS | LN_RCS_CFG | MAC_CFG | MAC_STATUS
  | MAC_EVENT | MAC_HOLD | MAC_TS_RX_LAT | MAC_TS_TX_LAT | MAC_CNT0 | MAC_CNT1
  | MAC_CNT2 | MAC_CNT3 | MAC_C30 | PHA_EVENT | PHA_CH_VALID | PHA_CH_CFG
  | PHA_CH_DG | PHA_CH_SAMPLE | PHA_CH_UNWRAP | PHA_TXPH | PHA_PORT_TRIM_RX | PHA_PORT_TRIM_TX
  | PHA_PORT_ASYM | PHA_PORT_STATUS | FM_CTRL | FM_STATUS | FM_EVENT | FM_JUMP_THRESH
  | FM_CONFIRM | FM_CNT0 | FM_CNT1 | FM_DOM_CFG | FM_DOM_ID | FM_DOM_DS
  | FM_DOM_QUAL | FM_DOM_DS2 | FM_DOM_ANN | FM_DOM_SERVO | FM_DOM_DLY | FM_DOM_STATUS
  | FM_DOM_PARENT | FM_DOM_PARENT_PORT | FM_DOM_GM | FM_DOM_OFFSET | FM_DOM_LAST | FM_DOM_INTEG
  | FM_PORT_MAC | FM_PORT_IP4 | FM_PORT_IP6 | FM_SESS_CFG | FM_SESS_INTV | FM_SESS_VLAN
  | FM_SESS_STATUS | FM_SESS_OFFSET | FM_SESS_DELAY | FM_SESS_NRR | FM_SESS_CNT0 | FM_SESS_CNT1
  | FM_SESS_CNT2 | FM_SESS_CNT3 | FWD_CTRL | FWD_EVENT | FWD_MAC_CMD | FWD_MAC_KEY
  | FWD_MAC_DATA | FWD_CNT_FRAMES | FWD_CNT_VLAN_DROP | FWD_CNT_FILTER_DROP | FWD_CNT_FCS_DROP | FWD_CNT_LEARN
  | FWD_PORT_CFG | FWD_PORT_PCP2TC | QM_EVENT | QM_STATUS | QM_RESERVE | QM_STUCK
  | QM_MAX_RESIDENCE | QM_ENTRIES | QM_SPILL_CFG | QM_SPILL_STATUS | QM_REFILL | QM_CNT0
  | QM_CNT1 | QM_RED | QM_RED_MIN | QM_RED_MAX | QM_RED_MAXP | QM_PORT_GATE
  | QM_PORT_LIST_CYCLE | QM_PORT_LIST_COUNT | QM_PORT_SWAPS | QM_Q_CFG | QM_Q_MIN | QM_Q_QUANTUM
  | QM_Q_SPILL_MAX | QM_Q_IDLE_SLOPE | QM_Q_HI_CREDIT | QM_Q_LO_CREDIT | QM_Q_STATUS | QM_Q_CELLS
  | QM_Q_PAGES | QM_Q_AVG | QM_Q_FRAMES | QM_Q_CNT0 | QM_Q_CNT1 | QM_Q_CNT2
  | QM_Q_CREDIT | POOL_EVENT | POOL_ERR_LOG | POOL_CMD | POOL_CMD_INDEX | POOL_CMD_STATE
  | POOL_CFG | POOL_SHARE_MASK | POOL_SIZE | POOL_FREE | POOL_LOW_WATER | POOL_CNT0
  | POOL_CNT1 | POOL_CNT2 | XC_CTRL | XC_EVENT | XC_CNT | XC_PORT_CFG
  | XC_PORT_STATUS | XC_PORT_CNT0 | XC_PORT_CNT1 | XC_STREAM_CFG | XC_STREAM_MAX_LEN | XC_STREAM_STATUS
  | XC_STREAM_CNT0 | XC_STREAM_CNT1 | XC_STREAM_CNT2 | TIU_CTRL | TIU_CFG | TIU_N
  | TIU_START_TO | TIU_WIN_OPEN | TIU_WIN_CLOSE | TIU_STATUS | TIU_EVENT | TIU_LAST
  | TIU_STAT | TIU_FIFO | TIU_FIFO_LEVEL | CAL_EVENT | CAL_STATUS | CAL_CFG
  | CAL_K_STATUS | CAL_COUNT | CAL_LAST | CAL_FAILS | CAL_RUN | CAL_LAT
  | ECC_CTRL | ECC_EVENT | ECC_INIT_DONE | ECC_SCRUB | ECC_SCRUB_STATUS | ECC_CFG_STATUS
  | ECC_CNT0 | ECC_CNT1 | ECC_INJ | ECC_LOG_LEVEL | ECC_LOG | ECC_REG
  | PAIR_CTRL | PAIR_STATUS | PAIR_EVENT | PAIR_TIMING | PAIR_SEQ | PAIR_LOCK
  | PAIR_XCHK | PAIR_XCHK_TRIM | PAIR_CNT0 | PAIR_CNT1 | PAIR_CNT2 | PAIR_CNT3
  | PAIR_TEST | PAIR_MATE_REPORT | PAIR_GENSEL | PWR_CTRL | PWR_STATUS | PWR_EVENT
  | PWR_RESTORE_HOLD | PWR_CNT | PWR_LAST | FLT_MAJOR | FLT_MINOR | LDR_STATUS
  | LDR_EVENT | LDR_FAIL | LDR_FAIL_OFFSET | LDR_CFG | LDR_OTP | LDR_IMAGE_VER
  | LDR_LOAD_TIME | LDR_HOST_CTRL | LDR_HOST_STATUS | LDR_HOST_FIFO | LDR_CNT | MGT_PRIV
  | MGT_EVENT | MGT_PRIV_LOG | MGT_CFG | MGT_IRQ_SRC | MGT_IRQ_EN | MGT_IRQ_PIN_EN
  | MGT_IRQ_REARM | MGT_IRQ_VEC | MGT_LN_SUMMARY | MGT_MAC_SUMMARY | MGT_DMA_CTRL | MGT_DMA_EVENT
  | MGT_RING_BASE | MGT_RING_SIZE | MGT_RING_HEAD | MGT_RING_TAIL | MGT_RING_EN | MGT_RING_FRAMES
  | MGT_MMP_CFG | MGT_MMP_MAC | MGT_MMP_LAST_SEQ | MGT_MMP_CNT | MGT_MMP_ACCEPTED | MGT_MMP_KEY
  | MGT_MMP_PORTS | MGT_I2C_CFG | MGT_I2C_CMD | MGT_I2C_LEN | MGT_I2C_STATUS | MGT_I2C_DATA
  | MGT_MDIO_CFG | MGT_MDIO_CMD | MGT_MDIO_STATUS | PMC_CTRL | PMC_OVF | PMC_EVENT
  | PMC_DUMP_CTRL | PMC_DUMP_STATUS | PMC_DUMP_SEQ | PMC_DUMP_LOST | PMC_DUMP_HOST_BASE | PMC_DUMP_HOST_SIZE
  | PMC_DUMP_HOST_WR | PMC_DUMP_HOST_RD | PMC_CNT_CFG | PMC_CNT_ADDR_LO | PMC_CNT_ADDR_HI | PMC_CNT
deriving DecidableEq, Repr

/-- The access types of R17. -/
inductive Acc where
  | ro | rw | rw1c | w1s | wo | rc | rws
deriving DecidableEq, Repr

/-- A field: its place in the whole value, its access type, and the values a write may carry (none listed: all). -/
structure FSpec where
  lsb : Nat
  width : Nat
  acc : Acc
  ok : List (Nat × Nat) := []
deriving DecidableEq, Repr

/-- A register: lowest address, up to two indices (stride, count), words, reset value and fields. -/
structure RegSpec where
  id : RegId
  base : Nat
  s0 : Nat
  c0 : Nat
  s1 : Nat
  c1 : Nat
  words : Nat
  reset : Nat → Nat → Nat
  fs : List FSpec

/-- The registers of the GLB_ block. -/
def regsGlb : List RegSpec :=
  [⟨.GLB_DEVICE_ID, 0x00000000, 0x0, 1, 0x0, 1, 1, fun _ _ => 0x648000B0,
    [⟨16, 16, .ro, []⟩, ⟨0, 8, .ro, []⟩]⟩,
  ⟨.GLB_ACC_STATUS, 0x00000004, 0x0, 1, 0x0, 1, 1, fun _ _ => 0,
    [⟨8, 3, .ro, []⟩, ⟨2, 1, .rw1c, []⟩, ⟨1, 1, .rw1c, []⟩, ⟨0, 1, .rw1c, []⟩]⟩,
  ⟨.GLB_STATE, 0x00000008, 0x0, 1, 0x0, 1, 1, fun _ _ => 0x301,
    [⟨20, 4, .ro, []⟩, ⟨12, 4, .ro, []⟩, ⟨8, 2, .ro, []⟩, ⟨0, 3, .ro, []⟩]⟩,
  ⟨.GLB_MODE_ERR, 0x0000000C, 0x0, 1, 0x0, 1, 1, fun _ _ => 0,
    [⟨31, 1, .rw1c, []⟩, ⟨30, 1, .rw1c, []⟩, ⟨26, 3, .ro, []⟩, ⟨16, 10, .ro, []⟩, ⟨0, 8, .ro, []⟩]⟩,
  ⟨.GLB_CTRL, 0x00000010, 0x0, 1, 0x0, 1, 1, fun _ _ => 0,
    [⟨0, 1, .rws, []⟩]⟩]

/-- The registers of the SYN_ block. -/
def regsSyn : List RegSpec :=
  [⟨.SYN_ROOT, 0x00100000, 0x0, 1, 0x0, 1, 1, fun _ _ => 0x3,
    [⟨16, 16, .ro, []⟩, ⟨3, 1, .ro, []⟩, ⟨0, 3, .ro, []⟩]⟩,
  ⟨.SYN_STATUS, 0x00100004, 0x0, 1, 0x0, 1, 1, fun _ _ => 0,
    [⟨16, 9, .ro, []⟩, ⟨6, 1, .ro, []⟩, ⟨5, 1, .ro, []⟩, ⟨4, 1, .ro, []⟩, ⟨3, 1, .ro, []⟩, ⟨2, 1, .ro, []⟩, ⟨1, 1, .ro, []⟩, ⟨0, 1, .ro, []⟩]⟩,
  ⟨.SYN_BAND_STORE, 0x00100008, 0x0, 1, 0x0, 1, 1, fun _ _ => 0,
    [⟨16, 1, .rw, []⟩, ⟨0, 9, .rw, []⟩]⟩,
  ⟨.SYN_DITHER, 0x0010000C, 0x0, 1, 0x0, 1, 1, fun _ _ => 0x2,
    [⟨4, 1, .rws, []⟩, ⟨0, 2, .rw, [(0, 2)]⟩]⟩,
  ⟨.SYN_DITHER_SEED, 0x00100010, 0x0, 1, 0x0, 1, 1, fun _ _ => 0x7FFFFF,
    [⟨0, 23, .rw, []⟩]⟩,
  ⟨.SYN_EVENT, 0x00100014, 0x0, 1, 0x0, 1, 1, fun _ _ => 0,
    [⟨8, 1, .rw1c, []⟩, ⟨7, 1, .rw1c, []⟩, ⟨6, 1, .rw1c, []⟩, ⟨5, 1, .rw1c, []⟩, ⟨4, 1, .rw1c, []⟩, ⟨3, 1, .rw1c, []⟩, ⟨2, 1, .rw1c, []⟩, ⟨1, 1, .rw1c, []⟩, ⟨0, 1, .rw1c, []⟩]⟩,
  ⟨.SYN_AUX_CFG, 0x00100100, 0x80, 2, 0x0, 1, 1, fun _ _ => 0,
    [⟨4, 1, .ro, []⟩, ⟨3, 1, .rw, []⟩, ⟨0, 3, .rw, []⟩]⟩,
  ⟨.SYN_AUX_PLAN_CTL, 0x00100140, 0x80, 2, 0x8, 8, 1, fun _ _ => 0x18,
    [⟨16, 1, .rw, []⟩, ⟨8, 8, .rw, []⟩, ⟨0, 8, .rw, []⟩]⟩,
  ⟨.SYN_AUX_PLAN_FRAC, 0x00100144, 0x80, 2, 0x8, 8, 1, fun _ _ => 0,
    [⟨0, 32, .rw, []⟩]⟩,
  ⟨.SYN_QPLL_PLAN, 0x00100400, 0x20, 16, 0x4, 8, 1, fun _ _ => 0,
    [⟨15, 1, .rw, []⟩, ⟨8, 7, .rw, []⟩, ⟨0, 8, .rw, []⟩]⟩]

/-- The registers of the OUT_ block. -/
def regsOut : List RegSpec :=
  [⟨.OUT_CFG, 0x00110000, 0x20, 12, 0x0, 1, 1, fun _ _ => 0x12000063,
    [⟨28, 2, .rw, [(0, 2)]⟩, ⟨26, 2, .rw, [(0, 2)]⟩, ⟨25, 1, .rw, []⟩, ⟨0, 20, .rw, [(1, 0xFFFFF)]⟩]⟩,
  ⟨.OUT_PHASE, 0x00110004, 0x20, 12, 0x0, 1, 1, fun _ _ => 0,
    [⟨0, 32, .rw, []⟩]⟩,
  ⟨.OUT_SLEW, 0x00110008, 0x20, 12, 0x0, 1, 1, fun _ _ => 0x10,
    [⟨0, 12, .rw, [(1, 4095)]⟩]⟩,
  ⟨.OUT_STATUS, 0x0011000C, 0x20, 12, 0x0, 1, 1, fun _ _ => 0,
    [⟨5, 1, .ro, []⟩, ⟨4, 1, .ro, []⟩, ⟨3, 1, .ro, []⟩, ⟨2, 1, .ro, []⟩, ⟨1, 1, .ro, []⟩, ⟨0, 1, .ro, []⟩]⟩,
  ⟨.OUT_ZDB, 0x00110010, 0x20, 4, 0x0, 1, 1, fun _ _ => 0,
    [⟨15, 17, .ro, []⟩, ⟨0, 1, .rw, []⟩]⟩,
  ⟨.OUT_ENABLE, 0x00110400, 0x0, 1, 0x0, 1, 1, fun _ _ => 0,
    [⟨0, 12, .rw, []⟩]⟩,
  ⟨.OUT_EVENT, 0x00110404, 0x0, 1, 0x0, 1, 1, fun _ _ => 0,
    [⟨4, 4, .rw1c, []⟩, ⟨2, 1, .rw1c, []⟩, ⟨1, 1, .rw1c, []⟩, ⟨0, 1, .rw1c, []⟩]⟩,
  ⟨.PPS_CFG, 0x00110800, 0x0, 1, 0x0, 1, 1, fun _ _ => 0x1,
    [⟨1, 1, .rw, []⟩, ⟨0, 1, .rw, []⟩]⟩,
  ⟨.PPS_STATUS, 0x00110804, 0x0, 1, 0x0, 1, 1, fun _ _ => 0,
    [⟨8, 4, .rw1c, []⟩, ⟨4, 4, .ro, []⟩, ⟨0, 4, .ro, []⟩]⟩,
  ⟨.PPS_REALIGN, 0x00110808, 0x0, 1, 0x0, 1, 1, fun _ _ => 0,
    [⟨0, 4, .rws, []⟩]⟩,
  ⟨.PPS_OUT_CFG, 0x00110840, 0x20, 4, 0x0, 1, 1, fun _ _ => 0,
    [⟨3, 1, .rw, []⟩, ⟨1, 2, .rw, [(0, 2)]⟩, ⟨0, 1, .rw, []⟩]⟩,
  ⟨.PPS_OUT_PERIOD, 0x00110844, 0x20, 4, 0x0, 1, 1, fun _ _ => 0x3B9ACA00,
    [⟨0, 32, .rw, []⟩]⟩,
  ⟨.PPS_OUT_WIDTH, 0x00110848, 0x20, 4, 0x0, 1, 1, fun _ _ => 0x05F5E100,
    [⟨0, 32, .rw, []⟩]⟩,
  ⟨.PPS_OUT_OFFSET, 0x0011084C, 0x20, 4, 0x0, 1, 1, fun _ _ => 0,
    [⟨0, 32, .rw, []⟩]⟩,
  ⟨.PPS_OUT_PATTERN, 0x00110850, 0x20, 4, 0x0, 1, 2, fun _ _ => 0,
    [⟨0, 64, .rw, []⟩]⟩,
  ⟨.PPS_OUT_DIFF, 0x00110858, 0x20, 4, 0x0, 1, 2, fun _ _ => 0,
    [⟨0, 64, .ro, []⟩]⟩]

/-- The registers of the REF_ block. -/
def regsRef : List RegSpec :=
  [⟨.REF_CTRL, 0x00200000, 0x0, 1, 0x0, 1, 1, fun _ _ => 0x8,
    [⟨8, 4, .rw, []⟩, ⟨3, 1, .rw, []⟩, ⟨0, 3, .rw, [(0, 3)]⟩]⟩,
  ⟨.REF_STATUS, 0x00200004, 0x0, 1, 0x0, 1, 1, fun _ _ => 0,
    [⟨11, 1, .ro, []⟩, ⟨10, 1, .ro, []⟩, ⟨9, 1, .ro, []⟩, ⟨8, 1, .ro, []⟩, ⟨0, 4, .ro, []⟩]⟩,
  ⟨.REF_EVENT, 0x00200008, 0x0, 1, 0x0, 1, 1, fun _ _ => 0,
    [⟨10, 1, .rw1c, []⟩, ⟨9, 1, .rw1c, []⟩, ⟨8, 1, .rw1c, []⟩, ⟨7, 1, .rw1c, []⟩, ⟨6, 1, .rw1c, []⟩, ⟨5, 1, .rw1c, []⟩, ⟨4, 1, .rw1c, []⟩, ⟨3, 1, .rw1c, []⟩, ⟨2, 1, .rw1c, []⟩, ⟨1, 1, .rw1c, []⟩, ⟨0, 1, .rw1c, []⟩]⟩,
  ⟨.REF_WTR, 0x0020000C, 0x0, 1, 0x0, 1, 1, fun _ _ => 0x12C,
    [⟨0, 12, .rw, [(0, 3600)]⟩]⟩,
  ⟨.REF_DISAGREE, 0x00200010, 0x0, 1, 0x0, 1, 1, fun _ _ => 0xC3500,
    [⟨0, 24, .rw, []⟩]⟩,
  ⟨.REF_SLOT_CFG, 0x00200100, 0x20, 16, 0x0, 1, 1, fun n _ => if n < 12 then 0xFFF0 else 0xFFF0 + 0x10000 * (n - 12),
    [⟨16, 3, .rw, [(0, 4)]⟩, ⟨8, 8, .rw, []⟩, ⟨4, 4, .rw, []⟩, ⟨0, 1, .rw, []⟩]⟩,
  ⟨.REF_SLOT_FWIN, 0x00200104, 0x20, 16, 0x0, 1, 1, fun _ _ => 0x08C61800,
    [⟨0, 28, .rw, []⟩]⟩,
  ⟨.REF_SLOT_SOAK, 0x00200108, 0x20, 16, 0x0, 1, 1, fun _ _ => 0xA,
    [⟨0, 12, .rw, [(1, 3600)]⟩]⟩,
  ⟨.REF_SLOT_HIT, 0x0020010C, 0x20, 16, 0x0, 1, 1, fun _ _ => 0x64000,
    [⟨0, 32, .rw, []⟩]⟩,
  ⟨.REF_SLOT_STATE, 0x00200110, 0x20, 16, 0x0, 1, 1, fun _ _ => 0,
    [⟨16, 12, .ro, []⟩, ⟨0, 3, .ro, []⟩]⟩,
  ⟨.REF_SLOT_FREQ, 0x00200114, 0x20, 16, 0x0, 1, 1, fun _ _ => 0,
    [⟨0, 32, .ro, []⟩]⟩,
  ⟨.REF_SLOT_INSTAB, 0x00200118, 0x20, 16, 0x0, 1, 1, fun _ _ => 0xFFFFFFFF,
    [⟨0, 32, .ro, []⟩]⟩,
  ⟨.REF_SLOT_NOM, 0x0020011C, 0x20, 16, 0x0, 1, 1, fun _ _ => 0x00989680,
    [⟨0, 30, .rw, [(1, 800000000)]⟩]⟩,
  ⟨.DPLL_CFG, 0x00200400, 0x0, 1, 0x0, 1, 1, fun _ _ => 0x64,
    [⟨0, 4, .rw, [(0, 13)]⟩, ⟨4, 4, .rw, [(0, 13)]⟩]⟩,
  ⟨.DPLL_STATUS, 0x00200404, 0x0, 1, 0x0, 1, 1, fun _ _ => 0x4,
    [⟨8, 2, .ro, []⟩, ⟨4, 1, .ro, []⟩, ⟨0, 4, .ro, []⟩]⟩,
  ⟨.DPLL_LOCK, 0x00200408, 0x0, 1, 0x0, 1, 1, fun _ _ => 0x00011000,
    [⟨0, 16, .rw, []⟩, ⟨16, 12, .rw, [(1, 4095)]⟩]⟩,
  ⟨.DPLL_PHASE_ERR, 0x0020040C, 0x0, 1, 0x0, 1, 1, fun _ _ => 0,
    [⟨0, 32, .ro, []⟩]⟩,
  ⟨.DCO_CTRL, 0x00200800, 0x0, 1, 0x0, 1, 1, fun _ _ => 0,
    [⟨0, 1, .rw, []⟩]⟩,
  ⟨.DCO_OFFSET, 0x00200804, 0x0, 1, 0x0, 1, 2, fun _ _ => 0,
    [⟨0, 34, .rw, []⟩, ⟨34, 30, .ro, []⟩]⟩,
  ⟨.HOLD_CFG, 0x00200C00, 0x0, 1, 0x0, 1, 1, fun _ _ => 0x00080040,
    [⟨0, 13, .rw, [(1, 4096)]⟩, ⟨16, 11, .rw, [(1, 1024)]⟩]⟩] ++
  [⟨.HOLD_STATUS, 0x00200C04, 0x0, 1, 0x0, 1, 1, fun _ _ => 0,
    [⟨16, 16, .ro, []⟩, ⟨6, 1, .ro, []⟩, ⟨4, 2, .ro, []⟩, ⟨1, 1, .ro, []⟩, ⟨0, 1, .ro, []⟩]⟩,
  ⟨.HOLD_VALUE, 0x00200C08, 0x0, 1, 0x0, 1, 2, fun _ _ => 0,
    [⟨0, 34, .ro, []⟩, ⟨34, 30, .ro, []⟩]⟩,
  ⟨.HOLD_FREERUN, 0x00200C10, 0x0, 1, 0x0, 1, 2, fun _ _ => 0,
    [⟨0, 34, .rw, []⟩, ⟨34, 30, .ro, []⟩]⟩,
  ⟨.HOLD_FRAM_CFG, 0x00200C18, 0x0, 1, 0x0, 1, 1, fun _ _ => 0,
    [⟨0, 1, .rw, []⟩, ⟨1, 1, .rw, []⟩]⟩,
  ⟨.REF_ENS_CTRL, 0x00201000, 0x0, 1, 0x0, 1, 1, fun _ _ => 0x00640000,
    [⟨0, 1, .rw, []⟩, ⟨16, 12, .rw, [(1, 4095)]⟩]⟩,
  ⟨.REF_ENS_STATUS, 0x00201004, 0x0, 1, 0x0, 1, 1, fun _ _ => 0,
    [⟨0, 4, .ro, []⟩, ⟨8, 1, .ro, []⟩]⟩,
  ⟨.REF_ENS_OFFSET, 0x00201008, 0x0, 1, 0x0, 1, 2, fun _ _ => 0,
    [⟨0, 64, .ro, []⟩]⟩,
  ⟨.REF_ENS_MEMBER, 0x00201040, 0x8, 8, 0x0, 1, 1, fun _ _ => 0,
    [⟨0, 9, .rw, []⟩, ⟨15, 1, .rw, []⟩]⟩,
  ⟨.REF_ENS_MSTAT, 0x00201044, 0x8, 8, 0x0, 1, 1, fun _ _ => 0,
    [⟨0, 2, .ro, []⟩, ⟨16, 16, .ro, []⟩]⟩,
  ⟨.HOLD_HIST, 0x00208000, 0x8, 4096, 0x0, 1, 2, fun _ _ => 0,
    [⟨0, 34, .ro, []⟩, ⟨63, 1, .ro, []⟩]⟩]

/-- The registers of the TB_ block. -/
def regsTb : List RegSpec :=
  [⟨.TB_CTRL, 0x00300000, 0x0, 1, 0x0, 1, 1, fun _ _ => 0,
    [⟨4, 3, .rw, [(0, 4)]⟩, ⟨0, 1, .rw, []⟩]⟩,
  ⟨.TB_STATUS, 0x00300004, 0x0, 1, 0x0, 1, 1, fun _ _ => 0,
    [⟨7, 1, .ro, []⟩, ⟨6, 1, .ro, []⟩, ⟨5, 1, .ro, []⟩, ⟨4, 1, .ro, []⟩, ⟨3, 1, .rw1c, []⟩, ⟨2, 1, .ro, []⟩, ⟨0, 2, .ro, []⟩]⟩,
  ⟨.TB_EVENT, 0x00300008, 0x0, 1, 0x0, 1, 1, fun _ _ => 0,
    [⟨9, 1, .rw1c, []⟩, ⟨8, 1, .rw1c, []⟩, ⟨7, 1, .rw1c, []⟩, ⟨6, 1, .rw1c, []⟩, ⟨5, 1, .rw1c, []⟩, ⟨4, 1, .rw1c, []⟩, ⟨3, 1, .rw1c, []⟩, ⟨2, 1, .rw1c, []⟩, ⟨1, 1, .rw1c, []⟩, ⟨0, 1, .rw1c, []⟩]⟩,
  ⟨.TB_EPOCH, 0x0030000C, 0x0, 1, 0x0, 1, 1, fun _ _ => 0,
    [⟨0, 32, .ro, []⟩]⟩,
  ⟨.TB_TIME, 0x00300010, 0x0, 1, 0x0, 1, 3, fun _ _ => 0,
    [⟨0, 96, .ro, []⟩]⟩,
  ⟨.TB_INCR, 0x00300020, 0x0, 1, 0x0, 1, 2, fun _ _ => 0x040000000000,
    [⟨0, 48, .rw, []⟩]⟩,
  ⟨.TB_POLICY, 0x00300028, 0x0, 1, 0x0, 1, 1, fun _ _ => 0x64,
    [⟨0, 10, .rw, [(1, 1000)]⟩, ⟨16, 1, .rw, []⟩]⟩,
  ⟨.TB_STEP_THRESH, 0x0030002C, 0x0, 1, 0x0, 1, 1, fun _ _ => 0x3E8,
    [⟨0, 32, .rw, []⟩]⟩,
  ⟨.TB_FINE, 0x00300030, 0x0, 1, 0x0, 1, 1, fun _ _ => 0x00080032,
    [⟨0, 16, .rw, [(1, 65535)]⟩, ⟨16, 8, .rw, [(1, 255)]⟩]⟩,
  ⟨.TB_HOST_STATE, 0x00300034, 0x0, 1, 0x0, 1, 1, fun _ _ => 0x1,
    [⟨0, 2, .rw, [(1, 3)]⟩]⟩,
  ⟨.TB_STEP, 0x00300040, 0x0, 1, 0x0, 1, 2, fun _ _ => 0,
    [⟨0, 64, .rw, []⟩]⟩,
  ⟨.TB_STEP_CTRL, 0x00300048, 0x0, 1, 0x0, 1, 1, fun _ _ => 0,
    [⟨0, 1, .rws, []⟩]⟩,
  ⟨.TB_LOAD, 0x00300050, 0x0, 1, 0x0, 1, 3, fun _ _ => 0,
    [⟨0, 96, .rw, []⟩]⟩,
  ⟨.TB_LOAD_CTRL, 0x0030005C, 0x0, 1, 0x0, 1, 1, fun _ _ => 0,
    [⟨0, 1, .rws, []⟩]⟩,
  ⟨.TB_LAST_TIME, 0x00300060, 0x0, 1, 0x0, 1, 3, fun _ _ => 0,
    [⟨0, 96, .ro, []⟩]⟩,
  ⟨.TB_LAST_SIZE, 0x00300070, 0x0, 1, 0x0, 1, 2, fun _ _ => 0,
    [⟨0, 64, .ro, []⟩]⟩,
  ⟨.TB_LAST_CAUSE, 0x00300078, 0x0, 1, 0x0, 1, 1, fun _ _ => 0,
    [⟨0, 4, .ro, []⟩]⟩,
  ⟨.TB_HOLD_INCR, 0x00300080, 0x0, 1, 0x0, 1, 2, fun _ _ => 0x040000000000,
    [⟨0, 48, .ro, []⟩]⟩,
  ⟨.TB_SNAP_CTRL, 0x00300100, 0x0, 1, 0x0, 1, 1, fun _ _ => 0,
    [⟨4, 1, .rw, []⟩, ⟨3, 1, .rw, []⟩, ⟨2, 1, .rw, []⟩, ⟨1, 1, .rw, []⟩, ⟨0, 1, .rws, []⟩]⟩,
  ⟨.TB_SNAP, 0x00300110, 0x10, 3, 0x0, 1, 4, fun _ _ => 0,
    [⟨0, 96, .ro, []⟩, ⟨96, 16, .ro, []⟩, ⟨112, 2, .ro, []⟩, ⟨120, 1, .ro, []⟩, ⟨121, 1, .ro, []⟩]⟩] ++
  [⟨.TB_TOD_CFG, 0x00300200, 0x0, 1, 0x0, 1, 1, fun _ _ => 0x640,
    [⟨18, 1, .rw, []⟩, ⟨17, 1, .rw, []⟩, ⟨16, 1, .rw, []⟩, ⟨4, 10, .rw, [(1, 900)]⟩, ⟨1, 2, .rw, []⟩, ⟨0, 1, .rw, []⟩]⟩,
  ⟨.TB_TOD_UTC, 0x00300204, 0x0, 1, 0x0, 1, 1, fun _ _ => 0x00080025,
    [⟨0, 16, .rw, []⟩, ⟨16, 1, .rw, []⟩, ⟨17, 1, .rw, []⟩, ⟨18, 1, .rw, []⟩, ⟨19, 1, .rw, []⟩]⟩,
  ⟨.TB_TOD_IN_STATUS, 0x00300208, 0x0, 1, 0x0, 1, 1, fun _ _ => 0,
    [⟨0, 16, .rc, []⟩, ⟨16, 8, .rc, []⟩]⟩,
  ⟨.TB_TOD_IN_DIFF, 0x00300210, 0x0, 1, 0x0, 1, 2, fun _ _ => 0,
    [⟨0, 64, .ro, []⟩]⟩,
  ⟨.SCH_LATE, 0x00300800, 0x0, 1, 0x0, 1, 2, fun _ _ => 0,
    [⟨0, 64, .rw1c, []⟩]⟩,
  ⟨.SCH_ACT_TIME, 0x00301000, 0x20, 64, 0x0, 1, 3, fun _ _ => 0,
    [⟨0, 96, .rw, []⟩]⟩,
  ⟨.SCH_ACT_PERIOD, 0x0030100C, 0x20, 64, 0x0, 1, 1, fun _ _ => 0,
    [⟨0, 32, .rw, [(0, 0), (1000, 4294967295)]⟩]⟩,
  ⟨.SCH_ACT_CTRL, 0x00301010, 0x20, 64, 0x0, 1, 1, fun _ _ => 0,
    [⟨31, 1, .rws, []⟩, ⟨30, 1, .wo, []⟩, ⟨4, 1, .rw, []⟩, ⟨0, 4, .rw, [(0, 6)]⟩]⟩,
  ⟨.SCH_ACT_PARAM0, 0x00301014, 0x20, 64, 0x0, 1, 1, fun _ _ => 0,
    [⟨0, 32, .rw, []⟩]⟩,
  ⟨.SCH_ACT_PARAM1, 0x00301018, 0x20, 64, 0x0, 1, 1, fun _ _ => 0,
    [⟨0, 32, .rw, []⟩]⟩,
  ⟨.SCH_ACT_STATUS, 0x0030101C, 0x20, 64, 0x0, 1, 1, fun _ _ => 0,
    [⟨16, 16, .ro, []⟩, ⟨0, 3, .ro, []⟩]⟩]

/-- The registers of the LN_ block. -/
def regsLn : List RegSpec :=
  [⟨.LN_CTRL, 0x00400000, 0x1000, 65, 0x0, 1, 1, fun _ _ => 0x13000,
    [⟨16, 1, .rw, []⟩, ⟨12, 2, .rw, [(1, 3)]⟩, ⟨8, 2, .rw, [(0, 1)]⟩, ⟨5, 1, .rw, []⟩, ⟨4, 1, .rw, []⟩, ⟨2, 1, .rw, []⟩, ⟨1, 1, .rw, []⟩, ⟨0, 1, .rw, []⟩]⟩,
  ⟨.LN_STATUS, 0x00400004, 0x1000, 65, 0x0, 1, 1, fun _ _ => 0,
    [⟨16, 10, .ro, []⟩, ⟨9, 1, .ro, []⟩, ⟨8, 1, .ro, []⟩, ⟨7, 1, .ro, []⟩, ⟨6, 1, .ro, []⟩, ⟨5, 1, .ro, []⟩, ⟨4, 1, .ro, []⟩, ⟨0, 3, .ro, []⟩]⟩,
  ⟨.LN_EVENT, 0x00400008, 0x1000, 65, 0x0, 1, 1, fun _ _ => 0,
    [⟨11, 1, .rw1c, []⟩, ⟨10, 1, .rw1c, []⟩, ⟨9, 1, .rw1c, []⟩, ⟨8, 1, .rw1c, []⟩, ⟨7, 1, .rw1c, []⟩, ⟨6, 1, .rw1c, []⟩, ⟨5, 1, .rw1c, []⟩, ⟨4, 1, .rw1c, []⟩, ⟨3, 1, .rw1c, []⟩, ⟨2, 1, .rw1c, []⟩, ⟨1, 1, .rw1c, []⟩, ⟨0, 1, .rw1c, []⟩]⟩,
  ⟨.LN_SYNT_LIMIT, 0x0040000C, 0x1000, 65, 0x0, 1, 1, fun _ _ => 0x27100,
    [⟨0, 24, .rw, [(1, 16777215)]⟩]⟩,
  ⟨.LN_SYNT_HOLD, 0x00400010, 0x1000, 65, 0x0, 1, 1, fun _ _ => 0xA,
    [⟨0, 16, .rw, [(1, 10000)]⟩]⟩,
  ⟨.LN_EQ, 0x00400014, 0x1000, 65, 0x0, 1, 1, fun _ _ => 0x110,
    [⟨0, 6, .rw, [(0, 36)]⟩, ⟨8, 1, .rw, []⟩, ⟨16, 6, .ro, []⟩, ⟨24, 1, .ro, []⟩]⟩,
  ⟨.LN_TX_PRESET, 0x00400018, 0x1000, 65, 0x0, 1, 1, fun _ _ => 0x3F00,
    [⟨0, 5, .rw, [(0, 15)]⟩, ⟨8, 6, .rw, []⟩, ⟨16, 5, .rw, []⟩]⟩,
  ⟨.LN_TX_CUR, 0x0040001C, 0x1000, 65, 0x0, 1, 1, fun _ _ => 0x3F00,
    [⟨0, 5, .ro, []⟩, ⟨8, 6, .ro, []⟩, ⟨16, 5, .ro, []⟩]⟩,
  ⟨.LN_LAT, 0x00400020, 0x1000, 65, 0x0, 1, 1, fun _ _ => 0,
    [⟨0, 7, .ro, []⟩, ⟨8, 7, .ro, []⟩, ⟨16, 13, .ro, []⟩, ⟨31, 1, .ro, []⟩]⟩,
  ⟨.LN_LAT_RX, 0x00400024, 0x1000, 65, 0x0, 1, 1, fun _ _ => 0,
    [⟨0, 24, .ro, []⟩]⟩,
  ⟨.LN_LAT_TX, 0x00400028, 0x1000, 65, 0x0, 1, 1, fun _ _ => 0,
    [⟨0, 16, .ro, []⟩]⟩,
  ⟨.LN_EB, 0x0040002C, 0x1000, 65, 0x0, 1, 1, fun _ _ => 0,
    [⟨0, 6, .ro, []⟩]⟩,
  ⟨.LN_PRBS_CTRL, 0x00400030, 0x1000, 65, 0x0, 1, 1, fun _ _ => 0x450,
    [⟨0, 1, .rw, []⟩, ⟨1, 1, .rw, []⟩, ⟨4, 3, .rw, []⟩, ⟨7, 1, .rw, []⟩, ⟨8, 1, .rws, []⟩, ⟨9, 1, .rw, []⟩, ⟨10, 6, .rw, [(1, 63)]⟩, ⟨16, 16, .rw, []⟩]⟩,
  ⟨.LN_PRBS_STATUS, 0x00400034, 0x1000, 65, 0x0, 1, 1, fun _ _ => 0,
    [⟨0, 1, .ro, []⟩, ⟨1, 1, .rw1c, []⟩]⟩,
  ⟨.LN_PRBS_ERR, 0x00400038, 0x1000, 65, 0x0, 1, 2, fun _ _ => 0,
    [⟨0, 48, .rc, []⟩]⟩,
  ⟨.LN_USER_PAT, 0x00400040, 0x1000, 65, 0x0, 1, 3, fun _ _ => 0,
    [⟨0, 80, .rw, []⟩]⟩,
  ⟨.LN_EYE_CTRL, 0x00400050, 0x1000, 65, 0x0, 1, 1, fun _ _ => 0xA0000,
    [⟨0, 6, .rw, []⟩, ⟨8, 8, .rw, [(0, 127), (129, 255)]⟩, ⟨16, 5, .rw, [(0, 30)]⟩, ⟨31, 1, .rws, []⟩]⟩,
  ⟨.LN_EYE_STATUS, 0x00400054, 0x1000, 65, 0x0, 1, 1, fun _ _ => 0,
    [⟨0, 2, .ro, []⟩]⟩,
  ⟨.LN_EYE_ERR, 0x00400058, 0x1000, 65, 0x0, 1, 1, fun _ _ => 0,
    [⟨0, 32, .ro, []⟩]⟩,
  ⟨.LN_CNT0, 0x00400060, 0x1000, 65, 0x0, 1, 1, fun _ _ => 0,
    [⟨0, 16, .rc, []⟩, ⟨16, 16, .rc, []⟩]⟩] ++
  [⟨.LN_CNT1, 0x00400064, 0x1000, 65, 0x0, 1, 1, fun _ _ => 0,
    [⟨0, 16, .rc, []⟩, ⟨16, 16, .rc, []⟩]⟩,
  ⟨.LN_CNT2, 0x00400068, 0x1000, 65, 0x0, 1, 1, fun _ _ => 0,
    [⟨0, 16, .rc, []⟩, ⟨16, 16, .rc, []⟩]⟩,
  ⟨.LN_CNT3, 0x0040006C, 0x1000, 65, 0x0, 1, 1, fun _ _ => 0,
    [⟨0, 16, .rc, []⟩, ⟨16, 16, .rc, []⟩]⟩,
  ⟨.LN_QUAD_CFG, 0x00450000, 0x10, 16, 0x0, 1, 1, fun _ _ => 0x2,
    [⟨0, 2, .rw, []⟩, ⟨4, 3, .rw, []⟩]⟩,
  ⟨.LN_QUAD_STATUS, 0x00450004, 0x10, 16, 0x0, 1, 1, fun _ _ => 0,
    [⟨0, 1, .ro, []⟩, ⟨1, 1, .ro, []⟩, ⟨8, 1, .rw1c, []⟩, ⟨9, 1, .rw1c, []⟩, ⟨10, 1, .rw1c, []⟩]⟩,
  ⟨.LN_RCS_CFG, 0x00460000, 0x4, 4, 0x0, 1, 1, fun _ _ => 0,
    [⟨0, 7, .rw, [(0, 64)]⟩, ⟨8, 1, .rw, []⟩, ⟨16, 1, .ro, []⟩, ⟨24, 1, .rw1c, []⟩]⟩]

/-- The registers of the MAC_ block. -/
def regsMac : List RegSpec :=
  [⟨.MAC_CFG, 0x00800000, 0x1000, 66, 0x0, 1, 1, fun _ _ => 0x25800100,
    [⟨16, 14, .rw, [(64, 9600)]⟩, ⟨8, 1, .rw, []⟩, ⟨4, 1, .rw, []⟩, ⟨1, 2, .rw, [(0, 2)]⟩, ⟨0, 1, .rw, []⟩]⟩,
  ⟨.MAC_STATUS, 0x00800004, 0x1000, 66, 0x0, 1, 1, fun _ _ => 0,
    [⟨11, 1, .ro, []⟩, ⟨9, 2, .ro, []⟩, ⟨7, 1, .ro, []⟩, ⟨6, 1, .ro, []⟩, ⟨0, 3, .ro, []⟩]⟩,
  ⟨.MAC_EVENT, 0x00800008, 0x1000, 66, 0x0, 1, 1, fun _ _ => 0,
    [⟨6, 1, .rw1c, []⟩, ⟨5, 1, .rw1c, []⟩, ⟨4, 1, .rw1c, []⟩, ⟨3, 1, .rw1c, []⟩, ⟨2, 1, .rw1c, []⟩, ⟨1, 1, .rw1c, []⟩, ⟨0, 1, .rw1c, []⟩]⟩,
  ⟨.MAC_HOLD, 0x0080000C, 0x1000, 66, 0x0, 1, 1, fun _ _ => 0x0064000A,
    [⟨0, 10, .rw, [(0, 1000)]⟩, ⟨16, 10, .rw, [(0, 1000)]⟩]⟩,
  ⟨.MAC_TS_RX_LAT, 0x00800010, 0x1000, 66, 0x0, 1, 2, fun _ _ => 0,
    [⟨0, 64, .ro, []⟩]⟩,
  ⟨.MAC_TS_TX_LAT, 0x00800018, 0x1000, 66, 0x0, 1, 2, fun _ _ => 0,
    [⟨0, 64, .ro, []⟩]⟩,
  ⟨.MAC_CNT0, 0x00800020, 0x1000, 66, 0x0, 1, 1, fun _ _ => 0,
    [⟨0, 16, .rc, []⟩, ⟨16, 16, .rc, []⟩]⟩,
  ⟨.MAC_CNT1, 0x00800024, 0x1000, 66, 0x0, 1, 1, fun _ _ => 0,
    [⟨0, 32, .rc, []⟩]⟩,
  ⟨.MAC_CNT2, 0x00800028, 0x1000, 66, 0x0, 1, 1, fun _ _ => 0,
    [⟨0, 16, .rc, []⟩, ⟨16, 16, .rc, []⟩]⟩,
  ⟨.MAC_CNT3, 0x0080002C, 0x1000, 66, 0x0, 1, 1, fun _ _ => 0,
    [⟨0, 16, .rc, []⟩]⟩,
  ⟨.MAC_C30, 0x00800100, 0x1000, 66, 0x8, 13, 2, fun _ _ => 0,
    [⟨0, 64, .ro, []⟩]⟩]

/-- The registers of the PHA_ block. -/
def regsPha : List RegSpec :=
  [⟨.PHA_EVENT, 0x00C00000, 0x0, 1, 0x0, 1, 1, fun _ _ => 0,
    [⟨4, 1, .rw1c, []⟩, ⟨3, 1, .rw1c, []⟩, ⟨2, 1, .rw1c, []⟩, ⟨1, 1, .rw1c, []⟩, ⟨0, 1, .rw1c, []⟩]⟩,
  ⟨.PHA_CH_VALID, 0x00C00010, 0x0, 1, 0x0, 1, 3, fun _ _ => 0,
    [⟨0, 80, .ro, []⟩]⟩,
  ⟨.PHA_CH_CFG, 0x00C00100, 0x10, 80, 0x0, 1, 1, fun _ _ => 0x100,
    [⟨16, 4, .rw, [(0, 11)]⟩, ⟨8, 8, .rw, [(1, 80)]⟩, ⟨4, 3, .rw, [(0, 6)]⟩, ⟨0, 1, .rw, []⟩]⟩,
  ⟨.PHA_CH_DG, 0x00C00104, 0x10, 80, 0x0, 1, 1, fun _ _ => 0x100,
    [⟨0, 12, .rw, [(16, 4095)]⟩]⟩,
  ⟨.PHA_CH_SAMPLE, 0x00C00108, 0x10, 80, 0x0, 1, 1, fun _ _ => 0,
    [⟨0, 14, .ro, []⟩, ⟨16, 1, .ro, []⟩, ⟨17, 1, .ro, []⟩, ⟨18, 1, .ro, []⟩, ⟨19, 1, .ro, []⟩, ⟨24, 8, .ro, []⟩]⟩,
  ⟨.PHA_CH_UNWRAP, 0x00C0010C, 0x10, 80, 0x0, 1, 1, fun _ _ => 0,
    [⟨0, 32, .ro, []⟩]⟩,
  ⟨.PHA_TXPH, 0x00C00800, 0x4, 17, 0x0, 1, 1, fun _ _ => 0,
    [⟨0, 16, .ro, []⟩, ⟨31, 1, .ro, []⟩]⟩,
  ⟨.PHA_PORT_TRIM_RX, 0x00C01000, 0x10, 66, 0x0, 1, 1, fun _ _ => 0,
    [⟨0, 32, .rw, []⟩]⟩,
  ⟨.PHA_PORT_TRIM_TX, 0x00C01004, 0x10, 66, 0x0, 1, 1, fun _ _ => 0,
    [⟨0, 32, .rw, []⟩]⟩,
  ⟨.PHA_PORT_ASYM, 0x00C01008, 0x10, 66, 0x0, 1, 1, fun _ _ => 0,
    [⟨0, 32, .rw, []⟩]⟩,
  ⟨.PHA_PORT_STATUS, 0x00C0100C, 0x10, 66, 0x0, 1, 1, fun _ _ => 0,
    [⟨0, 8, .ro, []⟩, ⟨8, 1, .ro, []⟩, ⟨9, 1, .ro, []⟩]⟩]

/-- The registers of the FM_ block. -/
def regsFm : List RegSpec :=
  [⟨.FM_CTRL, 0x00D00000, 0x0, 1, 0x0, 1, 1, fun _ _ => 0,
    [⟨1, 1, .rws, []⟩, ⟨0, 1, .rw, []⟩]⟩,
  ⟨.FM_STATUS, 0x00D00004, 0x0, 1, 0x0, 1, 1, fun _ _ => 0,
    [⟨16, 8, .rc, []⟩, ⟨4, 2, .ro, []⟩, ⟨1, 1, .ro, []⟩, ⟨0, 1, .ro, []⟩]⟩,
  ⟨.FM_EVENT, 0x00D00008, 0x0, 1, 0x0, 1, 1, fun _ _ => 0,
    [⟨9, 1, .rw1c, []⟩, ⟨8, 1, .rw1c, []⟩, ⟨7, 1, .rw1c, []⟩, ⟨6, 1, .rw1c, []⟩, ⟨5, 1, .rw1c, []⟩, ⟨4, 1, .rw1c, []⟩, ⟨3, 1, .rw1c, []⟩, ⟨2, 1, .rw1c, []⟩, ⟨1, 1, .rw1c, []⟩, ⟨0, 1, .rw1c, []⟩]⟩,
  ⟨.FM_JUMP_THRESH, 0x00D0000C, 0x0, 1, 0x0, 1, 1, fun _ _ => 0x64,
    [⟨0, 24, .rw, [(1, 16777215)]⟩]⟩,
  ⟨.FM_CONFIRM, 0x00D00010, 0x0, 1, 0x0, 1, 1, fun _ _ => 4,
    [⟨0, 4, .rw, [(1, 15)]⟩]⟩,
  ⟨.FM_CNT0, 0x00D00020, 0x0, 1, 0x0, 1, 1, fun _ _ => 0,
    [⟨0, 16, .rc, []⟩, ⟨16, 16, .rc, []⟩]⟩,
  ⟨.FM_CNT1, 0x00D00024, 0x0, 1, 0x0, 1, 1, fun _ _ => 0,
    [⟨0, 16, .rc, []⟩, ⟨16, 16, .rc, []⟩]⟩,
  ⟨.FM_DOM_CFG, 0x00D01000, 0x100, 4, 0x0, 1, 1, fun _ _ => 0x10,
    [⟨24, 8, .rw, []⟩, ⟨16, 2, .rw, []⟩, ⟨12, 2, .rw, []⟩, ⟨8, 1, .rw, []⟩, ⟨4, 1, .rw, []⟩, ⟨0, 1, .rw, []⟩]⟩,
  ⟨.FM_DOM_ID, 0x00D01004, 0x100, 4, 0x0, 1, 2, fun _ _ => 0,
    [⟨0, 64, .rw, []⟩]⟩,
  ⟨.FM_DOM_DS, 0x00D0100C, 0x100, 4, 0x0, 1, 1, fun _ _ => 0xA0FE8080,
    [⟨0, 8, .rw, []⟩, ⟨8, 8, .rw, []⟩, ⟨16, 8, .rw, []⟩, ⟨24, 8, .rw, []⟩]⟩,
  ⟨.FM_DOM_QUAL, 0x00D01010, 0x100, 4, 0x0, 1, 1, fun _ _ => 0xF80706,
    [⟨0, 8, .rw, []⟩, ⟨8, 8, .rw, []⟩, ⟨16, 8, .rw, []⟩]⟩,
  ⟨.FM_DOM_DS2, 0x00D01014, 0x100, 4, 0x0, 1, 1, fun _ _ => 0x80FFFF,
    [⟨0, 16, .rw, []⟩, ⟨16, 8, .rw, []⟩]⟩,
  ⟨.FM_DOM_ANN, 0x00D01018, 0x100, 4, 0x0, 1, 1, fun _ _ => 0x030301,
    [⟨0, 4, .rw, [(0, 4), (13, 15)]⟩, ⟨8, 8, .rw, [(2, 255)]⟩, ⟨16, 8, .rw, [(2, 255)]⟩]⟩,
  ⟨.FM_DOM_SERVO, 0x00D0101C, 0x100, 4, 0x0, 1, 1, fun _ _ => 0x40001000,
    [⟨0, 16, .rw, []⟩, ⟨16, 16, .rw, []⟩]⟩,
  ⟨.FM_DOM_DLY, 0x00D01020, 0x100, 4, 0x0, 1, 1, fun _ _ => 0xA04,
    [⟨0, 4, .rw, [(0, 8)]⟩, ⟨8, 8, .rw, []⟩]⟩,
  ⟨.FM_DOM_STATUS, 0x00D01030, 0x100, 4, 0x0, 1, 1, fun _ _ => 0,
    [⟨0, 1, .ro, []⟩, ⟨1, 1, .ro, []⟩, ⟨2, 1, .ro, []⟩, ⟨3, 1, .ro, []⟩, ⟨8, 8, .ro, []⟩, ⟨16, 9, .ro, []⟩, ⟨25, 1, .ro, []⟩]⟩,
  ⟨.FM_DOM_PARENT, 0x00D01034, 0x100, 4, 0x0, 1, 2, fun _ _ => 0,
    [⟨0, 64, .ro, []⟩]⟩,
  ⟨.FM_DOM_PARENT_PORT, 0x00D0103C, 0x100, 4, 0x0, 1, 1, fun _ _ => 0xFF0000,
    [⟨0, 16, .ro, []⟩, ⟨16, 8, .ro, []⟩]⟩,
  ⟨.FM_DOM_GM, 0x00D01040, 0x100, 4, 0x0, 1, 2, fun _ _ => 0,
    [⟨0, 64, .ro, []⟩]⟩,
  ⟨.FM_DOM_OFFSET, 0x00D01048, 0x100, 4, 0x0, 1, 2, fun _ _ => 0,
    [⟨0, 64, .ro, []⟩]⟩] ++
  [⟨.FM_DOM_LAST, 0x00D01050, 0x100, 4, 0x0, 1, 2, fun _ _ => 0,
    [⟨0, 64, .ro, []⟩]⟩,
  ⟨.FM_DOM_INTEG, 0x00D01058, 0x100, 4, 0x0, 1, 1, fun _ _ => 0,
    [⟨0, 32, .ro, []⟩]⟩,
  ⟨.FM_PORT_MAC, 0x00D02000, 0x20, 66, 0x0, 1, 2, fun _ _ => 0,
    [⟨0, 48, .rw, []⟩]⟩,
  ⟨.FM_PORT_IP4, 0x00D02008, 0x20, 66, 0x0, 1, 1, fun _ _ => 0,
    [⟨0, 32, .rw, []⟩]⟩,
  ⟨.FM_PORT_IP6, 0x00D0200C, 0x20, 66, 0x0, 1, 4, fun _ _ => 0,
    [⟨0, 128, .rw, []⟩]⟩,
  ⟨.FM_SESS_CFG, 0x00D10000, 0x40, 512, 0x0, 1, 1, fun _ _ => 0x80040040,
    [⟨24, 8, .rw, []⟩, ⟨18, 1, .rw, []⟩, ⟨17, 1, .rw, []⟩, ⟨16, 1, .rw, []⟩, ⟨15, 1, .rw, []⟩, ⟨8, 7, .rw, [(0, 65)]⟩, ⟨7, 1, .rw, []⟩, ⟨6, 1, .rw, []⟩, ⟨5, 1, .rw, []⟩, ⟨3, 2, .rw, [(0, 2)]⟩, ⟨1, 2, .rw, []⟩, ⟨0, 1, .rw, []⟩]⟩,
  ⟨.FM_SESS_INTV, 0x00D10004, 0x40, 512, 0x0, 1, 1, fun _ _ => 0xC0C,
    [⟨0, 4, .rw, [(0, 4), (9, 15)]⟩, ⟨8, 4, .rw, [(0, 5), (9, 15)]⟩, ⟨16, 4, .rw, [(0, 5), (9, 15)]⟩, ⟨24, 4, .rw, [(0, 4), (12, 15)]⟩]⟩,
  ⟨.FM_SESS_VLAN, 0x00D10008, 0x40, 512, 0x0, 1, 1, fun _ _ => 0x30001,
    [⟨0, 12, .rw, [(1, 4094)]⟩, ⟨12, 3, .rw, []⟩, ⟨15, 1, .rw, []⟩, ⟨16, 8, .rw, [(1, 255)]⟩]⟩,
  ⟨.FM_SESS_STATUS, 0x00D1000C, 0x40, 512, 0x0, 1, 1, fun _ _ => 3,
    [⟨16, 4, .ro, []⟩, ⟨12, 4, .ro, []⟩, ⟨8, 3, .ro, []⟩, ⟨7, 1, .ro, []⟩, ⟨6, 1, .ro, []⟩, ⟨5, 1, .ro, []⟩, ⟨4, 1, .ro, []⟩, ⟨0, 4, .ro, []⟩]⟩,
  ⟨.FM_SESS_OFFSET, 0x00D10010, 0x40, 512, 0x0, 1, 2, fun _ _ => 0,
    [⟨0, 64, .ro, []⟩]⟩,
  ⟨.FM_SESS_DELAY, 0x00D10018, 0x40, 512, 0x0, 1, 2, fun _ _ => 0,
    [⟨0, 64, .ro, []⟩]⟩,
  ⟨.FM_SESS_NRR, 0x00D10020, 0x40, 512, 0x0, 1, 1, fun _ _ => 0,
    [⟨0, 32, .ro, []⟩]⟩,
  ⟨.FM_SESS_CNT0, 0x00D10028, 0x40, 512, 0x0, 1, 1, fun _ _ => 0,
    [⟨0, 16, .rc, []⟩, ⟨16, 16, .rc, []⟩]⟩,
  ⟨.FM_SESS_CNT1, 0x00D1002C, 0x40, 512, 0x0, 1, 1, fun _ _ => 0,
    [⟨0, 16, .rc, []⟩, ⟨16, 16, .rc, []⟩]⟩,
  ⟨.FM_SESS_CNT2, 0x00D10030, 0x40, 512, 0x0, 1, 1, fun _ _ => 0,
    [⟨0, 16, .rc, []⟩, ⟨16, 16, .rc, []⟩]⟩,
  ⟨.FM_SESS_CNT3, 0x00D10034, 0x40, 512, 0x0, 1, 1, fun _ _ => 0,
    [⟨0, 16, .rc, []⟩, ⟨16, 16, .rc, []⟩]⟩]

/-- The registers of the FWD_ block. -/
def regsFwd : List RegSpec :=
  [⟨.FWD_CTRL, 0x01000000, 0x0, 1, 0x0, 1, 1, fun _ _ => 0x012C0003,
    [⟨16, 16, .rw, []⟩, ⟨2, 1, .rw, []⟩, ⟨1, 1, .rw, []⟩, ⟨0, 1, .rw, []⟩]⟩,
  ⟨.FWD_EVENT, 0x01000004, 0x0, 1, 0x0, 1, 1, fun _ _ => 0,
    [⟨4, 1, .rw1c, []⟩, ⟨3, 1, .rw1c, []⟩, ⟨2, 1, .rw1c, []⟩, ⟨1, 1, .rw1c, []⟩, ⟨0, 1, .rw1c, []⟩]⟩,
  ⟨.FWD_MAC_CMD, 0x01000010, 0x0, 1, 0x0, 1, 1, fun _ _ => 0,
    [⟨0, 3, .rw, [(1, 4)]⟩, ⟨8, 7, .rw, []⟩, ⟨15, 1, .rw, []⟩, ⟨16, 3, .ro, []⟩, ⟨31, 1, .rws, []⟩]⟩,
  ⟨.FWD_MAC_KEY, 0x01000014, 0x0, 1, 0x0, 1, 2, fun _ _ => 0,
    [⟨0, 48, .rw, []⟩, ⟨48, 12, .rw, []⟩]⟩,
  ⟨.FWD_MAC_DATA, 0x0100001C, 0x0, 1, 0x0, 1, 1, fun _ _ => 0,
    [⟨0, 10, .rw, []⟩, ⟨12, 1, .rw, []⟩, ⟨13, 1, .rw, []⟩, ⟨14, 1, .rw, []⟩, ⟨31, 1, .rw, []⟩]⟩,
  ⟨.FWD_CNT_FRAMES, 0x01000040, 0x10, 2, 0x0, 1, 1, fun _ _ => 0,
    [⟨0, 32, .rc, []⟩]⟩,
  ⟨.FWD_CNT_VLAN_DROP, 0x01000044, 0x10, 2, 0x0, 1, 1, fun _ _ => 0,
    [⟨0, 32, .rc, []⟩]⟩,
  ⟨.FWD_CNT_FILTER_DROP, 0x01000048, 0x10, 2, 0x0, 1, 1, fun _ _ => 0,
    [⟨0, 32, .rc, []⟩]⟩,
  ⟨.FWD_CNT_FCS_DROP, 0x0100004C, 0x10, 2, 0x0, 1, 1, fun _ _ => 0,
    [⟨0, 32, .rc, []⟩]⟩,
  ⟨.FWD_CNT_LEARN, 0x01000060, 0x0, 1, 0x0, 1, 1, fun _ _ => 0,
    [⟨0, 32, .rc, []⟩]⟩,
  ⟨.FWD_PORT_CFG, 0x01001000, 0x10, 66, 0x0, 1, 1, fun _ _ => 0x001C0001,
    [⟨21, 1, .rw, []⟩, ⟨20, 1, .rw, []⟩, ⟨19, 1, .rw, []⟩, ⟨18, 1, .rw, []⟩, ⟨16, 2, .rw, [(0, 2)]⟩, ⟨12, 3, .rw, []⟩, ⟨0, 12, .rw, [(1, 4094)]⟩]⟩,
  ⟨.FWD_PORT_PCP2TC, 0x01001004, 0x10, 66, 0x0, 1, 1, fun _ _ => 0x00FAC688,
    [⟨0, 24, .rw, []⟩]⟩]

/-- The registers of the QM_ block. -/
def regsQm : List RegSpec :=
  [⟨.QM_EVENT, 0x01400000, 0x0, 1, 0x0, 1, 1, fun _ _ => 0,
    [⟨7, 1, .rw1c, []⟩, ⟨6, 1, .rw1c, []⟩, ⟨5, 1, .rw1c, []⟩, ⟨4, 1, .rw1c, []⟩, ⟨3, 1, .rw1c, []⟩, ⟨1, 1, .rw1c, []⟩, ⟨0, 1, .rw1c, []⟩]⟩,
  ⟨.QM_STATUS, 0x01400004, 0x0, 1, 0x0, 1, 1, fun _ _ => 0,
    [⟨0, 1, .ro, []⟩, ⟨1, 1, .ro, []⟩]⟩,
  ⟨.QM_RESERVE, 0x01400008, 0x0, 1, 0x0, 1, 1, fun _ _ => 0xA00,
    [⟨0, 18, .rw, [(2508, 65535)]⟩]⟩,
  ⟨.QM_STUCK, 0x0140000C, 0x0, 1, 0x0, 1, 1, fun _ _ => 0x64,
    [⟨0, 14, .rw, [(1, 10000)]⟩]⟩,
  ⟨.QM_MAX_RESIDENCE, 0x01400010, 0x0, 1, 0x0, 1, 1, fun _ _ => 0x1F4,
    [⟨0, 13, .rw, [(1, 5000)]⟩]⟩,
  ⟨.QM_ENTRIES, 0x01400014, 0x0, 1, 0x0, 1, 1, fun _ _ => 0x80000,
    [⟨0, 20, .ro, []⟩]⟩,
  ⟨.QM_SPILL_CFG, 0x01400020, 0x0, 1, 0x0, 1, 1, fun _ _ => 0x21000002,
    [⟨0, 1, .rw, []⟩, ⟨1, 1, .rw, []⟩, ⟨4, 3, .rw, [(0, 4)]⟩, ⟨8, 1, .rw, []⟩, ⟨9, 1, .rw, []⟩, ⟨16, 16, .rw, [(8448, 65535)]⟩]⟩,
  ⟨.QM_SPILL_STATUS, 0x01400024, 0x0, 1, 0x0, 1, 1, fun _ _ => 0,
    [⟨0, 3, .ro, []⟩, ⟨8, 2, .ro, []⟩]⟩,
  ⟨.QM_REFILL, 0x01400028, 0x0, 1, 0x0, 1, 1, fun _ _ => 0x02000100,
    [⟨0, 16, .rw, [(16, 65535)]⟩, ⟨16, 16, .rw, []⟩]⟩,
  ⟨.QM_CNT0, 0x01400030, 0x0, 1, 0x0, 1, 1, fun _ _ => 0,
    [⟨0, 16, .rc, []⟩, ⟨16, 16, .rc, []⟩]⟩,
  ⟨.QM_CNT1, 0x01400034, 0x0, 1, 0x0, 1, 1, fun _ _ => 0,
    [⟨0, 16, .rc, []⟩, ⟨16, 16, .rc, []⟩]⟩,
  ⟨.QM_RED, 0x01401000, 0x40, 16, 0x0, 1, 1, fun _ _ => 0x9,
    [⟨0, 4, .rw, []⟩]⟩,
  ⟨.QM_RED_MIN, 0x01401010, 0x40, 16, 0x10, 3, 1, fun _ _ => 0x0FFFFFFF,
    [⟨0, 28, .rw, []⟩]⟩,
  ⟨.QM_RED_MAX, 0x01401014, 0x40, 16, 0x10, 3, 1, fun _ _ => 0x0FFFFFFF,
    [⟨0, 28, .rw, []⟩]⟩,
  ⟨.QM_RED_MAXP, 0x01401018, 0x40, 16, 0x10, 3, 1, fun _ _ => 0,
    [⟨0, 8, .rw, []⟩]⟩,
  ⟨.QM_PORT_GATE, 0x01410000, 0x40, 66, 0x0, 1, 1, fun _ _ => 0x00FF0000,
    [⟨16, 8, .ro, []⟩, ⟨8, 8, .ro, []⟩, ⟨2, 1, .ro, []⟩, ⟨1, 1, .ro, []⟩, ⟨0, 1, .rw, []⟩]⟩,
  ⟨.QM_PORT_LIST_CYCLE, 0x01410008, 0x40, 66, 0x8, 2, 1, fun _ _ => 0,
    [⟨0, 30, .rw, [(0, 0), (1000, 1000000000)]⟩]⟩,
  ⟨.QM_PORT_LIST_COUNT, 0x0141000C, 0x40, 66, 0x8, 2, 1, fun _ _ => 0,
    [⟨0, 9, .rw, [(0, 256)]⟩]⟩,
  ⟨.QM_PORT_SWAPS, 0x01410018, 0x40, 66, 0x0, 1, 1, fun _ _ => 0,
    [⟨0, 32, .rc, []⟩]⟩,
  ⟨.QM_Q_CFG, 0x01420000, 0x40, 528, 0x0, 1, 1, fun _ _ => 0,
    [⟨16, 4, .rw, [(0, 3), (9, 15)]⟩, ⟨8, 1, .rw, []⟩, ⟨4, 4, .rw, []⟩, ⟨3, 1, .rw, []⟩, ⟨2, 1, .rw, []⟩, ⟨1, 1, .rw, []⟩, ⟨0, 1, .rw, []⟩]⟩] ++
  [⟨.QM_Q_MIN, 0x01420004, 0x40, 528, 0x0, 1, 1, fun _ _ => 0x10,
    [⟨0, 18, .rw, []⟩]⟩,
  ⟨.QM_Q_QUANTUM, 0x01420008, 0x40, 528, 0x0, 1, 1, fun _ _ => 0x600,
    [⟨0, 16, .rw, [(64, 65535)]⟩]⟩,
  ⟨.QM_Q_SPILL_MAX, 0x0142000C, 0x40, 528, 0x0, 1, 1, fun _ _ => 0x4000,
    [⟨0, 25, .rw, [(0, 16777216)]⟩]⟩,
  ⟨.QM_Q_IDLE_SLOPE, 0x01420010, 0x40, 528, 0x0, 1, 1, fun _ _ => 0,
    [⟨0, 32, .rw, []⟩]⟩,
  ⟨.QM_Q_HI_CREDIT, 0x01420014, 0x40, 528, 0x0, 1, 1, fun _ _ => 0,
    [⟨0, 32, .rw, [(0, 2147483647)]⟩]⟩,
  ⟨.QM_Q_LO_CREDIT, 0x01420018, 0x40, 528, 0x0, 1, 1, fun _ _ => 0,
    [⟨0, 32, .rw, [(0, 0), (2147483648, 4294967295)]⟩]⟩,
  ⟨.QM_Q_STATUS, 0x0142001C, 0x40, 528, 0x0, 1, 1, fun _ _ => 0,
    [⟨0, 2, .ro, []⟩, ⟨2, 1, .rw1c, []⟩, ⟨4, 4, .ro, []⟩]⟩,
  ⟨.QM_Q_CELLS, 0x01420020, 0x40, 528, 0x0, 1, 1, fun _ _ => 0,
    [⟨0, 18, .ro, []⟩]⟩,
  ⟨.QM_Q_PAGES, 0x01420024, 0x40, 528, 0x0, 1, 1, fun _ _ => 0,
    [⟨0, 25, .ro, []⟩]⟩,
  ⟨.QM_Q_AVG, 0x01420028, 0x40, 528, 0x0, 1, 1, fun _ _ => 0,
    [⟨0, 28, .ro, []⟩]⟩,
  ⟨.QM_Q_FRAMES, 0x0142002C, 0x40, 528, 0x0, 1, 1, fun _ _ => 0,
    [⟨0, 20, .ro, []⟩]⟩,
  ⟨.QM_Q_CNT0, 0x01420030, 0x40, 528, 0x0, 1, 1, fun _ _ => 0,
    [⟨0, 16, .rc, []⟩, ⟨16, 16, .rc, []⟩]⟩,
  ⟨.QM_Q_CNT1, 0x01420034, 0x40, 528, 0x0, 1, 1, fun _ _ => 0,
    [⟨0, 16, .rc, []⟩, ⟨16, 16, .rc, []⟩]⟩,
  ⟨.QM_Q_CNT2, 0x01420038, 0x40, 528, 0x0, 1, 1, fun _ _ => 0,
    [⟨0, 16, .rc, []⟩, ⟨16, 16, .rc, []⟩]⟩,
  ⟨.QM_Q_CREDIT, 0x0142003C, 0x40, 528, 0x0, 1, 1, fun _ _ => 0,
    [⟨0, 32, .ro, []⟩]⟩]

/-- The registers of the POOL_ block. -/
def regsPool : List RegSpec :=
  [⟨.POOL_EVENT, 0x01800000, 0x0, 1, 0x0, 1, 1, fun _ _ => 0,
    [⟨6, 1, .rw1c, []⟩, ⟨5, 1, .rw1c, []⟩, ⟨4, 1, .rw1c, []⟩, ⟨3, 1, .rw1c, []⟩, ⟨2, 1, .rw1c, []⟩, ⟨1, 1, .rw1c, []⟩, ⟨0, 1, .rw1c, []⟩]⟩,
  ⟨.POOL_ERR_LOG, 0x01800004, 0x0, 1, 0x0, 1, 2, fun _ _ => 0,
    [⟨0, 24, .ro, []⟩, ⟨24, 4, .ro, []⟩, ⟨28, 4, .ro, []⟩, ⟨32, 2, .ro, []⟩, ⟨62, 1, .rw1c, []⟩, ⟨63, 1, .rw1c, []⟩]⟩,
  ⟨.POOL_CMD, 0x01800010, 0x0, 1, 0x0, 1, 1, fun _ _ => 0,
    [⟨0, 3, .rw, [(1, 4)]⟩, ⟨8, 4, .rw, []⟩, ⟨12, 3, .ro, []⟩, ⟨31, 1, .rws, []⟩]⟩,
  ⟨.POOL_CMD_INDEX, 0x01800014, 0x0, 1, 0x0, 1, 1, fun _ _ => 0,
    [⟨0, 24, .rw, []⟩]⟩,
  ⟨.POOL_CMD_STATE, 0x01800018, 0x0, 1, 0x0, 1, 1, fun _ _ => 0,
    [⟨0, 1, .ro, []⟩, ⟨4, 4, .ro, []⟩, ⟨8, 8, .ro, []⟩, ⟨16, 4, .ro, []⟩]⟩,
  ⟨.POOL_CFG, 0x01800100, 0x20, 16, 0x0, 1, 1, fun n _ => if n = 1 then 2 else if n < 4 then 3 else 0,
    [⟨0, 1, .rw, []⟩, ⟨1, 1, .rw, []⟩]⟩,
  ⟨.POOL_SHARE_MASK, 0x01800104, 0x20, 16, 0x0, 1, 1, fun n _ => if n = 0 then 0x470 else if n = 1 then 0x424 else if n = 2 then 0x530 else if n = 3 then 0x430 else 0,
    [⟨0, 16, .rw, []⟩]⟩,
  ⟨.POOL_SIZE, 0x01800108, 0x20, 16, 0x0, 1, 1, fun n _ => if n = 0 then 0x40000 else if n = 2 then 0x4000 else if n = 3 then 0x800 else 0,
    [⟨0, 25, .rw, []⟩]⟩,
  ⟨.POOL_FREE, 0x0180010C, 0x20, 16, 0x0, 1, 1, fun n _ => if n = 0 then 0x40000 else if n = 2 then 0x4000 else if n = 3 then 0x800 else 0,
    [⟨0, 25, .ro, []⟩]⟩,
  ⟨.POOL_LOW_WATER, 0x01800110, 0x20, 16, 0x0, 1, 1, fun n _ => if n = 0 then 0x40000 else if n = 2 then 0x4000 else if n = 3 then 0x800 else 0,
    [⟨0, 25, .rc, []⟩]⟩,
  ⟨.POOL_CNT0, 0x01800114, 0x20, 16, 0x0, 1, 1, fun _ _ => 0,
    [⟨0, 16, .rc, []⟩, ⟨16, 16, .rc, []⟩]⟩,
  ⟨.POOL_CNT1, 0x01800118, 0x20, 16, 0x0, 1, 1, fun _ _ => 0,
    [⟨0, 16, .rc, []⟩, ⟨16, 16, .rc, []⟩]⟩,
  ⟨.POOL_CNT2, 0x0180011C, 0x20, 16, 0x0, 1, 1, fun _ _ => 0,
    [⟨0, 16, .rc, []⟩]⟩]

/-- The registers of the XC_ block. -/
def regsXc : List RegSpec :=
  [⟨.XC_CTRL, 0x01C00000, 0x0, 1, 0x0, 1, 1, fun _ _ => 0,
    [⟨0, 1, .rw, []⟩]⟩,
  ⟨.XC_EVENT, 0x01C00004, 0x0, 1, 0x0, 1, 1, fun _ _ => 0,
    [⟨6, 1, .rw1c, []⟩, ⟨5, 1, .rw1c, []⟩, ⟨4, 1, .rw1c, []⟩, ⟨2, 1, .rw1c, []⟩, ⟨1, 1, .rw1c, []⟩, ⟨0, 1, .rw1c, []⟩]⟩,
  ⟨.XC_CNT, 0x01C00010, 0x0, 1, 0x0, 1, 1, fun _ _ => 0,
    [⟨0, 16, .rc, []⟩, ⟨16, 16, .rc, []⟩]⟩,
  ⟨.XC_PORT_CFG, 0x01C01000, 0x20, 64, 0x0, 1, 1, fun _ _ => 0xA00,
    [⟨8, 8, .rw, [(1, 128)]⟩, ⟨3, 1, .rw, []⟩, ⟨1, 2, .rw, []⟩, ⟨0, 1, .rw, []⟩]⟩,
  ⟨.XC_PORT_STATUS, 0x01C01004, 0x20, 64, 0x0, 1, 1, fun _ _ => 0,
    [⟨0, 3, .ro, []⟩, ⟨3, 1, .ro, []⟩, ⟨4, 3, .ro, []⟩, ⟨7, 1, .ro, []⟩, ⟨8, 3, .ro, []⟩, ⟨11, 1, .ro, []⟩, ⟨12, 1, .ro, []⟩]⟩,
  ⟨.XC_PORT_CNT0, 0x01C01008, 0x20, 64, 0x0, 1, 1, fun _ _ => 0,
    [⟨0, 16, .rc, []⟩, ⟨16, 16, .rc, []⟩]⟩,
  ⟨.XC_PORT_CNT1, 0x01C0100C, 0x20, 64, 0x0, 1, 1, fun _ _ => 0,
    [⟨0, 16, .rc, []⟩]⟩,
  ⟨.XC_STREAM_CFG, 0x01C10000, 0x20, 1024, 0x0, 1, 1, fun _ _ => 0,
    [⟨0, 1, .rw, []⟩, ⟨1, 3, .rw, []⟩, ⟨8, 7, .rw, [(0, 65)]⟩, ⟨16, 7, .rw, [(0, 65)]⟩]⟩,
  ⟨.XC_STREAM_MAX_LEN, 0x01C10004, 0x20, 1024, 0x0, 1, 1, fun _ _ => 0x5F2,
    [⟨0, 14, .rw, [(64, 9600)]⟩]⟩,
  ⟨.XC_STREAM_STATUS, 0x01C10008, 0x20, 1024, 0x0, 1, 1, fun _ _ => 0,
    [⟨0, 2, .ro, []⟩, ⟨2, 1, .ro, []⟩, ⟨8, 3, .ro, []⟩]⟩,
  ⟨.XC_STREAM_CNT0, 0x01C1000C, 0x20, 1024, 0x0, 1, 1, fun _ _ => 0,
    [⟨0, 32, .rc, []⟩]⟩,
  ⟨.XC_STREAM_CNT1, 0x01C10010, 0x20, 1024, 0x0, 1, 1, fun _ _ => 0,
    [⟨0, 32, .rc, []⟩]⟩,
  ⟨.XC_STREAM_CNT2, 0x01C10014, 0x20, 1024, 0x0, 1, 1, fun _ _ => 0,
    [⟨0, 16, .rc, []⟩]⟩]

/-- The registers of the TIU_ block. -/
def regsTiu : List RegSpec :=
  [⟨.TIU_CTRL, 0x02000000, 0x0, 1, 0x0, 1, 1, fun _ _ => 0,
    [⟨1, 1, .wo, []⟩, ⟨0, 1, .rws, []⟩]⟩,
  ⟨.TIU_CFG, 0x02000004, 0x0, 1, 0x0, 1, 1, fun _ _ => 0x100,
    [⟨16, 2, .rw, [(0, 2)]⟩, ⟨13, 1, .rw, []⟩, ⟨8, 5, .rw, [(0, 1), (4, 9), (16, 27)]⟩, ⟨5, 1, .rw, []⟩, ⟨0, 5, .rw, [(0, 1), (4, 9), (16, 27)]⟩]⟩,
  ⟨.TIU_N, 0x02000008, 0x0, 1, 0x0, 1, 1, fun _ _ => 1,
    [⟨0, 16, .rw, [(1, 65535)]⟩]⟩,
  ⟨.TIU_START_TO, 0x0200000C, 0x0, 1, 0x0, 1, 1, fun _ _ => 0x7D0,
    [⟨0, 16, .rw, []⟩]⟩,
  ⟨.TIU_WIN_OPEN, 0x02000010, 0x0, 1, 0x0, 1, 1, fun _ _ => 0,
    [⟨0, 32, .rw, []⟩]⟩,
  ⟨.TIU_WIN_CLOSE, 0x02000014, 0x0, 1, 0x0, 1, 1, fun _ _ => 0x3B9ACA00,
    [⟨0, 32, .rw, []⟩]⟩,
  ⟨.TIU_STATUS, 0x02000018, 0x0, 1, 0x0, 1, 1, fun _ _ => 0,
    [⟨16, 16, .ro, []⟩, ⟨8, 3, .ro, []⟩, ⟨6, 1, .ro, []⟩, ⟨5, 1, .ro, []⟩, ⟨4, 1, .ro, []⟩, ⟨0, 3, .ro, []⟩]⟩,
  ⟨.TIU_EVENT, 0x0200001C, 0x0, 1, 0x0, 1, 1, fun _ _ => 0,
    [⟨6, 1, .rw1c, []⟩, ⟨5, 1, .rw1c, []⟩, ⟨4, 1, .rw1c, []⟩, ⟨3, 1, .rw1c, []⟩, ⟨2, 1, .rw1c, []⟩, ⟨1, 1, .rw1c, []⟩, ⟨0, 1, .rw1c, []⟩]⟩,
  ⟨.TIU_LAST, 0x02000020, 0x0, 1, 0x0, 1, 6, fun _ _ => 0,
    [⟨0, 192, .ro, []⟩]⟩,
  ⟨.TIU_STAT, 0x02000040, 0x0, 1, 0x0, 1, 10, fun _ _ => 0,
    [⟨0, 320, .ro, []⟩]⟩,
  ⟨.TIU_FIFO, 0x02000080, 0x0, 1, 0x0, 1, 3, fun _ _ => 0,
    [⟨0, 96, .ro, []⟩]⟩,
  ⟨.TIU_FIFO_LEVEL, 0x02000090, 0x0, 1, 0x0, 1, 1, fun _ _ => 0,
    [⟨0, 7, .ro, []⟩, ⟨16, 16, .rc, []⟩]⟩]

/-- The registers of the CAL_ block. -/
def regsCal : List RegSpec :=
  [⟨.CAL_EVENT, 0x02100004, 0x0, 1, 0x0, 1, 1, fun _ _ => 0,
    [⟨5, 1, .rw1c, []⟩, ⟨4, 1, .rw1c, []⟩, ⟨3, 1, .rw1c, []⟩, ⟨2, 1, .rw1c, []⟩, ⟨1, 1, .rw1c, []⟩, ⟨0, 1, .rw1c, []⟩]⟩,
  ⟨.CAL_STATUS, 0x02100008, 0x0, 1, 0x0, 1, 1, fun _ _ => 0,
    [⟨8, 5, .ro, []⟩, ⟨4, 3, .ro, []⟩, ⟨0, 1, .ro, []⟩]⟩,
  ⟨.CAL_CFG, 0x02100100, 0x20, 6, 0x0, 1, 1, fun k _ => 1 + 65536 * calPeriod k,
    [⟨0, 1, .rw, []⟩, ⟨16, 16, .rw, [(1, 65535)]⟩]⟩,
  ⟨.CAL_K_STATUS, 0x02100104, 0x20, 6, 0x0, 1, 1, fun _ _ => 0,
    [⟨0, 2, .ro, []⟩, ⟨4, 3, .ro, []⟩, ⟨8, 1, .ro, []⟩, ⟨16, 8, .ro, []⟩]⟩,
  ⟨.CAL_COUNT, 0x02100108, 0x20, 6, 0x0, 1, 1, fun _ _ => 0,
    [⟨0, 32, .ro, []⟩]⟩,
  ⟨.CAL_LAST, 0x0210010C, 0x20, 6, 0x0, 1, 3, fun _ _ => 0,
    [⟨0, 96, .ro, []⟩]⟩,
  ⟨.CAL_FAILS, 0x02100118, 0x20, 6, 0x0, 1, 1, fun _ _ => 0,
    [⟨0, 16, .rc, []⟩]⟩,
  ⟨.CAL_RUN, 0x0210011C, 0x20, 6, 0x0, 1, 1, fun _ _ => 0,
    [⟨0, 1, .rws, []⟩]⟩,
  ⟨.CAL_LAT, 0x02100400, 0x4, 17, 0x0, 1, 1, fun _ _ => 0,
    [⟨0, 16, .ro, []⟩, ⟨16, 16, .ro, []⟩]⟩]

/-- The registers of the ECC_ block. -/
def regsEcc : List RegSpec :=
  [⟨.ECC_CTRL, 0x02200000, 0x0, 1, 0x0, 1, 1, fun _ _ => 0x30F,
    [⟨8, 4, .rw, [(2, 15)]⟩, ⟨3, 1, .rw, []⟩, ⟨2, 1, .rw, []⟩, ⟨1, 1, .rw, []⟩, ⟨0, 1, .rw, []⟩]⟩,
  ⟨.ECC_EVENT, 0x02200004, 0x0, 1, 0x0, 1, 1, fun _ _ => 0,
    [⟨11, 1, .rw1c, []⟩, ⟨10, 1, .rw1c, []⟩, ⟨9, 1, .rw1c, []⟩, ⟨8, 1, .rw1c, []⟩, ⟨7, 1, .rw1c, []⟩, ⟨6, 1, .rw1c, []⟩, ⟨5, 1, .rw1c, []⟩, ⟨4, 1, .rw1c, []⟩, ⟨3, 1, .rw1c, []⟩, ⟨2, 1, .rw1c, []⟩, ⟨0, 1, .rw1c, []⟩]⟩,
  ⟨.ECC_INIT_DONE, 0x02200008, 0x0, 1, 0x0, 1, 1, fun _ _ => 1,
    [⟨0, 16, .w1s, []⟩]⟩,
  ⟨.ECC_SCRUB, 0x0220000C, 0x0, 1, 0x0, 1, 1, fun _ _ => 4,
    [⟨0, 10, .rw, [(1, 1000)]⟩]⟩,
  ⟨.ECC_SCRUB_STATUS, 0x02200010, 0x0, 1, 0x0, 1, 1, fun _ _ => 0,
    [⟨0, 32, .ro, []⟩]⟩,
  ⟨.ECC_CFG_STATUS, 0x02200014, 0x0, 1, 0x0, 1, 1, fun _ _ => 0,
    [⟨0, 12, .ro, []⟩, ⟨31, 1, .rw1c, []⟩]⟩,
  ⟨.ECC_CNT0, 0x02200018, 0x0, 1, 0x0, 1, 1, fun _ _ => 0,
    [⟨0, 16, .rc, []⟩, ⟨16, 16, .rc, []⟩]⟩,
  ⟨.ECC_CNT1, 0x0220001C, 0x0, 1, 0x0, 1, 1, fun _ _ => 0,
    [⟨0, 16, .rc, []⟩, ⟨16, 16, .rc, []⟩]⟩,
  ⟨.ECC_INJ, 0x02200020, 0x0, 1, 0x0, 1, 1, fun _ _ => 0,
    [⟨0, 4, .rw, []⟩, ⟨4, 2, .rw, [(1, 2)]⟩, ⟨31, 1, .rws, []⟩]⟩,
  ⟨.ECC_LOG_LEVEL, 0x02200030, 0x0, 1, 0x0, 1, 1, fun _ _ => 0,
    [⟨0, 6, .ro, []⟩, ⟨31, 1, .rw1c, []⟩]⟩,
  ⟨.ECC_LOG, 0x02200040, 0x0, 1, 0x0, 1, 2, fun _ _ => 0,
    [⟨0, 64, .ro, []⟩]⟩,
  ⟨.ECC_REG, 0x02200100, 0x8, 17, 0x0, 1, 2, fun _ _ => 0,
    [⟨0, 16, .ro, []⟩, ⟨16, 16, .ro, []⟩, ⟨32, 1, .ro, []⟩, ⟨33, 1, .ro, []⟩, ⟨34, 1, .ro, []⟩]⟩]

/-- The registers of the PAIR_ block. -/
def regsPair : List RegSpec :=
  [⟨.PAIR_CTRL, 0x02300000, 0x0, 1, 0x0, 1, 1, fun _ _ => 0x2,
    [⟨16, 1, .rws, []⟩, ⟨10, 1, .rw, []⟩, ⟨8, 2, .rw, []⟩, ⟨4, 2, .rw, []⟩, ⟨1, 1, .rw, []⟩, ⟨0, 1, .rw, []⟩]⟩,
  ⟨.PAIR_STATUS, 0x02300004, 0x0, 1, 0x0, 1, 1, fun _ _ => 0,
    [⟨16, 16, .ro, []⟩, ⟨12, 4, .ro, []⟩, ⟨11, 1, .ro, []⟩, ⟨8, 3, .ro, []⟩, ⟨7, 1, .ro, []⟩, ⟨6, 1, .ro, []⟩, ⟨5, 1, .ro, []⟩, ⟨4, 1, .ro, []⟩, ⟨3, 1, .ro, []⟩, ⟨0, 3, .ro, []⟩]⟩,
  ⟨.PAIR_EVENT, 0x02300008, 0x0, 1, 0x0, 1, 1, fun _ _ => 0,
    [⟨12, 1, .rw1c, []⟩, ⟨11, 1, .rw1c, []⟩, ⟨10, 1, .rw1c, []⟩, ⟨9, 1, .rw1c, []⟩, ⟨8, 1, .rw1c, []⟩, ⟨7, 1, .rw1c, []⟩, ⟨6, 1, .rw1c, []⟩, ⟨5, 1, .rw1c, []⟩, ⟨4, 1, .rw1c, []⟩, ⟨1, 1, .rw1c, []⟩, ⟨0, 1, .rw1c, []⟩]⟩,
  ⟨.PAIR_TIMING, 0x0230000C, 0x0, 1, 0x0, 1, 1, fun _ _ => 0x0064003C,
    [⟨0, 12, .rw, [(1, 3600)]⟩, ⟨16, 10, .rw, [(10, 1000)]⟩]⟩,
  ⟨.PAIR_SEQ, 0x02300010, 0x0, 1, 0x0, 1, 1, fun _ _ => 0x00080032,
    [⟨0, 10, .rw, [(1, 1000)]⟩, ⟨16, 8, .rw, []⟩]⟩,
  ⟨.PAIR_LOCK, 0x02300014, 0x0, 1, 0x0, 1, 1, fun _ _ => 0x000A0199,
    [⟨0, 16, .rw, [(1, 65535)]⟩, ⟨16, 16, .rw, [(1, 3600)]⟩]⟩,
  ⟨.PAIR_XCHK, 0x02300018, 0x0, 1, 0x0, 1, 1, fun _ _ => 0x00C80000,
    [⟨0, 4, .rw, [(0, 11)]⟩, ⟨4, 3, .rw, []⟩, ⟨7, 1, .rw, []⟩, ⟨16, 16, .rw, []⟩]⟩,
  ⟨.PAIR_XCHK_TRIM, 0x0230001C, 0x0, 1, 0x0, 1, 1, fun _ _ => 0,
    [⟨0, 32, .rw, []⟩]⟩,
  ⟨.PAIR_CNT0, 0x02300020, 0x0, 1, 0x0, 1, 1, fun _ _ => 0,
    [⟨0, 16, .rc, []⟩, ⟨16, 16, .rc, []⟩]⟩,
  ⟨.PAIR_CNT1, 0x02300024, 0x0, 1, 0x0, 1, 1, fun _ _ => 0,
    [⟨0, 16, .rc, []⟩, ⟨16, 16, .rc, []⟩]⟩,
  ⟨.PAIR_CNT2, 0x02300028, 0x0, 1, 0x0, 1, 1, fun _ _ => 0,
    [⟨0, 16, .rc, []⟩, ⟨16, 16, .rc, []⟩]⟩,
  ⟨.PAIR_CNT3, 0x0230002C, 0x0, 1, 0x0, 1, 1, fun _ _ => 0,
    [⟨0, 16, .rc, []⟩, ⟨16, 16, .rc, []⟩]⟩,
  ⟨.PAIR_TEST, 0x02300030, 0x0, 1, 0x0, 1, 1, fun _ _ => 0x00FF001F,
    [⟨0, 5, .ro, []⟩, ⟨16, 8, .ro, []⟩]⟩,
  ⟨.PAIR_MATE_REPORT, 0x02300040, 0x0, 1, 0x0, 1, 16, fun _ _ => 0,
    [⟨0, 512, .ro, []⟩]⟩,
  ⟨.PAIR_GENSEL, 0x02300400, 0x4, 128, 0x0, 1, 1, fun _ _ => 0,
    [⟨0, 32, .rw, []⟩]⟩]

/-- The registers of the PWR_ block. -/
def regsPwr : List RegSpec :=
  [⟨.PWR_CTRL, 0x02400000, 0x0, 1, 0x0, 1, 1, fun _ _ => 0xF807,
    [⟨8, 8, .rw, []⟩, ⟨2, 1, .rw, []⟩, ⟨1, 1, .rw, []⟩, ⟨0, 1, .rw, []⟩]⟩,
  ⟨.PWR_STATUS, 0x02400004, 0x0, 1, 0x0, 1, 1, fun _ _ => 0,
    [⟨16, 2, .ro, []⟩, ⟨9, 5, .ro, []⟩, ⟨4, 5, .ro, []⟩, ⟨3, 1, .ro, []⟩, ⟨2, 1, .ro, []⟩, ⟨0, 2, .ro, []⟩]⟩,
  ⟨.PWR_EVENT, 0x02400008, 0x0, 1, 0x0, 1, 1, fun _ _ => 0,
    [⟨7, 1, .rw1c, []⟩, ⟨6, 1, .rw1c, []⟩, ⟨5, 1, .rw1c, []⟩, ⟨4, 1, .rw1c, []⟩, ⟨3, 1, .rw1c, []⟩, ⟨2, 1, .rw1c, []⟩, ⟨1, 1, .rw1c, []⟩, ⟨0, 1, .rw1c, []⟩]⟩,
  ⟨.PWR_RESTORE_HOLD, 0x0240000C, 0x0, 1, 0x0, 1, 1, fun _ _ => 0xA,
    [⟨0, 10, .rw, [(1, 1000)]⟩]⟩,
  ⟨.PWR_CNT, 0x02400010, 0x0, 1, 0x0, 1, 1, fun _ _ => 0,
    [⟨0, 16, .rc, []⟩, ⟨16, 16, .rc, []⟩]⟩,
  ⟨.PWR_LAST, 0x02400014, 0x0, 1, 0x0, 1, 3, fun _ _ => 0,
    [⟨0, 96, .ro, []⟩]⟩,
  ⟨.FLT_MAJOR, 0x02400100, 0x0, 1, 0x0, 1, 1, fun _ _ => 0,
    [⟨0, 12, .rw1c, []⟩]⟩,
  ⟨.FLT_MINOR, 0x02400104, 0x0, 1, 0x0, 1, 1, fun _ _ => 0,
    [⟨0, 5, .rw1c, []⟩]⟩]

/-- The registers of the LDR_ block. -/
def regsLdr : List RegSpec :=
  [⟨.LDR_STATUS, 0x02500000, 0x0, 1, 0x0, 1, 1, fun _ _ => 0x300,
    [⟨24, 6, .ro, []⟩, ⟨10, 2, .ro, []⟩, ⟨8, 2, .ro, []⟩, ⟨0, 4, .ro, []⟩]⟩,
  ⟨.LDR_EVENT, 0x02500004, 0x0, 1, 0x0, 1, 1, fun _ _ => 0,
    [⟨10, 1, .rw1c, []⟩, ⟨9, 1, .rw1c, []⟩, ⟨8, 1, .rw1c, []⟩, ⟨7, 1, .rw1c, []⟩, ⟨6, 1, .rw1c, []⟩, ⟨5, 1, .rw1c, []⟩, ⟨4, 1, .rw1c, []⟩, ⟨3, 1, .rw1c, []⟩, ⟨2, 1, .rw1c, []⟩, ⟨0, 1, .rw1c, []⟩]⟩,
  ⟨.LDR_FAIL, 0x02500008, 0x0, 1, 0x0, 1, 1, fun _ _ => 0,
    [⟨0, 8, .ro, []⟩, ⟨8, 8, .ro, []⟩, ⟨16, 8, .ro, []⟩]⟩,
  ⟨.LDR_FAIL_OFFSET, 0x0250000C, 0x0, 1, 0x0, 1, 1, fun _ _ => 0,
    [⟨0, 24, .ro, []⟩]⟩,
  ⟨.LDR_CFG, 0x02500010, 0x0, 1, 0x0, 1, 1, fun _ _ => 0xC8,
    [⟨16, 12, .rw, [(0, 3600)]⟩, ⟨0, 13, .rw, [(10, 6000)]⟩]⟩,
  ⟨.LDR_OTP, 0x02500014, 0x0, 1, 0x0, 1, 1, fun _ _ => 0,
    [⟨0, 1, .ro, []⟩, ⟨1, 1, .ro, []⟩]⟩,
  ⟨.LDR_IMAGE_VER, 0x02500018, 0x0, 1, 0x0, 1, 1, fun _ _ => 0,
    [⟨0, 32, .ro, []⟩]⟩,
  ⟨.LDR_LOAD_TIME, 0x0250001C, 0x0, 1, 0x0, 1, 1, fun _ _ => 0,
    [⟨0, 32, .ro, []⟩]⟩,
  ⟨.LDR_HOST_CTRL, 0x02500020, 0x0, 1, 0x0, 1, 1, fun _ _ => 0,
    [⟨0, 1, .rws, []⟩, ⟨1, 1, .wo, []⟩]⟩,
  ⟨.LDR_HOST_STATUS, 0x02500024, 0x0, 1, 0x0, 1, 1, fun _ _ => 0x400,
    [⟨0, 11, .ro, []⟩, ⟨16, 1, .ro, []⟩]⟩,
  ⟨.LDR_HOST_FIFO, 0x02500028, 0x0, 1, 0x0, 1, 1, fun _ _ => 0,
    [⟨0, 32, .wo, []⟩]⟩,
  ⟨.LDR_CNT, 0x0250002C, 0x0, 1, 0x0, 1, 1, fun _ _ => 0,
    [⟨0, 16, .rc, []⟩, ⟨16, 16, .rc, []⟩]⟩]

/-- The registers of the MGT_ block. -/
def regsMgt : List RegSpec :=
  [⟨.MGT_PRIV, 0x02600000, 0x0, 1, 0x0, 1, 1, fun _ _ => 0xA,
    [⟨31, 1, .w1s, []⟩, ⟨4, 2, .rw, [(0, 2)]⟩, ⟨2, 2, .rw, [(0, 2)]⟩, ⟨0, 2, .rw, [(0, 2)]⟩]⟩,
  ⟨.MGT_EVENT, 0x02600004, 0x0, 1, 0x0, 1, 1, fun _ _ => 0,
    [⟨8, 1, .rw1c, []⟩, ⟨7, 1, .rw1c, []⟩, ⟨6, 1, .rw1c, []⟩, ⟨5, 1, .rw1c, []⟩, ⟨4, 1, .rw1c, []⟩, ⟨3, 1, .rw1c, []⟩, ⟨1, 1, .rw1c, []⟩, ⟨0, 1, .rw1c, []⟩]⟩,
  ⟨.MGT_PRIV_LOG, 0x02600008, 0x0, 1, 0x0, 1, 2, fun _ _ => 0,
    [⟨0, 32, .ro, []⟩, ⟨32, 3, .ro, []⟩, ⟨35, 2, .ro, []⟩, ⟨62, 1, .rw1c, []⟩, ⟨63, 1, .rw1c, []⟩]⟩,
  ⟨.MGT_CFG, 0x02600010, 0x0, 1, 0x0, 1, 1, fun _ _ => 0xA,
    [⟨0, 10, .rw, [(1, 1000)]⟩]⟩,
  ⟨.MGT_IRQ_SRC, 0x02600020, 0x0, 1, 0x0, 1, 1, fun _ _ => 0,
    [⟨0, 32, .ro, []⟩]⟩,
  ⟨.MGT_IRQ_EN, 0x02600024, 0x0, 1, 0x0, 1, 1, fun _ _ => 0,
    [⟨0, 32, .rw, []⟩]⟩,
  ⟨.MGT_IRQ_PIN_EN, 0x02600028, 0x0, 1, 0x0, 1, 1, fun _ _ => 0,
    [⟨0, 32, .rw, []⟩]⟩,
  ⟨.MGT_IRQ_REARM, 0x0260002C, 0x0, 1, 0x0, 1, 1, fun _ _ => 0,
    [⟨0, 32, .wo, []⟩]⟩,
  ⟨.MGT_IRQ_VEC, 0x02600040, 0x4, 8, 0x0, 1, 1, fun i _ => 0x03020100+0x04040404*i,
    [⟨0, 5, .rw, []⟩, ⟨8, 5, .rw, []⟩, ⟨16, 5, .rw, []⟩, ⟨24, 5, .rw, []⟩]⟩,
  ⟨.MGT_LN_SUMMARY, 0x02600060, 0x0, 1, 0x0, 1, 3, fun _ _ => 0,
    [⟨0, 65, .ro, []⟩]⟩,
  ⟨.MGT_MAC_SUMMARY, 0x02600070, 0x0, 1, 0x0, 1, 3, fun _ _ => 0,
    [⟨0, 66, .ro, []⟩]⟩,
  ⟨.MGT_DMA_CTRL, 0x02600100, 0x0, 1, 0x0, 1, 1, fun _ _ => 0,
    [⟨0, 1, .rw, []⟩, ⟨8, 3, .rw, []⟩]⟩,
  ⟨.MGT_DMA_EVENT, 0x02600104, 0x0, 1, 0x0, 1, 1, fun _ _ => 0,
    [⟨0, 16, .rw1c, []⟩]⟩,
  ⟨.MGT_RING_BASE, 0x02600200, 0x20, 16, 0x0, 1, 2, fun _ _ => 0,
    [⟨6, 58, .rw, []⟩]⟩,
  ⟨.MGT_RING_SIZE, 0x02600208, 0x20, 16, 0x0, 1, 1, fun _ _ => 0x40,
    [⟨0, 13, .rw, [(64, 64), (128, 128), (256, 256), (512, 512), (1024, 1024), (2048, 2048), (4096, 4096)]⟩]⟩,
  ⟨.MGT_RING_HEAD, 0x0260020C, 0x20, 16, 0x0, 1, 1, fun _ _ => 0,
    [⟨0, 12, .ro, []⟩]⟩,
  ⟨.MGT_RING_TAIL, 0x02600210, 0x20, 16, 0x0, 1, 1, fun _ _ => 0,
    [⟨0, 12, .rw, []⟩]⟩,
  ⟨.MGT_RING_EN, 0x02600214, 0x20, 16, 0x0, 1, 1, fun _ _ => 0,
    [⟨0, 1, .rw, []⟩]⟩,
  ⟨.MGT_RING_FRAMES, 0x02600218, 0x20, 16, 0x0, 1, 1, fun _ _ => 0,
    [⟨0, 32, .rc, []⟩]⟩,
  ⟨.MGT_MMP_CFG, 0x02600400, 0x0, 1, 0x0, 1, 1, fun _ _ => 0x700,
    [⟨0, 1, .rw, []⟩, ⟨8, 3, .rw, []⟩, ⟨16, 1, .ro, []⟩]⟩] ++
  [⟨.MGT_MMP_MAC, 0x02600404, 0x0, 1, 0x0, 1, 2, fun _ _ => 0,
    [⟨0, 48, .rw, []⟩]⟩,
  ⟨.MGT_MMP_LAST_SEQ, 0x02600410, 0x0, 1, 0x0, 1, 2, fun _ _ => 0,
    [⟨0, 64, .rw, []⟩]⟩,
  ⟨.MGT_MMP_CNT, 0x02600418, 0x0, 1, 0x0, 1, 1, fun _ _ => 0,
    [⟨0, 8, .rc, []⟩, ⟨8, 8, .rc, []⟩, ⟨16, 8, .rc, []⟩, ⟨24, 8, .rc, []⟩]⟩,
  ⟨.MGT_MMP_ACCEPTED, 0x0260041C, 0x0, 1, 0x0, 1, 1, fun _ _ => 0,
    [⟨0, 32, .rc, []⟩]⟩,
  ⟨.MGT_MMP_KEY, 0x02600420, 0x0, 1, 0x0, 1, 8, fun _ _ => 0,
    [⟨0, 256, .wo, []⟩]⟩,
  ⟨.MGT_MMP_PORTS, 0x02600440, 0x0, 1, 0x0, 1, 3, fun _ _ => 0,
    [⟨0, 64, .rw, []⟩]⟩,
  ⟨.MGT_I2C_CFG, 0x02601000, 0x100, 4, 0x0, 1, 1, fun _ _ => 0x57000,
    [⟨0, 1, .rw, []⟩, ⟨1, 1, .rw, []⟩, ⟨2, 1, .rw, []⟩, ⟨8, 7, .rw, []⟩, ⟨16, 8, .rw, []⟩]⟩,
  ⟨.MGT_I2C_CMD, 0x02601004, 0x100, 4, 0x0, 1, 1, fun _ _ => 0x5000,
    [⟨0, 1, .rws, []⟩, ⟨1, 1, .rw, []⟩, ⟨2, 1, .rw, []⟩, ⟨5, 3, .rw, []⟩, ⟨8, 7, .rw, []⟩, ⟨16, 8, .rw, []⟩, ⟨24, 8, .rw, []⟩]⟩,
  ⟨.MGT_I2C_LEN, 0x02601008, 0x100, 4, 0x0, 1, 1, fun _ _ => 1,
    [⟨0, 8, .rw, [(1, 128)]⟩]⟩,
  ⟨.MGT_I2C_STATUS, 0x0260100C, 0x100, 4, 0x0, 1, 1, fun _ _ => 0,
    [⟨0, 1, .ro, []⟩, ⟨1, 3, .ro, []⟩, ⟨8, 8, .ro, []⟩]⟩,
  ⟨.MGT_I2C_DATA, 0x02601080, 0x100, 4, 0x4, 32, 1, fun _ _ => 0,
    [⟨0, 32, .rw, []⟩]⟩,
  ⟨.MGT_MDIO_CFG, 0x02601400, 0x0, 1, 0x0, 1, 1, fun _ _ => 0x18,
    [⟨0, 8, .rw, []⟩]⟩,
  ⟨.MGT_MDIO_CMD, 0x02601404, 0x0, 1, 0x0, 1, 1, fun _ _ => 0,
    [⟨0, 1, .rws, []⟩, ⟨1, 3, .rw, [(0, 4)]⟩, ⟨4, 5, .rw, []⟩, ⟨9, 5, .rw, []⟩, ⟨16, 16, .rw, []⟩]⟩,
  ⟨.MGT_MDIO_STATUS, 0x02601408, 0x0, 1, 0x0, 1, 1, fun _ _ => 0,
    [⟨0, 1, .ro, []⟩, ⟨16, 16, .ro, []⟩]⟩]

/-- The registers of the PMC_ block. -/
def regsPmc : List RegSpec :=
  [⟨.PMC_CTRL, 0x02700000, 0x0, 1, 0x0, 1, 1, fun _ _ => 0,
    [⟨0, 1, .rw, []⟩, ⟨1, 1, .rws, []⟩]⟩,
  ⟨.PMC_OVF, 0x02700004, 0x0, 1, 0x0, 1, 2, fun _ _ => 0,
    [⟨0, 64, .rw1c, []⟩]⟩,
  ⟨.PMC_EVENT, 0x0270000C, 0x0, 1, 0x0, 1, 1, fun _ _ => 0,
    [⟨0, 1, .rw1c, []⟩, ⟨1, 1, .rw1c, []⟩, ⟨2, 1, .rw1c, []⟩, ⟨3, 1, .rw1c, []⟩, ⟨4, 1, .rw1c, []⟩]⟩,
  ⟨.PMC_DUMP_CTRL, 0x02700010, 0x0, 1, 0x0, 1, 1, fun _ _ => 0x03E80000,
    [⟨0, 1, .rw, []⟩, ⟨1, 1, .rw, []⟩, ⟨2, 1, .rws, []⟩, ⟨16, 16, .rw, [(1, 60000)]⟩]⟩,
  ⟨.PMC_DUMP_STATUS, 0x02700014, 0x0, 1, 0x0, 1, 1, fun _ _ => 0,
    [⟨0, 7, .ro, []⟩, ⟨16, 1, .ro, []⟩]⟩,
  ⟨.PMC_DUMP_SEQ, 0x02700018, 0x0, 1, 0x0, 1, 1, fun _ _ => 0,
    [⟨0, 32, .ro, []⟩]⟩,
  ⟨.PMC_DUMP_LOST, 0x0270001C, 0x0, 1, 0x0, 1, 1, fun _ _ => 0,
    [⟨0, 32, .rc, []⟩]⟩,
  ⟨.PMC_DUMP_HOST_BASE, 0x02700020, 0x0, 1, 0x0, 1, 2, fun _ _ => 0,
    [⟨6, 58, .rw, []⟩]⟩,
  ⟨.PMC_DUMP_HOST_SIZE, 0x02700028, 0x0, 1, 0x0, 1, 1, fun _ _ => 0x10,
    [⟨0, 17, .rw, [(16, 65536)]⟩]⟩,
  ⟨.PMC_DUMP_HOST_WR, 0x0270002C, 0x0, 1, 0x0, 1, 1, fun _ _ => 0,
    [⟨0, 16, .ro, []⟩]⟩,
  ⟨.PMC_DUMP_HOST_RD, 0x02700030, 0x0, 1, 0x0, 1, 1, fun _ _ => 0,
    [⟨0, 16, .rw, []⟩]⟩,
  ⟨.PMC_CNT_CFG, 0x02700100, 0x20, 64, 0x0, 1, 1, fun _ _ => 0x3FEFF000,
    [⟨31, 1, .rw, []⟩, ⟨30, 1, .rw, []⟩, ⟨24, 6, .rw, []⟩, ⟨21, 3, .rw, []⟩, ⟨12, 8, .rw, []⟩, ⟨0, 10, .rw, []⟩]⟩,
  ⟨.PMC_CNT_ADDR_LO, 0x02700104, 0x20, 64, 0x0, 1, 1, fun _ _ => 0,
    [⟨0, 32, .rw, []⟩]⟩,
  ⟨.PMC_CNT_ADDR_HI, 0x02700108, 0x20, 64, 0x0, 1, 1, fun _ _ => 0xFFFFFFFF,
    [⟨0, 32, .rw, []⟩]⟩,
  ⟨.PMC_CNT, 0x0270010C, 0x20, 64, 0x0, 1, 2, fun _ _ => 0,
    [⟨0, 48, .rw, []⟩, ⟨63, 1, .ro, []⟩]⟩]

/-- The block an address lies in (R687). -/
def regsOf (a : Nat) : List RegSpec :=
  if a ≤ 0x000FFFFF then regsGlb
  else if a ≤ 0x0010FFFF then regsSyn
  else if a ≤ 0x001FFFFF then regsOut
  else if a ≤ 0x002FFFFF then regsRef
  else if a ≤ 0x003FFFFF then regsTb
  else if a ≤ 0x007FFFFF then regsLn
  else if a ≤ 0x00BFFFFF then regsMac
  else if a ≤ 0x00CFFFFF then regsPha
  else if a ≤ 0x00FFFFFF then regsFm
  else if a ≤ 0x013FFFFF then regsFwd
  else if a ≤ 0x017FFFFF then regsQm
  else if a ≤ 0x01BFFFFF then regsPool
  else if a ≤ 0x01FFFFFF then regsXc
  else if a ≤ 0x020FFFFF then regsTiu
  else if a ≤ 0x021FFFFF then regsCal
  else if a ≤ 0x022FFFFF then regsEcc
  else if a ≤ 0x023FFFFF then regsPair
  else if a ≤ 0x024FFFFF then regsPwr
  else if a ≤ 0x025FFFFF then regsLdr
  else if a ≤ 0x026FFFFF then regsMgt
  else if a ≤ 0x027FFFFF then regsPmc
  else []

/-- Where an address lies in a register: its first index, second index and word, where it lies in it at all. -/
def RegSpec.find (r : RegSpec) (a : Nat) : Option (Nat × Nat × Nat) :=
  if a < r.base then none else
  let off := a - r.base
  let i := if r.s0 = 0 then 0 else off / r.s0
  let off1 := if r.s0 = 0 then off else off % r.s0
  let j := if r.s1 = 0 then 0 else off1 / r.s1
  let off2 := if r.s1 = 0 then off1 else off1 % r.s1
  if i < r.c0 ∧ j < r.c1 ∧ off2 / 4 < r.words ∧ off2 % 4 = 0 then some (i, j, off2 / 4) else none

/-- A register word found on the map: the register, its indices and which word of it. -/
structure RegHit where
  spec : RegSpec
  i : Nat
  j : Nat
  w : Nat

/-- The first register of the list that holds the address. -/
def findReg : List RegSpec → Nat → Option RegHit
  | [], _ => none
  | r :: t, a => match r.find a with
    | some (i, j, w) => some ⟨r, i, j, w⟩
    | none => findReg t a

/-- The register word at an address of the register space, if one lies there (R688). -/
def regAt (a : Nat) : Option RegHit := findReg (regsOf a) a

/-- The lowest address of the register found. -/
def RegHit.base (h : RegHit) : Nat := h.spec.base + h.spec.s0 * h.i + h.spec.s1 * h.j

/-- The register found, as a value of its whole width. -/
def RegHit.wide (h : RegHit) : Wide := ⟨h.base, h.spec.words, h.spec.reset h.i h.j⟩

/-- The mask of the bits of one word that belong to fields of the given access types. -/
def RegHit.mask (h : RegHit) (p : Acc → Bool) : Word :=
  h.spec.fs.foldl (fun m f =>
    if p f.acc then
      m ||| BitVec.ofNat 32 (((2 ^ f.width - 1) * 2 ^ f.lsb) / 2 ^ (32 * h.w))
    else m) 0

end Sys2Proof.Machine
end

