-- ==== Sys2Proof/Machine/Pattern.lean ====
section
/-!
DEFINITION. The bit patterns of the lanes' generators and checkers (R240, R242, R243): the pattern's next bit, the generator with its
error injection, and the checker.
-/

namespace Sys2Proof.Machine

/-- The pattern of a lane (R240): its code, the half period of the square wave, the user pattern, and whether it is inverted. -/
structure PatCfg where
  code : Nat
  half : Nat
  user : Nat
  invert : Bool

/-- The places back whose exclusive or is the next bit of a PRBS: the exponents of its polynomial (R240). -/
def prbsLags (code : Nat) : List Nat :=
  ([[7, 6], [9, 5], [13, 12, 2, 1], [15, 14], [23, 18], [31, 28]] : List (List Nat)).getD code []

/-- The degree of a PRBS. -/
def prbsDegree (code : Nat) : Nat := (prbsLags code).headD 0

/-- The bit a pattern gives in a state: of a PRBS the state holds the last bits, the newest as bit 0; else it is the place in the
period. -/
def PatCfg.bit (c : PatCfg) (st : Nat) : Bool :=
  if c.code < 6 then (prbsLags c.code).foldl (fun b k => b != st.testBit (k - 1)) false
  else if c.code = 6 then decide (st % (2 * c.half) < c.half)
  else c.user.testBit (st % 80)

/-- The state after a bit. -/
def PatCfg.next (c : PatCfg) (st : Nat) (b : Bool) : Nat :=
  if c.code < 6 then (2 * st + b.toNat) % 2 ^ prbsDegree c.code
  else if c.code = 6 then (st + 1) % (2 * c.half)
  else (st + 1) % 80

/-- One bit of the generator, `period` bits apart one inverted where errors are injected at a rate; a single injection falls on the next
bit, once where both meet (R243). -/
def genBit (c : PatCfg) (period : Option Nat) (g : GenRec) : Bool × GenRec :=
  let b := c.bit g.st
  let n := g.n + 1
  let rate := match period with
    | some p => n % p == 0
    | none => false
  ((b != c.invert) != (g.inj || rate), { st := c.next g.st b, n := n, inj := false })

/-- The next bits of the generator. -/
def genBits (c : PatCfg) (period : Option Nat) : Nat → GenRec → List Bool × GenRec
  | 0, g => ([], g)
  | k + 1, g =>
    let x := genBit c period g
    let r := genBits c period k x.2
    (x.1 :: r.1, r.2)

/-- The bits that follow from a state are those given; the state after them. -/
def PatCfg.follow (c : PatCfg) : List Bool → Nat → Option Nat
  | [], st => some st
  | b :: t, st => if c.bit st = b then c.follow t (c.next st b) else none

/-- A run of bits, the oldest first, is error-free: it is a stretch of the pattern; the state after it (R242). -/
def PatCfg.lock (c : PatCfg) (l : List Bool) : Option Nat :=
  if c.code < 6 then
    let n := prbsDegree c.code
    let st := (l.take n).foldl c.next 0
    if st = 0 then none else c.follow (l.drop n) st
  else (List.range (if c.code = 6 then 2 * c.half else 80)).findSome? (c.follow l)

/-- One bit at the checker (R242): while unlocked it looks for 64 error-free bits; while locked its own pattern runs on, errors count, and
16 of them within 64 bits unlock it.  The third component counts the errors. -/
def chkBit (c : PatCfg) (b : Bool) (x : ChkRec × Bool × Nat) : ChkRec × Bool × Nat :=
  let k := x.1
  let b := b != c.invert
  let last := (b :: k.last).take 64
  if x.2.1 then
    let want := c.bit k.st
    let errs := ((b != want) :: k.errs).take 64
    let n := x.2.2 + (b != want).toNat
    if 16 ≤ errs.count true then ({ st := 0, last := last, errs := [] }, false, n)
    else ({ st := c.next k.st want, last := last, errs := errs }, true, n)
  else
    match if last.length = 64 then c.lock last.reverse else none with
    | some st => ({ st := st, last := last, errs := [] }, true, x.2.2)
    | none => ({ k with last := last }, false, x.2.2)

end Sys2Proof.Machine
end

