-- ==== Sys2Proof/Machine/Outputs.lean ====
section
/-!
DEFINITION. Clock outputs and pulse outputs (R82 to R114): frequency limit, grid and phase, zero-delay alignment, pulse
counters, muting and realignment.
-/

namespace Sys2Proof.Machine

/-! ### Clock outputs -/

/-- The record of clock output `n`. -/
def State.outRec (s : State) (n : Nat) : OutRec := smGet {} s.outs n

/-- The record of clock output `n` is replaced. -/
def State.setOut (s : State) (n : Nat) (o : OutRec) : State := { s with outs := smSet {} s.outs n o }

/-- The multiplier of plan `k` of aux `a`, in units of 2^-32 (R76). -/
def planMul (s : State) (a k : Nat) : Nat :=
  s.get (SYN_AUX_PLAN_CTL_N_INT a k) * 2 ^ 32 + s.get (SYN_AUX_PLAN_FRAC_N_FRAC a k)

/-- The VCO cycles of source `src` in one CLK_TIME tick, in units of 2^-32 (R33, R76): 40 for the Capstan, the multiplier of
the plan an aux is locked to; of an aux that is off or has not locked, the plan it selects (DESIGN CHOICE, log entry 126). -/
def vcoPerTick (s : State) (src : Nat) : Nat :=
  if src = 0 then 40 * 2 ^ 32
  else
    let m := smGet 0 s.syn.auxMul (src - 1)
    if m = 0 then planMul s (src - 1) (s.get (SYN_AUX_CFG_PLAN_SEL (src - 1))) else m

/-- The highest frequency of a standard, in Hz (R82): CML, LVDS, HCSL. -/
def stdLimit (std : Nat) : Nat :=
  if std = 0 then 1600000000 else if std = 1 then 800000000 else 250000000

/-- Output `n` would exceed the frequency of its standard (R82): source VCO over (DIV_M1 + 1) above the limit. -/
def freqTooHigh (s : State) (n : Nat) : Bool :=
  decide (stdLimit (s.get (OUT_CFG_STD n)) * (s.get (OUT_CFG_DIV_M1 n) + 1) * 2 ^ 32 <
    250000000 * vcoPerTick s (s.get (OUT_CFG_SRC n)))

/-- The rotator code count of a phase (R87): pu x 1024 x 244.140625 fs / T, rounded under R9; pu x 2.5 for the Capstan. -/
def rotatorCodes (s : State) (src : Nat) (pu : Int) : Int := roundDiv (pu * vcoPerTick s src) (16 * 2 ^ 32)

/-- The source gives edges: the Capstan not gated, or the aux enabled, locked and not hopping (R77, R83). -/
def srcRuns (s : State) (src : Nat) : Bool :=
  if src = 0 then s.on SYN_STATUS_LOCKED && !s.gated
  else if src = 1 then s.on (SYN_AUX_CFG_EN 0) && s.on SYN_STATUS_AUX0_LOCKED && !s.on (SYN_AUX_CFG_HOPPING 0)
  else s.on (SYN_AUX_CFG_EN 1) && s.on SYN_STATUS_AUX1_LOCKED && !s.on (SYN_AUX_CFG_HOPPING 1)

/-- The source is released at half rate: the Capstan in its safe ratio, or an aux in the 2 µs after its release (R69, R70). -/
def srcHalf (s : State) (src : Nat) : Bool :=
  if src = 0 then s.on SYN_STATUS_SAFE_RATIO else decide (s.now < smGet 0 s.syn.auxSafe (src - 1))

/-- Output `n` is to toggle: enabled in a device state that lets outputs run, with its source running (R41, R77, R84). -/
def outRuns (s : State) (n : Nat) : Bool :=
  s.bit OUT_ENABLE_EN n && srcRuns s (s.get (OUT_CFG_SRC n)) &&
    (s.dev = .loading || s.dev = .running)

/-- The target of the applied phase: OUT_PHASE, less TRIM where the zero-delay loop runs (R91); while EN is 0 the TRIM held has no part
in it (DESIGN CHOICE, log entry 124). -/
def outTarget (s : State) (n : Nat) : Int :=
  s.geti (OUT_PHASE_PHASE n) - (if n < 4 && s.on (OUT_ZDB_EN n) then (s.get (OUT_ZDB_TRIM n) : Int) else 0)

/-- Output `n` gives edges or completes its last high phase (R84, R85). -/
def outToggles (s : State) (n : Nat) : Bool := (s.outRec n).phase = .high || (s.outRec n).phase = .low

/-- RUNNING, SAFE_RATIO and SLEWING of output `n` follow the state (R98). -/
def outStatus (n : Nat) (s : State) : State :=
  let s := s.putB (OUT_STATUS_RUNNING n) (outToggles s n)
  let s := s.putB (OUT_STATUS_SAFE_RATIO n) (outToggles s n && srcHalf s (s.outRec n).src)
  s.putB (OUT_STATUS_SLEWING n) (decide ((s.outRec n).applied ≠ outTarget s n))

/-! ### Grid and edges (R83 to R85).  Places are counted in 2^-32 VCO cycles from the last release of the source. -/

/-- How far the source has come since its last release. -/
def srcPos (s : State) (n : Nat) : Int := (smGet 0 s.syn.vco (s.outRec n).src : Nat)

/-- One cycle of output `n`. -/
def outCycle (s : State) (n : Nat) : Int := (((s.outRec n).div + 1) * 2 ^ 32 : Nat)

/-- The high phase of output `n`: a whole number of VCO cycles, at least one and less than the divider; the spec states no duty. -/
def outHigh (s : State) (n : Nat) : Int :=
  let d := (s.outRec n).div
  ((1 + Config.outHighCycles (d + 1) % max d 1) * 2 ^ 32 : Nat)

/-- The low phase of output `n`. -/
def outLow (s : State) (n : Nat) : Int := outCycle s n - outHigh s n

/-- The error of a linearity table at a rotator code, interpolated between the entries 0, 16, to 1,008 and rounded under R9 (R519). -/
def tableError (l : List Int) (c : Nat) : Int :=
  let k := c / 16
  roundDiv (l.getD k 0 * (16 - c % 16 : Nat) + l.getD ((k + 1) % 64) 0 * (c % 16 : Nat)) 16

/-- The code the rotator of output `n` takes for a phase: the rounded count of R87, less the table's error at its remainder. -/
def outCode (s : State) (n : Nat) (pu : Int) : Int :=
  let c := rotatorCodes s (s.get (OUT_CFG_SRC n)) pu
  c - tableError (smGet [] s.cal.rotator n) (c % 1024).toNat

/-- The whole VCO cycles of the code in force. -/
def outWhole (s : State) (n : Nat) : Int := (s.outRec n).code / 1024

/-- The rotator setting of the code in force. -/
def outRotator (s : State) (n : Nat) : Int := (s.outRec n).code % 1024

/-- How far the code in force shifts the edges: 1024 codes are one VCO cycle. -/
def codeShift (c : Int) : Int := c * 2 ^ 22

/-- The grid number of the first edge that lies at or after a place. -/
def firstEdge (s : State) (n : Nat) (from_ : Int) : Int :=
  -((codeShift (s.outRec n).code - from_) / outCycle s n)

/-- Output `n`, held low, gives its first edge on its grid, shifted by the code in force, at or after the place it waits from (R83, R84). -/
def outFirst (n : Nat) (s : State) : State :=
  let o := s.outRec n
  let k := firstEdge s n o.start
  s.setOut n { o with phase := .hold, idx := k, next := k * outCycle s n + codeShift o.code }

/-- Output `n` is to start on the source and divider stored for it (R84, R86): one that completed a stop runs on neither until then. -/
def outTake (n : Nat) (s : State) : State :=
  s.setOut n { s.outRec n with src := s.get (OUT_CFG_SRC n), div := s.get (OUT_CFG_DIV_M1 n) }

/-- Output `n` starts: it waits from a place on. -/
def outStart (n : Nat) (from_ : Int) (s : State) : State := outFirst n (s.setOut n { s.outRec n with start := from_ })

/-- The rotator takes the code for the applied phase, unless it holds its code for a measurement (R87, R90); an output that still waits
for its first edge waits for the edge so shifted (R84). -/
def outSetCode (n : Nat) (s : State) : State :=
  if s.on (OUT_STATUS_STALE n) then s
  else
    let s := s.setOut n { s.outRec n with code := outCode s n (s.outRec n).applied }
    if (s.outRec n).phase = .hold then outFirst n s else s

/-- Channel 78 sweeps the spare rotator for output `n` (R519, R522). -/
def outSwept (s : State) (n : Nat) : Bool :=
  s.on CAL_STATUS_CH78_BUSY && s.get CAL_STATUS_CH78_CLASS == 3 && s.get CAL_STATUS_CH78_INST == n

/-- A stopped output takes its target at once; while its rotator holds its code the target waits (R89, R90, R519). -/
def outStopped (n : Nat) (s : State) : State :=
  if outToggles s n then s
  else if s.on (OUT_STATUS_STALE n) then s.setOut n { s.outRec n with jump := true }
  else outSetCode n (s.setOut n { s.outRec n with applied := outTarget s n, jump := false })

/-- The rotator holds its code no more: STALE clears, and a target written while stopped is taken (R90, R524, R527). -/
def outRelease (n : Nat) (s : State) : State :=
  let s := s.put (OUT_STATUS_STALE n) 0
  if (s.outRec n).jump then outStopped n s else s

/-- The spare rotator becomes live with the new table, its code set from it for the applied phase: STALE clears, and the application
counts (R519, R524, R529). -/
def outExchange (n : Nat) (s : State) : State :=
  match (s.outRec n).table with
  | none => s
  | some l =>
    if outSwept s n then s
    else
      let s : State := { s with cal := { s.cal with rotator := smSet [] s.cal.rotator n l } }
      outSetCode n (outRelease n (calApplied 3 n (s.setOut n { s.outRec n with table := none })))

/-- A stopped output takes at once a table that waits (R519). -/
def outIdle (n : Nat) (s : State) : State := if outToggles s n then s else outExchange n s

/-- The sweep for output `n` is over: a table waits for the output cycle boundary, and without one the rotator is released (R90, R519,
R527). -/
def outUnstale (n : Nat) (s : State) : State := if (s.outRec n).table.isSome then outIdle n s else outRelease n s

/-- One step of the applied phase toward the target, at most OUT_SLEW pu, in a low phase (R88); none while the rotator is held (R90). -/
def outSlew (n : Nat) (s : State) : State :=
  if s.on (OUT_STATUS_STALE n) then s
  else
    let o := s.outRec n
    let lim := s.get (OUT_SLEW_SLEW n)
    let d := clampI (-(lim : Int)) lim (outTarget s n - o.applied)
    outSetCode n (s.setOut n { o with applied := o.applied + d })

/-- The edge, or the end of the wait, that output `n` has come to (R84, R85, R88, R519). -/
def outEvent (n : Nat) (s : State) : State :=
  let o := s.outRec n
  match o.phase with
  | .off => s
  | .hold | .low =>
    let s := outExchange n s
    s.setOut n { s.outRec n with phase := .high, idx := o.idx, next := o.next + outHigh s n }
  | .high =>
    if outRuns s n then
      let s := outSlew n s
      let k := o.idx + 1
      let edge := k * outCycle s n + codeShift (s.outRec n).code
      s.setOut n { s.outRec n with phase := .low, idx := k, next := max edge (o.next + 1) }
    else outIdle n (s.setOut n { o with phase := .stop, next := o.next + outLow s n })
  | .stop => s.setOut n { o with phase := .off }

/-- The events of output `n` up to the place its source has come to; `fuel` bounds them. -/
def outEvents (n : Nat) : Nat → State → State
  | 0, s => s
  | fuel + 1, s =>
    if (s.outRec n).phase = .off ∨ srcPos s n < (s.outRec n).next then s else outEvents n fuel (outEvent n s)

/-- Output `n` follows its enable, its source and the device state (R41, R69, R77, R84, R85): it starts after one whole low phase, and
stops at its next low phase. -/
def outFollow (n : Nat) (s : State) : State :=
  let o := s.outRec n
  let s :=
    if s.dev ≠ .loading ∧ s.dev ≠ .running then s.setOut n { o with phase := .off }
    else if outRuns s n then
      if o.phase = .off ∨ o.phase = .stop then
        let s := outSetCode n (outTake n s)
        outStart n (srcPos s n + outLow s n) s
      else s
    else if o.phase = .hold ∨ o.phase = .low then s.setOut n { o with phase := .stop, next := srcPos s n + outLow s n }
    else s
  outStatus n (outIdle n s)

/-- Every output follows. -/
def outStatusAll (s : State) : State := forEach (List.range 12) outFollow s

/-- The VCO cycles (2^-32) of a source in a part of a tick: `tick` says that CLK_TIME ticked, `units` are 4 ns of wall time.  The
Capstan's dividers run at half rate while CLK_TIME does, an aux's in the 2 µs after its release. -/
def srcStep (s : State) (src : Nat) (ticked : Bool) (units : Nat) : Nat :=
  if src = 0 then 40 * 2 ^ 32 * (if ticked then 1 else units)
  else vcoPerTick s src * units / (if srcHalf s src then 2 else 1)

/-- The sources advance and the outputs' edges fall (R83 to R88).  Sources held on a frozen VCO control run on (R71). -/
def outsTick (ticked : Bool) (units : Nat) (s : State) : State :=
  let s : State := { s with syn := { s.syn with
    vco := [0, 1, 2].foldl (fun m k => smSet 0 m k (smGet 0 m k + srcStep s k ticked units)) s.syn.vco } }
  forEach ((List.range 12).filter (fun n => (s.outRec n).phase ≠ .off)) (fun n s => outStatus n (outEvents n 64 s)) s

/-- The dividers of the outputs on source `src` restart together at its release, each enabled output with the first edge of its grid, and
each code is the one of the source's present cycle (R69, R77, R83, R87). -/
def outRestart (src : Nat) (s : State) : State :=
  let s : State := { s with syn := { s.syn with vco := smSet 0 s.syn.vco src 0 } }
  forEach ((List.range 12).filter (fun n => s.get (OUT_CFG_SRC n) == src)) (fun n s =>
    let s := outSetCode n s
    outStatus n (if outRuns s n then outStart n 0 (outTake n s) else s)) s

/-- OUT_ENABLE's bits under `mask` take the value, each rise checked against the frequency limit (R82, R84, R85); the
result says whether one was refused. -/
def clkoutSet (mask value : Nat) (s : State) : State × Bool :=
  (List.range 12).foldl (fun (r : State × Bool) n =>
    let s := r.1
    if !mask.testBit n then r
    else if value.testBit n then
      if s.bit OUT_ENABLE_EN n then r
      else if freqTooHigh s n then (s.ev OUT_EVENT_FREQ_LIMIT, true)
      else (outFollow n (s.putBit OUT_ENABLE_EN n true), r.2)
    else (outFollow n (s.putBit OUT_ENABLE_EN n false), r.2)) (s, false)

/-- One zero-delay measurement (R91 to R94): the error found is taken out of TRIM, within its range, and lock is judged; while the
rotator is measured no trim is applied (R519). -/
def zdbMeasure (n : Nat) (err : Int) (s : State) : State :=
  if n < 4 && s.on (OUT_ZDB_EN n) then
    let o := s.outRec n
    let want := (s.get (OUT_ZDB_TRIM n) : Int) + (if s.on (OUT_STATUS_STALE n) then 0 else err)
    let trim := clampI 0 131071 want
    let out := decide (trim ≠ want)
    let cnt := if !out && err.natAbs ≤ 4 then o.zdbGood + 1 else 0
    let s := s.puti (OUT_ZDB_TRIM n) trim
    let s := s.put (OUT_STATUS_FB_LOST n) 0
    let s := s.setOut n { o with zdbGood := min cnt 16 }
    let s :=
      if out then s.put (OUT_STATUS_ZDB_LOCKED n) 0
      else if 16 ≤ cnt then s.put (OUT_STATUS_ZDB_LOCKED n) 1
      else if 16 < err.natAbs then s.put (OUT_STATUS_ZDB_LOCKED n) 0
      else s
    outStatus n s
  else s

/-- CLKFBn shows no edge for 1 ms (R94): TRIM is held, and the loss is flagged.  ZDB_LOCKED clears, and the count of good measurements
stands, so that the next one within the limits locks again (DESIGN CHOICE, log entry 125). -/
def fbLost (n : Nat) (s : State) : State :=
  if n < 4 && s.on (OUT_ZDB_EN n) then
    ((s.put (OUT_STATUS_FB_LOST n) 1).put (OUT_STATUS_ZDB_LOCKED n) 0).putBit OUT_EVENT_FB_LOST n true
  else s

/-! ### Pulse outputs -/

/-- The record of pulse output `n`. -/
def State.ppsRec (s : State) (n : Nat) : PpsRec := smGet {} s.pps n

/-- The record of pulse output `n` is replaced. -/
def State.setPps (s : State) (n : Nat) (p : PpsRec) : State := { s with pps := smSet {} s.pps n p }

/-- PERIOD lies within the limit of a mode (R114): PPS, FRAME, PATTERN. -/
def ppsPeriodOk (mode period : Nat) : Bool :=
  if mode = 0 then period == 1000000000
  else if mode = 1 then decide (125000 ≤ period) && decide (period ≤ 1000000000) && 1000000000 % period == 0
  else decide (8 ≤ period) && decide (period ≤ 15625000)

/-- WIDTH lies within its limit; PATTERN does not use it (R114). -/
def ppsWidthOk (mode period width : Nat) : Bool :=
  if mode = 0 || mode = 1 then decide (8 ≤ width) && decide (width + 8 ≤ period) else true

/-- The stored MODE, PERIOD and WIDTH of output `n` form a valid set (R114). -/
def ppsSetOk (s : State) (n : Nat) : Bool :=
  let m := s.get (PPS_OUT_CFG_MODE n)
  let p := s.get (PPS_OUT_PERIOD_V n)
  ppsPeriodOk m p && ppsWidthOk m p (s.get (PPS_OUT_WIDTH_V n))

/-- The stored settings of output `n` come into effect (R109). -/
def ppsTakeSettings (n : Nat) (s : State) : State :=
  s.setPps n { s.ppsRec n with
    mode := s.get (PPS_OUT_CFG_MODE n), period := s.get (PPS_OUT_PERIOD_V n), width := s.get (PPS_OUT_WIDTH_V n),
    offset := s.geti (PPS_OUT_OFFSET_V n), pattern := s.wide (PPS_OUT_PATTERN n), pend := false }

/-- At a whole second of the pulse counter: pending writes take effect together, where they leave a valid set (R109). -/
def ppsApply (n : Nat) (s : State) : State :=
  if (s.ppsRec n).pend && ppsSetOk s n then ppsTakeSettings n s else s

/-- An enabled output's settings are written: they wait for the next whole second; a stopped one takes them at once. -/
def ppsWritten (n : Nat) (s : State) : State :=
  if s.on (PPS_OUT_CFG_EN n) then s.setPps n { s.ppsRec n with pend := true } else ppsTakeSettings n s

/-- Output `n` is enabled: its settings come into effect, and while INVALID with MUTE_INVALID it is muted (R104). -/
def ppsEnabled (n : Nat) (s : State) : State :=
  let s := ppsTakeSettings n s
  if s.get TB_STATUS_STATE = 0 ∧ s.on PPS_CFG_MUTE_INVALID then s.putBit PPS_STATUS_MUTED n true else s

/-- Output `n` is disabled: held at its inactive level, its mute left in place (R104, R113). -/
def ppsDisabled (n : Nat) (s : State) : State :=
  let p := s.ppsRec n
  let s := s.setPps n { p with high := false, left := 0, pend := false }
  if p.high then s.send (.pps n false p.count) else s

/-- PPS_OUTn_CFG.EN's bits under the mask take the value; an enable of an invalid set is refused (R114, R190). -/
def ppsoutSet (mask value : Nat) (s : State) : State × Bool :=
  (List.range 4).foldl (fun (r : State × Bool) n =>
    let s := r.1
    if !mask.testBit n then r
    else if value.testBit n then
      if s.on (PPS_OUT_CFG_EN n) then r
      else if !ppsSetOk s n then (s.ev OUT_EVENT_CFG_ERR, true)
      else (ppsEnabled n (s.put (PPS_OUT_CFG_EN n) 1), r.2)
    else if s.on (PPS_OUT_CFG_EN n) then (ppsDisabled n (s.put (PPS_OUT_CFG_EN n) 0), r.2)
    else r) (s, false)

/-- The realign itself (R107): the pulse counter takes time `t`, MISALIGNED and the mute clear, DIFF returns to 0, and the
next pulse waits until PERIOD / 2 after the last rising edge. -/
def ppsRealignTo (t n : Nat) (s : State) : State :=
  let s := s.setPps n { s.ppsRec n with count := t % span40, guard := true, realign := false }
  let s := s.putWide (PPS_OUT_DIFF n) 0
  (s.putBit PPS_STATUS_MISALIGNED n false).putBit PPS_STATUS_MUTED n false

/-- A realign of the outputs in `m` requested: rejected while INVALID (R108), else made at the next tick (R107). -/
def ppsRealign (m : Nat) (s : State) : State :=
  forEach (bitsOf 4 m) (fun n s =>
    if s.get TB_STATUS_STATE = 0 then s.putBit PPS_STATUS_REALIGN_REJ n true
    else s.setPps n { s.ppsRec n with realign := true }) s

/-- The time base has stepped to `t` at a tick at which the pulse counters, still to count it, add `inc`: they keep their value, DIFF
takes the difference, all four outputs are MISALIGNED (R103). -/
def ppsStepped (t inc : Nat) (s : State) : State :=
  forEach (List.range 4) (fun n s =>
    (s.putWide (PPS_OUT_DIFF n) (snsOf (((s.ppsRec n).count + inc : Nat) - (t : Int)))).putBit PPS_STATUS_MISALIGNED n true) s

/-- The time base went INVALID: with MUTE_INVALID every enabled output is muted (R104). -/
def ppsInvalid (s : State) : State :=
  if s.on PPS_CFG_MUTE_INVALID then
    forEach (List.range 4) (fun n s => if s.on (PPS_OUT_CFG_EN n) then s.putBit PPS_STATUS_MUTED n true else s) s
  else s

/-- The time base leaves INVALID: without MUTE_INVALID all four outputs are MISALIGNED (R105).  R105 names no condition in its second
sentence; it is taken under that of its first (DESIGN CHOICE, log entry 129). -/
def ppsLeftInvalid (s : State) : State :=
  if s.on PPS_CFG_MUTE_INVALID then s else s.put PPS_STATUS_MISALIGNED 15

/-- AUTO_REALIGN: every enabled output is realigned at the first entry to FINE after INVALID (R106). -/
def ppsAuto (s : State) : State :=
  if s.on PPS_CFG_AUTO_REALIGN then
    forEach (List.range 4) (fun n s =>
      if s.on (PPS_OUT_CFG_EN n) then s.setPps n { s.ppsRec n with realign := true } else s) s
  else s

/-- Whether slot `k` of a pattern is active: bit 63 - k (R102). -/
def patternSlot (p : PpsRec) (k : Nat) : Bool := decide (k < 64) && p.pattern.testBit (63 - k)

/-- The active slots of a pattern from slot `k` on, without a gap. -/
def patternRun (p : PpsRec) : Nat → Nat → Nat
  | 0, _ => 0
  | fuel + 1, k => if patternSlot p k then patternRun p fuel (k + 1) + 1 else 0

/-- How far behind `t1` the newest place S + k x PERIOD + OFFSET lies, where one lies in (t0, t1] (R102); places are whole pu. -/
def ppsPlace (p : PpsRec) (t0 t1 : Nat) : Option Nat :=
  let g := p.period * 2 ^ 40
  let back := timeAdd t1 (-(p.offset * pu40)) % sec40 % g
  if p.period ≠ 0 ∧ back < t1 - t0 then some back else none

/-- The pulse that starts at a place `back` behind `t1`: its length, 0 where none does (R102).  In PATTERN mode the place is the start of
slot k, and the pulse lasts to the next slot that is not active. -/
def ppsPulse (p : PpsRec) (t1 back : Nat) : Nat :=
  if p.mode = 2 then
    let k := (timeAdd t1 (-(p.offset * pu40)) % sec40 - back) / (p.period * 2 ^ 40)
    patternRun p 64 k * p.period * 2 ^ 40
  else p.width * 2 ^ 40

/-- Every pulse output is low (R41). -/
def ppsSilence (s : State) : State :=
  forEach (List.range 4) (fun n s =>
    let p := s.ppsRec n
    if p.high then (s.setPps n { p with high := false, left := 0 }).send (.pps n false p.count) else s) s

/-- The pulse of output `n` ends within the tick that brings its counter from `t0` on by `inc` (R102). -/
def ppsFall (t0 inc n : Nat) (s : State) : State :=
  let p := s.ppsRec n
  if p.high ∧ p.left ≤ inc then (s.setPps n { p with high := false, left := 0 }).send (.pps n false ((t0 + p.left) % span40))
  else s.setPps n { p with left := p.left - inc }

/-- A pulse of output `n` starts within the tick, unless a mute or the guard of a realign holds it back (R102, R104, R107).  A pulse
that has not ended completes its width, and a new edge that falls within it is not given (DESIGN CHOICE, log entry 153). -/
def ppsRise (t0 t1 n : Nat) (s : State) : State :=
  let p := s.ppsRec n
  match ppsPlace p t0 t1 with
  | none => s.setPps n { p with since := p.since + (t1 - t0) }
  | some back =>
    let len := ppsPulse p t1 back
    let since := p.since + (t1 - t0) - back
    if len = 0 ∨ p.high ∨ s.bit PPS_STATUS_MUTED n ∨ (p.guard ∧ p.gave ∧ since < p.period * 2 ^ 39) then
      s.setPps n { p with since := p.since + (t1 - t0) }
    else
      (s.setPps n { p with
        high := true, guard := false, gave := true, since := back, left := len - back,
        edgeSec := (t1 - back) / sec40 }).send (.pps n true ((t1 - back) % span40))

/-- A pulse that ends where the next active slot begins runs on (R102): the end of slot 63 and the start of the next second's slot 0. -/
def ppsExtend (t0 inc n : Nat) (s : State) : State :=
  let p := s.ppsRec n
  if p.mode = 2 ∧ p.high ∧ p.left ≤ inc ∧ !s.bit PPS_STATUS_MUTED n ∧ !p.guard then
    match ppsPlace p t0 (t0 + inc) with
    | some back =>
      if p.left + back = inc then s.setPps n { p with left := p.left + ppsPulse p (t0 + inc) back } else s
    | none => s
  else s

/-- One CLK_TIME tick of pulse output `n`: its counter adds the increment, pending settings come into effect at a whole second, and
edges fall where R102 places them (R102, R104, R107, R109). -/
def ppsTick (inc n : Nat) (s : State) : State :=
  let t0 := (s.ppsRec n).count
  let t1 := t0 + inc
  let s := s.setPps n { s.ppsRec n with count := t1 % span40 }
  let s := if t0 / sec40 ≠ t1 / sec40 then ppsApply n s else s
  if !s.on (PPS_OUT_CFG_EN n) || s.dev = .safeMode then s.setPps n { s.ppsRec n with since := (s.ppsRec n).since + inc }
  else ppsRise t0 t1 n (ppsFall t0 inc n (ppsExtend t0 inc n s))

/-- The tick of the realigns asked for: the counters take the time base's value at the tick, a step of it with it; a pulse may start right
there (R107). -/
def ppsRealignDue (s : State) : State :=
  forEach ((List.range 4).filter (fun n => (s.ppsRec n).realign)) (fun n s =>
    let t := s.tb.count
    let s := ppsRealignTo t n s
    if s.on (PPS_OUT_CFG_EN n) ∧ 0 < t ∧ (ppsPlace (s.ppsRec n) (t - 1) t).isSome then ppsRise (t - 1) t n s else s) s

/-- PPS_CFG_APPLY: the pulse counter of output `n` stands in the tick of a whole second (R109); the settings that wait come into
effect, unless the tick itself has brought them. -/
def ppsApplyDue (n : Nat) (s : State) : State :=
  if (s.ppsRec n).count % sec40 < s.wide TB_INCR % 2 ^ 48 then ppsApply n s else s

end Sys2Proof.Machine
end

