-- ==== Sys2Proof/Machine/RefSel.lean ====
section
/-!
DEFINITION. The Reference Selector, the DPLL and holdover (R115 to R147): candidate states, ranking and moves, disputes, the
holdover history and value, warm start from FRAM.
-/

namespace Sys2Proof.Machine

/-! ### DCO_OFFSET and holdover (R135 to R147) -/

/-- A DCO value has 34 bits (R7); one that would not fit is held at the end of the range (log entry 137). -/
def dcoClamp (v : Int) : Int := clampI (-(2 ^ 33)) (2 ^ 33 - 1) v

/-- DCO_OFFSET takes a value; SEXT copies its sign (R163). -/
def dcoSet (v : Int) (s : State) : State := s.putWidei DCO_OFFSET (dcoClamp v)

/-- The DPLL owns DCO_OFFSET (R28). -/
def State.dpllOwns (s : State) : Bool := !s.on DCO_CTRL_OWNER

/-- The DPLL's state code (R162). -/
def State.dpll (s : State) : Nat := s.get DPLL_STATUS_STATE

/-- A second in which the DPLL is neither LOCKED nor displaced by the host gives no VALID entry (R139). -/
def secCheck (s : State) : State :=
  if s.dpll = 2 ∨ !s.dpllOwns then s else { s with sel := { s.sel with secBad := true } }

/-- The DPLL takes a state. -/
def dpllSet (st : Nat) (s : State) : State := secCheck (s.put DPLL_STATUS_STATE st)

/-- Number and sum of the VALID entries of seconds `lo` to `hi`, the list holding the newest first, that of second `e` on top
(R140). -/
def validIn (lo hi : Nat) : List HoldEntry → Nat → Nat × Int
  | [], _ => (0, 0)
  | h :: t, e =>
    let r := validIn lo hi t (e - 1)
    if h.valid && decide (lo ≤ e) && decide (e < hi) then (r.1 + 1, r.2 + h.mean) else r

/-- Number and sum of the VALID entries of a span of seconds. -/
def histValid (s : State) (lo hi : Nat) : Nat × Int := validIn lo hi s.sel.hist (s.sel.secs - 1)

/-- The oldest second in the history. -/
def histOldest (s : State) : Nat := s.sel.secs - s.sel.hist.length

/-- The window's first second, extended back until enough entries are VALID or the oldest is reached (R140). -/
def extendBack (s : State) (tEnd need : Nat) : Nat → Nat → Nat
  | 0, first => first
  | fuel + 1, first =>
    if need ≤ (histValid s first tEnd).1 ∨ first ≤ histOldest s then first
    else extendBack s tEnd need fuel (first - 1)

/-- A holdover value and how it was found (R140). -/
structure HoldRes where
  value : Int
  used : Nat
  extended : Bool := false
  guardUsed : Bool := false
  seed : Bool := false

/-- A warm-start seed is present and not rejected (R135). -/
def seedPresent (s : State) : Bool := s.get HOLD_STATUS_SEED = 1 || s.get HOLD_STATUS_SEED = 2

/-- R140, for a loss in second `tl`. -/
def holdCompute (s : State) (tl : Nat) : Option HoldRes :=
  let w := s.get HOLD_CFG_WINDOW
  let tEnd := tl - s.get HOLD_CFG_GUARD
  let first0 := tEnd - w
  let first := extendBack s tEnd ((w + 1) / 2) 4096 first0
  let a := histValid s first tEnd
  let b := histValid s tEnd tl
  if 0 < a.1 then some ⟨roundDiv a.2 a.1, a.1, first ≠ first0, false, false⟩
  else if 0 < b.1 then some ⟨roundDiv b.2 b.1, b.1, false, true, false⟩
  else if seedPresent s then some ⟨s.sel.seed, 0, false, false, true⟩
  else none

/-- Holdover is available (R135). -/
def holdAvailable (s : State) : Bool := s.sel.hist.any (fun h => h.valid) || seedPresent s

/-- HOLD_VALUE and what HOLD_STATUS says of it. -/
def holdStore (r : HoldRes) (s : State) : State :=
  let s := (s.putWidei HOLD_VALUE (dcoClamp r.value)).put HOLD_STATUS_USED r.used
  let s := (s.putB HOLD_STATUS_EXTENDED r.extended).putB HOLD_STATUS_GUARD_USED r.guardUsed
  { s with sel := { s.sel with fromSeed := r.seed } }

/-- The DPLL goes to FREERUN, which is entered unless it is there already; its value applies at the next update (R134, R136). -/
def enterFreerun (s : State) : State :=
  let s := s.put REF_STATUS_SEL_VALID 0
  if s.dpll = 0 then s else (dpllSet 0 s).ev REF_EVENT_FREERUN

/-- HOLDOVER is entered, or FREERUN where holdover is not available (R134, R140). -/
def enterHoldover (s : State) : State :=
  if holdAvailable s then
    let s := { s with sel := { s.sel with lossSec := s.sel.secs } }
    let s := match holdCompute s s.sel.secs with
      | some r => holdStore r s
      | none => s
    (dpllSet 3 (s.put REF_STATUS_SEL_VALID 0)).ev REF_EVENT_HOLDOVER
  else enterFreerun s

/-- What the DPLL applies at an update in FREERUN or HOLDOVER, and whether it is the seed (R136, R140). -/
def freeValue (s : State) : Int × Bool :=
  if s.dpll = 3 then (s.widei HOLD_VALUE, s.sel.fromSeed)
  else if seedPresent s then (s.sel.seed, true)
  else (s.widei HOLD_FREERUN, false)

/-- The age test of the seed (R147): within a day it is confirmed, else rejected; a HOLD_VALUE taken from it is found anew. -/
def seedAge (s : State) : State :=
  if s.get HOLD_STATUS_SEED = 1 && !s.sel.seedAged then
    let s := { s with sel := { s.sel with seedAged := true } }
    if s.sel.seedTime ≤ s.tb.count ∧ s.tb.count < s.sel.seedTime + 86400 * sec40 then s.put HOLD_STATUS_SEED 2
    else
      let s := (s.put HOLD_STATUS_SEED 3).ev REF_EVENT_SEED_REJECTED
      if s.dpll = 3 ∧ s.sel.fromSeed then
        match holdCompute s s.sel.lossSec with
        | some r => holdStore r s
        | none => enterFreerun { s with sel := { s.sel with fromSeed := false } }
      else s
  else s

/-- One second's mean into the history, newest first, 4,096 at most (R139). -/
def historyWrite (s : State) : State :=
  let mean := if s.sel.dcoTicks = 0 then s.widei DCO_OFFSET else roundDiv s.sel.dcoSum s.sel.dcoTicks
  let good := !s.sel.secBad && (s.dpll = 2 || !s.dpllOwns)
  secCheck { s with sel := { s.sel with
    hist := (⟨mean, good⟩ :: s.sel.hist).take 4096, secs := s.sel.secs + 1, dcoSum := 0, dcoTicks := 0, secBad := false,
    sinceSave := s.sel.sinceSave + 1 } }

/-- A history entry in the HOLD_HIST layout (R166). -/
def histWord (h : HoldEntry) : Nat := unsigned 34 h.mean + (if h.valid then 2 ^ 63 else 0)

/-! ### FRAM (R142 to R146) -/

/-- A byte of the FRAM; one nothing has written reads 0 (log entry 4). -/
def State.framByte (s : State) (a : Nat) : Byte := smGet 0 s.fram a

/-- `n` bytes of the FRAM from `a`. -/
def framRead (s : State) (a n : Nat) : List Byte := (List.range n).map (fun k => s.framByte (a + k))

/-- A command to the FRAM with its 2-byte address, the high byte first (R142, log entry 136). -/
def framCommand (op a : Nat) (l : List Byte) : Out :=
  .fram (BitVec.ofNat 8 op :: BitVec.ofNat 8 (a / 256) :: BitVec.ofNat 8 a :: l)

/-- Bytes written to the FRAM from `a` on, with WREN and WRITE (R142). -/
def framWrite (a : Nat) (l : List Byte) (s : State) : State :=
  let s := (s.send (.fram [0x06])).send (framCommand 0x02 a l)
  { s with fram := (l.foldl (fun (r : SMap Byte × Nat) b => (smSet 0 r.1 r.2 b, r.2 + 1)) (s.fram, a)).1 }

/-- The FRAM is read from `a` on with READ (R142); `framRead` is what it answers. -/
def framAsk (a : Nat) (s : State) : State := s.send (framCommand 0x03 a [])

/-- The present time as 12 bytes of TB96, zero while INVALID (R143). -/
def saveTime (s : State) : List Byte :=
  if s.get TB_STATUS_STATE = 0 then leBytes 12 0 else leBytes 12 (tb96Of s.tb.count)

/-- A header (R143) for a save with sequence number `seq`, next ring index `idx` and a cause. -/
def framHeader (s : State) (seq idx cause : Nat) : List Byte × State :=
  let r := holdCompute s s.sel.secs
  let f := s.fresh
  let v := dcoClamp (match r with
    | some r => r.value
    | none => Config.holdEstimate f.1)
  let n := match r with
    | some r => r.used
    | none => 0
  let body := leBytes 4 0x4B484C44 ++ leBytes 4 seq ++ saveTime s ++ leBytes 4 (s.word SYN_ROOT).toNat ++
    leBytes 8 (unsigned 64 v) ++ leBytes 2 n ++ leBytes 2 idx ++ leBytes 1 cause ++ leBytes 23 0
  (body ++ leBytes 4 (crc32 body).toNat, match r with | some _ => s | none => f.2)

/-- The ring index a save starts at: the newest valid header's; a power-fail save goes on after the entries of a periodic save whose
read-back is still due (R144, R145). -/
def framIdx (s : State) : Nat :=
  match s.sel.save with
  | some v => v.idx
  | none => s.sel.newestIdx

/-- A save (R144, R145): the newest `n` entries into the ring, then the header into the slot that does not hold the newest valid one;
the reserved bytes are written as zero (R142). -/
def framSave (n cause : Nat) (s : State) : State :=
  let idx := framIdx s
  let new := (s.sel.hist.take n).reverse
  let s := (new.foldl (fun (r : State × Nat) h =>
    (framWrite (0x100 + 8 * r.2) (leBytes 8 (histWord h)) r.1, (r.2 + 1) % 4096)) (s, idx % 4096)).1
  let seq := (s.sel.newestSeq + 1) % 2 ^ 32
  let next := (idx + new.length) % 4096
  let slotB := s.sel.anyHeader && !s.sel.newestB
  let h := framHeader (framWrite 0x80 (List.replicate 128 0) s) seq next cause
  let s := framWrite (if slotB then 0x40 else 0) h.1 h.2
  { s with sel := { s.sel with sinceSave := 0, save := some ⟨slotB, seq, next⟩ } }

/-- After 64 new entries, with the FRAM in use and read, they are saved (R144). -/
def framPeriodic (s : State) : State :=
  if s.on HOLD_FRAM_CFG_EN && s.sel.readDone && decide (64 ≤ s.sel.sinceSave) then framSave 64 1 s else s

/-- The header's read-back (R144): the same, and it is the newest valid header; or FRAM_ERR. -/
def framReadback (same : Bool) (s : State) : State :=
  match s.sel.save with
  | none => s
  | some v =>
    let s := framAsk (if v.slotB then 0x40 else 0) { s with sel := { s.sel with save := none } }
    if same then
      { s.put HOLD_STATUS_FRAM_ERR 0 with sel := { s.sel with
          newestB := v.slotB, newestSeq := v.seq, newestIdx := v.idx, anyHeader := true } }
    else raiseMinor 4 ((s.put HOLD_STATUS_FRAM_ERR 1).ev REF_EVENT_FRAM_ERR)

/-- A header as read is valid: magic and CRC (R146). -/
def headerOk (h : List Byte) : Bool :=
  natLE (h.take 4) == 0x4B484C44 && natLE ((h.drop 60).take 4) == (crc32 (h.take 60)).toNat

/-- `a` is higher than `b` in serial-number order (R146). -/
def serialHigher (a b : Nat) : Bool :=
  let d := (a + 2 ^ 32 - b) % 2 ^ 32
  decide (1 ≤ d) && decide (d < 2 ^ 31)

/-- The slot of the newest of two records, where one is valid; slot A on a tie (R146, R596). -/
def newestSlot (okA okB : Bool) (seqA seqB : Nat) : Option Bool :=
  if okA && okB then some (serialHigher seqB seqA)
  else if okA then some false
  else if okB then some true
  else none

/-- The newest valid header, its slot, and the three values kept of it (R146). -/
def framNewest (s : State) : State × Option (List Byte) :=
  let s := framAsk 0x40 (framAsk 0 s)
  let a := framRead s 0 64
  let b := framRead s 0x40 64
  match newestSlot (headerOk a) (headerOk b) (natLE ((a.drop 4).take 4)) (natLE ((b.drop 4).take 4)) with
  | none => ({ s with sel := { s.sel with anyHeader := false, newestB := true, newestSeq := 0, newestIdx := 0 } }, none)
  | some slotB =>
    let h := if slotB then b else a
    ({ s with sel := { s.sel with
        anyHeader := true, newestB := slotB, newestSeq := natLE ((h.drop 4).take 4),
        newestIdx := natLE ((h.drop 0x22).take 2) % 4096 } }, some h)

/-- The last-gasp slots at the start read (R596): the slot and sequence number of the next record. -/
def lastGaspStart (s : State) : State :=
  let s := framAsk 0x8140 (framAsk 0x8100 s)
  let a := framRead s 0x8100 64
  let b := framRead s 0x8140 64
  let ok := fun (h : List Byte) => natLE (h.take 4) == 0x4B4C4753 && natLE ((h.drop 60).take 4) == (crc32 (h.take 60)).toNat
  match newestSlot (ok a) (ok b) (natLE ((a.drop 4).take 4)) (natLE ((b.drop 4).take 4)) with
  | none => { s with sel := { s.sel with lgSlotB := false, lgSeq := 1 } }
  | some slotB =>
    let h := if slotB then b else a
    { s with sel := { s.sel with lgSlotB := !slotB, lgSeq := (natLE ((h.drop 4).take 4) + 1) % 2 ^ 32 } }

/-- The start read of R146: headers, last-gasp slots, and a provisional seed on its three conditions. -/
def framStart (s : State) : State :=
  let r := framNewest s
  let s := lastGaspStart r.1
  let s := { s with sel := { s.sel with readDone := true, readDue := false, sinceSave := 0 } }
  match r.2 with
  | none => s
  | some h =>
    let saved := natLE ((h.drop 8).take 12)
    let root := natLE ((h.drop 0x14).take 4)
    let own := (s.word SYN_ROOT).toNat
    if s.on HOLD_FRAM_CFG_WARM_EN ∧ root % 8 = own % 8 ∧ root / 2 ^ 16 = own / 2 ^ 16 ∧ saved ≠ 0 ∧ tb96Ok saved then
      let s : State := { s.put HOLD_STATUS_SEED 1 with sel := { s.sel with
        seed := dcoClamp (signed 64 (natLE ((h.drop 0x18).take 8))), seedTime := tb96Time saved, seedAged := false } }
      if s.get TB_STATUS_STATE ≠ 0 then seedAge s else s
    else s

/-- The read that a move of HOLD_FRAM_CFG.EN to 1 made due: the start read at the first such move since reset or an undo of the HOLD_
registers, at a later one the newest valid header alone (R146). -/
def framStartDue (s : State) : State :=
  if !s.sel.readDue then s
  else if s.sel.readDone then
    let r := (framNewest s).1
    { r with sel := { r.sel with readDue := false } }
  else framStart s

/-! ### Candidates (R117 to R131) -/

/-- The state of slot `n` (R160): 0 UNQUALIFIED, 1 SOAKING, 2 QUALIFIED, 3 DISPUTED, 4 FAILED, 5 WAIT_TO_RESTORE. -/
def slotState (s : State) (n : Nat) : Nat := s.get (REF_SLOT_STATE_STATE n)

/-- The slot is the mate slot in a pair state that shuts it out (R572). -/
def mateMasked (s : State) (n : Nat) : Bool :=
  s.on PAIR_CTRL_MATE_SLOT_EN && n == 8 + s.get PAIR_CTRL_MATE_SLOT && !s.pairFollows

/-- The time reference `t` of R115 is present: a domain, or 4 for the ensemble (R153, R351). -/
def sourceValid (s : State) (t : Nat) : Bool := if t < 4 then s.on (FM_DOM_STATUS_TREF_VALID t) else s.on REF_ENS_STATUS_VALID

/-- What feeds slot `n` is there, as far as the block's own state says (R115, R153): a recovered-clock selector runs, a time reference
is valid; an edge of a REFIN is seen by its gates and samples alone. -/
def slotFed (s : State) (n : Nat) : Bool :=
  if n < 8 then true else if n < 12 then s.on (LN_RCS_CFG_ACTIVE (n - 8)) else sourceValid s (s.get (REF_SLOT_CFG_TSRC n))

/-- The slot acts as enabled. -/
def slotOn (s : State) (n : Nat) : Bool := s.on (REF_SLOT_CFG_EN n) && !mateMasked s n

/-- Every check of slot `n` passes: active, and its measured frequency within the window. -/
def checksPass (s : State) (n : Nat) : Bool :=
  let r := s.refRec n
  !r.lost && r.freqSeen && decide ((s.geti (REF_SLOT_FREQ_V n)).natAbs ≤ s.get (REF_SLOT_FWIN_V n))

/-- The clockClass of a session's parent (R121, R351). -/
def sessClass (s : State) (k : Nat) : Nat :=
  let r := s.sessRec k
  match r.foreign.find? (fun f => r.parentKey == some (f.srcId, f.srcPort)) with
  | some f => f.gmClass
  | none => 255

/-- The best clockClass among the ensemble's FUSED members (R351). -/
def ensembleClass (s : State) : Nat :=
  (List.range 8).foldl (fun b k =>
    if s.get (REF_ENS_MSTAT_STATE k) = 2 then min b (sessClass s (s.get (REF_ENS_MEMBER_SESSION k))) else b) 255

/-- The quality of slot `n` (R121). -/
def slotQuality (s : State) (n : Nat) : Nat :=
  if n < 12 then s.get (REF_SLOT_CFG_QUAL n)
  else
    let t := s.get (REF_SLOT_CFG_TSRC n)
    if t < 4 then s.get (FM_DOM_PARENT_PORT_GM_CLASS t) else ensembleClass s

/-- Slot `a` ranks above slot `b` (R120, R121). -/
def ranksAbove (s : State) (a b : Nat) : Bool :=
  let k := fun n => ((s.get (REF_SLOT_CFG_PRIO n) * 256 + slotQuality s n) * 2 ^ 32 +
    s.get (REF_SLOT_INSTAB_V n)) * 16 + n
  decide (k a < k b)

/-- The best-ranked QUALIFIED candidate that `ok` admits. -/
def bestSlot (s : State) (ok : Nat → Bool) : Option Nat :=
  (List.range 16).foldl (fun b n =>
    if slotOn s n && slotState s n == 2 && ok n then
      match b with
      | some m => if ranksAbove s n m then some n else b
      | none => some n
    else b) none

/-- The reference being tracked. -/
def selectedSlot (s : State) : Option Nat :=
  if s.on REF_STATUS_SEL_VALID then some (s.get REF_STATUS_SELECTED) else none

/-- The tracked candidate may be kept: QUALIFIED, or DISPUTED with no decision against it (R131). -/
def keepable (s : State) (n : Nat) : Bool :=
  slotOn s n && (slotState s n == 2 || (slotState s n == 3 && !(s.refRec n).against))

/-- The selector decides to move (R125): DCO_OFFSET is held until the commit. -/
def switchStart (t : Nat) (s : State) : State :=
  { s.put REF_STATUS_SWITCHING 1 with sel := { s.sel with target := some t } }

/-- No candidate to select: the DPLL leaves its reference (R134). -/
def noCandidate (s : State) : State :=
  if s.dpll = 1 ∨ s.dpll = 2 then enterHoldover s else s.put REF_STATUS_SEL_VALID 0

/-- The selector's decision on the states as they stand (R122 to R124, R127, R128). -/
def refDecide (s : State) : State :=
  if s.on REF_STATUS_SWITCHING then s else
  let cur := selectedSlot s
  let kept := match cur with
    | some n => keepable s n
    | none => false
  match s.get REF_CTRL_MODE with
  | 0 =>
    let s := s.put REF_STATUS_FORCE_WAIT 0
    let best := bestSlot s (fun _ => true)
    match best with
    | none => if kept then s else noCandidate s
    | some b =>
      if !kept then switchStart b s
      else if s.on REF_CTRL_REVERTIVE &&
          decide (s.get (REF_SLOT_CFG_PRIO b) < s.get (REF_SLOT_CFG_PRIO (s.get REF_STATUS_SELECTED))) then switchStart b s
      else s
  | 1 =>
    let f := s.get REF_CTRL_FORCE_SLOT
    if cur = some f ∧ kept then s.put REF_STATUS_FORCE_WAIT 0
    else if slotOn s f ∧ slotState s f = 2 then switchStart f (s.put REF_STATUS_FORCE_WAIT 0)
    else noCandidate (s.put REF_STATUS_FORCE_WAIT 1)
  | _ => s.put REF_STATUS_FORCE_WAIT 0

/-- The loop bandwidths by code, in mHz (R132). -/
def bandwidths : List Nat := [1, 3, 10, 30, 100, 300, 1000, 3000, 10000, 30000, 100000, 300000, 1000000, 4000000]

/-- The bandwidth caps of MC23 as codes: the highest code whose bandwidth does not exceed a number of mHz. -/
def bwCode (mHz : Nat) : Nat := bandwidths.foldl (fun c b => if b ≤ mHz then c + 1 else c) 0 - 1

/-- The cap of slot `n` (MC23): a tenth of the comparison rate (R116), 300 Hz, or 1 Hz. -/
def bwCap (s : State) (n : Nat) : Nat :=
  if n < 8 then
    let f := s.get (REF_SLOT_NOM_V n)
    let div := (f + 999999) / 1000000
    bwCode (if div = 0 then 0 else f * 100 / div)
  else if n < 12 then bwCode 300000 else bwCode 1000

/-- BW_APPLIED and BW_CLAMPED follow the state and the reference (R133); in FREERUN and HOLDOVER, where no code is in use, BW_APPLIED
shows DPLL_CFG.BW (DESIGN CHOICE, log entry 157). -/
def bwRefresh (s : State) : State :=
  let code := if s.dpll = 1 then s.get DPLL_CFG_ACQ_BW else s.get DPLL_CFG_BW
  match selectedSlot s with
  | some n =>
    let cap := bwCap s n
    (s.put DPLL_STATUS_BW_APPLIED (min code cap)).putB DPLL_STATUS_BW_CLAMPED (decide (cap < code))
  | none => (s.put DPLL_STATUS_BW_APPLIED code).put DPLL_STATUS_BW_CLAMPED 0

/-- The phase of a candidate at a tick, extrapolated from its stored samples: on the line through the last two (log entry 138). -/
def RefRec.phaseAt (r : RefRec) (t : Nat) : Option Int :=
  match r.p1, r.p2 with
  | some a, some b =>
    if a.at_ ≤ b.at_ then some a.phase
    else some (a.phase + roundDiv ((a.phase - b.phase) * ((t : Int) - a.at_)) (a.at_ - b.at_))
  | some a, none => some a.phase
  | none, _ => none

/-- The build-out of a target at an update: its phase extrapolated to that update, zero for a time reference (R125, R126); zero where no
sample is stored (log entry 138). -/
def buildOutOf (s : State) (n : Nat) : Int := if 12 ≤ n then 0 else ((s.refRec n).phaseAt s.clk).getD 0

/-- A REF_CTRL value comes into effect (R122, R134). -/
def refCtrlApply (v : Nat) (s : State) : State :=
  let s := s.setWord REF_CTRL (BitVec.ofNat 32 v)
  let s := match s.get REF_CTRL_MODE with
    | 2 => let s := s.put REF_STATUS_FORCE_WAIT 0; if s.dpll = 3 then s else enterHoldover s
    | 3 => enterFreerun (s.put REF_STATUS_FORCE_WAIT 0)
    | _ => refDecide s
  bwRefresh s

/-- A write of REF_CTRL, held back while a switch is in progress (R128): REF_CTRL reads the old value until the commit, and of two writes
the later alone takes effect (DESIGN CHOICE, log entry 154). -/
def refCtrlWrite (v : Nat) (s : State) : State :=
  if s.on REF_STATUS_SWITCHING then { s with sel := { s.sel with ctrlWait := some v } } else refCtrlApply v s

/-- The switch commits (R125, R126, R134), then a write held back acts, then the selector (R127, R128). -/
def switchCommit (s : State) : State :=
  match s.sel.target with
  | none => s
  | some t =>
    let s := { s with sel := { s.sel with target := none, takeUp := false, buildOut := buildOutOf s t } }
    let s := ((s.put REF_STATUS_SWITCHING 0).put REF_STATUS_SELECTED t).put REF_STATUS_SEL_VALID 1
    let s := s.ev REF_EVENT_SWITCH
    let s := if s.dpll = 0 ∨ s.dpll = 3 then dpllSet 1 s else s
    let s := match s.sel.ctrlWait with
      | some v => refCtrlApply v { s with sel := { s.sel with ctrlWait := none } }
      | none => s
    bwRefresh (refDecide s)

/-- DISPUTE_ALARM reads 1 while a dispute stands without a decision (R131). -/
def disputeAlarm (s : State) : State :=
  let open_ := (List.range 16).any (fun n => slotState s n == 3 && !(s.refRec n).against)
  let was := s.on REF_STATUS_DISPUTE_ALARM
  let s := s.putB REF_STATUS_DISPUTE_ALARM open_
  if open_ && !was then raiseMajor 2 s else s

/-- A slot takes a state; one that leaves DISPUTED leaves its pair. -/
def slotSet (n st : Nat) (s : State) : State :=
  let was := slotState s n
  let s := s.put (REF_SLOT_STATE_STATE n) st
  if was = 3 ∧ st ≠ 3 then
    disputeAlarm (s.setRef n { s.refRec n with rival := none, against := false, nearSince := none })
  else s

/-- A slot with every check passed enters its soak from UNQUALIFIED or FAILED (R118). -/
def soakStart (n : Nat) (s : State) : State :=
  let st := slotState s n
  if slotOn s n && checksPass s n && (st == 0 || st == 4) then
    let s := s.setRef n { s.refRec n with
      fromFailed := st == 4, timerEnd := s.clk + 250000000 * s.get (REF_SLOT_SOAK_V n) }
    slotSet n 1 s
  else s

/-- A check of slot `n` fails (R118). -/
def checkFail (n : Nat) (s : State) : State :=
  match slotState s n with
  | 0 => s
  | 4 => s
  | 1 => if (s.refRec n).fromFailed then (slotSet n 4 s).ev REF_EVENT_LOSS else slotSet n 0 s
  | _ => (slotSet n 4 s).ev REF_EVENT_LOSS

/-- The selector decides, on the states as they stand at the end of the cycle, and the bandwidth follows (R123, R133). -/
def selectorDecide (s : State) : State := bwRefresh (refDecide s)

/-- A candidate is gone (R115, R117): its check fails, and what was learned of it is forgotten. -/
def refGone (n : Nat) (s : State) : State :=
  if slotOn s n then
    let s := s.setRef n { s.refRec n with lost := true, freqSeen := false, p1 := none, p2 := none, allan := {} }
    checkFail n (s.put (REF_SLOT_INSTAB_V n) (2 ^ 32 - 1))
  else s

/-- A candidate is declared lost (R115, R117). -/
def refLost (n : Nat) (s : State) : State := if slotOn s n then selectorDecide (refGone n s) else s

/-- EN as it acts went to 0: the slot is UNQUALIFIED and everything learned of it is forgotten (R117, R118). -/
def slotOff (n : Nat) (s : State) : State :=
  let s := slotSet n 0 s
  (s.setRef n {}).put (REF_SLOT_INSTAB_V n) (2 ^ 32 - 1)

/-- The slot acts as enabled, or no longer, after a change of EN or of the pair state. -/
def slotEnFollow (was : Bool) (n : Nat) (s : State) : State :=
  let now := slotOn s n
  if was && !now then slotOff n s
  else if !was && now then soakStart n s
  else s

/-- What a command leaves of the candidates is decided on once, at its end (R123). -/
def selectorFollow (old s : State) : State :=
  if (List.range 16).any (fun n => slotState old n != slotState s n || slotOn old n != slotOn s n) then selectorDecide s else s

/-- A phase hit on slot `n` (R118): the check fails; on the selected reference the second's entry is not VALID (R139). -/
def hitFail (n : Nat) (s : State) : State :=
  let s := if selectedSlot s = some n then { s with sel := { s.sel with secBad := true } } else s
  checkFail n (s.setRef n { s.refRec n with p1 := none, p2 := none })

/-- A phase hit found by a sample. -/
def phaseHit (n : Nat) (s : State) : State := selectorDecide (hitFail n s)

/-- A phase sample, tested against the value extrapolated from the previous two (R117, R118, log entry 138); a slot that nothing feeds
is lost (R115). -/
def phaseSample (n : Nat) (p : Int) (s : State) : State :=
  if !slotOn s n then s
  else if !slotFed s n then refLost n s
  else
  let r := s.refRec n
  let s := s.setRef n { r with lost := false }
  let hit : Bool := r.p2.isSome && (match r.phaseAt s.clk with
    | some x => decide (s.get (REF_SLOT_HIT_V n) < (p - x).natAbs)
    | none => false)
  if hit && decide (n < 12) then phaseHit n s
  else
    let s := s.setRef n { s.refRec n with p1 := some ⟨p, s.clk⟩, p2 := r.p1 }
    bwRefresh (refDecide (soakStart n s))

/-- The DDMTD channel of a recovered clock: that of the lane LN_RCSm_CFG.LANE names (R291). -/
def slotChannel (s : State) (n : Nat) : Nat := s.get (LN_RCS_CFG_LANE (n - 8))

/-- What arrives as a phase sample of slot `n`: the slots of the recovered clocks take that of their channel, while its newest sample is
valid (R291); the others their own. -/
def slotPhase (n : Nat) (p : Int) (s : State) : State :=
  if 8 ≤ n ∧ n < 12 then
    let c := slotChannel s n
    if s.on (PHA_CH_SAMPLE_VALID c) then phaseSample n (s.geti (PHA_CH_UNWRAP_V c)) s else s
  else phaseSample n p s

/-- The difference of two candidates' measured frequencies. -/
def freqDiff (s : State) (a b : Nat) : Nat := (s.geti (REF_SLOT_FREQ_V a) - s.geti (REF_SLOT_FREQ_V b)).natAbs

/-- The arbitration of a disputed pair (R130). -/
def arbitrate (a b : Nat) (s : State) : State :=
  match bestSlot s (fun n => n ≠ a && n ≠ b) with
  | none => s
  | some r =>
    let lim := s.get REF_DISAGREE_DISAGREE
    let okA := decide (freqDiff s a r ≤ lim)
    let okB := decide (freqDiff s b r ≤ lim)
    if okA && !okB then slotSet a 2 (s.setRef b { s.refRec b with against := true })
    else if okB && !okA then slotSet b 2 (s.setRef a { s.refRec a with against := true })
    else s

/-- Slot `n` is tested against the other QUALIFIED candidates of its priority, in ascending order; the first that disagrees
makes the pair DISPUTED (R129). -/
def disputeTest (n : Nat) (s : State) : State :=
  if slotOn s n && slotState s n == 2 then
    match (List.range 16).find? (fun m => m ≠ n && slotOn s m && slotState s m == 2 &&
        s.get (REF_SLOT_CFG_PRIO m) == s.get (REF_SLOT_CFG_PRIO n) &&
        decide (s.get REF_DISAGREE_DISAGREE < freqDiff s n m)) with
    | some m =>
      let s := slotSet m 3 (slotSet n 3 s)
      let s := s.setRef n { s.refRec n with rival := some m, against := false, nearSince := none }
      let s := s.setRef m { s.refRec m with rival := some n, against := false, nearSince := none }
      arbitrate n m (s.ev REF_EVENT_DISPUTE)
    | none => s
  else s

/-- Since when a DISPUTED slot lies near the other of its pair (R130). -/
def nearMark (k : Nat) (s : State) : State :=
  let r := s.refRec k
  match slotState s k, r.rival with
  | 3, some m =>
    let near := decide (freqDiff s k m ≤ s.get REF_DISAGREE_DISAGREE)
    s.setRef k { r with
      nearSince := if near then (match r.nearSince with | some t => some t | none => some s.clk) else none }
  | _, _ => s

/-- At a gate of slot `n` the difference is followed of every DISPUTED slot whose pair it belongs to, and an open pair is arbitrated
again (R130). -/
def disputeFollow (n : Nat) (s : State) : State :=
  let s := forEach ((List.range 16).filter (fun k => k == n || (s.refRec k).rival == some n)) nearMark s
  match slotState s n, (s.refRec n).rival with
  | 3, some m =>
    if slotState s m = 3 && !(s.refRec n).against && !(s.refRec m).against then arbitrate n m s else s
  | _, _ => s

/-- A frequency gate of slot `n` ends (R117, R118, R129): the check that a changed FWIN meets (log entry 138); a slot that nothing feeds
is lost (R115). -/
def freqGate (n : Nat) (f : Int) (s : State) : State :=
  if !slotOn s n then s
  else if !slotFed s n then refLost n s
  else
  let s := s.setRef n { s.refRec n with lost := false, freqSeen := true }
  let s := s.puti (REF_SLOT_FREQ_V n) (clampI (-(2 ^ 31)) (2 ^ 31 - 1) f)
  let s := if checksPass s n then soakStart n s else checkFail n s
  bwRefresh (refDecide (disputeAlarm (disputeFollow n (disputeTest n s))))

/-- The soak of slot `n` ends with every check passed (R118, R119), or the time near its rival does (R130). -/
def soakExpire (n : Nat) (s : State) : State :=
  let r := s.refRec n
  let s := match slotState s n with
    | 1 =>
      if r.wasQual && s.get REF_WTR_WTR ≠ 0 then
        slotSet n 5 (s.setRef n { r with timerEnd := s.clk + 250000000 * s.get REF_WTR_WTR })
      else slotSet n 2 (s.setRef n { r with wasQual := true })
    | 3 => if r.nearSince.isSome then slotSet n 2 s else s
    | _ => s
  bwRefresh (refDecide s)

/-- REF_WTR ends with every check passed (R118). -/
def wtrExpire (n : Nat) (s : State) : State :=
  if slotState s n = 5 then bwRefresh (refDecide (slotSet n 2 (s.setRef n { s.refRec n with wasQual := true }))) else s

/-- Seconds left in SOAKING or WAIT_TO_RESTORE, rounded up: R160 names no rounding (DESIGN CHOICE, log entry 156). -/
def slotRemain (s : State) (n : Nat) : Nat :=
  if slotState s n = 1 ∨ slotState s n = 5 then ((s.refRec n).timerEnd - s.clk + 249999999) / 250000000 else 0

/-! ### Instability (R117, R150) -/

/-- A new 16 s mean: from the third on, each gives a term d^2, the mean of the terms up to seven, then a 64-term memory. -/
def Allan.add (a : Allan) (x : Int) : Allan :=
  match a.x1, a.x2 with
  | some y, some z =>
    let d := x - 2 * y + z
    let q := (d * d).toNat
    let t := a.terms + 1
    if t < 8 then { a with x1 := some x, x2 := some y, num := a.num + q, den := t, terms := t }
    else { a with x1 := some x, x2 := some y, num := 63 * a.num + q * a.den, den := 64 * a.den, terms := t }
  | _, _ => { a with x1 := some x, x2 := a.x1 }

/-- The integer square root, by the digits of a binary search of `fuel` bits. -/
def isqrtGo (v : Nat) : Nat → Nat → Nat
  | 0, r => r
  | k + 1, r => let c := r + 2 ^ k; if c * c ≤ v then isqrtGo v k c else isqrtGo v k r

/-- The integer square root. -/
def isqrt (v : Nat) : Nat := isqrtGo v (Nat.log2 v / 2 + 1) 0

/-- The square root of `num / den` to the nearest integer (R9). -/
def sqrtRound (num den : Nat) : Nat :=
  let r := isqrt (4 * num / den)
  if r % 4 = 1 ∧ r * r * den = 4 * num then r / 2 else (r + 1) / 2

/-- Sigma in units of 10^-15: the estimate is num / (512 den) in SNS64 squared per s squared (R117). -/
def Allan.sigma (a : Allan) : Nat :=
  min (2 ^ 32 - 1) (sqrtRound (a.num * 10 ^ 12) (a.den * 512 * 2 ^ 32))

/-- The estimator of slot `n` takes the mean offset (SNS64) of 16 s (R117). -/
def instabUpdate (n : Nat) (mean : Int) (s : State) : State :=
  if !slotOn s n then s else
  let a := (s.refRec n).allan.add mean
  let s := s.setRef n { s.refRec n with allan := a }
  if a.terms = 0 then s else bwRefresh (refDecide (s.put (REF_SLOT_INSTAB_V n) a.sigma))

/-! ### The DPLL's updates (R132 to R134) -/

/-- A whole DCO unit in the units of the loop integrator: 2^-70 / 8000 of one, in which the integral gain of R132's damping, half the
square of the proportional gain, is a whole number per pu and update of 1 µs (R7, R8). -/
def integUnit : Nat := 8000 * 2 ^ 70

/-- The proportional gain at a bandwidth code: at a fixed damping a type-2 loop's is in proportion to its bandwidth; the factor, one for
the whole table, is free (R132, log entry 139). -/
def dpllGain (code : Nat) : Nat := bandwidths.getD code 0 * (1 + Config.dpllScale)

/-- The type-2 loop of R132 takes a phase error, in pu: the integrator moves by the integral gain, and the value applied is the
integrator with the proportional term.  A damping of 0.707 makes the integral gain half the square of the proportional gain; both
follow the bandwidth in use. -/
def dpllLoop (err : Int) (s : State) : State :=
  let g := dpllGain (s.get DPLL_STATUS_BW_APPLIED)
  let i := s.sel.integ + (g * g : Nat) * err
  dcoSet (roundDiv (i + (g : Nat) * err * (10 ^ 6 * 2 ^ 33)) integUnit) { s with sel := { s.sel with integ := i, seedOn := false } }

/-- The integrator is preset to the applied value (R138). -/
def dpllPreset (s : State) : State := { s with sel := { s.sel with integ := s.widei DCO_OFFSET * integUnit } }

/-- The phase error at an update: the selected reference's phase less the build-out; a recovered clock's phase is that of its channel
(R291), and what a time reference gives is free (R31, R132). -/
def dpllError (sample : Int) (s : State) : Int × State :=
  let n := s.get REF_STATUS_SELECTED
  if n < 8 then (sample - s.sel.buildOut, s)
  else if n < 12 then (s.geti (PHA_CH_UNWRAP_V (slotChannel s n)) - s.sel.buildOut, s)
  else
    let f := s.fresh
    (Config.dpllPhaseError f.1, f.2)

/-- A tracked reference is taken up with a build-out at the first update after a hand-back (R138). -/
def dpllTakeUp (s : State) : State :=
  if s.sel.takeUp then
    { s with sel := { s.sel with takeUp := false, buildOut := buildOutOf s (s.get REF_STATUS_SELECTED) } }
  else s

/-- What the DPLL applies in FREERUN and HOLDOVER, its integrator following it (log entry 139). -/
def dpllFree (s : State) : State :=
  let v := freeValue s
  let s := dpllPreset (dcoSet v.1 s)
  let s := if v.2 && !s.sel.seedOn then s.ev REF_EVENT_SEED_USED else s
  { s with sel := { s.sel with seedOn := v.2 } }

/-- A DPLL update (R132): the phase error of the selected reference is tested, and the value of the state is applied while
the DPLL owns DCO_OFFSET; a switch in progress holds it (R125). -/
def dpllUpdate (sample : Int) (s : State) : State :=
  let hold := s.on REF_STATUS_SWITCHING || !s.dpllOwns
  if s.dpll = 1 ∨ s.dpll = 2 then
    let e := dpllError sample (dpllTakeUp s)
    let s := e.2.puti DPLL_PHASE_ERR_V (clampI (-(2 ^ 31)) (2 ^ 31 - 1) e.1)
    let s := if s.dpll = 2 ∧ 4 * s.get DPLL_LOCK_PE < e.1.natAbs then bwRefresh (dpllSet 1 s) else s
    if hold then s else dpllLoop e.1 s
  else if hold then s
  else dpllFree s

/-- The lock time ends with the phase error within PE throughout (R134). -/
def dpllLocked (s : State) : State :=
  if s.dpll = 1 ∧ (s.geti DPLL_PHASE_ERR_V).natAbs ≤ s.get DPLL_LOCK_PE then bwRefresh (dpllSet 2 s) else s

/-- DCO_CTRL.OWNER changes (R138): back to the DPLL, the integrator is preset and a tracked reference is taken up with a build-out at the
next update. -/
def ownerChange (v : Nat) (s : State) : State :=
  let was := s.get DCO_CTRL_OWNER
  let s := s.put DCO_CTRL_OWNER v
  if was = 1 ∧ v = 0 then
    let s := dpllPreset s
    secCheck { s with sel := { s.sel with seedOn := false, takeUp := s.on REF_STATUS_SEL_VALID && (s.dpll == 1 || s.dpll == 2) } }
  else s

end Sys2Proof.Machine
end

