-- ==== Sys2Proof/Machine/TimeBase.lean ====
section
/-!
DEFINITION. The time base (R169 to R189, R198): states, confirmed offsets, steps and loads with their permission and their order,
snapshots, and the time-of-day messages.
-/

namespace Sys2Proof.Machine

/-- The time base's state: 0 INVALID, 1 COARSE, 2 FINE, 3 HOLDOVER (R199). -/
def State.tbState (s : State) : Nat := s.get TB_STATUS_STATE

/-- TB_INCR, in 2^-40 ns (4 ns is 2^42). -/
def State.incr (s : State) : Nat := s.wide TB_INCR % 2 ^ 48

/-- Nanoseconds in 2^-40 ns. -/
def ns40 (n : Nat) : Nat := n * 2 ^ 40

/-- What every applied step and every entry to INVALID records (R183). -/
def tbRecord (cause : Nat) (size : Int) (s : State) : State :=
  let s := (s.count TB_EPOCH_V).put TB_STATUS_DISCONT 1
  let s := (s.putWide TB_LAST_TIME (tb96Of s.tb.count)).putWide TB_LAST_SIZE (snsOf size)
  s.put TB_LAST_CAUSE_V cause

/-- Every session's outlier run and accepted offset are forgotten (R349, R365, R368). -/
def sessForget (s : State) : State :=
  let s := forEach (List.range 4) (fun d s => s.putWide (FM_DOM_LAST d) 0) s
  forEach (s.sess.map (fun e => e.1)) (fun k s =>
    (s.setSess k { s.sessRec k with run := [], acc := none }).putWide (FM_SESS_OFFSET k) 0) s

/-- Entry to INVALID from another state (R175, R182, R183); while INVALID nothing happens. -/
def tbEnterInvalid (cause : Nat) (s : State) : State :=
  if s.tbState = 0 then s else
  let s := { s with tb := { s.tb with
    ferryStep := none, hostStep := none, load := none, todin := none, actSteps := [], fineCount := 0, autoDue := true } }
  let s := stepPendingBit ((s.put TB_STATUS_STATE 0).ev TB_EVENT_INVALID)
  xcRefreshAll (gateRefreshAll (ppsInvalid (sessForget (tbRecord cause 0 s))))

/-- What follows from leaving INVALID (R105, R147, R429, R468). -/
def tbLeft (s : State) : State := xcRefreshAll (gateRefreshAll (seedAge (ppsLeftInvalid s)))

/-- Entry to COARSE; the count toward FINE restarts (R175). -/
def tbEnterCoarse (s : State) : State :=
  let was := s.tbState
  let s := { s.put TB_STATUS_STATE 1 with tb := { s.tb with fineCount := 0 } }
  if was = 0 then tbLeft s else s

/-- Entry to FINE: WAS_FINE stays set from here (R175), and the outputs of AUTO_REALIGN follow once per INVALID (R106). -/
def tbEnterFine (s : State) : State :=
  let s := (s.put TB_STATUS_STATE 2).put TB_STATUS_WAS_FINE 1
  let s := if s.tb.autoDue then ppsAuto s else s
  { s with tb := { s.tb with autoDue := false, fineCount := 0 } }

/-- The mean of TB_INCR over the ticks held, rounded under R9 (R176); the value in force where none has run. -/
def holdMean (s : State) : Nat :=
  let n : Nat := s.tb.runs.foldl (fun n r => n + r.2) 0
  let t : Nat := s.tb.runs.foldl (fun n r => n + r.1 * r.2) 0
  if n = 0 then s.incr else (roundDiv t n).toNat

/-- The ticks the mean of R176 covers. -/
def holdSpan : Nat := 4000000000

/-- Runs of (TB_INCR, ticks), newest first, cut to the last `n` ticks. -/
def cutRuns : Nat → List (Nat × Nat) → List (Nat × Nat)
  | _, [] => []
  | n, (i, k) :: t => if n = 0 then [] else if k < n then (i, k) :: cutRuns (n - k) t else [(i, n)]

/-- One tick in which the counter added `inc` (R176). -/
def addRun (inc : Nat) : List (Nat × Nat) → List (Nat × Nat)
  | [] => [(inc, 1)]
  | (i, k) :: t => cutRuns holdSpan (if i = inc then (i, k + 1) :: t else (inc, 1) :: (i, k) :: t)

/-- Entry to HOLDOVER; with the Ferryman as effective owner TB_INCR takes the mean (R176). -/
def tbEnterHoldover (s : State) : State :=
  let s := { s.put TB_STATUS_STATE 3 with tb := { s.tb with fineCount := 0 } }
  if s.hostOwns then s
  else
    let m := holdMean s
    ((s.putWide TB_HOLD_INCR m).putWide TB_INCR m).put TB_STATUS_SLEW_CLAMP 0

/-! ### The steering source (R30, R198) -/

/-- The steering source is void (R198). -/
def srcVoid (s : State) : Bool :=
  let d := s.get TB_CTRL_STEER_SRC
  !s.on FM_CTRL_EN ||
    (if d < 4 then !s.on (FM_DOM_CFG_EN d) || decide (2 ≤ s.get (FM_DOM_CFG_ROLE d)) else !s.on REF_ENS_CTRL_EN)

/-- The steering source's time reference became invalid (R175): FINE goes to HOLDOVER under the Ferryman. -/
def tbSrcLost (s : State) : State :=
  if s.tbState = 2 && !s.hostOwns then tbEnterHoldover s else s

/-- SRC_VOID follows the configuration (R198); FINE moves to HOLDOVER as a source becomes void or invalid, and not as the owner or
STEER_SRC moves to one that is so already (DESIGN CHOICE, log entry 161). -/
def srcVoidRefresh (s : State) : State :=
  let v := srcVoid s
  let was := s.on TB_STATUS_SRC_VOID
  let s := s.putB TB_STATUS_SRC_VOID v
  if v && !was then tbSrcLost (if s.running then s.ev TB_EVENT_SRC_VOID else s) else s

/-! ### TB_INCR (R171, R172) -/

/-- round(SLEW_MAX x 10^-6 x 2^42) (R171). -/
def slewLimit (s : State) : Int := roundDiv ((s.get TB_POLICY_SLEW_MAX : Int) * 2 ^ 42) 1000000

/-- A TB_INCR value the Ferryman writes, clamped (R171); none is written in HOLDOVER (R176). -/
def ferrymanIncr (v : Int) (s : State) : State :=
  if s.hostOwns || s.tbState = 3 then s
  else
    let c := clampI (2 ^ 42 - slewLimit s) (2 ^ 42 + slewLimit s) v
    (s.putWide TB_INCR c.toNat).putB TB_STATUS_SLEW_CLAMP (decide (c ≠ v))

/-- The values of TB_INCR a host may write: 4 ns within 1000 ppm (R171). -/
def hostIncrOk (v : Nat) : Bool := decide (0x03FEF9DB22D1 ≤ v) && decide (v ≤ 0x04010624DD2F)

/-! ### Steps and loads (R178 to R183) -/

/-- A step of `e` is permitted in direction: forward, or backward by policy or before the first FINE (R178). -/
def stepPermitted (s : State) (e : Int) : Bool :=
  decide (0 ≤ e) || s.on TB_POLICY_ALLOW_BACKWARD_STEP || !s.on TB_STATUS_WAS_FINE

/-- A step's result lies in the counter's range (R179). -/
def stepInRange (c : Nat) (e : Int) : Bool := decide (0 ≤ (c : Int) + e) && decide ((c : Int) + e < span40)

/-- The step request of a confirmed offset beyond the threshold; a new one replaces one still pending (R178). -/
def ferryStepRequest (e : Int) (s : State) : State :=
  stepPendingBit { s with tb := { s.tb with ferryStep := some e } }

/-- A confirmed offset `e` (2^-16 ns) of the steering source (R175, R178); the Boolean says that the servo slews on it. -/
def tbOffset (e : Int) (s : State) : Bool × State :=
  if s.hostOwns then (false, s) else
  let inFine := decide (e.natAbs ≤ s.get TB_FINE_THRESH * 2 ^ 16)
  let inStep := decide (e.natAbs ≤ s.get TB_STEP_THRESH_V * 2 ^ 16)
  let s :=
    match s.tbState with
    | 0 => if inStep then tbEnterCoarse s else s
    | 1 | 3 =>
      if inFine then
        let n := s.tb.fineCount + 1
        if s.get TB_FINE_COUNT ≤ n then tbEnterFine s else { s with tb := { s.tb with fineCount := n } }
      else if s.tbState = 3 then tbEnterCoarse s
      else { s with tb := { s.tb with fineCount := 0 } }
    | _ => s
  if inStep then (true, s)
  else if stepPermitted s e then (false, ferryStepRequest (e * 2 ^ 24) s)
  else (true, s.ev TB_EVENT_BACK_SLEW)

/-- A host step is requested (R180). -/
def tbStepGo (s : State) : State :=
  let e := sns40 (s.widei TB_STEP)
  if s.hostOwns && s.tbState != 0 && stepPermitted s e then
    stepPendingBit { s with tb := { s.tb with hostStep := some e } }
  else s.ev TB_EVENT_STEP_REJ

/-- A load is requested (R180); its permission is judged against the present counter, and again when it applies. -/
def tbLoadGo (s : State) : State :=
  let t := tb96Time (s.wide TB_LOAD)
  if s.tbState = 0 && stepPermitted s ((t : Int) - s.tb.count) then
    stepPendingBit { s with tb := { s.tb with load := some t } }
  else s.ev TB_EVENT_STEP_REJ

/-- A pending step that falls due: its size, and its TB_LAST_CAUSE code (R201). -/
structure DueStep where
  e : Int
  cause : Nat
  act : Nat := 0

/-- The steps that fall due at the tick where counting gives `c` from `p`, in the order of R181. -/
def dueSteps (s : State) (p c : Nat) : List DueStep :=
  let second := decide (p / sec40 ≠ c / sec40)
  s.tb.actSteps.map (fun a => ⟨a.1, 3, a.2⟩) ++
  (match s.tb.load with | some t => [⟨(t : Int) - c, 4, 0⟩] | none => []) ++
  (match s.tb.todin with | some e => [⟨e, 5, 0⟩] | none => []) ++
  (match s.tb.hostStep with | some e => if second then [⟨e, 2, 0⟩] else [] | none => []) ++
  (match s.tb.ferryStep with | some e => if second then [⟨e, 1, 0⟩] else [] | none => [])

/-- A step that is not accepted or not permitted at its tick is rejected, or dropped where it is the Ferryman's (R178 to R180). -/
def stepRefuse (d : DueStep) (s : State) : State :=
  if d.cause = 1 then s.ev TB_EVENT_BACK_SLEW
  else
    let s := s.ev TB_EVENT_STEP_REJ
    if d.cause = 3 then s.put (SCH_ACT_STATUS_RESULT d.act) 5
    else if d.cause = 5 then s.putWide TB_TOD_IN_DIFF (snsOf d.e)
    else s

/-- A step that loses against another of its tick (R181). -/
def stepLose (d : DueStep) (s : State) : State :=
  let s := s.ev TB_EVENT_STEP_COLLIDE
  if d.cause = 3 then s.put (SCH_ACT_STATUS_RESULT d.act) 6 else s

/-- A step applies: the counter and the shadow take `c + e` (R179), and what R103, R183 and R349 make follow. -/
def stepApply (c : Nat) (d : DueStep) (s : State) : State :=
  let t := ((c : Int) + d.e).toNat
  let s := { s with tb := { s.tb with count := t, shadow := t } }
  let s := (tbRecord d.cause d.e s).ev TB_EVENT_STEP
  let s := forEach (List.range 4) (fun k s =>
    s.setDom k { s.domRec k with gain := (s.domRec k).gain + d.e * 10 ^ 18 }) s
  let s := gateRefreshAll (ppsStepped t s.incr s)
  tbEnterCoarse s

/-- The steps due at one tick (R181): those refused are taken out, the first of the rest applies, the others lose; without one
the counter takes `c`. -/
def stepPhase (p c : Nat) (s : State) : State :=
  let due := dueSteps s p c
  let second := decide (p / sec40 ≠ c / sec40)
  let s := { s with tb := { s.tb with
    actSteps := [], load := none, todin := none,
    hostStep := if second then none else s.tb.hostStep,
    ferryStep := if second then none else s.tb.ferryStep } }
  let ok := fun (d : DueStep) => stepInRange c d.e && stepPermitted s d.e && (d.cause != 3 || s.hostOwns)
  let s := forEach (due.filter (fun d => !ok d)) (fun d s =>
    if stepInRange c d.e then stepRefuse d s
    else if d.cause = 1 then s.ev TB_EVENT_STEP_REJ else stepRefuse d s) s
  match due.filter ok with
  | [] => stepPendingBit { s with tb := { s.tb with count := c, shadow := c } }
  | d :: l => stepPendingBit (stepApply c d (forEach l stepLose s))

/-- Whether a step falls due at the upcoming tick. -/
def stepDue (s : State) : Bool :=
  let p := s.tb.count
  !(dueSteps s p ((p + s.incr) % span40)).isEmpty

/-- The host sets the time base's state (R175, R177). -/
def tbHostState (v : Nat) (s : State) : State :=
  match v with
  | 1 => tbEnterCoarse s
  | 2 => tbEnterFine s
  | _ => tbEnterHoldover s

/-- The shadow counter differs from the counter (R174). -/
def shadowMismatch (s : State) : State := tbEnterInvalid 9 (raiseMajor 1 (s.ev TB_EVENT_DIVERGE))

/-! ### Snapshots (R184, R185, R202) -/

/-- Snapshot `m` takes a time, the epoch and the state; OVERRUN where the previous one has not been read. -/
def snapTake (m t : Nat) (s : State) : State :=
  let had := s.on ⟨(TB_SNAP m).word 3, 24, 1⟩
  let v := tb96Of t + 2 ^ 96 * (s.get TB_EPOCH_V % 2 ^ 16) + 2 ^ 112 * s.tbState + 2 ^ 120 +
    (if had then 2 ^ 121 else 0)
  s.putWide (TB_SNAP m) v

/-- PPSIN `n` captures this edge (R184, R202). -/
def ppsinOn (s : State) (n : Nat) (falling : Bool) : Bool :=
  if n = 0 then s.on TB_SNAP_CTRL_PPSIN0_EN && s.on TB_SNAP_CTRL_PPSIN0_FALL == falling
  else s.on TB_SNAP_CTRL_PPSIN1_EN && s.on TB_SNAP_CTRL_PPSIN1_FALL == falling

/-- The time base at the start of CLK_FAB cycle `k` of this tick, 0.8 ns each, plus 0.4 ns (R33, R185), rounded under R9. -/
def ppsinTime (s : State) (k : Nat) : Nat := (s.tb.count + (roundDiv (2 ^ 40 * (8 * k + 4) : Nat) 10).toNat) % span40

/-! ### Time of day (R186 to R189) -/

/-- An upper-case hex digit (R187). -/
def hexDigit (v : Nat) : Byte := BitVec.ofNat 8 (if v < 10 then 48 + v else 55 + v)

/-- `n` upper-case hex digits, the highest first. -/
def hexDigits : Nat → Nat → List Byte
  | 0, _ => []
  | n + 1, v => hexDigits n (v / 16) ++ [hexDigit (v % 16)]

/-- A decimal digit. -/
def decDigit (v : Nat) : Byte := BitVec.ofNat 8 (48 + v % 10)

/-- The XOR of a list of bytes. -/
def xorBytes (l : List Byte) : Byte := l.foldl (fun a b => a ^^^ b) 0

/-- The letters of the states: I, C, F, H (R187). -/
def stateLetter (st : Nat) : Byte := if st = 0 then 73 else if st = 1 then 67 else if st = 2 then 70 else 72

/-- The 37 bytes of a time-of-day message (R187); of an offset beyond three digits the last three are sent (DESIGN CHOICE, log entry 158). -/
def todMessage (s : State) (n sec : Nat) : List Byte :=
  let off := s.geti TB_TOD_UTC_UTC_OFFSET
  let a := off.natAbs % 1000
  let flags := s.get TB_TOD_UTC_LEAP61 + 2 * s.get TB_TOD_UTC_LEAP59 +
    (if s.bit PPS_STATUS_MISALIGNED n then 4 else 0) + 8 * s.get TB_TOD_UTC_VALID
  let body : List Byte := [75, 84, 68, 44] ++ hexDigits 12 (sec % 2 ^ 48) ++ [44] ++
    [if off < 0 then 45 else 43, decDigit (a / 100), decDigit (a / 10), decDigit a] ++ [44] ++
    [stateLetter s.tbState] ++ [44] ++ hexDigits 4 (s.get TB_EPOCH_V % 2 ^ 16) ++ [44] ++ hexDigits 2 flags
  [36] ++ body ++ [42] ++ hexDigits 2 (xorBytes body).toNat ++ [13, 10]

/-- The value of an upper-case hex digit. -/
def hexVal (b : Byte) : Option Nat :=
  let v := b.toNat
  if 48 ≤ v ∧ v ≤ 57 then some (v - 48) else if 65 ≤ v ∧ v ≤ 70 then some (v - 55) else none

/-- A run of upper-case hex digits as a number. -/
def hexNum : List Byte → Nat → Option Nat
  | [], acc => some acc
  | b :: t, acc => match hexVal b with
    | some d => hexNum t (16 * acc + d)
    | none => none

/-- All bytes are decimal digits. -/
def allDec (l : List Byte) : Bool := l.all (fun b => decide (48 ≤ b.toNat) && decide (b.toNat ≤ 57))

/-- SECONDS of a message with a correct format and checksum (R187, R189). -/
def todParse (l : List Byte) : Option Nat :=
  let at_ := fun k => byteAt l k
  let flags := hexNum ((l.drop 30).take 2) 0
  let ok := l.length == 37 && l.take 5 == [36, 75, 84, 68, 44] && at_ 17 == 44 &&
    (at_ 18 == 43 || at_ 18 == 45) && allDec ((l.drop 19).take 3) && at_ 22 == 44 &&
    [73, 67, 70, 72].contains (at_ 23) && at_ 24 == 44 && (hexNum ((l.drop 25).take 4) 0).isSome && at_ 29 == 44 &&
    (match flags with | some f => decide (f < 16) | none => false) && at_ 32 == 42 &&
    hexNum ((l.drop 33).take 2) 0 == some (xorBytes ((l.drop 1).take 31)).toNat && at_ 35 == 13 && at_ 36 == 10
  if ok then hexNum ((l.drop 5).take 12) 0 else none

/-- A message is discarded: BAD counts, TOD_ERR is set (R189). -/
def todBad (s : State) : State := (s.countSat TB_TOD_IN_STATUS_BAD).ev TB_EVENT_TOD_ERR

/-- A message arrives on TODIN (R189), and waits for its edge beside those that wait for theirs, the oldest first. -/
def todIn (l : List Byte) (s : State) : State :=
  if !s.on TB_TOD_CFG_IN_EN then s else
  match todParse l with
  | none => todBad s
  | some sec => { s with tb := { s.tb with tod := s.tb.tod ++ [sec] } }

/-- The edge of the message that waits longest, in CLK_FAB cycle `k` (R189): a load where R180 accepts it, else TB_TOD_IN_DIFF.  The
message counts in GOOD now, once it has found its edge (DESIGN CHOICE, log entry 162). -/
def todEdge (k : Nat) (s : State) : State :=
  match s.tb.tod with
  | [] => s
  | m :: rest =>
    let s := { s with tb := { s.tb with tod := rest } }
    let s := s.count TB_TOD_IN_STATUS_GOOD
    let e := (m * sec40 : Nat) - (ppsinTime s k : Int)
    let load := s.tbState = 0 && s.on TB_TOD_CFG_IN_LOAD
    if load && stepPermitted s e then stepPendingBit { s with tb := { s.tb with todin := some e } }
    else (if load then s.ev TB_EVENT_STEP_REJ else s).putWide TB_TOD_IN_DIFF (snsOf e)

/-- No edge came in the interval of the message that waits longest (R189). -/
def todTimeout (s : State) : State :=
  match s.tb.tod with
  | [] => s
  | _ :: rest => todBad { s with tb := { s.tb with tod := rest } }

/-- An edge on PPSIN `n`, sampled in CLK_FAB cycle `k` of the tick (R184, R185, R202). -/
def ppsinEdge (n : Nat) (falling : Bool) (k : Nat) (s : State) : State :=
  if ppsinOn s n falling then snapTake (n + 1) (ppsinTime s k) s else s

/-- A rising edge on PPSIN `n`, the first in a message's interval, in CLK_FAB cycle `k` (R189); one edge that is the first of two messages'
intervals comes once for each.  IN_SEL counts as it stands at the edge, and IN_EN at the message alone (DESIGN CHOICE, log entry 160). -/
def todinEdge (n : Nat) (falling : Bool) (k : Nat) (s : State) : State :=
  if !falling && n == s.get TB_TOD_CFG_IN_SEL then todEdge k s else s

/-- TODOUT starts a message (R188): the output named is enabled in PPS mode and has given an edge. -/
def todSend (s : State) : State :=
  let n := s.get TB_TOD_CFG_OUT_SRC
  let p := s.ppsRec n
  if s.on TB_TOD_CFG_OUT_EN && s.on (PPS_OUT_CFG_EN n) && p.mode == 0 && p.gave then
    s.send (.tod (todMessage s n (p.edgeSec + 1)))
  else s

end Sys2Proof.Machine
end

