-- ==== Sys2Proof/Machine/Servo.lean ====
section
/-!
DEFINITION. The Ferryman's servos (R349, R351 to R354): the steering source's on TB_INCR, each other domain's on its DOM_OFFSET,
the ticks of the domains' times, and the change of STEER_SRC.  Times are in 2^-16 ns; the integrator is in 4 x 10^-18 x 2^-40,
DOM_OFFSET, gain and rate in 4 ns x 2^-42 x 10^-18.
-/

namespace Sys2Proof.Machine

/-- One 2^-16 ns in the unit of DOM_OFFSET. -/
def domUnit : Nat := 2 ^ 24 * 10 ^ 18

/-- DOM_OFFSET of domain `d` as SNS64 (R9). -/
def doffSns (s : State) (d : Nat) : Int := roundDiv (s.domRec d).doff domUnit

/-- FM_DOM_INTEG follows the integrator (R365). -/
def integShow (d : Nat) (s : State) : State :=
  s.puti (FM_DOM_INTEG_V d) (roundDiv ((s.domRec d).integ * 16) (10 ^ 18))

/-- The steering source: a domain, or 4 for the ensemble. -/
def State.steerSrc (s : State) : Nat := s.get TB_CTRL_STEER_SRC

/-- KP and KI of domain `d`; the ensemble's are free (R352). -/
def servoGains (s : State) (d : Nat) : Nat × Nat :=
  if d < 4 then (s.get (FM_DOM_SERVO_KP d), s.get (FM_DOM_SERVO_KI d))
  else (Config.ensembleKp 0, Config.ensembleKi 0)

/-- y of R352 in the unit of DOM_OFFSET, for an error `e` and an integrator. -/
def servoY (kp : Nat) (e integ : Int) : Int := kp * e * 2 ^ 10 * 10 ^ 9 + integ * 16

/-- The steering servo on an accepted offset `o` (R352), `ts` ticks after the previous one. -/
def steerServo (d : Nat) (o : Int) (ts : Nat) (s : State) : State :=
  let e := -o
  let r := tbOffset e s
  let s := r.2
  if r.1 && s.tbState != 3 then
    let g := servoGains s d
    let m := s.domRec d
    let integ := if s.on TB_STATUS_SLEW_CLAMP then m.integ else m.integ + g.2 * e * ts
    let s := s.setDom d { m with integ := integ }
    let s := if d < 4 then integShow d s else s
    ferrymanIncr (2 ^ 42 + roundDiv (servoY g.1 e integ) (10 ^ 18)) s
  else s

/-- The bound of a domain's rate: SLEW_MAX (R353). -/
def domRateMax (s : State) : Int := (s.get TB_POLICY_SLEW_MAX : Int) * 2 ^ 42 * 10 ^ 12

/-- Loss of the time reference of a domain that does not steer: SYNCED is cleared, DOM_OFFSET goes on at the rate I (R353). -/
def domLost (d : Nat) (s : State) : State :=
  let m := s.domRec d
  (s.setDom d { m with synced := 0, rate := clampI (-(domRateMax s)) (domRateMax s) (m.integ * 16) }).put (FM_DOM_STATUS_SYNCED d) 0

/-- The permission of R178 for a step of a domain's time by `e`, WAS_SYNCED in place of WAS_FINE (R353). -/
def domMayStep (s : State) (d : Nat) (e : Int) : Bool :=
  decide (0 ≤ e) || s.on TB_POLICY_ALLOW_BACKWARD_STEP || !s.on (FM_DOM_STATUS_WAS_SYNCED d)

/-- The servo of a domain that does not steer, on an accepted offset (R353). -/
def domServo (d : Nat) (o : Int) (ts : Nat) (s : State) : State :=
  let e := -o
  let m := s.domRec d
  let n := if o.natAbs ≤ s.get TB_FINE_THRESH * 2 ^ 16 then m.synced + 1 else 0
  let s := s.setDom d { m with synced := n }
  let s := if n ≠ 0 ∧ s.get TB_FINE_COUNT ≤ n then (s.put (FM_DOM_STATUS_SYNCED d) 1).put (FM_DOM_STATUS_WAS_SYNCED d) 1 else s
  let far : Bool := decide (s.get TB_STEP_THRESH_V * 2 ^ 16 < e.natAbs)
  if far && domMayStep s d e then
    s.setDom d { s.domRec d with step := some (e * 2 ^ 24) }
  else
    let s := if far then s.ev TB_EVENT_BACK_SLEW else s
    let g := servoGains s d
    let m := s.domRec d
    let lim := domRateMax s
    let integ := if (m.rate.natAbs : Int) = lim then m.integ else m.integ + g.2 * e * ts
    integShow d (s.setDom d { m with integ := integ, rate := clampI (-lim) lim (servoY g.1 e integ) })

/-- The servo of a source, on an accepted offset: the time base's where it steers (R352), else DOM_OFFSET's (R353). -/
def sourceServo (d : Nat) (o : Int) (ts : Nat) (s : State) : State :=
  if s.steerSrc = d then steerServo d o ts s else if d < 4 then domServo d o ts s else s

/-- A domain's time at a count of the time base, in 2^-40 ns. -/
def domTime (m : DomRec) (count : Nat) : Int := (count : Int) + m.doff / 10 ^ 18

/-- A step of a domain's time applies (R353): it counts in G, and SYNCED is cleared. -/
def domStep (d : Nat) (e : Int) (s : State) : State :=
  let m := s.domRec d
  (s.setDom d { m with step := none, doff := m.doff + e * 10 ^ 18, gain := m.gain + e * 10 ^ 18, synced := 0 }).put
    (FM_DOM_STATUS_SYNCED d) 0

/-- One tick of domain `d`'s time, the time base having counted from `p` to `c` (R349, R353): a steering domain gains what TB_INCR
adds beyond I, another changes its DOM_OFFSET; a pending step applies at the second boundary of
its time, unless it is no longer permitted there, which drops it (R178). -/
def domTick (p c d : Nat) (s : State) : State :=
  if !s.on (FM_DOM_CFG_EN d) then s
  else
    let m := s.domRec d
    if s.steerSrc = d then
      s.setDom d { m with gain := m.gain + (((s.incr : Int) - 2 ^ 42) * 10 ^ 18 - m.integ * 16) }
    else
      let was := domTime m p
      let m' := { m with doff := m.doff + m.rate, gain := m.gain + (m.rate - m.integ * 16) }
      let s := s.setDom d m'
      match m'.step with
      | some e =>
        if was / (sec40 : Int) = domTime m' c / (sec40 : Int) then s
        else if domMayStep s d e then domStep d e s
        else (s.setDom d { m' with step := none }).ev TB_EVENT_BACK_SLEW
      | none => s

/-- STEER_SRC takes a value (R354): the new steering domain's DOM_OFFSET becomes zero, the previous one starts from zero at its
rate I; the change counts in G. -/
def steerChange (v : Nat) (s : State) : State :=
  let was := s.steerSrc
  let s := s.put TB_CTRL_STEER_SRC v
  if was = v then s
  else
    let s :=
      if v < 4 then
        let m := s.domRec v
        s.setDom v { m with gain := m.gain - m.doff, doff := 0, rate := 0, step := none, synced := 0 }
      else s
    let s :=
      if was < 4 then
        let m := s.domRec was
        s.setDom was { m with doff := 0, rate := clampI (-(domRateMax s)) (domRateMax s) (m.integ * 16), step := none, synced := 0 }
      else s
    srcVoidRefresh s

/-- The slots that carry time source `t`: a domain, or 4 for the ensemble (R115, R161). -/
def slotsOf (s : State) (t : Nat) : List Nat :=
  [12, 13, 14, 15].filter (fun n => s.get (REF_SLOT_CFG_TSRC n) == t)

/-- The time reference of the domain that steers became invalid: SYNCED is cleared (R353). -/
def domUnsync (d : Nat) (s : State) : State :=
  (s.setDom d { s.domRec d with synced := 0 }).put (FM_DOM_STATUS_SYNCED d) 0

/-- The time reference of source `t` became invalid: its slots are lost, and the time base follows where it steers (R115, R175, R353). -/
def sourceLost (t : Nat) (s : State) : State :=
  let s := forEach (slotsOf s t) refGone s
  if s.steerSrc = t then tbSrcLost (if t < 4 then domUnsync t s else s) else if t < 4 then domLost t s else s

end Sys2Proof.Machine
end

