-- ==== Sys2Proof/Machine/Ensemble.lean ====
section
/-!
DEFINITION. The ensemble of time references (R148 to R153): member states, Allan variances, weights, the estimate, departures,
drops and returns.  Offsets are SNS64.
-/

namespace Sys2Proof.Machine

/-- The state of member `k` (R168): 0 OFF, 1 LEARNING, 2 FUSED, 3 DROPPED. -/
def ensState (s : State) (k : Nat) : Nat := s.get (REF_ENS_MSTAT_STATE k)

/-- The FUSED members, in order. -/
def ensFused (s : State) : List Nat := (List.range 8).filter (fun k => ensState s k == 2)

/-- Member `k` is enabled in an enabled ensemble and its session is receiving (R149). -/
def ensReceives (s : State) (k : Nat) : Bool :=
  s.on REF_ENS_CTRL_EN && s.on (REF_ENS_MEMBER_EN k) &&
    s.on (FM_SESS_STATUS_RECEIVING (s.get (REF_ENS_MEMBER_SESSION k)))

/-- FUSED_COUNT and VALID follow the members; the only FUSED one has the weight 1 (R168); with none the time reference is invalid
(R153). -/
def ensCount (s : State) : State :=
  let n := (ensFused s).length
  let was := s.on REF_ENS_STATUS_VALID
  let s := (s.put REF_ENS_STATUS_FUSED_COUNT n).putB REF_ENS_STATUS_VALID (n != 0)
  let s := match ensFused s with
    | [k] => s.put (REF_ENS_MSTAT_WEIGHT k) 0xFFFF
    | _ => s
  if was && n == 0 then sourceLost 4 s else s

/-- A member takes a state; only a FUSED one has a weight. -/
def ensSet (k st : Nat) (s : State) : State :=
  let s := s.put (REF_ENS_MSTAT_STATE k) st
  ensCount (if st = 2 then s else s.put (REF_ENS_MSTAT_WEIGHT k) 0)

/-- A member follows its session: OFF while that is not receiving, LEARNING from the start of receiving (R149). -/
def ensFollow (k : Nat) (s : State) : State :=
  let r := ensReceives s k
  let st := ensState s k
  if !r && st != 0 then ensSet k 0 (s.setEns k {})
  else if r && st == 0 then ensSet k 1 (s.setEns k {})
  else s

/-- Every member follows its session. -/
def ensFollowAll (s : State) : State := forEach (List.range 8) ensFollow s

/-- Session `k` delivers an offset from the time base to its members (R351). -/
def ensOffset (k : Nat) (o : Int) (s : State) : State :=
  forEach (List.range 8) (fun i s =>
    if ensState s i != 0 && s.get (REF_ENS_MEMBER_SESSION i) == k then
      let m := s.ensRec i
      s.setEns i { m with latest := some o, sum := m.sum + o, n := m.n + 1 }
    else s) s

/-- The 16 s update of the members that are not OFF (R149, R150); a member without an offset in the 16 s has no mean. -/
def ensAllan (s : State) : State :=
  forEach (List.range 8) (fun k s =>
    let m := s.ensRec k
    if ensState s k = 0 ∨ m.n = 0 then s
    else
      let a := m.allan.add (roundDiv m.sum m.n)
      let diffs := if a.terms = m.allan.terms then m.diffs else m.diffs + 1
      let s := s.setEns k { m with allan := a, diffs := diffs, sum := 0, n := 0 }
      if ensState s k = 1 ∧ 8 ≤ diffs then ensSet k 2 s else s) s

/-- 1 / a of a member as a fraction, up to a factor common to all; a zero variance gives a free value (R150). -/
def ensInverse (s : State) (k : Nat) : Nat × Nat :=
  let a := (s.ensRec k).allan
  if a.num = 0 then (Config.ensembleWeight (8 * s.freeNo + k) + 1, 1) else (a.den, a.num)

/-- The members with their weights over one denominator. -/
def ensWeights (s : State) (l : List Nat) : List (Nat × Nat) :=
  let inv := l.map (fun k => (k, ensInverse s k))
  let d := inv.foldl (fun p e => p * e.2.2) 1
  inv.map (fun e => (e.1, e.2.1 * (d / e.2.2)))

/-- The estimate over some members (R150), rounded under R9. -/
def ensEstimate (s : State) (l : List Nat) : Int :=
  let w := ensWeights s l
  roundDiv (w.foldl (fun t e => t + e.2 * ((s.ensRec e.1).latest.getD 0)) 0) (w.foldl (fun t e => t + e.2) 0)

/-- Departure of a member from the estimate over the others (R150). -/
def ensDep (s : State) (l : List Nat) (k : Nat) : Nat :=
  (((s.ensRec k).latest.getD 0) - ensEstimate s (l.filter (fun j => j != k))).natAbs

/-- Member `a` is dropped rather than `b`: a larger departure, then a lower weight, then the higher index (R151). -/
def ensWorse (a b : Nat × Nat × Nat) : Bool :=
  decide (b.2.1 < a.2.1) || (a.2.1 == b.2.1 && (decide (a.2.2 < b.2.2) || (a.2.2 == b.2.2 && decide (b.1 < a.1))))

/-- The runs of updates beyond DISAGREE, and the member dropped by them (R151). -/
def ensDrop (s : State) : State :=
  let l := ensFused s
  if l.length ≤ 1 then forEach l (fun k s => s.setEns k { s.ensRec k with beyond := 0 }) s
  else
    let lim := s.get REF_ENS_CTRL_DISAGREE * 2 ^ 16
    let w := ensWeights s l
    let deps := w.map (fun e => (e.1, ensDep s l e.1, e.2))
    let s := forEach deps (fun e s =>
      let m := s.ensRec e.1
      s.setEns e.1 { m with beyond := if lim < e.2.1 then m.beyond + 1 else 0 }) s
    let worst := deps.foldl (fun (b : Option (Nat × Nat × Nat)) e =>
      match b with
      | none => some e
      | some f => if ensWorse e f then some e else b) none
    match worst with
    | some e =>
      if 4 ≤ (s.ensRec e.1).beyond then
        (ensSet e.1 3 (s.setEns e.1 { s.ensRec e.1 with beyond := 0, nearSince := none })).ev REF_EVENT_ENS_DROP
      else s
    | none => s

/-- The weights, the estimate, and how long each DROPPED member has been near it (R150, R152). -/
def ensShow (s : State) : State :=
  let l := ensFused s
  let w := ensWeights s l
  let sum := w.foldl (fun t e => t + e.2) 0
  let s := forEach w (fun e s =>
    s.put (REF_ENS_MSTAT_WEIGHT e.1) (min 65535 (roundDiv (65536 * e.2 : Nat) sum).toNat)) s
  let est := ensEstimate s l
  let s := s.putWidei REF_ENS_OFFSET est
  forEach (List.range 8) (fun k s =>
    if ensState s k = 3 then
      let m := s.ensRec k
      let near := decide (2 * (m.latest.getD 0 - est).natAbs ≤ s.get REF_ENS_CTRL_DISAGREE * 2 ^ 16)
      s.setEns k { m with
        nearSince := if near then (match m.nearSince with | some t => some t | none => some s.clk) else none }
    else s) s

/-- The 62.5 ms update (R150, R151); where the ensemble steers, E drives the servo with Ts = 62.5 ms (R352). -/
def ensUpdate (s : State) : State :=
  if (ensFused s).isEmpty then s
  else
    let free := (ensFused s).any (fun k => (s.ensRec k).allan.num == 0)
    let s := ensShow (ensDrop s)
    let s := if s.steerSrc = 4 then steerServo 4 (s.widei REF_ENS_OFFSET) 15625000 s else s
    if free then s.fresh.2 else s

/-- A DROPPED member returns after 64 s near E (R152); while no member is FUSED there is no E, and its time near E goes on (DESIGN CHOICE,
log entry 155). -/
def ensReturn (k : Nat) (s : State) : State :=
  if ensState s k = 3 && (s.ensRec k).nearSince.isSome then ensSet k 2 (s.setEns k { s.ensRec k with nearSince := none, beyond := 0 })
  else s

/-- A member the ensemble may not be enabled with (R148, MC24). -/
def ensForbidden (s : State) : Bool :=
  (List.range 8).any (fun k => s.on (REF_ENS_MEMBER_EN k) &&
    !s.on (FM_SESS_STATUS_RECEIVING (s.get (REF_ENS_MEMBER_SESSION k))))

/-- REF_ENS_CTRL.EN takes a value, at its commitment point (R46, R148). -/
def ensEnable (en : Bool) (s : State) : State :=
  if en && !s.on REF_ENS_CTRL_EN && ensForbidden s then modeErr 5 0 24 (s.put REF_ENS_CTRL_EN 0)
  else srcVoidRefresh (ensFollowAll (s.putB REF_ENS_CTRL_EN en))

end Sys2Proof.Machine
end

