-- ==== Sys2Proof/Machine/Phase.lean ====
section
/-!
DEFINITION. The Phase Arithmetic Unit (R289 to R305) and the forming of stamps (R263 to R270, R299, R300).
-/

namespace Sys2Proof.Machine

/-! ### Channels -/

/-- The base frequencies of R294, in Hz. -/
def baseHz (code : Nat) : Nat :=
  ([156250000, 125000000, 100000000, 62500000, 50000000, 25000000, 10000000] : List Nat).getD code 10000000

/-- The period of a base in tenths of a pu: 16,384 count units (R294). -/
def baseUnit (code : Nat) : Nat := ([16, 20, 25, 40, 50, 100, 250] : List Nat).getD code 250

/-- A channel's base: that of its register on channels 65 to 76 and 78, else 0b000 (R294, R319). -/
def chanBase (s : State) (c : Nat) : Nat :=
  if (65 ≤ c ∧ c ≤ 76) ∨ c = 78 then s.get (PHA_CH_CFG_BASE c) else 0

/-- The frequency of output `n` divided by PRESCALE is exactly the base (R292). -/
def outSupported (s : State) (c n : Nat) : Bool :=
  250000000 * vcoPerTick s (s.get (OUT_CFG_SRC n)) ==
    baseHz (chanBase s c) * s.get (PHA_CH_CFG_PRESCALE c) * (s.get (OUT_CFG_DIV_M1 n) + 1) * 2 ^ 32

/-- A lane holds CDR lock (R216). -/
def State.cdrLock (s : State) (n : Nat) : Bool := s.on (LN_STATUS_CDR_LOCKED n)

/-- PLL `q` is locked: a quad's, or LM's for 16. -/
def State.pllLocked (s : State) (q : Nat) : Bool :=
  if q < 16 then s.on (LN_QUAD_STATUS_PLL_LOCKED q) else (s.pllRec 16).on && !(s.pllRec 16).waits

/-- PLL `q` runs: it is powered, whether it is locked or relocks (R211, R289). -/
def State.pllRuns (s : State) (q : Nat) : Bool := (s.pllRec q).on || s.pllLocked q

/-- A channel runs (R289, R292). -/
def chanRuns (s : State) (c : Nat) : Bool :=
  if c < 65 then s.cdrLock c
  else if c < 73 then s.on (PHA_CH_CFG_EN c) &&
    s.get (REF_SLOT_NOM_V (c - 65)) == baseHz (chanBase s c) * s.get (PHA_CH_CFG_PRESCALE c)
  else if c < 77 then s.on (PHA_CH_CFG_EN c) && outSupported s c (c - 73)
  else if c = 77 then (List.range 17).any s.pllRuns
  else if c = 78 then s.on (PHA_CH_CFG_EN c) && s.on (OUT_STATUS_RUNNING (s.get (PHA_CH_CFG_TAP c))) &&
    outSupported s c (s.get (PHA_CH_CFG_TAP c))
  else decide (s.dev ≠ .reset) && decide (s.dev ≠ .clockStart)

/-- The lane of a port's stamps: its own, L4n of a four-lane port, LM for P65. -/
def portLane (p : Nat) : Nat := if p = 65 then 64 else p

/-- The lanes of a port (R15, R207): four of a 100G four-lane port. -/
def portLanes (s : State) (p : Nat) : List Nat :=
  if p = 64 then [] else if p = 65 then [64] else if s.rate p = 3 then (List.range 4).map (fun k => p / 4 * 4 + k) else [p]

/-- The receiver of port `p` takes its own transmitted data: every lane of it is in loop-back (R244). -/
def portLooped (s : State) (p : Nat) : Bool := p != 64 && (portLanes s p).all (fun n => s.get (LN_CTRL_LOOPBACK n) == 1)

/-! ### Fine stamps -/

/-- The receive phase is fresh: 8 valid samples since it was last stale, the newest at most 1 ms old (R299), and SELF_ERR clear (R304). -/
def rxFresh (s : State) (n : Nat) : Bool :=
  let r := (s.phaRec n).recent
  match r with
  | [] => false
  | h :: _ => r.length == 8 && decide (s.clk ≤ h.2 + ticksMs 1) && !s.on PHA_EVENT_SELF_ERR

/-- Receive stamps of port `p` use the fine phase (R263, R299, R304). -/
def rxFine (s : State) (p : Nat) : Bool :=
  p != 64 && s.on (LN_STATUS_CLOCK_EFF (portLane p)) && rxFresh s (portLane p)

/-- Transmit stamps of port `p` use the fine phase (R263, R302, R304). -/
def txFine (s : State) (p : Nat) : Bool :=
  p != 64 && s.on (LN_STATUS_CLOCK_EFF (portLane p)) && s.on (PHA_TXPH_VALID (p / 4)) && !s.on PHA_EVENT_SELF_ERR

/-- TS_FINE, FINE_RX and FINE_TX of port `p`, and COARSE of the streams, follow the state (R286, R322, R462). -/
def fineRefresh (p : Nat) (s : State) : State :=
  let rx := rxFine s p
  let tx := txFine s p
  if s.on (MAC_STATUS_TS_FINE p) = rx ∧ s.on (PHA_PORT_STATUS_FINE_TX p) = tx then xcRefreshAll s
  else xcRefreshAll (((s.putB (MAC_STATUS_TS_FINE p) rx).putB (PHA_PORT_STATUS_FINE_RX p) rx).putB
    (PHA_PORT_STATUS_FINE_TX p) tx)

/-- The port of a lane, P65 for LM. -/
def lanePort (n : Nat) : Nat := if n = 64 then 65 else n

/-- Every lane that is SYNTONOUS has its port's fine bits refreshed; so has every port whose bits are set. -/
def fineRefreshAll (s : State) : State :=
  forEach (List.range 65) (fun n s =>
    if s.on (LN_STATUS_CLOCK_EFF n) || s.on (MAC_STATUS_TS_FINE (lanePort n)) || s.on (PHA_PORT_STATUS_FINE_TX (lanePort n))
    then fineRefresh (lanePort n) s else s) s

/-! ### Samples -/

/-- The CLK_TIME ticks of the window of a frequency estimate: 100 ms (R303). -/
def winTicks : Nat := ticksMs 100

/-- A sample of a lane channel joins the window (R303). -/
def winAdd (c : Nat) (u : Option Int) (range : Bool) (s : State) : State :=
  if 65 ≤ c then s
  else
    let w := (s.phaRec c).win.filter (fun x => decide (s.clk < x.at_ + winTicks))
    s.setPha c { s.phaRec c with win := ⟨s.clk, u, range⟩ :: w }

/-- The channel's newest sample is marked, with its flags (R296, R320). -/
def samplePut (c : Nat) (valid range glitch noClk : Bool) (s : State) : State :=
  let s := (s.putB (PHA_CH_SAMPLE_VALID c) valid).putB (PHA_CH_SAMPLE_RANGE c) range
  let s := (s.putB (PHA_CH_SAMPLE_GLITCH c) glitch).putB (PHA_CH_SAMPLE_NO_CLK c) noClk
  s.count (PHA_CH_SAMPLE_SEQ c)

/-- A channel starts afresh: nothing of its past samples counts (R296, R302, R305). -/
def chanRestart (c : Nat) (s : State) : State :=
  let s := s.setPha c { s.phaRec c with last := none, recent := [], started := false }
  if c < 65 then fineRefresh (lanePort c) s else s

/-- No clock: the sample is invalid, and the channel starts afresh when its input returns (R296). -/
def noClk (c : Nat) (s : State) : State := chanRestart c (winAdd c none false (samplePut c false false false true s))

/-- The self-reference reads beyond 64 pu for 16 samples in a row (R304): SELF_ERR, a minor alarm, and a recalibration of every
deglitch threshold; set anew where it has been cleared while the run goes on. -/
def selfCheck (c : Nat) (s : State) : State :=
  if s.get (PHA_CH_SAMPLE_VALID 79) = 1 then
    let s := s.setPha 79 { s.phaRec 79 with selfBad := if 40 < c ∧ c < 16344 then (s.phaRec 79).selfBad + 1 else 0 }
    if 16 ≤ (s.phaRec 79).selfBad ∧ ((s.phaRec 79).selfBad = 16 ∨ !s.on PHA_EVENT_SELF_ERR) then
      let s := raiseMinor 0 (s.ev PHA_EVENT_SELF_ERR)
      fineRefreshAll { s with cal := { s.cal with owed := s.cal.owed ++ [1] } }
    else s
  else s

/-- The last transition of a beat before it holds its new level for `thresh` helper cycles, from the transition `last` on, and the number
of transitions up to it (R295): after an even number the beat is back at its old level, which it may hold however long. -/
def deglitch (thresh : Nat) (last : Int) (n : Nat) : List Int → Int × Nat
  | [] => (last, n)
  | t :: rest => if n % 2 = 1 ∧ last + thresh ≤ t then (last, n) else deglitch thresh t (n + 1) rest

/-- The count of a beat: input edge less reference edge in helper cycles, each the mean of its two transitions (R295). -/
def beatCount (in1 in2 ref1 ref2 : Int) : Nat := (roundDiv (in1 + in2 - ref1 - ref2) 2 % 16384).toNat

/-- The coefficient that waits for channel `c`'s next beat edge applies (R516, R524, R529); a host's write of the same cycle stands (R528). -/
def threshApply (c : Nat) (s : State) : State :=
  match smGet none s.cal.thresh c with
  | none => s
  | some v =>
    let s : State := { s with cal := { s.cal with thresh := smSet none s.cal.thresh c none } }
    calApplied 1 c (if (s.phaRec c).hostAt = some s.clk then s else s.put (PHA_CH_DG_THRESH c) v)

/-- What the channel shows before a sample is kept, with the cycle (R305). -/
def sampleKeep (c : Nat) (s : State) : State :=
  if c < 65 then
    s.setPha c { s.phaRec c with before := some ⟨s.clk, s.word (PHA_CH_SAMPLE c), s.word (PHA_CH_UNWRAP c)⟩ }
  else s

/-- Lane `c` leaves CDR lock: a sample of the same cycle is discarded, one that comes later in the cycle will be, and the newest sample left
is of a channel that does not run (R289, R296, R305). -/
def sampleLost (c : Nat) (s : State) : State :=
  let s := match (s.phaRec c).before with
    | some b =>
      if b.clk = s.clk then
        ((s.setWord (PHA_CH_SAMPLE c) b.sample).setWord (PHA_CH_UNWRAP c) b.unwrap).setPha c
          { s.phaRec c with win := (s.phaRec c).win.filter (fun x => x.at_ != s.clk) }
      else s
    | none => s
  let s := ((s.put (PHA_CH_SAMPLE_VALID c) 0).put (PHA_CH_SAMPLE_RANGE c) 0).put (PHA_CH_SAMPLE_GLITCH c) 0
  let s := s.put (PHA_CH_SAMPLE_NO_CLK c) 1
  chanRestart c (s.setPha c { s.phaRec c with before := none, lostAt := some s.clk })

/-- A sample of channel `c` (R294 to R297, R304); channel 78 gives none while the Calibration Sequencer holds it (R522), and one of the
cycle in which its lane leaves CDR lock is discarded (R305).  A beat that holds no new level shows no edge. -/
def phaSample (c : Nat) (b : Beat) (s : State) : State :=
  if c = 78 ∧ s.on CAL_STATUS_CH78_BUSY then s else
  if (s.phaRec c).lostAt = some s.clk then s else
  let s := sampleKeep c s
  if !chanRuns s c then noClk c s else
  match b with
  | .absent | .edges [] _ | .edges (_ :: _) [] => noClk c s
  | .edges (i :: is) (r :: rs) =>
    let s := threshApply c s
    let th := s.get (PHA_CH_DG_THRESH c)
    let x := deglitch th i 1 is
    let y := deglitch th r 1 rs
    let n := beatCount i x.1 r y.1
    if x.2 ≤ 64 ∧ y.2 ≤ 64 ∧ (x.2 % 2 = 0 ∨ y.2 % 2 = 0) then noClk c s else
    let s := s.put (PHA_CH_SAMPLE_RAW c) n
    if 64 < x.2 ∨ 64 < y.2 then winAdd c none false ((samplePut c false false true false s).ev PHA_EVENT_GLITCH)
    else
      let r := s.phaRec c
      let unit : Int := baseUnit (chanBase s c)
      let s :=
        match r.last, r.recent with
        | some k, h :: _ =>
          let d : Int := ((n : Int) - k + 8192) % 16384 - 8192
          if 4096 < d.natAbs then
            winAdd c none true ((samplePut c false true false false (chanRestart c s)).ev PHA_EVENT_RANGE)
          else
            let u := h.1 + d * unit
            let old := if h.2 + ticksMs 1 < s.clk then [] else r.recent
            let s := s.setPha c { r with last := some n, recent := ((u, s.clk) :: old).take 8, started := true }
            winAdd c (some (roundDiv u 10)) false ((samplePut c true false false false s).puti (PHA_CH_UNWRAP_V c) (roundDiv u 10))
        | _, _ =>
          let u := (n : Int) * unit
          let s := s.setPha c { r with last := some n, recent := [(u, s.clk)], started := true }
          winAdd c (some (roundDiv u 10)) false ((samplePut c true false false false s).puti (PHA_CH_UNWRAP_V c) (roundDiv u 10))
      let s := if c < 65 then fineRefresh (lanePort c) s else s
      if c = 79 then selfCheck n s else s

/-- The PLL the transmit survey measures: one that has just locked, else the next of the rotation that runs (R301). -/
def surveyDue (s : State) : Option Nat :=
  match s.survey.first.find? s.pllLocked with
  | some q => some q
  | none => ((List.range 17).map (fun k => (s.survey.turn + k) % 17)).find? s.pllLocked

/-- A PLL has locked: it is measured next (R301). -/
def txphLocked (q : Nat) (s : State) : State :=
  { s with survey := { s.survey with first := s.survey.first.filter (fun x => x != q) ++ [q] } }

/-- The survey has measured a PLL: its rotation goes on, or resumes (R301). -/
def surveyTake (q : Nat) (s : State) : State :=
  if s.survey.first.contains q then { s with survey := { s.survey with first := s.survey.first.filter (fun x => x != q) } }
  else { s with survey := { s.survey with turn := (q + 1) % 17 } }

/-- The transmit survey's result on the PLL it measures (R301). -/
def txphMeasure (q phase : Nat) (s : State) : State :=
  if surveyDue s = some q then
    let s := ((surveyTake q s).put (PHA_TXPH_PHASE q) phase).put (PHA_TXPH_VALID q) 1
    if q < 16 then forEach (List.range 4) (fun k s => fineRefresh (4 * q + k) s) s else fineRefresh 65 s
  else s

/-- PHA_TXPH of a PLL is no longer valid (R301, R302). -/
def txphClear (q : Nat) (s : State) : State :=
  if s.on (PHA_TXPH_VALID q) then
    let s := s.put (PHA_TXPH_VALID q) 0
    if q < 16 then forEach (List.range 4) (fun k s => fineRefresh (4 * q + k) s) s else fineRefresh 65 s
  else s

/-- A Capstan release: the reference dividers restart, every channel restarts and every transmit phase is void (R293, R302). -/
def phaRelease (s : State) : State :=
  let s := { s with syn := { s.syn with release := s.now } }
  let s := forEach (s.pha.map (fun e => e.1)) chanRestart s
  forEach (List.range 17) txphClear s

/-! ### Latency (R266 to R269).  Lengths are in 1/16,896 of 1/16 ps: a pu is 66,000, a ns 270,336,000. -/

/-- One ns. -/
def vNs : Int := 270336000

/-- One pu. -/
def vPu : Int := 66000

/-- The lane UI of a rate (R207). -/
def vUi (rate : Nat) : Int := if rate = 0 then 216268800 else if rate = 1 then 26214400 else 10485760

/-- The FEC-stream UI of a rate (R268). -/
def vUiF (rate : Nat) : Int := if rate = 3 then 2621440 else vUi rate

/-- UI and ns of the fixed latencies, receive then transmit; the ns in thousandths (R266). -/
def fixedLat (rate fec : Nat) : (Int × Int) × (Int × Int) :=
  match rate, fec with
  | 0, _ => ((48, 24000), (40, 16000))
  | 1, 0 => ((200, 25600), (160, 19200))
  | 1, _ => ((200, 243200), (160, 25600))
  | 2, 0 => ((320, 10240), (280, 7680))
  | 2, 1 => ((320, 97280), (280, 10240))
  | 2, _ => ((5600, 35840), (420, 20480))
  | _, 0 => ((320, 15360), (280, 10240))
  | _, _ => ((1640, 28160), (315, 16640))

/-- A port's FEC; P64 and P65 have none (R256). -/
def portFec (s : State) (p : Nat) : Nat := if p < 64 then s.get (MAC_CFG_FEC p) else 0

/-- Block period of a rate (R207), as a length. -/
def vBlock (rate : Nat) : Int :=
  if rate = 0 then 8 * vNs else if rate = 1 then 64 * vNs / 10 else 256 * vNs / 100

/-- The calibrated constants of port `p`'s PLL, receive and transmit, for a frame whose SFD crossed the timestamp point at `t` (ps): those
before the newest commit where the SFD came first (R524, R525). -/
def calLatAt (s : State) (p t : Nat) : Int × Int :=
  let r := s.pllRec (p / 4)
  if t < r.latAt then (r.latRx, r.latTx) else (s.geti (CAL_LAT_RX (p / 4)), s.geti (CAL_LAT_TX (p / 4)))

/-- TRIM_GEN of port `p` for a frame whose SFD came at `t`: a commit of the constants since then has counted in it (R311, R525). -/
def trimGenAt (s : State) (p t : Nat) : Nat :=
  let g := s.get (PHA_PORT_STATUS_TRIM_GEN p)
  let w := 2 ^ (PHA_PORT_STATUS_TRIM_GEN p).width
  if t < (s.pllRec (p / 4)).latAt then (g + w - 1) % w else g

/-- L_rx fixed, with the calibrated constant `cal` of the port's PLL, and link of port `p` (R266, R268, R518). -/
def latRx (s : State) (p : Nat) (cal : Int) : Int :=
  let rate := s.rate p
  let f := (fixedLat rate (portFec s p)).1
  let n := portLane p
  let slip := s.get (LN_LAT_RX_SLIP n) + (if rate = 3 then s.get (LN_LAT_DESKEW n) else 0)
  (f.1 + slip) * vUi rate + f.2 * vNs / 1000 + cal * vPu

/-- L_tx fixed, with the calibrated constant `cal` of the port's PLL, and link of port `p` (R266, R268, R518). -/
def latTx (s : State) (p : Nat) (cal : Int) : Int :=
  let rate := s.rate p
  let f := (fixedLat rate (portFec s p)).2
  (f.1 + s.get (LN_LAT_TX_GBOX (portLane p))) * vUi rate + f.2 * vNs / 1000 + cal * vPu

/-- MAC_TS_RX_LAT and MAC_TS_TX_LAT: rounded to 1 pu, zero while the port is not UP; P64 has no latency term (R269, R270). -/
def latRefresh (p : Nat) (s : State) : State :=
  if s.portUp p && p != 64 then
    (s.putWidei (MAC_TS_RX_LAT p) (16 * roundDiv (latRx s p (s.geti (CAL_LAT_RX (p / 4)))) 66000)).putWidei (MAC_TS_TX_LAT p)
      (16 * roundDiv (latTx s p (s.geti (CAL_LAT_TX (p / 4)))) 66000)
  else (s.putWide (MAC_TS_RX_LAT p) 0).putWide (MAC_TS_TX_LAT p) 0

/-! ### Stamps -/

/-- Stamps and Ferryman times are numbers of 2^-16 ns, modulo the counter's span. -/
def spanSns : Nat := 2 ^ 48 * 1000000000 * 2 ^ 16

/-- A stamp as a TB96 value. -/
def tb96OfSns (t : Nat) : Nat := tb96Units t

/-- The time base plus a length, to 1 SNS64 unit. -/
def stampRound (count : Int) (v : Int) : Nat :=
  (roundDiv (count * 270336000 + v * 2 ^ 40) (2 ^ 24 * 270336000) % (spanSns : Int)).toNat

/-- 0.4 ns as a length (R264). -/
def vHalf : Int := 4 * vNs / 10

/-- A CLK_FAB cycle, 0.8 ns. -/
def vFab : Int := 8 * vNs / 10

/-- A stamp on the CLK_FAB grid (R264): the time base `k` CLK_FAB cycles from now plus 0.4 ns, plus a length; whole ticks go by
at TB_INCR, the cycles within a tick are nominal. -/
def gridStamp (s : State) (k : Int) (v : Int) : Nat :=
  stampRound ((s.tb.count : Int) + k / 5 * s.incr) (k % 5 * vFab + vHalf + v)

/-- A lane word's period (R207). -/
def vWord (rate : Nat) : Int :=
  (if rate = 0 then 10 else if rate = 1 then 32 else 64) * vUi rate

/-- What a lane's recovered bit clock is divided by, for its channel (R290) and for a recovered-clock selector (R238): 8 at 1G, 66 at 10G
and on LM, 165 at 25G and 100G. -/
def chanDivider (rate : Nat) : Nat := if rate = 0 then 8 else if rate = 1 then 66 else 165

/-- The period of a lane's recovered clock so divided (R238, R290): that of 156.25 MHz, 6.4 ns, at every rate. -/
def vBase (rate : Nat) : Int := chanDivider rate * vUi rate

/-- The reference grid of the phases: how long ago, as a length, the dividers were released (R293, R300). -/
def refGrid (s : State) : Int := -(((s.now - s.syn.release : Nat) : Int) * 4 * vNs)

/-- The time from now, as a length and but for `phase` itself, of the word edge nearest `tc`, where the divider edges lie `phase` after the
reference grid and the word edge `d` UI after one of them (R300). -/
def wordEdge (s : State) (rate : Nat) (tc phase dui : Int) : Int :=
  let grid := refGrid s
  let k := roundDiv (tc - dui - grid - phase) (vBase rate).toNat
  grid + k * vBase rate + dui

/-- A stamp of fine phase (R265, R300): the time base a span from now, which passes at TB_INCR, and `v` more, a phase and latencies, at the
nominal tick; to 1 pu. -/
def fineStamp (s : State) (span v : Int) : Nat :=
  let num := 4 * (s.tb.count : Int) * 270336000 + span * s.incr + 4 * v * 2 ^ 40
  (16 * roundDiv num (4 * 2 ^ 28 * 270336000) % (spanSns : Int)).toNat

/-- The mean of the last eight valid samples, as a length (R299); they are held in tenths of a pu. -/
def meanPhase (s : State) (n : Nat) : Int :=
  ((s.phaRec n).recent.foldl (fun t e => t + e.1) 0) * 825

/-- A port's trim in 2^-16 ns, as a length (R306). -/
def vTrim (t : Int) : Int := t * 4125

/-- The receive stamp of a frame on port `p` (R263 to R268, R270, R300), and whether it is fine. -/
def rxStamp (s : State) (p : Nat) (rx : RxTiming) : Nat × Bool :=
  if p = 64 then (gridStamp s (-(rx.ago : Int)) 0, false) else
  let rate := s.rate p
  let n := portLane p
  let fine := rxFine s p
  let synt := s.on (LN_STATUS_CLOCK_EFF n)
  let frame := (if portFec s p = 2 then 7 * (rx.blk.val : Int) * vUiF rate else 0) +
    (if synt then 0 else (2 + (s.get (LN_EB_FILL n) : Int)) * vBlock rate)
  let l := latRx s p (calLatAt s p (s.nowPs - rx.ago * 800)).1 + frame - vTrim (s.geti (PHA_PORT_TRIM_RX_V p))
  if fine then
    let tc := -(rx.ago : Int) * vFab - rx.occ * vWord rate
    (fineStamp s (wordEdge s rate tc (meanPhase s n) ((rx.d : Int) * vUi rate)) (meanPhase s n - l), true)
  else (gridStamp s (-(rx.ago : Int)) (-l - (if synt then rx.occ * vWord rate else 0)), false)

/-- T_rx of a frame on port `p` beyond the start of the CLK_FAB cycle in which its SFD was found, as a length (R263, R264, R300). -/
def rxFrac (s : State) (p : Nat) (rx : RxTiming) : Int :=
  let rate := s.rate p
  let n := portLane p
  let words := rx.occ * vWord rate
  if rxFine s p then
    let tc := -(rx.ago : Int) * vFab - words
    wordEdge s rate tc (meanPhase s n) ((rx.d : Int) * vUi rate) + meanPhase s n + rx.ago * vFab
  else if p ≠ 64 ∧ s.on (LN_STATUS_CLOCK_EFF n) then vHalf - words
  else vHalf

/-- The transmit stamp of a frame that the express path launches at a time from now, a length (R462, R464): at the UI of the egress lane
nearest to it where the phase is fine, else in its CLK_FAB cycle. -/
def launchStamp (s : State) (p : Nat) (v : Int) (tx : TxTiming) : Nat × Bool :=
  let rate := s.rate p
  let frame := if portFec s p = 2 then -(7 * (tx.blk.val : Int) * vUiF rate) else 0
  let l := latTx s p (calLatAt s p s.nowPs).2 + frame + vTrim (s.geti (PHA_PORT_TRIM_TX_V p))
  if txFine s p then
    let phase := (s.get (PHA_TXPH_PHASE (p / 4)) : Int) * vPu
    let k := roundDiv (v - refGrid s - phase) (vUi rate).toNat
    (fineStamp s (refGrid s + k * vUi rate) (phase + l), true)
  else (gridStamp s (v / vFab) l, false)

/-- The transmit stamp of a frame on port `p` (R263 to R268, R300, R302), and whether it is fine. -/
def txStamp (s : State) (p : Nat) (tx : TxTiming) : Nat × Bool :=
  if p = 64 then (gridStamp s tx.ahead 0, false) else
  let rate := s.rate p
  let fine := txFine s p
  let frame := if portFec s p = 2 then -(7 * (tx.blk.val : Int) * vUiF rate) else 0
  let l := latTx s p (calLatAt s p (s.nowPs + tx.ahead * 800)).2 + frame + vTrim (s.geti (PHA_PORT_TRIM_TX_V p))
  if fine then
    let tc := (tx.ahead : Int) * vFab - tx.occ * vWord rate
    let phase := (s.get (PHA_TXPH_PHASE (p / 4)) : Int) * vPu
    (fineStamp s (wordEdge s rate tc phase ((tx.d : Int) * vUi rate)) (phase + l), true)
  else (gridStamp s tx.ahead l, false)

end Sys2Proof.Machine
end

