-- ==== Sys2Proof/Machine/Queues.lean ====
section
/-!
DEFINITION. The Queue Manager (R403 to R420, R430 to R434): cells and copies, admission with random early drop, staging and pages,
flushes, stuck queues, residence.  Queue (p, t) is number 8 p + t.
-/

namespace Sys2Proof.Machine

/-! ### Cells and frees -/

/-- Cells of a frame of `n` bytes (R403). -/
def cellsOf (n : Nat) : Nat := (n + 255) / 256

/-- A frame's record goes when nothing refers to it any more: no copy, its tail in, and nothing waits. -/
def frameTidy (f : Nat) (s : State) : State :=
  let r := s.frameRec f
  if r.copies = 0 ∧ r.tail ∧ !r.waiting ∧ r.express = none then s.setFrame f {} else s

/-- One copy of frame `f` fewer. -/
def frameUnref (f : Nat) (s : State) : State :=
  let r := s.frameRec f
  frameTidy f (s.setFrame f { r with copies := r.copies - 1 })

/-- A number no live frame has. -/
def freeFrame (s : State) : Nat := firstGap (s.frames.map (fun e => e.1)) 0

/-- A number no live copy has. -/
def freeCopy (s : State) : Nat := firstGap (s.copies.map (fun e => e.1)) 0

/-! ### The figures of a queue (R407, R415) -/

/-- A queue's record is replaced, and its figures follow (R407, R452). -/
def queuePut (q : Nat) (r : QRec) (s : State) : State :=
  let s := s.setQueue q r
  let s := (s.put (QM_Q_CELLS_V q) (r.head.length + r.staging.length)).put (QM_Q_PAGES_V q) r.pages.length
  let s := s.put (QM_Q_FRAMES_V q) r.copies.length
  s.put (QM_Q_AVG_V q) (roundDiv r.avg (2 ^ r.avgExp)).toNat

/-- The mode of a queue: 0 ON_CHIP, 1 SPILLING, 2 STALLED (R452). -/
def queueMode (s : State) (q : Nat) : Nat := s.get (QM_Q_STATUS_MODE q)

/-- The spill DRAM is READY (R446). -/
def spillReady (s : State) : Bool := s.get QM_SPILL_STATUS_STATE == 2

/-- In SHED3 a queue whose head is empty while its spilled segment is not is STALLED (R419). -/
def stallRefresh (q : Nat) (s : State) : State :=
  let r := s.queueRec q
  if !r.pages.isEmpty && r.head.isEmpty && s.get QM_SPILL_STATUS_STATE == 4 then s.put (QM_Q_STATUS_MODE q) 2
  else if queueMode s q = 2 then s.put (QM_Q_STATUS_MODE q) 1
  else s

/-- The spilled segment is empty: staging joins the head, and the queue is ON_CHIP again (R415). -/
def queueJoin (q : Nat) (s : State) : State :=
  let r := s.queueRec q
  if queueMode s q != 0 && r.pages.isEmpty then
    (queuePut q { r with head := r.head ++ r.staging, staging := [] } s).put (QM_Q_STATUS_MODE q) 0
  else stallRefresh q s

/-! ### Credit (R423) -/

/-- The head frame's gate is open: by the port's operational list, or with gates disabled (R421, R428, R429). -/
def gateOpen (s : State) (p t : Nat) : Bool := s.bit (QM_PORT_GATE_OPER_GATES p) t

/-- A copy of queue `q` is in transmission. -/
def queueSends (s : State) (q : Nat) : Bool :=
  match (s.portRec (q / 8)).tx with
  | some t => t.copy.any (fun c => (s.copyRec c).queue == q)
  | none => false

/-- The shaper governs queue `q`. -/
def shaped (s : State) (q : Nat) : Bool := s.on (QM_Q_CFG_CBS_EN q) && q / 8 != 64

/-- A queue's credit at the time `t` (ps), in 10^-9 bits (R423): while a copy of it is in transmission it changes at sendSlope, IDLE_SLOPE
less the port speed; else it holds while the gate is closed, rises at IDLE_SLOPE, and goes to zero, where positive, on an empty queue. -/
def creditAt (s : State) (q t : Nat) : Int :=
  let r := s.queueRec q
  if t ≤ r.creditAt then r.credit
  else
    let dt : Int := t - r.creditAt
    let idle := s.get (QM_Q_IDLE_SLOPE_V q)
    let up := r.credit + dt * idle
    let c :=
      if queueSends s q then r.credit + dt * ((idle : Int) - rateKbps (s.rate (q / 8)))
      else if !gateOpen s (q / 8) (q % 8) then r.credit
      else if r.copies.isEmpty then (if 0 < r.credit then 0 else min 0 up)
      else up
    clampI (s.geti (QM_Q_LO_CREDIT_V q) * 1000000000) (s.geti (QM_Q_HI_CREDIT_V q) * 1000000000) c

/-- A queue's credit is brought up to the time `t` (ps), as something it depends on is about to change. -/
def creditSyncTo (q t : Nat) (s : State) : State :=
  if !shaped s q then s else
  let r := s.queueRec q
  let c := creditAt s q t
  (s.setQueue q { r with credit := c, creditAt := max t r.creditAt }).puti (QM_Q_CREDIT_V q) (roundDiv c 1000000000)

/-- A queue's credit is brought up to the present. -/
def creditSync (q : Nat) (s : State) : State := creditSyncTo q s.nowPs s

/-- Every queue of port `p` has its credit brought up to a time. -/
def creditSyncPortTo (p t : Nat) (s : State) : State := forEach (List.range 8) (fun k s => creditSyncTo (8 * p + k) t s) s

/-- Every queue of port `p` has its credit brought up to the present. -/
def creditSyncPort (p : Nat) (s : State) : State := creditSyncPortTo p s.nowPs s

/-- The queue may send as far as its credit goes (R421). -/
def creditOk (s : State) (q : Nat) : Bool := !shaped s q || decide (0 ≤ creditAt s q s.nowPs)

/-! ### Admission (R405, R408 to R410, R416) -/

/-- The next value of the LFSR x^16 + x^14 + x^13 + x^11 + 1 (R410). -/
def lfsrNext (v : BitVec 16) : BitVec 16 :=
  let b := v.getLsbD 15 ^^ v.getLsbD 13 ^^ v.getLsbD 12 ^^ v.getLsbD 10
  (v <<< 1) ||| (if b then 1 else 0)

/-- The verdict of the random early drop test. -/
inductive Red where
  | pass | mark | drop
deriving DecidableEq, Repr

/-- The average moves toward Q by 2^-WEIGHT, its fraction kept whole (R410; log entry 21). -/
def redAverage (s : State) (q : Nat) (r : QRec) : QRec :=
  let w := s.get (QM_RED_WEIGHT (s.get (QM_Q_CFG_RED_PROFILE q)))
  let len := r.head.length + r.staging.length + 16 * r.pages.length
  { r with avg := r.avg * (2 ^ w - 1) + len * 2 ^ r.avgExp, avgExp := r.avgExp + w }

/-- The RED test of a copy (R410): one LFSR value is drawn, and the average kept, with RED_EN or without. -/
def redTest (q colour : Nat) (ecn : Bool) (s : State) : Red × State :=
  let r := redAverage s q (s.queueRec q)
  let s := queuePut q r { s with qm := { s.qm with lfsr := lfsrNext s.qm.lfsr } }
  if !s.on (QM_Q_CFG_RED_EN q) then (.pass, s) else
  let k := s.get (QM_Q_CFG_RED_PROFILE q)
  let lo := s.get (QM_RED_MIN_V k colour)
  let hi := s.get (QM_RED_MAX_V k colour)
  let e := 2 ^ r.avgExp
  let hit :=
    if r.avg < lo * e then false
    else if hi * e ≤ r.avg then true
    else decide (s.qm.lfsr.toNat * (hi - lo) * e < s.get (QM_RED_MAXP_V k colour) * 256 * (r.avg - lo * e))
  if !hit then (.pass, s)
  else if s.on (QM_Q_CFG_ECN_EN q) && ecn && decide (r.avg < hi * e) then
    (.mark, pmcEvent 0x023 (.frame (q % 8)) 1 (s.count (QM_Q_CNT1_ECN_MARK q)))
  else (.drop, s)

/-- The on-chip limit of R408 for `n` more cells. -/
def onChipOk (s : State) (q n : Nat) : Bool :=
  let r := s.queueRec q
  let cells := r.head.length + r.staging.length
  let f := s.get (POOL_FREE_V 0) - s.get QM_RESERVE_V
  let m := s.get (QM_Q_MIN_V q)
  let a := (s.geti (QM_Q_CFG_ALPHA q) + 7).toNat
  decide (cells + n ≤ m) || decide ((cells + n - m) * 128 ≤ 2 ^ a * f)

/-- The staging cells of all queues (R416). -/
def stagingCells (s : State) : Nat := s.queues.foldl (fun n e => n + e.2.staging.length) 0

/-- stage() of R416 for `n` cells; in SHED1 or deeper, or without a READY spill DRAM, the on-chip limit governs. -/
def stageOk (s : State) (q n : Nat) : Bool :=
  if s.stage != 0 || !spillReady s then onChipOk s q n
  else
    let r := s.queueRec q
    decide (r.pages.length + (r.staging.length + n + 15) / 16 ≤ s.get (QM_Q_SPILL_MAX_V q)) &&
      decide (0 < s.get (POOL_FREE_V 1)) && decide (stagingCells s + n ≤ s.get QM_SPILL_CFG_STAGE)

/-- A copy is refused admission: TAIL_DROP counts it. -/
def tailDrop (q : Nat) (s : State) : State :=
  pmcEvent 0x022 (.frame (q % 8)) 1 (s.count (QM_Q_CNT0_TAIL_DROP q))

/-- Admission of a copy of `n` cells and a colour to queue `q` (R408): whether it enters, and whether marked CE. -/
def queueAdmit (q n colour : Nat) (ecn : Bool) (s : State) : Option Bool × State :=
  if s.on (QM_Q_STATUS_SUSPENDED q) then (none, tailDrop q s)
  else
    match redTest q colour ecn s with
    | (.drop, s) => (none, pmcEvent 0x022 (.frame (q % 8)) 1 (s.count (QM_Q_CNT0_RED_DROP q)))
    | (v, s) =>
      let ce : Bool := decide (v = .mark)
      let enter := fun (s : State) =>
        if s.get QM_ENTRIES_V = 0 then (none, tailDrop q s)
        else (some ce, pmcEvent 0x021 (.frame (q % 8)) 1 (s.put QM_ENTRIES_V (s.get QM_ENTRIES_V - 1)))
      if queueMode s q != 0 then
        if stageOk s q n then enter s else (none, tailDrop q s)
      else if onChipOk s q n then enter s
      else if s.on (QM_Q_CFG_SPILL_EN q) && spillReady s && s.stage == 0 then
        let s := s.put (QM_Q_STATUS_MODE q) 1
        if stageOk s q n then
          let x := enter s
          if x.1.isNone then (none, queueJoin q x.2) else x
        else (none, tailDrop q (queueJoin q s))
      else (none, tailDrop q s)

/-- The cells of frame `f` as cells of copy `c`, from number `k` on. -/
def copyCells (s : State) (c f k : Nat) : List QCell :=
  let l := (s.frameRec f).cells
  ((List.range l.length).filter (fun i => decide (k ≤ i))).map (fun i => ⟨c, i, l.getD i 0⟩)

/-- A copy enters its queue with the cells its frame holds so far: the head, or staging while SPILLING (R406, R414). -/
def enqueue (q c f : Nat) (s : State) : State :=
  let s := creditSync q s
  let r := s.queueRec q
  let new := copyCells s c f 0
  let r := { r with copies := r.copies ++ [c] }
  queuePut q (if queueMode s q = 0 then { r with head := r.head ++ new } else { r with staging := r.staging ++ new }) s

/-- Cells put after the last one of copy `c` in a segment, where it has one there. -/
def insertAfter (c : Nat) (new : List QCell) (l : List QCell) : Option (List QCell) :=
  if l.any (fun x => x.copy == c) then
    let tail := (l.reverse.takeWhile (fun x => x.copy != c)).reverse
    some (l.take (l.length - tail.length) ++ new ++ tail)
  else none

/-- The later cells of a frame join each of its copies where the copy stands in its queue (R404). -/
def growCopy (q c f k : Nat) (s : State) : State :=
  let r := s.queueRec q
  let new := copyCells s c f k
  if !r.copies.contains c then s else
  match insertAfter c new r.staging with
  | some l => queuePut q { r with staging := l } s
  | none =>
    if r.pages.any (fun g => g.cells.any (fun x => x.copy == c)) then
      queuePut q { r with staging := new ++ r.staging } s
    else
      match insertAfter c new r.head with
      | some l => queuePut q { r with head := l } s
      | none => queuePut q { r with head := r.head ++ new } s

/-! ### Leaving a queue -/

/-- The cells of copy `c` that are on chip in a queue record. -/
def onChipOf (r : QRec) (c : Nat) : List Nat :=
  ((r.head ++ r.staging).filter (fun x => x.copy == c)).map (fun x => x.buf)

/-- A queue without copy `c`: its cells on chip and in pages leave; a page left empty is given back, and the cells of a read of it. -/
def queueWithout (r : QRec) (c : Nat) : QRec × List Nat × List Nat :=
  let pages := r.pages.map (fun g => { g with cells := g.cells.filter (fun x => x.copy != c) })
  let gone := (pages.filter (fun g => g.cells.isEmpty)).map (fun g => g.buf)
  let empty := fun (k : Nat) => (pages.getD k ⟨0, []⟩).cells.isEmpty
  let taken := (r.taken.zipIdx.filter (fun x => !empty x.2)).map (fun x => x.1)
  let spare := ((r.taken.zipIdx.filter (fun x => empty x.2)).map (fun x => x.1)).flatten
  ({ r with
      copies := r.copies.filter (fun x => x != c)
      head := r.head.filter (fun x => x.copy != c)
      staging := r.staging.filter (fun x => x.copy != c)
      pages := pages.filter (fun g => !g.cells.isEmpty)
      taken := taken
      reads := taken.length }, gone, spare)

/-- Spill pages go back to pool 1. -/
def freePages (cls : Nat) (l : List Nat) (s : State) : State :=
  forEach l (fun i s =>
    (poolFree 1 i cls { s with qm := { s.qm with oldPages := s.qm.oldPages.filter (fun k => k != i) } }).2) s

/-- A copy leaves its queue: its frame entry is free again, its pages go back; the cells it held are returned for the caller.  A queue that
becomes empty, with no copy of it in transmission, has its deficit set to zero (R422). -/
def dequeue (q c cls : Nat) (s : State) : List Nat × State :=
  let s := creditSync q s
  let r := s.queueRec q
  if !r.copies.contains c then ([], s) else
  let cells := onChipOf r c
  let w := queueWithout r c
  let zero := w.1.copies.isEmpty && !queueSends s q
  let s := queuePut q { w.1 with deficit := if zero then 0 else w.1.deficit } (freePages cls w.2.1 (freeCellsQ clsRefill w.2.2 s))
  (cells, queueJoin q (s.put QM_ENTRIES_V (s.get QM_ENTRIES_V + 1)))

/-- A copy is discarded: it leaves its queue and its cells go back (R389, R433). -/
def copyDiscard (c cls : Nat) (s : State) : State :=
  let k := s.copyRec c
  let d := dequeue k.queue c cls s
  frameUnref k.frame ((freeCellsQ cls d.1 d.2).setCopy c {})

/-- The page reads under way of queue `q` are abandoned (R418); the cells they have taken are returned for the caller. -/
def readsAbandon (q : Nat) (s : State) : List Nat × State :=
  let r := s.queueRec q
  (r.taken.flatten, s.setQueue q { r with reads := 0, taken := [], refilling := false })

/-- Queue `q` is flushed (R430): its copies not begun are counted in FLUSHED, a refill in progress is abandoned (R418); the cells
are returned for the flush engine. -/
def queueFlush (q : Nat) (s : State) : List Nat × State :=
  (s.queueRec q).copies.foldl (fun (a : List Nat × State) c =>
    let k := a.2.copyRec c
    let d := dequeue q c clsQm a.2
    let s := d.2.count (QM_Q_CNT1_FLUSHED q)
    (a.1 ++ d.1, frameUnref k.frame (s.setCopy c {}))) (readsAbandon q s)

/-- A port flush starts (R430): every queue of the port at once; the cells wait for the engine. -/
def portFlushStart (p : Nat) (s : State) : State :=
  let r := (List.range 8).foldl (fun (a : List Nat × State) t =>
    let d := queueFlush (8 * p + t) a.2
    (a.1 ++ d.1, d.2)) ([], s)
  let s := { r.2 with qm := { r.2.qm with flushes := r.2.qm.flushes ++ [(p, r.1)] } }
  let s := s.setPort p { s.portRec p with flushing := true }
  (s.put QM_STATUS_FLUSH_BUSY 1).put (MAC_STATUS_FLUSH_BUSY p) 1

/-- A port flush completes: its cells are freed, and with the last flush the deferred ones (R430). -/
def portFlushEnd (p : Nat) (s : State) : State :=
  let mine := s.qm.flushes.filter (fun f => f.1 == p)
  let rest := s.qm.flushes.filter (fun f => f.1 != p)
  let s := { s with qm := { s.qm with flushes := rest } }
  let s := forEach mine (fun f s => freeCells clsQm f.2 s) s
  let s :=
    if rest.isEmpty then
      let d := s.qm.deferred
      let s := forEach d deferredApply { s with qm := { s.qm with deferred := [] } }
      (s.put QM_STATUS_FLUSH_BUSY 0).put QM_STATUS_DEFER_BUSY 0
    else s
  (s.setPort p { s.portRec p with flushing := false }).put (MAC_STATUS_FLUSH_BUSY p) 0

/-! ### Spilling (R413 to R420) -/

/-- Pages of a spill DRAM SIZE code: SIZE / 4 KiB (R413). -/
def spillPages (code : Nat) : Nat := 2 ^ (20 + code)

/-- The spill writer takes the oldest 16 cells of a staging segment as one page (R414). -/
def spillWrite (q : Nat) (s : State) : State :=
  let r := s.queueRec q
  if queueMode s q = 0 || s.stage != 0 || !spillReady s || decide (r.staging.length < 16) then s
  else
    match poolAlloc 1 clsSpill 0 s with
    | (none, s) => s
    | (some i, s) =>
      let cells := r.staging.take 16
      let s := queuePut q { r with staging := r.staging.drop 16, pages := r.pages ++ [⟨i, cells⟩] } s
      pmcEvent 0x032 .plain 1 (freeCellsQ clsSpill (cells.map (fun x => x.buf)) s)

/-- A page read is due and may start: a SPILLING queue with pages whose head fell below LOW and has not reached HIGH since, the
spill DRAM READY (R417, R419). -/
def refillDue (s : State) (q : Nat) : Bool :=
  let r := s.queueRec q
  (spillReady s || s.get QM_SPILL_STATUS_STATE == 3) && queueMode s q != 0 && decide (r.reads < r.pages.length) &&
    (r.refilling || decide (r.head.length < s.get QM_REFILL_LOW)) &&
    decide (r.head.length + 16 * r.reads < s.get QM_REFILL_HIGH)

/-- `n` cells of pool 0 for a page, of the refill engine's class, down to QM_RESERVE (R438). -/
def refillTake : Nat → State → List Nat × State
  | 0, s => ([], s)
  | n + 1, s =>
    match poolAlloc 0 clsRefill (s.get QM_RESERVE_V) s with
    | (some b, s) => let r := refillTake n s; (b :: r.1, r.2)
    | (none, s) => ([], s)

/-- The refill engine starts a page read and takes its cells (R417, R438); where the request for them fails it is counted, to be retried. -/
def refillRead (q : Nat) (s : State) : State :=
  if !refillDue s q then s
  else
    let r := s.queueRec q
    let n := (r.pages.getD r.reads ⟨0, []⟩).cells.length
    if s.get (POOL_FREE_V 0) < s.get QM_RESERVE_V + n then poolEmpty 0 (s.count QM_CNT0_REFILL_NOBUF)
    else
      let x := refillTake n s
      pmcEvent 0x033 .plain 1 (x.2.setQueue q { x.2.queueRec q with reads := r.reads + 1, taken := r.taken ++ [x.1], refilling := true })

/-- The cells of a page in the cells taken for them. -/
def refillCells (page : List QCell) (bufs : List Nat) : List QCell := List.zipWith (fun x b => { x with buf := b }) page bufs

/-- The frames whose cells a page holds. -/
def pageCopies (g : QPage) : List Nat := (g.cells.map (fun x => x.copy)).eraseDups

/-- The spilled segments are lost (R420): their frames count in FLUSHED, their pages go, and SPILL_LOST is set. -/
def spillLost (s : State) : State :=
  let qs := (s.queues.filter (fun e => !e.2.pages.isEmpty)).map (fun e => e.1)
  let s := forEach qs (fun q s =>
    let cs := ((s.queueRec q).pages.map pageCopies).flatten.eraseDups
    let s := forEach cs (fun c s => copyDiscard c clsQm (s.count (QM_Q_CNT1_FLUSHED q))) s
    let x := readsAbandon q s
    freeCellsQ clsRefill x.1 x.2) s
  if qs.isEmpty then s else s.ev QM_EVENT_SPILL_LOST

/-- The spill DRAM goes FAILED with a cause (R420). -/
def spillFail (cause : Nat) (s : State) : State :=
  let s := (s.put QM_SPILL_STATUS_STATE 5).put QM_SPILL_STATUS_CAUSE cause
  let s := (raiseMajor 7 s).ev QM_EVENT_SPILL_FAIL
  pool1Set 0 (spillLost s)

/-- The channel of the page a queue reads next: with one channel fitted, that one (R420, R446). -/
def pageChannel (s : State) (q : Nat) : Nat :=
  match (s.queueRec q).pages with
  | g :: _ => if s.on QM_SPILL_CFG_CHANNELS then Config.spillChannel g.buf % 2 else 0
  | [] => 0

/-- A page read has completed: the time-outs of its channel count anew. -/
def readGood (q : Nat) (s : State) : State :=
  { s with qm := { s.qm with timeouts := smSet 0 s.qm.timeouts (pageChannel s q) 0 } }

/-- A page read is not complete after 10 µs: it is retried, or, the third on its channel in a row, the spill DRAM fails (R420). -/
def readRetry (q : Nat) (s : State) : State :=
  if (s.queueRec q).reads = 0 ∨ !(spillReady s || s.get QM_SPILL_STATUS_STATE == 3) then s
  else
    let c := pageChannel s q
    let n := smGet 0 s.qm.timeouts c + 1
    if n < 3 then { s.count QM_CNT0_READ_RETRY with qm := { s.qm with timeouts := smSet 0 s.qm.timeouts c n } }
    else spillFail 2 { s with qm := { s.qm with timeouts := [] } }

/-- The state a spill DRAM that serves has in the present supply stage: READY, PAUSED, SELF_REFRESH in SHED3 (R419, R446, R592). -/
def spillServing (s : State) : Nat := if s.stage = 0 then 2 else if s.stage = 3 then 4 else 3

/-- Initialisation of the spill DRAM succeeds: pool 1 holds SIZE / 4 KiB pages (R413), and its state is that of the supply stage. -/
def spillInitDone (s : State) : State :=
  if s.get QM_SPILL_STATUS_STATE = 1 then
    pool1Set (spillPages (s.get QM_SPILL_CFG_SIZE)) (s.put QM_SPILL_STATUS_STATE (spillServing s))
  else s

/-- Initialisation of the spill DRAM fails or times out (R413). -/
def spillInitTimeout (s : State) : State := if s.get QM_SPILL_STATUS_STATE = 1 then spillFail 1 s else s

/-! ### Stuck queues, suspension, residence (R432 to R434) -/

/-- A queue's stuck timer runs (R432). -/
def stuckRuns (s : State) (q : Nat) : Bool :=
  s.portUp (q / 8) && !(s.queueRec q).copies.isEmpty && queueMode s q != 2 && gateOpen s (q / 8) (q % 8) && creditOk s q

/-- A stuck queue is flushed alone; the third time within 10 s it is suspended (R432, R434). -/
def stuckFlush (q : Nat) (s : State) : State :=
  let r := queueFlush q s
  let s := freeCellsQ clsQm r.1 r.2
  let s := (s.count (QM_Q_CNT2_STUCK_FLUSH q)).ev QM_EVENT_STUCK
  let times := s.now :: recent s.now (s.queueRec q).stuckAt
  let s := s.setQueue q { s.queueRec q with stuckAt := times }
  if 3 ≤ times.length then (raiseMajor 6 (s.put (QM_Q_STATUS_SUSPENDED q) 1)).ev QM_EVENT_SUSPEND else s

/-- A queue's stuck timer reaches QM_STUCK (R432). -/
def queueStuckTimeout (q : Nat) (s : State) : State := if stuckRuns s q then stuckFlush q s else s

/-- A head frame that has resided longer than QM_MAX_RESIDENCE (R433), on the 1 µs clock that counts CLK_FAB cycles: 250 ticks of
`clk`, at the safe ratio too. -/
def tooOld (s : State) (q : Nat) : Option Nat :=
  match (s.queueRec q).copies, (s.queueRec q).head with
  | c :: _, h :: _ =>
    let f := s.frameRec (s.copyRec c).frame
    if h.copy = c ∧ s.get QM_MAX_RESIDENCE_V * 1000 < s.clk / 250 - f.arrived / 250 ∧ !(s.copyRec c).sending then some c else none
  | _, _ => none

/-- Head frames past their residence are discarded, one after the other (R433). -/
def residence (q : Nat) : Nat → State → State
  | 0, s => s
  | n + 1, s =>
    match tooOld s q with
    | some c => residence q n (copyDiscard c clsQm ((s.count (QM_Q_CNT2_AGED q)).ev QM_EVENT_AGED))
    | none => s

/-- The head frame of queue `q` may be a new one: its residence is checked (R433). -/
def residenceOf (q : Nat) (s : State) : State := residence q (s.queueRec q).copies.length s

/-- A copy is discarded, and the frame that so becomes its queue's head is checked (R433). -/
def copyDrop (c cls : Nat) (s : State) : State := residenceOf (s.copyRec c).queue (copyDiscard c cls s)

/-- The spilled segments of SHED3 are not read: the reads under way are abandoned (R419). -/
def readsStop (s : State) : State :=
  forEach ((s.queues.filter (fun e => e.2.reads != 0)).map (fun e => e.1)) (fun q s =>
    let x := readsAbandon q s
    freeCellsQ clsRefill x.1 x.2) s

/-- The first page of a queue joins its head and goes back to pool 1 (R417); the last one brings the staging segment along.  The
refill ends at HIGH cells or at the last page; a frame that so becomes the head is checked for its residence (R433). -/
def pageJoin (q : Nat) (s : State) : State :=
  let r := s.queueRec q
  match r.pages with
  | [] => s
  | g :: rest =>
    let bufs := r.taken.headD []
    let new := refillCells g.cells bufs
    let go : Bool := !rest.isEmpty && decide (r.head.length + new.length < s.get QM_REFILL_HIGH)
    let s := forEach (new.map (fun x => x.buf)) cellWritten s
    let s := freeCellsQ clsRefill (bufs.drop g.cells.length) s
    let s := queuePut q { r with
      head := r.head ++ new, pages := rest, reads := r.reads - 1, taken := r.taken.drop 1, refilling := go } s
    residenceOf q (queueJoin q (freePages clsRefill [g.buf] s))

/-- The queues that hold anything. -/
def busyQueues (s : State) : List Nat := (s.queues.filter (fun e => !e.2.copies.isEmpty)).map (fun e => e.1)

/-- The sweep of every queue head (R433). -/
def residenceSweep (s : State) : State :=
  forEach (busyQueues s) residenceOf s

/-- The spill DRAM is READY again after a pause: ageing stays paused until no queue holds a page of now (R441). -/
def spillReturn (s : State) : State :=
  { s.put QM_SPILL_STATUS_STATE 2 with
    qm := { s.qm with oldPages := (s.queues.map (fun e => e.2.pages.map (fun g => g.buf))).flatten } }

/-- The age epoch advances (R441): the cells of staging segments are marked, and every pool with AGE_EN is swept; pool 1 only
while the spill DRAM is READY and holds no page from before its last return, else its pages take the epoch as their mark. -/
def ageEpoch (s : State) : State :=
  let s := { s with epoch := (s.epoch + 1) % 16 }
  let s := forEach (s.queues.map (fun e => e.2.staging)).flatten (fun x s =>
    s.setBuf 0 x.buf { s.buf 0 x.buf with age := s.epoch }) s
  let ages := spillReady s && s.qm.oldPages.isEmpty
  let s := if ages then s else forEach (allocated s 1) (fun i s => s.setBuf 1 i { s.buf 1 i with age := s.epoch }) s
  forEach (List.range 16) (fun n s =>
    if s.on (POOL_CFG_AGE_EN n) && s.on (POOL_CFG_EN n) && (n != 1 || ages) then poolSweep n s else s) s

end Sys2Proof.Machine
end

