-- ==== Sys2Proof/Machine/Insert.lean ====
section
/-!
DEFINITION. Frames as bytes: parsing (R370, R382, R391), what an egress MAC changes in a frame (R375, R394, R411), the insertion commands
with their checksums (R272 to R277), and sending.  Frames are held with their FCS as their last four bytes.
-/

namespace Sys2Proof.Machine

/-! ### Parsing -/

/-- What a pipeline reads of a frame; a field the frame does not carry is 0 (R370, R382). -/
structure Parsed where
  da : Nat
  sa : Nat
  tagged : Bool
  tvid : Nat
  pcp : Nat
  dei : Bool
  rtag : Option Nat
  etype : Nat
  off : Nat
  l3 : Nat := 0
  dscp : Nat := 0
  ecn : Nat := 0
  proto : Nat := 0
  l4s : Nat := 0
  l4d : Nat := 0
  ips : Nat := 0
  ipd : Nat := 0
  implied : Option Nat := none
  l4off : Nat := 0
  ptp : Option Nat := none
  ptpMsg : Nat := 0
deriving DecidableEq, Repr

/-- The layer-3 and layer-4 part of a frame whose EtherType payload lies at `o`. -/
def parseL3 (l : List Byte) (p : Parsed) : Parsed :=
  let o := p.off
  let ports := fun (q : Parsed) (l4 : Nat) =>
    if q.proto = 6 ∨ q.proto = 17 then
      let q := { q with l4s := fieldBE l l4 2, l4d := fieldBE l (l4 + 2) 2, l4off := l4 }
      if q.proto = 17 ∧ (q.l4d = 319 ∨ q.l4d = 320) then
        { q with ptp := some (l4 + 8), ptpMsg := byteAt l (l4 + 8) % 16 }
      else q
    else q
  if p.etype = 0x0800 then
    let q := { p with
      l3 := 1, dscp := byteAt l (o + 1) / 4, ecn := byteAt l (o + 1) % 4, proto := byteAt l (o + 9),
      ips := fieldBE l (o + 12) 4, ipd := fieldBE l (o + 16) 4, implied := some (o + fieldBE l (o + 2) 2 + 4) }
    if fieldBE l (o + 6) 2 % 8192 = 0 then ports q (o + 4 * (byteAt l o % 16)) else q
  else if p.etype = 0x86DD then
    let tc := byteAt l o % 16 * 16 + byteAt l (o + 1) / 16
    ports { p with
      l3 := 2, dscp := tc / 4, ecn := tc % 4, proto := byteAt l (o + 6), ips := fieldBE l (o + 8) 16,
      ipd := fieldBE l (o + 24) 16, implied := some (o + 40 + fieldBE l (o + 4) 2 + 4) } (o + 40)
  else if p.etype = 0x88F7 then { p with ptp := some o, ptpMsg := byteAt l o % 16 }
  else p

/-- Parsing (R373, R391): a tag with TPID 0x8100, then an R-TAG, then the EtherType. -/
def parseFrame (l : List Byte) : Parsed :=
  let tagged := fieldBE l 12 2 == 0x8100
  let o := if tagged then 16 else 12
  let tci := if tagged then fieldBE l 14 2 else 0
  let hasR := fieldBE l o 2 == 0xF1C1
  let e := if hasR then o + 6 else o
  parseL3 l {
    da := fieldBE l 0 6, sa := fieldBE l 6 6, tagged, tvid := tci % 4096, pcp := tci / 8192,
    dei := tci / 4096 % 2 == 1, rtag := if hasR then some (fieldBE l (o + 4) 2) else none,
    etype := fieldBE l e 2, off := e + 2 }

/-! ### Ones' complement sums (R276, R277, R411) -/

/-- The sum of the 16-bit big-endian words of a list. -/
def wordSum : List Byte → Nat
  | [] => 0
  | [a] => a.toNat * 256
  | a :: b :: t => a.toNat * 256 + b.toNat + wordSum t

/-- A UDP checksum corrected for words whose sum changed (RFC 1624); it is never 0, which says that there is none. -/
def sumFix (c old new : Nat) : Nat := 65535 - ((65535 - c) + new + 65535 * old - old) % 65535

/-! ### Insertion (R272 to R277) -/

/-- The outcome of an insertion command: the frame, skipped, and a correctionField that saturated. -/
structure Inserted where
  bytes : List Byte
  skip : Bool := false
  sat : Bool := false

/-- The correctionField after an addition, held in 64 signed bits (R274), and whether it was held. -/
def corrAdd (l : List Byte) (off : Nat) (d : Int) : List Byte × Bool :=
  let v := signed 64 (fieldBE l (off + 8) 8) + d
  let c := clampI (-(2 ^ 63)) (2 ^ 63 - 1) v
  (patch l (off + 8) (beBytes 8 (unsigned 64 c)), decide (c ≠ v))

/-- The field an insertion command writes (R272), without checksums; none where it does not lie inside the frame or the PTP
header is not version 2 (R275). -/
def insFields (i : InsCmd) (stamp rx : Nat) (l : List Byte) : Option Inserted :=
  let n := l.length
  let ptpOk := fun (len : Nat) => decide (i.offset + len ≤ n) && byteAt l (i.offset + 1) % 16 == 2
  match i.op with
  | 1 =>
    if ptpOk 44 then
      let t := tb96OfSns stamp
      let l := patch l (i.offset + 34) (beBytes 10 (t / 2 ^ 16))
      let r := corrAdd l i.offset (t % 2 ^ 16 : Nat)
      some ⟨r.1, false, r.2⟩
    else none
  | 2 =>
    if ptpOk 16 then
      let r := corrAdd l i.offset ((stamp : Int) - rx + i.addend)
      some ⟨r.1, false, r.2⟩
    else none
  | 3 =>
    if ptpOk 16 then
      let r := corrAdd l i.offset ((stamp : Int) - i.base + i.addend)
      some ⟨r.1, false, r.2⟩
    else none
  | 4 => if i.offset + 12 ≤ n then some ⟨patch l i.offset (beBytes 12 (tb96OfSns stamp)), false, false⟩ else none
  | _ => some ⟨l, false, false⟩

/-- The UDP checksum over IPv4 (R276): zero, or corrected where every byte is known; one that is absent stays so. -/
def fixUdp4 (upd known : Bool) (i : InsCmd) (old new : List Byte) : List Byte :=
  let c := fieldBE new (i.l4off + 6) 2
  if c = 0 then new
  else if upd && known then
    patch new (i.l4off + 6) (beBytes 2 (sumFix c (wordSum (old.drop i.l4off)) (wordSum (new.drop i.l4off))))
  else patch new (i.l4off + 6) [0, 0]

/-- UDP over IPv6 (R277): the compensation bytes after the PTP message, else the checksum itself; none where neither can be. -/
def fixUdp6 (known : Bool) (i : InsCmd) (old new : List Byte) : Option (List Byte) :=
  let len := fieldBE new (i.offset + 2) 2
  let at_ := i.offset + len
  let a := wordSum (old.drop i.l4off)
  let b := wordSum (new.drop i.l4off)
  if i.op ≠ 4 ∧ len + 10 ≤ fieldBE new (i.l4off + 4) 2 ∧ at_ + 2 ≤ new.length then
    let c := fieldBE new at_ 2
    if (at_ - i.l4off) % 2 = 0 then some (patch new at_ (beBytes 2 ((c + a + 65535 * b - b) % 65535)))
    else
      let w := (c / 256 + c % 256 * 256 + a + 65535 * b - b) % 65535
      some (patch new at_ (beBytes 2 (w / 256 + w % 256 * 256)))
  else if known then
    some (patch new (i.l4off + 6) (beBytes 2 (sumFix (fieldBE new (i.l4off + 6) 2) a b)))
  else none

/-- The place behind the last byte a command writes, its checksum apart (R272). -/
def insEnd (i : InsCmd) : Nat := i.offset + (if i.op = 1 then 44 else if i.op = 4 then 12 else 16)

/-- An insertion command executed on a frame without its FCS (R272 to R277), of which `had` bytes were at hand when it began, or all of
them (`stored`).  A UDP checksum that does not lie inside the frame is a field named outside it (R275). -/
def insApply (upd stored : Bool) (had : Nat) (i : InsCmd) (stamp rx : Nat) (l : List Byte) : Inserted :=
  if 4 < i.op ∨ i.l4 = 3 then ⟨l, true, false⟩
  else if i.op = 0 then ⟨l, false, false⟩
  else if i.l4 ≠ 0 ∧ l.length < i.l4off + 8 then ⟨l, true, false⟩
  else
    match insFields i stamp rx l with
    | none => ⟨l, true, false⟩
    | some r =>
      if i.l4 = 1 then { r with bytes := fixUdp4 upd (stored || decide (insEnd i ≤ had)) i l r.bytes }
      else if i.l4 = 2 then
        match fixUdp6 stored i l r.bytes with
        | some b => { r with bytes := b }
        | none => ⟨l, true, false⟩
      else r

/-! ### Egress edits (R375, R394, R411) -/

/-- The IPv4 header checksum corrected for a word of the header (RFC 1624, equation 3; R411). -/
def headFix (c old new : Nat) : Nat :=
  let x := (65535 - c) + (65535 - old) + new
  65535 - (if x = 0 then 0 else (x - 1) % 65535 + 1)

/-- A CE mark: ECN is 0b11, and the IPv4 header checksum is corrected (R411). -/
def markCe (p : Parsed) (l : List Byte) : List Byte :=
  let o := p.off
  if p.l3 = 1 then
    let new := patch l (o + 1) [BitVec.ofNat 8 (byteAt l (o + 1) / 4 * 4 + 3)]
    let a := wordSum ((l.drop o).take 2)
    let b := wordSum ((new.drop o).take 2)
    patch new (o + 10) (beBytes 2 (headFix (fieldBE l (o + 10) 2) a b))
  else if p.l3 = 2 then patch l (o + 1) [BitVec.ofNat 8 (byteAt l (o + 1) % 16 + (byteAt l (o + 1) / 64 * 4 + 3) * 16)]
  else l

/-- A copy as its egress port sends it, without FCS: tag, R-TAG and ECN as decided; and how far the bytes behind the tags moved. -/
def egressEdit (f : FrameRec) (c : CopyRec) : List Byte × Int :=
  let l := f.bytes.take (f.bytes.length - 4)
  let p := parseFrame l
  let l := if c.ce then markCe p l else l
  let vt := if p.tagged then 16 else 12
  let tag : List Byte := if c.untag then [] else [0x81, 0x00] ++ beBytes 2 (f.pcp * 8192 + (if f.dei then 4096 else 0) + f.vid)
  let rt : List Byte :=
    if f.push then [0xF1, 0xC1, 0, 0] ++ beBytes 2 (f.seqNo.getD 0)
    else if f.pop then []
    else if p.rtag.isSome then (l.drop vt).take 6 else []
  let out := l.take 12 ++ tag ++ rt ++ l.drop (p.off - 2)
  let out := out ++ List.replicate (60 - out.length) 0
  (out, (12 + tag.length + rt.length + 2 : Nat) - (p.off : Int))

/-- An insertion command moved with the bytes it names. -/
def insShift (i : InsCmd) (d : Int) : InsCmd :=
  { i with offset := ((i.offset : Int) + d).toNat, l4off := ((i.l4off : Int) + d).toNat }

/-- The FCS of a frame: four bytes, the lowest first. -/
def fcsOf (l : List Byte) : List Byte := leBytes 4 (crc32 l).toNat

/-! ### Port counters and sending (R281 to R283, R669 to R671) -/

/-- Clause 30 counter `k` of port `p` counts `n`; P64 keeps only 0, 1, 4 and 5 (R669). -/
def c30 (p k n : Nat) (s : State) : State :=
  if p = 64 ∧ k ≠ 0 ∧ k ≠ 1 ∧ k ≠ 4 ∧ k ≠ 5 then s
  else s.putWide (MAC_C30 p k) (s.wide (MAC_C30 p k) + n)

/-- Octets of data and padding in a frame of `n` bytes (Clause 30; log entry 31). -/
def dataOctets (n : Nat) : Nat := n - 18

/-- A group address, by its first octet. -/
def isGroup (l : List Byte) : Bool := (l.getD 0 0).getLsbD 0

/-- The broadcast address. -/
def isBroadcast (l : List Byte) : Bool := fieldBE l 0 6 == 2 ^ 48 - 1

/-- A frame has left port `p`: a stomped one counts as such, any other as transmitted (R283, R670, R671). -/
def countSent (p tc : Nat) (l : List Byte) (stomped : Bool) (s : State) : State :=
  if stomped then pmcEvent 0x025 .plain 1 ((s.count (MAC_CNT0_STOMP p)).ev (MAC_EVENT_STOMP p))
  else
    let s := c30 p 4 (dataOctets l.length) (c30 p 0 1 s)
    let s := if isBroadcast l then c30 p 7 1 s else if isGroup l then c30 p 6 1 s else s
    pmcEvent (0x200 + p) (.frame tc) l.length (pmcEvent (0x100 + p) (.frame tc) 1 s)

/-- A frame is received on port `p`, judged good or bad (R389, R669 to R671). -/
def countReceived (p tc : Nat) (l : List Byte) (fcsBad tooLong : Bool) (s : State) : State :=
  let s := pmcEvent (0x280 + p) (.frame tc) l.length (pmcEvent (0x180 + p) (.frame tc) 1 s)
  if tooLong then c30 p 10 1 s
  else if fcsBad then c30 p 2 1 s
  else
    let s := c30 p 5 (dataOctets l.length) (c30 p 1 1 s)
    if isBroadcast l then c30 p 9 1 s else if isGroup l then c30 p 8 1 s else s

/-- The FCS of a frame as it goes out, inverted where it is stomped (R281). -/
def fcsSent (l : List Byte) (stomped : Bool) : List Byte := if stomped then (fcsOf l).map (fun b => ~~~b) else fcsOf l

/-- A stomped frame ends with an error control block on a 64b/66b port (R281). -/
def stompTail (p : Nat) (stomped : Bool) (s : State) : State :=
  if stomped && s.rate p != 0 then s.send (.errorBlock p) else s

/-! ### mPackets (R474; the encodings of IEEE 802.3-2022 Clause 99, PRESUMED, log entry 163) -/

/-- SMD-S of a preemptable frame's number, SMD-C of its continuations, and the fragment counts' codes. -/
def smdStart (n : Nat) : Byte := ([0xE6, 0x4C, 0x7F, 0xB3] : List Byte).getD n 0xE6
def smdCont (n : Nat) : Byte := ([0x61, 0x52, 0x9E, 0x2A] : List Byte).getD n 0x61
def fragCode (n : Nat) : Byte := ([0xE6, 0x4C, 0x7F, 0xB3] : List Byte).getD n 0xE6

/-- SMD-V and SMD-R. -/
def smdVerify : Byte := 0x07
def smdRespond : Byte := 0x19

/-- The mCRC after bytes of a frame: their FCS with its last two bytes inverted. -/
def mCrc (l : List Byte) : List Byte := (fcsOf l).zipIdx.map (fun x => if x.2 < 2 then x.1 else ~~~x.1)

/-- A verify or respond mPacket: sixty bytes of zero. -/
def smdPacket (smd : Byte) : List Byte := smd :: (List.replicate 60 0 ++ mCrc (List.replicate 60 0))

/-- The head of fragment `i` of preemptable frame `num`. -/
def fragHead (num i : Nat) : List Byte := if i = 0 then [smdStart num] else [smdCont num, fragCode ((i - 1) % 4)]

/-- The mPackets of a frame with its FCS, from fragment `i` on, which begins at byte `o`, cut at the places given. -/
def mPackets (num : Nat) (all : List Byte) : Nat → Nat → List Nat → List (List Byte)
  | i, o, [] => [fragHead num i ++ all.drop o]
  | i, o, c :: t => (fragHead num i ++ (all.take c).drop o ++ mCrc (all.take c)) :: mPackets num all (i + 1) c t

/-- What port `p` puts on the line is looped back where its lanes are (R244): an mPacket, or a frame. -/
def loopPut (p : Nat) (m : Bool) (l : List Byte) (s : State) : State :=
  if portLooped s p then s.setPort p { s.portRec p with looped := (s.portRec p).looped ++ [(m, l)] } else s

/-- mPackets go out on port `p`. -/
def sendMpackets (p : Nat) (l : List (List Byte)) (s : State) : State :=
  forEach l (fun b s => loopPut p true b (s.send (.mpacket p b))) s

/-- A frame without its FCS goes out on port `p` with its FCS, inverted where it is stomped (R273, R281): as a frame, or, preemptable, as the
mPackets that have not gone yet (R474); in loop-back it reaches the port's own receiver too (R244). -/
def sendFrame (p tc : Nat) (l : List Byte) (stomped : Bool) (t : TxRec) (s : State) : State :=
  let all := l ++ fcsSent l stomped
  let s := if t.pre then sendMpackets p ((mPackets t.num all 0 0 t.cuts).drop t.shown) s
    else loopPut p false all (s.send (.frame p all stomped))
  countSent p tc all stomped (stompTail p stomped s)

/-- The flags of an insertion's outcome on port `p` (R274, R275). -/
def insFlags (p : Nat) (r : Inserted) (s : State) : State :=
  let s := if r.skip then (s.count (MAC_CNT0_INS_SKIP p)).ev (MAC_EVENT_INS_SKIP p) else s
  if r.sat then (s.count (MAC_CNT2_CF_SAT p)).ev (MAC_EVENT_CF_SAT p) else s

/-- `n` buffers of pool 2 for a class, or none of them (R280, R655). -/
def cpuBuffers (cls : Nat) : Nat → State → List Nat × State
  | 0, s => ([], s)
  | n + 1, s =>
    match poolAlloc 2 cls 0 s with
    | (none, s) => ([], s)
    | (some i, s) => let r := cpuBuffers cls n s; (i :: r.1, r.2)

/-- A loop-back copy for P64, with the transmit stamp and its flags (R280, R656); dropped where pool 2 has too few buffers. -/
def loopback (p tc : Nat) (bytes : List Byte) (stamp : Nat) (skip stomped : Bool) (s : State) : State :=
  let n := (bytes.length + 255) / 256
  if s.get (POOL_FREE_V 2) < n ∨ !s.on (POOL_CFG_EN 2) then (poolEmpty 2 s).count (MAC_CNT2_LB_DROP p)
  else
    let a := cpuBuffers clsMacLb n s
    let s := a.2
    let flags := 1 + (if skip then 2 else 0) + (if stomped then 4 else 0) + (if s.tbState = 0 then 8 else 0) + (if txFine s p then 32 else 0)
    { s with mgt := { s.mgt with loops := s.mgt.loops ++ [⟨bytes, p, tc, stamp, flags, a.1⟩] } }

/-- A copy as it leaves from its cells, without its FCS: edits and insertion with its transmit stamp (R375, R394, R411, R272). -/
def copyOut (s : State) (c : Nat) (cells : List Nat) : Inserted :=
  let k := s.copyRec c
  let f := s.frameRec k.frame
  let f := { f with bytes := asStored s cells f.bytes }
  let e := egressEdit f k
  insApply (s.on (MAC_CFG_UDP4_MODE k.port)) (!k.cut || k.whole) (((k.had : Int) + e.2).toNat) (insShift k.ins e.2) k.stamp f.stamp e.1

/-- A copy is to be stomped (R281, R282): a bad frame, one with a poisoned cell that was already leaving (R549), one with a bad word in its
express buffer (R537), and one that gating interrupts. -/
def copyBad (s : State) (c : Nat) : Bool :=
  let k := s.copyRec c
  let f := s.frameRec k.frame
  !f.good || f.poisoned || f.poison || k.stomp

/-- A copy has left: it is put out as it left, stomped or not, with its loop-back copy (R273, R280 to R283). -/
def sendCopy (c : Nat) (t : TxRec) (s : State) : State :=
  let k := s.copyRec c
  let r := copyOut s c t.cells
  let bad := copyBad s c || t.stomp
  let s := insFlags k.port r s
  let s := sendFrame k.port (k.queue % 8) r.bytes bad t s
  let s := if k.cut then pmcEvent 0x024 (.frame (k.queue % 8)) 1 s else s
  if k.ins.loopback then loopback k.port (k.queue % 8) (r.bytes ++ fcsSent r.bytes bad) k.stamp r.skip bad s else s

end Sys2Proof.Machine
end

