-- ==== Sys2Proof/Machine/FmCore.lean ====
section
/-!
DEFINITION. The Ferryman's sessions and messages (R323 to R345): session states and what follows them, identities, the frames it
builds, the matching of received PTP frames, and handing over to the egress.
-/

namespace Sys2Proof.Machine

/-! ### Sessions -/

/-- The domain of session `k`. -/
def sessDom (s : State) (k : Nat) : Nat := s.get (FM_SESS_CFG_DOMAIN k)

/-- The port of session `k`. -/
def sessPort (s : State) (k : Nat) : Nat := s.get (FM_SESS_CFG_PORT k)

/-- The state of session `k` (R367): 1 INITIALIZING, 2 FAULTY, 3 DISABLED, 4 LISTENING, 5 PRE_MASTER, 6 MASTER, 7 PASSIVE,
8 UNCALIBRATED, 9 SLAVE. -/
def sessState (s : State) (k : Nat) : Nat := s.get (FM_SESS_STATUS_STATE k)

/-- The committed sessions, rising (R329). -/
def committed (s : State) : List Nat := (s.sess.filter (fun e => e.2.committed)).map (fun e => e.1)

/-- The committed sessions of a domain. -/
def domSess (s : State) (d : Nat) : List Nat := (committed s).filter (fun k => sessDom s k == d)

/-- The role of a domain is a transparent clock's. -/
def domTc (s : State) (d : Nat) : Bool := decide (2 ≤ s.get (FM_DOM_CFG_ROLE d))

/-- The profile of a domain (R325). -/
def domProfile (s : State) (d : Nat) : Nat := s.get (FM_DOM_CFG_PROFILE d)

/-- The profile is GPTP. -/
def gptp (s : State) (d : Nat) : Bool := domProfile s d == 2

/-- A session is receiving (R351), as a PASSIVE one with MEASURE = 1, or held by the pair, is (R571). -/
def sessReceiving (s : State) (k : Nat) : Bool :=
  sessState s k == 9 || (sessState s k == 7 && (s.on (FM_SESS_CFG_MEASURE k) || (s.sessRec k).held))

/-- A state decision of domain `d` is due at once (R340). -/
def decideNote (d : Nat) (s : State) : State :=
  if s.fm.decide.contains d then s else { s with fm := { s.fm with decide := s.fm.decide ++ [d] } }

/-- A session takes offsets from Sync: receiving, or UNCALIBRATED (R333, R351). -/
def takesSync (s : State) (k : Nat) : Bool := sessReceiving s k || sessState s k == 8

/-- A session takes part in its domain's messages: neither INITIALIZING, FAULTY nor DISABLED. -/
def sessLive (s : State) (k : Nat) : Bool := decide (4 ≤ sessState s k)

/-- The lane of a session's port is SYNTONOUS. -/
def sessSynt (s : State) (k : Nat) : Bool := sessPort s k != 64 && s.on (LN_STATUS_CLOCK_EFF (portLane (sessPort s k)))

/-- The L1Sync state of session `k` (R334, R367): 0 where L1Sync does not run. -/
def l1State (s : State) (k : Nat) : Nat :=
  if !s.on (FM_SESS_CFG_L1SYNC_EN k) || domProfile s (sessDom s k) != 1 || sessState s k == 3 then 0
  else
    match (s.sessRec k).l1Peer with
    | none => 1
    | some v => if v % 8 ≠ 7 then 2 else if v / 8 = 7 ∧ sessSynt s k then 4 else 3

/-- RECEIVING, L1SYNC and DEGRADED of a session follow its state, its peer and its lane (R334, R351). -/
def sessRefresh (k : Nat) (s : State) : State :=
  let rx := sessReceiving s k
  let l1 := l1State s k
  let bad := sessState s k != 3 && domProfile s (sessDom s k) == 1 && (l1 != 4 || !sessSynt s k)
  ((s.putB (FM_SESS_STATUS_RECEIVING k) rx).put (FM_SESS_STATUS_L1SYNC k) l1).putB (FM_SESS_STATUS_DEGRADED k) bad

/-- The session in SLAVE of a domain. -/
def slaveOf (s : State) (d : Nat) : Option Nat := (domSess s d).find? (fun k => sessState s k == 9)

/-- SLAVE_SESS, SLAVE_VALID and TREF_VALID of a domain follow its sessions (R351); a reference that becomes invalid is lost. -/
def trefRefresh (d : Nat) (s : State) : State :=
  let sl := slaveOf s d
  let v := match sl with
    | some k => (s.sessRec k).syncGood
    | none => false
  let was := s.on (FM_DOM_STATUS_TREF_VALID d)
  let s := (s.put (FM_DOM_STATUS_SLAVE_SESS d) (sl.getD 0)).putB (FM_DOM_STATUS_SLAVE_VALID d) sl.isSome
  let s := s.putB (FM_DOM_STATUS_TREF_VALID d) v
  if was && !v then sourceLost d s else s

/-- A session takes a state; what depends on it follows, and at entry to LISTENING the expiry of its Announce receipt timer is still to
come (R333). -/
def sessSet (k st : Nat) (s : State) : State :=
  let s := if st = 4 ∧ sessState s k ≠ 4 then s.setSess k { s.sessRec k with annDone := false } else s
  trefRefresh (sessDom s k) (sessRefresh k (s.put (FM_SESS_STATUS_STATE k) st))

/-- Foreign-master records, pending exchanges, D_f, run and accepted offset are cleared (R333, R356). -/
def sessClear (k : Nat) (s : State) : State :=
  let r := s.sessRec k
  let s := s.setSess k { r with
    foreign := [], annDone := false, syncGood := false, waitFu := none, syncs := [], exch := none, pexch := none,
    answering := [], dfSet := false, dRun := [], acc := none, accAt := none, run := [], confirm := 0, nrr := [],
    parentKey := none, l1Peer := none, held := false, syncOut := false }
  (s.putWide (FM_SESS_OFFSET k) 0).putWide (FM_SESS_DELAY k) 0

/-- A session goes to DISABLED (R333). -/
def sessDisable (k : Nat) (s : State) : State :=
  if (s.sessRec k).committed then
    let s := sessClear k s
    sessSet k 3 (s.setSess k { s.sessRec k with committed := false })
  else s

/-- A session suspended: DISABLED, a major alarm and its event (R355, R356). -/
def sessSuspend (k : Nat) (s : State) : State :=
  ((raiseMajor 4 (sessDisable k (s.put (FM_SESS_STATUS_SUSPENDED k) 1))).ev FM_EVENT_SESS_SUSPEND)

/-- A session reset (R333, R356), none in DISABLED or FAULTY; `counts` says whether it counts under R355, where the third in 10 s
suspends the session. -/
def sessReset (counts : Bool) (k : Nat) (s : State) : State :=
  if !(s.sessRec k).committed ∨ sessState s k = 2 then s else
  let s := sessClear k ((s.count (FM_SESS_CNT3_RESETS k)).ev FM_EVENT_SESS_RESET)
  let s := sessSet k 1 (s.setSess k { s.sessRec k with resetsAt := s.now :: recent s.now (s.sessRec k).resetsAt })
  if counts then
    let times := s.now :: recent s.now (s.sessRec k).stallsAt
    let s := s.setSess k { s.sessRec k with stallsAt := times }
    if 3 ≤ times.length then sessSuspend k s else s
  else s

/-! ### Identities and fields -/

/-- An octet string of a number, the most significant first. -/
def ptpPortId (clock port : Nat) : List Byte := beBytes 8 clock ++ beBytes 2 port

/-- The clockIdentity of a domain. -/
def domClockId (s : State) (d : Nat) : Nat := s.wide (FM_DOM_ID d)

/-- A port identity of a session: the domain's clockIdentity and p + 1 (R328). -/
def sessId (s : State) (k : Nat) : Nat × Nat := (domClockId s (sessDom s k), sessPort s k + 1)

/-- The signed value of a log-interval field of four bits. -/
def logOf (v : Nat) : Int := signed 4 v

/-- 2^n seconds in CLK_TIME ticks, from n = -7 up (R338). -/
def intervalTicks (n : Int) : Nat := if 0 ≤ n then 250000000 * 2 ^ n.toNat else 250000000 / 2 ^ (-n).toNat

/-- The whole nanoseconds of a time (2^-16 ns) as a 10-byte timestamp. -/
def timestamp (t : Int) : List Byte :=
  let t := (t % (spanSns : Int)).toNat
  beBytes 6 (t / (1000000000 * 2 ^ 16)) ++ beBytes 4 (t % (1000000000 * 2 ^ 16) / 2 ^ 16)

/-- The remainder of a time below 1 ns. -/
def remainder (t : Int) : Int := t % 2 ^ 16

/-- The time of a 10-byte timestamp at an offset, in 2^-16 ns. -/
def timestampAt (l : List Byte) (k : Nat) : Int :=
  ((fieldBE l k 6 * 1000000000 + fieldBE l (k + 6) 4) * 2 ^ 16 : Nat)

/-! ### Frames (R331) -/

/-- Whether a message type is an event message. -/
def isEvent (ty : Nat) : Bool := decide (ty < 4)

/-- Whether a message type is a peer-delay message. -/
def isPeer (ty : Nat) : Bool := ty == 2 || ty == 3 || ty == 10

/-- The PTP header and body of a message (R325, IEEE 1588-2019 Clause 13). -/
def ptpMessage (s : State) (k ty flags : Nat) (corr : Int) (seq : Nat) (logInt : Int) (body : List Byte) : List Byte :=
  let d := sessDom s k
  let id := sessId s k
  let ctl := if gptp s d then 0 else if ty = 0 then 0 else if ty = 1 then 1 else if ty = 8 then 2 else if ty = 9 then 3 else 5
  [BitVec.ofNat 8 ((if gptp s d then 16 else 0) + ty), 0x12] ++ beBytes 2 (34 + body.length) ++
    [BitVec.ofNat 8 (s.get (FM_DOM_CFG_DOMAIN_NUMBER d)), 0] ++ beBytes 2 flags ++ beBytes 8 (unsigned 64 corr) ++
    beBytes 4 0 ++ ptpPortId id.1 id.2 ++ beBytes 2 seq ++ [BitVec.ofNat 8 ctl] ++ beBytes 1 (unsigned 8 logInt) ++ body

/-- The address 01-80-C2-00-00-0E. -/
def macPeer : Nat := 0x0180C200000E

/-- The address 01-1B-19-00-00-00. -/
def macPtp : Nat := 0x011B19000000

/-- The IPv4 multicast addresses of R331: peer delay, and all else. -/
def ip4Peer : Nat := 0xE000006B
def ip4Ptp : Nat := 0xE0000181

/-- The IPv6 multicast addresses of R331. -/
def ip6Peer : Nat := 0xFF020000000000000000000000000000 + 0x6B
def ip6Ptp : Nat := 0xFF020000000000000000000000000000 + 0x181

/-- The Ethernet destination of a message of a session (R325, R331). -/
def ptpDest (s : State) (k ty : Nat) : Nat :=
  match s.get (FM_SESS_CFG_TRANSPORT k) with
  | 1 => if isPeer ty then 0x01005E00006B else 0x01005E000181
  | 2 => if isPeer ty then 0x33330000006B else 0x333300000181
  | _ =>
    if isPeer ty || gptp s (sessDom s k) || s.on (FM_SESS_CFG_DA_SEL k) then macPeer else macPtp

/-- The ones' complement checksum of a list of bytes. -/
def inetSum (l : List Byte) : Nat := 65535 - (if wordSum l % 65535 = 0 ∧ wordSum l ≠ 0 then 65535 else wordSum l % 65535)

/-- A UDP checksum as sent: a computed zero goes out as all ones. -/
def udpSum (l : List Byte) : Nat := if inetSum l = 0 then 65535 else inetSum l

/-- A frame of the Ferryman, without FCS, with the offsets of its PTP header and of its UDP header, and its L4 code (R331). -/
def ptpFrame (s : State) (k ty : Nat) (msg : List Byte) : List Byte × Nat × Nat × Nat :=
  let p := sessPort s k
  let tag : List Byte := if s.on (FM_SESS_VLAN_TAGGED k) then
    [0x81, 0x00] ++ beBytes 2 (s.get (FM_SESS_VLAN_PCP k) * 8192 + s.get (FM_SESS_VLAN_VID k)) else []
  let head := beBytes 6 (ptpDest s k ty) ++ beBytes 6 (s.wide (FM_PORT_MAC p)) ++ tag
  let udpPort := if isEvent ty then 319 else 320
  match s.get (FM_SESS_CFG_TRANSPORT k) with
  | 1 =>
    let n := 8 + msg.length
    let src := beBytes 4 (s.get (FM_PORT_IP4_V p))
    let dst := beBytes 4 (if isPeer ty then ip4Peer else ip4Ptp)
    let ip := fun (c : Nat) => ([0x45, 0] : List Byte) ++ beBytes 2 (20 + n) ++ beBytes 4 0 ++
      [if isPeer ty then 1 else 64, 17] ++ beBytes 2 c ++ src ++ dst
    let udp := fun (c : Nat) => beBytes 2 udpPort ++ beBytes 2 udpPort ++ beBytes 2 n ++ beBytes 2 c ++ msg
    let c := if s.on (MAC_CFG_UDP4_MODE p) then udpSum (src ++ dst ++ beBytes 2 17 ++ beBytes 2 n ++ udp 0) else 0
    let l := head ++ [0x08, 0x00] ++ ip (inetSum (ip 0)) ++ udp c
    (l, head.length + 30, head.length + 22, 1)
  | 2 =>
    let msg := msg ++ [0, 0]
    let n := 8 + msg.length
    let src := beBytes 16 (s.wide (FM_PORT_IP6 p))
    let dst := beBytes 16 (if isPeer ty then ip6Peer else ip6Ptp)
    let ip := ([0x60, 0, 0, 0] : List Byte) ++ beBytes 2 n ++ [17, if isPeer ty then 1 else 64] ++ src ++ dst
    let udp := fun (c : Nat) => beBytes 2 udpPort ++ beBytes 2 udpPort ++ beBytes 2 n ++ beBytes 2 c ++ msg
    let c := udpSum (src ++ dst ++ beBytes 4 n ++ beBytes 4 17 ++ udp 0)
    let l := head ++ [0x86, 0xDD] ++ ip ++ udp c
    (l, head.length + 50, head.length + 42, 2)
  | _ => (head ++ [0x88, 0xF7] ++ msg, head.length + 2, 0, 0)

/-- A frame for port `p` that is not UP is dropped at the egress: its buffer goes back, it counts, no stamp returns (R339). -/
def ferryDrop (p : Nat) (o : OrigMsg) (s : State) : State :=
  let s := (poolFree 3 o.buf clsFerryman s).2
  let s := pmcEvent 0x022 (.frame 7) 1 (s.count (MAC_CNT1_DROPPED p))
  let r := s.sessRec o.sess
  match o.kind with
  | 1 => s.setSess o.sess { r with exch := none }
  | 2 => s.setSess o.sess { r with pexch := none }
  | 3 => s.setSess o.sess { r with answering := r.answering.filter (fun q => q.seq != o.seq) }
  | _ => s

/-- The Ferryman's frames that the egress of port `p` holds are dropped (R339). -/
def ferryDropAll (p : Nat) (s : State) : State :=
  let l := (s.portRec p).ferry
  if l.isEmpty then s
  else forEach l (ferryDrop p) (s.setPort p { s.portRec p with ferry := [] })

/-- A message is sent on session `k`: a pool 3 buffer, the frame, and the egress; the Boolean says that it was (R337, R339). -/
def fmSend (k ty flags : Nat) (corr : Int) (seq : Nat) (logInt : Int) (body : List Byte) (op kind : Nat) (base : Nat)
    (s : State) : Bool × State :=
  match poolAlloc 3 clsFerryman 0 s with
  | (none, s) => (false, (s.count FM_CNT0_POOL_EMPTY).ev FM_EVENT_POOL_EMPTY)
  | (some b, s) =>
    let msg := ptpMessage s k ty flags corr seq logInt body
    let f := ptpFrame s k ty msg
    let l := f.1 ++ List.replicate (60 - f.1.length) 0
    let ins : InsCmd := { op := op, l4 := f.2.2.2, offset := f.2.1, l4off := f.2.2.1, base := base }
    let o : OrigMsg := { bytes := l, ins := ins, sess := k, kind := kind, seq := seq, buf := b }
    let s := pmcEvent 0x041 .plain 1 (s.count (FM_SESS_CNT0_TX k))
    let p := sessPort s k
    if s.portUp p then (true, s.setPort p { s.portRec p with ferry := (s.portRec p).ferry ++ [o] })
    else (true, ferryDrop p o s)

/-! ### Matching received frames (R324, R332, R345) -/

/-- What becomes of a PTP frame. -/
inductive PtpFate where
  | ordinary
  | session (k : Nat)
  | noSession
  | unsupported
  | transit (d k : Nat)
deriving DecidableEq, Repr

/-- The frame carries one of the PTP destination addresses (R325, R331, R332). -/
def ptpAddressed (p : Parsed) : Bool :=
  if p.l3 = 1 then p.ipd == ip4Peer || p.ipd == ip4Ptp
  else if p.l3 = 2 then p.ipd == ip6Peer || p.ipd == ip6Ptp
  else p.da == macPtp || p.da == macPeer

/-- The tagging of a frame is that of session `k` (R332). -/
def ptpTagging (s : State) (k : Nat) (p : Parsed) : Bool :=
  if s.on (FM_SESS_VLAN_TAGGED k) then p.tagged && p.tvid == s.get (FM_SESS_VLAN_VID k) else !p.tagged

/-- The enabled domain whose number and majorSdoId a message carries (R332). -/
def ptpDomain (s : State) (sdo num : Nat) : Option Nat :=
  (List.range 4).find? (fun d => s.on (FM_DOM_CFG_EN d) && s.get (FM_DOM_CFG_DOMAIN_NUMBER d) == num &&
    (if gptp s d then 1 else 0) == sdo)

/-- Whether the Ferryman takes messages of a type (R323, R324). -/
def ptpSupported (ty : Nat) : Bool := ([0, 1, 2, 3, 8, 9, 10, 11, 12] : List Nat).contains ty

/-- What becomes of a frame received on port `p` (R324, R332, R345, R360). -/
def ptpFate (s : State) (port : Nat) (l : List Byte) (p : Parsed) : PtpFate :=
  match p.ptp with
  | none => .ordinary
  | some o =>
    if !s.on FM_CTRL_EN || !ptpAddressed p then .ordinary
    else
      match ptpDomain s (byteAt l o / 16) (byteAt l (o + 4)) with
      | none => .ordinary
      | some d =>
        match (domSess s d).find? (fun k => sessPort s k == port) with
        | none => .noSession
        | some k =>
          if !ptpTagging s k p then .ordinary
          else if !ptpSupported p.ptpMsg || byteAt l (o + 1) % 16 != 2 then .unsupported
          else if domTc s d && !isPeer p.ptpMsg then .transit d k
          else .session k

/-- What is known as the SFD of a frame of port `p` crosses the timestamp point at `sfd` (ps) (R311, R335, R525). -/
def ctxSnap (s : State) (p sfd : Nat) : CtxSnap :=
  { gen := trimGenAt s p sfd, epoch := s.get TB_EPOCH_V,
    doms := (List.range 4).map (fun d => ((s.domRec d).gain, doffSns s d)), at_ := s.clk }

/-- What of it concerns domain `d`. -/
def stampCtx (x : CtxSnap) (d : Nat) : StampCtx :=
  { gen := x.gen, epoch := x.epoch, gain := (x.doms.getD d (0, 0)).1, doff := (x.doms.getD d (0, 0)).2, at_ := x.at_ }

/-- A frame arrives on port `p` (R263, R264, R311). -/
def arrival (s : State) (p : Nat) (rx : RxTiming) : Arrival :=
  let st := rxStamp s p rx
  { stamp := st.1, fine := st.2, ctx := ctxSnap s p (s.nowPs - rx.ago * 800),
    fab := 5 * (s.clk : Int) - rx.ago, frac := rxFrac s p rx }

/-- A PTP message read from a frame (R332, R335), its stamp in 2^-16 ns and what was known with it. -/
def ptpRead (k o : Nat) (l : List Byte) (stamp : Nat) (x : StampCtx) (buf : Nat) : PtpMsg :=
  let n := fieldBE l (o + 2) 2
  let body := (l.drop (o + 34)).take (n - 34)
  { sess := k, ty := byteAt l o % 16, srcId := fieldBE l (o + 20) 8, srcPort := fieldBE l (o + 28) 2,
    seq := fieldBE l (o + 30) 2, flags := fieldBE l (o + 6) 2, corr := signed 64 (fieldBE l (o + 8) 8),
    logInt := signed 8 (byteAt l (o + 33)), ts := timestampAt body 0, body := body, stamp := stamp,
    gen := x.gen, epoch := x.epoch, gain := x.gain, doff := x.doff, at_ := x.at_, buf := buf }

/-- A message enters the receive queue (R335, R337). -/
def fmReceive (k o : Nat) (l : List Byte) (stamp : Nat) (x : StampCtx) (s : State) : State :=
  if 32 ≤ s.fm.rxq.length then (s.count FM_CNT0_RX_OVERLOAD).ev FM_EVENT_OVERLOAD
  else
    match poolAlloc 3 clsFerryman 0 s with
    | (none, s) => (s.count FM_CNT0_POOL_EMPTY).ev FM_EVENT_POOL_EMPTY
    | (some b, s) =>
      let q := s.fm.rxq ++ [ptpRead k o l stamp x b]
      let s := pmcEvent 0x040 .plain 1 ({ s with fm := { s.fm with rxq := q } } : State)
      s.put FM_STATUS_QMAX (max (s.get FM_STATUS_QMAX) q.length)

/-- A timer stops; one that is to go on runs afresh from the end of the command (log entry 140). -/
def timerStop (kind : TimerKind) (k : Nat) (s : State) : State :=
  let keep := fun (t : FmTimer) => !(t.kind == kind && t.who == k)
  { s with fm := { s.fm with wheel := s.fm.wheel.filter keep, timerq := s.fm.timerq.filter keep } }

end Sys2Proof.Machine
end

