-- ==== Sys2Proof/Machine/FmBmca.lean ====
section
/-!
DEFINITION. Best master selection (R333, R340 to R342): data sets and their comparison, foreign-master records, the state decision of
a domain, the parent.
-/

namespace Sys2Proof.Machine

/-- A data set as the BMCA compares it (IEEE 1588-2019 Clause 9.3): the grandmaster's attributes, stepsRemoved, the sender's and
the receiver's port identities, and the localPriority of G.8275.1. -/
structure DataSet where
  prio1 : Nat
  cls : Nat
  acc : Nat
  var : Nat
  prio2 : Nat
  gm : Nat
  steps : Nat
  sender : Nat × Nat
  rcv : Nat × Nat
  localPrio : Nat
deriving DecidableEq, Repr

/-- The outcomes of a comparison of A with B. -/
inductive Cmp where
  | better | betterTopo | worseTopo | worse
deriving DecidableEq, Repr

/-- The first difference of two lists of numbers, the lower being better. -/
def firstLess : List (Nat × Nat) → Option Bool
  | [] => none
  | (a, b) :: t => if a < b then some true else if b < a then some false else firstLess t

/-- The part of the comparison for one grandmaster: stepsRemoved, senders, receivers. -/
def cmpTopo (a b : DataSet) : Cmp :=
  if a.steps + 1 < b.steps then .better
  else if b.steps + 1 < a.steps then .worse
  else if a.steps < b.steps then (if b.rcv.1 < b.sender.1 then .better else .betterTopo)
  else if b.steps < a.steps then (if a.rcv.1 < a.sender.1 then .worse else .worseTopo)
  else
    match firstLess [(a.sender.1, b.sender.1), (a.sender.2, b.sender.2), (a.rcv.2, b.rcv.2)] with
    | some false => .worseTopo
    | _ => .betterTopo

/-- The comparison of two data sets; `alt` is that of G.8275.1 clause 6.3. -/
def dsCompare (alt : Bool) (a b : DataSet) : Cmp :=
  let side := fun (r : Option Bool) (other : Cmp) =>
    match r with
    | some true => Cmp.better
    | some false => .worse
    | none => other
  if alt then
    side (firstLess [(a.cls, b.cls), (a.acc, b.acc), (a.var, b.var), (a.prio2, b.prio2), (a.localPrio, b.localPrio)])
      (if a.cls ≤ 127 then cmpTopo a b else side (firstLess [(a.gm, b.gm)]) (cmpTopo a b))
  else if a.gm = b.gm then cmpTopo a b
  else side (firstLess [(a.prio1, b.prio1), (a.cls, b.cls), (a.acc, b.acc), (a.var, b.var), (a.prio2, b.prio2), (a.gm, b.gm)]) .betterTopo

/-- A is better than B, by topology or not. -/
def dsBetter (alt : Bool) (a b : DataSet) : Bool := dsCompare alt a b == .better || dsCompare alt a b == .betterTopo

/-- The domain's own clockClass (R342). -/
def ownClass (s : State) (d : Nat) : Nat :=
  if !s.on (FM_DOM_CFG_AUTO_CLASS d) || s.tbState == 2 then s.get (FM_DOM_QUAL_CLASS_FINE d)
  else if s.tbState = 3 then s.get (FM_DOM_QUAL_CLASS_HOLD d)
  else s.get (FM_DOM_QUAL_CLASS_COARSE d)

/-- The domain's own data set D0 (R340). -/
def ownSet (s : State) (d : Nat) : DataSet :=
  { prio1 := s.get (FM_DOM_DS_PRIORITY1 d), cls := ownClass s d, acc := s.get (FM_DOM_DS_CLOCK_ACCURACY d),
    var := s.get (FM_DOM_DS2_VARIANCE d), prio2 := s.get (FM_DOM_DS_PRIORITY2 d), gm := domClockId s d, steps := 0,
    sender := (domClockId s d, 0), rcv := (domClockId s d, 0), localPrio := s.get (FM_DOM_DS2_LOCAL_PRIO d) }

/-- The data set of a foreign-master record received on session `k`. -/
def foreignSet (s : State) (k : Nat) (f : Foreign) : DataSet :=
  { prio1 := f.prio1, cls := f.gmClass, acc := f.accuracy, var := f.variance, prio2 := f.prio2, gm := f.gmId,
    steps := f.steps, sender := (f.srcId, f.srcPort), rcv := sessId s k, localPrio := s.get (FM_SESS_CFG_LOCAL_PRIO k) }

/-- The announce interval of a domain, in ticks. -/
def annTicks (s : State) (d : Nat) : Nat := intervalTicks (logOf (s.get (FM_DOM_ANN_LOG_ANN d)))

/-- A record is qualified: two Announce messages within four announce intervals (R340). -/
def qualified (s : State) (d : Nat) (f : Foreign) : Bool :=
  decide (2 ≤ (f.times.filter (fun t => decide (s.clk < t + 4 * annTicks s d))).length)

/-- The profile of the domain is G.8275.1 (R341). -/
def g8275 (s : State) (d : Nat) : Bool := domProfile s d == 3

/-- MASTER_ONLY of a session acts (R341). -/
def masterOnly (s : State) (k : Nat) : Bool := g8275 s (sessDom s k) && s.on (FM_SESS_CFG_MASTER_ONLY k)

/-- NOT_SLAVE of a session acts (R341). -/
def notSlave (s : State) (k : Nat) : Bool := g8275 s (sessDom s k) && s.on (FM_SESS_CFG_NOT_SLAVE k)

/-- The best of a list of candidates (session, record). -/
def bestOf (s : State) (alt : Bool) (l : List (Nat × Foreign)) : Option (Nat × Foreign) :=
  l.foldl (fun b c =>
    match b with
    | none => some c
    | some d => if dsBetter alt (foreignSet s c.1 c.2) (foreignSet s d.1 d.2) then some c else b) none

/-- The best qualified record of a session (Erbest). -/
def erBest (s : State) (d k : Nat) : Option (Nat × Foreign) :=
  if masterOnly s k then none
  else bestOf s (g8275 s d) (((s.sessRec k).foreign.filter (qualified s d)).map (fun f => (k, f)))

/-- The sessions that take part in a state decision (R340). -/
def deciding (s : State) (d : Nat) : List Nat :=
  (domSess s d).filter (fun k => sessLive s k && !(gptp s d && s.on (FM_SESS_STATUS_NO_DELAY k)))

/-- What the BMCA recommends to a session. -/
inductive Recommend where
  | master (own : Bool)
  | passive
  | slave (f : Foreign)
deriving DecidableEq, Repr

/-- The recommendation to session `k`, given the best record of the domain (IEEE 1588-2019 9.3.3, R341). -/
def recommend (s : State) (d : Nat) (ebest : Option (Nat × Foreign)) (k : Nat) : Recommend :=
  let alt := g8275 s d
  let own := ownSet s d
  let er := erBest s d k
  if masterOnly s k then .master (match ebest with | none => true | some e => dsBetter alt own (foreignSet s e.1 e.2))
  else if own.cls ≤ 127 ∧ 1 ≤ own.cls ∧ !gptp s d then
    match er with
    | none => .master true
    | some e => if dsBetter alt own (foreignSet s e.1 e.2) then .master true else .passive
  else
    match ebest with
    | none => .master true
    | some e =>
      if dsBetter alt own (foreignSet s e.1 e.2) then .master true
      else if e.1 = k then .slave e.2
      else
        match er with
        | none => .master false
        | some r =>
          if dsCompare alt (foreignSet s e.1 e.2) (foreignSet s r.1 r.2) == .betterTopo then .passive else .master false

/-- TB_TOD_UTC takes what the Announce of the steering source's parent says, while AUTO is 1 (R204). -/
def utcFollow (d : Nat) (f : Foreign) (s : State) : State :=
  if s.on TB_TOD_UTC_AUTO && s.steerSrc == d then
    (((s.put TB_TOD_UTC_UTC_OFFSET f.utc).put TB_TOD_UTC_LEAP61 (f.flags % 2)).put TB_TOD_UTC_LEAP59 (f.flags / 2 % 2)).put
      TB_TOD_UTC_VALID (f.flags / 4 % 2)
  else s

/-- The domain takes a parent, or becomes its own grandmaster (R342, R351, R365). -/
def parentSet (d : Nat) (f : Option Foreign) (s : State) : State :=
  let was := (s.domRec d).parent.map (fun f => (f.srcId, f.srcPort))
  let s := s.setDom d { s.domRec d with parent := f }
  let s :=
    match f with
    | none =>
      let s := ((s.putWide (FM_DOM_PARENT d) 0).put (FM_DOM_PARENT_PORT_PORT d) 0).put (FM_DOM_PARENT_PORT_GM_CLASS d) 255
      ((s.putWide (FM_DOM_GM d) (domClockId s d)).put (FM_DOM_STATUS_GM d) 1).put (FM_DOM_STATUS_STEPS_REMOVED d) 0
    | some f =>
      let s := (s.putWide (FM_DOM_PARENT d) f.srcId).put (FM_DOM_PARENT_PORT_PORT d) f.srcPort
      let s := (s.put (FM_DOM_PARENT_PORT_GM_CLASS d) f.gmClass).putWide (FM_DOM_GM d) f.gmId
      utcFollow d f ((s.put (FM_DOM_STATUS_GM d) 0).put (FM_DOM_STATUS_STEPS_REMOVED d) (min 255 (f.steps + 1)))
  if was = f.map (fun f => (f.srcId, f.srcPort)) then s else s.ev FM_EVENT_PARENT

/-- A domain without sessions in the decision has no parent and no grandmaster of its own. -/
def domClear (d : Nat) (s : State) : State :=
  let s := s.setDom d { s.domRec d with parent := none }
  let s := ((s.putWide (FM_DOM_PARENT d) 0).put (FM_DOM_PARENT_PORT_PORT d) 0).put (FM_DOM_PARENT_PORT_GM_CLASS d) 255
  ((s.putWide (FM_DOM_GM d) 0).put (FM_DOM_STATUS_GM d) 0).put (FM_DOM_STATUS_STEPS_REMOVED d) 0

/-- Session `k` takes its recommended state (R333), or, `held`, the one the pair gives it, whatever SLAVE_ONLY and NOT_SLAVE say (R571). -/
def takeState (d k : Nat) (r : Recommend) (held : Bool) (s : State) : State :=
  let st := sessState s k
  let slaveOnly := s.on (FM_DOM_CFG_SLAVE_ONLY d) && !held
  let toMaster := fun (s : State) =>
    if slaveOnly then (if st = 4 then s else sessSet k 4 s)
    else if st = 5 ∨ st = 6 then s
    else sessSet k (if gptp s d then 6 else 5) s
  match r with
  | .master _ => toMaster s
  | .passive => if slaveOnly then (if st = 4 then s else sessSet k 4 s) else if st = 7 then s else sessSet k 7 s
  | .slave f =>
    if notSlave s k && !held then (if st = 7 then s else sessSet k 7 s)
    else
      let key := some (f.srcId, f.srcPort)
      if (st = 8 ∨ st = 9) ∧ (s.sessRec k).parentKey = key then s
      else sessSet k 8 (s.setSess k { s.sessRec k with parentKey := key, confirm := 0, syncGood := false, syncOut := false, waitFu := none })

/-- A session may leave LISTENING: a record on its port is qualified, or its Announce receipt timer has expired (R333). -/
def mayDecide (s : State) (d k : Nat) : Bool :=
  sessState s k != 4 || (s.sessRec k).annDone || (s.sessRec k).foreign.any (qualified s d)

/-- The best qualified record of the pair's session on P65, whatever MASTER_ONLY says (R571). -/
def pairBest (s : State) (d k : Nat) : Option (Nat × Foreign) :=
  bestOf s (g8275 s d) (((s.sessRec k).foreign.filter (qualified s d)).map (fun f => (k, f)))

/-- What the pair makes of session `k` of the pair domain (R571), over the decision `rec_`: whether it holds the session, and whether it
measures while PASSIVE. -/
structure Hold where
  rec_ : Recommend
  held : Bool := false
  measures : Bool := false

/-- The pair's hold on session `k` of the pair domain (R571). -/
def pairHold (s : State) (d k : Nat) (r : Recommend) : Hold :=
  if s.pairState = .solo ∨ s.get PAIR_CTRL_DOMAIN ≠ d then ⟨r, false, false⟩
  else if sessPort s k = 65 then
    if s.pairCarries then ⟨.master true, false, false⟩
    else
      match pairBest s d k with
      | some e => ⟨.slave e.2, true, false⟩
      | none => match r with
        | .slave _ => ⟨.passive, true, false⟩
        | _ => ⟨r, false, false⟩
  else if s.pairFollows then
    match r with
    | .slave _ => ⟨.passive, true, true⟩
    | _ => ⟨r, false, false⟩
  else ⟨r, false, false⟩

/-- A session takes its decision: one held PASSIVE by the pair measures, and the pair's session on P65 is MASTER at once (R571). -/
def takeDecision (d k : Nat) (h : Hold) (s : State) : State :=
  let s := s.setSess k { s.sessRec k with held := h.measures }
  let carries := s.pairState ≠ .solo ∧ s.get PAIR_CTRL_DOMAIN = d ∧ sessPort s k = 65 ∧ s.pairCarries
  if carries then (if sessState s k = 6 then s else sessSet k 6 s)
  else sessRefresh k (takeState d k h.rec_ h.held s)

/-- The state decision of domain `d` (R340, R571): every session at once; a domain none of whose sessions is recommended SLAVE is its
own grandmaster (R351). -/
def stateDecision (d : Nat) (s : State) : State :=
  if domTc s d || !s.on (FM_DOM_CFG_EN d) || !s.on FM_CTRL_EN then s
  else
    let ks := deciding s d
    let eb := bestOf s (g8275 s d) ((ks.filter (fun k => !notSlave s k)).filterMap (erBest s d))
    let hs := (ks.filter (mayDecide s d)).map (fun k => (k, pairHold s d k (recommend s d eb k)))
    let s := forEach hs (fun e s => takeDecision d e.1 e.2 s) s
    let s := forEach ks (fun k s =>
      if sessState s k = 7 then
        s.setSess k { s.sessRec k with parentKey := (erBest s d k).map (fun e => (e.2.srcId, e.2.srcPort)) }
      else if sessState s k = 8 ∨ sessState s k = 9 then s
      else s.setSess k { s.sessRec k with parentKey := none }) s
    let slave := hs.findSome? (fun e =>
      match e.2.rec_ with
      | .slave f => if notSlave s e.1 && !e.2.held then none else some f
      | _ => none)
    if slave.isNone && (domSess s d).any (fun k => sessState s k == 8 || sessState s k == 9) then s else parentSet d slave s

/-! ### Announce (R340, R342) -/

/-- The path trace of an Announce body (GPTP): the clockIdentities of a TLV of type 8, over at most `fuel` TLVs. -/
def pathTrace : Nat → List Byte → List Nat
  | 0, _ => []
  | fuel + 1, l =>
    if l.length < 4 then []
    else
      let n := fieldBE l 2 2
      if fieldBE l 0 2 = 8 then (List.range (n / 8)).map (fun i => fieldBE l (4 + 8 * i) 8)
      else pathTrace fuel (l.drop (4 + n))

/-- The data set an Announce carries. -/
def announceRead (s : State) (m : PtpMsg) : Foreign :=
  let b := m.body
  { srcId := m.srcId, srcPort := m.srcPort, gmId := fieldBE b 19 8, prio1 := byteAt b 13, gmClass := byteAt b 14,
    accuracy := byteAt b 15, variance := fieldBE b 16 2, prio2 := byteAt b 18, steps := fieldBE b 27 2,
    utc := fieldBE b 10 2, flags := m.flags, timeSource := byteAt b 29, path := pathTrace 16 (b.drop 30), times := [s.clk] }

/-- The message's sender is the one the session takes offsets from: its parent, or the best master on its port (R348, R351). -/
def fromParent (s : State) (m : PtpMsg) : Bool := (s.sessRec m.sess).parentKey == some (m.srcId, m.srcPort)

/-- An Announce is received (R340): the sender's record takes its data, or a new one begins where fewer than five stand; the receipt timer
runs afresh, in LISTENING at any sender's, else at that of the one it follows (IEEE 1588-2019 9.2.6, log entry 140). -/
def announceRx (m : PtpMsg) (s : State) : State :=
  let k := m.sess
  let d := sessDom s k
  let f := announceRead s m
  let own := domClockId s d
  if domTc s d || !sessLive s k || f.srcId == own || decide (255 ≤ f.steps) ||
      (gptp s d && f.path.contains own) then s
  else
    let s := if sessState s k = 4 ∨ fromParent s m then timerStop .annReceipt k s else s
    let r := s.sessRec k
    let same := fun (g : Foreign) => g.srcId == f.srcId && g.srcPort == f.srcPort
    let s :=
      if r.foreign.any same then
        s.setSess k { r with foreign := r.foreign.map (fun g => if same g then { f with times := (s.clk :: g.times).take 4 } else g) }
      else if r.foreign.length < 5 then s.setSess k { r with foreign := r.foreign ++ [f] }
      else s
    if (sessState s k = 8 ∨ sessState s k = 9) ∧ r.parentKey = some (f.srcId, f.srcPort) then parentSet d (some f) s else s

/-- The body of an Announce of a domain, and its flags (R342); in SHED3 its class is LG_CLASS (R597). -/
def announceBody (s : State) (d : Nat) : List Byte × Nat :=
  let shed3 := decide (s.stage = 3)
  let cls := fun (c : Nat) => beBytes 1 (if shed3 then s.get PWR_CTRL_LG_CLASS else c)
  let own := domClockId s d
  match (s.domRec d).parent with
  | none =>
    let flags := s.get TB_TOD_UTC_LEAP61 + 2 * s.get TB_TOD_UTC_LEAP59 + 4 * s.get TB_TOD_UTC_VALID + 8 +
      (if s.tbState = 2 ∧ !shed3 then 16 else 0) + (if s.dpll = 2 ∧ !shed3 then 32 else 0)
    let path := if gptp s d then beBytes 2 8 ++ beBytes 2 8 ++ beBytes 8 own else []
    (beBytes 10 0 ++ beBytes 2 (s.get TB_TOD_UTC_UTC_OFFSET) ++ [0] ++ beBytes 1 (s.get (FM_DOM_DS_PRIORITY1 d)) ++
      cls (ownClass s d) ++ beBytes 1 (s.get (FM_DOM_DS_CLOCK_ACCURACY d)) ++ beBytes 2 (s.get (FM_DOM_DS2_VARIANCE d)) ++
      beBytes 1 (s.get (FM_DOM_DS_PRIORITY2 d)) ++ beBytes 8 own ++ beBytes 2 0 ++ beBytes 1 (s.get (FM_DOM_DS_TIME_SOURCE d)) ++
      path, flags)
  | some f =>
    let flags := f.flags % 64 - (if shed3 then f.flags / 16 % 4 * 16 else 0)
    let ids := f.path ++ [own]
    let path := if gptp s d then beBytes 2 8 ++ beBytes 2 (8 * ids.length) ++ (ids.map (beBytes 8)).flatten else []
    (beBytes 10 0 ++ beBytes 2 f.utc ++ [0] ++ beBytes 1 f.prio1 ++ cls f.gmClass ++ beBytes 1 f.accuracy ++
      beBytes 2 f.variance ++ beBytes 1 f.prio2 ++ beBytes 8 f.gmId ++ beBytes 2 (f.steps + 1) ++ beBytes 1 f.timeSource ++
      path, flags)

/-- Session `k`, in MASTER, sends an Announce; none while the time base is INVALID (R342, R344). -/
def announceSend (k : Nat) (s : State) : State :=
  if sessState s k = 6 ∧ s.tbState ≠ 0 then
    let d := sessDom s k
    let a := announceBody s d
    let r := s.sessRec k
    let t := fmSend k 11 a.2 0 r.annSeq (logOf (s.get (FM_DOM_ANN_LOG_ANN d))) a.1 0 4 0 s
    if t.1 then t.2.setSess k { t.2.sessRec k with annSeq := (r.annSeq + 1) % 65536 } else t.2
  else s

end Sys2Proof.Machine
end

