-- ==== Sys2Proof/Machine/FmOffset.lean ====
section
/-!
DEFINITION. From exchanges to offsets (R306 to R312, R346 to R350): delays, their screen and filter, offsets, their screen with the
gain of the domain's time, and what an accepted offset drives.  Times are in 2^-16 ns.
-/

namespace Sys2Proof.Machine

/-- A difference of two times, taken within half the span of the counter. -/
def timeDiff (a b : Int) : Int :=
  let d := (a - b) % (spanSns : Int)
  if 2 * d < spanSns then d else d - spanSns

/-- The ensemble-independent rounding of alpha / (2 + alpha) x v (R307 to R309); `a` is alpha in 2^-32. -/
def asymmetry (a v : Int) : Int := roundDiv (a * v) ((2 ^ 33 + a).toNat)

/-- alpha of a session's port (R307). -/
def sessAlpha (s : State) (k : Nat) : Int := s.geti (PHA_PORT_ASYM_V (sessPort s k))

/-- FM_JUMP_THRESH in 2^-16 ns. -/
def jumpLimit (s : State) : Nat := s.get FM_JUMP_THRESH_V * 2 ^ 16

/-- D_f of a session. -/
def dFilt (s : State) (k : Nat) : Int := s.widei (FM_SESS_DELAY k)

/-- An exchange or a Sync is discarded (R346, R348). -/
def sessDiscard (k : Nat) (s : State) : State := s.count (FM_SESS_CNT3_DISCARD k)

/-- The new D_f after an accepted D (R347). -/
def delayAccept (k : Nat) (d : Int) (set : Bool) (s : State) : State :=
  let r := s.sessRec k
  let f := dFilt s k
  let n : Nat := 2 ^ s.get (FM_DOM_DLY_FILT (sessDom s k))
  let v := if set || !r.dfSet then d else roundDiv (f * n + (d - f)) n
  (s.setSess k { r with dfSet := true, dRun := [] }).putWidei (FM_SESS_DELAY k) v

/-- A confirmed jump (R350): on the domain's SLAVE session a phase hit on the slots that carry the domain. -/
def jumpConfirmed (k : Nat) (s : State) : State :=
  let s := s.ev FM_EVENT_JUMP
  if sessState s k = 9 then forEach (slotsOf s (sessDom s k)) hitFail s else s

/-- A raw delay D (R346, R347): refused below -NEG_LIMIT, screened against D_f, filtered. -/
def delayResult (k : Nat) (d : Int) (s : State) : State :=
  if d < -((s.get (FM_DOM_DLY_NEG_LIMIT (sessDom s k)) * 2 ^ 16 : Nat) : Int) then (sessDiscard k s).ev FM_EVENT_NEG_DELAY
  else
    let r := s.sessRec k
    if !r.dfSet then delayAccept k d true s
    else if (d - dFilt s k).natAbs ≤ jumpLimit s then delayAccept k d false s
    else
      let run := match r.dRun with
        | [] => [d]
        | q :: _ => if jumpLimit s < (d - q).natAbs then [d] else d :: r.dRun
      if s.get FM_CONFIRM_V ≤ run.length then jumpConfirmed k (delayAccept k d true s)
      else pmcEvent 0x042 .plain 1 ((s.setSess k { r with dRun := run }).count (FM_SESS_CNT1_OUTLIER k))

/-- A Sync whose Follow_Up is awaited lies before `t3`: the most recent one is not complete (R346, R348). -/
def syncAwaited (r : SessRec) (t3 : Int) : Bool :=
  match r.waitFu with
  | some y => decide (0 < timeDiff t3 y.t2)
  | none => false

/-- A delay request-response exchange with its four stamps (R308, R346): ms is the latest Sync's before t3, which a Follow_Up may still
have to complete. -/
def delayComplete (k : Nat) (s : State) : State :=
  let r := s.sessRec k
  match r.exch with
  | none => s
  | some x =>
    match x.own with
    | none => s
    | some t3 =>
      if !x.answered || syncAwaited r t3 then s
      else
        let s := s.setSess k { r with exch := none }
        match r.syncs.find? (fun y => decide (0 < timeDiff t3 y.t2)) with
        | none => s
        | some y =>
          if y.gen ≠ x.gen ∨ y.epoch ≠ x.epoch then sessDiscard k s
          else delayResult k (roundDiv (y.ms + (timeDiff x.t4 t3 - x.corr)) 2) s

/-- The neighborRateRatio over the last eight exchanges (R347), in 2^-41: responder's time over own time. -/
def nrrAdd (k : Nat) (t3 t4 : Int) (epoch : Nat) (s : State) : State :=
  let r := s.sessRec k
  let l := ((t3, t4, epoch) :: (r.nrr.filter (fun e => e.2.2 == epoch))).take 8
  let s := s.setSess k { r with nrr := l }
  match l.getLast? with
  | none => s
  | some o =>
    let dr := timeDiff t3 o.1
    let d0 := timeDiff t4 o.2.1
    if d0 ≤ 0 then s
    else s.puti (FM_SESS_NRR_V k) (clampI (-(2 ^ 31)) (2 ^ 31 - 1) (roundDiv ((dr - d0) * 2 ^ 41) d0.toNat))

/-- A peer-delay exchange with its stamps (R309, R346). -/
def peerComplete (k : Nat) (s : State) : State :=
  let r := s.sessRec k
  match r.pexch with
  | none => s
  | some x =>
    match x.own with
    | none => s
    | some t1 =>
      if !x.answered || x.needFu then s
      else
        let s := s.setSess k { r with pexch := none }
        if x.gen ≠ x.gen4 ∨ x.epoch ≠ x.epoch4 then sessDiscard k s
        else
          let s := if x.t3 = 0 then s else nrrAdd k (x.t3 + x.corr) x.t4 x.epoch s
          delayResult k (roundDiv (timeDiff x.t4 t1 - timeDiff x.t3 x.t2 - x.corr) 2) s

/-- The ticks since the previous accepted offset of the driving session, at most 1 s (R352). -/
def offsetTs (s : State) (k : Nat) : Nat :=
  match (s.sessRec k).accAt with
  | some t => min 250000000 (s.clk - t)
  | none => 250000000

/-- An accepted offset (R333, R349, R351 to R353). -/
def offsetAccept (k : Nat) (o gain doff : Int) (s : State) : State :=
  let d := sessDom s k
  let ts := offsetTs s k
  let r := s.sessRec k
  let s := s.setSess k { r with acc := some ⟨o, gain⟩, accAt := some s.clk, run := [] }
  let s := s.putWidei (FM_SESS_OFFSET k) o
  let s : State :=
    if sessPort s k = 65 ∧ d = s.get PAIR_CTRL_DOMAIN ∧ 16 * s.get PAIR_LOCK_LIMIT < o.natAbs then
      { s with pair := { s.pair with lockSince := s.pair.lockSince.map (fun _ => s.now) } }
    else s
  let s := if sessReceiving s k then ensOffset k (o - doff) s else s
  if sessState s k = 9 then
    sourceServo d o ts (s.putWidei (FM_DOM_LAST d) o)
  else if sessState s k = 8 then
    let n := (s.sessRec k).confirm + 1
    let s := s.setSess k { s.sessRec k with confirm := n }
    if s.get FM_CONFIRM_V ≤ n then (sessSet k 9 s).putWidei (FM_DOM_LAST d) o else s
  else s

/-- An offset `o` at a stamp with the domain's gain there is screened (R349). -/
def offsetScreen (k : Nat) (o gain doff : Int) (s : State) : State :=
  let r := s.sessRec k
  let near := fun (p : OffRec) => decide (((o - p.o) * domUnit - (gain - p.gain)).natAbs ≤ jumpLimit s * domUnit)
  match r.acc with
  | none => offsetAccept k o gain doff s
  | some p =>
    if near p then offsetAccept k o gain doff s
    else
      let run := match r.run with
        | [] => [(⟨o, gain⟩ : OffRec)]
        | q :: _ => if near q then ⟨o, gain⟩ :: r.run else [⟨o, gain⟩]
      if s.get FM_CONFIRM_V ≤ run.length then jumpConfirmed k (offsetAccept k o gain doff s)
      else pmcEvent 0x042 .plain 1 ((s.setSess k { r with run := run }).count (FM_SESS_CNT1_OUTLIER k))

/-- A Sync with its ms known (R308, R348): it is kept for the delay computation, and gives an offset where D_f exists; an exchange that
waited for it is complete (R346). -/
def syncDone (k : Nat) (y : SyncRec) (s : State) : State :=
  let r := s.sessRec k
  let s := s.setSess k { r with syncs := (y :: r.syncs).take 32, waitFu := none }
  let s :=
    if r.dfSet then
      let f := dFilt s k
      offsetScreen k (y.ms + y.doff - f - asymmetry (sessAlpha s k) f) y.gain y.doff s
    else s
  delayComplete k s

/-- What a GPTP domain carries on from its parent's Follow_Up information TLV: rateRatio with the neighborRateRatio, in 2^-41 (R347), and the
grandmaster's gmTimeBaseIndicator, lastGmPhaseChange and scaledLastGmFreqChange (R323, IEEE 802.1AS-2020 11.4.4.3). -/
def rateCarry (k : Nat) (tlv : List Byte) (s : State) : State :=
  let d := sessDom s k
  if gptp s d && (sessState s k == 8 || sessState s k == 9) && fieldBE tlv 0 2 == 3 then
    s.setDom d { s.domRec d with rateOff := signed 32 (fieldBE tlv 10 4) + s.geti (FM_SESS_NRR_V k), gmInfo := (tlv.drop 14).take 18 }
  else s

/-- Sync on a session that takes offsets (R348, R355). -/
def syncRx (m : PtpMsg) (s : State) : State :=
  let k := m.sess
  if !takesSync s k || !fromParent s m then s
  else
    let r := s.sessRec k
    let s := if r.waitFu.isSome then sessDiscard k s else s
    let s := timerStop .followUp k (timerStop .syncReceipt k s)
    let s := trefRefresh (sessDom s k) (s.setSess k { s.sessRec k with
      syncGood := true, syncOut := false, waitFu := none, logSync := m.logInt })
    let s := if r.waitFu.isSome then delayComplete k s else s
    let y : SyncRec := ⟨m.seq, m.srcId, m.srcPort, m.stamp, m.corr, 0, m.gen, m.epoch, m.gain, m.doff⟩
    if m.flags / 512 % 2 = 1 then s.setSess k { s.sessRec k with waitFu := some y }
    else syncDone k { y with ms := timeDiff m.stamp m.ts - m.corr } (rateCarry k (m.body.drop 10) s)

/-- Follow_Up with the sequenceId of the Sync that waits (R348). -/
def followUpRx (m : PtpMsg) (s : State) : State :=
  let k := m.sess
  match (s.sessRec k).waitFu with
  | none => s
  | some y =>
    if y.seq = m.seq ∧ y.srcId = m.srcId ∧ y.srcPort = m.srcPort then
      syncDone k { y with ms := timeDiff y.t2 m.ts - (y.corr + m.corr) } (rateCarry k (m.body.drop 10) s)
    else s

/-- The Follow_Up did not come in time (R348). -/
def followUpTimeout (k : Nat) (s : State) : State :=
  if (s.sessRec k).waitFu.isSome then delayComplete k (sessDiscard k (s.setSess k { s.sessRec k with waitFu := none })) else s

/-- A response has arrived: the losses in a row are over (R355). -/
def responded (k : Nat) (s : State) : State :=
  (s.setSess k { s.sessRec k with lost := 0 }).put (FM_SESS_STATUS_NO_DELAY k) 0

/-- The requestingPortIdentity of a response is this session's (IEEE 1588-2019 11.3, 11.4). -/
def forMe (s : State) (m : PtpMsg) : Bool := (fieldBE m.body 10 8, fieldBE m.body 18 2) == sessId s m.sess

/-- Delay_Resp (R308, R346). -/
def delayRespRx (m : PtpMsg) (s : State) : State :=
  let k := m.sess
  match (s.sessRec k).exch with
  | none => s
  | some x =>
    if x.seq == m.seq && forMe s m && fromParent s m && !x.answered then
      let s := responded k s
      delayComplete k (s.setSess k { s.sessRec k with exch := some { x with answered := true, t4 := m.ts, corr := m.corr } })
    else s

/-- Pdelay_Resp (R309): with its own turnaround in one step, else to be followed up. -/
def pdelayRespRx (m : PtpMsg) (s : State) : State :=
  let k := m.sess
  match (s.sessRec k).pexch with
  | none => s
  | some x =>
    if x.seq == m.seq && forMe s m && !x.answered then
      let two : Bool := m.flags / 512 % 2 == 1
      let s := responded k s
      peerComplete k (s.setSess k { s.sessRec k with pexch := some { x with
        answered := true, t4 := m.stamp, gen4 := m.gen, epoch4 := m.epoch, t2 := if two then m.ts else 0, corr := m.corr,
        needFu := two, srcId := m.srcId, srcPort := m.srcPort } })
    else s

/-- Pdelay_Resp_Follow_Up (R309). -/
def pdelayFuRx (m : PtpMsg) (s : State) : State :=
  let k := m.sess
  match (s.sessRec k).pexch with
  | none => s
  | some x =>
    if x.seq == m.seq && forMe s m && x.needFu && x.srcId == m.srcId && x.srcPort == m.srcPort then
      peerComplete k (s.setSess k { s.sessRec k with pexch := some { x with
        needFu := false, t3 := m.ts, corr := x.corr + m.corr } })
    else s

/-- An exchange without its response in time (R355): lost, and after LOST_RESP in a row NO_DELAY. -/
def responseLost (k : Nat) (s : State) : State :=
  let s := s.count (FM_SESS_CNT1_LOST_RESP k)
  let n := (s.sessRec k).lost + 1
  let s := s.setSess k { s.sessRec k with lost := n }
  if s.get (FM_SESS_VLAN_LOST_RESP k) ≤ n then s.put (FM_SESS_STATUS_NO_DELAY k) 1 else s

/-- The response timer of session `k` (R355): an exchange of its delay mechanism still unanswered is lost. -/
def responseTimeout (k : Nat) (s : State) : State :=
  let r := s.sessRec k
  let s := match r.exch with
    | some x => let s := s.setSess k { r with exch := none }; if x.answered then s else responseLost k s
    | none => s
  match (s.sessRec k).pexch with
  | some x => let s := s.setSess k { s.sessRec k with pexch := none }; if x.answered && !x.needFu then s else responseLost k s
  | none => s

end Sys2Proof.Machine
end

