-- ==== Sys2Proof/Machine/FmMsg.lean ====
section
/-!
DEFINITION. The Ferryman at work (R333 to R345, R355 to R357): serving the receive queue, the messages it sends, stamps that come back,
its timers, commitment, resets.
-/

namespace Sys2Proof.Machine

/-! ### Messages sent (R343) -/

/-- The flag twoStepFlag of the flagField. -/
def flagTwoStep : Nat := 512

/-- The Follow_Up information TLV of GPTP, with what is carried on from the parent (R323, R347); a grandmaster's own fields are zero
(log entry 141). -/
def followTlv (s : State) (d : Nat) : List Byte :=
  let m := s.domRec d
  let rate := if m.parent.isSome then m.rateOff else 0
  let gm := if m.parent.isSome && m.gmInfo.length == 18 then m.gmInfo else beBytes 18 0
  beBytes 2 3 ++ beBytes 2 28 ++ beBytes 3 0x0080C2 ++ beBytes 3 1 ++ beBytes 4 (unsigned 32 rate) ++ gm

/-- Session `k`, in MASTER, sends a Sync (R343); none while the time base is INVALID (R344). -/
def syncSend (k : Nat) (s : State) : State :=
  if sessState s k = 6 ∧ s.tbState ≠ 0 then
    let d := sessDom s k
    let r := s.sessRec k
    let log := logOf (s.get (FM_SESS_INTV_LOG_SYNC k))
    let one := s.on (FM_SESS_CFG_STEP k)
    let tlv := if gptp s d && one then followTlv s d else []
    let t := fmSend k 0 (if one then 0 else flagTwoStep) (if one then doffSns s d else 0) r.syncSeq log (beBytes 10 0 ++ tlv)
      (if one then 1 else 0) 0 0 s
    if t.1 then t.2.setSess k { t.2.sessRec k with syncSeq := (r.syncSeq + 1) % 65536 } else t.2
  else s

/-- The Follow_Up of a two-step Sync whose stamp has come back (R343). -/
def followUpSend (k seq : Nat) (stamp : Int) (s : State) : State :=
  if sessState s k = 6 ∧ s.tbState ≠ 0 then
    let d := sessDom s k
    let t := stamp + doffSns s d
    (fmSend k 8 0 (remainder t) seq (logOf (s.get (FM_SESS_INTV_LOG_SYNC k)))
      (timestamp t ++ (if gptp s d then followTlv s d else [])) 0 4 0 s).2
  else s

/-- A session with delay request-response sends a Delay_Req while it takes offsets (R338, R343, R351). -/
def delayReqSend (k : Nat) (s : State) : State :=
  if takesSync s k && !s.on (FM_SESS_CFG_DELAY k) && !domTc s (sessDom s k) then
    let s := responseTimeout k s
    let r := s.sessRec k
    let s := s.setSess k { r with exch := some { seq := r.delaySeq } }
    let t := fmSend k 1 0 0 r.delaySeq 127 (beBytes 10 0) 0 1 0 s
    if t.1 then t.2.setSess k { t.2.sessRec k with delaySeq := (r.delaySeq + 1) % 65536 }
    else t.2.setSess k { t.2.sessRec k with exch := none }
  else s

/-- A session with peer delay sends a Pdelay_Req in every state from LISTENING on (R343, R345). -/
def pdelayReqSend (k : Nat) (s : State) : State :=
  if sessLive s k && s.on (FM_SESS_CFG_DELAY k) then
    let s := responseTimeout k s
    let r := s.sessRec k
    let s := s.setSess k { r with pexch := some { seq := r.pdelaySeq } }
    let log := if gptp s (sessDom s k) then logOf (s.get (FM_SESS_INTV_LOG_PDREQ k)) else 127
    let t := fmSend k 2 0 0 r.pdelaySeq log (beBytes 20 0) 0 2 0 s
    if t.1 then t.2.setSess k { t.2.sessRec k with pdelaySeq := (r.pdelaySeq + 1) % 65536 }
    else t.2.setSess k { t.2.sessRec k with pexch := none }
  else s

/-- Delay_Req on a session in MASTER is answered, unless the time base is INVALID (R343, R344). -/
def delayReqRx (m : PtpMsg) (s : State) : State :=
  let k := m.sess
  if sessState s k = 6 ∧ s.tbState ≠ 0 ∧ !s.on (FM_SESS_CFG_DELAY k) then
    let t := m.stamp + doffSns s (sessDom s k)
    (fmSend k 9 0 (m.corr - remainder t) m.seq (logOf (s.get (FM_SESS_INTV_LOG_DREQ k)))
      (timestamp t ++ ptpPortId m.srcId m.srcPort) 0 4 0 s).2
  else s

/-- Pdelay_Req is answered on a session with peer delay, in one step or in two (R343, R345). -/
def pdelayReqRx (m : PtpMsg) (s : State) : State :=
  let k := m.sess
  if sessLive s k && s.on (FM_SESS_CFG_DELAY k) then
    let id := ptpPortId m.srcId m.srcPort
    if s.on (FM_SESS_CFG_STEP k) then
      (fmSend k 3 0 m.corr m.seq 127 (beBytes 10 0 ++ id) 3 4 m.stamp.toNat s).2
    else
      let t := fmSend k 3 flagTwoStep 0 m.seq 127 (timestamp m.stamp ++ id) 0 3 0 (s.setSess k { s.sessRec k with
        answering := (s.sessRec k).answering ++ [⟨m.seq, m.srcId, m.srcPort, m.stamp, m.corr⟩] })
      if t.1 then t.2
      else t.2.setSess k { t.2.sessRec k with answering := (t.2.sessRec k).answering.filter (fun q => q.seq != m.seq) }
  else s

/-- The Pdelay_Resp_Follow_Up of an answer whose stamp has come back (R343). -/
def pdelayFuSend (k seq : Nat) (stamp : Int) (s : State) : State :=
  match (s.sessRec k).answering.find? (fun q => q.seq == seq) with
  | none => s
  | some q =>
    let s := s.setSess k { s.sessRec k with answering := (s.sessRec k).answering.erase q }
    (fmSend k 10 0 (q.corr + remainder stamp - remainder q.stamp) seq 127
      (timestamp stamp ++ ptpPortId q.srcId q.srcPort) 0 4 0 s).2

/-- The L1_SYNC TLV of a session in its basic format (R334). -/
def l1Tlv (s : State) (k : Nat) : List Byte :=
  beBytes 2 0x8001 ++ beBytes 2 2 ++ [7, if sessSynt s k then 7 else 0]

/-- A session with L1Sync sends its Signaling message (R334). -/
def l1Send (k : Nat) (s : State) : State :=
  if sessLive s k && l1State s k != 0 then
    let r := s.sessRec k
    let t := fmSend k 12 0 0 r.sigSeq 127 (beBytes 10 (2 ^ 80 - 1) ++ l1Tlv s k) 0 4 0 s
    if t.1 then t.2.setSess k { t.2.sessRec k with sigSeq := (r.sigSeq + 1) % 65536 } else t.2
  else s

/-- The configuration and activity bits of the L1_SYNC TLV of a Signaling body, over at most `fuel` TLVs (R334). -/
def l1Find : Nat → List Byte → Option Nat
  | 0, _ => none
  | fuel + 1, l =>
    if l.length < 4 then none
    else if fieldBE l 0 2 = 0x8001 ∧ 2 ≤ fieldBE l 2 2 then some (byteAt l 4 % 8 + 8 * (byteAt l 5 % 8))
    else l1Find fuel (l.drop (4 + fieldBE l 2 2))

/-- Signaling (R334): the peer's TLV moves the L1Sync state. -/
def signalingRx (m : PtpMsg) (s : State) : State :=
  match l1Find 16 (m.body.drop 10) with
  | none => s
  | some v =>
    if l1State s m.sess = 0 then s
    else sessRefresh m.sess (timerStop .l1Receipt m.sess (s.setSess m.sess { s.sessRec m.sess with l1Peer := some v }))

/-! ### Serving the receive queue (R335) -/

/-- The front of the receive queue is served, where it is of the type and the timer queue has no turn; its buffer goes back (R335). -/
def serve (ty : Nat) (f : PtpMsg → State → State) (s : State) : State :=
  match s.fm.rxq with
  | [] => s
  | m :: t =>
    if m.ty ≠ ty ∨ s.on FM_STATUS_RESETTING ∨ (s.fm.timersTurn ∧ s.fm.timerq ≠ []) then s
    else
      let s : State := { s with fm := { s.fm with rxq := t, timersTurn := true } }
      let s := (poolFree 3 m.buf clsFerryman s).2
      if (s.sessRec m.sess).committed then f m (s.count (FM_SESS_CNT0_RX m.sess))
      else s.count FM_CNT1_NO_SESSION

/-- A transmit stamp comes back with the release of its buffer (R339). -/
def stampReturn (s : State) : State :=
  match s.fm.stamps with
  | [] => s
  | t :: l =>
    let s : State := { s with fm := { s.fm with stamps := l } }
    let s := (poolFree 3 t.buf clsFerryman s).2
    let k := t.sess
    let r := s.sessRec k
    if !r.committed then s
    else
      match t.kind with
      | 0 => if t.lost || s.on (FM_SESS_CFG_STEP k) then s else followUpSend k t.seq t.stamp s
      | 1 =>
        match r.exch with
        | some x =>
          if x.seq ≠ t.seq then s
          else if t.lost then s.setSess k { r with exch := none }
          else delayComplete k (s.setSess k { r with exch := some { x with own := some t.stamp, gen := t.gen, epoch := t.epoch } })
        | none => s
      | 2 =>
        match r.pexch with
        | some x =>
          if x.seq ≠ t.seq then s
          else if t.lost then s.setSess k { r with pexch := none }
          else peerComplete k (s.setSess k { r with pexch := some { x with own := some t.stamp, gen := t.gen, epoch := t.epoch } })
        | none => s
      | 3 =>
        if t.lost then s.setSess k { r with answering := r.answering.filter (fun q => q.seq != t.seq) }
        else pdelayFuSend k t.seq t.stamp s
      | _ => s

/-! ### Timers (R355) -/

/-- The Announce receipt timer of a session expires: its records go, and a state decision follows. -/
def announceTimeout (k : Nat) (s : State) : State :=
  if ([4, 7, 8, 9] : List Nat).contains (sessState s k) && !domTc s (sessDom s k) then
    let s := s.setSess k { s.sessRec k with foreign := [], annDone := true }
    stateDecision (sessDom s k) (s.count (FM_SESS_CNT2_ANN_TO k))
  else s

/-- The Sync receipt timer expires (R351, R355); a Sync that awaits its Follow_Up waits on (R348). -/
def syncTimeout (k : Nat) (s : State) : State :=
  if takesSync s k then
    let s := s.setSess k { s.sessRec k with syncGood := false, syncOut := true }
    trefRefresh (sessDom s k) (s.count (FM_SESS_CNT2_SYNC_TO k))
  else s

/-- The L1Sync receipt timer expires (R334, R355): IDLE. -/
def l1Timeout (k : Nat) (s : State) : State :=
  if l1State s k = 0 then s else sessRefresh k (s.setSess k { s.sessRec k with l1Peer := none })

/-- The qualification timeout (R333). -/
def qualificationTimeout (k : Nat) (s : State) : State := if sessState s k = 5 then sessSet k 6 s else s

/-- Initialisation completes (R333). -/
def initComplete (k : Nat) (s : State) : State :=
  if sessState s k = 1 then sessSet k 4 (s.setSess k { s.sessRec k with annDone := false }) else s

/-! ### Commitment (R326 to R329) -/

/-- The Forbidden combinations a session meets (R44, R234, R326). -/
def sessForbidden (s : State) (k : Nat) : List Nat :=
  let d := sessDom s k
  let p2p := s.on (FM_SESS_CFG_DELAY k)
  let udp := s.get (FM_SESS_CFG_TRANSPORT k) != 0
  let role := s.get (FM_DOM_CFG_ROLE d)
  let p := sessPort s k
  (if (role = 3 ∧ !p2p) ∨ (role = 2 ∧ p2p) then [18] else []) ++
  (if gptp s d && (!p2p || udp) then [19] else []) ++
  (if g8275 s d && (p2p || udp) then [20] else []) ++
  (if domProfile s d == 1 && p != 64 && (portLanes s p).any (fun n => !s.on (LN_CTRL_CLOCK_REQ n)) then [21] else [])

/-- The causes of REFUSED, the lowest first (R329). -/
def sessRefusal (s : State) (k : Nat) : Nat :=
  let d := sessDom s k
  if sessForbidden s k ≠ [] then 1
  else if sessPort s k == 64 || !s.portExists (sessPort s k) then 2
  else if (domSess s d).any (fun j => sessPort s j == sessPort s k) then 3
  else if s.get (FM_DOM_CFG_ROLE d) = 0 ∧ domSess s d ≠ [] then 4
  else 0

/-- The three enables of a session are 1 (R329). -/
def sessWanted (s : State) (k : Nat) : Bool :=
  s.on (FM_SESS_CFG_EN k) && s.on (FM_DOM_CFG_EN (sessDom s k)) && s.on FM_CTRL_EN

/-- The sessions whose own EN reads 1, rising. -/
def sessEnabled (s : State) : List Nat :=
  (s.regs.filter (fun e => 0x00D10000 ≤ e.1 && e.1 < 0x00D18000 && e.1 % 0x40 == 0 && e.2.getLsbD 0)).map
    (fun e => (e.1 - 0x00D10000) / 0x40)

/-- One session at its commitment (R329). -/
def sessCommit (k : Nat) (s : State) : State :=
  if !sessWanted s k || (s.sessRec k).committed || s.on (FM_SESS_STATUS_SUSPENDED k) then s
  else
    let c := sessRefusal s k
    let s := s.put (FM_SESS_STATUS_REFUSED k) c
    if c ≠ 0 then s
    else
      let s := s.setSess k { s.sessRec k with committed := true }
      sessSet k (if s.portUp (sessPort s k) then 1 else 2) s

/-- Sessions at one commitment point, in ascending order; the Forbidden combinations they meet are recorded together (R51, R329). -/
def commitAll (l : List Nat) (s : State) : State :=
  let r := l.foldl (fun (a : List (Nat × Nat × Nat) × State) k =>
    let s := a.2
    let errs := if sessWanted s k && !(s.sessRec k).committed && !s.on (FM_SESS_STATUS_SUSPENDED k) then
      (sessForbidden s k).map (fun c => (c, 3, k)) else []
    (a.1 ++ errs, sessCommit k s)) ([], s)
  modeErrs r.1 r.2

/-- A write of FM_SESSs_CFG.EN (R329, R333, R356): 1 clears a suspension and commits, 0 disables. -/
def sessEnable (k : Nat) (en : Bool) (s : State) : State :=
  if en then commitAll [k] ((s.put (FM_SESS_CFG_EN k) 1).put (FM_SESS_STATUS_SUSPENDED k) 0)
  else sessDisable k (s.put (FM_SESS_CFG_EN k) 0)

/-- A domain that is taken out of service keeps nothing of its parent. -/
def domDown (d : Nat) (s : State) : State := domClear d (forEach (domSess s d) sessDisable s)

/-- Another enabled domain has the same number and majorSdoId, or the identity is zero (R327). -/
def domRefused (s : State) (d : Nat) : Bool :=
  domClockId s d == 0 ||
    (List.range 4).any (fun e => e != d && s.on (FM_DOM_CFG_EN e) &&
      s.get (FM_DOM_CFG_DOMAIN_NUMBER e) == s.get (FM_DOM_CFG_DOMAIN_NUMBER d) && gptp s e == gptp s d)

/-- FM_DOMd_CFG.EN goes to 1 (R327, R352): I and DOM_OFFSET are cleared, and the domain's sessions commit; or to 0. -/
def domEnable (d : Nat) (en : Bool) (s : State) : State :=
  if en then
    let s :=
      if s.on (FM_DOM_CFG_EN d) then s
      else
        let s := domClear d ((s.put (FM_DOM_CFG_EN d) 1).setDom d {})
        integShow d ((s.put (FM_DOM_STATUS_SYNCED d) 0).put (FM_DOM_STATUS_WAS_SYNCED d) 0)
    srcVoidRefresh (commitAll ((sessEnabled s).filter (fun k => sessDom s k == d)) s)
  else srcVoidRefresh (domDown d (s.put (FM_DOM_CFG_EN d) 0))

/-- FM_CTRL.EN (R329, R360). -/
def ferryEnable (en : Bool) (s : State) : State :=
  if en then srcVoidRefresh (commitAll (sessEnabled s) ((s.put FM_CTRL_EN 1).put FM_STATUS_RUNNING 1))
  else
    let s := forEach (List.range 4) domDown ((s.put FM_CTRL_EN 0).put FM_STATUS_RUNNING 0)
    srcVoidRefresh s

/-- A block reset starts (R357): every session is reset and both queues are emptied; the third in 10 s is a major alarm and a
device-level escalation. -/
def blockReset (s : State) : State :=
  let s := forEach (committed s) (sessReset false) s
  let s := forEach s.fm.rxq (fun m s => (poolFree 3 m.buf clsFerryman s).2) s
  let times := s.now :: recent s.now s.fm.resetsAt
  let s : State := { s with fm := { s.fm with rxq := [], timerq := [], resetsAt := times } }
  let s := s.put FM_STATUS_RESETTING 1
  if 3 ≤ times.length then raiseMajor 5 { s with escDue := s.escDue + 1 } else s

/-- A transmission of a session is 10 ms past due (R355). -/
def sessionStall (k : Nat) (s : State) : State := if sessState s k = 3 then s else sessReset true k s

/-- A queue of the Ferryman holds work and has waited 100 µs without service (R355). -/
def engineStall (s : State) : State := if s.on FM_STATUS_RESETTING then s else blockReset s

/-- A block reset is complete (R357). -/
def blockResetDone (s : State) : State :=
  if s.on FM_STATUS_RESETTING then (s.put FM_STATUS_RESETTING 0).ev FM_EVENT_BLOCK_RESET else s

/-- A write to FM_JUMP_THRESH restarts every run (R363). -/
def jumpThreshWritten (s : State) : State :=
  forEach (s.sess.map (fun e => e.1)) (fun k s => s.setSess k { s.sessRec k with run := [], dRun := [] }) s

/-- A port enters or leaves UP: its sessions leave or enter FAULTY (R333), and frames the Ferryman handed to it are dropped (R339). -/
def fmPortChange (p : Nat) (s : State) : State :=
  let s := if s.portUp p then s else ferryDropAll p s
  forEach ((committed s).filter (fun k => sessPort s k == p)) (fun k s =>
    if s.portUp p then (if sessState s k = 2 then sessSet k 1 s else s)
    else if sessState s k = 2 then s
    else sessSet k 2 (sessClear k s)) s

end Sys2Proof.Machine
end

