-- ==== Sys2Proof/Machine/Transmit.lean ====
section
/-!
DEFINITION. A frame in transmission on a port (R262, R339, R421 to R423, R475): when it ends, what its end does, preemption, and the
express frames a port has launched (R464, R466).
-/

namespace Sys2Proof.Machine

/-! ### Launches -/

/-- A frame's length as far as it is known, else a bound (R426, R470). -/
def knownLen (f : FrameRec) (bound : Nat) : Nat := if f.tail then f.bytes.length else bound

/-- A CLK_FAB cycle now, in ps. -/
def fabPs (s : State) : Nat := if s.on SYN_STATUS_SAFE_RATIO then 1600 else 800

/-- When a CLK_FAB cycle, counted five to a CLK_TIME tick, comes or came, in ps (R464). -/
def fabAt (s : State) (k : Int) : Nat := ((s.nowPs : Int) + (k - 5 * s.clk) * fabPs s).toNat

/-- XC_PORTp_STATUS.PENDING follows the launches (R471, R482). -/
def pendRefresh (e : Nat) (s : State) : State :=
  s.putB (XC_PORT_STATUS_PENDING e) ((s.portRec e).launches.any (fun l => !l.launched))

/-- When the last byte of a launched frame leaves, where its tail is in: one beyond MAX_LEN ends with its stomp (R466). -/
def launchEnd (s : State) (e : Nat) (l : LaunchRec) : Option Nat :=
  let k := s.copyRec l.copy
  let f := s.frameRec k.frame
  if !f.tail then none
  else some (fabAt s l.at_ + min ((egressEdit f k).1.length + 4) (s.get (XC_STREAM_MAX_LEN_V l.stream) + 4) * byteTime (s.rate e))

/-- A launched express copy has left, a frame beyond MAX_LEN stomped there (R466). -/
def launchFinish (e : Nat) (l : LaunchRec) (s : State) : State :=
  let f := (s.copyRec l.copy).frame
  let was := s.frameRec f
  let lim := s.get (XC_STREAM_MAX_LEN_V l.stream)
  let s :=
    if lim < was.bytes.length then
      let s := s.setFrame f { was with good := false, bytes := was.bytes.take (lim + 4) }
      (s.count (XC_STREAM_CNT2_OVERLEN l.stream)).ev XC_EVENT_OVERLEN
    else s
  let s := sendCopy l.copy {} s
  let r := s.portRec e
  let s := s.setPort e { r with launches := r.launches.filter (fun x => x.copy != l.copy) }
  let s := s.setFrame f { s.frameRec f with express := none, good := was.good, bytes := was.bytes }
  frameUnref f (s.setCopy l.copy {})

/-! ### The end of a transmission -/

/-- The bytes of a frame in transmission, with its FCS, once its tail is in. -/
def txTotal (s : State) (t : TxRec) : Option Nat :=
  match t.copy with
  | none => some (t.ferry.bytes.length + 4)
  | some c =>
    let k := s.copyRec c
    let f := s.frameRec k.frame
    if f.tail then some ((egressEdit f k).1.length + 4) else none

/-- When byte `n` of a frame in transmission on port `p` has left, in ps. -/
def txAt (s : State) (p : Nat) (t : TxRec) (n : Nat) : Nat := t.start + (n - t.sent) * byteTime (s.rate p)

/-- A queue's copy has left port `p` at `t` (ps), its cells read: its queue is charged (R422, R423), and its cells go back. -/
def copyEnd (p c at_ : Nat) (x : TxRec) (s : State) : State :=
  let k := s.copyRec c
  let q := k.queue
  let s := cellsLook (x.cells.drop 1) (creditSyncTo q at_ s)
  let len := (s.frameRec k.frame).bytes.length
  let s := sendCopy c x (s.setPort p { s.portRec p with tx := none })
  let r := s.queueRec q
  let s := s.setQueue q { r with deficit := if r.copies.isEmpty then 0 else r.deficit - len }
  frameUnref k.frame ((freeCellsQ clsEgress x.cells s).setCopy c {})

/-- A frame of the Ferryman has left port `p` with its insertion, and its stamp goes back (R339). -/
def ferryEnd (p : Nat) (x : TxRec) (s : State) : State :=
  let o := x.ferry
  let r := insApply (s.on (MAC_CFG_UDP4_MODE p)) true o.bytes.length o.ins x.stamp 0 o.bytes
  let s := sendFrame p 7 r.bytes x.stomp x (insFlags p r (s.setPort p { s.portRec p with tx := none }))
  if o.kind < 4 then
    { s with fm := { s.fm with stamps := s.fm.stamps ++ [⟨o.sess, o.kind, o.seq, x.stamp, x.gen, x.epoch, x.stomp, o.buf⟩] } }
  else (poolFree 3 o.buf clsFerryman s).2

/-- The frame in transmission on port `p` has left at `t` (ps). -/
def txFinish (p at_ : Nat) (x : TxRec) (s : State) : State :=
  match x.copy with
  | some c => copyEnd p c at_ x s
  | none => ferryEnd p x s

/-! ### Preemption (R475) -/

/-- A launch becomes pending on a port whose preemption is active: the preemptable frame in transmission is to stop at the first byte at
which Clause 99 allows it, a smallest fragment sent and 64 bytes left (R475). -/
def preemptNow (e : Nat) (s : State) : State :=
  match (s.portRec e).tx with
  | none => s
  | some t =>
    let bt := byteTime (s.rate e)
    let n := max (t.sent + (s.nowPs - t.start + bt - 1) / bt) (t.sent + 64 * (1 + s.get (XC_PORT_CFG_ADD_FRAG e)))
    if s.on (XC_PORT_STATUS_PREEMPT_ACTIVE e) && t.pre && t.stop.isNone then
      s.setPort e { s.portRec e with tx := some { t with stop := some n } }
    else s

/-- A fragment of the preemptable frame ends after `n` bytes of it, and the frame is held; what is known of the frame goes out (R475). -/
def txHold (p n : Nat) (t : TxRec) (s : State) : State :=
  let cuts := t.cuts ++ [n]
  let all : Option (List Byte) := t.copy.bind (fun c =>
    if (s.frameRec (s.copyRec c).frame).tail then some (copyOut s c t.cells).bytes else none)
  let s := match all with
    | some l => sendMpackets p (((mPackets t.num (l ++ fcsOf l) 0 0 cuts).take cuts.length).drop t.shown) s
    | none => s
  let t' : TxRec := { t with sent := n, stop := none, cuts := cuts, shown := if all.isSome then cuts.length else t.shown }
  (s.setPort p { s.portRec p with tx := none, held := some t' }).count (XC_PORT_CNT0_PREEMPTED p)

/-- The frame in transmission on port `p` goes on: it ends, or is held where it was to stop, but not with fewer than 64 bytes left.  It ends
no earlier than `since` (ps). -/
def txRun (p since : Nat) (s : State) : State :=
  match (s.portRec p).tx with
  | none => s
  | some t =>
    let total := txTotal s t
    match t.stop.filter (fun n => total.all (fun m => decide (n + 64 ≤ m))) with
    | some n => if s.nowPs < txAt s p t n then s else txHold p n t s
    | none =>
      match total with
      | some m => if s.nowPs < txAt s p t m then s else txFinish p (max since (txAt s p t m)) t s
      | none => s

/-- No launch is pending or leaving, and nothing is in transmission: the preempted frame goes on (R475). -/
def txResume (p : Nat) (s : State) : State :=
  let r := s.portRec p
  match r.tx, r.held with
  | none, some t => if r.launches.isEmpty then s.setPort p { r with tx := some { t with start := s.nowPs }, held := none } else s
  | _, _ => s

/-- What leaves port `p` goes on to the present. -/
def txAdvance (p since : Nat) (s : State) : State :=
  let s := txRun p since s
  let done := (s.portRec p).launches.filter (fun l => l.launched && (launchEnd s p l).any (fun t => decide (t ≤ s.nowPs)))
  txResume p (forEach done (launchFinish p) s)

/-- The ports on which something leaves. -/
def portsSending (s : State) : List Nat :=
  (s.ports.filter (fun e => e.2.tx.isSome || e.2.held.isSome || !e.2.launches.isEmpty)).map (fun e => e.1)

/-- The MAC of port `e` transmits at `t` (ps) a frame that it may not preempt (R470), or an express frame there overlaps the `dur` from `t`
on (R471, R472); the length of a frame whose tail is not in is taken as MAX_LEN, the port's or its stream's. -/
def busyAt (s : State) (e t dur : Nat) : Bool :=
  let r := s.portRec e
  let own := r.tx.any (fun x =>
    !(s.on (XC_PORT_STATUS_PREEMPT_ACTIVE e) && x.pre) && decide (t < txAt s e x ((txTotal s x).getD (s.get (MAC_CFG_MAX_LEN e)))))
  own || r.launches.any (fun l =>
    let from_ := fabAt s l.at_
    decide (from_ < t + dur) &&
      decide (t < (launchEnd s e l).getD (from_ + s.get (XC_STREAM_MAX_LEN_V l.stream) * byteTime (s.rate e))))

/-! ### Cells that a frame in transmission holds -/

/-- A copy of frame `f` is in transmission, or preempted. -/
def txOf (s : State) (f : Nat) (t : Option TxRec) : Bool := t.any (fun t => t.copy.any (fun c => (s.copyRec c).frame == f))

/-- The ports on which a copy of frame `f` from a queue is in transmission, or preempted. -/
def txPorts (s : State) (f : Nat) : List Nat := (s.ports.filter (fun e => txOf s f e.2.tx || txOf s f e.2.held)).map (fun e => e.1)

/-- They hold the frame's later cells too. -/
def txGrow (f : Nat) (new : List Nat) (s : State) : State :=
  forEach (txPorts s f) (fun p s =>
    let r := s.portRec p
    let grow := fun (t : Option TxRec) => if txOf s f t then t.map (fun t => { t with cells := t.cells ++ new }) else t
    s.setPort p { r with tx := grow r.tx, held := grow r.held }) s

end Sys2Proof.Machine
end

