-- ==== Sys2Proof/Machine/Pipeline.lean ====
section
/-!
DEFINITION. The ingress pipelines (R370 to R395, R404, R460 to R473): MAC table, classifier, meters, stream redundancy, destination
sets, express offers, copies, and the end of a frame.
-/

namespace Sys2Proof.Machine

/-- The pipeline of a port (R25). -/
def pipeOf (p : Nat) : Nat := if p < 32 ∨ p = 64 then 0 else 1

/-! ### MAC table (R376 to R379) -/

/-- An entry's word 2. -/
def macWord2 (s : State) (b w : Nat) : Nat := s.tword (macAddr b w + 8)

/-- The key of an entry in the FWD_MAC_KEY layout: MAC and VID. -/
def macKeyOf (mac vid : Nat) : Nat := mac % 2 ^ 48 + 2 ^ 48 * (vid % 4096)

/-- The way of a bucket that holds a key. -/
def macFind (s : State) (b mac vid : Nat) : Option Nat :=
  (List.range 4).find? (fun w => (macWord2 s b w).testBit 31 && s.bytesLE (macAddr b w) 8 == macKeyOf mac vid)

/-- The lowest free way of a bucket. -/
def macFree (s : State) (b : Nat) : Option Nat := (List.range 4).find? (fun w => !(macWord2 s b w).testBit 31)

/-- An entry is written. -/
def macPut (b w mac vid w2 : Nat) (s : State) : State :=
  (s.setBytesLE (macAddr b w) 8 (macKeyOf mac vid)).setTword (macAddr b w + 8) w2

/-- Learning of a source address (R377); a static entry stays as it is. -/
def macLearn (port mac vid : Nat) (s : State) : State :=
  let b := macBucket vid mac
  match macFind s b mac vid with
  | some w =>
    let v := macWord2 s b w
    if v.testBit 13 then s
    else (s.setTbits (macAddr b w + 8) 14 1 1).setTbits (macAddr b w + 8) 0 13 port
  | none =>
    match macFree s b with
    | some w => macPut b w mac vid (2 ^ 31 + 2 ^ 14 + port) s
    | none => (s.count FWD_CNT_LEARN_FULL).ev FWD_EVENT_LEARN_FULL

/-- The addresses of the entries the table memory lists, by their word 2. -/
def macListed (s : State) : List Nat :=
  (s.mem.filter (fun e => 0x03100000 ≤ e.1 && e.1 < 0x03300000 && e.1 % 0x10 == 0xB && e.2.getLsbD 7)).map (fun e => e.1 - 3)

/-- A scan of the MAC table reads every word of it (R549). -/
def macLook (s : State) : State := eccLook (macAddr 0 0) 0x200000 s

/-- One pass of the ageing scanner (R378). -/
def macAge (s : State) : State :=
  if s.get FWD_CTRL_AGE_TIME = 0 then s
  else
    let s := macLook s
    forEach (macListed s) (fun a s =>
      if s.tbits a 13 1 = 1 then s
      else if s.tbits a 14 1 = 0 then s.setBytesLE (a - 8) 12 0
      else s.setTbits a 14 1 0) s

/-- FLUSH_DYNAMIC (R379, R399): the dynamic entries go, or those of one port. -/
def macFlush (only : Option Nat) (s : State) : State :=
  let s := macLook s
  forEach (macListed s) (fun a s =>
    if s.tbits a 13 1 = 0 ∧ only.all (fun p => s.tbits a 0 10 == p) then
      s.setBytesLE (a - 8) 12 0
    else s) s

/-- The end of a MAC command with its result: 0 OK, 1 NOT_FOUND, 2 FULL (R398, R399). -/
def macDone (r : Nat) (s : State) : State :=
  let s := (s.put FWD_MAC_CMD_RESULT r).ev FWD_EVENT_MAC_CMD_DONE
  if r = 0 then s else s.ev FWD_EVENT_MAC_CMD_FAIL

/-- FLUSH_DYNAMIC starts, with the port it is for as FWD_MAC_CMD names it now (R379, R399). -/
def flushDynamicGo (s : State) : State :=
  { s.put FWD_MAC_CMD_GO 1 with
    fwd := { flush := some (if s.on FWD_MAC_CMD_PORT_FILTER then some (s.get FWD_MAC_CMD_PORT) else none) } }

/-- FLUSH_DYNAMIC completes (R379, R399). -/
def flushDynamicDone (s : State) : State :=
  match s.fwd.flush with
  | some only => macDone 0 (macFlush only ({ s with fwd := {} }.put FWD_MAC_CMD_GO 0))
  | none => s

/-- The MAC command that GO started (R379); FLUSH_DYNAMIC completes by its own event. -/
def macCommand (s : State) : State :=
  let mac := s.wide FWD_MAC_KEY % 2 ^ 48
  let vid := s.wide FWD_MAC_KEY / 2 ^ 48 % 4096
  let b := macBucket vid mac
  let s := eccLook (macAddr b 0) 64 s
  match s.get FWD_MAC_CMD_OP with
  | 1 =>
    let w2 := (s.word FWD_MAC_DATA).toNat
    match macFind s b mac vid with
    | some w => macDone 0 (macPut b w mac vid w2 s)
    | none =>
      match macFree s b with
      | some w => macDone 0 (macPut b w mac vid w2 s)
      | none => macDone 2 s
  | 2 =>
    match macFind s b mac vid with
    | some w => macDone 0 (s.setBytesLE (macAddr b w) 12 0)
    | none => macDone 1 s
  | 3 =>
    match macFind s b mac vid with
    | some w => macDone 0 (s.setWord FWD_MAC_DATA (BitVec.ofNat 32 (macWord2 s b w)))
    | none => macDone 1 s
  | _ => s

/-! ### Classifier (R382 to R384) -/

/-- The 448-bit key of a frame (R382); the PCP of a frame without a tag, which carries none, is 0. -/
def classKey (port vid : Nat) (p : Parsed) : Nat :=
  port + 2 ^ 7 * (if p.tagged then 1 else 0) + 2 ^ 8 * vid + 2 ^ 20 * p.pcp + 2 ^ 23 * p.da + 2 ^ 71 * p.sa +
  2 ^ 119 * p.etype + 2 ^ 135 * p.l3 + 2 ^ 137 * p.dscp + 2 ^ 143 * p.proto + 2 ^ 151 * p.l4s + 2 ^ 167 * p.l4d +
  2 ^ 183 * p.ips + 2 ^ 311 * p.ipd + 2 ^ 439 * p.ptpMsg + 2 ^ 443 * (if p.ptp.isSome then 1 else 0) +
  2 ^ 444 * (if p.rtag.isSome then 1 else 0)

/-- The classifier entries with VALID set, rising. -/
def classListed (s : State) : List Nat :=
  (s.mem.filter (fun e => 0x03300000 ≤ e.1 && e.1 < 0x03500000 && e.1 % 0x80 == 0x78 && e.2.getLsbD 0)).map
    (fun e => (e.1 - 0x03300000) / 0x80)

/-- The action of the lowest VALID entry that matches a key (R383); 0 where none does. -/
def classAction (s : State) (key : Nat) : Nat :=
  match (classListed s).find? (fun n => (s.bytesLE (classAddr n) 56 ^^^ key) &&& s.bytesLE (classAddr n + 56) 56 == 0) with
  | some n => s.bytesLE (classAddr n + 112) 8
  | none => 0

/-! ### Meters (R386, R387).  Buckets are in 1/2,000,000 byte: CIR in kbit/s adds CIR in each 4 ns. -/

/-- One byte in bucket units. -/
def meterByte : Int := 2000000

/-- The lowest a bucket goes (R387). -/
def meterFloor : Int := -9600 * meterByte

/-- A meter's buckets at the present time. -/
def meterFill (s : State) (n : Nat) : MeterRec :=
  let m := s.meterRec n
  let a := meterAddr n
  let dt : Int := s.now - m.at_
  { tc := min (m.tc + dt * s.tword a) (s.tbits (a + 8) 0 24 * meterByte),
    tp := min (m.tp + dt * s.tword (a + 4)) (s.tbits (a + 12) 0 24 * meterByte), at_ := s.now }

/-- The buckets of a meter whose words 0 to 4 are written are full (R402). -/
def meterReset (n : Nat) (s : State) : State :=
  let a := meterAddr n
  s.setMeter n ⟨s.tbits (a + 8) 0 24 * meterByte, s.tbits (a + 12) 0 24 * meterByte, s.now⟩

/-- Debits the buckets that a colour debits (RFC 2698): both for GREEN, P for YELLOW. -/
def meterDebit (m : MeterRec) (colour : Nat) (amount : Int) : MeterRec :=
  let lo := fun (v : Int) => if v < meterFloor then meterFloor else v
  if colour = 0 then { m with tc := lo (m.tc - amount), tp := lo (m.tp - amount) }
  else if colour = 1 then { m with tp := lo (m.tp - amount) }
  else m

/-- A frame of a provisional length is metered (R386, R387): its colour. -/
def meterTest (n len colour : Nat) (s : State) : Nat × State :=
  let a := meterAddr n
  if s.tbits (a + 16) 0 1 = 0 then (colour, s)
  else
    let b : Int := (len + s.tbits (a + 16) 8 5 : Nat) * meterByte
    let aware := s.tbits (a + 16) 1 1 == 1
    let m := meterFill s n
    let c :=
      if (aware && colour == 2) || decide (m.tp < b) then 2
      else if (aware && colour == 1) || decide (m.tc < b) then 1
      else 0
    (c, (s.setMeter n (meterDebit m c b)).tcount (a + 20 + 4 * c) 0 32 1)

/-- The correction at a frame's end (R387). -/
def meterCorrect (n colour provisional len : Nat) (s : State) : State :=
  if s.tbits (meterAddr n + 16) 0 1 = 0 then s
  else s.setMeter n (meterDebit (meterFill s n) colour (((len : Int) - provisional) * meterByte))

/-! ### Stream redundancy (R392 to R394, R575) -/

/-- Marks among the top `d` of `hist` bits of a history that are not set: the numbers shifted out unseen (R392). -/
def lostBits (hist d h : Nat) : Nat :=
  ((List.range hist).filter (fun k => decide (hist ≤ k + d) && !h.testBit k)).length

/-- A passed frame counts and restarts the reset timer (R392). -/
def frerPass (a : Nat) (s : State) : State := s.tcount (a + 16) 0 16 1

/-- The recovery function on a frame of stream `n` with an optional sequence number; whether it passes (R392). -/
def frerRecover (n : Nat) (seq : Option Nat) (s : State) : Bool × State :=
  let a := streamAddr n
  let w0 := s.tword a
  if !w0.testBit 1 then (true, s)
  else
    match seq with
    | none => if w0.testBit 3 then (true, frerPass a s) else (false, s.tcount (a + 24) 16 16 1)
    | some q =>
      let hist := w0 / 256 % 64
      let full := 2 ^ hist - 1
      let recov := s.tbits (a + 4) 16 16
      let h := s.tword (a + 8)
      if s.tbits (a + 12) 0 1 = 1 then
        (true, frerPass a (((s.setTbits (a + 4) 16 16 q).setTword (a + 8) full).setTbits (a + 12) 0 1 0))
      else
        let d : Int := ((q : Int) - recov + 32768) % 65536 - 32768
        if w0.testBit 2 then
          if d = 0 then (false, s.tcount (a + 16) 16 16 1) else (true, frerPass a (s.setTbits (a + 4) 16 16 q))
        else if (hist : Int) ≤ d ∨ d ≤ -(hist : Int) then (false, s.tcount (a + 20) 16 16 1)
        else if 0 < d then
          let k := d.toNat
          let s := s.tcount (a + 24) 0 16 (lostBits hist k h)
          (true, frerPass a ((s.setTword (a + 8) ((h * 2 ^ k ||| 1) % 2 ^ hist)).setTbits (a + 4) 16 16 q))
        else if h.testBit (-d).toNat then (false, s.tcount (a + 16) 16 16 1)
        else (true, frerPass a ((s.setTword (a + 8) (h ||| 2 ^ (-d).toNat)).tcount (a + 20) 0 16 1))

/-- The reset timer of a stream expires (R393). -/
def frerTimeout (n : Nat) (s : State) : State :=
  let a := streamAddr n
  if s.tbits a 1 1 = 1 then
    ((s.setTbits (a + 12) 0 1 1).tcount (a + 28) 0 16 1).ev FWD_EVENT_FRER_RESET
  else s

/-- The stream's number is taken and advances (R394). -/
def seqTake (n : Nat) (s : State) : Nat × State :=
  let a := streamAddr n + 4
  let q := s.tbits a 0 16
  (q, s.setTbits a 0 16 (q + 1))

/-- The stream is paired: it generates, and PAIR_GENSEL marks it, in a pair (R575). -/
def seqPaired (s : State) (n : Nat) : Bool :=
  s.pairState != .solo && s.tbits (streamAddr n) 0 1 == 1 && (s.word (PAIR_GENSEL (n / 32))).getLsbD (n % 32)

/-- Frames of a paired stream wait for their number: in STANDBY, and until the close record at a handover (R575, R578). -/
def seqHolds (s : State) (n : Nat) : Bool := seqPaired s n && (s.pairFollows || s.pair.closing.contains n)

/-! ### Cells of a frame (R404, R409) -/

/-- Up to `n` cells for a frame of pipeline `i`, down to a floor. -/
def takeCells (i floor : Nat) : Nat → State → List Nat × State
  | 0, s => ([], s)
  | n + 1, s =>
    match poolAlloc 0 (if i = 0 then clsIngress0 else clsIngress1) floor s with
    | (some b, s) => let r := takeCells i 0 n (cellWritten b s); (b :: r.1, r.2)
    | (none, s) => ([], s)

/-- Every cell of a list takes a reference count. -/
def cellRefs (l : List Nat) (n : Nat) (s : State) : State := forEach l (fun b s => s.setBuf 0 b { s.buf 0 b with refs := n }) s

/-- The ordinary copies of frame `f` that stand in queues. -/
def queuedCopies (s : State) (f : Nat) : List Nat :=
  (s.copies.filter (fun e => e.2.live && e.2.frame == f && !e.2.sending)).map (fun e => e.1)

/-! ### Express crossings (R460 to R473) -/

/-- RES of an egress port, in ps (R462). -/
def xcRes (s : State) (e : Nat) : Nat :=
  if s.rate e = 0 then 2048000 else if s.rate e = 1 then 512000 else if s.rate e = 2 then 384000 else 320000

/-- The time base at the start of a CLK_FAB cycle, counted five to a CLK_TIME tick (R425). -/
def fabCount (s : State) (k : Int) : Nat :=
  let d := k - 5 * s.clk
  (((s.tb.count : Int) + d / 5 * s.incr + d % 5 * 2 ^ 42 / 5) % span40).toNat

/-- Why an express frame of stream `x` and `len` bytes launched in CLK_FAB cycle `k` is diverted; 0 where it crosses (R470, R472). -/
def xcDivert (s : State) (x e tc : Nat) (k : Int) (len : Nat) : Nat :=
  let dur := s.get (XC_STREAM_MAX_LEN_V x) * byteTime (s.rate e)
  if !gateOpenFor s e tc (fabCount s k) (dur * 2 ^ 40 / 1000) then 1
  else if busyAt s e (fabAt s k) (len * byteTime (s.rate e)) then 2
  else 0

/-! ### Copies -/

/-- A copy's number among the copies. -/
def newCopy (k : CopyRec) (s : State) : Nat × State :=
  let c := freeCopy s
  let f := s.frameRec k.frame
  (c, (s.setCopy c { k with live := true }).setFrame k.frame { f with copies := f.copies + 1 })

/-- The insertion a transparent clock puts into the copies of an event message (R345). -/
def transitIns (s : State) (d k : Nat) (p : Parsed) : InsCmd :=
  if p.ptpMsg = 0 ∨ p.ptpMsg = 1 then
    let addend :=
      if s.get (FM_DOM_CFG_ROLE d) = 3 ∧ p.ptpMsg = 0 ∧ !s.on (FM_SESS_STATUS_NO_DELAY k) ∧ (s.sessRec k).dfSet then
        dFilt s k + asymmetry (sessAlpha s k) (dFilt s k)
      else 0
    { op := 2, l4 := p.l3, offset := p.ptp.getD 0, l4off := p.l4off, addend := addend }
  else {}

/-- A copy for a port that is not UP is dropped and counts (R261, R671). -/
def dropDown (e tc : Nat) (s : State) : State := pmcEvent 0x022 (.frame tc) 1 (s.count (MAC_CNT1_DROPPED e))

/-- The copy of frame `f` for port `e` in class `tc`, tagged or not, is offered to its queue (R261, R388, R405, R408). -/
def copyOfferAs (f e tc : Nat) (cut ecn untag : Bool) (ins : InsCmd) (s : State) : State :=
  let fr := s.frameRec f
  if !s.portUp e then dropDown e tc s
  else
    let q := 8 * e + tc
    match queueAdmit q (cellsOf fr.provisional) fr.colour ecn s with
    | (none, s) => s
    | (some ce, s) =>
      let r := newCopy { frame := f, port := e, queue := q, cut := cut, ce := ce, untag := untag, ins := ins } s
      enqueue q r.1 f r.2

/-- The copy is offered with the egress tagging of its VLAN (R375). -/
def copyOffer (f e tc : Nat) (cut : Bool) (ecn : Bool) (ins : InsCmd) (s : State) : State :=
  copyOfferAs f e tc cut ecn ((s.portMask (vlanAddr (s.frameRec f).vid + 12)).testBit e) ins s

/-- An express frame crosses: its launch, in CLK_FAB cycle `k` and `fine` beyond its start, is pending on the egress port (R465, R471). -/
def xcLaunchPend (x f e tc : Nat) (k fine : Int) (ins : InsCmd) (s : State) : State :=
  let untag := (s.portMask (vlanAddr (s.frameRec f).vid + 12)).testBit e
  let r := newCopy { frame := f, port := e, queue := 8 * e + tc, cut := true, untag := untag, ins := ins, sending := true } s
  let s := r.2
  let s := s.setFrame f { s.frameRec f with express := some x }
  let s := s.setPort e { s.portRec e with launches := (s.portRec e).launches ++ [⟨x, r.1, k, fine, false⟩] }
  preemptNow e (pendRefresh e (pmcEvent 0x026 (.frame tc) 1 s))

/-- A diverted express frame counts with its cause (R469, R473). -/
def xcLate (x cause tc : Nat) (s : State) : State :=
  let s := (s.count (XC_STREAM_CNT1_LATE_EXPRESS x)).put (XC_STREAM_STATUS_LAST_CAUSE x) cause
  pmcEvent 0x027 (.frame tc) 1 (s.ev XC_EVENT_LATE)

/-- What becomes of an offer to stream `x` for a frame from port `port` (R460): none where the frame is ordinary. -/
def xcOffer (x port : Nat) (s : State) : Option Nat × State :=
  if !s.on XC_CTRL_EN then (none, s)
  else if s.get (XC_STREAM_STATUS_STATE x) = 0 then (none, s.count XC_CNT_NOT_INSTALLED)
  else if s.get (XC_STREAM_CFG_INGRESS x) ≠ port then (none, s.count XC_CNT_WRONG_PORT)
  else (some x, s)

/-- The express frame `f` of stream `x`, which arrived as `arr` says: its launch comes RES later (R461, R462, R464, R469 to R473).  One that
waits for its number (R575) crosses nowhere: it is stored in the queue of its class. -/
def xcFrame (x f : Nat) (arr : Arrival) (cut ecn : Bool) (ins : InsCmd) (s : State) : State :=
  let e := s.get (XC_STREAM_CFG_EGRESS x)
  let tc := s.get (XC_STREAM_CFG_TC x)
  let s := s.setFrame f { s.frameRec f with tc := tc }
  if !s.portUp e then dropDown e tc s
  else if (s.frameRec f).waiting then copyOffer f e tc false ecn ins s
  else if s.get (XC_STREAM_STATUS_STATE x) ≠ 2 then copyOffer f e tc cut ecn ins (xcLate x 3 tc s)
  else
    let k := arr.fab + (xcRes s e / 800 : Nat)
    let c := xcDivert s x e tc k (knownLen (s.frameRec f) (s.get (XC_STREAM_MAX_LEN_V x)))
    if c = 0 then xcLaunchPend x f e tc k arr.frac ins s else copyOffer f e tc cut ecn ins (xcLate x c tc s)

/-! ### The decision (R370) -/

/-- The state of a frame in the pipeline: where it stands, and whether it has left. -/
structure Deciding where
  frame : Nat
  p : Parsed
  dest : List Nat := []
  cpu : Bool := false
  offer : Option Nat := none
  ins : InsCmd := {}
  drop : Bool := false
deriving DecidableEq, Repr

/-- The ports of a mask, rising, that exist. -/
def maskPorts (s : State) (m : Nat) : List Nat := (bitsOf 66 m).filter s.portExists

/-- A frame the filters drop (R381, R384, R386). -/
def filterDrop (port : Nat) (s : State) : State :=
  s.count (FWD_CNT_FILTER_DROP_V (pipeOf port))

/-- VLAN admission (R374). -/
def vlanOk (s : State) (port vid : Nat) (tagged : Bool) : Bool :=
  let a := s.get (FWD_PORT_CFG_ACCEPT port)
  let w6 := s.tword (vlanAddr vid + 24)
  !((a == 1 && !tagged) || (a == 2 && tagged)) && vid != 4095 && w6.testBit 0 &&
    !(s.on (FWD_PORT_CFG_INGRESS_FILTER port) && !(s.portMask (vlanAddr vid)).testBit port)

/-- Whether a destination lies in 01-80-C2-00-00-00 to -0F (R381). -/
def reservedDa (da : Nat) : Bool := da / 16 == 0x0180C200000

/-- The destination set of R380, or that of R345 for a transparent clock's message, or R381's. -/
def destSet (s : State) (port vid : Nat) (p : Parsed) (transit : Option (Nat × Nat)) : List Nat × Bool :=
  match transit with
  | some (d, _) =>
    (((domSess s d).filter (fun k => sessState s k == 4 && sessPort s k != port)).map (sessPort s), false)
  | none =>
    if reservedDa p.da then (if s.on FWD_CTRL_RSVD_TO_CPU then ([64], false) else ([], true))
    else
      let member := s.portMask (vlanAddr vid)
      let mask :=
        if p.da = 2 ^ 48 - 1 then member
        else
          let b := macBucket vid p.da
          match macFind s b p.da vid with
          | some w =>
            let v := macWord2 s b w
            if v.testBit 12 then s.portMask (groupAddr (v % 1024)) else 2 ^ (v % 1024)
          | none => member
      ((maskPorts s (mask &&& member)).filter (fun e => e != port), false)

/-- The provisional length of a frame (R387). -/
def provisionalLen (rx : RxWindow) (p : Parsed) : Nat :=
  if rx.ended ∧ rx.bytes.length ≤ 128 then rx.bytes.length else p.implied.getD 128

/-- ECN-capable (R410). -/
def ecnCapable (p : Parsed) : Bool := p.l3 != 0 && p.ecn != 0

/-- MC10 holds for a set of copies (R44, R388). -/
def mc10 (s : State) (port : Nat) (dest : List Nat) : Bool :=
  dest.contains 64 || (decide (1 < dest.length) && dest.any (fun e => decide (s.rate port < s.rate e)))

/-- A copy cuts through (R388). -/
def cutsThrough (s : State) (port e : Nat) (dest : List Nat) (hold : Bool) : Bool :=
  s.on FWD_CTRL_CT_EN && s.on (FWD_PORT_CFG_CT_EN port) && port != 64 && decide (s.rate e ≤ s.rate port) &&
    !mc10 s port dest && !hold

/-- The classes of a frame from its port, its PCP and the classifier's action (R385). -/
def frameClass (s : State) (port : Nat) (p : Parsed) (act : Nat) : Nat × Nat × Nat :=
  let pcp := if p.tagged then p.pcp else s.get (FWD_PORT_CFG_DEF_PCP port)
  let tc := if act.testBit 10 then act / 2 ^ 11 % 8 else s.get (FWD_PORT_PCP2TC_V port) / 8 ^ pcp % 8
  let col := if act.testBit 14 then act / 2 ^ 15 % 4
    else if p.dei && s.on (FWD_PORT_CFG_DEI_TRUST port) then 1 else 0
  (pcp, tc, min col 2)

/-- Stages 5 and 6 of R370 on a frame: meter, recovery, generation; whether it goes on. -/
def meterStream (f port act : Nat) (p : Parsed) (s : State) : Bool × State :=
  let fr := s.frameRec f
  let m := if act.testBit 17 then some (act / 2 ^ 18 % 8192) else none
  let r := match m with
    | some n => meterTest n fr.provisional fr.colour s
    | none => (fr.colour, s)
  let s := r.2.setFrame f { fr with meter := m, colour := r.1 }
  let redDrop := match m with
    | some n => r.1 == 2 && s.tbits (meterAddr n + 16) 2 1 == 1
    | none => false
  if redDrop then (false, filterDrop port s)
  else if !act.testBit 32 then (true, s)
  else
    let n := act / 2 ^ 33 % 4096
    let v := frerRecover n p.rtag s
    if !v.1 then (false, v.2)
    else
      let s := v.2
      let w0 := s.tword (streamAddr n)
      let fr := { s.frameRec f with pop := w0.testBit 5 && !w0.testBit 4 }
      if !w0.testBit 0 then (true, s.setFrame f { fr with push := w0.testBit 4 && p.rtag.isSome, seqNo := p.rtag })
      else
        let fr := { fr with push := w0.testBit 4, paired := if seqPaired s n then some n else none }
        if seqHolds s n then (true, s.setFrame f { fr with waiting := true })
        else
          let q := seqTake n s
          (true, q.2.setFrame f { fr with seqNo := some q.1 })

/-- The copies of a decided frame (R388, R404, R408, R461): `others` are the ports whose copies an express frame keeps. -/
def resolve (port f : Nat) (arr : Arrival) (dest : List Nat) (cpu : Bool) (others : List Nat) (offer : Option Nat) (ins : InsCmd) (p : Parsed)
    (s : State) : State :=
  let ecn := ecnCapable p
  let hold := (s.frameRec f).waiting
  let o := match offer with
    | some x => xcOffer x port s
    | none => (none, s)
  let s := o.2
  match o.1 with
  | some x =>
    let e := s.get (XC_STREAM_CFG_EGRESS x)
    let others := others.filter (fun d => d != e)
    let all := e :: (others ++ (if cpu then [64] else []))
    let s := xcFrame x f arr (cutsThrough s port e all hold) ecn ins s
    let s := forEach others (fun d s => copyOffer f d (s.frameRec f).tc (cutsThrough s port d all hold) ecn ins s) s
    if cpu then copyOffer f 64 (s.frameRec f).tc false ecn {} s else s
  | none =>
    let all := if cpu && !dest.contains 64 then dest ++ [64] else dest
    forEach (all.mergeSort (fun a b => decide (a ≤ b))) (fun d s =>
      copyOffer f d (s.frameRec f).tc (cutsThrough s port d all hold) ecn ins s) s

/-- The lookups of a frame read their table words, and a bad one is handled first (R547): VLAN entry, the buckets of both
addresses, classifier, then the stream and meter entries its action names and its destination's group entry.  Of a broadcast destination, a
reserved one and a transparent clock's message none is looked up (R345, R380, R381). -/
def tableLooks (port vid : Nat) (p : Parsed) (transit : Bool) (s : State) : State :=
  if s.ecc.flips.isEmpty then s
  else
    let b := macBucket vid p.da
    let looked := !transit && p.da != 2 ^ 48 - 1 && !reservedDa p.da
    let s := eccLooks ([(vlanAddr vid, 32)] ++ (if looked then [(macAddr b 0, 64)] else []) ++
      [(macAddr (macBucket vid p.sa) 0, 64), (0x03300000, 0x200000)]) s
    let act := classAction s (classKey port vid p)
    let s := if act.testBit 17 then eccLook (meterAddr (act / 2 ^ 18 % 8192)) 32 s else s
    let s := if act.testBit 32 then eccLook (streamAddr (act / 2 ^ 33 % 4096)) 32 s else s
    if !looked then s else
    match macFind s b p.da vid with
    | some w =>
      let v := macWord2 s b w
      if v.testBit 12 then eccLook (groupAddr (v % 1024)) 16 s else s
    | none => s

/-- Stages 3 to 7 of R370 for a frame that is neither the Ferryman's nor the management engine's: DROP leaves COPY_CPU alone of the
action (R384), which never returns a frame to P64; a frame that an earlier stage drops, or of a reserved destination, is not offered to an
express stream (R381, R460), and an express event message keeps the copies of R345 (R461). -/
def forwardFrame (port f : Nat) (arr : Arrival) (p : Parsed) (transit : Option (Nat × Nat)) (s : State) : State :=
  let tagged := p.tagged && p.tvid != 0
  let vid := if tagged then p.tvid else s.get (FWD_PORT_CFG_PVID port)
  let s := tableLooks port vid p transit.isSome s
  if !vlanOk s port vid tagged then s.count (FWD_CNT_VLAN_DROP_V (pipeOf port))
  else
    let act := classAction s (classKey port vid p)
    let act0 := if act.testBit 0 then act &&& 3 else act
    let c := frameClass s port p act0
    let learn := s.on FWD_CTRL_LEARN_EN && s.on (FWD_PORT_CFG_LEARN_EN port) && !(s.tword (vlanAddr vid + 24)).testBit 1 &&
      !(p.sa.testBit 40) && p.sa != 0
    let s := s.setFrame f { s.frameRec f with
      vid := vid, pcp := c.1, dei := p.tagged && p.dei, tc := c.2.1, colour := c.2.2, learn := learn }
    let cpu := act0.testBit 1 && port != 64
    if act0.testBit 0 then
      let s := filterDrop port s
      if cpu then copyOffer f 64 c.2.1 false (ecnCapable p) {} s else s
    else
      let m := meterStream f port act0 p s
      let s := m.2
      if !m.1 then s
      else
        let ins := match transit with
          | some (d, k) => transitIns s d k p
          | none => (s.frameRec f).ins
        let r := destSet s port vid p transit
        let redirect := act0.testBit 2
        let rp := act0 / 8 % 128
        let dest := if redirect then (if s.portExists rp then [rp] else []) else r.1
        let s := if r.2 && !redirect then filterDrop port s else s
        let reserved := transit.isNone && reservedDa p.da
        let gone := redirect && dest.isEmpty
        let offer := if act0.testBit 45 && !reserved && !gone then some (act0 / 2 ^ 46 % 1024) else none
        let others := if transit.isSome && (p.ptpMsg == 0 || p.ptpMsg == 1) then r.1 else []
        resolve port f arr dest cpu others offer ins p s

/-- A frame is for the management engine (R658). -/
def mmpFrame (s : State) (port : Nat) (p : Parsed) : Bool :=
  s.running && s.on MGT_MMP_CFG_EN && s.wide MGT_MMP_PORTS / 2 ^ port % 2 == 1 && (!p.tagged || p.tvid == 0) &&
    p.etype == 0x88B5 && p.da == s.wide MGT_MMP_MAC

/-! ### The end of a frame -/

/-- Frame `f` takes a number (R575). -/
def frameNumber (f q : Nat) (s : State) : State :=
  s.setFrame f { s.frameRec f with seqNo := some q, waiting := false }

/-- The oldest record of a stream with a frame's FCS numbers the frame (R575). -/
def seqMatch (n f fcs : Nat) (s : State) : Bool × State :=
  match s.pair.got.find? (fun r => r.stream == n && r.kind == 0 && r.fcs == fcs) with
  | none => (false, s)
  | some r =>
    let s : State := { s with pair := { s.pair with got := s.pair.got.erase r } }
    (true, frameNumber f r.n (s.setTbits (streamAddr n + 4) 0 16 (r.n + 1)))

/-- A good frame of a paired stream has ended (R575): it waits for its record, or its own record is to be sent, at most 8 million in a second.
One decided before this unit took over, or before its stream was closed, is numbered by this unit (R577, R578). -/
def pairedEnd (n f : Nat) (s : State) : State :=
  let fr := s.frameRec f
  let fcs := natLE (fr.bytes.drop (fr.bytes.length - 4))
  let own := fr.waiting && !(s.pairFollows || s.pair.closing.contains n)
  let q := if own then seqTake n s else (0, s)
  let s := if own then frameNumber f q.1 q.2 else s
  let fr := s.frameRec f
  if fr.waiting then
    let m := seqMatch n f fcs s
    if m.1 then m.2 else { s with pair := { s.pair with waits := s.pair.waits ++ [(f, s.now)] } }
  else if s.pairState = .active then
    let sec := s.now / 250000000
    let used := if s.pair.recs.1 = sec then s.pair.recs.2 else 0
    if 8000000 ≤ used then s.count PAIR_CNT3_SEQ_REC_DROP
    else
      { s with pair := { s.pair with recs := (sec, used + 1),
                                     toSend := s.pair.toSend ++ [⟨n, 0, fr.seqNo.getD 0, fcs, s.now⟩] } }
  else s

/-- Delivery of a good frame at its end to the Ferryman, to the management engine (R324, R332, R658, R662) or to the Pair Controller, which
counts the one it discards; a row of its TYPE brings the body of one it takes (R565). -/
def deliver (f : Nat) (s : State) : State :=
  let fr := s.frameRec f
  match fr.fate with
  | 1 => fmReceive fr.fateSess ((parseFrame fr.bytes).ptp.getD 0) (fr.bytes.take (fr.bytes.length - 4)) fr.stamp fr.ctx s
  | 2 => s.count FM_CNT1_NO_SESSION
  | 3 => s.count FM_CNT1_UNSUPPORTED
  | 4 =>
    if 4 ≤ s.mgt.mmpq.length then (s.count MGT_MMP_CNT_BUSY).ev MGT_EVENT_MMP_DROP
    else { s with mgt := { s.mgt with mmpq := s.mgt.mmpq ++ [⟨fr.port, fr.bytes⟩] } }
  | 5 => if towlineMisfit fr.bytes then s.count PAIR_CNT1_REPORTS_BAD else s
  | _ => s

/-- The tail of frame `f` has arrived, or will never (R377, R387 to R389, R404); `counted` is false for a frame lost to clock
gating, which no counter of the port sees (R71). -/
def frameFinish (f : Nat) (bad counted : Bool) (s : State) : State :=
  let fr := s.frameRec f
  let port := fr.port
  let max_ := s.get (MAC_CFG_MAX_LEN port)
  let tooLong := decide (max_ < fr.bytes.length)
  let bytes := fr.bytes.take max_
  let fcsBad := bad || decide (fr.bytes.length < 64) || fcsOf (bytes.take (bytes.length - 4)) != bytes.drop (bytes.length - 4)
  let good := !fcsBad && !tooLong
  let s := s.setFrame f { fr with bytes := bytes, tail := true, good := good }
  let s := s.setPort port { s.portRec port with rx := none }
  let s := if counted then countReceived port fr.tc bytes fcsBad tooLong s else s
  let s := match fr.meter with
    | some n => meterCorrect n fr.colour fr.provisional bytes.length s
    | none => s
  let s := if good && fr.learn then macLearn port (fieldBE bytes 6 6) fr.vid s else s
  let s := if good then deliver f s else s
  let qs := queuedCopies s f
  let gone := if good then [] else qs.filter (fun c => !(s.copyRec c).cut)
  let s := forEach gone (fun c s =>
    let s := if counted then s.count (FWD_CNT_FCS_DROP_V (pipeOf port)) else s
    copyDrop c clsEgress s) s
  let qs := queuedCopies s f
  let ps := txPorts s f
  let have_ := (s.frameRec f).cells.length
  let s :=
    if qs.isEmpty && ps.isEmpty then s
    else
      let t := takeCells (pipeOf port) 0 (cellsOf bytes.length - have_) s
      let s := txGrow f t.1 (cellRefs t.1 (qs.length + ps.length) t.2)
      let s := s.setFrame f { s.frameRec f with cells := (s.frameRec f).cells ++ t.1 }
      forEach qs (fun c s => growCopy (s.copyRec c).queue c f have_ s) s
  let s := match fr.paired with
    | some n => if good then pairedEnd n f s else s.setFrame f { s.frameRec f with waiting := false }
    | none => s
  frameTidy f (forEach (s.ports.map (fun e => e.1)) (fun p s => txAdvance p s.nowPs s) s)

/-- The frame in reception on port `p` ends (R377). -/
def frameEnd (p : Nat) (rest : List Byte) (bad counted : Bool) (s : State) : State :=
  match (s.portRec p).rx with
  | none => s
  | some f =>
    let fr := s.frameRec f
    frameFinish f bad counted (s.setFrame f { fr with bytes := fr.bytes ++ rest })

/-- The elastic buffer of lane `n` loses a frame (R235). -/
def ebLoss (n : Nat) (s : State) : State := (s.count (LN_CNT3_EB_ERR n)).ev (LN_EVENT_EB_ERR n)

/-- One step of the elastic buffer of lane `n` (R235): at an idle it deletes above 20 and inserts below 12; a fill that reaches 0 or 32
with no idle loses the frame, which the first component says. -/
def ebStep (n : Nat) (x : Bool × State) (e : EbStep) : Bool × State :=
  let s := x.2
  let fill := s.get (LN_EB_FILL n)
  match e with
  | .idle =>
    if 20 < fill then (x.1, (s.count (LN_CNT2_EB_DEL n)).put (LN_EB_FILL n) (fill - 1))
    else if fill < 12 then (x.1, (s.count (LN_CNT2_EB_INS n)).put (LN_EB_FILL n) (fill + 1))
    else x
  | .up =>
    if 32 ≤ fill then x
    else
      let s := s.put (LN_EB_FILL n) (fill + 1)
      if fill + 1 = 32 then (true, ebLoss n s) else (x.1, s)
  | .down =>
    if fill = 0 then x
    else
      let s := s.put (LN_EB_FILL n) (fill - 1)
      if fill = 1 then (true, ebLoss n s) else (x.1, s)

/-- A lane uses its elastic buffer: it is LINKED and not SYNTONOUS (R235). -/
def ebUsed (s : State) (n : Nat) : Bool := s.get (LN_STATUS_STATE n) == 5 && !s.on (LN_STATUS_CLOCK_EFF n)

/-- What the elastic buffers of port `p`'s lanes meet up to a frame, each step with the lane's place in the port (R235); whether one of
them loses the frame. -/
def ebEvents (p : Nat) (l : List (Fin 4 × EbStep)) (s : State) : Bool × State :=
  l.foldl (fun (x : Bool × State) e =>
    match (portLanes x.2 p)[e.1.val]? with
    | some n => if ebUsed x.2 n then ebStep n x e.2 else x
    | none => x) (false, s)

/-- A frame's decision (R370), its arrival known and a host's insertion command with it: its record, its first cell, and its stages. -/
def frameDecide (p : Nat) (rx : RxWindow) (arr : Arrival) (ins : InsCmd) (s : State) : State :=
  let i := pipeOf p
  let w := rx.bytes.take 128
  let pr := parseFrame w
  let f := freeFrame s
  let fate := ptpFate s p w pr
  let rec0 : FrameRec :=
    { live := true, port := p, bytes := rx.bytes, stamp := arr.stamp, fine := arr.fine,
      invalid := decide (s.tbState = 0), provisional := provisionalLen rx pr, arrived := s.clk, ins := ins }
  let c := takeCells i (s.get QM_RESERVE_V) 1 s
  if c.1.isEmpty then
    let s := c.2.count (if i = 0 then QM_CNT1_NOBUF0 else QM_CNT1_NOBUF1)
    (s.setFrame f rec0).setPort p { s.portRec p with rx := some f }
  else
    let s := c.2.count (FWD_CNT_FRAMES_V i)
    let first := c.1
    let more := if rx.ended then takeCells i 0 (cellsOf rx.bytes.length - 1) s else ([], s)
    let cells := first ++ more.1
    let s := (more.2.setFrame f { rec0 with cells := cells }).setPort p { more.2.portRec p with rx := some f }
    let s :=
      if p == 65 && pr.etype == 0x88B6 then s.setFrame f { s.frameRec f with fate := 5 }
      else
        match fate with
        | .session k => s.setFrame f { s.frameRec f with fate := 1, fateSess := k, ctx := stampCtx arr.ctx (sessDom s k) }
        | .noSession => s.setFrame f { s.frameRec f with fate := 2 }
        | .unsupported => s.setFrame f { s.frameRec f with fate := 3 }
        | .transit d k =>
          if pr.ptpMsg = 12 then forwardFrame p f arr pr none s else forwardFrame p f arr pr (some (d, k)) s
        | .ordinary =>
          if mmpFrame s p pr then s.setFrame f { s.frameRec f with fate := 4 }
          else forwardFrame p f arr pr none s
    let s := pmcEvent 0x020 (.frame (s.frameRec f).tc) 1 s
    let n := (queuedCopies s f).length
    if n = 0 then
      (freeCellsQ (if i = 0 then clsIngress0 else clsIngress1) cells s).setFrame f { s.frameRec f with cells := [] }
    else cellRefs cells n s

/-- What the receiver of port `p` takes at a decision: the line's frame, or in loop-back the next of the port's own, whole (R244). -/
def loopTake (p : Nat) (rx : RxWindow) (s : State) : Option RxWindow × State :=
  if !portLooped s p then (some rx, s)
  else
    match (s.portRec p).looped with
    | (false, b) :: t => (some { rx with bytes := b, ended := true, bad := false }, s.setPort p { s.portRec p with looped := t })
    | _ => (none, s)

/-- A frame on port `p` reaches its decision (R370): a frame still open on the port ends as bad; while the clocks are gated nothing is
decided (R71). -/
def frameArrive (p : Nat) (rx : RxWindow) (s : State) : State :=
  if s.gated then (if rx.ended then s else s.setPort p { s.portRec p with gateRx := true })
  else if !s.portUp p then (ebEvents p rx.eb s).2
  else
    let s := frameEnd p [] true true s
    let eb := ebEvents p rx.eb s
    let s := eb.2
    let s := frameDecide p rx (arrival s p rx.rx) {} s
    if rx.ended then frameEnd p [] (rx.bad || eb.1) true s
    else if eb.1 then
      match (s.portRec p).rx with
      | some f => s.setFrame f { s.frameRec f with poisoned := true }
      | none => s
    else s

/-- FRAME_DECISION (R370), of the line's frame or, in loop-back, of the port's own (R244). -/
def frameDecision (p : Nat) (rx : RxWindow) (s : State) : State :=
  let x := loopTake p rx s
  match x.1 with
  | some rx => frameArrive p rx x.2
  | none => s

/-- FRAME_END (R377): the rest of a frame and its verdict. -/
def frameTail (p : Nat) (rest : List Byte) (bad : Bool) (s : State) : State :=
  if s.gated then s.setPort p { s.portRec p with gateRx := false }
  else
    match (s.portRec p).rx with
    | none => s
    | some f => frameEnd p rest (bad || (s.frameRec f).poisoned) true s

end Sys2Proof.Machine
end

