-- ==== Sys2Proof/Machine/Egress.lean ====
section
/-!
DEFINITION. The egress scheduler of a port (R421 to R426, R471, R475), the start of a transmission, express launches (R462, R466), and
frame preemption (R474 to R476).
-/

namespace Sys2Proof.Machine

/-! ### Eligibility (R421, R426, R471, R475) -/

/-- A copy's frame length as the scheduler takes it (R426). -/
def schedLen (s : State) (c : Nat) : Nat :=
  let k := s.copyRec c
  knownLen (s.frameRec k.frame) (s.get (MAC_CFG_MAX_LEN k.port))

/-- The head frame of queue `q` is on chip, whole where it is stored, and not waiting for its number (R421, R575). -/
def headReady (s : State) (q : Nat) : Option Nat :=
  let r := s.queueRec q
  match r.copies, r.head with
  | c :: _, h :: _ =>
    let k := s.copyRec c
    let f := s.frameRec k.frame
    let whole := (r.head.filter (fun x => x.copy == c)).length == f.cells.length
    if h.copy == c && h.k == 0 && !f.waiting && (k.cut || (f.tail && whole)) then some c else none
  | _, _ => none

/-- The preemptable classes of a port whose preemption is active (R474). -/
def preemptable (s : State) (p t : Nat) : Bool := s.on (XC_PORT_STATUS_PREEMPT_ACTIVE p) && decide (p < 64) && !(xcClasses s p).contains t

/-- A transmission of `dur` ps may start beside the pending launches, and beside a frame preempted (R471, R475). -/
def launchRoom (s : State) (p dur : Nat) (pre : Bool) : Bool :=
  let r := s.portRec p
  let pend := r.launches.filter (fun l => !l.launched)
  !(pre && (r.held.isSome || !pend.isEmpty)) && pend.all (fun l => decide (s.nowPs + dur < fabAt s l.at_))

/-- The head copy of queue `q`, where the queue is eligible (R421). -/
def eligible (s : State) (q : Nat) : Option Nat :=
  let p := q / 8
  let t := q % 8
  match headReady s q with
  | none => none
  | some c =>
    let dur := schedLen s c * byteTime (s.rate p)
    let overrun := gatesRun s p && s.tbState != 0
    if gateOpen s p t && creditOk s q && (!overrun || gateOpenFor s p t s.tb.count (dur * 2 ^ 40 / 1000)) &&
        launchRoom s p dur (preemptable s p t) then some c else none

/-! ### Selection (R421, R422) -/

/-- The next eligible DWRR queue of port `p` after class `t`, cyclically. -/
def nextDwrr (ok : Nat → Bool) (t : Nat) : Option Nat :=
  ((List.range 8).map (fun i => (t + 1 + i) % 8)).find? ok

/-- The round of R422 from the present class on: the class that may start, with the deficits gained at the visits. -/
def dwrrRound (p : Nat) (ok : Nat → Bool) : Nat → Nat → State → Option Nat × State
  | 0, _, s => (none, s)
  | fuel + 1, t, s =>
    if ok t && decide (0 < (s.queueRec (8 * p + t)).deficit) then (some t, s)
    else
      match nextDwrr ok t with
      | none => (none, s)
      | some u =>
        let q := 8 * p + u
        let r := s.queueRec q
        dwrrRound p ok fuel u (s.setQueue q { r with deficit := r.deficit + s.get (QM_Q_QUANTUM_V q) })

/-- The queue the scheduler picks: the highest SP one, else the round's (R421, R422). -/
def pick (p : Nat) (s : State) : Option Nat × State :=
  let el := fun t => (eligible s (8 * p + t)).isSome
  let sp := fun t => !s.on (QM_Q_CFG_SCHED (8 * p + t))
  match ((List.range 8).reverse).find? (fun t => sp t && el t) with
  | some t => (some t, s)
  | none =>
    let r := dwrrRound p (fun t => !sp t && el t) 2000 (s.portRec p).lastQ s
    match r.1 with
    | some t => (some t, r.2.setPort p { r.2.portRec p with lastQ := t })
    | none => (none, s)

/-! ### Transmission -/

/-- The number of the next preemptable frame of port `p`, taken where `pre` (R474). -/
def txNumber (p : Nat) (pre : Bool) (s : State) : Nat × State :=
  let r := s.portRec p
  if pre then (r.txNum, s.setPort p { r with txNum := (r.txNum + 1) % 4 }) else (0, s)

/-- A frame of the Ferryman begins, with its stamp and what belongs to it (R339). -/
def ferrySend (p : Nat) (o : OrigMsg) (tx : TxTiming) (s : State) : State :=
  let x : TxRec :=
    { ferry := o, start := s.nowPs, sfd := s.nowPs + tx.ahead * 800, stamp := (txStamp s p tx).1,
      gen := s.get (PHA_PORT_STATUS_TRIM_GEN p), epoch := s.get TB_EPOCH_V }
  s.setPort p { s.portRec p with tx := some x }

/-- The head copy of a queue begins: it leaves the queue with its stamp and its cells, and its queue is charged when it ends (R388, R422,
R423); a copy with a poisoned cell is discarded before its first byte (R549). -/
def copyStart (p t c : Nat) (tx : TxTiming) (s : State) : State :=
  let q := 8 * p + t
  let s := cellsLook ((onChipOf (s.queueRec q) c).take 1) s
  if (s.frameRec (s.copyRec c).frame).poison then
    copyDrop c clsEgress ((s.count ECC_CNT1_POISON_DROP).ev ECC_EVENT_POISON)
  else
    let st := (txStamp s p tx).1
    let kept := (s.queueRec q).deficit
    let d := dequeue q c clsEgress s
    let s := d.2.setQueue q { d.2.queueRec q with deficit := kept }
    let f := s.frameRec (s.copyRec c).frame
    let s := s.setCopy c { s.copyRec c with sending := true, stamp := st, had := f.bytes.length, whole := f.tail }
    let pre := preemptable s p t
    let n := txNumber p pre s
    let x : TxRec :=
      { copy := some c, pre := pre, num := n.1, start := s.nowPs, sfd := s.nowPs + tx.ahead * 800, cells := d.1 }
    residenceOf q (n.2.setPort p { n.2.portRec p with tx := some x })

/-- The egress MAC of port `p` can start a frame. -/
def egressFree (s : State) (p : Nat) : Bool :=
  let r := s.portRec p
  s.portUp p && p != 64 && !s.gated && r.tx.isNone && r.launches.all (fun l => !l.launched)

/-- EGRESS_SCHEDULE: a frame of the Ferryman or the scheduler's pick starts (R421, R475). -/
def egressSchedule (p : Nat) (tx : TxTiming) (s : State) : State :=
  let s := if s.gated then s else txAdvance p 0 s
  if !egressFree s p then s
  else
    let s := creditSyncPort p (forEach (List.range 8) (fun t s => residenceOf (8 * p + t) (queueJoin (8 * p + t) s)) s)
    let r := s.portRec p
    match r.ferry with
    | o :: l =>
      if launchRoom s p ((o.bytes.length + 4) * byteTime (s.rate p)) false then
        ferrySend p o tx (s.setPort p { r with ferry := l })
      else s
    | [] =>
      let v := pick p s
      match v.1 with
      | none => v.2
      | some t =>
        match eligible v.2 (8 * p + t) with
        | some c => copyStart p t c tx v.2
        | none => v.2

/-! ### Express launches (R462, R465, R466) -/

/-- A pending launch is given up, and its frame travels as ordinary traffic with cause NOT_ACTIVE (R469, R473): it takes cells of pool 0
again where it holds none. -/
def launchDivert (p : Nat) (l : LaunchRec) (s : State) : State :=
  let k := s.copyRec l.copy
  let f := k.frame
  let r := s.portRec p
  let s := pendRefresh p (s.setPort p { r with launches := r.launches.filter (fun x => x.copy != l.copy) })
  let fr := { s.frameRec f with express := none }
  let i := pipeOf fr.port
  let t := if fr.cells.isEmpty then takeCells i (s.get QM_RESERVE_V) (cellsOf fr.bytes.length) s else ([], s)
  let cells := fr.cells ++ t.1
  let s := xcLate l.stream 3 (k.queue % 8) (t.2.setFrame f { fr with cells := cells })
  let s :=
    if cells.isEmpty then s.count (if i = 0 then QM_CNT1_NOBUF0 else QM_CNT1_NOBUF1)
    else
      let s := copyOfferAs f p (k.queue % 8) (cutsThrough s fr.port p [p] false) (ecnCapable (parseFrame fr.bytes)) k.untag k.ins s
      let n := (queuedCopies s f).length + (txPorts s f).length
      if n = 0 then (freeCellsQ (if i = 0 then clsIngress0 else clsIngress1) cells s).setFrame f { s.frameRec f with cells := [] }
      else cellRefs cells n s
  frameUnref f (s.setCopy l.copy {})

/-- XC_LAUNCH: the first pending launch of port `p` is made once its L falls into the present tick, the SFD at L whatever the time base does
and however late the row comes (R462, R464); while the time base is INVALID no frame crosses (R469). -/
def xcLaunch (p : Nat) (tx : TxTiming) (s : State) : State :=
  match (s.portRec p).launches.find? (fun l => !l.launched) with
  | none => s
  | some l =>
    if s.gated || decide (5 * (s.clk : Int) + 5 ≤ l.at_) then s
    else if s.tbState = 0 then launchDivert p l s
    else
      let st := (launchStamp s p ((l.at_ - 5 * s.clk) * vFab + l.fine) tx).1
      let f := s.frameRec (s.copyRec l.copy).frame
      let s := s.setCopy l.copy { s.copyRec l.copy with stamp := st, had := f.bytes.length, whole := f.tail }
      let r := s.portRec p
      let s := s.setPort p { r with launches := r.launches.map (fun x => if x.copy = l.copy then { l with launched := true } else x) }
      pendRefresh p (s.count (XC_STREAM_CNT0_CROSSED l.stream))

/-- The pending launches of port `p` are given up as the port leaves UP (R261); a frame launched completes (R468). -/
def launchesDrop (p : Nat) (s : State) : State :=
  let all := (s.portRec p).launches
  let l := all.filter (fun l => !l.launched)
  if l.isEmpty then s
  else
    let s := forEach l (fun l s =>
      let k := s.copyRec l.copy
      let s := dropDown p (k.queue % 8) (s.setFrame k.frame { s.frameRec k.frame with express := none })
      frameUnref k.frame (s.setCopy l.copy {})) s
    pendRefresh p (s.setPort p { s.portRec p with launches := all.filter (fun l => l.launched) })

/-! ### Preemption (R474 to R476) -/

/-- Preemption is configured on port `p`, a 10G or 25G one (R474). -/
def preemptOn (s : State) (p : Nat) : Bool :=
  decide (p < 64) && s.on (XC_PORT_CFG_PREEMPT p) && (s.rate p == 1 || s.rate p == 2)

/-- A verify mPacket is sent, the `n`-th (R474, R476). -/
def verifySend (p n : Nat) (s : State) : State :=
  sendMpackets p [smdPacket smdVerify] (s.setPort p { s.portRec p with verified := (n, s.now) })

/-- Entry of a port to UP: verification starts, or preemption is active at once (R476). -/
def verifyStart (p : Nat) (s : State) : State :=
  if !preemptOn s p then s
  else if s.on (XC_PORT_CFG_VERIFY_DIS p) then
    (s.put (XC_PORT_STATUS_PREEMPT_ACTIVE p) 1).put (XC_PORT_STATUS_VERIFY p) 0
  else verifySend p 1 ((s.put (XC_PORT_STATUS_PREEMPT_ACTIVE p) 0).put (XC_PORT_STATUS_VERIFY p) 1)

/-- A port leaves UP: nothing of its preemption stands (R476). -/
def verifyStop (p : Nat) (s : State) : State :=
  if 64 ≤ p ∨ (s.get (XC_PORT_STATUS_VERIFY p) = 0 ∧ !s.on (XC_PORT_STATUS_PREEMPT_ACTIVE p)) then s
  else
    ((s.setPort p { s.portRec p with verified := (0, 0) }).put (XC_PORT_STATUS_PREEMPT_ACTIVE p) 0).put (XC_PORT_STATUS_VERIFY p) 0

/-- Verification ends (R476). -/
def verifyDone (p : Nat) (ok : Bool) (s : State) : State :=
  if 64 ≤ p ∨ s.get (XC_PORT_STATUS_VERIFY p) ≠ 1 then s
  else
    let s := s.setPort p { s.portRec p with verified := (0, 0) }
    if ok then (s.put (XC_PORT_STATUS_VERIFY p) 2).put (XC_PORT_STATUS_PREEMPT_ACTIVE p) 1
    else (s.put (XC_PORT_STATUS_VERIFY p) 3).ev XC_EVENT_VERIFY_FAIL

/-- VERIFY_MS has passed with no answer to a verify mPacket: another is sent, and the third fails (R474, R476). -/
def verifyTick (p : Nat) (s : State) : State :=
  let v := (s.portRec p).verified
  if s.get (XC_PORT_STATUS_VERIFY p) = 1 ∧ v.2 + 250000 * s.get (XC_PORT_CFG_VERIFY_MS p) ≤ s.now then
    if v.1 < 3 then verifySend p (v.1 + 1) s else verifyDone p false s
  else s

/-- The ports whose preemption is being verified. -/
def portsVerifying (s : State) : List Nat :=
  (s.ports.filter (fun e => e.2.verified != (0, 0) && e.1 < 64 && s.get (XC_PORT_STATUS_VERIFY e.1) == 1)).map (fun e => e.1)

/-- The ports at a tick: what leaves goes on, and verification is repeated. -/
def portsTick (s : State) : State := forEach (portsVerifying s) verifyTick (forEach (portsSending s) (fun p s => txAdvance p 0 s) s)

/-- Reassembly on port `p` ends; its bytes are gone. -/
def reasmClear (p : Nat) (s : State) : State := s.setPort p { s.portRec p with fragOpen := false, fragBytes := [], fragArr := {}, fragNum := 0, fragCount := 0 }

/-- Reassembly of the frame of port `p` is given up (R476). -/
def reasmError (p : Nat) (s : State) : State := (reasmClear p s).count (XC_PORT_CNT1_REASM_ERR p)

/-- A frame is whole: it goes through the pipeline with the arrival of its first mPacket (R474). -/
def reasmDone (p : Nat) (bytes : List Byte) (many bad : Bool) (s : State) : State :=
  let arr := (s.portRec p).fragArr
  let s := reasmClear p s
  let s := if many then s.count (XC_PORT_CNT0_REASSEMBLED p) else s
  let s := frameEnd p [] true true s
  frameEnd p [] bad true (frameDecide p ⟨bytes, true, bad, ⟨0, 0, 0, 0⟩, []⟩ arr {} s)

/-- The place of a code among four. -/
def codeOf (code : Nat → Byte) (b : Byte) : Option Nat := (List.range 4).find? (fun n => code n == b)

/-- The first mPacket of frame `num`, after its SMD-S (R474): with a whole frame's FCS it is the frame; with an mCRC reassembly begins; with
neither it is a frame with a bad FCS. -/
def mpacketStart (p num : Nat) (l : List Byte) (rx : RxTiming) (bad : Bool) (s : State) : State :=
  let s := if (s.portRec p).fragOpen then reasmError p s else s
  let s := s.setPort p { s.portRec p with fragArr := arrival s p rx }
  let body := l.take (l.length - 4)
  if l.drop (l.length - 4) = mCrc body ∧ !bad then
    s.setPort p { s.portRec p with fragOpen := true, fragBytes := body, fragNum := num, fragCount := 0 }
  else reasmDone p l false bad s

/-- A later mPacket, after its SMD-C and its fragment count (R474, R476): the frame's FCS or an mCRC over all its bytes so far, or an error. -/
def mpacketCont (p : Nat) (num count : Option Nat) (l : List Byte) (bad : Bool) (s : State) : State :=
  let r := s.portRec p
  let all := r.fragBytes ++ l.take (l.length - 4)
  let crc := l.drop (l.length - 4)
  if !r.fragOpen then s.count (XC_PORT_CNT1_REASM_ERR p)
  else if num ≠ some r.fragNum ∨ count ≠ some r.fragCount ∨ bad then reasmError p s
  else if crc = mCrc all then s.setPort p { r with fragBytes := all, fragCount := (r.fragCount + 1) % 4 }
  else if crc = fcsOf all then reasmDone p (all ++ crc) true false s
  else reasmError p s

/-- What the receiver of port `p` takes at an mPacket: the line's, or in loop-back the next of the port's own (R244). -/
def loopMpacket (p : Nat) (l : List Byte) (s : State) : Option (List Byte) × State :=
  if !portLooped s p then (some l, s)
  else
    match (s.portRec p).looped with
    | (true, b) :: t => (some b, s.setPort p { s.portRec p with looped := t })
    | _ => (none, s)

/-- An mPacket is received, by its SMD (R474, R476). -/
def mpacketRx (p : Nat) (mp : MPacket) (s : State) : State :=
  if s.gated then s
  else if !s.portUp p || !preemptOn s p then (ebEvents p mp.eb s).2
  else
    let x := loopMpacket p mp.bytes s
    match x.1 with
    | none => x.2
    | some l =>
      let eb := ebEvents p mp.eb x.2
      let s := eb.2
      let smd := l.headD 0
      if smd = smdVerify then (if l = smdPacket smdVerify then sendMpackets p [smdPacket smdRespond] s else s)
      else if smd = smdRespond then (if l = smdPacket smdRespond then verifyDone p true s else s)
      else
        match codeOf smdStart smd with
        | some n => mpacketStart p n (l.drop 1) mp.rx eb.1 s
        | none =>
          match codeOf smdCont smd with
          | some n => mpacketCont p (some n) (codeOf fragCode ((l.drop 1).headD 0)) (l.drop 2) eb.1 s
          | none => s

end Sys2Proof.Machine
end

