-- ==== Sys2Proof/Machine/FmTimers.lean ====
section
/-!
DEFINITION. The Ferryman's timers (R335, R338, R340, R355, R358): the calendar wheel, the timer queue and its service in turn with the
receive queue, and the state decisions that events make due.
-/

namespace Sys2Proof.Machine

/-! ### The calendar wheel (R338) -/

/-- The CLK_TIME cycles of a slot of the wheel. -/
def slotCycles : Nat := 4096

/-- The slots of the wheel. -/
def wheelSlots : Nat := 65536

/-- A timer is set: on the wheel, with its turn count, or in the timer queue where the slot of its due time has begun. -/
def timerPut (kind : TimerKind) (k due : Nat) (s : State) : State :=
  let s := timerStop kind k s
  let ahead := due / slotCycles - s.clk / slotCycles
  if ahead = 0 then { s with fm := { s.fm with timerq := s.fm.timerq ++ [⟨kind, k, due, 0⟩] } }
  else { s with fm := { s.fm with wheel := s.fm.wheel ++ [⟨kind, k, due, (ahead - 1) / wheelSlots⟩] } }

/-- The wheel comes to a slot at its start: the expiries of this turn enter the timer queue, the others have a turn less to go. -/
def wheelTick (s : State) : State :=
  if s.clk % slotCycles ≠ 0 then s
  else
    let here := fun (t : FmTimer) => t.due / slotCycles % wheelSlots == s.clk / slotCycles % wheelSlots
    let gone := s.fm.wheel.filter (fun t => here t && t.turns == 0)
    let stay := (s.fm.wheel.filter (fun t => !(here t && t.turns == 0))).map
      (fun t => if here t then { t with turns := t.turns - 1 } else t)
    { s with fm := { s.fm with wheel := stay, timerq := s.fm.timerq ++ gone } }

/-! ### The timers that run -/

/-- A request of the session's delay mechanism is unanswered. -/
def awaitsResponse (r : SessRec) : Bool :=
  (match r.exch with | some x => !x.answered | none => false) ||
    (match r.pexch with | some x => !x.answered || x.needFu | none => false)

/-- Whether a timer of session `k`, or of domain `k`, runs (R333, R334, R338, R340, R351, R355); a Sync receipt timer that has expired
waits for Sync to return. -/
def timerRuns (s : State) (kind : TimerKind) (k : Nat) : Bool :=
  let st := sessState s k
  let r := s.sessRec k
  match kind with
  | .decision => s.on FM_CTRL_EN && s.on (FM_DOM_CFG_EN k) && !domTc s k
  | .sync | .announce => r.committed && st == 6
  | .delayReq => r.committed && takesSync s k && !s.on (FM_SESS_CFG_DELAY k) && !domTc s (sessDom s k)
  | .pdelayReq => r.committed && sessLive s k && s.on (FM_SESS_CFG_DELAY k)
  | .l1sync => r.committed && sessLive s k && l1State s k != 0
  | .annReceipt => r.committed && ([4, 7, 8, 9] : List Nat).contains st && !domTc s (sessDom s k)
  | .syncReceipt => r.committed && takesSync s k && !r.syncOut
  | .followUp => r.committed && r.waitFu.isSome
  | .response => r.committed && awaitsResponse r
  | .l1Receipt => r.committed && r.l1Peer.isSome
  | .qualify => r.committed && st == 5

/-- How long a timer runs, in CLK_TIME cycles (R333, R334, R338, R348, R355). -/
def timerTicks (s : State) (kind : TimerKind) (k : Nat) : Nat :=
  let d := sessDom s k
  match kind with
  | .decision => annTicks s k
  | .sync => intervalTicks (logOf (s.get (FM_SESS_INTV_LOG_SYNC k)))
  | .announce => annTicks s d
  | .delayReq => intervalTicks (logOf (s.get (FM_SESS_INTV_LOG_DREQ k)))
  | .pdelayReq => intervalTicks (logOf (s.get (FM_SESS_INTV_LOG_PDREQ k)))
  | .l1sync => intervalTicks (logOf (s.get (FM_SESS_INTV_LOG_L1SYNC k)))
  | .annReceipt => s.get (FM_DOM_ANN_ANN_TIMEOUT d) * annTicks s d
  | .syncReceipt => s.get (FM_DOM_ANN_SYNC_TIMEOUT d) * intervalTicks (s.sessRec k).logSync
  | .followUp => intervalTicks 0
  | .response => intervalTicks (logOf (s.get (if s.on (FM_SESS_CFG_DELAY k) then FM_SESS_INTV_LOG_PDREQ k else FM_SESS_INTV_LOG_DREQ k)))
  | .l1Receipt => 3 * intervalTicks (logOf (s.get (FM_SESS_INTV_LOG_L1SYNC k)))
  | .qualify => ((match (s.domRec d).parent with | some f => f.steps + 1 | none => 0) + 1) * annTicks s d

/-- The timers of a session. -/
def sessTimers : List TimerKind :=
  [.sync, .announce, .delayReq, .pdelayReq, .l1sync, .annReceipt, .syncReceipt, .followUp, .response, .l1Receipt, .qualify]

/-- A timer is on the wheel or in the timer queue. -/
def timerSet (s : State) (kind : TimerKind) (k : Nat) : Bool :=
  let is := fun (t : FmTimer) => t.kind == kind && t.who == k
  s.fm.wheel.any is || s.fm.timerq.any is

/-- A timer that runs is set, from now where it was not. -/
def timerFollow (kind : TimerKind) (k : Nat) (s : State) : State :=
  if timerRuns s kind k && !timerSet s kind k then timerPut kind k (s.clk + timerTicks s kind k) s else s

/-- The timers follow the sessions and domains: one that no longer runs is gone, one that runs is set. -/
def timersFollow (s : State) : State :=
  let runs := fun (t : FmTimer) => timerRuns s t.kind t.who
  let s : State := { s with fm := { s.fm with wheel := s.fm.wheel.filter runs, timerq := s.fm.timerq.filter runs } }
  let s := forEach (committed s) (fun k s => forEach sessTimers (fun kind s => timerFollow kind k s) s) s
  forEach (List.range 4) (timerFollow .decision) s

/-! ### Service (R335, R358) -/

/-- A message that restarts a receipt timer waits in the receive queue, with a stamp before the timer's due time (R358). -/
def restartWaits (s : State) (t : FmTimer) : Bool :=
  s.fm.rxq.any (fun m => m.sess == t.who && decide (m.at_ ≤ t.due) &&
    (match t.kind with
     | .annReceipt => m.ty == 11 && (sessState s t.who == 4 || fromParent s m)
     | .syncReceipt => m.ty == 0 && fromParent s m
     | .l1Receipt => m.ty == 12 && (l1Find 16 (m.body.drop 10)).isSome
     | _ => false))

/-- A periodic message, or a decision, falls due again one interval after it fell due (R338, R340). -/
def periodic : TimerKind → Bool
  | .sync | .announce | .delayReq | .pdelayReq | .l1sync | .decision => true
  | _ => false

/-- The front of the timer queue is served by `f`: an expiry that a waiting message forestalls is none (R358). -/
def timerServe (t : FmTimer) (rest : List FmTimer) (f : State → State) (s : State) : State :=
  let s : State := { s with fm := { s.fm with timerq := rest, timersTurn := false } }
  if restartWaits s t then s
  else
    let s := f s
    if periodic t.kind && timerRuns s t.kind t.who then timerPut t.kind t.who (t.due + timerTicks s t.kind t.who) s else s

/-- A timer has expired (R335, R338): its expiry is in the timer queue, and it is served where it stands at the front and its queue has
the turn; else it waits there.  The command says that the time has come, also where the wheel does not yet (log entry 140). -/
def expire (kind : TimerKind) (k : Nat) (f : State → State) (s : State) : State :=
  let is := fun (t : FmTimer) => t.kind == kind && t.who == k
  let s :=
    if s.fm.timerq.any is then s
    else
      let t := ((s.fm.wheel.find? is).getD ⟨kind, k, s.clk, 0⟩)
      let s := timerStop kind k s
      { s with fm := { s.fm with timerq := s.fm.timerq ++ [t] } }
  match s.fm.timerq with
  | [] => s
  | t :: rest =>
    if !is t || s.on FM_STATUS_RESETTING || (!s.fm.timersTurn && !s.fm.rxq.isEmpty) then s
    else timerServe t rest f s

/-! ### State decisions that events make due (R340) -/

/-- What of a session's records makes a decision due where it changes: each record's data, and whether it is qualified. -/
def decisionView (s : State) (k : Nat) : Nat × List (Foreign × Bool) :=
  (sessState s k, (s.sessRec k).foreign.map (fun f => ({ f with times := [] }, qualified s (sessDom s k) f)))

/-- The sessions a domain has had in two states. -/
def domSessBoth (old s : State) (d : Nat) : List Nat :=
  domSess s d ++ (domSess old d).filter (fun k => !(domSess s d).contains k)

/-- A state decision of domain `d` has become due: a record is qualified, has changed or is gone, or a session has entered or left
a state; a write of a data set notes its own (`decideNote`). -/
def decisionDue (old s : State) (d : Nat) : Bool :=
  (domSessBoth old s d).any (fun k => decisionView old k != decisionView s k)

/-- The decisions that a command has made due are noted; the next cycle of CLK_TIME makes them (log entry 142). -/
def decisionsNote (old s : State) : State :=
  let l := (List.range 4).filter (fun d => decisionDue old s d && !s.fm.decide.contains d)
  if l.isEmpty then s else { s with fm := { s.fm with decide := s.fm.decide ++ l } }

/-- The decisions due are made. -/
def decisionsMake (s : State) : State :=
  if s.fm.decide.isEmpty || s.on FM_STATUS_RESETTING then s
  else forEach s.fm.decide stateDecision { s with fm := { s.fm with decide := [] } }

end Sys2Proof.Machine
end

