-- ==== Sys2Proof/Machine/Ports.lean ====
section
/-!
DEFINITION. Ports: link, commitment and the port states (R255 to R262), with what entering and leaving UP makes of the frames, streams and
sessions of the port.
-/

namespace Sys2Proof.Machine

/-- The state of port `p` (R286): 0 DISABLED, 1 DOWN, 2 DOWN_HOLD, 3 FLUSHING, 4 UP. -/
def portState (s : State) (p : Nat) : Nat := s.get (MAC_STATUS_STATE p)

/-- Lane `n` is LINKED. -/
def laneLinked (s : State) (n : Nat) : Bool := s.get (LN_STATUS_STATE n) == 5

/-- The link of port `p` is up (R258). -/
def portLinked (s : State) (p : Nat) : Bool :=
  if p = 64 then s.on MGT_DMA_CTRL_EN && s.mgt.bme
  else s.portExists p && (portLanes s p).all (laneLinked s)

/-- The Forbidden combinations of port `p` as it stands (MC01 to MC05). -/
def portErrors (s : State) (p : Nat) : List Nat :=
  let fec := s.get (MAC_CFG_FEC p)
  let rate := s.rate p
  let req := (portLanes s p).map (fun n => s.get (LN_CTRL_CLOCK_REQ n))
  if p = 64 then []
  else
    (if rate = 0 ∧ fec ≠ 0 then [1] else []) ++ (if rate = 1 ∧ fec = 2 then [2] else []) ++
    (if rate = 3 ∧ fec = 1 then [3] else []) ++ (if rate = 3 ∧ 2 ≤ req.eraseDups.length then [4] else []) ++
    (if p = 65 ∧ fec ≠ 0 then [5] else [])

/-- The port has left UP (R71, R259, R282, R333, R339, R468, R472, R476). -/
def portLeft (p : Nat) (s : State) : State :=
  let s := frameEnd p [] true true (s.ev (MAC_EVENT_LINK_DOWN p))
  let s := if (s.portRec p).fragOpen then reasmError p s else s
  xcRefreshAll (latRefresh p (fmPortChange p (verifyStop p (launchesDrop p s))))

/-- The port has entered UP (R269, R333, R468, R476). -/
def portEntered (p : Nat) (s : State) : State :=
  xcRefreshAll (latRefresh p (fmPortChange p (verifyStart p s)))

/-- The port takes a state. -/
def portTo (p st : Nat) (s : State) : State :=
  let was := s.portUp p
  let s := s.put (MAC_STATUS_STATE p) st
  if was ∧ st ≠ 4 then portLeft p s
  else if !was ∧ st = 4 then portEntered p s
  else s

/-- The port follows its link (R259). -/
def portEval (p : Nat) (s : State) : State :=
  let link := portLinked s p
  let s := s.putB (MAC_STATUS_LINK p) link
  let st := portState s p
  if st = 1 then (if link ∧ s.get (MAC_HOLD_UP_HOLD p) = 0 then portTo p 4 s else s)
  else if st = 4 then
    if link then s
    else if s.get (MAC_HOLD_DOWN_HOLD p) = 0 then portFlushStart p (portTo p 3 s)
    else portTo p 2 s
  else if st = 2 then (if link then portTo p 4 s else s)
  else s

/-- The port leaves DISABLED: the generators and checkers of its lanes are cleared (R241), its speed stands (R255). -/
def portStart (p : Nat) (s : State) : State :=
  let s := forEach (if p = 64 then [] else portLanes s p) (fun n s =>
    ((s.put (LN_PRBS_CTRL_GEN_EN n) 0).put (LN_PRBS_CTRL_CHK_EN n) 0).put (LN_PRBS_STATUS_CHK_LOCK n) 0) s
  let s := if p = 64 then s else s.put (MAC_STATUS_SPEED p) (s.rate p)
  portEval p ((s.put (MAC_CFG_EN p) 1).put (MAC_STATUS_STATE p) 1)

/-- The commitment of port `p` (R46, R255): refused, its enable is not stored. -/
def portCommit (p : Nat) (s : State) : State :=
  match portErrors s p with
  | [] => portStart p s
  | codes => modeErrs (codes.map (fun c => (c, 0, p))) (s.put (MAC_CFG_EN p) 0)

/-- EN written 1 (R259, R260). -/
def portOn (p : Nat) (s : State) : State :=
  if portState s p ≠ 0 then s.put (MAC_CFG_EN p) 1
  else if s.on (MAC_STATUS_FLUSH_BUSY p) then
    (s.put (MAC_CFG_EN p) 1).setPort p { s.portRec p with heldEnable := true }
  else portCommit p s

/-- EN written 0 (R259, R260). -/
def portOff (p : Nat) (s : State) : State :=
  let s := (s.put (MAC_CFG_EN p) 0).setPort p { s.portRec p with heldEnable := false }
  if portState s p = 0 then s
  else
    let s := if s.on (MAC_STATUS_FLUSH_BUSY p) then s else portFlushStart p s
    portTo p 0 s

/-- UP_HOLD has passed with the link up (R259). -/
def portUpHold (p : Nat) (s : State) : State :=
  if portState s p = 1 ∧ portLinked s p then portTo p 4 s else s

/-- DOWN_HOLD expires; a link that is back in the same cycle returns the port to UP (R259, R260). -/
def portDownHold (p : Nat) (s : State) : State :=
  if portState s p = 2 then
    (if portLinked s p then portTo p 4 s else portFlushStart p (portTo p 3 s))
  else s

/-- A port flush completes (R259, R260, R430). -/
def portFlushed (p : Nat) (s : State) : State :=
  if !s.on (MAC_STATUS_FLUSH_BUSY p) then s
  else
    let s := (portFlushEnd p s).ev (MAC_EVENT_FLUSH_DONE p)
    if portState s p = 3 then portEval p (portTo p 1 s)
    else if portState s p = 0 ∧ (s.portRec p).heldEnable then
      portCommit p (s.setPort p { s.portRec p with heldEnable := false })
    else s

/-- The port whose link depends on lane `n`. -/
def laneOwner (s : State) (n : Nat) : Nat := if n = 64 then 65 else if s.rate n = 3 then n / 4 * 4 else n

end Sys2Proof.Machine
end

