-- ==== Sys2Proof/Machine/Lanes.lean ====
section
/-!
DEFINITION. Serial lanes: quad PLLs (R207 to R211), the lane states (R212 to R225), clocking modes (R226 to R237), recovered-clock
selectors (R238, R239), pattern checkers and eye scans (R240 to R246), shedding (R247).
-/

namespace Sys2Proof.Machine

/-! ### Geometry -/

/-- The state of lane `n` (R250): 0 OFF, 1 SIGNAL_DETECT, 2 CDR_LOCK, 3 ALIGN_HUNT, 4 TRAINING, 5 LINKED, 6 FAULT. -/
def laneState (s : State) (n : Nat) : Nat := s.get (LN_STATUS_STATE n)

/-- The PLL of lane `n`; 16 is LM's. -/
def lanePll (n : Nat) : Nat := n / 4

/-- The lanes of a PLL. -/
def pllLanes (q : Nat) : List Nat := if q = 16 then [64] else (List.range 4).map (fun k => 4 * q + k)

/-- The RATE of lane `n`; LM runs at 10G (R210). -/
def laneRate (s : State) (n : Nat) : Nat := if n = 64 then 1 else s.rate n

/-- The lanes that link and switch together with lane `n` (R217, R232). -/
def laneGroup (s : State) (n : Nat) : List Nat :=
  if n ≠ 64 ∧ s.rate n = 3 then (List.range 4).map (fun k => n / 4 * 4 + k) else [n]

/-- The first lane of the group, where its switch request is kept. -/
def laneHead (s : State) (n : Nat) : Nat := if n ≠ 64 ∧ s.rate n = 3 then n / 4 * 4 else n

/-- The multiplier a RATE needs (R207). -/
def rateN (rate : Nat) : Nat := if rate = 0 then 128 else if rate = 1 then 132 else 165

/-- N of the plan named in LN_QUADq_CFG matches RATE (R208); LM's N is fixed (R210). -/
def planOk (s : State) (q : Nat) : Bool :=
  q == 16 || s.get (SYN_QPLL_PLAN_N q (s.get (LN_QUAD_CFG_PLAN q))) == rateN (s.get (LN_QUAD_CFG_RATE q))

/-- The lanes of port `p` are never shed: LM, and those of a protected port (R593, MC36). -/
def lanePinned (s : State) (n : Nat) : Bool := n == 64 || s.on (MAC_CFG_PROTECTED (laneOwner s n))

/-- The group of lane `n` is shed at present (R592, R601): the groups go in the order 3, 2, 1. -/
def laneShed (s : State) (n : Nat) : Bool :=
  !lanePinned s n && decide (4 ≤ s.get PWR_STATUS_GROUPS_SHED + s.get (LN_CTRL_SHED_GROUP n))

/-- The device state lets lanes leave electrical idle (R41). -/
def lanesRun (s : State) : Bool := s.dev = .loading || s.dev = .running

/-! ### Recovered-clock selectors (R238, R239) -/

/-- ACTIVE of selector `m` follows the state; a selector that stops loses slot 8 + m. -/
def rcsRefresh (m : Nat) (s : State) : State :=
  let was := s.on (LN_RCS_CFG_ACTIVE m)
  let is := s.on (LN_RCS_CFG_EN m) && !smGet false s.rcsHeld m && s.cdrLock (s.get (LN_RCS_CFG_LANE m))
  let s := s.putB (LN_RCS_CFG_ACTIVE m) is
  if was ∧ !is then refGone (8 + m) s else s

/-- The selectors of lane `n` follow it. -/
def rcsFollow (n : Nat) (s : State) : State :=
  forEach (List.range 4) (fun m s => if s.get (LN_RCS_CFG_LANE m) = n then rcsRefresh m s else s) s

/-- LN_RCSm_CFG has been written over a previous LANE and EN: a new LANE while EN = 1 stops the output for 20 µs. -/
def rcsWritten (m lane : Nat) (en : Bool) (s : State) : State :=
  let s : State :=
    if !s.on (LN_RCS_CFG_EN m) then { s with rcsHeld := smSet false s.rcsHeld m false }
    else if en ∧ lane ≠ s.get (LN_RCS_CFG_LANE m) then { s with rcsHeld := smSet false s.rcsHeld m true }
    else s
  rcsRefresh m s

/-- The 20 µs of selector `m` have passed. -/
def rcsRestart (m : Nat) (s : State) : State := rcsRefresh m { s with rcsHeld := smSet false s.rcsHeld m false }

/-! ### Lane states -/

/-- An eye scan ends with a result (R246). -/
def eyeEnd (n result : Nat) (s : State) : State :=
  if (s.laneRec n).eye = 0 then s
  else
    ((s.setLane n { s.laneRec n with eye := 0 }).put (LN_EYE_STATUS_RESULT n) result).put (LN_EQ_FROZEN n) 0

/-- CDR lock is taken or lost (R216, R239, R246, R296). -/
def cdrSet (n : Nat) (lock : Bool) (s : State) : State :=
  if s.cdrLock n = lock then s
  else
    let s := s.putB (LN_STATUS_CDR_LOCKED n) lock
    let s := if lock then s else eyeEnd n 2 (sampleLost n s)
    rcsFollow n s

/-- What ends with LINKED (R225, R226, R233, R235, R237). -/
def laneUnlink (n : Nat) (s : State) : State :=
  let s := ((s.put (LN_LAT_VALID n) 0).put (LN_STATUS_UNTRAINED n) 0).put (LN_EB_FILL n) 0
  let s := s.setLane n { s.laneRec n with switch := none, forced := false, counted := false, cross := 0 }
  fineRefresh (lanePort n) (s.put (LN_STATUS_CLOCK_EFF n) 0)

/-- LINKED is lost (R251): the event and its count. -/
def laneLost (n : Nat) (s : State) : State := (s.ev (LN_EVENT_LOS n)).count (LN_CNT0_LOS n)

/-- A lane takes a state other than LINKED; the other lanes of a four-lane port hunt again (R217), and the port follows (R258). -/
def laneSet (n st : Nat) (s : State) : State :=
  let was := laneState s n
  let s := s.put (LN_STATUS_STATE n) st
  let s := if was = 5 ∧ st ≠ 5 then laneUnlink n s else s
  let s := if st = 0 ∨ st = 1 ∨ st = 6 then cdrSet n false s else s
  if was = 5 ∧ st ≠ 5 then
    let s := forEach (laneGroup s n) (fun m s =>
      if laneState s m = 5 then laneUnlink m (laneLost m (s.put (LN_STATUS_STATE m) 3)) else s) s
    xcRefreshAll (portEval (laneOwner s n) s)
  else s

/-- The transmitter takes its preset taps (R224). -/
def lanePreset (n : Nat) (s : State) : State :=
  ((s.put (LN_TX_CUR_PRE n) (s.get (LN_TX_PRESET_PRE n))).put (LN_TX_CUR_MAIN n) (s.get (LN_TX_PRESET_MAIN n))).put
    (LN_TX_CUR_POST n) (s.get (LN_TX_PRESET_POST n))

/-- The lane enters SIGNAL_DETECT. -/
def laneDetect (n : Nat) (s : State) : State := lanePreset n (laneSet n 1 s)

/-- The lane goes to FAULT (R212): a major alarm. -/
def laneFault (n : Nat) (s : State) : State := raiseMajor 3 ((laneSet n 6 s).ev (LN_EVENT_FAULT n))

/-- A failure of lane `n` (R214, R215): the back-off doubles; the eighth in a row resets the PMA, the third reset in 10 s is FAULT. -/
def laneFail (n : Nat) (s : State) : State :=
  let r := s.laneRec n
  let b := s.get (LN_STATUS_BACKOFF n)
  if r.fails + 1 < 8 then
    let s := s.setLane n { r with fails := r.fails + 1 }
    laneDetect n (s.put (LN_STATUS_BACKOFF n) (if b = 0 then 10 else min (2 * b) 1000))
  else
    let times := s.now :: recent s.now r.pmaAt
    let s := s.setLane n { r with fails := 0, pmaAt := times }
    let s := ((s.ev (LN_EVENT_PMA_RESET n)).count (LN_CNT1_PMA_RESETS n)).put (LN_STATUS_BACKOFF n) 0
    let s := lanePreset n (s.put (LN_EQ_PEAK_CUR n) (s.get (LN_EQ_PEAK n)))
    if 3 ≤ times.length then laneFault n s else laneDetect n s

/-- PHA_TXPH and the clocks of a PLL that powers down (R211, R301). -/
def pllDown (q : Nat) (s : State) : State :=
  let s := txphClear q (s.setPll q { s.pllRec q with on := false, waits := false, half := 0 })
  if q < 16 then (s.put (LN_QUAD_STATUS_PLL_LOCKED q) 0).put (LN_QUAD_STATUS_RELOCKING q) 0 else s

/-- Lane `n` is to leave OFF: it is enabled and not shed (R211, R212). -/
def laneWants (s : State) (n : Nat) : Bool := s.on (LN_CTRL_EN n) && !laneShed s n && lanesRun s

/-- A PLL whose plan matches powers up and relocks (R211). -/
def pllUp (q : Nat) (s : State) : State :=
  if (s.pllRec q).on || !planOk s q then s
  else
    let s := s.setPll q { s.pllRec q with on := true, waits := true }
    if q < 16 then s.put (LN_QUAD_STATUS_RELOCKING q) 1 else s

/-- The lane goes to OFF, with its back-off and failures at zero; with the last lane the PLL powers down, unless another one waits in OFF
for its lock (R211, R212, R214). -/
def laneOff (n : Nat) (s : State) : State :=
  let s := (laneSet n 0 s).put (LN_STATUS_BACKOFF n) 0
  let s := s.setLane n { s.laneRec n with fails := 0 }
  let q := lanePll n
  if (pllLanes q).all (fun m => laneState s m == 0 && !(laneWants s m && planOk s q)) then pllDown q s else s

/-- Calibration of the lane's sampler step is due at its move from OFF to SIGNAL_DETECT (R516, R521). -/
def stepOwed (n : Nat) (s : State) : State := { s with cal := { s.cal with owed := s.cal.owed ++ [100 + n] } }

/-- An enabled lane leaves OFF where it may (R208, R211, R212, R601). -/
def laneKick (n : Nat) (s : State) : State :=
  if laneState s n ≠ 0 || !s.on (LN_CTRL_EN n) || !lanesRun s then s
  else if laneShed s n then s.put (LN_STATUS_SHED n) 1
  else if !planOk s (lanePll n) || (s.pllRec (lanePll n)).planDue then s
  else if s.pllLocked (lanePll n) then stepOwed n (laneDetect n s)
  else pllUp (lanePll n) s

/-- A lane is shed (R247): OFF with SHED = 1, whatever its EN. -/
def laneShedNow (n : Nat) (s : State) : State :=
  if laneShed s n then laneOff n (s.put (LN_STATUS_SHED n) 1) else s

/-- A shed lane's group is restored (R247, R598). -/
def laneRestore (n : Nat) (s : State) : State :=
  if s.on (LN_STATUS_SHED n) ∧ !laneShed s n then laneKick n (s.put (LN_STATUS_SHED n) 0) else s

/-- The Forbidden combinations lane `n` meets at its commitment: LM with another FEC (MC05). -/
def laneErrors (s : State) (n : Nat) : List Nat := if n = 64 ∧ s.get (MAC_CFG_FEC 65) ≠ 0 then [5] else []

/-- EN written 1 (R46, R211, R212): refused, it is not stored. -/
def laneOn (n : Nat) (s : State) : State :=
  if s.on (LN_CTRL_EN n) then laneKick n s
  else
    match laneErrors s n with
    | [] => laneKick n (s.put (LN_CTRL_EN n) 1)
    | codes => modeErrs (codes.map (fun c => (c, 1, n))) s

/-- EN written 0 (R212). -/
def laneDisable (n : Nat) (s : State) : State :=
  let s := s.put (LN_CTRL_EN n) 0
  laneOff n (s.putB (LN_STATUS_SHED n) (laneShed s n))

/-- The transmitter of lane `n` is in electrical idle (R212): in OFF and in FAULT, while its PLL is not locked, and where the device state
holds it (R41). -/
def laneIdle (s : State) (n : Nat) : Bool :=
  laneState s n == 0 || laneState s n == 6 || !s.pllLocked (lanePll n) || !lanesRun s

/-! ### PLLs -/

/-- The domain clocks are at nominal: neither gated nor at the safe ratio (R70, R71). -/
def State.nominal (s : State) : Bool := !s.gated && !s.on SYN_STATUS_SAFE_RATIO

/-- The 2 µs at half rate of a release, in 4 ns of wall time (R69). -/
def safeTime : Nat := 500

/-- The clocks of a PLL to the PCS run at half rate: in the 2 µs after its lock (R70, R80). -/
def pcsHalf (s : State) (q : Nat) : Bool := s.pllLocked q && decide (s.now < (s.pllRec q).half)

/-- A PLL locks with a band (R80, R211, R301), and its clocks to the PCS are released at half rate (R70); while the Capstan is not nominal
it waits (R73). -/
def pllLock (q band : Nat) (s : State) : State :=
  let r := s.pllRec q
  if !r.on || !r.waits || r.planDue || !s.nominal then s
  else
    let s := txphLocked q (txphClear q (s.setPll q { r with
      waits := false, half := s.now + safeTime, band := if q = 16 then band else r.band }))
    let s :=
      if q < 16 then
        let k := s.get (LN_QUAD_CFG_PLAN q)
        let s := (s.put (SYN_QPLL_PLAN_BAND q k) band).put (SYN_QPLL_PLAN_VALID q k) 1
        (s.put (LN_QUAD_STATUS_PLL_LOCKED q) 1).put (LN_QUAD_STATUS_RELOCKING q) 0
      else s
    forEach (pllLanes q) laneKick s

/-- A PLL loses lock (R212, R301): its active lanes return to SIGNAL_DETECT, which is no failure.  While the Capstan is not nominal the
PLL holds its VCO control (R71). -/
def pllLoss (q : Nat) (s : State) : State :=
  if !s.pllLocked q || !s.nominal then s
  else
    let s := s.setPll q { s.pllRec q with waits := true, half := 0 }
    let s := if q < 16 then (s.put (LN_QUAD_STATUS_PLL_LOCKED q) 0).put (LN_QUAD_STATUS_RELOCKING q) 1 else s
    forEach (pllLanes q) (fun n s =>
      if laneState s n = 0 ∨ laneState s n = 6 then s
      else laneDetect n (if laneState s n = 5 then laneLost n s else s)) (txphClear q s)

/-- A PLL has not relocked 1 ms after its loss of lock (R212, R253). -/
def pllTimeout (q : Nat) (s : State) : State :=
  let active := (pllLanes q).filter (fun n => laneState s n != 0)
  if !(s.pllRec q).on || s.pllLocked q || active.isEmpty then s
  else
    let s := if q < 16 then s.ev (LN_QUAD_STATUS_PLL_FAIL q) else s
    forEach active (fun n s => if laneState s n = 6 then s else laneFault n s) s

/-- A plan of quad `q` has been written: the PLL runs only while N matches (R208). -/
def planWritten (q : Nat) (s : State) : State :=
  if !planOk s q then
    pllDown q (forEach (pllLanes q) (fun n s => if laneState s n = 0 then s else laneOff n s) s)
  else forEach (pllLanes q) laneKick s

/-- The PLL of a quad relocks to its new plan (R209); while the Capstan is not nominal the change waits (R73). -/
def quadRelock (q : Nat) (s : State) : State :=
  if s.nominal then forEach (pllLanes q) laneKick (pllDown q (s.setPll q { s.pllRec q with planDue := false }))
  else s.setPll q { s.pllRec q with planDue := true }

/-- The Capstan is nominal: the plan changes that waited proceed (R73). -/
def quadsRelease (s : State) : State :=
  forEach ((s.plls.filter (fun e => e.2.planDue)).map (fun e => e.1)) quadRelock s

/-- LN_QUADq_CFG has taken a new RATE or PLAN with every lane OFF (R15, R209, R255, R708): the PLL relocks, ports that no longer exist are
disabled, and the speeds follow. -/
def quadWritten (q : Nat) (s : State) : State :=
  let s := forEach ((List.range 4).map (fun k => 4 * q + k)) (fun p s =>
    if !s.portExists p then portOff p s
    else if portState s p = 0 then s else latRefresh p (s.put (MAC_STATUS_SPEED p) (s.rate p))) s
  quadRelock q s

/-! ### Signal, CDR, training, alignment -/

/-- The near-end serial loop-back of lane `n` is closed: its receiver takes its own transmitted data (R244). -/
def laneLooped (s : State) (n : Nat) : Bool := s.get (LN_CTRL_LOOPBACK n) == 1

/-- Signal has been present for 100 µs and the back-off has elapsed (R212, R221); in loop-back the signal is the lane's own. -/
def laneSignal (n : Nat) (s : State) : State :=
  if laneState s n ≠ 1 ∨ (laneLooped s n ∧ laneIdle s n) then s
  else
    let s := (s.put (LN_STATUS_LOS n) 0).put (LN_EQ_PEAK_CUR n) (s.get (LN_EQ_PEAK n))
    let train := s.on (LN_CTRL_TRAIN_EN n) && laneRate s n != 0
    laneSet n 2 (s.setLane n { s.laneRec n with train := train, gaveUp := false })

/-- The CDR locks (R212, R216), on a signal that is present (R250). -/
def laneCdr (n : Nat) (s : State) : State :=
  if laneState s n ≠ 2 then s
  else laneSet n (if (s.laneRec n).train then 4 else 3) (cdrSet n true (s.put (LN_STATUS_LOS n) 0))

/-- CDR_LOCK times out (R212). -/
def laneCdrTimeout (n : Nat) (s : State) : State :=
  if laneState s n ≠ 2 then s else laneFail n (s.ev (LN_EVENT_CDR_TIMEOUT n))

/-- One request to a cursor beside the main one (R224): its coefficient is negative, so that an increment lowers the field; 1 updated, 2 at
the minimum, 3 at the maximum, 0 not asked (PRESUMED, log entry 134).  `free` says that the driver has swing left. -/
def sideMove (hi : Nat) (free : Bool) (v : Nat) : CoeffReq → Nat × Nat
  | .hold => (v, 0)
  | .increment => if v = 0 then (v, 3) else (v - 1, 1)
  | .decrement => if v < hi ∧ free then (v + 1, 1) else (v, 2)

/-- One request to the main cursor (R224). -/
def mainMove (free : Bool) (v : Nat) : CoeffReq → Nat × Nat
  | .hold => (v, 0)
  | .increment => if v < 63 ∧ free then (v + 1, 1) else (v, 3)
  | .decrement => if v = 0 then (v, 2) else (v - 1, 1)

/-- The transmitter's taps. -/
def tapsPut (n pre main post : Nat) (s : State) : State :=
  ((s.put (LN_TX_CUR_PRE n) pre).put (LN_TX_CUR_MAIN n) main).put (LN_TX_CUR_POST n) post

/-- The taps a training frame asks for, with the statuses answered (R222, R224): preset is the full main cursor alone, the initial values are open.
The taps together never exceed full swing. -/
def tapsAsked (s : State) (n : Nat) (t : TrainFrame) (init : Nat) : (Nat × Nat × Nat) × List Nat :=
  if t.preset then ((0, 63, 0), [1, 1, 1])
  else if t.initial then
    let pre := init % 16
    let post := init / 16 % 32
    ((pre, init / 512 % (64 - pre - post), post), [1, 1, 1])
  else
    let a := s.get (LN_TX_CUR_PRE n)
    let b := s.get (LN_TX_CUR_MAIN n)
    let c := s.get (LN_TX_CUR_POST n)
    let x := sideMove 15 (decide (a + b + c < 63)) a t.pre
    let y := mainMove (decide (x.1 + b + c < 63)) b t.main
    let z := sideMove 31 (decide (x.1 + y.1 + c < 63)) c t.post
    ((x.1, y.1, z.1), [x.2, y.2, z.2])

/-- The partner's training frame moves the lane's own taps and is answered; the lane's own request to the partner is its receiver's choice
(R222, R224). -/
def trainFrame (n : Nat) (t : TrainFrame) (s : State) : State :=
  let f := s.fresh
  let x := tapsAsked s n t (Config.trainInit f.1)
  (tapsPut n x.1.1 x.1.2.1 x.1.2.2 f.2).send (.train n x.2 (Config.trainRequest f.1))

/-- A training frame of lane `n` itself, as its receiver takes it in loop-back (R222, R244): what it asks is the request of its own
receiver, in the layout of Clause 72's coefficient update field (PRESUMED, log entry 134). -/
def ownTrain (n : Nat) (ready : Bool) (s : State) : State :=
  let f := s.fresh
  let c := Config.trainRequest f.1
  let ask : Nat → CoeffReq := fun k => match c / 4 ^ k % 4 with
    | 1 => .increment
    | 2 => .decrement
    | _ => .hold
  trainFrame n ⟨c.testBit 13, c.testBit 12, ask 0, ask 1, ask 2, ready⟩ f.2

/-- Training goes through the partner's frames, and completes with one that says its receiver is ready (R222); in loop-back through as
many of the lane's own, its receiver ready where the row says so (R244). -/
def laneTrained (n : Nat) (frames : List TrainFrame) (s : State) : State :=
  if laneState s n ≠ 4 then s
  else
    let s := forEach frames (fun t s => if laneLooped s n then ownTrain n t.ready s else trainFrame n t s) s
    match frames.getLast? with
    | some t => if t.ready then laneSet n 3 s else s
    | none => s

/-- The training wait timer expires (R225). -/
def laneTrainFallback (n : Nat) (s : State) : State :=
  if laneState s n ≠ 4 then s
  else
    let s := (s.ev (LN_EVENT_TRAIN_FALLBACK n)).count (LN_CNT0_TRAIN_FALLBACK n)
    laneSet n 3 (lanePreset n (s.setLane n { s.laneRec n with gaveUp := true }))

/-- A loss on lane `n` (R212): of signal in TRAINING, a failure; of signal, lock or alignment in LINKED, no failure.  In loop-back the
signal is the lane's own (R244). -/
def laneLoss (n : Nat) (c : LossCause) (s : State) : State :=
  if laneLooped s n ∧ c = .signal ∧ !laneIdle s n then s else
  let s := if c = .signal ∧ laneState s n ≠ 0 then s.put (LN_STATUS_LOS n) 1 else s
  if laneState s n = 4 ∧ c = .signal then laneFail n (s.ev (LN_EVENT_TRAIN_LOS n))
  else if laneState s n = 5 then laneDetect n (laneLost n s)
  else s

/-- The latency values are recorded (R237): the variable terms in pu under R9. -/
def laneRecord (n : Nat) (l : LaneLat) (s : State) : State :=
  let rate := laneRate s n
  let gbox := if rate = 0 then 0 else l.gbox.val
  let deskew := if rate = 3 then l.deskew.val else 0
  let s := ((s.put (LN_LAT_RX_SLIP n) l.slip.val).put (LN_LAT_TX_GBOX n) gbox).put (LN_LAT_DESKEW n) deskew
  let s := s.puti (LN_LAT_RX_V n) (roundDiv (((l.slip.val + deskew : Nat) : Int) * vUi rate) 66000)
  let s := s.puti (LN_LAT_TX_V n) (roundDiv ((gbox : Int) * vUi rate) 66000)
  (s.put (LN_LAT_VALID n) 1).count (LN_CNT3_LINKUPS n)

/-- One lane enters LINKED (R214, R225, R226, R228, R235), its signal present (R250). -/
def laneLink (n : Nat) (l : LaneLat) (s : State) : State :=
  let r := s.laneRec n
  let s := s.put (LN_STATUS_LOS n) 0
  let s := ((s.put (LN_STATUS_STATE n) 5).putB (LN_STATUS_UNTRAINED n) r.gaveUp).put (LN_EB_FILL n) 16
  let s := (s.put (LN_STATUS_SYNT_OK n) 0).put (LN_STATUS_CLOCK_EFF n) 0
  laneRecord n l (s.setLane n { r with fails := 0, fellBack := false, passRun := 0, failRun := 0, winFrom := s.clk })

/-- Alignment is achieved (R217, R219, R220): every lane of the group hunts, and the skew is within the deskew buffer. -/
def laneAligned (n : Nat) (lat : List LaneLat) (s : State) : State :=
  let g := laneGroup s n
  if lat.length ≠ g.length || !g.all (fun m => laneState s m == 3) ||
      (decide (laneRate s n = 3) && lat.any (fun l => decide (4800 < l.deskew.val))) then s
  else
    let s := forEach (g.zip lat) (fun e s => laneLink e.1 e.2 s) s
    portEval (laneOwner s n) s

/-- ALIGN_HUNT times out (R212). -/
def laneAlignTimeout (n : Nat) (s : State) : State :=
  if laneState s n ≠ 3 then s else laneFail n (s.ev (LN_EVENT_ALIGN_TIMEOUT n))

/-- LINKED for 1 s (R214). -/
def laneBackoffReset (n : Nat) (s : State) : State :=
  if laneState s n = 5 then s.put (LN_STATUS_BACKOFF n) 0 else s

/-! ### Clocking (R226 to R234) -/

/-- A switch of the group of lane `n` is requested: to SYNTONOUS, or back, at the next block and counted where it says so. -/
def switchAsk (n : Nat) (synt forced counted : Bool) (s : State) : State :=
  let h := laneHead s n
  s.setLane h { s.laneRec h with switch := some synt, forced := forced, counted := counted }

/-- The group of lane `n` may enter SYNTONOUS (R229, R232). -/
def syntReady (s : State) (n : Nat) : Bool :=
  (laneGroup s n).all (fun m =>
    laneLinked s m && !s.on (LN_STATUS_CLOCK_EFF m) && s.on (LN_CTRL_CLOCK_REQ m) &&
      (!(s.laneRec m).fellBack || s.on (LN_CTRL_AUTO_RETURN m)) &&
      decide (10 * s.get (LN_SYNT_HOLD_V m) ≤ (s.laneRec m).passRun))

/-- The switch to SYNTONOUS is requested where its conditions hold and none is pending. -/
def syntAsk (n : Nat) (s : State) : State :=
  if syntReady s n ∧ (s.laneRec (laneHead s n)).switch = none then switchAsk n true false false s else s

/-- A trigger of R230: the lanes fall back together; one already falling back keeps its first trigger. -/
def fallbackAsk (n : Nat) (forced counted : Bool) (s : State) : State :=
  if !s.on (LN_STATUS_CLOCK_EFF n) ∨ (s.laneRec (laneHead s n)).switch = some false then s
  else switchAsk n false forced counted s

/-- The slope of the least-squares line through the points (sample number, UNWRAP), in DCO units, as numerator and denominator (R303): a
pu for each sample of 16,385 / 156.25 MHz is 1220703125 / 32770 units. -/
def lineFit (w : List (Nat × Int)) : Int × Nat :=
  let n : Int := w.length
  let sx : Int := w.foldl (fun t p => t + p.1) 0
  let sy : Int := w.foldl (fun t p => t + p.2) 0
  let sxx : Int := w.foldl (fun t p => t + (p.1 : Int) * p.1) 0
  let sxy : Int := w.foldl (fun t p => t + (p.1 : Int) * p.2) 0
  ((n * sxy - sx * sy) * 1220703125, ((n * sxx - sx * sx) * 32770).toNat)

/-- The samples of the last 100 ms on the channel of lane `n`, the oldest first. -/
def estimateWindow (s : State) (n : Nat) : List WinSample :=
  ((s.phaRec n).win.filter (fun x => decide (s.clk < x.at_ + winTicks))).reverse

/-- The valid ones of a window's samples, with their sample numbers. -/
def windowPoints (w : List WinSample) : List (Nat × Int) := w.zipIdx.filterMap (fun x => x.1.u.map (fun u => (x.2, u)))

/-- An estimate over a window passes: at least 900 valid samples, no RANGE sample, and a slope within the limit (R228, R303). -/
def estimateOk (s : State) (n : Nat) (w : List WinSample) : Bool :=
  let f := lineFit (windowPoints w)
  decide (900 ≤ (windowPoints w).length) && !w.any (fun x => x.range) && decide (f.2 ≠ 0) &&
    decide ((roundDiv f.1 f.2).natAbs ≤ s.get (LN_SYNT_LIMIT_V n))

/-- An estimate of lane `n` (R228 to R230): none is made while CLK_TIME is not nominal, nor before the window is full since the lane's
entry to LINKED and since CLK_TIME last reached nominal. -/
def syntEstimate (n : Nat) (s : State) : State :=
  if laneState s n ≠ 5 || !s.nominal || decide (s.clk < (s.laneRec n).winFrom + winTicks) then s
  else
    let ok := estimateOk s n (estimateWindow s n)
    let r := s.laneRec n
    let s := s.putB (LN_STATUS_SYNT_OK n) ok
    let s := s.setLane n { r with passRun := if ok then r.passRun + 1 else 0, failRun := if ok then 0 else r.failRun + 1 }
    if s.on (LN_STATUS_CLOCK_EFF n) then (if 3 ≤ (s.laneRec n).failRun then fallbackAsk n false true s else s)
    else syntAsk n s

/-- The crossing reaches its margin (R230). -/
def crossingMargin (n : Nat) (s : State) : State :=
  if laneState s n = 5 then fallbackAsk n true true s else s

/-- A word of the crossing, in tenths of a pu: a PMA word at the lane's rate (R207, R227). -/
def crossWord (rate : Nat) : Int := roundDiv (10 * vWord rate) 66000

/-- CLK_TIME is nominal: a fresh window of 100 ms starts for every lane (R228). -/
def windowsRestart (s : State) : State :=
  forEach (s.lanes.map (fun e => e.1)) (fun n s => s.setLane n { s.laneRec n with winFrom := s.clk }) s

/-- A sample of channel `c` (R294 to R297); the crossing of a SYNTONOUS lane takes up the phase it moves, and falls back at its margin of
32 words (R227, R230). -/
def laneSample (c : Nat) (b : Beat) (s : State) : State :=
  let was := (s.phaRec c).recent.head?
  let s := phaSample c b s
  match was, (s.phaRec c).recent.head? with
  | some x, some y =>
    if c < 65 ∧ s.on (LN_STATUS_CLOCK_EFF c) ∧ s.on (PHA_CH_SAMPLE_VALID c) then
      let cross := (s.laneRec c).cross + (y.1 - x.1)
      let s := s.setLane c { s.laneRec c with cross := cross }
      if 32 * crossWord (laneRate s c) ≤ cross.natAbs then crossingMargin c s else s
    else s
  | _, _ => s

/-- Beats of channel `c`, one every `every` ticks, the last one now: a sample each (R228, R294). -/
def laneBeats (c every : Nat) : List Beat → State → State
  | [], s => s
  | b :: t, s => laneBeats c every t { laneSample c b { s with clk := s.clk - t.length * every } with clk := s.clk }

/-- CLOCK_REQ has taken a new value (R229, R230). -/
def clockReqWritten (n : Nat) (s : State) : State :=
  let h := laneHead s n
  if s.on (LN_CTRL_CLOCK_REQ n) then syntAsk n s
  else if (s.laneRec h).switch = some true then s.setLane h { s.laneRec h with switch := none }
  else fallbackAsk n false false s

/-- One lane switches (R229 to R231, R235, R237). -/
def laneSwitch (synt counted : Bool) (n : Nat) (l : LaneLat) (s : State) : State :=
  let r := s.laneRec n
  let s :=
    if synt then
      let s := if r.fellBack then s.ev (LN_EVENT_SYNT_RETURN n) else s
      (s.put (LN_STATUS_CLOCK_EFF n) 1).put (LN_EB_FILL n) 0
    else
      let s := s.ev (LN_EVENT_SYNT_FALLBACK n)
      let s := if counted then s.count (LN_CNT1_SYNT_FALLBACK n) else s
      (s.put (LN_STATUS_CLOCK_EFF n) 0).put (LN_EB_FILL n) 16
  laneRecord n l (s.setLane n { r with
    switch := none, forced := false, counted := false, fellBack := !synt, failRun := 0, cross := 0 })

/-- The switch requested for the group of lane `n` takes place (R231, R232); forced, the frame in progress is lost with it. -/
def clockSwitch (n : Nat) (lat : List LaneLat) (force : Bool) (s : State) : State :=
  let h := laneHead s n
  let g := laneGroup s n
  let p := laneOwner s n
  match (s.laneRec h).switch with
  | none => s
  | some synt =>
    if lat.length ≠ g.length ∨ laneState s h ≠ 5 then s
    else
      let counted := (s.laneRec h).counted
      let s :=
        if force ∧ (s.portRec p).rx.isSome then
          frameEnd p [] true true ((s.count (LN_CNT3_EB_ERR h)).ev (LN_EVENT_EB_ERR h))
        else s
      let s := forEach (g.zip lat) (fun e s => laneSwitch synt counted e.1 e.2 s) s
      xcRefreshAll (latRefresh p (fineRefresh p s))

/-! ### Generators, checkers, eye scans (R240 to R247) -/

/-- The pattern of lane `n` (R240). -/
def lanePattern (s : State) (n : Nat) : PatCfg :=
  ⟨s.get (LN_PRBS_CTRL_PATTERN n), s.get (LN_PRBS_CTRL_SQ_HALF n), s.wide (LN_USER_PAT n) % 2 ^ 80, s.on (LN_PRBS_CTRL_INVERT n)⟩

/-- The generator of lane `n` drives the line (R241, R247). -/
def genRuns (s : State) (n : Nat) : Bool := s.on (LN_PRBS_CTRL_GEN_EN n) && s.stage == 0 && !laneIdle s n

/-- The generator starts its pattern: a square wave and the user pattern at their first bit, a PRBS at a place the spec leaves open. -/
def genStart (n : Nat) (s : State) : State :=
  let c := lanePattern s n
  if c.code < 6 then
    let f := s.fresh
    f.2.setLane n { s.laneRec n with gen := { st := 1 + Config.prbsStart f.1 % (2 ^ prbsDegree c.code - 1) } }
  else s.setLane n { s.laneRec n with gen := {} }

/-- INJ_SINGLE (R243): the running generator inverts one bit; a stage other than NORMAL stops it (R247). -/
def injectBit (n : Nat) (s : State) : State :=
  if s.on (LN_PRBS_CTRL_GEN_EN n) ∧ s.stage = 0 then
    s.setLane n { s.laneRec n with gen := { (s.laneRec n).gen with inj := true } }
  else s

/-- The errors counted while locked join the count, which saturates (R242). -/
def prbsErrors (n k : Nat) (s : State) : State :=
  let v := s.wide (LN_PRBS_ERR n) % 2 ^ 48 + k
  let s := s.putWide (LN_PRBS_ERR n) (min v (2 ^ 48 - 1))
  if 2 ^ 48 ≤ v then s.ev (LN_PRBS_STATUS_OVF n) else s

/-- The checker of lane `n` takes the bits at its receiver, the oldest first (R242); outside NORMAL it is held (R247). -/
def checkerTake (n : Nat) (bits : List Bool) (s : State) : State :=
  if s.on (LN_PRBS_CTRL_CHK_EN n) ∧ s.stage = 0 then
    let c := lanePattern s n
    let flip := s.on (LN_CTRL_RX_POL_INV n)
    let x := bits.foldl (fun x b => chkBit c (b != flip) x) ((s.laneRec n).chk, s.on (LN_PRBS_STATUS_CHK_LOCK n), 0)
    let s := (s.setLane n { s.laneRec n with chk := x.1 }).putB (LN_PRBS_STATUS_CHK_LOCK n) x.2.1
    if x.2.2 = 0 then s else prbsErrors n x.2.2 s
  else s

/-- Bits come in at the balls of lane `n` (R242); in loop-back its receiver takes its own (R244). -/
def checkerLine (n : Nat) (bits : List Bool) (s : State) : State := if laneLooped s n then s else checkerTake n bits s

/-- The bits of a line rate in 32 ns (R207). -/
def lineBits (rate : Nat) : Nat := if rate = 0 then 40 else if rate = 1 then 330 else 825

/-- The generator of lane `n` drives the bits of the last `units` of 4 ns (R240, R243); in loop-back they reach its own receiver too, and
the line is driven all the same (R244). -/
def genTick (units n : Nat) (s : State) : State :=
  if !genRuns s n then s
  else
    let k := lineBits (laneRate s n)
    let period := if s.on (LN_PRBS_CTRL_INJ_EN n) then some ((s.get (LN_PRBS_CTRL_INJ_PERIOD n) + 1) * 1024) else none
    let x := genBits (lanePattern s n) period (s.now * k / 8 - (s.now - units) * k / 8) (s.laneRec n).gen
    let bits := x.1.map (fun b => b != s.on (LN_CTRL_TX_POL_INV n))
    let s := (s.setLane n { s.laneRec n with gen := x.2 }).send (.serial n bits)
    if laneLooped s n then checkerTake n bits s else s

/-- The wall time between two steps of the adaptation: 1 ms (R221). -/
def adaptTime : Nat := 250000

/-- The receiver of lane `n` adapts its peaking (R221, R225): at most one step every 1 ms, in CDR_LOCK to LINKED, held while an eye scan
dwells; which way it goes is the receiver's choice. -/
def adaptTick (n : Nat) (s : State) : State :=
  let r := s.laneRec n
  if 2 ≤ laneState s n ∧ laneState s n ≤ 5 ∧ s.on (LN_EQ_ADAPT_EN n) ∧ !s.on (LN_EQ_FROZEN n) ∧ s.nominal ∧ r.adaptAt + adaptTime ≤ s.now then
    let f := s.fresh
    let peak := s.get (LN_EQ_PEAK_CUR n)
    let peak := match Config.adaptStep f.1 % 3 with
      | 0 => peak
      | 1 => min 36 (peak + 1)
      | _ => peak - 1
    (f.2.setLane n { r with adaptAt := s.now }).put (LN_EQ_PEAK_CUR n) peak
  else s

/-- The lanes through the last `units` of 4 ns: the generators that run (R240), and the adaptation of the lanes from CDR_LOCK to LINKED
(R221). -/
def lanesTick (units : Nat) (s : State) : State :=
  forEach ((List.range 65).filter (fun n => s.on (LN_PRBS_CTRL_GEN_EN n) || decide (2 ≤ laneState s n)))
    (fun n s => adaptTick n (genTick units n s)) s

/-- A pass of class 4 is under way (R523). -/
def offsetsBusy (s : State) : Bool := s.get (CAL_K_STATUS_STATE 4) == 1

/-- START (R245, R246): rejected without CDR lock; aborted in SHED1 or deeper; else it runs, or waits for the sampler calibration. -/
def eyeStart (n : Nat) (s : State) : State :=
  if !s.cdrLock n then s.put (LN_EYE_STATUS_RESULT n) 3
  else if s.stage ≠ 0 then s.put (LN_EYE_STATUS_RESULT n) 2
  else
    let s := (s.put (LN_EYE_STATUS_RESULT n) 0).put (LN_EYE_ERR_V n) 0
    if offsetsBusy s then s.setLane n { s.laneRec n with eye := 2 }
    else (s.setLane n { s.laneRec n with eye := 1 }).put (LN_EQ_FROZEN n) 1

/-- Scans that wait for the sampler calibration start (R246, R523). -/
def eyeRelease (s : State) : State :=
  forEach (s.lanes.map (fun e => e.1)) (fun n s =>
    if (s.laneRec n).eye = 2 then (s.setLane n { s.laneRec n with eye := 1 }).put (LN_EQ_FROZEN n) 1 else s) s

/-- The dwell ends (R245): mismatches are counted, saturating. -/
def eyeDone (n errs : Nat) (s : State) : State :=
  if (s.laneRec n).eye = 1 then eyeEnd n 1 (s.put (LN_EYE_ERR_V n) (min errs (2 ^ 32 - 1))) else s

/-- Entry to SHED1 ends every scan (R246, R247). -/
def eyeAbortAll (s : State) : State := forEach (s.lanes.map (fun e => e.1)) (fun n s => eyeEnd n 2 s) s

end Sys2Proof.Machine
end

