-- ==== Sys2Proof/Machine/Tiu.lean ====
section
/-!
DEFINITION. The Time Interval Unit (R484 to R515).
-/

namespace Sys2Proof.Machine

/-- The TIU's state (R510): 0 IDLE, 1 WAIT_BASE, 2 CALIBRATING, 3 WAIT_START, 4 WAIT_STOP. -/
def tiuState (s : State) : Nat := s.get TIU_STATUS_STATE

/-- The parts of the TIU_STAT record (R514). -/
def TIU_STAT_MEAN : Wide := ⟨0x02000040, 2, 0⟩
def TIU_STAT_SD : Wide := ⟨0x02000048, 2, 0⟩
def TIU_STAT_MIN : Wide := ⟨0x02000050, 2, 0⟩
def TIU_STAT_MAX : Wide := ⟨0x02000058, 2, 0⟩
def TIU_STAT_COUNT : Fld := ⟨⟨0x02000060, 0⟩, 0, 16⟩
def TIU_STAT_NO_STOP : Fld := ⟨⟨0x02000060, 0⟩, 16, 16⟩
def TIU_STAT_REJECTED : Fld := ⟨⟨0x02000064, 0⟩, 0, 32⟩

/-- The TIU takes a state. -/
def tiuSet (st : Nat) (s : State) : State := s.put TIU_STATUS_STATE st

/-- The selected base is locked (R491, R494). -/
def tiuLocked (s : State) : Bool :=
  let b := s.get TIU_CFG_BASE
  if b = 0 then s.on SYN_STATUS_LOCKED && !s.gated
  else s.tiu.multLocked && (b != 1 || s.on TIU_STATUS_REF_PRESENT)

/-- BASE_LOCKED follows the state. -/
def tiuBaseBit (s : State) : State := s.putB TIU_STATUS_BASE_LOCKED (tiuLocked s)

/-! ### Intervals (R487, R489) -/

/-- P at a position in 1/8 codes, times 8: the table gives cumulative events at whole codes; without a table P(x) = x. -/
def binPos (t : List Nat) (x : Nat) : Int :=
  if t.isEmpty then x else (t.getD (x / 8) 0 : Int) * (8 - x % 8 : Nat) + (t.getD (x / 8 + 1) 0 : Int) * (x % 8 : Nat)

/-- tau / Tc - 1 as numerator and denominator (R489). -/
def tauFrac (t : List Nat) (code k1 k2 : Nat) : Int × Int :=
  (binPos t (8 * code + 4) - binPos t k1, binPos t k2 - binPos t k1)

/-- The interval from edge `a` of one channel to edge `b` of another or the same: (numerator, denominator) in ns; none where a table has no
events between K1 and K2. -/
def tiuSpan (s : State) (startCh stopCh : Bool) (a b : TiuEdge) : Option (Int × Int) :=
  let frac := fun (start : Bool) (e : TiuEdge) =>
    if start then tauFrac s.tiu.binsA e.code.val s.tiu.cal.startK1 s.tiu.cal.startK2
    else tauFrac s.tiu.binsB e.code.val s.tiu.cal.stopK1 s.tiu.cal.stopK2
  let x := frac startCh a
  let y := frac stopCh b
  if x.2 ≤ 0 ∨ y.2 ≤ 0 then none
  else some (4 * ((b.coarse - a.coarse) * x.2 * y.2 + x.1 * y.2 - y.1 * x.2), 5 * x.2 * y.2)

/-- An edge comes less than 6.4 ns after the channel's previous accepted one (R485). -/
def tooSoon (s : State) (start : Bool) (prev : Option TiuEdge) (e : TiuEdge) : Bool :=
  match prev with
  | none => false
  | some p =>
    match tiuSpan s start start p e with
    | some (n, d) => decide (0 ≤ n) && decide (5 * n < 32 * d)
    | none => decide (0 ≤ e.coarse - p.coarse) && decide (e.coarse - p.coarse < 8)

/-! ### Density histograms (R517) -/

/-- Codes are added to a histogram. -/
def histAdd (h : SMap Nat) (l : List Nat) : SMap Nat := l.foldl (fun h c => smSet 0 h c (smGet 0 h c + 1)) h

/-- A batch takes a code; whole, it joins its histogram where it holds at least 192 distinct codes. -/
def batchAdd (b : List Nat) (h : SMap Nat) (code : Nat) : List Nat × SMap Nat :=
  let b := b ++ [code]
  if b.length < 1024 then (b, h) else ([], if 192 ≤ b.eraseDups.length then histAdd h b else h)

/-- An accepted start edge. -/
def tiuTakeA (e : TiuEdge) (s : State) : State :=
  let r := batchAdd s.tiu.batchA s.tiu.histA e.code.val
  { s with tiu := { s.tiu with lastA := some e, batchA := r.1, histA := r.2 } }

/-- An accepted stop edge. -/
def tiuTakeB (e : TiuEdge) (s : State) : State :=
  let r := batchAdd s.tiu.batchB s.tiu.histB e.code.val
  { s with tiu := { s.tiu with lastB := some e, batchB := r.1, histB := r.2 } }

/-! ### Runs and results -/

/-- The run ends (R500, R503, R510); one that ends DONE, and how one that DISARM ends stood, is kept for the rest of the cycle (R504). -/
def tiuEnd (code : Nat) (s : State) : State :=
  let t := s.tiu
  let was : Option TiuWas := if code = 5 then some ⟨s.now, tiuState s, t.start, t.held, t.startInvalid⟩ else none
  let s := ((tiuSet 0 s).put TIU_CTRL_ARM 0).put TIU_STATUS_RUN_END code
  let s : State := { s with tiu := { t with
    start := none, held := none, startInvalid := false, was := was, doneAt := if code = 1 then some s.now else none } }
  let s := s.ev TIU_EVENT_RUN_DONE
  if code = 4 then s.ev TIU_EVENT_NO_REF else s

/-- The next measurement begins: its calibration, or the wait for the base (R494, R495). -/
def tiuNext (s : State) : State :=
  let s : State := { s with tiu := { s.tiu with
    start := none, held := none, startInvalid := false, cold := !s.on SYN_STATUS_OCXO_WARM } }
  tiuSet (if tiuLocked s then 2 else 1) s

/-- The TIU_STAT record takes a valid result (R501, R514). -/
def tiuStat (x : Int) (s : State) : State :=
  let n := s.get TIU_STAT_COUNT + 1
  let sum := s.tiu.sum + x
  let sum2 := s.tiu.sum2 + (x * x).toNat
  let s : State := { s with tiu := { s.tiu with sum := sum, sum2 := sum2 } }
  let s := if n = 1 ∨ x < s.widei TIU_STAT_MIN then s.putWidei TIU_STAT_MIN x else s
  let s := if n = 1 ∨ s.widei TIU_STAT_MAX < x then s.putWidei TIU_STAT_MAX x else s
  let s := s.putWidei TIU_STAT_MEAN (roundDiv sum n)
  let sd := if n = 1 then 0 else sqrtRound ((n * sum2 : Nat) - (sum * sum) : Int).toNat (n * (n - 1))
  (s.putWide TIU_STAT_SD sd).put TIU_STAT_COUNT n

/-- A result (SNS64) has a magnitude below 6.25 ps, and counts as zero in the window tests (R498). -/
def nearZero (x : Int) : Bool := decide (160 * x.natAbs < 65536)

/-- A result is recorded (R498, R502, R512, R513): `bits` are CAL_FAIL, ABORTED and NO_STOP as bits 2, 1 and 0. -/
def tiuRecord (value : Nat) (bits : Nat) (start : Nat) (s : State) : State :=
  let near := nearZero (signed 64 (value % 2 ^ 64))
  let b := s.get TIU_CFG_BASE
  let warm := decide (b = 2) && (s.tiu.cold || !s.on SYN_STATUS_OCXO_WARM)
  let seq := (s.tiu.seq + 1) % 65536
  let flags := seq + (if bits = 0 then 65536 else 0) + (if near then 2 ^ 17 else 0) + (if warm then 2 ^ 18 else 0) +
    bits * 2 ^ 19 + (if s.tiu.startInvalid then 2 ^ 22 else 0) + b * 2 ^ 24
  let s : State := { s with tiu := { s.tiu with seq := seq, startInvalid := false } }
  let s := s.putWide TIU_LAST (value % 2 ^ 64 + flags * 2 ^ 64 + start * 2 ^ 96)
  if 64 ≤ s.tiu.fifo.length then (s.countSat TIU_FIFO_LEVEL_OVF).ev TIU_EVENT_FIFO_OVF
  else
    let s : State := { s with tiu := { s.tiu with fifo := s.tiu.fifo ++ [(value % 2 ^ 64, flags)] } }
    s.put TIU_FIFO_LEVEL_LEVEL s.tiu.fifo.length

/-- A measurement of the run is complete (R500): the next one, or the end. -/
def tiuDone (s : State) : State :=
  let n := s.get TIU_STATUS_MEAS + 1
  let s := s.put TIU_STATUS_MEAS n
  if s.get TIU_N_V ≤ n then tiuEnd 1 s else tiuNext s

/-- The start time in force, or a free value where the measurement had no start. -/
def tiuStartTime (s : State) : Nat × State :=
  if s.tiu.start.isSome then (s.tiu.startAt, s)
  else let f := s.fresh; (tb96Units (Config.tiuStart f.1), f.2)

/-- A measurement ends without a stop (R499). -/
def tiuNoStop (s : State) : State := tiuDone ((tiuRecord 0 1 s.tiu.startAt s).count TIU_STAT_NO_STOP)

/-- A measurement that was not made ends with CAL_FAIL or ABORTED: its value is open. -/
def tiuVoid (bits : Nat) (s : State) : State :=
  let t := tiuStartTime s
  let f := t.2.fresh
  tiuRecord (Config.tiuResult f.1) bits t.1 f.2

/-- The delay the factory trim takes out of an interval (R484), in 2^-40 ns: the stop's from its source to its interpolator, less the
start's. -/
def tiuTrim (s : State) : Int :=
  smGet 0 s.otp.tiuStop (s.get TIU_CFG_STOP_SRC) - smGet 0 s.otp.tiuStart (s.get TIU_CFG_START_SRC)

/-- The interval from the start to a stop as (numerator, denominator) in ns, at the points R484 gives; a free value where R489 gives none. -/
def tiuInterval (st e : TiuEdge) (s : State) : (Int × Int) × State :=
  match tiuSpan s true false st e with
  | some v => ((v.1 * 2 ^ 40 - tiuTrim s * v.2, v.2 * 2 ^ 40), s)
  | none => let f := s.fresh; ((Config.tiuInterval f.1, 65536), f.2)

/-- An interval in SNS64, rounded once (R489). -/
def tiuResult (v : Int × Int) : Int := roundDiv (v.1 * 65536) v.2.toNat

/-- The stop is accepted: its result (R501). -/
def tiuAccept (v : Int × Int) (s : State) : State :=
  tiuDone (tiuStat (tiuResult v) (tiuRecord (unsigned 64 (tiuResult v)) 0 s.tiu.startAt s))

/-- A candidate stop is judged against the window (R497); `heldStop` says that it came before the start. -/
def tiuJudge (st e : TiuEdge) (heldStop : Bool) (s : State) : State :=
  let r := tiuInterval st e s
  let n := if nearZero (tiuResult r.1) then 0 else r.1.1
  let s := r.2
  let open_ := s.geti TIU_WIN_OPEN_V
  let close := s.geti TIU_WIN_CLOSE_V
  if n < open_ * r.1.2 then s.countSat TIU_STAT_REJECTED
  else if n ≤ close * r.1.2 then tiuAccept r.1 s
  else if heldStop then tiuNoStop s
  else s

/-! ### Commands and events -/

/-- A run is armed (R493, R495, R503); the Boolean says that it is refused: ARM read 1 already, or BAD_WINDOW. -/
def tiuArm (s : State) : State × Bool :=
  if s.on TIU_CTRL_ARM then (s, true)
  else if s.geti TIU_WIN_CLOSE_V < s.geti TIU_WIN_OPEN_V then (s.put TIU_STATUS_RUN_END 6, true)
  else
    let s := (((s.putWide TIU_STAT_MEAN 0).putWide TIU_STAT_SD 0).putWide TIU_STAT_MIN 0).putWide TIU_STAT_MAX 0
    let s := ((s.put TIU_STAT_COUNT 0).put TIU_STAT_NO_STOP 0).put TIU_STAT_REJECTED 0
    let s : State := { s with tiu := { s.tiu with sum := 0, sum2 := 0, was := none, doneAt := none } }
    let s := (s.put TIU_STATUS_MEAS 0).put TIU_STATUS_RUN_END 0
    if s.get TIU_CFG_BASE = 1 ∧ !s.on TIU_STATUS_REF_PRESENT then (tiuEnd 4 s, false)
    else (tiuNext (s.put TIU_CTRL_ARM 1), false)

/-- A write of 1 to ARM (R503). -/
def tiuArmWrite (s : State) : State :=
  let r := tiuArm s
  if r.2 then r.1 else { r.1 with tiu := { r.1.tiu with armedAt := if r.1.on TIU_CTRL_ARM then some s.now else none } }

/-- A TIU_ARM action (R190, R503): with a write of ARM in the same cycle, one run is armed and the action is done (R504). -/
def tiuArmAct (s : State) : State × Bool :=
  let units := if s.on SYN_STATUS_SAFE_RATIO then 2 else 1
  if s.on TIU_CTRL_ARM ∧ (s.tiu.armedAt = some (s.now - units) ∨ s.tiu.armedAt = some s.now) then (s, false) else tiuArm s

/-- DISARM (R503); a run whose last result came in the same cycle ends DISARMED too (R504). -/
def tiuDisarm (s : State) : State :=
  if s.on TIU_CTRL_ARM then tiuEnd 5 s
  else if s.tiu.doneAt = some s.now then s.put TIU_STATUS_RUN_END 5
  else s

/-- What may bring a result: in the cycle in which DISARM ended the run, the result is still written and the run stays DISARMED (R504). -/
def tiuLast (f : State → State) (s : State) : State :=
  match s.tiu.was with
  | some w =>
    if w.at_ = s.now then
      let t := f (tiuSet w.st { s with tiu := { s.tiu with start := w.start, held := w.held, startInvalid := w.startInvalid } })
      if t.tiu.seq = s.tiu.seq then s
      else
        let t : State := { t with tiu := { t.tiu with start := none, held := none, was := none, doneAt := none } }
        ((tiuSet 0 t).put TIU_CTRL_ARM 0).put TIU_STATUS_RUN_END 5
    else f s
  | none => f s

/-- A measurement in progress is aborted, and the run with it (R494). -/
def tiuAbort (s : State) : State :=
  if 2 ≤ tiuState s then tiuEnd 2 ((tiuVoid 2 s).ev TIU_EVENT_ABORT) else s

/-- The selected base has locked (R491, R495). -/
def tiuBaseLocked (s : State) : State :=
  let b := s.get TIU_CFG_BASE
  let ready := (b == 1 && s.on TIU_STATUS_REF_PRESENT) || (b == 2 && (s.dev != .reset && s.dev != .clockStart))
  let s : State := if ready then { s with tiu := { s.tiu with multLocked := true } } else s
  let s := tiuBaseBit s
  if tiuState s = 1 ∧ tiuLocked s then tiuNext s else s

/-- The Capstan has been released: a run that waits for it goes on. -/
def tiuRelease (s : State) : State :=
  let s := tiuBaseBit s
  if tiuState s = 1 ∧ tiuLocked s then tiuNext s else s

/-- The Capstan's clocks are gated (R494, MC31). -/
def tiuGated (s : State) : State :=
  let s := tiuBaseBit s
  if s.get TIU_CFG_BASE = 0 then tiuAbort s else s

/-- BASE takes a new value: the multiplier has to lock anew. -/
def tiuBaseWritten (s : State) : State := tiuBaseBit { s with tiu := { s.tiu with multLocked := false } }

/-- The mean of raw codes in 1/8 code: of eight, their sum (R487). -/
def codesMean (l : List (Fin 512)) : Nat := (roundDiv (8 * (l.map (fun c => c.val)).sum : Nat) l.length).toNat

/-- K1 and K2 of both interpolators from the raw codes of a calibration (R487). -/
def tiuMeans (c : TiuCodes) : TiuCal := ⟨codesMean c.startOne, codesMean c.startTwo, codesMean c.stopOne, codesMean c.stopTwo⟩

/-- The calibration before a measurement is complete (R487, R488, R490): a bin table that waits takes effect with it (R529). -/
def tiuCalDone (c : TiuCodes) (s : State) : State :=
  tiuLast (fun s =>
    if tiuState s ≠ 2 then s
    else
      let k := tiuMeans c
      let okOf := fun (k1 k2 : Nat) => decide (k1 + 1792 ≤ k2) && decide (k2 ≤ k1 + 2304)
      let ok := okOf k.startK1 k.startK2 && okOf k.stopK1 k.stopK2
      let t := s.tiu
      let s := if t.nextA.isSome then calApplied 0 0 s else s
      let s := if t.nextB.isSome then calApplied 0 1 s else s
      let s : State := { s with tiu := { t with
        cal := k, calOk := ok, binsA := t.nextA.getD t.binsA, binsB := t.nextB.getD t.binsB, nextA := none, nextB := none } }
      if ok then tiuSet 3 s else tiuDone ((tiuVoid 4 s).ev TIU_EVENT_CAL_FAIL)) s

/-- A selected edge at the stop's channel (R485, R497); one of the start's cycle counts as the held stop (R504). -/
def tiuStopEdge (e : TiuEdge) (s : State) : State :=
  if tiuState s < 3 || tooSoon s false s.tiu.lastB e then s
  else
    let s := tiuTakeB e s
    match s.tiu.start with
    | none => { s with tiu := { s.tiu with held := some e } }
    | some st => tiuJudge st e (decide (e.coarse ≤ st.coarse)) s

/-- A selected edge at the start's channel (R485, R496, R497). -/
def tiuStartEdge (e : TiuEdge) (ago : Nat) (s : State) : State :=
  if tiuState s < 3 || tooSoon s true s.tiu.lastA e then s
  else
    let wait := tiuState s == 3
    let s := tiuTakeA e s
    if !wait then s
    else
      let s : State := { s with tiu := { s.tiu with
        start := some e, startAt := tb96OfSns (gridStamp s (-(ago : Int)) 0), startInvalid := decide (s.tbState = 0) } }
      let s := tiuSet 4 s
      match s.tiu.held with
      | some h => tiuJudge e h true s
      | none => s

/-- The edge of source `src` is a selected edge of the start's channel, or of the stop's (R484, R485). -/
def tiuStartSel (s : State) (src : Nat) (falling : Bool) : Bool :=
  decide (s.get TIU_CFG_START_SRC = src) && (s.on TIU_CFG_START_EDGE == falling)

def tiuStopSel (s : State) (src : Nat) (falling : Bool) : Bool :=
  decide (s.get TIU_CFG_STOP_SRC = src) && (s.on TIU_CFG_STOP_EDGE == falling)

/-- An edge of a source is offered to the channels that select it (R484 to R486): to the stop's first, so that the edge that starts a
measurement is a held stop; an edge of a measurement under way reaches the start's channel first, and starts none. -/
def tiuEdges (src : Nat) (falling : Bool) (start stop : TiuEdge) (ago : Nat) (s : State) : State :=
  let a := fun (s : State) => if tiuStartSel s src falling then tiuStartEdge start ago s else s
  let b := fun (s : State) => if tiuStopSel s src falling then tiuStopEdge stop s else s
  tiuLast (fun s => if tiuState s = 3 then a (b s) else b (a s)) s

/-- A source whose edges the device makes itself: PPSOUT0 to 3 (R484). -/
def tiuOwn (src : Nat) : Bool := decide (4 ≤ src) && decide (src < 8)

/-- An edge of the start's source (R485, R486): one the channel does not select is ignored, and so is one of a pulse output, whose edges
the device gives itself. -/
def tiuStartIn (e : TiuInput) (stop : TiuEdge) (ago : Nat) (s : State) : State :=
  if tiuOwn e.src || !tiuStartSel s e.src e.falling then s else tiuEdges e.src e.falling e.edge stop ago s

/-- An edge of the stop's source. -/
def tiuStopIn (e : TiuStop) (s : State) : State :=
  if tiuOwn e.src || !tiuStopSel s e.src e.falling then s else tiuEdges e.src e.falling e.start e.edge e.ago s

/-- An edge of a pulse output as an interpolator places it: within the tick that gives it (R102), the rest is a free value. -/
def tiuOwnEdge (s : State) : TiuEdge × State :=
  let f := s.fresh
  (⟨5 * ((s.now : Int) - 1) + (Config.tiuOwnCoarse f.1).val, Config.tiuOwnCode f.1⟩, f.2)

/-- The level of PPSOUTn has changed, as pulse and not as ball: the ball's edge is offered to the TIU (R113, R484). -/
def tiuPps (n : Nat) (level : Bool) (s : State) : State :=
  let falling := level == s.on (PPS_OUT_CFG_POLARITY n)
  if tiuStartSel s (4 + n) falling || tiuStopSel s (4 + n) falling then
    let a := tiuOwnEdge s
    let b := tiuOwnEdge a.2
    tiuEdges (4 + n) falling a.1 b.1 0 b.2
  else s

/-- The pulse outputs' edges of this tick. -/
def tiuPpsAll (old s : State) : State :=
  forEach (List.range 4) (fun n s =>
    if (old.ppsRec n).high != (s.ppsRec n).high then tiuPps n (s.ppsRec n).high s else s) s

/-- The window closes with no stop accepted (R497, R499). -/
def tiuWindowClose (s : State) : State := tiuLast (fun s => if tiuState s = 4 then tiuNoStop s else s) s

/-- No start within TIU_START_TO of the arm (R495). -/
def tiuStartTimeout (s : State) : State :=
  if tiuState s = 3 ∧ s.get TIU_START_TO_V ≠ 0 then tiuEnd 3 s else s

/-- TIU_REF is present (R493). -/
def tiuRefPresent (s : State) : State := tiuBaseBit (s.put TIU_STATUS_REF_PRESENT 1)

/-- TIU_REF is lost (R493, R494). -/
def tiuRefLost (s : State) : State :=
  let s := s.put TIU_STATUS_REF_PRESENT 0
  if s.get TIU_CFG_BASE = 1 then tiuAbort (tiuBaseBit { s with tiu := { s.tiu with multLocked := false } }) else tiuBaseBit s

/-- The TIU multiplier loses lock (R494). -/
def tiuMultLoss (s : State) : State :=
  let s := tiuBaseBit { s with tiu := { s.tiu with multLocked := false } }
  if s.get TIU_CFG_BASE = 2 then tiuAbort s else s

/-- OCXO_WARM falls while a measurement runs (MC29). -/
def tiuCool (s : State) : State :=
  { s.put TIU_STATUS_OCXO_WARM 0 with tiu := { s.tiu with cold := true } }

/-- The oldest result leaves the FIFO (R515): its three words, or zero from an empty FIFO. -/
def tiuPop (s : State) : Nat × State :=
  match s.tiu.fifo with
  | [] => (0, s)
  | (v, f) :: t => (v + f * 2 ^ 64, ({ s with tiu := { s.tiu with fifo := t } }).put TIU_FIFO_LEVEL_LEVEL t.length)

end Sys2Proof.Machine
end

