-- ==== Sys2Proof/Machine/Calib.lean ====
section
/-!
DEFINITION. The Calibration Sequencer (R516 to R529).
-/

namespace Sys2Proof.Machine

/-! ### Instances -/

/-- Instance `i` of class `k` is eligible (R516); class 6 stands for the sampler step of lane `i`. -/
def calEligible (s : State) (k i : Nat) : Bool :=
  match k with
  | 0 => decide (i < 2)
  | 1 => decide (i < 80) && chanRuns s i
  | 2 => decide (i < 17) && s.pllLocked i
  | 3 => decide (i < 12)
  | 4 => decide (i < 65) && laneLinked s i
  | 5 => decide (i < 65) && laneLinked s i && !s.on (LN_PRBS_CTRL_GEN_EN i) && !s.on (LN_PRBS_CTRL_CHK_EN i)
  | _ => decide (i < 65) && laneState s i == 1

/-- The instances a pass of class `k` takes. -/
def calInstances (s : State) (k : Nat) : List Nat :=
  (List.range (if k = 1 then 80 else if k = 2 then 17 else if k = 3 then 12 else if k = 0 then 2 else 65)).filter (calEligible s k)

/-- The measurement channel 78 makes next: rotators before replicas, each in order (R522). -/
def ch78Next (q : List (Nat × Nat)) : Option (Nat × Nat) :=
  match q.find? (fun e => e.1 == 3) with
  | some e => some e
  | none => q.find? (fun e => e.1 == 2)

/-- The measurement channel 78 serves: the one under way to its end, then the next (R522). -/
def ch78Head (s : State) : Option (Nat × Nat) :=
  let e := (s.get CAL_STATUS_CH78_CLASS, s.get CAL_STATUS_CH78_INST)
  if s.on CAL_STATUS_CH78_BUSY && s.cal.queue.contains e then some e else ch78Next s.cal.queue

/-- Channel 78 and the rotator under measurement follow the queue (R90, R519, R522). -/
def ch78Follow (s : State) : State :=
  let busy := s.on CAL_STATUS_CH78_BUSY
  let was := (s.get CAL_STATUS_CH78_CLASS, s.get CAL_STATUS_CH78_INST)
  match ch78Head s with
  | none =>
    if !busy then s
    else
      let s := if was.1 = 3 then outUnstale was.2 s else s
      chanRestart 78 (((s.put CAL_STATUS_CH78_BUSY 0).put CAL_STATUS_CH78_CLASS 0).put CAL_STATUS_CH78_INST 0)
  | some e =>
    if busy ∧ e = was then s
    else
      let s := if busy ∧ was.1 = 3 then outUnstale was.2 s else s
      let s := if e.1 = 3 then s.put (OUT_STATUS_STALE e.2) 1 else s
      ((s.put CAL_STATUS_CH78_BUSY 1).put CAL_STATUS_CH78_CLASS e.1).put CAL_STATUS_CH78_INST e.2

/-- A pass of class `k` is RUNNING. -/
def calRunning (s : State) (k : Nat) : Bool := s.get (CAL_K_STATUS_STATE k) == 1

/-- A class with nothing left to calibrate is IDLE; after class 4, eye scans that waited start (R523). -/
def calSettle (k : Nat) (s : State) : State :=
  if calRunning s k && !s.cal.queue.any (fun e => calClass e.1 == k) then
    let s : State := { s with cal := { s.cal with asked := s.cal.asked.erase k } }
    let s := s.put (CAL_K_STATUS_STATE k) 0
    if k = 4 then eyeRelease s else s
  else s

/-- The adaptation of a lane holds while an eye scan or the sequencer dwells on its offset sampler (R221, R520). -/
def calFrozen (k i : Nat) (s : State) : State :=
  if k = 4 then s.putB (LN_EQ_FROZEN i) ((s.laneRec i).eye == 1 || s.cal.queue.contains (4, i)) else s

/-- A start of class `k`, or of the step of lane `k - 100`, that is deferred to the next NORMAL (R527). -/
def calLater (l : List Nat) (s : State) : State :=
  { s with cal := { s.cal with later := s.cal.later ++ l.filter (fun k => !s.cal.later.contains k) } }

/-- The class a start is of: a lane's step is of class 4. -/
def startClass (o : Nat) : Nat := if o < 100 then o else 4

/-- The instances a start takes: those of its class, or the lane whose step it is. -/
def startTakes (s : State) (o : Nat) : List (Nat × Nat) :=
  if o < 100 then (calInstances s o).map (fun i => (o, i))
  else if calEligible s 6 (o - 100) then [(6, o - 100)] else []

/-- The starts `l` of class `k` begin one pass, or are DEFERRED outside the supply stage NORMAL (MC32, R527). -/
def calBegin (k : Nat) (l : List Nat) (s : State) : State :=
  if s.stage ≠ 0 then calLater l ((s.put (CAL_K_STATUS_STATE k) 2).ev CAL_EVENT_DEFERRED)
  else
    let es := (l.map (startTakes s)).flatten
    let s : State := { s with cal := { s.cal with queue := s.cal.queue ++ es } }
    let s := forEach es (fun e s => calFrozen e.1 e.2 s) s
    calSettle k (ch78Follow (s.put (CAL_K_STATUS_STATE k) 1))

/-- A lane's eye scan is in progress. -/
def scanning (s : State) : Bool := s.lanes.any (fun e => e.2.eye == 1)

/-- A start of class `k` has to wait: a pass of the class runs, or an eye scan holds up class 4 (R521, R523). -/
def calWaits (s : State) (k : Nat) : Bool := calRunning s k || (decide (k = 4) && scanning s)

/-- Starts of class `k` are served at all (R69, R533). -/
def calServed (s : State) (k : Nat) : Bool := s.on (CAL_CFG_EN k) && !s.gated

/-- A start falls due (R521, R523): at once, or owed, to be taken once, while it has to wait. -/
def calStart (o : Nat) (s : State) : State :=
  let k := startClass o
  if !calServed s k then s
  else if calWaits s k then
    if s.cal.owed.contains o then s else { s with cal := { s.cal with owed := s.cal.owed ++ [o] } }
  else calBegin k [o] s

/-- A start of class `k` falls due. -/
def calDue (k : Nat) (s : State) : State := calStart k s

/-- A write of 1 to CAL_k_RUN (R521): it has no effect while a pass so asked for runs or is owed (R17). -/
def calAsk (k : Nat) (s : State) : State :=
  if s.cal.asked.contains k || s.cal.askedOwed.contains k || !calServed s k then s
  else if calWaits s k then calStart k { s with cal := { s.cal with askedOwed := s.cal.askedOwed ++ [k] } }
  else
    let s := calStart k s
    if calRunning s k then { s with cal := { s.cal with asked := s.cal.asked ++ [k] } } else s

/-- Results that wait for the point at which they apply (R516): bin tables, deglitch thresholds, rotator tables. -/
def calPending (s : State) : List (Nat × Nat) :=
  (if s.tiu.nextA.isSome then [(0, 0)] else []) ++ (if s.tiu.nextB.isSome then [(0, 1)] else []) ++
    s.cal.thresh.map (fun e => (1, e.1)) ++ (s.outs.filter (fun e => e.2.table.isSome)).map (fun e => (3, e.1))

/-- A result that waits is given up (R527); what a class 0 pass has collected goes with it. -/
def calDrop (k i : Nat) (s : State) : State :=
  match k with
  | 0 =>
    if i = 0 then { s with tiu := { s.tiu with nextA := none, batchA := [], histA := [] } }
    else { s with tiu := { s.tiu with nextB := none, batchB := [], histB := [] } }
  | 1 => { s with cal := { s.cal with thresh := smSet none s.cal.thresh i none } }
  | 3 => if (s.outRec i).table.isSome then outRelease i (s.setOut i { s.outRec i with table := none }) else s
  | _ => s

/-- An instance leaves its pass, or a result that waits is given up, without an application (R527). -/
def calAbandon (k i : Nat) (s : State) : State :=
  let s : State := { calDrop k i s with
    cal := { (calDrop k i s).cal with queue := (calDrop k i s).cal.queue.filter (fun e => !(e.1 == k && e.2 == i)) } }
  calSettle (calClass k) (ch78Follow (calFrozen k i ((s.put (CAL_K_STATUS_LAST_RESULT (calClass k)) 4).ev CAL_EVENT_ABANDONED)))

/-- Every pass under way that `p` names is abandoned, and every result that waits. -/
def calAbandonAll (p : Nat → Bool) (s : State) : State :=
  forEach ((s.cal.queue ++ calPending s).filter (fun e => p (calClass e.1))) (fun e s => calAbandon e.1 e.2 s) s

/-- The starts owed for class `k` are taken in one pass, directly after the one they waited for (R521). -/
def calTake (k : Nat) (s : State) : State :=
  let l := s.cal.owed.filter (fun o => startClass o == k)
  if l.isEmpty || calWaits s k then s
  else
    let by_ := s.cal.askedOwed.contains k
    let s : State := { s with cal := { s.cal with
      owed := s.cal.owed.filter (fun o => startClass o != k), askedOwed := s.cal.askedOwed.erase k } }
    if !calServed s k then s
    else
      let s := calBegin k l.eraseDups s
      if by_ && calRunning s k then { s with cal := { s.cal with asked := s.cal.asked ++ [k] } } else s

/-- Instances that are no longer eligible leave, thresholds of channels that run no more are given up, and starts owed are taken (R521,
R523, R527). -/
def calFollow (s : State) : State :=
  let s := forEach (s.cal.queue.filter (fun e => !calEligible s e.1 e.2)) (fun e s => calAbandon e.1 e.2 s) s
  let s := forEach (s.cal.thresh.filter (fun e => !calEligible s 1 e.1)) (fun e s => calAbandon 1 e.1 s) s
  if s.cal.owed.isEmpty then s else forEach (List.range 6) calTake s

/-- The supply stage has left NORMAL: passes under way are deferred, to start afresh with what they were calibrating (R527). -/
def calShed (s : State) : State :=
  let l := s.cal.queue ++ calPending s
  let s := calAbandonAll (fun _ => true) s
  let s := calLater ((l.map (fun e => if e.1 = 6 then 100 + e.2 else e.1)).eraseDups) s
  forEach ((l.map (fun e => calClass e.1)).eraseDups) (fun k s => (s.put (CAL_K_STATUS_STATE k) 2).ev CAL_EVENT_DEFERRED) s

/-- The first return to NORMAL: deferred passes start afresh (R527, R598). -/
def calResume (s : State) : State :=
  let l := s.cal.later
  let s : State := { s with cal := { s.cal with later := [], owed := s.cal.owed ++ l.filter (fun o => !s.cal.owed.contains o) } }
  forEach ((List.range 6).filter (fun k => s.get (CAL_K_STATUS_STATE k) == 2)) (fun k s => s.put (CAL_K_STATUS_STATE k) 0) s

/-- CAL_k_CFG.EN has been written 0 (R527). -/
def calStop (k : Nat) (s : State) : State := calAbandonAll (fun j => j == k) s

/-! ### Results (R524 to R529) -/

/-- The key of an instance's failures in a row. -/
def calKey (k i : Nat) : Nat := 256 * k + i

/-- An instance's result is in: OK, or beyond its limit, from the third time in a row on a minor alarm (R526). -/
def calResult (k i : Nat) (ok : Bool) (s : State) : State :=
  let c := calClass k
  let n := if ok then 0 else smGet 0 s.cal.fails (calKey k i) + 1
  let s : State := { s with cal := { s.cal with
    fails := smSet 0 s.cal.fails (calKey k i) n, queue := s.cal.queue.filter (fun e => !(e.1 == k && e.2 == i)) } }
  let s :=
    if ok then s.put (CAL_K_STATUS_LAST_RESULT c) 1
    else
      let s := ((s.put (CAL_K_STATUS_LAST_RESULT c) 2).count (CAL_FAILS_V c)).ev CAL_EVENT_FAIL
      if 3 ≤ n then raiseMinor 1 (s.ev CAL_EVENT_PERSIST) else s
  calSettle c (ch78Follow (calFrozen k i s))

/-- The counts of a histogram code by code, from `c` on, summed up: cumulative events below each code. -/
def cumulate (h : SMap Nat) : Nat → Nat → Nat → List Nat
  | 0, _, t => [t]
  | n + 1, c, t => t :: cumulate h n (c + 1) (t + smGet 0 h c)

/-- The limit of class 0 (R516): K2 - K1 within 224 to 288 codes, and no bin above four times the mean between K1 and K2. -/
def binsOk (h : SMap Nat) (k1 k2 : Nat) : Bool :=
  let mid := (List.range 512).filter (fun c => decide (k1 ≤ 8 * c) && decide (8 * (c + 1) ≤ k2))
  let sum := mid.foldl (fun t c => t + smGet 0 h c) 0
  decide (k1 + 1792 ≤ k2) && decide (k2 ≤ k1 + 2304) && h.all (fun e => decide (e.2 * mid.length ≤ 4 * sum))

/-- The density histogram of interpolator `i` at 65,536 events becomes its bin table, from the next calibration on, where it is counted as
applied (R490, R517, R529); the oscillator adds its events in IDLE and WAIT_BASE only. -/
def calBins (i : Nat) (hist : List (Nat × Nat)) (k1 k2 : Nat) (s : State) : State :=
  let t := s.tiu
  let add : List (Nat × Nat) := if tiuState s < 2 then hist else []
  let h : SMap Nat := add.foldl (fun h e => smSet 0 h (e.1 % 512) (smGet 0 h (e.1 % 512) + e.2)) (if i = 0 then t.histA else t.histB)
  let total : Nat := h.foldl (fun n e => n + e.2) 0
  if total < 65536 then
    { s with tiu := if i = 0 then { t with histA := h } else { t with histB := h } }
  else
    let ok := binsOk h k1 k2
    let tab := cumulate h 512 0 0
    let s : State := { s with tiu :=
      if i = 0 then { t with histA := [], nextA := if ok then some tab else t.nextA }
      else { t with histB := [], nextB := if ok then some tab else t.nextB } }
    calResult 0 i ok s

/-- A frame begun on port `p` whose SFD is still to come has its transmit stamp with the new constant, `d` (2^-16 ns) later (R516, R525). -/
def txShift (p : Nat) (d : Int) (s : State) : State :=
  let r := s.portRec p
  match r.tx with
  | none => s
  | some t =>
    let move := fun (v : Nat) => (((v : Int) + d) % spanSns).toNat
    if t.sfd ≤ s.nowPs then s
    else
      let s := s.setPort p { r with tx := some { t with stamp := move t.stamp, gen := s.get (PHA_PORT_STATUS_TRIM_GEN p) } }
      match t.copy with
      | some c => s.setCopy c { s.copyRec c with stamp := move (s.copyRec c).stamp }
      | none => s

/-- The constants of PLL `q` take new values, which acts as a write of the trims of each of its ports (R518, R525); those they replace
hold for a frame whose SFD came first. -/
def calLatPut (q : Nat) (rx tx : Int) (s : State) : State :=
  let s := s.setPll q { s.pllRec q with latAt := s.nowPs, latRx := s.geti (CAL_LAT_RX q), latTx := s.geti (CAL_LAT_TX q) }
  let s := (s.puti (CAL_LAT_RX q) rx).puti (CAL_LAT_TX q) tx
  let ports := if q = 16 then [65] else ((List.range 4).map (fun k => 4 * q + k)).filter s.portExists
  let d := (tx - (s.pllRec q).latTx) * 16
  forEach ports (fun p s => latRefresh p (txShift p d (s.count (PHA_PORT_STATUS_TRIM_GEN p)))) s

/-- A result of class 2 (R516, R518, R525): the constants act as a write of the trims of every port of the PLL. -/
def calLatency (q : Nat) (rx tx : Int) (s : State) : State :=
  let r := roundDiv rx 65536
  let t := roundDiv tx 65536
  let okOf := fun (v : Int) (f : Fld) => decide (v.natAbs ≤ 255) && decide ((v - s.geti f).natAbs ≤ 32)
  let ok := okOf r (CAL_LAT_RX q) && okOf t (CAL_LAT_TX q)
  calResult 2 q ok (if ok then calApplied 2 q (calLatPut q r t s) else s)

/-- A result of class 5 (R516, R520): one trim code toward balance; more ones than zeros lower the trim (DESIGN CHOICE, log entry 43). -/
def calTrim (n ones : Nat) (s : State) : State :=
  let d : Int := (ones : Int) - 2 ^ 23
  let cur := smGet 0 s.cal.trim n
  let want := if 0 < d then cur - 1 else cur + 1
  if d.natAbs * 1000 ≤ 2 * 2 ^ 24 then calResult 5 n true s
  else if 31 < want.natAbs then calResult 5 n false s
  else calResult 5 n true (calApplied 5 n { s with cal := { s.cal with trim := smSet 0 s.cal.trim n want } })

/-- The queue entry a result is for. -/
def calEntry (k i : Nat) : CalResult → Nat × Nat
  | .gain _ => (6, i)
  | _ => (k, i)

/-- The kind of result a class measures. -/
def calKind (k : Nat) : CalResult → Bool
  | .bins _ _ _ => k == 0
  | .starved => k == 0
  | .span _ => k == 1
  | .latency _ _ => k == 2
  | .table l => k == 3 && l.length == 64
  | .offset _ => k == 4
  | .gain _ => k == 4
  | .ones _ => k == 5

/-- A pass has measured an instance (R516 to R520, R524 to R529); an instance that is not in the pass, or not the one channel 78 serves,
takes nothing. -/
def calApply (k i : Nat) (r : CalResult) (s : State) : State :=
  let e := calEntry k i r
  if !calKind k r || !s.cal.queue.contains e || s.gated || ((k == 2 || k == 3) && ch78Head s != some e) then s
  else
    match r with
    | .bins h k1 k2 => calBins i h k1 k2 s
    | .starved =>
      let s : State := { s with cal := { s.cal with queue := s.cal.queue.filter (fun x => x != e) } }
      calSettle 0 ((s.put (CAL_K_STATUS_LAST_RESULT 0) 3).ev CAL_EVENT_STARVED)
    | .span n =>
      if 4095 < 2 * n then calResult 1 i false s
      else calResult 1 i true { s with cal := { s.cal with thresh := smSet none s.cal.thresh i (some (max 16 (2 * n))) } }
    | .latency rx tx => calLatency i rx tx s
    | .table l =>
      if l.any (fun v => decide (128 < v.natAbs)) then calResult 3 i false s
      else calResult 3 i true (s.setOut i { s.outRec i with table := some l })
    | .offset v =>
      if 32 < v.natAbs then calResult 4 i false s
      else calResult 4 i true (calApplied 4 i { s with cal := { s.cal with offset := smSet 0 s.cal.offset i v } })
    | .gain v =>
      if v < 800 ∨ 1200 < v then calResult 6 i false s
      else calResult 6 i true (calApplied 6 i { s with cal := { s.cal with gain := smSet 1000 s.cal.gain i v } })
    | .ones n => calTrim i n s

end Sys2Proof.Machine
end

