-- ==== Sys2Proof/Machine/Synth.lean ====
section
/-!
DEFINITION. The Capstan (R52 to R75), the aux synthesisers (R76 to R79), and what gating and release of the domain clocks make of the
blocks (R69 to R73).
-/

namespace Sys2Proof.Machine

/-- The domain clocks run: the Capstan is released and not gated. -/
def State.clocked (s : State) : Bool := s.on SYN_STATUS_LOCKED && !s.gated

/-! ### Dither and modulator (R61 to R63) -/

/-- The LFSR takes the seed; zero is replaced (R63). -/
def ditherLoad (s : State) : State :=
  let seed := s.get SYN_DITHER_SEED_SEED
  let s := if seed = 0 then s.ev SYN_EVENT_SEED_ZERO else s
  { s with syn := { s.syn with lfsr := BitVec.ofNat 23 (if seed = 0 then 1 else seed) } }

/-- The declared root frequency in units of 10 kHz (R54). -/
def rootFreq (s : State) : Nat :=
  ([1000, 1280, 2000, 2500, 3888, 5000, 10000] : List Nat).getD (s.get SYN_ROOT_FREQ) 2500

/-- The phase-detector cycles that end within `units` of 4 ns (the detector runs at the root frequency). -/
def pfdCycles (s : State) (units : Nat) : Nat := (s.now + units) * rootFreq s / 25000 - s.now * rootFreq s / 25000

/-- The multiplier of the root that gives 10.000 GHz, in units of 2^-80: the fraction has 32 bits and the pre-accumulator 48 (R33, R61). -/
def vcoMul (s : State) : Nat := (roundDiv (1000000 * 2 ^ 80) (rootFreq s)).toNat

/-- What DCO_OFFSET adds to the multiplier in a cycle, in units of 2^-80: one DCO unit is 1 / (1.6 x 10^13) of it (R7, R61). -/
def dcoStep (s : State) : Int := roundDiv (s.widei DCO_OFFSET * vcoMul s) 16000000000000

/-- The LFSR of x^23 + x^18 + 1, shifted left with bits 22 and 17 fed back (DESIGN CHOICE, log entry 127). -/
def ditherNext (v : BitVec 23) : BitVec 23 := (v <<< 1) ||| (if v.getLsbD 22 != v.getLsbD 17 then 1 else 0)

/-- What dither adds to the fraction's LSB, the LFSR's bit 22 being `b` and the one before `was` (R62). -/
def ditherAdds (mode : Nat) (b was : Bool) : Int :=
  let v := fun (x : Bool) => if x then (1 : Int) else 0
  if mode = 1 then v b else if mode = 2 then v b - v was else 0

/-- One cycle of the MASH 1-1-1 on a fraction `x` in units of 2^-32, whose whole part counts to the multiplier (R61). -/
def mashCycle (m : MashRec) (x : Int) : MashRec :=
  let w : Nat := 2 ^ 32
  let t1 := m.a1 + (x % w).toNat
  let t2 := m.a2 + t1 % w
  let t3 := m.a3 + t2 % w
  let c1 : Int := (t1 / w : Nat)
  let c2 : Int := (t2 / w : Nat)
  let c3 : Int := (t3 / w : Nat)
  ⟨t1 % w, t2 % w, t3 % w, c2, c3, m.c3, x / w + c1 + (c2 - m.c2) + (c3 - 2 * m.c3 + m.c3old)⟩

/-- One phase-detector cycle (R61, R62): the pre-accumulator takes what lies below the fraction's LSB, less half an LSB under LSB dither,
its carry and the dither go to the LSB, and the modulator makes a cycle; the LFSR steps unless dither is OFF. -/
def pfdCycle (s : State) : State :=
  let mode := s.get SYN_DITHER_MODE
  let b := s.syn.lfsr.getLsbD 22
  let sum : Int := (vcoMul s : Int) + dcoStep s + s.syn.preAcc - (if mode = 1 then 2 ^ 47 else 0)
  { s with syn := { s.syn with
    lfsr := if mode = 0 then s.syn.lfsr else ditherNext s.syn.lfsr,
    ditherBit := b,
    preAcc := (sum % 2 ^ 48).toNat,
    mash := mashCycle s.syn.mash (sum / 2 ^ 48 + ditherAdds mode b s.syn.ditherBit) } }

/-- The phase-detector cycle, where one ends within `units` of 4 ns: the root is at most 100 MHz (R35). -/
def pfdTick (units : Nat) (s : State) : State := if pfdCycles s units = 0 then s else pfdCycle s

/-! ### Root declaration (R52 to R54) -/

/-- A lock attempt starts: the stored band first, with the dither generator loaded (R58, R63). -/
def lockStart (s : State) : State :=
  ditherLoad (({ s with syn := { s.syn with attempt := true, tryBand := s.get SYN_BAND_STORE_BAND } }).put SYN_STATUS_SEARCHING 0)

/-- CLOCK_START and no lock 10 ms after the start of the attempt: the next one (R38). -/
def clockStartRetry (s : State) : State :=
  if s.dev = .clockStart ∧ !s.on SYN_STATUS_LOCKED then lockStart s else s

/-! ### Zero-delay loops -/

/-- The DDMTD channel of CLKFBn gives a measurement: it runs only where it is enabled and its input is supported, and a loop without it
never locks (R91, R289, R292). -/
def fbMeasure (n : Nat) (err : Int) (s : State) : State := if chanRuns s (73 + n) then zdbMeasure n err s else s

/-! ### Gating (R68 to R73) -/

/-- What is in transmission on port `p`, preempted or launched is to be stomped (R71, R282). -/
def stompMark (p : Nat) (s : State) : State :=
  let r := s.portRec p
  let mark := fun (t : TxRec) => { t with stomp := true }
  let s := s.setPort p { r with tx := r.tx.map mark, held := r.held.map mark }
  forEach (r.launches.filter (fun l => l.launched)) (fun l s => s.setCopy l.copy { s.copyRec l.copy with stomp := true }) s

/-- The stomp tail is the first act after release (R282): every frame that gating interrupted ends now. -/
def stompSend (p : Nat) (s : State) : State :=
  let out := fun (t : Option TxRec) (s : State) => match t with
    | some t => if t.stomp then txFinish p s.nowPs { t with stop := none } s else s
    | none => s
  let r := s.portRec p
  let s := out r.held (s.setPort p { r with held := r.held.filter (fun t => !t.stomp) })
  let s := out r.tx s
  forEach (r.launches.filter (fun l => (s.copyRec l.copy).stomp)) (launchFinish p) s

/-- The frames on the ports at gating (R71): those in reception are discarded and counted once, those in transmission stomped. -/
def framesGated (s : State) : State :=
  let ports := s.ports.map (fun e => e.1)
  let s := forEach ports stompMark s
  forEach (ports.filter (fun p => (s.portRec p).rx.isSome || (s.portRec p).fragOpen)) (fun p s =>
    (reasmClear p (frameEnd p [] true false s)).count (MAC_CNT3_GATE_RX_LOST p)) s

/-- A monitor or the lock detector trips: the clocks are gated and the relock starts (R68, R69, R71). -/
def capstanTrip (event : Fld) (s : State) : State :=
  if !s.on SYN_STATUS_LOCKED then s
  else
    let s := framesGated (s.ev event)
    let s := ((s.put SYN_STATUS_LOCKED 0).put SYN_STATUS_GATED 1).put SYN_STATUS_SAFE_RATIO 0
    let s := tiuGated (calAbandonAll (fun _ => true) (tbEnterInvalid 8 s))
    outStatusAll (lockStart { s with syn := { s.syn with late := false } })

/-- The band search starts: the stored band gave no lock within 25 µs (R58). -/
def bandSearch (s : State) : State :=
  if s.syn.attempt ∧ !s.on SYN_STATUS_LOCKED then s.put SYN_STATUS_SEARCHING 1 else s

/-- The relock is not there 1 ms after gating (R72): an attempt ends within 350 µs (R58), so its search is over. -/
def relockTimeout (s : State) : State :=
  if s.gated then raiseMajor 0 ({ s with syn := { s.syn with late := true, attempt := false } }.put SYN_STATUS_SEARCHING 0) else s

/-- The next attempt after a relock that failed (R72). -/
def capstanRetry (s : State) : State := if s.gated then lockStart s else s

/-- The clocks are released at half rate (R69, R71, R83, R293): a frame found to have begun while they were gated counts as lost. -/
def capstanRelease (s : State) : State :=
  let s := ((s.put SYN_STATUS_LOCKED 1).put SYN_STATUS_GATED 0).put SYN_STATUS_SAFE_RATIO 1
  let s := forEach ((s.ports.filter (fun e => e.2.gateRx)).map (fun e => e.1)) (fun p s =>
    (s.setPort p { s.portRec p with gateRx := false }).count (MAC_CNT3_GATE_RX_LOST p)) s
  tiuRelease (outRestart 0 (phaRelease (forEach (portsSending s) stompSend s)))

/-- The Capstan locks, at an error against 10.000 GHz in ppm (R35, R56 to R59, R69): in the stored band it tried first, or, after the
search, in the band found. -/
def capstanLock (band : Nat) (ppm : Int) (s : State) : State :=
  if !s.syn.attempt || s.on SYN_STATUS_LOCKED then s
  else if 5000 < ppm.natAbs then
    (({ s with syn := { s.syn with attempt := false } }).put SYN_STATUS_SEARCHING 0).ev SYN_EVENT_ROOT_MISMATCH
  else
    let band := if s.on SYN_STATUS_SEARCHING then band else s.syn.tryBand
    let s := if s.on SYN_STATUS_SEARCHING then s.ev SYN_EVENT_SEARCH_USED else s
    let s := (s.put SYN_STATUS_SEARCHING 0).put SYN_STATUS_BAND_CUR band
    let s := if s.on SYN_BAND_STORE_FREEZE then s else s.put SYN_BAND_STORE_BAND band
    capstanRelease { s with syn := { s.syn with attempt := false, late := false } }

/-- OCXO_WARM falls (R55): each falling edge is recorded, one after a rise that no tick has seen too. -/
def ocxoCool (s : State) : State := tiuCool ((s.put SYN_STATUS_OCXO_WARM 0).ev SYN_EVENT_OCXO_COOL)

/-! ### Aux synthesisers (R76 to R79) -/

/-- The lock bit of aux `n`. -/
def auxLockedFld (n : Nat) : Fld := if n = 0 then SYN_STATUS_AUX0_LOCKED else SYN_STATUS_AUX1_LOCKED

/-- Aux `n` starts toward the plan it selects, its outputs stopped (R77). -/
def auxHop (n : Nat) (s : State) : State :=
  let k := s.get (SYN_AUX_CFG_PLAN_SEL n)
  let s : State := { s with syn := { s.syn with
    auxHop := smSet 0 s.syn.auxHop n (k + 1), auxMul := smSet 0 s.syn.auxMul n (planMul s n k) } }
  outStatusAll ((s.put (SYN_AUX_CFG_HOPPING n) 1).put (auxLockedFld n) 0)

/-- Aux `n` stops with its outputs (R78). -/
def auxStop (n : Nat) (s : State) : State :=
  let s : State := { s with syn := { s.syn with
    auxHop := smSet 0 s.syn.auxHop n 0, auxMul := smSet 0 s.syn.auxMul n 0,
    auxWait := smSet false s.syn.auxWait n false } }
  outStatusAll ((s.put (SYN_AUX_CFG_HOPPING n) 0).put (auxLockedFld n) 0)

/-- SYN_AUXn_CFG has been written over a previous EN and PLAN_SEL (R77, R78): a hop, unless one is under way; while the Capstan is not
nominal the hop waits, the outputs running on (R73). -/
def auxWritten (n : Nat) (en : Bool) (plan : Nat) (s : State) : State :=
  if !s.on (SYN_AUX_CFG_EN n) then auxStop n s
  else if en ∧ plan = s.get (SYN_AUX_CFG_PLAN_SEL n) then s
  else if s.on (SYN_AUX_CFG_HOPPING n) then s
  else if !s.nominal then { s with syn := { s.syn with auxWait := smSet false s.syn.auxWait n true } }
  else auxHop n s

/-- A hop or relock of aux `n` is complete (R70, R73, R77, R83): the band goes to the plan, and the outputs are released at half rate for
2 µs; a plan selected meanwhile follows. -/
def auxComplete (n band : Nat) (s : State) : State :=
  let h := smGet 0 s.syn.auxHop n
  if h = 0 || !s.nominal then s
  else
    let k := h - 1
    let s := (s.put (SYN_AUX_PLAN_CTL_BAND n k) band).put (SYN_AUX_PLAN_CTL_BAND_VALID n k) 1
    let s : State := { s with syn := { s.syn with auxHop := smSet 0 s.syn.auxHop n 0 } }
    let s := (s.put (SYN_AUX_CFG_HOPPING n) 0).put (auxLockedFld n) 1
    if s.get (SYN_AUX_CFG_PLAN_SEL n) = k then
      outRestart (n + 1) { s with syn := { s.syn with auxSafe := smSet 0 s.syn.auxSafe n (s.now + safeTime) } }
    else auxHop n s

/-- Aux `n` loses lock, and relocks to the plan it had (R70, R75); while the Capstan is not nominal an aux holds its VCO control and its
outputs run on, and one that is then too far off loses lock when the Capstan is nominal (R71). -/
def auxLoss (n : Nat) (s : State) : State :=
  if !s.on (auxLockedFld n) || !s.nominal then s
  else
    let k := s.get (SYN_AUX_CFG_PLAN_SEL n)
    let s := s.ev (if n = 0 then SYN_EVENT_AUX0_LOL else SYN_EVENT_AUX1_LOL)
    outStatusAll (({ s with syn := { s.syn with auxHop := smSet 0 s.syn.auxHop n (k + 1) } }).put (auxLockedFld n) 0)

/-- The 2 µs at half rate end (R69): the Capstan is nominal, and hops that waited for it proceed (R73). -/
def safeRatioEnd (s : State) : State :=
  if s.on SYN_STATUS_SAFE_RATIO then
    let s := windowsRestart (quadsRelease (outStatusAll (s.put SYN_STATUS_SAFE_RATIO 0)))
    forEach [0, 1] (fun n s =>
      if smGet false s.syn.auxWait n then
        let s : State := { s with syn := { s.syn with auxWait := smSet false s.syn.auxWait n false } }
        if s.on (SYN_AUX_CFG_EN n) then auxHop n s else s
      else s) s
  else s

/-- A plan's multiplier lies outside 5.8 to 6.6 GHz (R79). -/
def auxPlanBad (m : Nat) : Bool := decide (250 * m < 5800 * 2 ^ 32) || decide (6600 * 2 ^ 32 < 250 * m)

end Sys2Proof.Machine
end

