-- ==== Sys2Proof/Machine/Ecc.lean ====
section
/-!
DEFINITION. Stored-data protection (R537 to R560): scrubbing, remaps and retirements, bad words of the hardware regions and of
spilled pages, table writes and reloads, the configuration sweep, injection and the error log.
-/

namespace Sys2Proof.Machine

/-! ### Table writes (R20, R22, R393, R402) -/

/-- The bits of a table word that a write may set. -/
def tableMask (r o : Nat) : Nat :=
  let all := 0xFFFFFFFF
  if r = 3 then let w := o % 32 / 4; if w = 2 ∨ w = 5 ∨ w = 6 then 3 else if w = 7 then 0 else all
  else if r = 4 then let w := o % 16 / 4; if w = 2 then 3 else if w = 3 then 0 else all
  else if r = 5 then let w := o % 32 / 4; if w = 0 then 0xFFFF3F3F else if w = 1 then 0xFFFF else 0
  else if r = 6 then
    let w := o % 32 / 4
    if w < 2 then all else if w < 4 then 0xFFFFFF else if w = 4 then 0x1F07 else 0
  else if r = 8 then
    let w := o % 128 / 4
    if w = 13 ∨ w = 27 then 0x1FFFFFFF else if w = 28 then 0x7FFFFFFF else if w = 29 then 0xFFFFFF
    else if w = 30 then 1 else if w = 31 then 0 else all
  else if r = 9 then (if o % 8 = 0 then 0xFF else all)
  else 0

/-- The bytes of a table word that a write may set, as byte enables. -/
def maskBytes (m : Nat) : Nat := bitsWhere 4 (fun k => m / 256 ^ k % 256 != 0)

/-- The bits of the bytes a byte-enable mask selects. -/
def byteBits (be : Nat) : Nat := ((List.range 4).map (fun k => if be.testBit k then 255 * 256 ^ k else 0)).sum

/-- A table word `old` after a write of `v` under byte enables: the writable bits of the bytes written take theirs, a reserved bit
ignores any 1 (R20). -/
def tableMerge (r o be old v : Nat) : Nat :=
  let bits := tableMask r o &&& byteBits be
  (old - (old &&& bits)) + (v &&& bits)

/-- The bytes a byte-enable mask selects of a table word take their part of `v`; what a write to its entry restarts follows:
TAKE_ANY of a stream (R393), a meter's buckets (R402). -/
def tableStore (a be v : Nat) (s : State) : State :=
  let s := (List.range 4).foldl (fun (s : State) k =>
    if be.testBit k then s.setBytesLE (a + k) 1 (v / 256 ^ k) else s) s
  if 0x03040000 ≤ a ∧ a < 0x03060000 ∧ a % 32 = 0 then s.setTbits (a + 12) 0 1 1
  else if 0x03060000 ≤ a ∧ a < 0x030A0000 ∧ a % 32 < 20 then meterReset ((a - 0x03060000) / 32) s
  else s

/-- A word of a TABLE_LOAD record is written, its reserved bits left out. -/
def tableLoad (a v : Nat) (s : State) : State :=
  match eccPlace a with
  | none => s
  | some (r, o) =>
    let be := maskBytes (tableMask r o)
    if be = 0 then s else tableStore a be (tableMerge r o be (s.tword a) v) s

/-- The TABLE_LOAD records of a section are executed, one after the other (R620, R626): words, or one value over a count of words. -/
def tableRecords : Nat → List Byte → State → State
  | 0, _, s => s
  | n + 1, b, s =>
    if b.length < 12 ∨ byteAt b 3 ≠ 8 then s
    else
      let len := natLE (b.take 3)
      let word := fun (k : Nat) => natLE ((b.drop (4 + 4 * k)).take 4)
      let words := if word 0 < 256 then (List.range (len / 4 - 2)).map (fun k => word (k + 2)) else List.replicate (word 2) (word 3)
      tableRecords n (b.drop (4 + len)) (forEach words.zipIdx (fun x s => tableLoad (word 1 + 4 * x.2) x.1 s) s)

/-- The sections of a region as read again: each one's CRC is checked before its records execute; the first that fails ends the reload. -/
def sectionsReload : List SecRec → List (List Byte) → State → Bool × State
  | [], _, s => (true, s)
  | _ :: _, [], s => (false, s)
  | x :: t, b :: bs, s =>
    if b.length ≠ x.length ∨ (crc32 b).toNat ≠ x.crc then (false, s) else sectionsReload t bs (tableRecords b.length b s)

/-- The held host writes of a region apply, and clear BACKED (R546). -/
def heldApply (r : Nat) (s : State) : State :=
  let mine := s.ecc.held.filter (fun h => (eccPlace h.addr).map (fun x => x.1) == some r)
  let s : State := { s with ecc := { s.ecc with held := s.ecc.held.filter (fun h => (eccPlace h.addr).map (fun x => x.1) != some r) } }
  let s := forEach mine (fun h s => tableStore h.addr h.be h.v s) s
  if mine.isEmpty then s else s.put (ECC_REG_BACKED r) 0

/-- The reload of the region that waits longest ends (R546), its sections read: their records are executed, or a section fails its CRC. -/
def tableReloadDone (sections : List (List Byte)) (s : State) : State :=
  match s.ecc.reloads with
  | [] => s
  | r :: rest =>
    let s : State := { s with ecc := { s.ecc with reloads := rest } }
    let d := sectionsReload (smGet [] s.ecc.dir r) sections s
    let s := d.2.put (ECC_REG_RELOADING r) 0
    let s := if d.1 then s.ev ECC_EVENT_RELOAD else raiseMajor 8 ((s.ev ECC_EVENT_RELOAD_FAIL).put (ECC_REG_BACKED r) 0)
    let s := heldApply r s
    match rest with
    | [] => s
    | n :: _ => reloadRead n s

/-! ### Retirement and remaps (R544, R545) -/

/-- A free packet-buffer cell is allocated to class ECC (R545, R548). -/
def cellTake (i : Nat) (s : State) : State :=
  let s := s.setBuf 0 i { s.buf 0 i with alloc := true, owner := clsEcc, refs := 1, age := s.epoch }
  let n := s.get (POOL_FREE_V 0) - 1
  (s.put (POOL_FREE_V 0) n).put (POOL_LOW_WATER_V 0) (min (s.get (POOL_LOW_WATER_V 0)) n)

/-- The cell or entry that holds a byte is retired (R545). -/
def retire (r a : Nat) (s : State) : State :=
  if entryRetired s r a then s
  else
    let s := if r = 0 ∧ !(s.buf 0 (a / 256)).alloc then cellTake (a / 256) s else s
    let s := tableVoid r a s
    let s : State := { s with ecc := { s.ecc with retired := s.ecc.retired ++ [(r, a / eccSize r)] } }
    (s.countSat (ECC_REG_RETIRED r)).ev ECC_EVENT_RETIRED

/-- The key of a bank of a region. -/
def bankKey (r bank : Nat) : Nat := r * 2 ^ 32 + bank

/-- The corrected row is copied to a spare (R544): the correctable bytes of it are sound, and its words are tracked anew. -/
def rowCopied (r bank row : Nat) (s : State) : State :=
  let here := fun (a : Nat) => Config.eccBank r a == bank && Config.eccRow r a == row
  { s with ecc := { s.ecc with
      track := s.ecc.track.filter (fun t => !(t.region == r && t.bank == bank && t.row == row)),
      flips := s.ecc.flips.filter (fun e => !(e.1 / 2 ^ 32 == r && here (e.1 % 2 ^ 32) && hamKind e.2 == 1)) } }

/-- A word that stayed stuck leaves its row: for a spare while the bank has one, else it is retired (R544, R545). -/
def rowOut (r a bank : Nat) (s : State) : State :=
  let used := smGet 0 s.ecc.spares (bankKey r bank)
  let s : State := { s with ecc := { s.ecc with spares := smSet 0 s.ecc.spares (bankKey r bank) (min 17 (used + 1)) } }
  if used < 16 then
    let s := rowCopied r bank (Config.eccRow r a) ((s.countSat (ECC_REG_REMAPPED r)).ev ECC_EVENT_REMAP)
    if used = 15 then s.put (ECC_REG_SPARES_OUT r) 1 else s
  else
    let s := if used = 16 then s.ev ECC_EVENT_SPARES_OUT else s
    retire r a s

/-- The entry a full tracker gives up (R544): lowest count, then lowest row. -/
def displaced (l : List TrackRec) : Option TrackRec :=
  l.foldl (fun best t => match best with
    | none => some t
    | some b => if t.count < b.count ∨ (t.count = b.count ∧ t.row < b.row) then some t else best) none

/-- The scrubber has corrected a word (R544). -/
def trackCorrected (r a : Nat) (s : State) : State :=
  let bank := Config.eccBank r a
  let here := fun (t : TrackRec) => t.region == r && t.bank == bank
  let mine := s.ecc.track.find? (fun t => here t && t.addr == a)
  let n := match mine with
    | some t => if t.now then t.count else t.count + 1
    | none => 1
  let others := s.ecc.track.filter (fun t => !(here t && t.addr == a))
  let full := (others.filter here).length
  let others := match displaced (others.filter here) with
    | some d => if 8 ≤ full then others.filter (fun t => t != d) else others
    | none => others
  let stuck := decide (s.get ECC_CTRL_STUCK_THRESH ≤ n) && s.on ECC_CTRL_REMAP_EN
  let next := if stuck then others else others ++ [⟨r, bank, Config.eccRow r a, a, n, true⟩]
  let s : State := { s with ecc := { s.ecc with track := next } }
  if stuck then rowOut r a bank s else s

/-- A pass over all regions ends: a tracked word it found clean has its count back at zero (R544, R552). -/
def passEnd (s : State) : State :=
  let kept := (s.ecc.track.filter (fun t => t.now)).map (fun t => { t with now := false })
  let s : State := { s with ecc := { s.ecc with track := kept } }
  s.count ECC_SCRUB_STATUS_V

/-! ### Bad words of the hardware regions (R537, R548, R549) -/

/-- An uncorrectable word of a packet-buffer cell: a free cell is quarantined, an allocated one poisoned (R548, R549). -/
def cellUe (a : Nat) (s : State) : State :=
  let i := a / 256
  if !(s.buf 0 i).alloc then
    let s := cellTake i s
    { s with ecc := { s.ecc with quarantine := s.ecc.quarantine ++ [(i, a, s.get ECC_SCRUB_STATUS_V)],
                                 flips := s.ecc.flips.filter (fun e => !(e.1 / 256 == i)) } }
  else cellPoison i s

/-- A buffer whose state is lost counts as allocated to class ECC (R537). -/
def bufUe (pool i : Nat) (s : State) : State :=
  if !s.on (POOL_CFG_EN pool) || decide (s.get (POOL_SIZE_V pool) ≤ i) then s
  else
    let b := s.buf pool i
    let s := s.setBuf pool i { b with alloc := true, owner := clsEcc, refs := 1, age := s.epoch }
    if b.alloc then s
    else
      let free := s.get (POOL_FREE_V pool) - 1
      (s.put (POOL_FREE_V pool) free).put (POOL_LOW_WATER_V pool) (min (s.get (POOL_LOW_WATER_V pool)) free)

/-- Whether a region's bytes stand in the table memory. -/
def inTables (r : Nat) : Bool := decide (3 ≤ r) && decide (r ≤ 9)

/-- The addresses of the counter words: Clause 30, the queues', and the tally counters. -/
def counterAddr (n : Nat) : Nat :=
  if n < 66 * 22 then 0x00800100 + 0x1000 * (n / 22) + 4 * (n % 22)
  else if n < 66 * 22 + 528 * 3 then 0x01420030 + 0x40 * ((n - 66 * 22) / 3) + 4 * ((n - 66 * 22) % 3)
  else 0x0270010C + 0x20 * ((n - 66 * 22 - 528 * 3) / 2) + 4 * ((n - 66 * 22 - 528 * 3) % 2)

/-- How many there are. -/
def counterWords : Nat := 66 * 22 + 528 * 3 + 64 * 2

/-- A counter word becomes zero (R537, R674). -/
def counterUe (o : Nat) (s : State) : State := raiseMinor 2 (s.setWord ⟨counterAddr (o % counterWords), 0⟩ 0)

/-- A history entry, by its place in a ring of 4,096 seconds, is not VALID any more, or a member's estimator starts again (R537). -/
def historyUe (o : Nat) (s : State) : State :=
  if o % 4104 < 4096 then
    let k := (s.sel.secs + 4095 - o % 4104) % 4096
    { s with sel := { s.sel with hist := (s.sel.hist.zipIdx).map (fun x => if x.2 = k then { x.1 with valid := false } else x.1) } }
  else
    let k := o % 4104 - 4096
    s.setEns k { s.ensRec k with allan := {}, diffs := 0 }

/-- A calibration object takes its factory value from OTP (R516, R537); the threshold's and the latency constants' are their registers'
reset values. -/
def calFactory (k i : Nat) (s : State) : State :=
  let f := s.otp.cal
  match k with
  | 0 => { s with tiu := if i % 2 = 0 then { s.tiu with binsA := f.binsA } else { s.tiu with binsB := f.binsB } }
  | 1 => s.put (PHA_CH_DG_THRESH (i % 80)) 0x100
  | 2 => calLatPut (i % 17) 0 0 s
  | 3 => { s with cal := { s.cal with rotator := smSet [] s.cal.rotator (i % 12) (smGet [] f.rotator (i % 12)) } }
  | 4 =>
    let n := i % 65
    { s with cal := { s.cal with offset := smSet 0 s.cal.offset n (smGet 0 f.offset n),
                                 gain := smSet 1000 s.cal.gain n (smGet 1000 f.gain n) } }
  | 5 => { s with cal := { s.cal with trim := smSet 0 s.cal.trim (i % 65) (smGet 0 f.trim (i % 65)) } }
  | _ => s

/-- An uncorrectable word of region 15 (R537): a calibration object, or an entry of the TIU's FIFO. -/
def calUe (o : Nat) (s : State) : State :=
  if o % 7 = 6 then
    let l := s.tiu.fifo.eraseIdx (o / 7)
    let s : State := { s with tiu := { s.tiu with fifo := l } }
    s.put TIU_FIFO_LEVEL_LEVEL l.length
  else calDue (o % 7) (calFactory (o % 7) (o / 7) s)

/-- A copy whose express buffer lost a word is stomped at egress (R537, R466). -/
def expressUe (o : Nat) (s : State) : State :=
  match (s.portRec (o % 66)).launches with
  | [] => s
  | l :: _ => s.setCopy l.copy { s.copyRec l.copy with stomp := true }

/-- What an uncorrectable word of an object of a hardware region leads to (R537). -/
def objectUe (r o : Nat) (s : State) : State :=
  match r with
  | 1 => (queueFlush (o % 528) s).2
  | 2 => bufUe (o / 2 ^ 24 % 16) (o % 2 ^ 24) s
  | 10 => sessReset true (o % 512) s
  | 11 => counterUe o s
  | 12 => forEach (List.range 136) (fun k s => s.storeLE (dumpSlot (o % 120) + 4 * k) 4 0) s
  | 13 => expressUe o s
  | 14 => historyUe o s
  | 15 => calUe o s
  | _ => s

/-- The objects of a hardware region have numbers; which one a byte belongs to is free (`Config.eccObject`), but for the dump ring. -/
def hwObject (r a : Nat) : Nat :=
  let o := Config.eccObject r a
  match r with
  | 1 => o % 528
  | 2 => o % 2 ^ 28
  | 10 => o % 512
  | 11 => o % counterWords
  | 12 => a / 0x220 % 120
  | 13 => o % 66
  | 14 => o % 4104
  | _ => o

/-- What an uncorrectable word of a region leads to (R537). -/
def regionUe (r a : Nat) (s : State) : State :=
  if r = 0 then cellUe a s else if inTables r then tableUe r a s else objectUe r (hwObject r a) s

/-- An access to an object of a hardware region meets the injected errors that stand there (R541, R547): corrected, or uncorrectable and
handled as R537 has it.  The address that the log takes is free. -/
def hwLook (r o : Nat) (s : State) : State :=
  let mine := s.ecc.injected.filter (fun e => e.1 == r && e.2.1 == o)
  if mine.isEmpty || !eccReady s r then s
  else
    let s : State := { s with ecc := { s.ecc with injected := s.ecc.injected.filter (fun e => !mine.contains e) } }
    forEach mine (fun e s =>
      let a := Config.eccAddress r o % 2 ^ 32
      if hamKind e.2.2 = 1 then eccCe r a (hamLogged e.2.2) false s
      else objectUe r o (eccUe (eccLogAdd r a (hamLogged e.2.2) true false false s))) s

/-- An object of a hardware region is written: the runs of corrections of its words end (R544), what stood injected there is gone, and an armed
injection is made in byte 0 (R558). -/
def hwWritten (r o : Nat) (s : State) : State :=
  let s : State := { s with ecc := { s.ecc with
    injected := s.ecc.injected.filter (fun e => !(e.1 == r && e.2.1 == o)),
    track := s.ecc.track.filter (fun t => !(t.region == r && hwObject r t.addr == o)) } }
  if s.on ECC_INJ_ARM ∧ s.get ECC_INJ_REGION = r then
    { s with ecc := { s.ecc with injected := s.ecc.injected ++ [(r, o, if s.get ECC_INJ_MODE = 2 then 6 else 2)] } }.put ECC_INJ_ARM 0
  else s

/-! ### The scrubber (R552) -/

/-- The scrubber checks one byte: whether it was corrected, and whether it is uncorrectable. -/
def scrubByte (r a : Nat) (s : State) : (Bool × Bool) × State :=
  let m := s.flipsAt r a
  if hamKind m = 0 then ((false, false), s)
  else if inTables r then
    let d := byteCheck r a true s
    ((!d.1, d.1), d.2)
  else if hamKind m = 1 then ((true, false), eccCe r a (hamLogged m) true (s.setFlips r a 0))
  else ((false, true), eccLogAdd r a (hamLogged m) true true false s)

/-- A quarantined cell is tested on the next pass (R548): found clean at the word that failed, it is freed; else it is retired, or
stays quarantined while REMAP_EN = 0 keeps retirement off (R556). -/
def quarantineTest (a : Nat) (bad : Bool) (s : State) : State :=
  match s.ecc.quarantine.find? (fun q => q.1 == a / 256 && q.2.2 != s.get ECC_SCRUB_STATUS_V) with
  | none => s
  | some q =>
    if (!bad && q.2.1 != a) || (bad && !s.on ECC_CTRL_REMAP_EN) then s
    else
      let s : State := { s with ecc := { s.ecc with quarantine := s.ecc.quarantine.filter (fun x => x != q) } }
      if bad then retire 0 a s else bufRelease 0 q.1 s

/-- A word of a hardware region that has been rewritten by what its loss led to is sound again; a packet-buffer cell is tested once it
is free (R537, R548, R549). -/
def regionRewrite (r a : Nat) (s : State) : State :=
  if r = 0 ∨ inTables r then s else forEach (List.range 4) (fun k s => s.setFlips r (a / 4 * 4 + k) 0) s

/-- The scrubber reads a word, some bits of which differ from what was written; `last` ends the pass (R540, R544, R552). -/
def scrubRead (r a : Nat) (flips : List Flip) (last : Bool) (s : State) : State :=
  let mine := if r = 0 ∨ inTables r then [] else s.ecc.injected.filter (fun e => e.1 == r && e.2.1 == hwObject r a)
  let s : State := { s with ecc := { s.ecc with injected := s.ecc.injected.filter (fun e => !mine.contains e) } }
  let s := forEach mine (fun e s => s.setFlips r a (s.flipsAt r a ^^^ e.2.2)) s
  let s := forEach flips (fun f s => s.setFlips r (a + f.byte) (s.flipsAt r (a + f.byte) ^^^ f.mask.val)) s
  let bytes := (List.range 4 ++ flips.map (fun f => f.byte)).eraseDups
  let d := bytes.foldl (fun (x : (Bool × Bool) × State) k =>
    let y := scrubByte r (a + k) x.2
    ((x.1.1 || y.1.1, x.1.2 || y.1.2), y.2)) ((false, false), s)
  let s := d.2
  let s :=
    if d.1.2 then regionRewrite r a (regionUe r a (eccUe s))
    else if d.1.1 then trackCorrected r a s
    else { s with ecc := { s.ecc with track := s.ecc.track.filter (fun t => !(t.region == r && t.addr == a)) } }
  let s := if r = 0 then quarantineTest a (d.1.1 || d.1.2) s else s
  if last then passEnd s else s

/-- SCRUB_WORD_READ: the scrubber runs while SCRUB_EN = 1 and the clocks run, skips a region that is not initialised, and reads only
written cells (R538, R540, R552). -/
def scrubWord (r a : Nat) (flips : List Flip) (last : Bool) (s : State) : State :=
  if !s.on ECC_CTRL_SCRUB_EN || s.gated then s
  else if !eccReady s r || (r == 0 && !(s.buf 0 (a / 256)).written) then (if last then passEnd s else s)
  else scrubRead r a flips last s

/-! ### Spilled pages (R551) -/

/-- A refilled page is bad: every frame with a byte in it is discarded and counted, and the page is freed (R551). -/
def pageBad (q : Nat) (s : State) : State :=
  let r := s.queueRec q
  match r.pages with
  | [] => s
  | g :: _ =>
    let s := forEach (pageCopies g) (fun c s => copyDiscard c clsRefill (s.count (QM_Q_CNT1_FLUSHED q))) s
    residenceOf q (queueJoin q ((s.count ECC_CNT1_SPILL_UE).ev ECC_EVENT_SPILL_UE))

/-- The address tag of a codeword of spill DRAM (R550): the CRC-8 with x^8 + x^2 + x + 1 over page index (25 bits), burst index (6) and
codeword index (3), most significant bit first from 0 (the order and the start are PRESUMED, log entry 143). -/
def spillTag (page burst codeword : Nat) : Nat :=
  (List.range 34).foldl (fun c k =>
    let bit := (page % 2 ^ 25 * 2 ^ 9 + burst * 8 + codeword) / 2 ^ (33 - k) % 2
    let x := c * 2 % 256
    if (c / 128 + bit) % 2 = 1 then x ^^^ 7 else x) 0

/-- The verdict of the (72,64) code on a codeword (R550), whose positions, as those of R535, count from the overall parity at 0 with check
bit k at 2^k (PRESUMED, log entry 143): 0 clean, 1 corrected, 2 uncorrectable. -/
def codeKind (bits : List (Fin 72)) : Nat :=
  let x := bits.foldl (fun a i => a ^^^ i.val) 0
  if bits.length % 2 = 1 then (if x < 72 then 1 else 2) else if x = 0 then 0 else 2

/-- The syndrome of a codeword as logged, its low five bits (R559). -/
def codeLogged (bits : List (Fin 72)) : Nat := bits.foldl (fun a i => a ^^^ i.val) 0 % 32

/-- One codeword of a page is read and checked, code and address tag (R550, R551): whether it makes the page bad. -/
def codeCheck (page : Nat) (e : PageErr) (s : State) : Bool × State :=
  let at_ := page % 2 ^ 25 + 2 ^ 25 * e.burst.val
  let k := codeKind e.bits
  let s := if k = 1 then eccCe 16 at_ (codeLogged e.bits) false s
    else if k = 2 then eccLogAdd 16 at_ (codeLogged e.bits) true false false (eccUe s) else s
  if k ≠ 2 ∧ e.tag.any (fun t => t.val != spillTag page e.burst.val e.codeword.val) then
    (true, eccLogAdd 16 at_ 0 true false true (eccUe s))
  else (k == 2, s)

/-- REFILL_READ_DONE: the page read is checked (R551); where a codeword was bad nothing joins the head. -/
def refillDone (q : Nat) (c : PageCheck) (s : State) : State :=
  let r := s.queueRec q
  if r.reads = 0 then s
  else
    match r.pages with
    | [] => s.setQueue q { r with reads := 0 }
    | g :: _ =>
      let d := c.errs.foldl (fun (x : Bool × State) e =>
        let y := codeCheck g.buf e x.2
        (x.1 || y.1, y.2)) (false, readGood q s)
      if d.1 then pageBad q d.2 else pageJoin q d.2

/-! ### Configuration, injection, log (R553, R554, R558, R559) -/

/-- Bits of the RW and W1S fields of a register word flip, of the parity of its bytes that have such a field, or of its block's shadow
(R553): what the word reads and does from now on follows it. -/
def upsetTake (u : CfgUpset) (s : State) : State :=
  match regAt u.addr.toNat with
  | none => s
  | some h =>
    let all := h.mask (fun a => a == .rw || a == .w1s)
    let m := u.mask &&& all
    let par := u.parity.val &&& maskBytes all.toNat
    let w := h.wide.word h.w
    let b := w.addr / 2 ^ 16 % 2 ^ 12
    let s := s.setWord w (s.word w ^^^ m)
    { s with ecc := { s.ecc with
        upsets := smSet 0 s.ecc.upsets w.addr (smGet 0 s.ecc.upsets w.addr ^^^ (m.toNat + 2 ^ 32 * par)),
        shadow := smSet 0 s.ecc.shadow b (smGet 0 s.ecc.shadow b ^^^ u.shadow.toNat) } }

/-- The sweep meets a block that does not match (R554): an escalation, or a major alarm where CFG_RELOAD = 0; further ones in the
same block during a reload only stand recorded. -/
def cfgMismatch (b : Nat) (s : State) : State :=
  let s := ((s.ev ECC_EVENT_CFG_UPSET).put ECC_CFG_STATUS_BASE b).ev ECC_CFG_STATUS_VALID
  let s : State := { s with pair := { s.pair with lastUpset := some s.now } }
  let s := s.ev PAIR_EVENT_SELFTEST_FAIL
  if !s.on ECC_CTRL_CFG_RELOAD then raiseMajor 9 s
  else if s.ldr.reload && s.ecc.met.contains b then s
  else { s with ecc := { s.ecc with met := b :: s.ecc.met.filter (fun x => x != b) }, escDue := s.escDue + 1 }

/-- A sweep of the configuration registers, after the bits that have flipped since the one before (R553): parity and CRC show every
block with a bit that differs from what was written. -/
def cfgSweep (l : List CfgUpset) (s : State) : State :=
  let s := forEach l upsetTake s
  if !s.on ECC_CTRL_CFG_CHECK_EN || s.gated then s else forEach (upsetBlocks s) cfgMismatch s

/-- A read of the lowest word of ECC_LOG takes the oldest entry (R559): its 64 bits, zero from an empty log. -/
def eccPop (s : State) : Nat × State :=
  match s.ecc.log with
  | [] => (0, s)
  | (a, w) :: t =>
    let s : State := { s with ecc := { s.ecc with log := t } }
    (a + 2 ^ 32 * w, s.put ECC_LOG_LEVEL_LEVEL t.length)

end Sys2Proof.Machine
end

