-- ==== Sys2Proof/Machine/Supply.lean ====
section
/-!
DEFINITION. The Supply Monitor (R588 to R602): triggers, the shedding stages, the last gasp, the restore, and alarm sources that persist.
-/

namespace Sys2Proof.Machine

/-- The lanes of the shed groups that are shed at present go OFF, or come back (R592, R598). -/
def shedLanes (s : State) : State := forEach (List.range 65) laneShedNow s

/-- The queues' STALLED mode follows the spill DRAM (R419). -/
def stallAll (s : State) : State := forEach (s.queues.map (fun e => e.1)) stallRefresh s

/-- The spill DRAM takes the state of the supply stage: PAUSED, or self-refresh in SHED3 (R419, R592). -/
def spillShed (s : State) : State :=
  let st := s.get QM_SPILL_STATUS_STATE
  if st = 2 ∨ st = 3 ∨ st = 4 then
    stallAll (if s.stage = 3 then readsStop (s.put QM_SPILL_STATUS_STATE 4) else s.put QM_SPILL_STATUS_STATE 3)
  else s

/-- SHED1 is entered (R592): tally dumps pause, spill writes, eye scans, generators and checkers stop, passes are deferred. -/
def shed1 (s : State) : State :=
  let s := (s.put PWR_STATUS_STAGE 1).ev PWR_EVENT_SHED1
  calShed (eyeAbortAll (spillShed s))

/-- A trigger of the other kind in the cycle of t0 belongs to it (R595, R596). -/
def triggerBoth (kind : Nat) (s : State) : State :=
  match s.pwr.at_ with
  | some (t, first) =>
    if t ≠ s.now then s
    else
      let s : State := { s with pwr := { s.pwr with trig := s.pwr.trig ||| kind } }
      if first then s.ev (if kind = 1 then PWR_EVENT_PFAIL else PWR_EVENT_WARN) else s
  | none => s

/-- A supply trigger (R592, R595, R599): it counts in NORMAL, and while a hold or restore is under way; it sets a new t0. -/
def trigger (kind : Nat) (s : State) : State :=
  if s.stage ≠ 0 ∧ !s.on PWR_STATUS_RESTORING then triggerBoth kind s
  else
    let first := decide (s.stage = 0)
    let s := (s.count PWR_CNT_TRIGGERS).put PWR_STATUS_RESTORING 0
    let s := s.putWide PWR_LAST (tb96Of s.tb.count)
    let s : State := { s with pwr := ⟨false, kind, decide (s.tbState = 0), some (s.now, first)⟩ }
    if first then
      let s := s.ev (if kind = 1 then PWR_EVENT_PFAIL else PWR_EVENT_WARN)
      shed1 (raiseMinor 3 s)
    else s

/-- A rail is declared below warning (R589, R592). -/
def railWarning (rail : Nat) (s : State) : State :=
  trigger 2 ((s.putBit PWR_STATUS_BELOW_WARN rail true).putBit PWR_STATUS_BELOW_HYST rail true)

/-- PFAIL_N is declared asserted (R590): a trigger, and the power-fail save of R145. -/
def pfailAssert (s : State) : State :=
  if !s.on PWR_CTRL_PFAIL_EN then s
  else
    let s := trigger 1 (s.put PWR_STATUS_PFAIL 1)
    if s.on HOLD_FRAM_CFG_EN && s.sel.readDone then framSave s.sel.sinceSave 2 s else s

/-- The lanes of a shed group fall due (R592): after the groups before it, while the trigger stands. -/
def shedGroup (g : Nat) (s : State) : State :=
  if s.stage = 0 ∨ s.on PWR_STATUS_RESTORING ∨ s.get PWR_STATUS_GROUPS_SHED ≠ 3 - g then s
  else
    let s := if s.stage = 1 then (s.put PWR_STATUS_STAGE 2).ev PWR_EVENT_SHED2 else s
    shedLanes (s.put PWR_STATUS_GROUPS_SHED (4 - g))

/-- The last-gasp record (R596). -/
def lastGasp (s : State) : List Byte :=
  let now := if s.tbState = 0 then 0 else tb96Of s.tb.count
  let t0 := if s.pwr.t0Invalid then 0 else s.wide PWR_LAST
  let body := leBytes 4 0x4B4C4753 ++ leBytes 4 s.sel.lgSeq ++ leBytes 12 t0 ++ leBytes 12 now ++
    leBytes 4 (s.get TB_EPOCH_V) ++ leBytes 1 s.pwr.trig ++ leBytes 1 (s.get PWR_STATUS_BELOW_WARN) ++
    leBytes 1 (s.tbState + 4 * s.pairState.code) ++ leBytes 1 (s.get REF_STATUS_SELECTED + 16 * s.dpll) ++
    leBytes 4 (s.word FLT_MAJOR).toNat ++ leBytes 4 (s.word FLT_MINOR).toNat ++ leBytes 12 0
  body ++ leBytes 4 (crc32 body).toNat

/-- The record is written to the next slot (R596). -/
def lastGaspWrite (s : State) : State :=
  if s.on PWR_CTRL_LG_FRAM_EN ∧ s.on HOLD_FRAM_CFG_EN then
    let b := s.sel.lgSlotB
    let s := framWrite (if b then 0x8140 else 0x8100) (lastGasp s) s
    let s : State := { s with sel := { s.sel with lgSlotB := !b, lgSeq := (s.sel.lgSeq + 1) % 2 ^ 32 } }
    s.ev PWR_EVENT_LG_DONE
  else s

/-- The last-gasp Announce messages (R597). -/
def lastGaspAnnounce (s : State) : State :=
  if s.on PWR_CTRL_LG_ANN_EN then
    forEach ((committed s).filter (fun k => sessState s k == 6 && s.portUp (sessPort s k))) announceSend s
  else s

/-- SHED3 falls due (R592): self-refresh, the last gasp in RUNNING (R601), and an ACTIVE unit demotes itself. -/
def shed3 (s : State) : State :=
  if s.stage ≠ 2 ∨ s.on PWR_STATUS_RESTORING ∨ s.get PWR_STATUS_GROUPS_SHED ≠ 3 then s
  else
    let s := ((s.put PWR_STATUS_STAGE 3).ev PWR_EVENT_SHED3).count PWR_CNT_SHED3
    let s := spillShed s
    let s := if s.running then lastGaspAnnounce (lastGaspWrite s) else s
    selfDemote 2 s

/-- Every rail is back above warning and PFAIL_N is not asserted (R594): no further stage, and the hold starts. -/
def triggerClear (s : State) : State :=
  let s := ((s.put PWR_STATUS_BELOW_WARN 0).put PWR_STATUS_BELOW_HYST 0).put PWR_STATUS_PFAIL 0
  if s.stage = 0 ∨ s.pwr.restoring then s else s.put PWR_STATUS_RESTORING 1

/-- A rail falls below warning plus hysteresis during the hold (R598): the hold has to start again once it is back. -/
def railHyst (rail : Nat) (s : State) : State := s.putBit PWR_STATUS_BELOW_HYST rail true

/-- The restore is complete (R598): the SHED1 functions resume. -/
def restoreEnd (s : State) : State :=
  let s := ((s.put PWR_STATUS_STAGE 0).put PWR_STATUS_RESTORING 0).ev PWR_EVENT_RESTORED
  let s : State := { s with pwr := { s.pwr with restoring := false } }
  let s := if s.get QM_SPILL_STATUS_STATE = 3 then stallAll (spillReturn s) else s
  calResume s

/-- The next shed group is released: 1, then 2, then 3 (R598). -/
def groupRelease (s : State) : State :=
  let n := s.get PWR_STATUS_GROUPS_SHED - 1
  let s := s.put PWR_STATUS_GROUPS_SHED n
  let s := forEach (List.range 65) laneRestore s
  if n = 0 then s.put PWR_STATUS_STAGE 1 else s

/-- The restore starts (R598): the first of the steps that the stage reached requires. -/
def restoreStart (s : State) : State :=
  if !s.on PWR_STATUS_RESTORING || s.pwr.restoring || s.get PWR_STATUS_BELOW_HYST != 0 || s.on PWR_STATUS_PFAIL then s
  else
    let s : State := { s with pwr := { s.pwr with restoring := true } }
    if s.stage = 3 then spillShed (s.put PWR_STATUS_STAGE 2)
    else if s.stage = 2 then groupRelease s
    else restoreEnd s

/-- A restore step (R598). -/
def restoreStep (s : State) : State :=
  if !s.pwr.restoring then s
  else if s.stage = 2 then groupRelease s
  else restoreEnd s

/-- An alarm source whose condition persists sets its bit again after it has been cleared (R602). -/
def alarmsPersist (s : State) : State :=
  let major := fun (b : Nat) (c : Bool) (s : State) => if c && !s.bit FLT_MAJOR_B b then s.putBit FLT_MAJOR_B b true else s
  let s := major 0 s.syn.late s
  let s := major 2 (s.on REF_STATUS_DISPUTE_ALARM) s
  let s := major 3 ((List.range 65).any (fun n => laneState s n == 6)) s
  let s := major 4 ((committed s).any (fun k => sessState s k == 2)) s
  let s := major 6 ((s.queues.map (fun e => e.1)).any (fun q => s.on (QM_Q_STATUS_SUSPENDED q))) s
  let s := major 7 (decide (s.get QM_SPILL_STATUS_STATE = 5)) s
  let s := major 10 s.pair.clash s
  let s := major 11 (s.dev = .safeMode && decide (3 ≤ s.escAt.length)) s
  let s := major 9 (!(upsetBlocks s).isEmpty && s.on ECC_CTRL_CFG_CHECK_EN && !s.on ECC_CTRL_CFG_RELOAD) s
  let minor := fun (b : Nat) (c : Bool) (s : State) => if c && !s.bit FLT_MINOR_B b then s.putBit FLT_MINOR_B b true else s
  let s := minor 0 (decide (16 ≤ (s.phaRec 79).selfBad)) s
  let s := minor 1 (s.cal.fails.any (fun e => decide (3 ≤ e.2))) s
  minor 3 (decide (s.stage ≠ 0)) s

end Sys2Proof.Machine
end

