-- ==== Sys2Proof/Machine/Pair.lean ====
section
/-!
DEFINITION. The Pair Controller (R561 to R582): commitment, reports, mate failure and takeover, sequence records, health and
self-test, and the handover but for its scheduled action.
-/

namespace Sys2Proof.Machine

/-! ### What the unit reports (R574, R579, R580) -/

/-- The pair domain. -/
def pairDom (s : State) : Nat := s.get PAIR_CTRL_DOMAIN

/-- The pair domain's committed session on P65. -/
def pairSess (s : State) : Option Nat := (domSess s (pairDom s)).find? (fun k => sessPort s k == 65)

/-- CLK_TIME ticks of wall time in a number of seconds. -/
def wallSec (n : Nat) : Nat := 250000000 * n

/-- LM is LINKED and syntonous (R580). -/
def lmSynt (s : State) : Bool := laneState s 64 == 5 && s.on (LN_STATUS_CLOCK_EFF 64)

/-- TLOCK (R574): 0 while LM has lost LINKED or fallen back to PLESIOCHRONOUS (R570). -/
def pairTlock (s : State) : Bool :=
  match s.pair.lockSince with
  | some t => decide (t + wallSec (s.get PAIR_LOCK_LOCK_S) ≤ s.now) && lmSynt s
  | none => false

/-- Within the last 10 s. -/
def within10s (s : State) : Option Nat → Bool
  | some t => decide (s.now < t + wallSec 10)
  | none => false

/-- The five flags of R579, as PAIR_TEST.RESULTS reads them. -/
def pairTests (s : State) : Nat :=
  (if within10s s s.pair.lastUe then 0 else 1) + s.get PAIR_TEST_RESULTS / 2 % 8 * 2 +
    (if within10s s s.pair.lastUpset then 0 else 16)

/-- HEALTHY (R580). -/
def pairHealthy (s : State) : Bool :=
  s.running && s.stage == 0 && !s.majorActive && lmSynt s && s.tbState == 2 && pairTests s == 31

/-- HEALTHY_S (R580). -/
def pairHealthyS (s : State) : Nat :=
  match s.pair.healthySince with
  | some t => min 0xFFFFFFFF ((s.now - t) / wallSec 1)
  | none => 0

/-- The march, lane loop and cross-check tests run. -/
def testsRun (s : State) : Bool := s.pairFollows && s.stage == 0

/-- A lane that the lane loop test visits: disabled, in a quad whose PLL runs (R579). -/
def loopIdle (s : State) (n : Nat) : Bool := decide (n < 65) && !s.on (LN_CTRL_EN n) && s.pllRuns (lanePll n)

/-- The lane tested after lane `n`, in ascending order and around; 0xFF for none. -/
def loopNext (s : State) (n : Nat) : Nat := (((List.range 65).map (fun k => (n + 1 + k) % 65)).find? (loopIdle s)).getD 0xFF

/-- PAIR_TEST.LANE names the lane under loop test (R579, R587): none where the tests do not run in this pair state, the same while they pause,
and the next one where the present one's EN has been written 1 or its PLL has stopped. -/
def loopFollow (s : State) : State :=
  let n := s.get PAIR_TEST_LANE
  if !s.pairFollows then (if n = 0xFF then s else s.put PAIR_TEST_LANE 0xFF)
  else if loopIdle s n then s
  else
    let m := loopNext s (if n = 0xFF then 64 else n)
    if m = n then s else s.put PAIR_TEST_LANE m

/-- What a command has changed of HEALTHY and of the P65 session's state is noted with the time (R574, R580). -/
def pairFollowUp (s : State) : State :=
  let h := match pairHealthy s, s.pair.healthySince with
    | true, none => some s.now
    | true, some t => some t
    | false, _ => none
  let slave := match pairSess s with
    | some k => sessState s k == 9
    | none => false
  let l := match slave, s.pair.lockSince with
    | true, none => some s.now
    | true, some t => some t
    | false, _ => none
  loopFollow { s with pair := { s.pair with healthySince := h, lockSince := l } }

/-! ### Sequence records (R575, R577, R578) -/

/-- The streams PAIR_GENSEL marks that are paired, rising. -/
def pairedStreams (s : State) : List Nat :=
  ((s.regs.filter (fun e => decide (0x02300400 ≤ e.1) && decide (e.1 < 0x02300600))).map
    (fun e => (bitsOf 32 e.2.toNat).map (fun k => 8 * (e.1 - 0x02300400) + k))).flatten.filter (seqPaired s)

/-- GEN_SEQ of a stream. -/
def genSeq (s : State) (n : Nat) : Nat := s.tbits (streamAddr n + 4) 0 16

/-- GEN_SEQ of a stream takes a value. -/
def setGenSeq (n v : Nat) (s : State) : State := s.setTbits (streamAddr n + 4) 0 16 v

/-- The waiting frames of a stream, in the order of their tails. -/
def waitingOf (s : State) (n : Nat) : List Nat :=
  (s.pair.waits.filter (fun w => (s.frameRec w.1).waiting && (s.frameRec w.1).paired == some n)).map (fun w => w.1)

/-- A frame waits no longer. -/
def waitDone (f : Nat) (s : State) : State :=
  { s with pair := { s.pair with waits := s.pair.waits.filter (fun w => w.1 != f) } }

/-- The waiting frames of a stream take successive numbers (R577, R578). -/
def numberWaiting (n : Nat) (s : State) : State :=
  forEach (waitingOf s n) (fun f s => let q := seqTake n s; waitDone f (frameNumber f q.1 q.2)) s

/-- GEN_SEQ of a stream steps past the numbers the mate may have sent, and its waiting frames are numbered (R577). -/
def skipAhead (n : Nat) (s : State) : State :=
  numberWaiting n (setGenSeq n ((genSeq s n + s.get PAIR_SEQ_SKIP) % 2 ^ 16) s)

/-- A stream is the new carrier's own to number from `v` on (R578). -/
def closeStream (n : Nat) (v : Option Nat) (s : State) : State :=
  let s : State := { s with pair := { s.pair with closing := s.pair.closing.filter (fun x => x != n),
                                                   got := s.pair.got.filter (fun r => r.stream != n) } }
  match v with
  | some q => numberWaiting n (setGenSeq n q s)
  | none => skipAhead n s

/-- One sequence record is received (R575, R578); a carrying unit that closes nothing has no use for it. -/
def recordRx (r : SeqRec) (s : State) : State :=
  if !s.pairFollows && !s.pair.closing.contains r.stream then s
  else if r.kind = 1 then
    if s.pair.closing.contains r.stream then closeStream r.stream (some r.n) s
    else { s with pair := { s.pair with got := s.pair.got ++ [r] } }
  else if r.kind = 0 then
    let fits := fun (f : Nat) =>
      let b := (s.frameRec f).bytes
      natLE (b.drop (b.length - 4)) == r.fcs
    match (waitingOf s r.stream).find? fits with
    | some f => waitDone f (frameNumber f r.n (setGenSeq r.stream (r.n + 1) s))
    | none => { s with pair := { s.pair with got := s.pair.got ++ [r] } }
  else s

/-- A record as it stands in a SEQ frame. -/
def recordOf (s : State) (b : List Byte) : SeqRec :=
  let v := natLE b
  ⟨v % 2 ^ 12, v / 2 ^ 12 % 16, v / 2 ^ 16 % 2 ^ 16, v / 2 ^ 32, s.now⟩

/-- The bytes of a record (R575). -/
def recordBytes (r : SeqRec) : List Byte := leBytes 8 (r.stream + 2 ^ 12 * r.kind + 2 ^ 16 * r.n + 2 ^ 32 * r.fcs)

/-- A towline frame that does not fit its TYPE (R565). -/
def towlineBad (s : State) : State := s.count PAIR_CNT1_REPORTS_BAD

/-- The records of a SEQ frame, eight bytes each. -/
def records : Nat → List Byte → List (List Byte)
  | 0, _ => []
  | n + 1, b => b.take 8 :: records n (b.drop 8)

/-- SEQ_RX (R565, R575). -/
def seqRx (body : List Byte) (s : State) : State :=
  let n := body.length / 8
  if body.length % 8 ≠ 0 ∨ n = 0 ∨ 64 < n then towlineBad s
  else forEach (records n body) (fun b s => recordRx (recordOf s b) s) s

/-- A SEQ frame with up to 64 records is sent (R575). -/
def seqSend (s : State) : State :=
  match s.pair.toSend with
  | [] => s
  | l =>
    let s : State := { s with pair := { s.pair with toSend := l.drop 64 } }
    towlineSend 2 ((l.take 64).map recordBytes).flatten s

/-- Every record held is sent. -/
def seqSendAll : Nat → State → State
  | 0, s => s
  | n + 1, s => if s.pair.toSend.isEmpty then s else seqSendAll n (seqSend s)

/-- A frame is discarded with all its copies (R575). -/
def frameDiscard (f : Nat) (s : State) : State :=
  let s := waitDone f (s.setFrame f { s.frameRec f with waiting := false })
  let s := forEach (queuedCopies s f) (fun c s => copyDrop c clsQm s) s
  let r := s.frameRec f
  if r.live ∧ r.copies = 0 ∧ r.tail ∧ r.express = none then s.setFrame f {} else s

/-- An unmatched frame is discarded with all its copies and counts (R575). -/
def frameMiss (f : Nat) (s : State) : State := frameDiscard f ((s.count PAIR_CNT0_SEQ_MISS).ev PAIR_EVENT_SEQ_MISS)

/-- An unmatched record is dropped and counts (R575). -/
def recordOrphan (r : SeqRec) (s : State) : State :=
  { s with pair := { s.pair with got := s.pair.got.erase r } }.count PAIR_CNT0_SEQ_ORPHAN

/-- PAIR_SEQ.WAIT has passed on a stream (R575, R578): a handover's close record is given up; else, of the unmatched frames and records, that
which has waited longest goes, a frame discarded, a record dropped. -/
def seqTimeout (n : Nat) (s : State) : State :=
  if s.pair.closing.contains n then closeStream n none s
  else
    let frames := s.pair.waits.filter (fun w => (waitingOf s n).contains w.1)
    let recs := s.pair.got.filter (fun r => r.stream == n)
    match frames, recs with
    | w :: _, r :: _ => if w.2 ≤ r.at_ then frameMiss w.1 s else recordOrphan r s
    | w :: _, [] => frameMiss w.1 s
    | [], r :: _ => recordOrphan r s
    | [], [] => s

/-! ### States (R567 to R571, R576, R577) -/

/-- The pair goes to a state, not under handover any more. -/
def pairTo (p : PairState) (s : State) : State :=
  let s := pairSet p (s.put PAIR_STATUS_HO_FROM_ACTIVE 0)
  { s with pair := { s.pair with hoT := none, hoAsked := false, hoWritten := false } }

/-- SCH_ACT63 is disarmed; its RESULT reads IDLE (R206). -/
def disarm63 (s : State) : State :=
  if s.on (SCH_ACT_CTRL_ARM 63) then (s.put (SCH_ACT_CTRL_ARM 63) 0).put (SCH_ACT_STATUS_RESULT 63) 0 else s

/-- Mate failure disarms SCH_ACT63; where the action is to execute in the same cycle, which is the coming tick, it ends with TARGET_ERR
(R569, R570). -/
def fail63 (s : State) : State :=
  let due := s.on (SCH_ACT_CTRL_ARM 63) && s.tbState != 0 &&
    decide (tb96Time (s.wide (SCH_ACT_TIME 63)) ≤ (s.tb.count + s.incr) % span40)
  let s := disarm63 s
  if due then s.put (SCH_ACT_STATUS_RESULT 63) 5 else s

/-- The takeover of R577. -/
def takeOver (s : State) : State :=
  let s := forEach (pairedStreams s) skipAhead s
  { s with pair := { s.pair with got := [], closing := [] } }

/-- The unit enters MATE_FAILED (R569, R577). -/
def enterMateFailed (s : State) : State :=
  let was := s.pairState
  let s := (s.count PAIR_CNT3_TAKEOVERS).ev PAIR_EVENT_MATE_FAIL
  let s := if was = .handover then fail63 s else s
  pairTo .mateFailed (if was = .active then s else takeOver s)

/-- Mate failure is declared, once per loss (R568). -/
def mateFailure (s : State) : State :=
  if s.pair.failed || s.pairState = .solo then s
  else
    let s : State := { s with pair := { s.pair with failed := true } }
    if s.pairState = .mateFailed then s else enterMateFailed s

/-- MATE_ALIVE_IN shows no edge for 50 µs (R564, R568). -/
def mateAliveLost (s : State) : State := mateFailure (s.put PAIR_STATUS_MATE_ALIVE 0)

/-- MATE_ALIVE_IN shows 16 edges (R564). -/
def mateAlivePresent (s : State) : State := s.put PAIR_STATUS_MATE_ALIVE 1

/-- Three report intervals without a valid report (R568); those already counted as bad are not counted again. -/
def reportTimeout (s : State) : State :=
  if s.pairState = .solo then s
  else
    let s := s.count PAIR_CNT1_REPORTS_MISSED (3 - s.pair.missed)
    mateFailure { s with pair := { s.pair with missed := 0 } }

/-- No valid report 1 s after entry to STANDBY from SOLO (R569). -/
def firstReportTimeout (s : State) : State :=
  if s.pairState = .standby ∧ s.pair.lastValid = none then
    enterMateFailed { s with pair := { s.pair with failed := true } }
  else s

/-- Whether this unit wins, the mate wins, or neither does (R567). -/
def pairWins (s : State) (matePref : Bool) (mateId : Nat) : Option Bool :=
  let mine := s.on PAIR_STATUS_PREFERRED
  let own := domClockId s (pairDom s)
  if mine && !matePref then some true
  else if !mine && matePref then some false
  else if own < mateId then some true
  else if mateId < own then some false
  else none

/-- Neither unit wins (R567): STANDBY, ID_CLASH, and a major alarm. -/
def idClash (s : State) : State :=
  let s := if s.pairState = .standby then s else pairTo .standby s
  raiseMajor 10 ({ s with pair := { s.pair with clash := true } }.ev PAIR_EVENT_ID_CLASH)

/-- A valid report of the mate's state moves the pair (R569). -/
def mateReport (m : Nat) (win : Option Bool) (s : State) : State :=
  let dual := m = 2 ∨ m = 4
  let s : State := { s with pair := { s.pair with clash := false } }
  match s.pairState with
  | .standby =>
    if m = 1 then
      match win with
      | some true => pairTo .active s
      | some false => s
      | none => idClash s
    else s
  | .active =>
    if dual then
      match win with
      | some false => (pairTo .standby s).ev PAIR_EVENT_DUAL_ACTIVE
      | some true => s
      | none => idClash s
    else s
  | .mateFailed =>
    if m = 1 then pairTo .active s
    else if dual then
      match win with
      | some false => (pairTo .standby s).ev PAIR_EVENT_DUAL_ACTIVE
      | some true => s
      | none => idClash s
    else s
  | _ => s

/-- HEALTH_RX (R565, R566, R568): an invalid report counts as missed. -/
def healthRx (body : List Byte) (s : State) : State :=
  if body.length ≠ 64 then towlineBad s
  else if natLE (body.drop 60) ≠ (crc32 (body.take 60)).toNat then
    let s : State := { s with pair := { s.pair with missed := min 3 (s.pair.missed + 1) } }
    (towlineBad s).count PAIR_CNT1_REPORTS_MISSED
  else
    let s := s.putWide PAIR_MATE_REPORT (natLE body)
    let m := byteAt body 0x18 % 8
    let s := s.put PAIR_STATUS_MATE_STATE m
    let s : State := { s with pair := { s.pair with
      lastValid := some s.now, missed := 0, failed := s.pair.failed && !s.on PAIR_STATUS_MATE_ALIVE } }
    let s := if natLE ((body.drop 0x2C).take 4) ≠ s.ldr.imgCrc then s.ev PAIR_EVENT_IMAGE_DIFF else s
    mateReport m (pairWins s (byteAt body 0x1C % 2 == 1) (natLE ((body.drop 0x10).take 8))) s

/-- The health report (R566). -/
def healthReport (s : State) : List Byte :=
  let tests := pairTests s
  let flags := (if s.on PAIR_STATUS_PREFERRED then 1 else 0) + (if pairHealthy s then 2 else 0) +
    (if pairTlock s then 4 else 0) + (if s.majorActive then 8 else 0) + 16 * tests +
    (if lmSynt s then 512 else 0) + (if s.pairState = .handover then 1024 else 0)
  let off : Int := match pairSess s with
    | some k => if sessState s k = 9 then s.widei (FM_SESS_OFFSET k) else 0
    | none => 0
  let body := leBytes 4 s.pair.repSeq ++ leBytes 12 (tb96Of s.tb.count) ++ leBytes 8 (domClockId s (pairDom s)) ++
    leBytes 1 s.pairState.code ++ leBytes 1 (s.tbState + 4 * s.get GLB_STATE_STATE + 32 * s.stage) ++
    leBytes 2 (s.get TB_EPOCH_V % 2 ^ 16) ++ leBytes 4 flags ++ leBytes 4 (pairHealthyS s) ++
    leBytes 8 (unsigned 64 off) ++ leBytes 4 s.ldr.imgCrc ++ leBytes 4 s.pair.worstDev ++
    leBytes 2 (min 65535 s.pair.marchFails) ++ leBytes 2 (min 65535 s.pair.loopErrs) ++ leBytes 4 0
  body ++ leBytes 4 (crc32 body).toNat

/-- HEALTH_SEND (R566). -/
def healthSend (s : State) : State :=
  if s.pairState = .solo then s
  else
    let b := healthReport s
    towlineSend 1 b { s with pair := { s.pair with repSeq := (s.pair.repSeq + 1) % 2 ^ 32, worstDev := 0 } }

/-- DEMOTE_RX (R565, R569). -/
def demoteRx (body : List Byte) (s : State) : State :=
  if body.length ≠ 1 then towlineBad s
  else if s.pairState = .solo then s
  else
    let s := s.ev PAIR_EVENT_DEMOTE
    if s.pairState = .standby then pairTo .active s else s

/-! ### Commitment (R562) -/

/-- The cause for which the pair is refused, with the Forbidden combinations of cause 1; 0 where it is committed. -/
def pairRefusal (s : State) : Nat × List Nat :=
  let bad := (if s.get (MAC_CFG_FEC 65) ≠ 0 then [5] else []) ++ (if s.on (LN_CTRL_CLOCK_REQ 64) then [] else [6])
  let d := pairDom s
  if !bad.isEmpty then (1, bad)
  else if !s.on (MAC_CFG_EN 65) then (2, [])
  else if !s.on (FM_DOM_CFG_EN d) ∨ s.get (FM_DOM_CFG_ROLE d) ≠ 1 then (3, [])
  else if (pairSess s).isNone then (4, [])
  else if s.steerSrc ≠ d then (5, [])
  else (0, [])

/-- PAIR_CTRL.EN written 1. -/
def pairEnable (s : State) : State :=
  if s.pairState ≠ .solo then s
  else
    let r := pairRefusal s
    if r.1 = 0 then
      let s : State := { s with pair := { s.pair with lastValid := none, failed := false, missed := 0, clash := false } }
      pairTo .standby ((s.put PAIR_CTRL_EN 1).put PAIR_STATUS_REFUSED 0)
    else
      let s := modeErrs (r.2.map (fun c => (c, 6, 0))) s
      (s.put PAIR_CTRL_EN 0).put PAIR_STATUS_REFUSED r.1

/-- PAIR_CTRL.EN written 0 (R569). -/
def pairDisable (s : State) : State :=
  let s := s.put PAIR_CTRL_EN 0
  if s.pairState = .solo then s else pairTo .solo (if s.pairState = .handover then disarm63 s else s)

/-! ### Handover (R581, R582) -/

/-- A time as the 12 bytes of TB96. -/
def tbBytes (t : Nat) : List Byte := leBytes 12 (tb96Of t)

/-- The handover is aborted with a cause; the mate is told where `tell` holds (R582). -/
def hoAbort (cause : Nat) (tell : Bool) (s : State) : State :=
  let t := s.pair.hoT.getD 0
  let back := if s.on PAIR_STATUS_HO_FROM_ACTIVE then PairState.active else PairState.standby
  let held := s.pairState = .handover
  let s := if held then disarm63 s else s
  let s := if tell then towlineSend 5 (tbBytes t ++ [BitVec.ofNat 8 cause]) s else s
  let s := (s.count PAIR_CNT2_HO_ABORTS).ev PAIR_EVENT_HO_ABORT
  let s := if held then pairTo back s else s
  { s with pair := { s.pair with hoT := none, hoAsked := false, hoWritten := false, noAskUntil := s.now + wallSec 10 } }

/-- A STANDBY unit asks for a handover (R581). -/
def hoAsk (s : State) : State :=
  if s.pairState ≠ .standby ∨ !pairTlock s ∨ s.pair.hoAsked ∨ s.now < s.pair.noAskUntil then s
  else
    let ms := 1000000 * 2 ^ 40
    let t := (s.tb.count + s.get PAIR_TIMING_HO_LEAD * ms + ms - 1) / ms * ms % span40
    towlineSend 3 (tbBytes t) { s with pair := { s.pair with hoT := some t, hoAsked := true } }

/-- HO_REQ is written 1 (R581, R584): it reads 1 until the handover it asked for is over. -/
def hoWrite (s : State) : State :=
  let t := hoAsk s
  if t.pair.hoAsked && !s.pair.hoAsked then { t with pair := { t.pair with hoWritten := true } } else t

/-- HO_REVERTIVE_REQUEST (R581). -/
def hoRevertive (s : State) : State :=
  if s.on PAIR_STATUS_PREFERRED ∧ s.on PAIR_CTRL_REVERTIVE ∧ s.get PAIR_TIMING_WTR ≤ pairHealthyS s then hoAsk s else s

/-- HO_ABORT_RX (R582): a handover asked for or agreed is aborted, with the cause received. -/
def hoAbortRx (body : List Byte) (s : State) : State :=
  if body.length ≠ 13 then towlineBad s
  else if s.pairState = .handover ∨ s.pair.hoAsked then hoAbort (byteAt body 12) true s
  else s

/-- No HO_ACK within 20 ms (R582). -/
def hoAckTimeout (s : State) : State :=
  if s.pair.hoAsked ∧ s.pairState ≠ .handover then hoAbort 2 true s else s

/-- The roles are swapped at T (R569, R578, R581); false where the unit is not in HANDOVER. -/
def pairSwap (s : State) : Bool × State :=
  if s.pairState ≠ .handover then (false, s)
  else
    let active := s.on PAIR_STATUS_HO_FROM_ACTIVE
    let paired := pairedStreams s
    let s := (s.count PAIR_CNT2_HANDOVERS).ev PAIR_EVENT_HANDOVER
    if active then
      let close := paired.map (fun n => (⟨n, 1, genSeq s n, 0, s.now⟩ : SeqRec))
      let s : State := { s with pair := { s.pair with toSend := s.pair.toSend ++ close } }
      (true, pairTo .standby (seqSendAll 65 s))
    else
      let s := pairTo .active { s with pair := { s.pair with closing := paired } }
      (true, forEach (s.pair.got.filter (fun r => r.kind == 1)) (fun r s => closeStream r.stream (some r.n) s) s)

/-! ### Self-tests (R579) -/

/-- A test's flag takes its result. -/
def testResult (k : Nat) (ok : Bool) (s : State) : State :=
  let s := s.putBit PAIR_TEST_RESULTS k ok
  if ok then s else s.ev PAIR_EVENT_SELFTEST_FAIL

/-- MARCH_TEST: a round of the march ends with so many failing spare rows, each withdrawn, and so many failing quarantined cells (R579).  Which
banks the rows belong to is for the free numbers of `Config.eccBank` and `Config.eccObject`. -/
def marchTest (f : MarchFails) (s : State) : State :=
  if !testsRun s then s
  else
    let n := f.rows + f.cells
    let s : State := { s with pair := { s.pair with marchFails := min 65535 (s.pair.marchFails + n) } }
    let s := forEach (List.range (min f.rows 65536)) (fun _ s =>
      let f := s.fresh
      let r := Config.eccObject 17 f.1 % 16
      let key := bankKey r (Config.eccBank 17 f.1)
      let used := min 16 (smGet 0 s.ecc.spares key + 1)
      let s : State := { f.2 with ecc := { f.2.ecc with spares := smSet 0 f.2.ecc.spares key used } }
      if used = 16 then s.put (ECC_REG_SPARES_OUT r) 1 else s) s
    testResult 1 (decide (n = 0)) s

/-- LANE_LOOP_TEST: the 1 s of the test of the lane under test ends, and the next idle lane follows (R579). -/
def laneLoopTest (n errs : Nat) (s : State) : State :=
  if !testsRun s || s.get PAIR_TEST_LANE != n || !loopIdle s n then s
  else
    let s := testResult 2 (decide (errs = 0)) { s with pair := { s.pair with loopErrs := min 65535 errs } }
    s.put PAIR_TEST_LANE (loopNext s n)

/-- A valid sample of the cross-check channel (R579). -/
def crossCheck (c : Nat) (s : State) : State :=
  if !s.on PAIR_XCHK_EN || c != 65 + s.get PAIR_XCHK_REFIN || !testsRun s || !s.on (PHA_CH_SAMPLE_VALID c) then s
  else
    let unit : Int := baseUnit (chanBase s c)
    let p := 16384 * unit
    let d := (s.get (PHA_CH_SAMPLE_RAW c) : Int) * unit - 10 * ((s.outRec (s.get PAIR_XCHK_OUT)).applied + s.geti PAIR_XCHK_TRIM_V)
    let w := (d + p / 2) % p - p / 2
    let r := s.phaRec c
    let bad := decide (10 * s.get PAIR_XCHK_LIMIT < w.natAbs)
    let s := s.setPha c { r with xBad := if bad then r.xBad + 1 else 0 }
    let s : State := { s with pair := { s.pair with worstDev := max s.pair.worstDev (roundDiv w.natAbs 10).toNat } }
    if bad then (if r.xBad + 1 = 16 then testResult 3 false s else s)
    else if s.bit PAIR_TEST_RESULTS 3 then s else testResult 3 true s

end Sys2Proof.Machine
end

