-- ==== Sys2Proof/Machine/Sched.lean ====
section
/-!
DEFINITION. Scheduled actions (R190 to R195), the handover's action (R581), and one tick of CLK_TIME: what happens at every tick whatever
is commanded.
-/

namespace Sys2Proof.Machine

/-! ### Actions (R190 to R194) -/

/-- The time of action `n`, in 2^-40 ns. -/
def actTime (s : State) (n : Nat) : Nat := tb96Time (s.wide (SCH_ACT_TIME n))

/-- The time of action `n` takes a value. -/
def setActTime (n t : Nat) (s : State) : State := s.putWide (SCH_ACT_TIME n) (tb96Of t)

/-- The action ends with a result, and is disarmed. -/
def actEnd (n result : Nat) (s : State) : State := (s.put (SCH_ACT_CTRL_ARM n) 0).put (SCH_ACT_STATUS_RESULT n) result

/-- The period that late() takes (R191): PERIOD, or the cycle time of the port's pending gate list for GATE_SWAP. -/
def latePeriod (s : State) (n : Nat) : Nat :=
  if s.get (SCH_ACT_CTRL_TYPE n) = 5 then
    let p := s.get (SCH_ACT_PARAM0_V n) % 128
    listCycle s p (1 - s.get (QM_PORT_GATE_OPER_LIST p))
  else s.get (SCH_ACT_PERIOD_V n)

/-- late(t) of R191. -/
def actLate (n t : Nat) (s : State) : State :=
  if s.on (SCH_ACT_CTRL_LATE_POLICY n) then
    let per := latePeriod s n * 2 ^ 40
    if per = 0 then actEnd n 4 s
    else
      let k := (t - actTime s n) / per + 1
      (setActTime n (actTime s n + k * per) s).put (SCH_ACT_STATUS_RESULT n) 1
  else
    let s := s.setWord (SCH_LATE.word (n / 32)) ((s.word (SCH_LATE.word (n / 32))) ||| BitVec.ofNat 32 (2 ^ (n % 32)))
    actEnd n 3 s

/-- Whether PERIOD is allowed for TYPE (R190). -/
def actPeriodOk (s : State) (n : Nat) : Bool :=
  let t := s.get (SCH_ACT_CTRL_TYPE n)
  s.get (SCH_ACT_PERIOD_V n) == 0 || (decide (1 ≤ t) && decide (t ≤ 4))

/-- An action is armed, the next tick's value by counting alone being `tc` (R191). -/
def actArm (n tc : Nat) (s : State) : State :=
  let s := ((s.put (SCH_ACT_CTRL_ARM n) 1).put (SCH_ACT_STATUS_RUNS n) 0).put (SCH_ACT_STATUS_RESULT n) 1
  let ty := s.get (SCH_ACT_CTRL_TYPE n)
  if ty = 0 ∨ !actPeriodOk s n ∨ (s.on (SCH_ACT_CTRL_LATE_POLICY n) ∧ s.get (SCH_ACT_PERIOD_V n) = 0 ∧ ty ≠ 5) then actEnd n 4 s
  else if tc < actTime s n then s
  else actLate n tc s

/-- What action `n` does at execution (R190); whether its target refused it (R193). -/
def actRun (n : Nat) (s : State) : Bool × State :=
  let a := s.get (SCH_ACT_PARAM0_V n)
  let b := s.get (SCH_ACT_PARAM1_V n)
  match s.get (SCH_ACT_CTRL_TYPE n) with
  | 1 => (false, ppsRealign (a % 16) s)
  | 2 => let r := clkoutSet (a % 4096) (b % 4096) s; (r.2, r.1)
  | 3 => let r := ppsoutSet (a % 16) (b % 16) s; (r.2, r.1)
  | 4 => let r := tiuArmAct s; (r.2, r.1)
  | 5 =>
    let p := a % 128
    if gateSwapOk s p then
      (false, xcRefreshAll (gateSwap p (actTime s n) (creditSyncPort p s)))
    else (true, s)
  | 6 =>
    (false, { s with tb := { s.tb with actSteps := s.tb.actSteps ++ [(sns40 (signed 64 (a + 2 ^ 32 * b)), n)] } })
  | 7 => let r := pairSwap s; (!r.1, r.2)
  | _ => (true, s)

/-- The handover's action has ended without a swap: the handover is aborted (R582). -/
def actHandover (n : Nat) (s : State) : State :=
  if n = 63 ∧ s.pairState = .handover ∧ s.get (SCH_ACT_CTRL_TYPE 63) = 7 ∧ !s.on (SCH_ACT_CTRL_ARM 63) then
    hoAbort (if s.get (SCH_ACT_STATUS_RESULT 63) = 3 then 2 else 3) true s
  else s

/-- Action `n` executes (R192). -/
def actExecute (n : Nat) (s : State) : State :=
  let per := s.get (SCH_ACT_PERIOD_V n)
  let s := s.count (SCH_ACT_STATUS_RUNS n)
  let s :=
    if per = 0 then actEnd n 2 s
    else (setActTime n (actTime s n + per * 2 ^ 40) s).put (SCH_ACT_STATUS_RESULT n) 1
  let t0 := if per = 0 then s else setActTime n (actTime s n - per * 2 ^ 40) s
  let r := actRun n t0
  let s := if per = 0 then r.2 else r.2.putWide (SCH_ACT_TIME n) (s.wide (SCH_ACT_TIME n))
  if r.1 then s.put (SCH_ACT_STATUS_RESULT n) 5 else s

/-- Action `n` is evaluated for the tick at which counting gives `c` from `p` (R192); none while INVALID (R194). -/
def actEval (p c n : Nat) (s : State) : State :=
  if !s.on (SCH_ACT_CTRL_ARM n) || s.tbState == 0 then s
  else
    let s := if actTime s n ≤ p then actLate n p s else s
    let s := if s.on (SCH_ACT_CTRL_ARM n) ∧ actTime s n ≤ c then actExecute n s else s
    actHandover n s

/-- The armed actions, rising. -/
def actsArmed (s : State) : List Nat := (List.range 64).filter (fun n => s.on (SCH_ACT_CTRL_ARM n))

/-- What counting alone gives at the next tick (R191, R192). -/
def State.nextCount (s : State) : Nat := (s.tb.count + s.incr) % span40

/-- SCH_ACTION_DUE: action `n` is evaluated for the upcoming tick, in which nothing is left for it then. -/
def actDue (n : Nat) (s : State) : State := if s.clocked then actEval s.tb.count s.nextCount n s else s

/-- A DISARM write (R196, R206). -/
def actDisarm (n : Nat) (s : State) : State := actEnd n 0 s

/-- A reload disarms every action (R194), the handover's with it (R582). -/
def actsDisarm (s : State) : State :=
  let s := forEach (List.range 64) (fun n s => if s.on (SCH_ACT_CTRL_ARM n) then actDisarm n s else s) s
  let s := forEach (List.range 64) (fun n s => s.put (SCH_ACT_STATUS_RESULT n) 0) s
  if s.pairState = .handover then hoAbort 4 true s else s

/-! ### The handover's action (R581) -/

/-- SCH_ACT63 is armed for the handover at `t`; the handover is aborted where it ends LATE or REJECTED (R581, R582). -/
def handoverArm (t : Nat) (fromActive : Bool) (s : State) : State :=
  let s := pairSet .handover (s.putB PAIR_STATUS_HO_FROM_ACTIVE fromActive)
  let s : State := { s with pair := { s.pair with hoT := some t, hoAsked := false } }
  let s := (setActTime 63 t s).put (SCH_ACT_PERIOD_V 63) 0
  let s := (s.put (SCH_ACT_CTRL_TYPE 63) 7).put (SCH_ACT_CTRL_LATE_POLICY 63) 0
  let s := actArm 63 s.nextCount s
  if s.on (SCH_ACT_CTRL_ARM 63) then s else hoAbort 2 true s

/-- HO_REQ_RX (R581): an ACTIVE unit agrees, any other answers NAK. -/
def hoReqRx (body : List Byte) (s : State) : State :=
  if body.length ≠ 12 then towlineBad s
  else if s.pairState = .active then handoverArm (tb96Time (natLE body)) true (towlineSend 4 body s)
  else towlineSend 5 (body ++ [1]) s

/-- HO_ACK_RX (R581). -/
def hoAckRx (body : List Byte) (s : State) : State :=
  if body.length ≠ 12 then towlineBad s
  else if s.pairState = .standby ∧ s.pair.hoAsked ∧ s.pair.hoT = some (tb96Time (natLE body)) then
    handoverArm (tb96Time (natLE body)) false s
  else s

/-- GATE_EVENT (R425, R429): an entry boundary of port `p`; the list's words are read, and the gates follow the time base. -/
def gateEvent (p : Nat) (s : State) : State :=
  if !gatesRun s p then s
  else gateRefresh p (creditSyncPort p (eccLook (gateAddr p (s.get (QM_PORT_GATE_OPER_LIST p)) 0) 0x800 s))

/-! ### One tick of CLK_TIME -/

/-- Fine phase goes stale on the lanes whose newest sample has just passed 1 ms (R299). -/
def fineStale (s : State) : State :=
  forEach (s.pha.map (fun e => (e.1, e.2.recent.head?))) (fun x s =>
    match x.2 with
    | some h => if x.1 < 65 ∧ s.clk = h.2 + ticksMs 1 + 1 then fineRefresh (lanePort x.1) s else s
    | none => s) s

/-- The gates of the ports that run a list follow it at the start of each CLK_FAB cycle since the last tick, at which the time base was `c`,
their credits brought up to date first (R424, R425, R429); `units` of 4 ns have passed. -/
def gatesTick (c units : Nat) (s : State) : State :=
  forEach ((gatePorts s).filter (gatesRun s)) (fun p s =>
    let s := forEach [1, 2, 3, 4] (fun k s =>
      gateRefreshAt p ((c + k * 2 ^ 42 / 5) % span40) (creditSyncPortTo p (s.nowPs - (5 - k) * 800 * units) s)) s
    gateRefresh p (creditSyncPort p s)) s

/-- MATE_ALIVE_OUT toggles (R564): in RUNNING with PAIR_CTRL.EN = 1, while CLK_MGT runs (R41, R72). -/
def mateAliveOut (s : State) : Bool := s.running && s.clocked && s.on PAIR_CTRL_EN

/-- MATE_ALIVE_OUT toggles every 1 µs, 250 ticks (R564), and keeps its level where it does not. -/
def aliveTick (s : State) : State :=
  if s.clk % 250 = 0 ∧ mateAliveOut s then { s with pair := { s.pair with aliveOut := !s.pair.aliveOut } } else s

/-- One tick at which CLK_TIME runs: actions, steps and the counter, what counts with it, and, at
every second tick a CLK_MGT cycle, the cycle counters (R671). -/
def timeTick (s : State) : State :=
  let p := s.tb.count
  let c := s.nextCount
  let inc := s.incr
  let units := if s.on SYN_STATUS_SAFE_RATIO then 2 else 1
  let s : State := { pfdTick units s with clk := s.clk + 1, now := s.now + units }
  let s := forEach (actsArmed s) (actEval p c) s
  let s := stepPhase p c s
  let s : State := { s with tb := { s.tb with runs := addRun inc s.tb.runs } }
  let s := ppsRealignDue (tiuPpsAll s (forEach (List.range 4) (ppsTick inc) s))
  let s := if s.tb.snapDue then snapTake 0 s.tb.count { s with tb := { s.tb with snapDue := false } } else s
  let s := lanesTick units (outsTick true units s)
  let s := secCheck { s with sel := { s.sel with dcoSum := s.sel.dcoSum + s.widei DCO_OFFSET, dcoTicks := s.sel.dcoTicks + 1 } }
  let s := decisionsMake (wheelTick (forEach (List.range 4) (domTick p c) s))
  let s := pairFollowUp (aliveTick (fineStale (gatesTick p units (portsTick s))))
  if s.clk % 2 = 0 then pmcEvent 0x001 .plain 10 (pmcEvent 0x000 .plain 1 s) else s

/-- The OCXO_WARM input has risen (R55): no command says so, the input is free. -/
def ocxoLook (s : State) : State :=
  if !s.on SYN_STATUS_OCXO_WARM && Config.ocxoRises s.now then
    (s.put SYN_STATUS_OCXO_WARM 1).put TIU_STATUS_OCXO_WARM 1
  else s

/-- The time of one tick passes: while the clocks are gated or not yet running, only the wall time moves, and with it the outputs whose
source runs on or that complete a high phase (R69, R71). -/
def tick (s : State) : State :=
  if s.inReset then s
  else if s.clocked then ocxoLook (timeTick s)
  else lanesTick 1 (outsTick false 1 { s with now := s.now + 1 })

/-- TB_STEP_APPLY (R179): the tick at which a step or a load falls due. -/
def stepApplyDue (s : State) : State := if s.clocked && stepDue s then timeTick s else s

end Sys2Proof.Machine
end

