-- ==== Sys2Proof/Machine/LdrCore.lean ====
section
/-!
DEFINITION. The loader's own state (R615 to R644): its images, a failure and its undo, the host load, and the device states
it and the escalations lead to (R38, R39, R603, R632, R633, R637, R639).
-/

namespace Sys2Proof.Machine

/-! ### The header of an image (R621) -/

/-- The number of sections a header declares. -/
def hdrSections (h : List Byte) : Nat := byteAt h 0x18 + 256 * byteAt h 0x19

/-- A little-endian word of a header. -/
def hdrWord (h : List Byte) (o : Nat) : Nat := natLE ((h.drop o).take 4)

/-- OFFSET, LENGTH and CRC-32 of section `k`. -/
def secOffset (h : List Byte) (k : Nat) : Nat := hdrWord h (0x3C + 12 * k)
def secLength (h : List Byte) (k : Nat) : Nat := hdrWord h (0x40 + 12 * k)
def secCrc (h : List Byte) (k : Nat) : Nat := hdrWord h (0x44 + 12 * k)

/-- The bytes of the HEADER record of an image with so many sections. -/
def hdrSize (n : Nat) : Nat := 0x40 + 12 * n

/-- The header is readable (R622): its magic and its CRC are correct. -/
def hdrReadable (h : List Byte) : Bool :=
  let n := hdrSections h
  hdrWord h 4 == 0x4B58414E && decide (hdrSize n ≤ h.length) &&
    hdrWord h (0x3C + 12 * n) == (crc32 (h.take (0x3C + 12 * n))).toNat

/-- The section table from section `k` on (R623): contiguous, ascending, each of 4 to 262,144 bytes and whole words, the last
one ending at the end of the image. -/
def secTableOk (h : List Byte) : Nat → Nat → Nat → Bool
  | 0, _, at_ => at_ == hdrWord h 0x0C
  | n + 1, k, at_ =>
    secOffset h k == at_ && decide (4 ≤ secLength h k) && decide (secLength h k ≤ 262144) && secLength h k % 4 == 0 &&
      secTableOk h n (k + 1) (at_ + secLength h k)

/-- A readable header is valid (R622). -/
def hdrValid (h : List Byte) : Bool :=
  let n := hdrSections h
  decide (n ≤ 64) && byteAt h 8 == 1 && byteAt h 9 == 0 && decide (byteAt h 0x0A < 2) && byteAt h 0x0B == 0 &&
    decide (0 < hdrWord h 0x0C) && hdrWord h 0x0C % 4 == 0 && decide (hdrWord h 0x0C ≤ 16777216) &&
    hdrWord h 0x10 % 8 != 7 && hdrWord h 0x10 / 8 % 2 ^ 13 == 0 && decide (1 ≤ n) && decide (1 ≤ byteAt h 0x1A) &&
    decide (byteAt h 0x1A ≤ 15) && ((h.drop 0x1B).take 33).all (fun b => b == 0) && secTableOk h n 0 (hdrSize n)

/-- The image begins with a HEADER record whose LENGTH fits its sections (R620, R621, R624). -/
def hdrRecord (h : List Byte) : Bool := hdrWord h 0 == 0x01000000 + 0x3C + 12 * hdrSections h

/-- The header is of a signed image. -/
def hdrSigned (h : List Byte) : Bool := byteAt h 0x0A % 2 == 1

/-! ### Phases, sources, the host FIFO -/

/-- PHASE takes a code (R641). -/
def ldrPhase (p : Nat) (s : State) : State := s.put LDR_STATUS_PHASE p

/-- PHASE (R641): 1 HEADER, 2 READING, 3 WAITING_RECORD, 4 VERIFYING, 5 COMMITTING, 6 HOST_WAIT, 7 UNDOING, 8 DONE. -/
def State.phase (s : State) : Nat := s.get LDR_STATUS_PHASE

/-- The image being loaded comes from the host. -/
def hostImage (s : State) : Bool := s.get LDR_STATUS_SOURCE == 2

/-- A host load is under way. -/
def hostActive (s : State) : Bool := s.ldr.active && hostImage s

/-- The bytes the loader has room for beyond its FIFO: the header's until it is taken, then those of the sections its free
buffers hold next (R629). -/
def ldrRoom (s : State) : Nat :=
  let l := s.ldr
  if l.hdr.isEmpty then hdrSize 64
  else
    let free := 2 - (if l.executing then 1 else 0) - (if l.buf2.isSome then 1 else 0)
    let total : Nat := ((List.range free).map (fun i => if l.next + i < hdrSections l.hdr then secLength l.hdr (l.next + i) else 0)).sum
    total

/-- The words in the FIFO (R635). -/
def fifoWords (s : State) : Nat := (s.ldr.stream.length - ldrRoom s + 3) / 4

/-- LDR_HOST_STATUS.SPACE follows the FIFO. -/
def fifoSpace (s : State) : State := s.put LDR_HOST_STATUS_SPACE (if hostActive s then 1024 - fifoWords s else 1024)

/-! ### The undo of R631 -/

/-- The registers at some addresses return to their reset values. -/
def regsErase (p : Nat → Bool) (s : State) : State := { s with regs := s.regs.filter (fun e => !p e.1) }

/-- The registers every undo returns: LN_, MAC_ but the Clause 30 counters, FM_, FWD_, QM_, POOL_, XC_, TIU_, CAL_, ECC_ but
ECC_INIT_DONE and ECC_REGr, and PAIR_. -/
def undoneReg (a : Nat) : Bool :=
  (decide (0x00400000 ≤ a) && decide (a < 0x00800000)) ||
  (decide (0x00800000 ≤ a) && decide (a < 0x00C00000) && decide (a % 0x1000 < 0x100)) ||
  (decide (0x00D00000 ≤ a) && decide (a < 0x02400000) && a != 0x02200008 &&
    !(decide (0x02200100 ≤ a) && decide (a < 0x02200188)))

/-- The registers of the time blocks, which an undo after reset returns too: SYN_ but SYN_ROOT, SYN_STATUS and SYN_BAND_STORE, OUT_,
PPS_, REF_, DPLL_, HOLD_, DCO_, TB_, SCH_ and PHA_. -/
def undoneTime (a : Nat) : Bool :=
  (decide (0x0010000C ≤ a) && decide (a < 0x00400000)) || (decide (0x00C00000 ≤ a) && decide (a < 0x00D00000))

/-- The TIU and the calibrated objects at reset: factory values (R516). -/
def factoryTiu (o : OtpRec) : TiuRec := { binsA := o.cal.binsA, binsB := o.cal.binsB }

def factoryCal (o : OtpRec) : CalRec :=
  { rotator := o.cal.rotator, offset := o.cal.offset, gain := o.cal.gain, trim := o.cal.trim }

/-- The frame machine's records return to their state at reset; the buffers go free but for retired cells, and the tables
hold nothing but the invalidated values of retired entries (R540, R545). -/
def undoFrames (s : State) : State :=
  let s : State := { s with
    lanes := [], plls := (s.plls.filter (fun e => e.1 == 16)).map (fun e => (e.1, ({ band := e.2.band } : PllRec))), rcsHeld := [], ports := [],
    fm := {}, doms := [], sess := [], fwd := {}, meters := [], frames := [], copies := [], queues := [], qm := {},
    bufs := s.bufs.filter (fun e => decide (e.1 < 2 ^ 24) && s.ecc.retired.contains (0, e.1)), tiu := factoryTiu s.otp, cal := factoryCal s.otp,
    pair := { aliveOut := s.pair.aliveOut },
    mem := s.mem.filter (fun e => decide (0x03F00000 ≤ e.1)),
    ecc := { s.ecc with
      log := [], dir := [], reloads := [], held := [], reloadAt := [], met := [], quarantine := [],
      flips := s.ecc.flips.filter (fun e => decide (e.1 / 2 ^ 32 = 0) || decide (9 < e.1 / 2 ^ 32) || decide (e.1 / 2 ^ 32 < 3)) } }
  let kept := (s.ecc.retired.filter (fun x => x.1 == 0)).length
  let s := (s.put (POOL_FREE_V 0) (262144 - kept)).put (POOL_LOW_WATER_V 0) (262144 - kept)
  forEach (s.ecc.retired.filter (fun x => decide (3 ≤ x.1))) (fun x s => tableVoid x.1 (x.2 * eccSize x.1) s) s

/-- The time machine's records return to their state at reset (R631); the Capstan stays as it is. -/
def undoTime (s : State) : State :=
  let s := ppsSilence s
  { (s.put SYN_STATUS_AUX0_LOCKED 0).put SYN_STATUS_AUX1_LOCKED 0 with
    syn := { s.syn with auxHop := [], auxMul := [], auxWait := [], auxSafe := [] }, outs := [], pps := [], refs := [], sel := {}, ens := [], tb := {}, pha := [], survey := {} }

/-- The image is undone (R631). -/
def ldrUndo (s : State) : State :=
  let deep := !s.ldr.reload
  let s : State := { s with ldr := { s.ldr with defer := [], dirNew := [] } }
  let s := forEach (List.range 17) (fun r s => (s.put (ECC_REG_BACKED r) 0).put (ECC_REG_RELOADING r) 0) s
  let s := (s.putWide MGT_MMP_KEY 0).put MGT_MMP_CFG_KEY_SET 0
  let s := forEach [3, 4, 5, 6, 8, 9] (fun r s => s.putBit ECC_INIT_DONE_V r false) s
  let s := if s.pairState = .solo then s else pairDisable s
  let s := if s.on FM_CTRL_EN then ferryEnable false s else s
  let pref := s.get PAIR_STATUS_PREFERRED
  let alive := s.get PAIR_STATUS_MATE_ALIVE
  let warm := s.get SYN_STATUS_OCXO_WARM
  let s := undoFrames (regsErase undoneReg s)
  let s := if deep then undoTime (regsErase undoneTime s) else s
  let undone := fun (a : Nat) => undoneReg a || (deep && undoneTime a)
  let s : State := { s with ecc := { s.ecc with
      upsets := s.ecc.upsets.filter (fun e => !undone e.1),
      shadow := s.ecc.shadow.filter (fun e => !undone (e.1 * 2 ^ 16 + 0x20)) } }
  let s := ((s.put PAIR_STATUS_PREFERRED pref).put PAIR_STATUS_MATE_ALIVE alive).put TIU_STATUS_OCXO_WARM warm
  outStatusAll s

/-! ### Leaving service -/

/-- The lanes and ports go out of service, their enables cleared (R39, R633). -/
def serviceOff (s : State) : State :=
  let s := forEach (List.range 65) (fun n s => if s.on (LN_CTRL_EN n) || laneState s n != 0 then laneDisable n s else s) s
  forEach (List.range 66) (fun p s => if s.on (MAC_CFG_EN p) || portState s p != 0 then portOff p s else s) s

/-- Nothing of a load is under way any more. -/
def ldrStop (s : State) : State :=
  let s : State := { s with ldr := { s.ldr with
    active := false, hdr := [], all := [], buf := [], buf2 := none, executing := false, next := 0, retry := false, offset := 0,
    signKey := none, sigAt := none, sig := [], tblRegion := none, tblMixed := false, tblBytes := [],
    defer := [], dirNew := [], hostIf := 0, stream := [], wait := .none } }
  fifoSpace ((s.put LDR_HOST_CTRL_START 0).put LDR_HOST_STATUS_WAITING 0)

/-- The device enters SAFE_MODE with a cause (R38, R41, R633, R649). -/
def safeEnter (cause : Nat) (s : State) : State :=
  let s := ldrStop s
  let s : State := { s with ldr := { s.ldr with left := [], reload := false, escal := false } }
  let s := ppsSilence (serviceOff s)
  let s := forEach (committed s) sessDisable s
  let s := ((s.put GLB_STATE_STATE 4).put GLB_STATE_ENTRY_CAUSE cause).put GLB_CTRL_RELOAD 0
  let s := (ldrPhase 0 s).put LDR_STATUS_SOURCE 3
  outStatusAll (s.setWord MGT_PRIV MGT_PRIV.reset)

/-! ### Images and failures -/

/-- The images R616 allows after the straps: A is 0, B is 1; none for a host boot. -/
def bootOrder (bootSel : Nat) : List Nat := if bootSel = 0 then [0, 1] else if bootSel = 1 then [1] else []

/-- The loader waits for a host load (R634, R636). -/
def hostWait (s : State) : State :=
  ((ldrPhase 6 s).put LDR_STATUS_SOURCE 3).put LDR_HOST_STATUS_WAITING 1

/-- A load starts with a list of images; without one it waits for the host. -/
def ldrLaunch (left : List Nat) (s : State) : State :=
  let s := ldrStop s
  let s := (ldrPhase 0 { s with ldr := { s.ldr with left := left } }).put LDR_STATUS_SOURCE 3
  if left.isEmpty then hostWait s else s

/-- The image under way fails (R630, R631): its cause, the offset, its FAIL bit, and the undo. -/
def ldrFail (cause off : Nat) (s : State) : State :=
  if !s.ldr.active then s
  else
    let src := s.get LDR_STATUS_SOURCE
    let s := match src with
      | 0 => (s.put LDR_FAIL_CAUSE_A cause).ev LDR_EVENT_FAIL_A
      | 1 => (s.put LDR_FAIL_CAUSE_B cause).ev LDR_EVENT_FAIL_B
      | _ => (s.put LDR_FAIL_CAUSE_HOST cause).ev LDR_EVENT_FAIL_HOST
    ldrPhase 7 (ldrUndo (ldrStop (s.put LDR_FAIL_OFFSET_V off)))

/-- IMAGE_UNDO_DONE (R632, R635, R639): the next image, or SAFE_MODE. -/
def undoDone (s : State) : State :=
  if s.phase ≠ 7 then s
  else if s.ldr.escal then safeEnter 5 s
  else if hostImage s || s.ldr.left.isEmpty then safeEnter 4 (s.put GLB_STATE_IMAGE 3)
  else (ldrPhase 0 s).put LDR_STATUS_SOURCE 3

/-- LDR_CFG.LOAD_TO has passed in LOADING before END (R638). -/
def loadTimeout (s : State) : State := ldrFail 0x0C s.ldr.offset s

/-! ### Host loads (R634 to R636) -/

/-- The interface a master loads over: 1 PCIe, 2 SPI. -/
def ifOf : BusMaster → Nat
  | .pcie => 1
  | .spi => 2
  | _ => 0

/-- The interface that may start a host load in LOADING: the one BOOT_SEL names, or either. -/
def hostMay (s : State) (m : BusMaster) : Bool :=
  match s.get LDR_STATUS_BOOT_SEL with
  | 2 => m == .pcie
  | 3 => m == .spi
  | _ => m == .pcie || m == .spi

/-- START written 1 by an ADMIN master (R634); false where it is discarded. -/
def hostStart (m : BusMaster) (s : State) : Bool × State :=
  let safe := s.dev = .safeMode
  if (safe && (m == .pcie || m == .spi)) || (s.dev = .loading && s.on LDR_HOST_STATUS_WAITING && hostMay s m) then
    let s := ldrStop s
    let s : State := if safe then { s with ldr := { s.ldr with reload := false, started := s.now } } else s
    let s := if safe then (s.put GLB_STATE_STATE 2).put GLB_STATE_ENTRY_CAUSE 6 else s
    let s : State := { s with ldr := { s.ldr with active := true, hostIf := ifOf m, left := [] } }
    let s := ((ldrPhase 1 s).put LDR_STATUS_SOURCE 2).put LDR_HOST_CTRL_START 1
    (true, outStatusAll (fifoSpace (s.put LDR_STATUS_SECTION 0)))
  else (false, s.ev LDR_EVENT_CFG_ERR)

/-- The bytes of a host image received so far. -/
def hostBytes (s : State) : Nat := s.ldr.all.length + s.ldr.stream.length

/-- ABORT written 1 (R630). -/
def hostAbort (s : State) : State := if hostActive s then ldrFail 0x0F (hostBytes s) s else s

/-- A word is written to LDR_HOST_FIFO (R635): with no room the image fails; a word no load of this interface takes is dropped. -/
def fifoWrite (m : BusMaster) (v : Word) (s : State) : State :=
  if hostActive s && s.ldr.hostIf == ifOf m then
    if 1024 ≤ fifoWords s then ldrFail 0x0D (hostBytes s) s
    else fifoSpace { s with ldr := { s.ldr with stream := s.ldr.stream ++ leBytes 4 v.toNat } }
  else s

/-- No FIFO write for 1 s during a host load (R638). -/
def hostIdle (s : State) : State := if hostActive s then ldrFail 0x0E (hostBytes s) s else s

/-- LDR_CFG.HOST_TO has passed with WAITING = 1 (R636). -/
def hostWaitTimeout (s : State) : State :=
  if s.on LDR_HOST_STATUS_WAITING && s.get LDR_CFG_HOST_TO != 0 then safeEnter 4 (s.put GLB_STATE_IMAGE 3) else s

/-! ### Reload and escalation -/

/-- A time-preserving reload starts (R38, R39, R194, R637, R639). -/
def reloadStart (cause : Nat) (s : State) : State :=
  let s := serviceOff (actsDisarm s)
  let dropped := s.ecc.reloads
  let s : State := { s with ecc := { s.ecc with reloads := [] } }
  let s := forEach dropped (fun r s => heldApply r (s.put (ECC_REG_RELOADING r) 0)) s
  let s := ((s.put GLB_STATE_STATE 2).put GLB_STATE_ENTRY_CAUSE cause).ev LDR_EVENT_RELOAD
  let s : State := { s with ldr := { s.ldr with reload := true, started := s.now } }
  let img := s.get GLB_STATE_IMAGE
  let order := bootOrder (s.get LDR_STATUS_BOOT_SEL)
  let left := if 2 ≤ img then [] else if order.contains img then order.dropWhile (fun x => x != img) else [img]
  outStatusAll (ldrLaunch left s)

/-- GLB_CTRL.RELOAD written 1 (R43): ignored but in RUNNING. -/
def reloadAsked (s : State) : State := if s.running then reloadStart 3 (s.put GLB_CTRL_RELOAD 1) else s

/-- A device-level escalation (R38, R603, R639). -/
def escalate (s : State) : State :=
  let times := s.now :: recent s.now s.escAt
  let s : State := { s with escAt := times, escDue := 0 }
  let third := decide (3 ≤ times.length)
  match s.dev with
  | .running => if third then safeEnter 5 (raiseMajor 11 s) else reloadStart 2 s
  | .loading =>
    if third then
      let s := raiseMajor 11 s
      let s := if s.phase = 7 then s else ldrPhase 7 (ldrUndo (ldrStop s))
      { s with ldr := { s.ldr with escal := true } }
    else s
  | _ => s

/-- DEV_ESC_COUNT (R42). -/
def escCount (s : State) : Nat := min 3 (recent s.now s.escAt).length

end Sys2Proof.Machine
end

