-- ==== Sys2Proof/Machine/MgtCore.lean ====
section
/-!
DEFINITION. The management engines behind registers (R664 to R677): privilege and its log, interrupts' rearm, the I2C and MDIO
masters, the event counters' clear, and the tally dumps.
-/

namespace Sys2Proof.Machine

/-- The code of a master in LAST_MASTER (R24, R645). -/
def masterCode : BusMaster → Nat
  | .pcie => 0
  | .spi => 1
  | .mmp => 2
  | .loader => 3

/-- The privilege level a master holds: 0 OBSERVE, 1 OPERATE, 2 ADMIN (R645, R680). -/
def privOf (s : State) : BusMaster → Nat
  | .pcie => s.get MGT_PRIV_PCIE
  | .spi => s.get MGT_PRIV_SPI
  | .mmp => s.get MGT_PRIV_MMP
  | .loader => 2

/-- The masters that are served in the present state (R41, R645, R652). -/
def served (s : State) : BusMaster → Bool
  | .mmp => s.running
  | .loader => s.dev = .loading
  | _ => s.dev = .loading || s.dev = .running || s.dev = .safeMode

/-- A refused write is logged (R647). -/
def privLog (m : BusMaster) (a : Nat) (s : State) : State :=
  let s := s.ev MGT_EVENT_PRIV
  if s.on MGT_PRIV_LOG_VALID then s.ev MGT_PRIV_LOG_OVERFLOW
  else (((s.put MGT_PRIV_LOG_ADDR a).put MGT_PRIV_LOG_MASTER (masterCode m)).put MGT_PRIV_LOG_LEVEL (privOf s m)).ev MGT_PRIV_LOG_VALID

/-! ### MSI-X (R651, R665; masking and pending as the PCI Express Base Specification has them, PRESUMED, log entry 144) -/

/-- Vector `v` is masked: by its own mask bit or by the function's. -/
def vecMasked (s : State) (v : Nat) : Bool := s.mgt.msixMask || s.mgt.vecMask.testBit v

/-- Messages can be sent: MSI-X is enabled, and the endpoint may write host memory. -/
def msixRuns (s : State) : Bool := s.mgt.msixEn && s.mgt.bme

/-- Vector `v` sends its message, or, masked, is pending. -/
def msixFire (v : Nat) (s : State) : State :=
  if !msixRuns s then s
  else if vecMasked s v then { s with mgt := { s.mgt with vecPend := s.mgt.vecPend ||| 2 ^ v } }
  else s.send (.msix v)

/-- The pending vectors that are no longer masked send their message. -/
def msixRelease (s : State) : State :=
  if !msixRuns s then s
  else forEach ((bitsOf 32 s.mgt.vecPend).filter (fun v => !vecMasked s v)) (fun v s =>
    ({ s with mgt := { s.mgt with vecPend := s.mgt.vecPend &&& (0xFFFFFFFF - 2 ^ v) } } : State).send (.msix v)) s

/-- MGT_IRQ_REARM is written: each named vector whose OR reads 1 sends again (R665). -/
def irqRearm (v : Nat) (s : State) : State :=
  forEach ((bitsOf 32 v).filter (vecsHigh s).contains) msixFire s

/-! ### Optical-module management (R667, R668) -/

/-- The bytes of I2C master `b`'s data words from the first on. -/
def i2cBytes (s : State) (b n : Nat) : List Byte :=
  ((List.range 32).map (fun j => leBytes 4 (s.get (MGT_I2C_DATA_V b j)))).flatten.take n

/-- A list cut into parts of at most eight, each with its place; `fuel` bounds the parts. -/
def eights (o : Nat) : Nat → List Byte → List (Nat × List Byte)
  | 0, _ => []
  | fuel + 1, l => if l.isEmpty then [] else (o, l.take 8) :: eights (o + 8) fuel (l.drop 8)

/-- GO of I2C master `b`: the switch, the page, the transfer, in that order.  A master whose EN is 0 drives nothing (log entry 51). -/
def i2cGo (b : Nat) (s : State) : State :=
  if !s.on (MGT_I2C_CFG_EN b) || s.on (MGT_I2C_STATUS_BUSY b) then s
  else
    let fast := s.on (MGT_I2C_CFG_FAST b)
    let pause := s.get (MGT_I2C_CFG_WR_WAIT b)
    let dev := s.get (MGT_I2C_CMD_DEV b)
    let off := s.get (MGT_I2C_CMD_OFFSET b)
    let byte := fun (n : Nat) => (BitVec.ofNat 8 n : Byte)
    let s := (s.put (MGT_I2C_STATUS_BUSY b) 1).put (MGT_I2C_CMD_GO b) 1
    let s := if s.on (MGT_I2C_CFG_MUX_EN b) then
        s.send (.i2c b fast (s.get (MGT_I2C_CFG_MUX_ADDR b)) [byte (2 ^ s.get (MGT_I2C_CMD_MUX_CH b))] 0) else s
    let s := if s.on (MGT_I2C_CMD_PAGE_EN b) then s.send (.i2c b fast dev [byte 127, byte (s.get (MGT_I2C_CMD_PAGE b))] 0) else s
    if s.on (MGT_I2C_CMD_WRITE b) then
      forEach (eights off 16 (i2cBytes s b (s.get (MGT_I2C_LEN_V b)))) (fun x s => s.send (.i2c b fast dev (byte x.1 :: x.2) pause)) s
    else s.send (.i2cRead b fast dev off (s.get (MGT_I2C_LEN_V b)))

/-- The command of I2C master `b` ends with a result, so many bytes transferred. -/
def i2cEnd (b code n : Nat) (s : State) : State :=
  if !s.on (MGT_I2C_STATUS_BUSY b) then s
  else
    let s := ((s.put (MGT_I2C_STATUS_BUSY b) 0).put (MGT_I2C_CMD_GO b) 0).put (MGT_I2C_STATUS_RESULT b) code
    let s := (s.put (MGT_I2C_STATUS_BYTES b) n).ev MGT_EVENT_MOD_DONE
    if code = 0 then s else s.ev MGT_EVENT_MOD_ERR

/-- The bytes read stand in the data words. -/
def i2cStore (b : Nat) (l : List Byte) (s : State) : State :=
  forEach (l.zipIdx.take 128) (fun x s => s.put ⟨MGT_I2C_DATA b (x.2 / 4), 8 * (x.2 % 4), 8⟩ x.1.toNat) s

/-- The command ends on the bus, with the bytes transferred. -/
def i2cDone (b : Nat) (r : I2cResult) (data : List Byte) (s : State) : State :=
  let busy := s.on (MGT_I2C_STATUS_BUSY b)
  let n := min data.length (s.get (MGT_I2C_LEN_V b))
  let s := if busy && !s.on (MGT_I2C_CMD_WRITE b) then i2cStore b (data.take n) s else s
  let s := if busy ∧ r = .busStuck then s.send (.i2cFree b) else s
  i2cEnd b (match r with | .ok => 0 | .nack => 1 | .busStuck => 3) n s

/-- The clock is stretched for more than 25 ms (R667): TIMEOUT; how many bytes were transferred, and which, is open. -/
def i2cTimeout (b : Nat) (s : State) : State :=
  if !s.on (MGT_I2C_STATUS_BUSY b) then s
  else
    let f := s.fresh
    let n := Config.i2cCount f.1 % (s.get (MGT_I2C_LEN_V b) + 1)
    i2cEnd b 2 n (if s.on (MGT_I2C_CMD_WRITE b) then f.2 else i2cStore b ((List.range n).map (Config.i2cByte f.1)) f.2)

/-- GO of the MDIO master (R668). -/
def mdioGo (s : State) : State :=
  if s.on MGT_MDIO_STATUS_BUSY then s
  else
    let s := (s.put MGT_MDIO_STATUS_BUSY 1).put MGT_MDIO_CMD_GO 1
    s.send (.mdio (s.get MGT_MDIO_CFG_DIV) (s.get MGT_MDIO_CMD_OP) (s.get MGT_MDIO_CMD_PHYAD) (s.get MGT_MDIO_CMD_REGAD) (s.get MGT_MDIO_CMD_DATA))

/-- The MDIO frame ends; a read returns its data (R668, R681, R684). -/
def mdioDone (data : Nat) (s : State) : State :=
  if !s.on MGT_MDIO_STATUS_BUSY then s
  else
    let op := s.get MGT_MDIO_CMD_OP
    let s := ((s.put MGT_MDIO_STATUS_BUSY 0).put MGT_MDIO_CMD_GO 0).ev MGT_EVENT_MOD_DONE
    if op = 1 ∨ op = 4 then s.put MGT_MDIO_STATUS_RDATA data else s

/-! ### Event counters and tally dumps (R674 to R677) -/

/-- Every counter and every OVF bit becomes zero (R674). -/
def pmcClear (s : State) : State :=
  (forEach (List.range 64) (fun n s => s.putWide (PMC_CNT n) 0) s).putWide PMC_OVF 0

/-- PAUSED: dumps are enabled and withheld because the stage is SHED1 or deeper (R675). -/
def dumpPaused (s : State) : Bool := s.on PMC_DUMP_CTRL_EN && s.stage != 0

/-- The words of a counter in a record (R676): its value, EN and OVF. -/
def dumpCounter (s : State) (n : Nat) : List Nat :=
  let v := s.wide (PMC_CNT n) % 2 ^ 48
  let ovf := (s.wide PMC_OVF).testBit n
  [v % 2 ^ 32, v / 2 ^ 32 + s.get (PMC_CNT_CFG_EN n) * 2 ^ 30 + (if ovf then 2 ^ 31 else 0)]

/-- The words of a tally-dump record (R676). -/
def dumpRecord (s : State) (now : Bool) : List Nat :=
  let t := tb96Of s.tb.count
  let flags := s.tbState + (if s.mgt.resumed then 4 else 0) + (if now then 8 else 0)
  [0x4B544C59, s.get PMC_DUMP_SEQ_V, t % 2 ^ 32, t / 2 ^ 32 % 2 ^ 32, t / 2 ^ 64, s.get TB_EPOCH_V,
    flags + 2 ^ 16 * min s.mgt.lost 65535, 0] ++ ((List.range 64).map (dumpCounter s)).flatten

/-- A record is lost: replaced or dropped (R677). -/
def dumpLost (s : State) : State :=
  let s := (s.count PMC_DUMP_LOST_V).ev PMC_EVENT_DUMP_LOST
  { s with mgt := { s.mgt with lost := s.mgt.lost + 1 } }

/-- A record is written: losses count anew. -/
def dumpWritten (s : State) : State :=
  let s := s.ev PMC_EVENT_DUMP
  { s with mgt := { s.mgt with lost := 0 } }

/-- A snapshot is taken and its record goes to its ring (R675, R677); it is the one that carries RESUMED, written or lost. -/
def dumpSnapshot (now : Bool) (s : State) : State :=
  let rec_ := dumpRecord s now
  let s := s.count PMC_DUMP_SEQ_V
  let s : State := { s with mgt := { s.mgt with resumed := false } }
  if !s.on PMC_DUMP_CTRL_DEST then
    let k := s.get PMC_DUMP_STATUS_CHIP_WR
    let full := s.bytesLE (dumpSlot k) 4 == 0x4B544C59
    let s := dumpWritten s
    let s := forEach rec_.zipIdx (fun x s => s.storeLE (dumpSlot k + 4 * x.2) 4 x.1) s
    let s := s.put PMC_DUMP_STATUS_CHIP_WR ((k + 1) % 120)
    if full then dumpLost s else s
  else
    let size := s.get PMC_DUMP_HOST_SIZE_V
    let wr := s.get PMC_DUMP_HOST_WR_V
    if !s.mgt.bme || (wr + 1) % size == s.get PMC_DUMP_HOST_RD_V then dumpLost s
    else ((dumpWritten s).put PMC_DUMP_HOST_WR_V ((wr + 1) % size)).send (.dump (s.wide PMC_DUMP_HOST_BASE + 544 * wr) rec_)

/-- A snapshot falls due (R675). -/
def dumpDue (s : State) : State := if s.on PMC_DUMP_CTRL_EN && s.stage == 0 then dumpSnapshot false s else s

/-- NOW is written 1 (R675): no snapshot in SHED1 or deeper; EN governs the periodic ones alone (DEDUCED, log entry 175). -/
def dumpNow (s : State) : State := if s.stage == 0 then dumpSnapshot true s else s

end Sys2Proof.Machine
end

