-- ==== Sys2Proof/Machine/RegRules.lean ====
section
/-!
DEFINITION. The rules a register write meets (R17, R47, R647, R679, R708 and the register section of every chapter): who may make it,
which values are out of range, which fields are protected while their object runs, which combination it would create.
-/

namespace Sys2Proof.Machine

/-- A write as it meets the rules: master, register, indices, base address, reset value, the value before, the value it would leave, and
the ones it carries. -/
structure RegWrite where
  m : BusMaster
  id : RegId
  i : Nat
  j : Nat
  addr : Nat
  reset : Nat
  old : Nat
  new : Nat
  v : Nat

/-- A field of the register inside one of its values. -/
def RegWrite.field (r : RegWrite) (x : Nat) (f : Fld) : Nat := x / 2 ^ (f.lsb + 8 * (f.reg.addr - r.addr)) % 2 ^ f.width

/-- What the field held. -/
def RegWrite.was (r : RegWrite) (f : Fld) : Nat := r.field r.old f

/-- What the write would leave in the field. -/
def RegWrite.now (r : RegWrite) (f : Fld) : Nat := r.field r.new f

/-- The write would change one of the fields (R708). -/
def RegWrite.changes (r : RegWrite) (l : List Fld) : Bool := l.any (fun f => r.was f != r.now f)

/-- The write starts the action of an RWS field (R17). -/
def RegWrite.acts (r : RegWrite) (f : Fld) : Bool := r.field r.v f != 0 && r.was f == 0

/-- The write moves a field from 0 to 1, or from 1 to 0. -/
def RegWrite.sets (r : RegWrite) (f : Fld) : Bool := r.was f == 0 && r.now f != 0
def RegWrite.clears (r : RegWrite) (f : Fld) : Bool := r.was f != 0 && r.now f == 0

/-- The register as the write would leave it (one word wide). -/
def RegWrite.after (r : RegWrite) (s : State) : State :=
  s.setWord ⟨r.addr, BitVec.ofNat 32 r.reset⟩ (BitVec.ofNat 32 r.new)

/-! ### Privilege (R646, R647) -/

/-- The registers that only an ADMIN master writes. -/
def adminOnly : RegId → Bool
  | .GLB_CTRL | .REF_CTRL | .DCO_CTRL | .TB_CTRL | .TB_POLICY | .TB_STEP_THRESH | .FM_CTRL | .FM_DOM_CFG | .FWD_CTRL
  | .QM_RESERVE | .QM_SPILL_CFG | .POOL_SHARE_MASK | .XC_CTRL | .ECC_CTRL | .ECC_INIT_DONE | .PAIR_CTRL | .PWR_CTRL
  | .LDR_CFG | .LDR_HOST_CTRL | .MGT_PRIV | .MGT_MMP_CFG | .MGT_MMP_KEY | .MGT_MMP_LAST_SEQ => true
  | _ => false

/-- A write of a lower level would change a field reserved for ADMIN: the band of R60, a command on pools 0 to 3 (R442). -/
def adminPart (r : RegWrite) : Bool :=
  match r.id with
  | .SYN_BAND_STORE => r.changes [SYN_BAND_STORE_BAND]
  | .POOL_CMD => r.acts POOL_CMD_GO && decide (r.now POOL_CMD_POOL < 4)
  | _ => false

/-! ### Deferred enables (R627) -/

/-- The fields the loader holds back until END. -/
def deferredMask : RegId → Nat
  | .LN_CTRL | .MAC_CFG | .FM_CTRL | .FM_DOM_CFG | .FM_SESS_CFG | .XC_CTRL | .XC_STREAM_CFG | .REF_ENS_CTRL | .PAIR_CTRL
  | .PPS_OUT_CFG => 1
  | .OUT_ENABLE => 0xFFF
  | _ => 0

/-! ### The error flags of the blocks -/

/-- CFG_ERR of the block an address lies in. -/
def cfgErr (a : Nat) (s : State) : State :=
  if a < 0x00110000 then s.ev SYN_EVENT_CFG_ERR
  else if a < 0x00200000 then s.ev OUT_EVENT_CFG_ERR
  else if a < 0x00300000 then s.ev REF_EVENT_CFG_ERR
  else if a < 0x00400000 then s.ev TB_EVENT_CFG_ERR
  else if a < 0x00450000 then s.ev (LN_EVENT_CFG_ERR ((a - 0x00400000) / 0x1000))
  else if a < 0x00460000 then s.ev (LN_QUAD_STATUS_CFG_ERR ((a - 0x00450000) / 0x10))
  else if a < 0x00800000 then s.ev (LN_RCS_CFG_CFG_ERR ((a - 0x00460000) / 4))
  else if a < 0x00C00000 then s.ev (MAC_EVENT_CFG_ERR ((a - 0x00800000) / 0x1000))
  else if a < 0x00D00000 then s.ev PHA_EVENT_CFG_ERR
  else if a < 0x01000000 then s.ev FM_EVENT_CFG_ERR
  else if a < 0x01400000 then s.ev FWD_EVENT_CFG_ERR
  else if a < 0x01800000 then s.ev QM_EVENT_CFG_ERR
  else if a < 0x01C00000 then s.ev POOL_EVENT_CFG_ERR
  else if a < 0x02000000 then s.ev XC_EVENT_CFG_ERR
  else if a < 0x02100000 then s.ev TIU_EVENT_CFG_ERR
  else if a < 0x02200000 then s.ev CAL_EVENT_CFG_ERR
  else if a < 0x02300000 then s.ev ECC_EVENT_CFG_ERR
  else if a < 0x02400000 then s.ev PAIR_EVENT_CFG_ERR
  else if a < 0x02500000 then s.ev PWR_EVENT_CFG_ERR
  else if a < 0x02600000 then s.ev LDR_EVENT_CFG_ERR
  else if a < 0x02700000 then s.ev MGT_EVENT_CFG_ERR
  else if a < 0x03000000 then s.ev PMC_EVENT_CFG_ERR
  else if a < 0x03600000 then s.ev FWD_EVENT_CFG_ERR
  else if a < 0x03F00000 then s.ev QM_EVENT_CFG_ERR
  else s.ev PMC_EVENT_CFG_ERR

/-- CFG_BUSY of the block an address lies in. -/
def cfgBusy (a : Nat) (s : State) : State :=
  if a < 0x00300000 then s.ev OUT_EVENT_CFG_BUSY
  else if a < 0x00450000 then s.ev (LN_EVENT_CFG_BUSY ((a - 0x00400000) / 0x1000))
  else if a < 0x00800000 then s.ev (LN_QUAD_STATUS_CFG_BUSY ((a - 0x00450000) / 0x10))
  else if a < 0x00C00000 then s.ev (MAC_EVENT_CFG_BUSY ((a - 0x00800000) / 0x1000))
  else if a < 0x00D00000 then s.ev PHA_EVENT_CFG_BUSY
  else if a < 0x01000000 then s.ev FM_EVENT_CFG_BUSY
  else if a < 0x01C00000 then s.ev QM_EVENT_CFG_BUSY
  else if a < 0x02000000 then s.ev XC_EVENT_CFG_BUSY
  else if a < 0x02300000 then s.ev TIU_EVENT_CFG_BUSY
  else if a < 0x02600000 then s.ev PAIR_EVENT_CFG_BUSY
  else if a < 0x02700000 then s.ev MGT_EVENT_CFG_BUSY
  else if a < 0x03000000 then s.ev PMC_EVENT_CFG_BUSY
  else s.ev QM_EVENT_CFG_BUSY

/-! ### Values out of range -/

/-- A value is among those listed; an empty list allows all. -/
def inRanges (l : List (Nat × Nat)) (x : Nat) : Bool := l.isEmpty || l.any (fun b => decide (b.1 ≤ x) && decide (x ≤ b.2))

/-- Every field a write may store holds a value its chapter allows. -/
def fieldsOk (fs : List FSpec) (x : Nat) : Bool := fs.all (fun f => inRanges f.ok (x / 2 ^ f.lsb % 2 ^ f.width))

/-- Two fields hold values that do not go together, or a value is out of range for the object's present mode.  At a write of
PPS_OUTn_CFG.EN = 1 the set that R114 judges is the one the write leaves, its own MODE with it, and only a rise of EN is judged (DESIGN
CHOICE, log entry 130). -/
def regBad (r : RegWrite) (s : State) : Bool :=
  let i := r.i
  match r.id with
  | .SYN_AUX_PLAN_CTL => auxPlanBad (r.now (SYN_AUX_PLAN_CTL_N_INT i r.j) * 2 ^ 32 + s.get (SYN_AUX_PLAN_FRAC_N_FRAC i r.j))
  | .SYN_AUX_PLAN_FRAC => auxPlanBad (s.get (SYN_AUX_PLAN_CTL_N_INT i r.j) * 2 ^ 32 + r.new)
  | .PPS_OUT_CFG => r.sets (PPS_OUT_CFG_EN i) && !ppsSetOk (r.after s) i
  | .PPS_OUT_PERIOD => !ppsPeriodOk (s.get (PPS_OUT_CFG_MODE i)) r.new
  | .PPS_OUT_WIDTH => !ppsWidthOk (s.get (PPS_OUT_CFG_MODE i)) (s.get (PPS_OUT_PERIOD_V i)) r.new
  | .HOLD_CFG => decide (4096 < r.now HOLD_CFG_WINDOW + r.now HOLD_CFG_GUARD)
  | .TB_INCR => s.hostOwns && !hostIncrOk r.new
  | .TB_HOST_STATE => !s.hostOwns || s.tbState == 0
  | .SCH_ACT_STATUS => i == 63 && s.pairState != .solo
  | .SCH_ACT_TIME | .SCH_ACT_PERIOD | .SCH_ACT_PARAM0 | .SCH_ACT_PARAM1 =>
    (i == 63 && s.pairState != .solo) || (s.on (SCH_ACT_CTRL_ARM i) && r.old != r.new)
  | .SCH_ACT_CTRL =>
    (i == 63 && s.pairState != .solo) ||
      (s.on (SCH_ACT_CTRL_ARM i) && r.field r.v (SCH_ACT_CTRL_DISARM i) == 0 &&
        r.changes [SCH_ACT_CTRL_TYPE i, SCH_ACT_CTRL_LATE_POLICY i])
  | .LN_CTRL => r.sets (LN_CTRL_TRAIN_EN i) && laneRate s i == 0
  | .LN_TX_PRESET => decide (63 < r.now (LN_TX_PRESET_PRE i) + r.now (LN_TX_PRESET_MAIN i) + r.now (LN_TX_PRESET_POST i))
  | .LN_QUAD_CFG => s.get (SYN_QPLL_PLAN_N i (r.now (LN_QUAD_CFG_PLAN i))) != rateN (r.now (LN_QUAD_CFG_RATE i))
  | .FM_DOM_CFG =>
    let d := r.now (FM_DOM_CFG_DOMAIN_NUMBER i)
    (if r.now (FM_DOM_CFG_PROFILE i) = 3 then decide (d < 24) || decide (43 < d) else decide (127 < d)) ||
      (r.now (FM_DOM_CFG_EN i) != 0 && !(r.was (FM_DOM_CFG_EN i) != 0 && r.old != r.new) && domRefused (r.after s) i)
  | .QM_REFILL => decide (r.now QM_REFILL_HIGH < r.now QM_REFILL_LOW + 16)
  | .QM_RED_MIN => decide (s.get (QM_RED_MAX_V i r.j) < r.new)
  | .QM_RED_MAX => decide (r.new < s.get (QM_RED_MIN_V i r.j))
  | .QM_Q_IDLE_SLOPE => decide (rateKbps (s.rate (i / 8)) < r.new)
  | .POOL_SIZE =>
    r.old != r.new && (s.on (POOL_CFG_EN i) ||
      decide (2 ^ 24 < ((List.range 12).map (fun k => if k + 4 = i then r.new else s.get (POOL_SIZE_V (k + 4)))).sum))
  | .XC_STREAM_CFG => r.now (XC_STREAM_CFG_INGRESS i) == r.now (XC_STREAM_CFG_EGRESS i)
  | _ => false

/-! ### Fields protected while their object runs (R708) -/

/-- A list of a port's gates is the operational one; one of the two always is (R424, R448, R449). -/
def listOperational (s : State) (p l : Nat) : Bool := s.get (QM_PORT_GATE_OPER_LIST p) == l

/-- The write would change a field that is protected at present; the address names the block whose CFG_BUSY says so. -/
def regBusy (r : RegWrite) (s : State) : Option Nat :=
  let i := r.i
  let here := fun (c : Bool) (l : List Fld) => if c && r.changes l then some r.addr else none
  let any_ := fun (c : Bool) => if c && r.old != r.new then some r.addr else none
  let pair := fun (c : Bool) => if c && s.on PAIR_CTRL_EN then some 0x02300000 else none
  match r.id with
  | .OUT_CFG => here (s.bit OUT_ENABLE_EN i) [OUT_CFG_DIV_M1 i, OUT_CFG_SRC i, OUT_CFG_STD i]
  | .TB_CTRL => pair (r.changes [TB_CTRL_STEER_SRC])
  | .LN_CTRL => here (laneState s i != 0) [LN_CTRL_TX_POL_INV i, LN_CTRL_RX_POL_INV i]
  | .LN_TX_PRESET | .LN_USER_PAT => any_ (laneState s i != 0)
  | .LN_PRBS_CTRL => if r.sets (LN_PRBS_CTRL_GEN_EN i) && portState s (laneOwner s i) != 0 then some r.addr else none
  | .LN_QUAD_CFG => here ((pllLanes i).any (fun n => laneState s n != 0)) [LN_QUAD_CFG_RATE i, LN_QUAD_CFG_PLAN i]
  | .MAC_CFG =>
    match pair (i == 65 && r.clears (MAC_CFG_EN i)) with
    | some a => some a
    | none => here (portState s i != 0) [MAC_CFG_FEC i, MAC_CFG_MAX_LEN i]
  | .PHA_CH_CFG => any_ (i == 78 && s.on CAL_STATUS_CH78_BUSY)
  | .FM_DOM_CFG =>
    match pair (i == pairDom s && r.clears (FM_DOM_CFG_EN i)) with
    | some a => some a
    | none => here (s.on (FM_DOM_CFG_EN i)) [FM_DOM_CFG_DOMAIN_NUMBER i, FM_DOM_CFG_PROFILE i, FM_DOM_CFG_ROLE i, FM_DOM_CFG_SLAVE_ONLY i,
        FM_DOM_CFG_AUTO_CLASS i]
  | .FM_SESS_CFG =>
    match pair (pairSess s == some i && r.clears (FM_SESS_CFG_EN i)) with
    | some a => some a
    | none => if sessState s i != 3 && r.old / 2 != r.new / 2 then some r.addr else none
  | .QM_SPILL_CFG => any_ (s.get QM_SPILL_STATUS_STATE == 1 || !(allocated s 1).isEmpty)
  | .QM_PORT_LIST_CYCLE | .QM_PORT_LIST_COUNT => any_ (listOperational s i r.j)
  | .XC_PORT_CFG => any_ (portState s i != 0)
  | .XC_STREAM_CFG => if r.was (XC_STREAM_CFG_EN i) != 0 && r.old / 2 != r.new / 2 then some r.addr else none
  | .XC_STREAM_MAX_LEN => any_ (s.on (XC_STREAM_CFG_EN i))
  | .TIU_CFG | .TIU_N | .TIU_START_TO | .TIU_WIN_OPEN | .TIU_WIN_CLOSE => any_ (s.on TIU_CTRL_ARM)
  | .PAIR_CTRL =>
    here (r.was PAIR_CTRL_EN != 0) [PAIR_CTRL_MATE_SLOT_EN, PAIR_CTRL_MATE_SLOT, PAIR_CTRL_DOMAIN, PAIR_CTRL_REVERTIVE]
  | .MGT_RING_BASE | .MGT_RING_SIZE => any_ (s.on (MGT_RING_EN_V i))
  | .PMC_DUMP_CTRL => here (r.was PMC_DUMP_CTRL_EN != 0) [PMC_DUMP_CTRL_DEST]
  | _ => none

/-! ### Forbidden combinations an object in service would meet (R47) -/

/-- The codes of installed streams at ports that satisfy `p` that arise with the write: (code, kind, object). -/
def streamErrs (s s' : State) (p : Nat → Bool) : List (Nat × Nat × Nat) :=
  ((installed s).filter (fun n => p (s.get (XC_STREAM_CFG_INGRESS n)) || p (s.get (XC_STREAM_CFG_EGRESS n)))).flatMap (fun n =>
    let codes := fun (t : State) => xcErrors t (s.get (XC_STREAM_CFG_TC n)) (s.get (XC_STREAM_CFG_INGRESS n)) (s.get (XC_STREAM_CFG_EGRESS n))
    ((codes s').filter (fun c => !(codes s).contains c)).map (fun c => (c, 4, n)))

/-- The code MC21 of committed sessions at ports that satisfy `p` that arises with the write (R234). -/
def sessErrs (s s' : State) (p : Nat → Bool) : List (Nat × Nat × Nat) :=
  ((committed s).filter (fun k => p (sessPort s k) && s'.portExists (sessPort s k) &&
    (sessForbidden s' k).contains 21 && !(sessForbidden s k).contains 21)).map (fun k => (21, 3, k))

/-- The codes of a port in service that arise with the write; a port that the write makes vanish has none (R15). -/
def portErrs (s s' : State) (p : Nat) : List (Nat × Nat × Nat) :=
  if s.portExists p && s'.portExists p && portState s p != 0 then
    ((portErrors s' p).filter (fun c => !(portErrors s p).contains c)).map (fun c => (c, 0, p))
  else []

/-- What the write would create (R47): codes with their objects. -/
def regModes (r : RegWrite) (s : State) : List (Nat × Nat × Nat) :=
  let i := r.i
  match r.id with
  | .REF_ENS_MEMBER => if s.on REF_ENS_CTRL_EN && r.old != r.new then [(24, 5, 0)] else []
  | .LN_CTRL =>
    if r.changes [LN_CTRL_CLOCK_REQ i] then
      let p := laneOwner s i
      portErrs s (r.after s) p ++
        (if r.clears (LN_CTRL_CLOCK_REQ i) then
          sessErrs s (r.after s) (fun q => q == p) ++
            (if i = 64 ∧ s.on PAIR_CTRL_EN then [(6, 6, 0)] else [])
        else [])
    else []
  | .LN_QUAD_CFG =>
    let s' := r.after s
    ((List.range 4).map (fun k => portErrs s s' (4 * i + k))).flatten ++ streamErrs s s' (fun p => p / 4 == i) ++
      sessErrs s s' (fun p => p / 4 == i)
  | .MAC_CFG => if i = 65 ∧ s.on (LN_CTRL_EN 64) ∧ r.was (MAC_CFG_FEC i) = 0 ∧ r.now (MAC_CFG_FEC i) ≠ 0 then [(5, 1, 64)] else []
  | .QM_PORT_GATE =>
    if r.clears (QM_PORT_GATE_EN i) then
      ((installed s).filter (fun n => s.get (XC_STREAM_CFG_EGRESS n) == i)).map (fun n => (12, 4, n))
    else []
  | .XC_PORT_CFG => streamErrs s (r.after s) (fun p => p == i)
  | _ => []

end Sys2Proof.Machine
end

