-- ==== Sys2Proof/Machine/RegHooks.lean ====
section
/-!
DEFINITION. What a register write that stands does beyond storing its fields: one clause per register, over the operations of the
blocks.  The fields are stored before; an enable that its block stores itself is first put back.
-/

namespace Sys2Proof.Machine

/-- A field returns to what it held before the write. -/
def RegWrite.back (r : RegWrite) (f : Fld) (s : State) : State := s.put f (r.was f)

/-- XC_STREAMs_CFG.EN written 1: the stream is installed, or refused (R457, R459). -/
def xcInstall (n : Nat) (s : State) : State :=
  let tc := s.get (XC_STREAM_CFG_TC n)
  let e := s.get (XC_STREAM_CFG_EGRESS n)
  match xcErrors s tc (s.get (XC_STREAM_CFG_INGRESS n)) e with
  | [] => xcRefresh n (xcAddClass e tc (s.put (XC_STREAM_CFG_EN n) 1))
  | codes => modeErrs (codes.map (fun c => (c, 4, n))) s

/-- XC_STREAMs_CFG.EN written 0: the stream is IDLE and leaves its class (R459). -/
def xcUninstall (n : Nat) (s : State) : State :=
  let s := ((s.put (XC_STREAM_CFG_EN n) 0).put (XC_STREAM_STATUS_STATE n) 0).put (XC_STREAM_STATUS_COARSE n) 0
  xcDropClass (s.get (XC_STREAM_CFG_EGRESS n)) (s.get (XC_STREAM_CFG_TC n)) s

/-- QM_PORTp_GATE.EN changed: every gate open until the first GATE_SWAP (R428, R448). -/
def gateEnabled (p : Nat) (s : State) : State := xcRefreshAll (gateRefresh p (s.put (QM_PORT_GATE_OPER_VALID p) 0))

/-- QM_SPILL_CFG.EN changed: initialisation starts, or the spill DRAM and pool 1 are off (R413, R420). -/
def spillEnabled (en : Bool) (s : State) : State :=
  let s := s.put QM_SPILL_STATUS_CAUSE 0
  if en then s.put QM_SPILL_STATUS_STATE 1 else pool1Set 0 (s.put QM_SPILL_STATUS_STATE 0)

/-- REF_SLOTn_CFG is written: EN, PRIO and QUAL enter the choice at once; a slot enabled on, or moved to, a source
that is not there is lost (R115, R153). -/
def slotWritten (r : RegWrite) (s : State) : State :=
  let n := r.i
  let was := r.was (REF_SLOT_CFG_EN n) != 0 && !mateMasked s n
  let s := slotEnFollow was n s
  selectorDecide (if (!was ∨ r.changes [REF_SLOT_CFG_TSRC n]) ∧ !slotFed s n then refGone n s else s)

/-- The bits above the 34 of a DCO value repeat its sign (R163, R164). -/
def dcoExtend (w : Wide) (s : State) : State := s.putWidei w (signed 34 (s.wide w))

/-- TB_CTRL is written: the effective owner and the source follow (R172, R354). -/
def tbCtrlWritten (r : RegWrite) (s : State) : State :=
  let s := r.back TB_CTRL_STEER_SRC (r.back TB_CTRL_STEER_OWNER s)
  let was := s.hostOwns
  steerChange (r.now TB_CTRL_STEER_SRC) (ownerChanged was (s.put TB_CTRL_STEER_OWNER (r.now TB_CTRL_STEER_OWNER)))

/-- SCH_ACTn_CTRL is written: DISARM governs ARM (R191, R196). -/
def actWritten (r : RegWrite) (s : State) : State :=
  let n := r.i
  if r.field r.v (SCH_ACT_CTRL_DISARM n) ≠ 0 then
    actDisarm n (if r.was (SCH_ACT_CTRL_ARM n) ≠ 0 then r.back (SCH_ACT_CTRL_TYPE n) (r.back (SCH_ACT_CTRL_LATE_POLICY n) s) else s)
  else if r.acts (SCH_ACT_CTRL_ARM n) then actArm n s.nextCount s
  else s

/-- LN_CTRL is written (R211, R212, R228). -/
def laneWritten (r : RegWrite) (s : State) : State :=
  let n := r.i
  let s := r.back (LN_CTRL_EN n) s
  let s := if r.sets (LN_CTRL_EN n) then laneOn n s else if r.clears (LN_CTRL_EN n) then laneDisable n s else s
  if r.changes [LN_CTRL_CLOCK_REQ n] then clockReqWritten n s else s

/-- LN_PRBS_CTRL is written (R241 to R243): a generator that is enabled, or takes another pattern, starts it; a checker whose pattern
changes looks for it anew, and rate injection counts from its enable (log entry 135). -/
def prbsWritten (r : RegWrite) (s : State) : State :=
  let n := r.i
  let pattern := r.changes [LN_PRBS_CTRL_PATTERN n, LN_PRBS_CTRL_SQ_HALF n]
  let s := if r.sets (LN_PRBS_CTRL_GEN_EN n) ∨ pattern then genStart n s else s
  let s := if r.sets (LN_PRBS_CTRL_INJ_EN n) then
      s.setLane n { s.laneRec n with gen := { (s.laneRec n).gen with n := 0 } } else s
  let s := if r.now (LN_PRBS_CTRL_CHK_EN n) = 0 ∨ pattern then
      (s.setLane n { s.laneRec n with chk := {} }).put (LN_PRBS_STATUS_CHK_LOCK n) 0 else s
  if r.field r.v (LN_PRBS_CTRL_INJ_SINGLE n) ≠ 0 then injectBit n s else s

/-- MAC_CFG is written (R258 to R260). -/
def portWritten (r : RegWrite) (s : State) : State :=
  let p := r.i
  let s := r.back (MAC_CFG_EN p) s
  if r.sets (MAC_CFG_EN p) then portOn p s else if r.clears (MAC_CFG_EN p) then portOff p s else s

/-- FM_CTRL is written (R329, R357). -/
def ferryWritten (r : RegWrite) (s : State) : State :=
  let s := r.back FM_CTRL_EN s
  let s := if r.now FM_CTRL_EN ≠ 0 then ferryEnable true s else if r.was FM_CTRL_EN ≠ 0 then ferryEnable false s else s
  if r.field r.v FM_CTRL_RESET ≠ 0 ∧ !s.on FM_STATUS_RESETTING then blockReset s else s

/-- FM_DOMd_CFG is written (R327, R329). -/
def domWritten (r : RegWrite) (s : State) : State :=
  let d := r.i
  let s := r.back (FM_DOM_CFG_EN d) s
  if r.now (FM_DOM_CFG_EN d) ≠ 0 then domEnable d true s
  else if r.was (FM_DOM_CFG_EN d) ≠ 0 then domEnable d false s
  else s

/-- FM_SESSs_CFG is written (R329, R330). -/
def sessWritten (r : RegWrite) (s : State) : State :=
  let k := r.i
  let s := r.back (FM_SESS_CFG_EN k) s
  if r.now (FM_SESS_CFG_EN k) ≠ 0 then sessEnable k true s
  else if r.was (FM_SESS_CFG_EN k) ≠ 0 then sessEnable k false s
  else s

/-- XC_STREAMs_CFG is written. -/
def streamWritten (r : RegWrite) (s : State) : State :=
  let n := r.i
  let s := r.back (XC_STREAM_CFG_EN n) s
  if r.sets (XC_STREAM_CFG_EN n) then xcInstall n s else if r.clears (XC_STREAM_CFG_EN n) then xcUninstall n s else s

/-- PAIR_CTRL is written (R562, R581). -/
def pairWritten (r : RegWrite) (s : State) : State :=
  let s := r.back PAIR_CTRL_EN s
  let s := if r.now PAIR_CTRL_EN ≠ 0 then pairEnable s else if r.was PAIR_CTRL_EN ≠ 0 then pairDisable s else s
  if r.field r.v PAIR_CTRL_HO_REQ ≠ 0 then hoWrite s else s

/-- A queue's shaper is written: its credit stands as counted under the old values (R423). -/
def shaperWritten (r : RegWrite) (f : Fld) (s : State) : State :=
  let now := s.get f
  let s := creditSync r.i (s.put f (r.was f))
  let s := s.setQueue r.i { s.queueRec r.i with creditAt := max (s.queueRec r.i).creditAt s.nowPs }
  s.put f now

/-- A plan word of an aux is written: BAND_VALID clears where N_INT or N_FRAC changed (R79). -/
def auxPlanWritten (r : RegWrite) (f : Fld) (s : State) : State :=
  if r.changes [f] then s.put (SYN_AUX_PLAN_CTL_BAND_VALID r.i r.j) 0 else s

/-- OUT_ZDBn.EN is written 0: the DLL reports nothing (R91, R92). -/
def zdbWritten (n : Nat) (s : State) : State :=
  let s := if s.on (OUT_ZDB_EN n) then s
    else ((s.put (OUT_STATUS_ZDB_LOCKED n) 0).put (OUT_STATUS_FB_LOST n) 0).setOut n { s.outRec n with zdbGood := 0 }
  outStatus n s

/-- What the write of a register does beyond its storing. -/
def regEffect (r : RegWrite) (s : State) : State :=
  let i := r.i
  match r.id with
  | .GLB_MODE_ERR => if r.clears GLB_MODE_ERR_VALID then s.setWord GLB_MODE_ERR 0 else s
  | .GLB_CTRL => if r.acts GLB_CTRL_RELOAD then reloadAsked s else s
  | .SYN_DITHER => if r.acts SYN_DITHER_RESEED then ditherLoad s else s
  | .SYN_AUX_CFG => auxWritten i (r.was (SYN_AUX_CFG_EN i) != 0) (r.was (SYN_AUX_CFG_PLAN_SEL i)) s
  | .SYN_AUX_PLAN_CTL => auxPlanWritten r (SYN_AUX_PLAN_CTL_N_INT i r.j) s
  | .SYN_AUX_PLAN_FRAC => auxPlanWritten r (SYN_AUX_PLAN_FRAC_N_FRAC i r.j) s
  | .SYN_QPLL_PLAN => if r.changes [SYN_QPLL_PLAN_N i r.j] ∧ s.get (LN_QUAD_CFG_PLAN i) = r.j then planWritten i s else s
  | .OUT_CFG => outStatus i (if r.changes [OUT_CFG_SRC i] then outSetCode i s else s)
  | .OUT_PHASE => outStatus i (outStopped i s)
  | .OUT_ZDB => zdbWritten i s
  | .OUT_ENABLE => (clkoutSet 0xFFF r.new (r.back OUT_ENABLE_EN s)).1
  | .PPS_OUT_CFG =>
    let s := (ppsoutSet (2 ^ i) (r.now (PPS_OUT_CFG_EN i) * 2 ^ i) (ppsWritten i (r.back (PPS_OUT_CFG_EN i) s))).1
    s
  | .PPS_OUT_PERIOD | .PPS_OUT_WIDTH | .PPS_OUT_OFFSET | .PPS_OUT_PATTERN => ppsWritten i s
  | .PPS_REALIGN => ppsRealign (r.field r.v PPS_REALIGN_REALIGN) s
  | .REF_CTRL => refCtrlWrite r.new (s.setWord REF_CTRL (BitVec.ofNat 32 r.old))
  | .REF_SLOT_CFG => slotWritten r s
  | .DPLL_CFG | .REF_SLOT_NOM => bwRefresh s
  | .DCO_CTRL => ownerChange (r.now DCO_CTRL_OWNER) (r.back DCO_CTRL_OWNER s)
  | .DCO_OFFSET => dcoExtend DCO_OFFSET s
  | .HOLD_FREERUN => dcoExtend HOLD_FREERUN s
  | .HOLD_FRAM_CFG =>
    if r.sets HOLD_FRAM_CFG_EN then { s with sel := { s.sel with readDue := true } } else s
  | .REF_ENS_CTRL => ensEnable (r.now REF_ENS_CTRL_EN != 0) (r.back REF_ENS_CTRL_EN s)
  | .TB_CTRL => tbCtrlWritten r s
  | .TB_HOST_STATE => tbHostState (r.now TB_HOST_STATE_REQ) s
  | .TB_STEP_CTRL => if r.v % 2 = 1 ∧ s.tb.hostStep.isNone then tbStepGo s else s
  | .TB_LOAD_CTRL => if r.v % 2 = 1 ∧ s.tb.load.isNone then tbLoadGo s else s
  | .TB_SNAP_CTRL => if r.field r.v TB_SNAP_CTRL_SW ≠ 0 then { s with tb := { s.tb with snapDue := true } } else s
  | .TB_INCR => s.put TB_STATUS_SLEW_CLAMP 0
  | .SCH_ACT_CTRL => actWritten r s
  | .LN_CTRL => laneWritten r s
  | .LN_PRBS_CTRL => prbsWritten r s
  | .LN_EYE_CTRL => if r.field r.v (LN_EYE_CTRL_START i) ≠ 0 ∧ (s.laneRec i).eye = 0 then eyeStart i s else s
  | .LN_QUAD_CFG => if r.changes [LN_QUAD_CFG_RATE i, LN_QUAD_CFG_PLAN i] then quadWritten i s else s
  | .LN_RCS_CFG => rcsWritten i (r.was (LN_RCS_CFG_LANE i)) (r.was (LN_RCS_CFG_EN i) != 0) s
  | .MAC_CFG => portWritten r s
  | .PHA_CH_CFG => chanRestart i s
  | .PHA_CH_DG => s.setPha i { s.phaRec i with hostAt := some s.clk }
  | .PHA_EVENT => fineRefreshAll s
  | .PHA_PORT_TRIM_RX | .PHA_PORT_TRIM_TX => s.count (PHA_PORT_STATUS_TRIM_GEN i)
  | .FM_CTRL => ferryWritten r s
  | .FM_JUMP_THRESH => jumpThreshWritten s
  | .FM_DOM_CFG => domWritten r s
  | .FM_DOM_DS | .FM_DOM_DS2 | .FM_DOM_QUAL => decideNote i s
  | .FM_SESS_CFG => sessWritten r s
  | .FWD_MAC_CMD =>
    if r.acts FWD_MAC_CMD_GO then
      (if r.now FWD_MAC_CMD_OP = 4 then flushDynamicGo s else macCommand s)
    else s
  | .QM_SPILL_CFG =>
    if r.changes [QM_SPILL_CFG_EN] then spillEnabled (r.now QM_SPILL_CFG_EN != 0) s else s
  | .QM_PORT_GATE => if r.changes [QM_PORT_GATE_EN i] then gateEnabled i s else s
  | .QM_Q_CFG => shaperWritten r (QM_Q_CFG_CBS_EN i) s
  | .QM_Q_IDLE_SLOPE => shaperWritten r (QM_Q_IDLE_SLOPE_V i) s
  | .QM_Q_HI_CREDIT => shaperWritten r (QM_Q_HI_CREDIT_V i) s
  | .QM_Q_LO_CREDIT => shaperWritten r (QM_Q_LO_CREDIT_V i) s
  | .POOL_ERR_LOG => if r.clears POOL_ERR_LOG_VALID then s.putWide POOL_ERR_LOG 0 else s
  | .POOL_CMD => if r.acts POOL_CMD_GO then poolCmd s else s
  | .POOL_CFG => if 4 ≤ i ∧ r.field r.v (POOL_CFG_EN i) ≠ 0 then poolEnable i s else s
  | .XC_CTRL => xcRefreshAll s
  | .XC_STREAM_CFG => streamWritten r s
  | .TIU_CTRL =>
    if r.field r.v TIU_CTRL_DISARM ≠ 0 then tiuDisarm s else if r.field r.v TIU_CTRL_ARM ≠ 0 then tiuArmWrite s else s
  | .TIU_CFG => if r.changes [TIU_CFG_BASE] then tiuBaseWritten s else s
  | .CAL_CFG => if r.clears (CAL_CFG_EN i) then calStop i s else s
  | .CAL_RUN => if r.v % 2 = 1 then calAsk i s else s
  | .ECC_CFG_STATUS => if r.clears ECC_CFG_STATUS_VALID then s.put ECC_CFG_STATUS_BASE 0 else s
  | .ECC_INJ => if r.acts ECC_INJ_ARM then s.put ECC_INJ_ARM 1 else s
  | .PAIR_CTRL => pairWritten r s
  | .FLT_MAJOR | .FLT_MINOR => alarmsPersist s
  | .LDR_HOST_CTRL => if r.field r.v LDR_HOST_CTRL_ABORT ≠ 0 then hostAbort s else s
  | .LDR_HOST_FIFO => fifoWrite r.m (BitVec.ofNat 32 r.v) s
  | .MGT_PRIV_LOG => if r.clears MGT_PRIV_LOG_VALID then s.putWide MGT_PRIV_LOG 0 else s
  | .MGT_IRQ_REARM => irqRearm r.v s
  | .MGT_DMA_CTRL => if r.changes [MGT_DMA_CTRL_EN] then portEval 64 s else s
  | .MGT_MMP_KEY => s.putB MGT_MMP_CFG_KEY_SET (r.new != 0)
  | .MGT_I2C_CMD => if r.acts (MGT_I2C_CMD_GO i) then i2cGo i s else s
  | .MGT_MDIO_CMD => if r.acts MGT_MDIO_CMD_GO then mdioGo s else s
  | .PMC_CTRL => if r.acts PMC_CTRL_CLEAR then pmcClear s else s
  | .PMC_DUMP_CTRL => if r.acts PMC_DUMP_CTRL_NOW then dumpNow s else s
  | _ => s

end Sys2Proof.Machine
end

