-- ==== Sys2Proof/Machine/Access.lean ====
section
/-!
DEFINITION. Accesses of the masters (R10 to R24, R625 to R628, R645 to R650, R687 to R690): where an address lies, reads with their
shadows and clears, writes with their staging, checks and effects.  An access answers the STATUS of R659: 0 OK, 1 PRIV,
2 UNMAPPED, 3 DISCARDED, 4 TIMEOUT.
-/

namespace Sys2Proof.Machine

/-! ### Places -/

/-- What lies at an address. -/
inductive Place where
  | unmapped
  | reserved
  | reg (h : RegHit)
  | table (r o : Nat)
  | ring

/-- The port a register word belongs to, and whether the words of P64 are reserved, or absent. -/
def hitPort (h : RegHit) : Option Nat :=
  match h.spec.id with
  | .MAC_CFG | .MAC_STATUS | .MAC_EVENT | .MAC_HOLD | .MAC_TS_RX_LAT | .MAC_TS_TX_LAT | .MAC_CNT0 | .MAC_CNT1 | .MAC_CNT2
  | .MAC_CNT3 | .MAC_C30 | .PHA_PORT_TRIM_RX | .PHA_PORT_TRIM_TX | .PHA_PORT_ASYM | .PHA_PORT_STATUS | .FM_PORT_MAC | .FM_PORT_IP4
  | .FM_PORT_IP6 | .FWD_PORT_CFG | .FWD_PORT_PCP2TC | .QM_PORT_GATE | .QM_PORT_LIST_CYCLE | .QM_PORT_LIST_COUNT | .QM_PORT_SWAPS
  | .XC_PORT_CFG | .XC_PORT_STATUS | .XC_PORT_CNT0 | .XC_PORT_CNT1 => some h.i
  | .QM_Q_CFG | .QM_Q_MIN | .QM_Q_QUANTUM | .QM_Q_SPILL_MAX | .QM_Q_IDLE_SLOPE | .QM_Q_HI_CREDIT | .QM_Q_LO_CREDIT | .QM_Q_STATUS
  | .QM_Q_CELLS | .QM_Q_PAGES | .QM_Q_AVG | .QM_Q_FRAMES | .QM_Q_CNT0 | .QM_Q_CNT1 | .QM_Q_CNT2 | .QM_Q_CREDIT => some (h.i / 8)
  | _ => none

/-- The words of P64 that their chapter names reserved (R316, R448). -/
def cpuReserved : RegId → Bool
  | .PHA_PORT_TRIM_RX | .PHA_PORT_TRIM_TX | .PHA_PORT_ASYM | .PHA_PORT_STATUS | .QM_PORT_GATE | .QM_PORT_LIST_CYCLE
  | .QM_PORT_LIST_COUNT | .QM_PORT_SWAPS => true
  | _ => false

/-- The words of P64 that do not exist (R369). -/
def cpuAbsent : RegId → Bool
  | .FM_PORT_MAC | .FM_PORT_IP4 | .FM_PORT_IP6 => true
  | _ => false

/-- What lies at an address (R15, R23, R687 to R690). -/
def placeOf (s : State) (a : Nat) : Place :=
  if a % 4 ≠ 0 then .unmapped
  else if 0x03000000 ≤ a then
    match eccPlace a with
    | some (r, o) => .table r o
    | none => if 0x03F00000 ≤ a ∧ a < 0x03F0FF00 then .ring else .unmapped
  else
    match regAt a with
    | none => if 0x01C01800 ≤ a ∧ a < 0x01C01840 then .reserved else .unmapped
    | some h =>
      match hitPort h with
      | none => .reg h
      | some p =>
        if !s.portExists p then .unmapped
        else if p = 64 ∧ cpuAbsent h.spec.id then .unmapped
        else if p = 64 ∧ cpuReserved h.spec.id then .reserved
        else .reg h

/-! ### Flags and counts every access may leave -/

/-- A flag of GLB_ACC_STATUS, with the master (R24). -/
def accFlag (m : BusMaster) (f : Fld) (s : State) : State := (s.ev f).put GLB_ACC_STATUS_LAST_MASTER (masterCode m)

/-- A management event of R671 counts. -/
def accCount (m : BusMaster) (a code : Nat) (s : State) : State := pmcEvent code (.access (privOf s m) (masterCode m) a) 1 s

/-! ### Reads -/

/-- A mask over a register's whole value of the fields whose type satisfies `p`. -/
def RegHit.maskAll (h : RegHit) (p : Acc → Bool) : Nat :=
  h.spec.fs.foldl (fun m f => if p f.acc then m ||| (2 ^ f.width - 1) * 2 ^ f.lsb else m) 0

/-- What a register reads where the value is formed at the read. -/
def regView (h : RegHit) (v : Nat) (s : State) : Nat :=
  let i := h.i
  match h.spec.id with
  | .GLB_STATE => v + 2 ^ 12 * escCount s
  | .REF_SLOT_STATE => v + 2 ^ 16 * slotRemain s i
  | .HOLD_HIST => match s.sel.hist[i]? with
    | some e => histWord e
    | none => 0
  | .PPS_REALIGN => bitsWhere 4 (fun n => (s.ppsRec n).realign)
  | .TB_TIME => tb96Of s.tb.count
  | .TB_SNAP_CTRL => v + (if s.tb.snapDue then 1 else 0)
  | .TB_STEP_CTRL => if s.tb.hostStep.isSome then 1 else 0
  | .TB_LOAD_CTRL => if s.tb.load.isSome then 1 else 0
  | .LN_PRBS_CTRL => v + (if (s.laneRec i).gen.inj then 2 ^ 8 else 0)
  | .LN_EYE_CTRL => v + (if (s.laneRec i).eye ≠ 0 then 2 ^ 31 else 0)
  | .PHA_CH_VALID => bitsWhere 80 (fun c => s.on (PHA_CH_SAMPLE_VALID c))
  | .FM_STATUS => v + 2 ^ 4 * min 3 (recent s.now s.fm.resetsAt).length
  | .FM_SESS_STATUS => v + 2 ^ 16 * min 15 (recent s.now (s.sessRec i).resetsAt).length
  | .FM_CTRL => v + (if s.on FM_STATUS_RESETTING then 2 else 0)
  | .FM_DOM_OFFSET => unsigned 64 (doffSns s i)
  | .QM_Q_STATUS => v + 2 ^ 4 * min 15 (recent s.now (s.queueRec i).stuckAt).length
  | .QM_Q_CREDIT => if shaped s i then unsigned 32 (roundDiv (creditAt s i s.nowPs) 1000000000) else v
  | .CAL_RUN => if s.cal.asked.contains i || s.cal.askedOwed.contains i then 1 else 0
  | .PAIR_CTRL => v + (if s.pair.hoWritten then 2 ^ 16 else 0)
  | .PAIR_STATUS =>
    v + (if pairHealthy s then 2 ^ 5 else 0) + (if pairTlock s then 2 ^ 6 else 0) + 2 ^ 16 * min 65535 (pairHealthyS s) +
      (match s.pair.lastValid with
        | some t => if s.now < t + 7500000 then 2 ^ 7 else 0
        | none => 0)
  | .PAIR_TEST => v / 32 * 32 + pairTests s
  | .LDR_OTP => (if s.otp.secure then 1 else 0) + (if s.otp.keyHash.isSome then 2 else 0)
  | .MGT_IRQ_SRC => irqSrc s
  | .MGT_LN_SUMMARY => bitsWhere 65 (fun n => s.word (LN_EVENT n) != 0)
  | .MGT_MAC_SUMMARY => bitsWhere 66 (fun p => s.word (MAC_EVENT p) != 0)
  | .PMC_DUMP_STATUS => v + (if dumpPaused s then 2 ^ 16 else 0)
  | .PMC_CNT => v % 2 ^ 48 + (if (s.wide PMC_OVF).testBit i then 2 ^ 63 else 0)
  | _ => v

/-- What a read of the lowest word does: pops, clears that the chapters name, and the clear of RC fields but for an OBSERVE
master (R17, R202, R515, R559, R646). -/
def regReadDone (h : RegHit) (lvl : Nat) (s : State) : State :=
  let s := match h.spec.id with
    | .TB_SNAP => (s.put ⟨(TB_SNAP h.i).word 3, 24, 1⟩ 0).put ⟨(TB_SNAP h.i).word 3, 25, 1⟩ 0
    | .TIU_FIFO => (tiuPop s).2
    | .ECC_LOG => (eccPop s).2
    | _ => s
  let rc := h.maskAll (fun a => a == .rc)
  if lvl = 0 ∨ rc = 0 then s
  else
    match h.spec.id with
    | .POOL_LOW_WATER => s.put (POOL_LOW_WATER_V h.i) (s.get (POOL_FREE_V h.i))
    | _ =>
      let v := s.wide h.wide
      s.putWide h.wide (v - (v &&& rc))

/-- The whole value a read of the lowest word gives. -/
def regValue (h : RegHit) (s : State) : Nat :=
  match h.spec.id with
  | .TIU_FIFO => (tiuPop s).1
  | .ECC_LOG => (eccPop s).1
  | .MGT_MMP_KEY => 0
  | _ => regView h (s.wide h.wide) s

/-- The key of a master's shadow or staging of a wide value. -/
def shadowKey (m : BusMaster) (a : Nat) : Nat := masterCode m * 2 ^ 32 + a

/-- A read of a counter word meets the injected error that stands there (R547). -/
def counterLook (h : RegHit) (s : State) : State :=
  if s.ecc.injected.isEmpty then s
  else
    match (List.range counterWords).find? (fun n => counterAddr n == h.base) with
    | some n => hwLook 11 n s
    | none => s

/-- A register word is read: the lowest captures the value, a higher one returns the master's shadow (R11). -/
def regRead (m : BusMaster) (h : RegHit) (s : State) : Nat × State :=
  if h.w = 0 then
    let v := regValue h s
    let s := regReadDone h (privOf s m) (counterLook h s)
    if h.spec.words = 1 then (v % 2 ^ 32, s)
    else
      let ws : List Word := (List.range h.spec.words).map (fun k => BitVec.ofNat 32 (v / 2 ^ (32 * k)))
      (v % 2 ^ 32, { s with shadows := smSet [] s.shadows (shadowKey m h.base) ws })
  else (((smGet [] s.shadows (shadowKey m h.base)).getD h.w 0).toNat, s)

/-- The counters of a table word that a read clears (R402). -/
def tableRc (r o : Nat) : Bool :=
  (r == 5 && decide (16 ≤ o % 32)) || (r == 6 && decide (20 ≤ o % 32))

/-- A table word is read. -/
def tableRead (m : BusMaster) (r o a : Nat) (s : State) : Nat × State :=
  let v := readWord s a
  let s := eccLook a 4 s
  (v, if tableRc r o && privOf s m != 0 then s.setTword a 0 else s)

/-- A read by a master: status, value, state. -/
def busRead (m : BusMaster) (a : Nat) (s : State) : Nat × Nat × State :=
  if !served s m then (4, 0, s)
  else
    let s0 := s
    let s := accCount m a 0x011 (accCount m a 0x010 s)
    match placeOf s0 a with
    | .unmapped => (2, 0, accFlag m GLB_ACC_STATUS_UNMAPPED s)
    | .reserved => (0, 0, s)
    | .reg h => let r := regRead m h s; (0, r.1, r.2)
    | .table r o => let x := tableRead m r o a s; (0, x.1, x.2)
    | .ring => (0, s.tword a, hwLook 12 ((a - 0x03F00000) / 0x220 % 120) s)

/-! ### Register writes -/

/-- Fields whose type depends on the index: EN and SIZE of pools 0 to 3 are read only (R455). -/
def rwMask (h : RegHit) : Nat :=
  let m := h.maskAll (fun a => a == .rw)
  match h.spec.id with
  | .POOL_CFG => if h.i < 4 then 2 else m
  | .POOL_SIZE => if h.i < 4 then 0 else m
  | .MGT_MMP_KEY => h.maskAll (fun a => a == .wo)
  | _ => m

/-- The value a write leaves: RW fields of the written words take the bits, RW1C bits written 1 clear, W1S bits written 1
are set; everything else stays (R12, R17). -/
def writtenValue (h : RegHit) (old written v : Nat) : Nat :=
  let st := rwMask h &&& written
  let x := (old - (old &&& st)) + (v &&& st)
  let c := v &&& h.maskAll (fun a => a == .rw1c) &&& written
  let x := x - (x &&& c)
  x ||| (v &&& h.maskAll (fun a => a == .w1s) &&& written)

/-- The words a commit takes from those staged: the mask of the words, their value, and what stays staged (R12). -/
def stagedWords (m : BusMaster) (h : RegHit) (v : Word) (st : SMap (Option Word)) : (Nat × Nat) × SMap (Option Word) :=
  (List.range (h.spec.words - 1)).foldl (fun (x : (Nat × Nat) × SMap (Option Word)) k =>
    let key := shadowKey m (h.base + 4 * (k + 1))
    match smGet none x.2 key with
    | some w =>
      ((x.1.1 + (2 ^ 32 - 1) * 2 ^ (32 * (k + 1)), x.1.2 + w.toNat * 2 ^ (32 * (k + 1))), smSet none x.2 key none)
    | none => x) ((2 ^ 32 - 1, v.toNat), st)

/-- The words a commit takes: the one written and those the master has staged; the staging is emptied (R12). -/
def takeStaged (m : BusMaster) (h : RegHit) (v : Word) (s : State) : (Nat × Nat) × State :=
  ((stagedWords m h v s.stages).1, { s with stages := (stagedWords m h v s.stages).2 })

/-- The values that are checked for their format (R4). -/
def tb96Reg : RegId → Bool
  | .TB_LOAD | .SCH_ACT_TIME => true
  | _ => false

/-- The write that breaks a rule of its own: the owner's (R137, R172). -/
def ownerRefuses (r : RegWrite) (s : State) : Option State :=
  match r.id with
  | .DCO_OFFSET => if s.on DCO_CTRL_OWNER then none else some (s.ev REF_EVENT_DCO_NOT_OWNER)
  | .TB_INCR => if s.hostOwns then none else some (s.ev TB_EVENT_NOT_OWNER)
  | _ => none

/-- A write of a reload that leaves every field as it is and starts no action: it has no effect on any output (R40). -/
def sameInReload (h : RegHit) (r : RegWrite) : Bool :=
  r.m == .loader && r.new == r.old && (r.v &&& h.maskAll (fun a => a == .rws)) == 0 &&
    (decide (h.base < 0x00400000) || r.id == .PHA_CH_CFG || r.id == .LN_QUAD_CFG)

/-- An accepted write brings the bytes it writes, their parity and the shadow of their block to the value written (R553); `written` are the
bits of the bytes. -/
def upsetsWritten (h : RegHit) (written : Nat) (s : State) : State :=
  let keep := fun (e : Nat × Nat) =>
    if e.1 < h.base ∨ h.base + 4 * h.spec.words ≤ e.1 then e
    else
      let w := written / 2 ^ (8 * (e.1 - h.base)) % 2 ^ 32
      (e.1, e.2 % 2 ^ 32 &&& (2 ^ 32 - 1 - w) ||| 2 ^ 32 * (e.2 / 2 ^ 32 &&& (15 - maskBytes w)))
  { s with ecc := { s.ecc with
      upsets := (s.ecc.upsets.map keep).filter (fun e => e.2 != 0),
      shadow := s.ecc.shadow.filter (fun e => e.1 != h.base / 2 ^ 16 % 2 ^ 12) } }

/-- A write that no rule discards is made: the loader's enables are held back (R627), the rest is stored and acts. -/
def regStore (h : RegHit) (written : Nat) (r : RegWrite) (s : State) : Nat × State :=
  let hits := if r.m == .loader && s.phase != 5 then r.v &&& deferredMask r.id else 0
  if hits ≠ 0 ∧ 2048 ≤ s.ldr.defer.length then (0, ldrFail 6 s.ldr.offset s)
  else
    let s : State := if hits = 0 then s else
      { s with ldr := { s.ldr with defer := s.ldr.defer ++ [⟨r.addr, 15, hits⟩] } }
    let r := if hits = 0 then r else
      { r with new := (r.new - (r.new &&& hits)) + (r.old &&& hits), v := r.v - hits }
    let s := upsetsWritten h written (if r.new = r.old then s else s.putWide h.wide r.new)
    (0, if s.ldr.reload && sameInReload h r then s else regEffect r s)

/-- LDR_HOST_CTRL.START meets its own rule (R634). -/
def hostCtrl (r : RegWrite) (s : State) : Bool × State :=
  if r.id == .LDR_HOST_CTRL && r.v % 2 == 1 && !s.on LDR_HOST_CTRL_START then hostStart r.m s else (true, s)

/-- A write as its rules see it: the words it takes, the value before, and the value it leaves by the types of the fields (R12, R17). -/
def writeAs (m : BusMaster) (h : RegHit) (written v : Nat) (s : State) : RegWrite :=
  let old := s.wide h.wide
  let v := v &&& h.maskAll (fun _ => true) &&& written
  ⟨m, h.spec.id, h.i, h.j, h.base, h.spec.reset h.i h.j, old, writtenValue h old written v, v⟩

/-- A whole value is written by a master: the rules in turn, judged on the state `s0` before the access, then the store. -/
def regCommit (m : BusMaster) (h : RegHit) (written v : Nat) (s0 s : State) : Nat × State :=
  let r := writeAs m h written v s
  if privOf s m ≠ 2 ∧ adminPart r then (1, privLog m h.base s)
  else if s.dev = .safeMode ∧ r.v &&& deferredMask r.id ≠ 0 then (3, s)
  else if tb96Reg r.id ∧ !tb96Ok r.new then (3, accFlag m GLB_ACC_STATUS_FMT_ERR s)
  else
    match ownerRefuses r s with
    | some s' => (3, s')
    | none =>
      -- the value to be checked leaves out the enables the loader holds back
      let q := if m == .loader && s.phase != 5 then
          { r with new := (r.new - (r.new &&& (r.v &&& deferredMask r.id))) + (r.old &&& (r.v &&& deferredMask r.id)) } else r
      if !fieldsOk h.spec.fs q.new || regBad q s0 then (3, cfgErr h.base s)
      else
        match regBusy q s0 with
        | some a => (3, cfgBusy a s)
        | none =>
          match regModes q s0 with
          | [] =>
            let c := hostCtrl r s
            if c.1 then regStore h written r c.2 else (3, c.2)
          | l => (3, modeErrs l s)

/-- A register word is written: a higher word is staged, the lowest commits (R12). -/
def regWrite (m : BusMaster) (h : RegHit) (v : Word) (s0 s : State) : Nat × State :=
  if h.w = 0 then
    let t := takeStaged m h v s
    regCommit m h t.1.1 t.1.2 s0 t.2
  else if h.spec.id == .SCH_ACT_TIME && h.i == 63 && s.pairState != .solo then (3, cfgErr h.base s)
  else (0, { s with stages := smSet none s.stages (shadowKey m (h.base + 4 * h.w)) (some v) })

/-! ### Table writes (R22, R396, R402, R444 to R450, R545, R546) -/

/-- A table word would hold a reserved encoding or a value out of range in a field of which the write carries a byte (R22, R384,
R396, R402, R444, R450); `be` are the bytes written.  PIR stands below CIR after a write of either; a TABLE_LOAD record writes CIR and
then PIR, and is judged at PIR (log entry 18). -/
def tableBad (m : BusMaster) (r o a be x : Nat) (s : State) : Bool :=
  let w := o % 32 / 4
  let carries := fun (bytes : Nat) => be &&& bytes != 0
  if r = 5 then
    w == 0 && ((carries 2 && (x / 2 ^ 8 % 64 == 0 || decide (32 < x / 2 ^ 8 % 64))) || (carries 12 && x / 2 ^ 16 == 0))
  else if r = 6 then
    (w == 0 && carries 15 && m != .loader && decide (s.tword (a + 4) < x)) || (w == 1 && carries 15 && decide (x < s.tword (a - 4))) || (w == 4 && carries 2 && decide (24 < x / 2 ^ 8 % 32))
  else if r = 8 then o % 128 / 4 == 28 && carries 6 && x / 2 ^ 15 % 4 == 3
  else if r = 9 then o % 8 == 4 && carries 15 && (x == 0 || decide (1000000000 < x))
  else false

/-- A table word is written. -/
def tableWrite (m : BusMaster) (r o a be : Nat) (v : Word) (s : State) : Nat × State :=
  if r = 7 then (3, cfgErr a s)
  else
    let be := be &&& maskBytes (tableMask r o)
    let old := s.tword a
    let x := tableMerge r o be old v.toNat
    if tableBad m r o a be x s then (3, cfgErr a s)
    else if r = 9 ∧ listOperational s (o / 0x1000) (o / 0x800 % 2) ∧ x ≠ old then (3, cfgBusy a s)
    else if entryRetired s r o then (3, s)
    else if m != .loader && s.on (ECC_REG_RELOADING r) then
      (0, { s with ecc := { s.ecc with held := s.ecc.held ++ [⟨a, be, v.toNat &&& tableMask r o⟩] } })
    else
      let s := if m == .loader then s else s.put (ECC_REG_BACKED r) 0
      (0, if be = 0 then s else tableStore a be x s)

/-! ### Writes -/

/-- The blocks a master other than the loader writes in LOADING (R628). -/
def hostOpen (a : Nat) : Bool :=
  decide (a < 0x00100000) || (decide (0x02400000 ≤ a) && decide (a < 0x02800000)) || decide (0x03F00000 ≤ a)

/-- The registers whose writes the loader discards (R625). -/
def loaderBars : RegId → Bool
  | .GLB_CTRL | .LDR_HOST_CTRL | .LDR_HOST_FIFO => true
  | _ => false

/-- A register word at its place: privilege (R647), the loader's bars, the lock of R649, then the write. -/
def regAccess (m : BusMaster) (h : RegHit) (a : Nat) (v : Word) (s0 s : State) : Nat × State :=
  let lvl := privOf s m
  if lvl = 0 ∨ (lvl = 1 ∧ adminOnly h.spec.id) then (1, privLog m a s)
  else if m == .loader && loaderBars h.spec.id then (3, s)
  else if m != .loader && s.dev = .loading && !hostOpen a then (3, s.ev LDR_EVENT_HOST_DISCARD)
  else if h.spec.id == .MGT_PRIV && m != .loader && s.on MGT_PRIV_LOCK then (3, s)
  else regWrite m h v s0 s

/-- A table word at its place. -/
def tableAccess (m : BusMaster) (r o a be : Nat) (v : Word) (s : State) : Nat × State :=
  if privOf s m = 0 then (1, privLog m a s)
  else if m != .loader && s.dev = .loading then (3, s.ev LDR_EVENT_HOST_DISCARD)
  else tableWrite m r o a be v s

/-- A write at its place (R21, R23), its rules judged on the state `s0` before the access: status and state. -/
def placeWrite (m : BusMaster) (a be : Nat) (v : Word) (s0 s : State) : Nat × State :=
  if a % 4 = 0 ∧ a < 0x03000000 ∧ be ≠ 15 then (3, accFlag m GLB_ACC_STATUS_PARTIAL s)
  else
    match placeOf s0 a with
    | .unmapped => (2, accFlag m GLB_ACC_STATUS_UNMAPPED s)
    | .reserved => if privOf s m = 0 then (1, privLog m a s) else (0, s)
    | .reg h => regAccess m h a v s0 s
    | .table r o => tableAccess m r o a be v s
    | .ring => if privOf s m = 0 then (1, privLog m a s) else (3, cfgErr a s)

/-- The overflow bits that counting an access's own events sets, in whatever state they were (R673). -/
def accWraps (m : BusMaster) (a : Nat) (s : State) : Nat :=
  (accCount m a 0x012 (accCount m a 0x010 (s.putWide PMC_OVF 0))).wide PMC_OVF

/-- A write that clears an overflow bit in the cycle of its wrap leaves it set (R18, R673). -/
def wrapsStand (a wraps : Nat) (s : State) : State :=
  if wraps = 0 then s
  else if a = PMC_EVENT.addr then s.ev PMC_EVENT_OVF
  else if a = PMC_OVF.addr ∨ a = PMC_OVF.addr + 4 then s.putWide PMC_OVF (s.wide PMC_OVF ||| wraps)
  else s

/-- A write by a master: status and state. -/
def busWrite (m : BusMaster) (a be : Nat) (v : Word) (s : State) : Nat × State :=
  if !served s m then (3, s)
  else
    let wraps := accWraps m a s
    let s0 := s
    let s := accCount m a 0x012 (accCount m a 0x010 s)
    let x := placeWrite m a be v s0 s
    let x := (x.1, wrapsStand a wraps x.2)
    if x.1 = 0 then x
    else
      let s := accCount m a 0x013 x.2
      (x.1, if x.1 = 1 then accCount m a 0x014 s else s)

/-! ### Accesses that wait (R74, R650) -/

/-- The access of a served master waits: the clocks are gated, those of every block with registers among them (R33, R71). -/
def accWaits (s : State) (m : BusMaster) : Bool := served s m && s.gated

/-- An access joins those that wait. -/
def accWait (w : WaitAccess) (s : State) : State := { s with mgt := { s.mgt with waiting := s.mgt.waiting ++ [w] } }

/-- A word written by a master, its outcome not looked at. -/
def busStore (m : BusMaster) (a be : Nat) (v : Word) (s : State) : State :=
  if accWaits s m then accWait (.write m a be v) s else (busWrite m a be v s).2

/-- A whole word written by a master. -/
def busPut (m : BusMaster) (a : Nat) (v : Word) (s : State) : State := busStore m a 15 v s

/-- The read of a master that is not served: on PCIe, Unsupported Request (R652). -/
def busUnserved (m : BusMaster) (s : State) : State := if m = .pcie then s.send .unsupported else s

/-- A word read by a master, its data going to it. -/
def busGet (m : BusMaster) (a : Nat) (s : State) : State :=
  if !served s m then busUnserved m s
  else if accWaits s m then accWait (.read m a) s
  else
    let x := busRead m a s
    x.2.2.send (.data m a x.2.1)

/-- The first access of a master to an address that waits is taken from those that wait; of an SPI transfer, its first word. -/
def waitTake (m : BusMaster) (a : Nat) (write : Bool) : List WaitAccess → List WaitAccess
  | [] => []
  | w :: t =>
    match w with
    | .write m' a' _ _ => if write && m' == m && a' == a then t else w :: waitTake m a write t
    | .read m' a' => if !write && m' == m && a' == a then t else w :: waitTake m a write t
    | .spiWrite a' l =>
      if write && m == .spi && a' == a then (if l.length < 8 then t else .spiWrite ((a + 4) % 2 ^ 32) (l.drop 4) :: t)
      else w :: waitTake m a write t
    | .spiRead a' n =>
      if !write && m == .spi && a' == a then (if n ≤ 1 then t else .spiRead ((a + 4) % 2 ^ 32) (n - 1) :: t)
      else w :: waitTake m a write t

/-- An access that has waited ACC_TO for a gated block completes (R650). -/
def busTimeout (m : BusMaster) (a : Nat) (write : Bool) (s : State) : State :=
  if !accWaits s m then s
  else
    let s : State := { s with mgt := { s.mgt with waiting := waitTake m a write s.mgt.waiting } }
    let s := (accCount m a 0x010 s).ev MGT_EVENT_ACC_TO
    if write then accCount m a 0x013 (accCount m a 0x012 s)
    else (accCount m a 0x011 s).send (.data m a 0)

end Sys2Proof.Machine
end

