-- ==== Sys2Proof/Machine/Crypto.lean ====
section
/-!
DEFINITION. The published algorithms the spec names and does not print: SHA-256 (FIPS 180-4), HMAC (FIPS 198-1) and ECDSA over P-256
(FIPS 186-4), written from those standards (R629, R659; log entry 52).
-/

namespace Sys2Proof.Machine

/-! ### SHA-256 -/

/-- Eight words of 32 bits cut out of one number, the most significant first. -/
def eightWords (n : Nat) : List Word := (List.range 8).map (fun k => BitVec.ofNat 32 (n / 2 ^ (224 - 32 * k)))

/-- The round constants of SHA-256 (FIPS 180-4, 4.2.2), eight to a number. -/
def shaK : List Word :=
  (eightWords 0x428a2f9871374491b5c0fbcfe9b5dba53956c25b59f111f1923f82a4ab1c5ed5 ++ eightWords 0xd807aa9812835b01243185be550c7dc372be5d7480deb1fe9bdc06a7c19bf174) ++
  (eightWords 0xe49b69c1efbe47860fc19dc6240ca1cc2de92c6f4a7484aa5cb0a9dc76f988da ++ eightWords 0x983e5152a831c66db00327c8bf597fc7c6e00bf3d5a7914706ca635114292967) ++
  ((eightWords 0x27b70a852e1b21384d2c6dfc53380d13650a7354766a0abb81c2c92e92722c85 ++ eightWords 0xa2bfe8a1a81a664bc24b8b70c76c51a3d192e819d6990624f40e3585106aa070) ++
  (eightWords 0x19a4c1161e376c082748774c34b0bcb5391c0cb34ed8aa4a5b9cca4f682e6ff3 ++ eightWords 0x748f82ee78a5636f84c878148cc7020890befffaa4506cebbef9a3f7c67178f2))

/-- The initial hash value (FIPS 180-4, 5.3.3). -/
def shaInit : List Word := eightWords 0x6a09e667bb67ae853c6ef372a54ff53a510e527f9b05688c1f83d9ab5be0cd19

/-- The word turned right by each of the three amounts, summed modulo 2: the functions written with a capital sigma. -/
def threeTurns (i j k : Nat) (w : Word) : Word := [i, j, k].foldl (fun x n => x ^^^ w.rotateRight n) 0

/-- The word turned right by two amounts and shifted by a third: the functions written with a small sigma. -/
def twoTurns (i j n : Nat) (w : Word) : Word := threeTurns i j 0 w ^^^ w ^^^ w >>> n

/-- Word `t` of the schedule from the sixteen before it, of which the newest is first. -/
def shaNext (l : List Word) : Word :=
  let back := fun n => l.getD (n - 1) 0
  (back 16 + back 7) + (twoTurns 7 18 3 (back 15) + twoTurns 17 19 10 (back 2))

/-- The message schedule, newest word first: `n` more words after the sixteen of the block. -/
def shaSchedule : Nat → List Word → List Word
  | 0, l => l
  | n + 1, l => shaSchedule n (shaNext l :: l)

/-- One round over the eight working words, a to h as positions 0 to 7; `kw` is the constant plus the schedule's word. -/
def shaRound (v : List Word) (kw : Word) : List Word :=
  let x := fun n => v.getD n 0
  let choose := x 6 ^^^ (x 4 &&& (x 5 ^^^ x 6))
  let most := (x 0 &&& x 1) ||| (x 2 &&& (x 0 ||| x 1))
  let sum := kw + choose + threeTurns 6 11 25 (x 4) + x 7
  match v.take 7 with
  | p :: q :: r :: u :: rest => (sum + most + threeTurns 2 13 22 p) :: p :: q :: r :: (u + sum) :: rest
  | _ => v

/-- One block of 64 bytes. -/
def shaBlock (h : List Word) (b : List Byte) : List Word :=
  let ws := (List.range 16).map (fun k => (BitVec.ofNat 32 (fieldBE b (4 * k) 4) : Word))
  let w := (shaSchedule 48 ws.reverse).reverse
  let v := (List.zipWith (fun a b => a + b) shaK w).foldl shaRound h
  List.zipWith (fun a b => a + b) h v

/-- A padded message block by block; `fuel` bounds the blocks. -/
def shaBlocks : Nat → List Word → List Byte → List Word
  | 0, h, _ => h
  | n + 1, h, l => if l.isEmpty then h else shaBlocks n (shaBlock h (l.take 64)) (l.drop 64)

/-- SHA-256 of a message, 32 bytes. -/
def sha256 (m : List Byte) : List Byte :=
  let pad := m ++ [0x80] ++ List.replicate ((119 - m.length % 64) % 64) 0 ++ beBytes 8 (8 * m.length)
  ((shaBlocks (pad.length / 64) shaInit pad).map (fun w => beBytes 4 w.toNat)).flatten

/-- HMAC-SHA-256 under a key of at most 64 bytes. -/
def hmac256 (key m : List Byte) : List Byte :=
  let k := key ++ List.replicate (64 - key.length) 0
  sha256 (k.map (fun b => b ^^^ 0x5C) ++ sha256 (k.map (fun b => b ^^^ 0x36) ++ m))

/-! ### ECDSA over P-256 -/

/-- The field, the order of the group, the curve's constant and the base point. -/
def p256 : Nat := 0xffffffff00000001000000000000000000000000ffffffffffffffffffffffff
def n256 : Nat := 0xffffffff00000000ffffffffffffffffbce6faada7179e84f3b9cac2fc632551
def b256 : Nat := 0x5ac635d8aa3a93e7b3ebbd55769886bc651d06b0cc53b0f63bce3c3e27d2604b
def g256 : Nat × Nat :=
  (0x6b17d1f2e12c4247f8bce6e563a440f277037d812deb33a0f4a13945d898c296,
   0x4fe342e2fe1a7f9b8ee7eb4a7c0f9e162bce33576b315ececbb6406837bf51f5)

/-- `b ^ e` modulo `m`, over the low `n` bits of `e`. -/
def powMod (m : Nat) : Nat → Nat → Nat → Nat
  | 0, _, _ => 1
  | n + 1, b, e => let r := powMod m n (b * b % m) (e / 2); if e % 2 = 1 then b * r % m else r

/-- The inverse modulo a prime. -/
def invMod (m a : Nat) : Nat := powMod m 256 (a % m) (m - 2)

/-- The sum of two points; none is the point at infinity. -/
def pointAdd (x y : Option (Nat × Nat)) : Option (Nat × Nat) :=
  match x, y with
  | none, q => q
  | q, none => q
  | some (x1, y1), some (x2, y2) =>
    if x1 = x2 ∧ (y1 + y2) % p256 = 0 then none
    else
      let l := if x1 = x2 then (3 * x1 * x1 + p256 - 3) * invMod p256 (2 * y1) % p256
        else (y2 + p256 - y1) * invMod p256 (x2 + p256 - x1) % p256
      let x3 := (l * l + 2 * p256 - x1 - x2) % p256
      some (x3, (l * (x1 + p256 - x3) + p256 - y1) % p256)

/-- A multiple of a point, over the low `n` bits of the factor. -/
def pointMul : Nat → Nat → Option (Nat × Nat) → Option (Nat × Nat)
  | 0, _, _ => none
  | n + 1, k, q =>
    let r := pointMul n (k / 2) (pointAdd q q)
    if k % 2 = 1 then pointAdd q r else r

/-- The point lies on the curve. -/
def onCurve (x y : Nat) : Bool :=
  decide (x < p256) && decide (y < p256) && y * y % p256 == (x * x * x + (p256 - 3) * x + b256) % p256

/-- The signature (r, s) of a message is valid under the key (x, y): ECDSA P-256 with SHA-256. -/
def ecdsaOk (x y r t : Nat) (m : List Byte) : Bool :=
  if r = 0 ∨ n256 ≤ r ∨ t = 0 ∨ n256 ≤ t ∨ !onCurve x y then false
  else
    let e := natBE (sha256 m)
    let w := invMod n256 t
    match pointAdd (pointMul 256 (e * w % n256) (some g256)) (pointMul 256 (r * w % n256) (some (x, y))) with
    | some (x1, _) => x1 % n256 == r
    | none => false

end Sys2Proof.Machine
end

