-- ==== Sys2Proof/Machine/Loader.lean ====
section
/-!
DEFINITION. The loader at work (R615 to R640): the header, the sections, the records of an image and their effects, and the
commit at END.
-/

namespace Sys2Proof.Machine

/-! ### Images -/

/-- The quad read of the next image begins (R629); nothing while one is under way, an undo runs or a host is awaited. -/
def imageReadStart (s : State) : State :=
  match s.ldr.left with
  | [] => s
  | k :: rest =>
    if s.dev ≠ .loading ∨ s.ldr.active ∨ s.phase = 6 ∨ s.phase = 7 then s
    else
      let s := ldrStop s
      let s : State := { s with ldr := { s.ldr with left := rest, active := true } }
      (((ldrPhase 1 s).put LDR_STATUS_SOURCE k).put LDR_STATUS_SECTION 0).send (.flash 0xEC (imageBase k))

/-- The header of the single-bit read of the image being loaded (R52), empty where none was read. -/
def singleHeader (s : State) : List Byte :=
  match s.get LDR_STATUS_SOURCE with
  | 0 => s.ldr.hdrA
  | 1 => s.ldr.hdrB
  | _ => []

/-- The HEADER record of the image under way has arrived (R621, R622, R629, R630). -/
def headerTake (h : List Byte) (s : State) : State :=
  let flash := !hostImage s
  let root := hdrWord h 0x10
  if !hdrReadable h then ldrFail 1 0 s
  else
    let h := h.take (hdrSize (hdrSections h))
    let one := singleHeader s
    if flash ∧ !s.ldr.reload ∧ !one.isEmpty ∧ one.take h.length ≠ h then ldrFail 4 0 s
    else if !hdrValid h then ldrFail 2 0 s
    else if !hdrRecord h then ldrFail 6 0 s
    else if flash ∧ (root % 8 ≠ s.get SYN_ROOT_FREQ ∨ root / 2 ^ 16 ≠ s.get SYN_ROOT_SOURCE_ID) then ldrFail 3 0x10 s
    else if s.otp.secure ∧ !hdrSigned h then ldrFail 0x0B 0x0A s
    else
      ldrPhase 2 { s with ldr := { s.ldr with hdr := h, all := h, next := 0, imgVer := hdrWord h 0x14, offset := h.length } }

/-- The HEADER row: the bytes read of a flash image, or those the host has written (R635). -/
def headerRead (bytes : List Byte) (s : State) : State :=
  if !s.ldr.active ∨ s.phase ≠ 1 then s
  else if !hostImage s then headerTake bytes s
  else
    let h := s.ldr.stream
    let n := hdrSize (hdrSections h)
    if h.length < 0x40 ∨ (hdrSections h ≤ 64 ∧ h.length < n) then s
    else
      let s := headerTake h s
      if s.ldr.active then fifoSpace { s with ldr := { s.ldr with stream := h.drop n } } else s

/-! ### Records (R620, R624, R626) -/

/-- The TYPE, the body's LENGTH and the body of the record at the front of the section under way. -/
def recType (s : State) : Nat := byteAt s.ldr.buf 3
def recLen (s : State) : Nat := natLE (s.ldr.buf.take 3)
def recBody (s : State) : List Byte := (s.ldr.buf.drop 4).take (recLen s)

/-- Word `k` of a record's body. -/
def bodyWord (b : List Byte) (k : Nat) : Nat := natLE ((b.drop (4 * k)).take 4)

/-- The words of a body. -/
def bodyWords (b : List Byte) : List Nat := (List.range (b.length / 4)).map (bodyWord b)

/-- A value lies in a range. -/
def within (lo hi v : Nat) : Bool := decide (lo ≤ v) && decide (v ≤ hi)

/-- The LENGTH fits the TYPE and every field lies in its range (R620). -/
def recFits (ty : Nat) (b : List Byte) : Bool :=
  let n := b.length
  let w := bodyWord b
  match ty with
  | 0x02 => decide (8 ≤ n) && n % 8 == 0
  | 0x03 => decide (8 ≤ n)
  | 0x04 => n == 12 && within 1 (2 ^ 22) (w 1)
  | 0x05 => n == 12
  | 0x06 => n == 4 && within 1 1000000 (w 0)
  | 0x07 => n == 20 && within 1 10000000 (w 3) && decide (w 4 ≤ 1)
  | 0x08 =>
    decide (w 0 < 512) && within 3 9 (w 0 % 256) &&
      (if w 0 < 256 then decide (12 ≤ n) else n == 16 && within 1 (2 ^ 22) (w 2))
  | 0x09 => (w 0 == 1 && n == 68) || (w 0 == 2 && n == 36)
  | 0x0A => n == 64
  | 0x0B => n == 0
  | _ => false

/-- A record stands where its order allows (R624). -/
def recOrder (s : State) (ty : Nat) (b : List Byte) : Bool :=
  let signed := hdrSigned s.ldr.hdr
  let last := s.ldr.offset + 4 + b.length == hdrWord s.ldr.hdr 0x0C
  if ty = 0x0B then last && (!signed || s.ldr.sigAt.isSome)
  else if last ∨ s.ldr.sigAt.isSome then false
  else if ty = 0x0A then signed && s.ldr.signKey.isSome
  else if ty = 0x09 ∧ bodyWord b 0 = 1 then signed && s.ldr.signKey.isNone
  else true

/-- The bytes of the table of a region. -/
def tableExtent (r : Nat) : Nat :=
  match r with
  | 3 | 5 => 0x20000
  | 4 => 0x4000
  | 6 => 0x40000
  | 7 | 8 => 0x200000
  | 9 => 0x42000
  | _ => 0

/-- The words a TABLE_LOAD record writes. -/
def tableWords (b : List Byte) : Nat := if bodyWord b 0 < 256 then b.length / 4 - 2 else bodyWord b 2

/-- A TABLE_LOAD record keeps the rules of R626: its section's one region, the region's bytes, its address range. -/
def tableOk (s : State) (b : List Byte) : Bool :=
  let r := bodyWord b 0 % 256
  let a := bodyWord b 1
  let bytes := smGet 0 s.ldr.tblBytes r + (if s.ldr.tblRegion.isSome then 0 else secLength s.ldr.hdr (s.get LDR_STATUS_SECTION))
  !s.ldr.tblMixed && (s.ldr.tblRegion.isNone || s.ldr.tblRegion == some r) && decide (bytes ≤ 196608) && a % 4 == 0 &&
    decide (eccBase r ≤ a) && decide (a + 4 * tableWords b ≤ eccBase r + tableExtent r)

/-- The record at the front is checked as it comes to the front. -/
def ldrFront (s : State) : State :=
  let ty := recType s
  let b := recBody s
  if s.ldr.buf.length < 4 ∨ recLen s % 4 ≠ 0 ∨ s.ldr.buf.length < 4 + recLen s ∨ !recFits ty b ∨ !recOrder s ty b then
    ldrFail 6 s.ldr.offset s
  else if (ty = 8 ∧ !tableOk s b) ∨ (ty ≠ 8 ∧ s.ldr.tblRegion.isSome) then ldrFail 7 s.ldr.offset s
  else s

/-! ### Sections (R623, R629) -/

/-- Section `k` begins to execute. -/
def sectionBegin (k : Nat) (bytes : List Byte) (s : State) : State :=
  let s : State := { s with ldr := { s.ldr with
    buf := bytes, executing := true, offset := secOffset s.ldr.hdr k, tblRegion := none, tblMixed := false } }
  ldrFront (s.put LDR_STATUS_SECTION k)

/-- The loader may take the next section: a buffer is free. -/
def sectionFree (s : State) : Bool :=
  s.ldr.active && !s.ldr.hdr.isEmpty && decide (s.ldr.next < hdrSections s.ldr.hdr) && (!s.ldr.executing || s.ldr.buf2.isNone)

/-- The bytes of the next section have arrived: its CRC, one retry for a flash image, then its buffer. -/
def sectionTake (bytes : List Byte) (s : State) : State :=
  let k := s.ldr.next
  let h := s.ldr.hdr
  if bytes.length ≠ secLength h k ∨ (crc32 bytes).toNat ≠ secCrc h k then
    if hostImage s ∨ s.ldr.retry then ldrFail 5 (secOffset h k) s
    else
      let s := (({ s with ldr := { s.ldr with retry := true } }).count LDR_CNT_SECTION_RETRY).ev LDR_EVENT_SECTION_RETRY
      s.send (.flash 0xEC (imageBase (s.get LDR_STATUS_SOURCE) + secOffset h k))
  else
    let s : State := { s with ldr := { s.ldr with all := s.ldr.all ++ bytes, next := k + 1, retry := false } }
    if s.ldr.executing then { s with ldr := { s.ldr with buf2 := some bytes } } else sectionBegin k bytes s

/-- SECTION_READ_DONE: the bytes the flash gave, or those the host has written. -/
def sectionReadDone (bytes : List Byte) (s : State) : State :=
  if !sectionFree s then s
  else if !hostImage s then sectionTake bytes s
  else
    let n := secLength s.ldr.hdr s.ldr.next
    if s.ldr.stream.length < n then s
    else
      let bytes := s.ldr.stream.take n
      sectionTake bytes (fifoSpace { s with ldr := { s.ldr with stream := s.ldr.stream.drop n } })

/-- The front record has been executed: the next one of the section, or the section read ahead. -/
def recDone (s : State) : State :=
  if !s.ldr.active then s
  else
    let n := 4 + recLen s
    let s : State := { s with ldr := { s.ldr with buf := s.ldr.buf.drop n, offset := s.ldr.offset + n, wait := .none } }
    let s := ldrPhase 2 s
    if !s.ldr.buf.isEmpty then ldrFront s
    else
      let s : State := { s with ldr := { s.ldr with executing := false } }
      match s.ldr.buf2 with
      | none => fifoSpace s
      | some b => fifoSpace (sectionBegin (s.ldr.next - 1) b { s with ldr := { s.ldr with buf2 := none } })

/-- A record row executes the record at the front where it is of its TYPE and nothing is waited for. -/
def record (ty : Nat) (f : List Byte → State → State) (s : State) : State :=
  if s.ldr.active ∧ s.ldr.executing ∧ s.phase = 2 ∧ recType s = ty then
    let s : State := if ty = 8 then s else { s with ldr := { s.ldr with tblMixed := true } }
    f (recBody s) s
  else s

/-! ### Writes (R625) -/

/-- The loader writes one word; a discard is counted. -/
def loaderPut (a v : Nat) (s : State) : State :=
  if !s.ldr.active then s
  else
    let x := busWrite .loader a 15 (BitVec.ofNat 32 v) s
    if x.1 ≠ 0 ∧ x.2.ldr.active then (x.2.count LDR_CNT_WRITE_REJ).ev LDR_EVENT_WRITE_REJ else x.2

/-- Words to consecutive addresses. -/
def loaderBlock (a : Nat) : List Nat → State → State
  | [], s => s
  | v :: t, s => loaderBlock ((a + 4) % 2 ^ 32) t (loaderPut a v s)

/-- One word to consecutive addresses, `n` times. -/
def loaderFill (v : Nat) : Nat → Nat → State → State
  | 0, _, s => s
  | n + 1, a, s => loaderFill v n ((a + 4) % 2 ^ 32) (loaderPut a v s)

/-- Pairs of address and value, in order. -/
def loaderPairs : List Nat → State → State
  | a :: v :: t, s => loaderPairs t (loaderPut a v s)
  | _, s => s

/-! ### The records' effects -/

def recWrite32 (b : List Byte) (s : State) : State := recDone (loaderPairs (bodyWords b) s)

def recWriteBlock (b : List Byte) (s : State) : State := recDone (loaderBlock (bodyWord b 0) ((bodyWords b).drop 1) s)

def recFill (b : List Byte) (s : State) : State := recDone (loaderFill (bodyWord b 2) (bodyWord b 1) (bodyWord b 0) s)

/-- MODIFY reads the word, then writes it under its mask. -/
def recModify (b : List Byte) (s : State) : State :=
  let a := bodyWord b 0
  let mask : Word := BitVec.ofNat 32 (bodyWord b 1)
  let x := busRead .loader a s
  let old : Word := BitVec.ofNat 32 x.2.1
  recDone (loaderPut a ((old &&& ~~~mask) ||| (BitVec.ofNat 32 (bodyWord b 2) &&& mask)).toNat x.2.2)

/-- WAIT_TIME and WAIT_BIT hold execution. -/
def recWait (w : LdrWait) (s : State) : State := ldrPhase 3 { s with ldr := { s.ldr with wait := w } }

def recWaitTime (_ : List Byte) (s : State) : State := recWait .time s

def recWaitBit (b : List Byte) (s : State) : State :=
  recWait (.bit (bodyWord b 0) (bodyWord b 1) (bodyWord b 2) (bodyWord b 4 == 1)) s

/-- The wait of a WAIT_TIME record ends. -/
def waitTimeExpire (s : State) : State :=
  match s.ldr.wait with
  | .time => if s.ldr.active then recDone s else s
  | _ => s

/-- A poll of a WAIT_BIT record: the word is read, and execution resumes where it matches. -/
def waitBitMatch (s : State) : State :=
  match s.ldr.wait with
  | .bit a mask expect _ =>
    if !s.ldr.active then s
    else
      let x := busRead .loader a s
      if (BitVec.ofNat 32 x.2.1 &&& BitVec.ofNat 32 mask : Word) = BitVec.ofNat 32 expect then recDone x.2.2 else x.2.2
  | _ => s

/-- The timeout of a WAIT_BIT record expires. -/
def waitBitTimeout (s : State) : State :=
  match s.ldr.wait with
  | .bit _ _ _ fail =>
    if !s.ldr.active then s
    else if fail then ldrFail 8 s.ldr.offset s
    else recDone (s.ev LDR_EVENT_WAIT_EXPIRED)
  | _ => s

/-- TABLE_LOAD writes its words, and its section enters the reload directory (R626). -/
def recTableLoad (b : List Byte) (s : State) : State :=
  let r := bodyWord b 0 % 256
  let a := bodyWord b 1
  let words := (bodyWords b).drop 2
  let bytes := smGet 0 s.ldr.tblBytes r + (if s.ldr.tblRegion.isSome then 0 else secLength s.ldr.hdr (s.get LDR_STATUS_SECTION))
  let k := s.get LDR_STATUS_SECTION
  let sec : SecRec := ⟨secOffset s.ldr.hdr k, secLength s.ldr.hdr k, secCrc s.ldr.hdr k⟩
  let had := smGet [] s.ldr.dirNew r
  let s : State := { s with ldr := { s.ldr with
    tblRegion := some r, tblBytes := smSet 0 s.ldr.tblBytes r bytes,
    dirNew := smSet [] s.ldr.dirNew r (if had.contains sec then had else had ++ [sec]) } }
  recDone (if bodyWord b 0 < 256 then loaderBlock a words s else loaderFill (bodyWord b 3) (bodyWord b 2) a s)

/-- KEY: the signing key, or the MMP key, byte 0 in the low byte of the lowest word (R620, R662). -/
def recKey (b : List Byte) (s : State) : State :=
  if bodyWord b 0 = 1 then recDone { s with ldr := { s.ldr with signKey := some ((b.drop 4).take 64) } }
  else
    recDone (forEach [7, 6, 5, 4, 3, 2, 1, 0] (fun k s => loaderPut (MGT_MMP_KEY.addr + 4 * k) (bodyWord b (k + 1)) s) s)

/-- SIGNATURE: the verification starts (R629). -/
def recSignature (b : List Byte) (s : State) : State :=
  ldrPhase 4 { s with ldr := { s.ldr with sigAt := some s.ldr.offset, sig := b } }

/-- The verification ends: the hash of the key against KEY_HASH, then ECDSA P-256 with SHA-256 over every byte before the
SIGNATURE record (R629). -/
def signatureVerified (s : State) : State :=
  match s.ldr.sigAt, s.ldr.signKey with
  | some n, some key =>
    if !s.ldr.active ∨ s.phase ≠ 4 then s
    else if s.otp.keyHash ≠ some (natBE (sha256 key)) then ldrFail 9 n s
    else
      let num := fun (l : List Byte) (o : Nat) => natBE ((l.drop o).take 32)
      if ecdsaOk (num key 0) (num key 32) (num s.ldr.sig 0) (num s.ldr.sig 32) (s.ldr.all.take n) then
        recDone s
      else ldrFail 0x0A n s
  | _, _ => s

/-! ### Commit (R42, R627, R644) -/

/-- One deferred enable is applied: its register is written with the held bits set. -/
def deferApply (h : HeldWrite) (s : State) : State :=
  let old := match regAt h.addr with
    | some r => s.wide r.wide % 2 ^ 32
    | none => 0
  loaderPut h.addr (old ||| h.v) s

/-- BACKED stands for exactly the regions whose TABLE_LOAD records a flash image executed (R546, R626). -/
def backedSet (s : State) : State :=
  let flash := !hostImage s
  let s : State := { s with ecc := { s.ecc with dir := if flash then s.ldr.dirNew else [] } }
  forEach [3, 4, 5, 6, 7, 8, 9] (fun r s => s.putB (ECC_REG_BACKED r) (flash && !(smGet [] s.ecc.dir r).isEmpty)) s

/-- END commits the image: the deferred enables in order, then RUNNING.  A mismatch of the registers that a reload leaves is a further
escalation (R554).  R42 lists no ENTRY_CAUSE for an entry by Capstan lock or by
END: the field keeps the cause of the entry before (DESIGN CHOICE, log entry 123). -/
def recEnd (_ : List Byte) (s : State) : State :=
  let s := ldrPhase 5 s
  let s := forEach s.ldr.defer deferApply s
  let s := backedSet s
  let us := (s.now - s.ldr.started) / 250
  let s := (s.put GLB_STATE_IMAGE (s.get LDR_STATUS_SOURCE)).put LDR_IMAGE_VER_V s.ldr.imgVer
  let s := (s.put LDR_LOAD_TIME_V (min us (2 ^ 32 - 1))).ev LDR_EVENT_DONE
  let s : State := { s with ldr := { s.ldr with imgCrc := hdrWord s.ldr.hdr (0x3C + 12 * hdrSections s.ldr.hdr) } }
  let s := (ldrPhase 8 (ldrStop s)).put LDR_STATUS_SOURCE 3
  let stays := if s.ldr.reload && s.on ECC_CTRL_CFG_RELOAD && s.on ECC_CTRL_CFG_CHECK_EN then upsetBlocks s else []
  let s : State := { s with
    ldr := { s.ldr with reload := false, left := [] }, ecc := { s.ecc with met := stays }, escDue := s.escDue + stays.length }
  let s := (s.put GLB_CTRL_RELOAD 0).put GLB_STATE_STATE 3
  let s := if s.on TB_STATUS_SRC_VOID then s.ev TB_EVENT_SRC_VOID else s
  outStatusAll s

end Sys2Proof.Machine
end

