-- ==== Sys2Proof/Machine/Mgt.lean ====
section
/-!
DEFINITION. Management access that is not a plain register access (R650 to R663): the PCIe endpoint, the CPU port's rings, SPI, the
Mehrid Management Protocol, JTAG.
-/

namespace Sys2Proof.Machine

/-! ### PCIe (R651, R652) -/

/-- Bus Master Enable takes a value; the link of P64 follows (R258). -/
def bmeSet (v : Bool) (s : State) : State := portEval 64 { s with mgt := { s.mgt with bme := v } }

/-- PCIE_PERST_N resets the endpoint: its command register and MSI-X with it. -/
def pciePerst (s : State) : State :=
  bmeSet false { s with mgt := { s.mgt with msixEn := false, msixMask := false, vecMask := 0xFFFFFFFF, vecPend := 0 } }

/-- A dword of configuration space (R651); `f` numbers the read of one that the spec does not give. -/
def cfgDword (reg f : Nat) : Nat :=
  if reg = 0 then 0x64800000 + Config.pcieVendor % 2 ^ 16 else if reg = 2 then 0x020000B0 else Config.pcieSpace f % 2 ^ 32

/-- A request of the endpoint before LOADING: Retry Status for one to configuration space (R652). -/
def cfgRetry (q : CfgReq) (s : State) : State :=
  match q with
  | .vector _ _ => s
  | _ => s.send (.cfg true)

/-- A request of the endpoint is carried out: a read answers its data, a write takes effect. -/
def cfgMake (q : CfgReq) (s : State) : State :=
  match q with
  | .read reg => (s.fresh.2.send (.cfg false)).send (.cfgData reg.val (cfgDword reg.val s.fresh.1))
  | .command v => msixRelease (bmeSet v (s.send (.cfg false)))
  | .msix en mask =>
    let s := s.send (.cfg false)
    msixRelease { s with mgt := { s.mgt with msixEn := en, msixMask := mask } }
  | .vector v masked =>
    let m := s.mgt.vecMask
    msixRelease { s with mgt := { s.mgt with vecMask := if masked then m ||| 2 ^ v.val else m &&& (0xFFFFFFFF - 2 ^ v.val) } }

/-- A configuration request, answered with Retry Status until LOADING (R652). -/
def configRequest (q : CfgReq) (s : State) : State :=
  if s.dev = .reset ∨ s.dev = .clockStart then cfgRetry q s else cfgMake q s

/-! ### The rings of the CPU port (R653 to R656) -/

/-- A ring holds a descriptor given to the device: HEAD stands short of TAIL. -/
def ringReady (s : State) (r : Nat) : Bool :=
  s.on (MGT_RING_EN_V r) && s.get (MGT_RING_HEAD_V r) != s.get (MGT_RING_TAIL_V r)

/-- The rings are served: the link of P64 is up and the port with it, and the clocks run. -/
def dmaRuns (s : State) : Bool := portLinked s 64 && s.portUp 64 && !s.gated

/-- The TX ring that is served: TX7 first (R655). -/
def txServed (s : State) : Option Nat := ((List.range 8).reverse).find? (ringReady s)

/-- A descriptor of ring `r` completes: HEAD and the ring's event; a frame counts. -/
def ringDone (r : Nat) (frame : Bool) (s : State) : State :=
  let s := s.put (MGT_RING_HEAD_V r) ((s.get (MGT_RING_HEAD_V r) + 1) % s.get (MGT_RING_SIZE_V r))
  let s := s.putBit MGT_DMA_EVENT_V r true
  if frame then s.count (MGT_RING_FRAMES_V r) else s

/-- Word 3 of a TX descriptor written back: OWN 0, DONE 1, ERR. -/
def txWord3 (err : Nat) : Nat := 2 + 16 * err

/-- A TX descriptor ends with an error and sends nothing (R655). -/
def txFail (t err : Nat) (s : State) : State := ((ringDone t false s).ev MGT_EVENT_DMA_ERR).send (.dmaTx t (txWord3 err))

/-- The insertion block of a descriptor, in its words 4 to 10 (R279). -/
def insBlock (d : List Word) : InsCmd :=
  let w := fun (k : Nat) => (d.getD (4 + k) 0).toNat
  let base := w 2 + 2 ^ 32 * w 3 + 2 ^ 64 * w 4
  { op := w 0 % 16, l4 := w 0 / 16 % 4, loopback := (w 0).testBit 6, offset := w 0 / 2 ^ 16 % 4096, l4off := w 1 % 65536,
    base := base / 2 ^ 48 * (1000000000 * 2 ^ 16) + base % 2 ^ 48, addend := signed 64 (w 5 + 2 ^ 32 * w 6) }

/-- A frame of the host enters ingress pipeline 0, stamped on the grid as its first byte enters (R26, R270). -/
def cpuFrame (ins : InsCmd) (l : List Byte) (s : State) : State :=
  let all := l ++ fcsOf l
  let rx : RxWindow := { bytes := all, ended := true, bad := false, rx := ⟨0, 0, 0, 0⟩, eb := [] }
  frameEnd 64 [] false true (frameDecide 64 rx (arrival s 64 rx.rx) ins s)

/-- The device takes the descriptor at the HEAD of TX ring `t`, with the bytes its read of the buffer gave (R653 to R655).  The frame's
class is that of R385, as for any frame of P64 (DEDUCED, log entry 174). -/
def dmaTx (t : Nat) (d : List Word) (frame : List Byte) (s : State) : State :=
  let len := (d.getD 2 0).toNat % 2 ^ 14
  let n := cellsOf (len + 4)
  if !dmaRuns s ∨ txServed s ≠ some t ∨ !(d.getD 3 0).getLsbD 0 then s
  else if len < 60 ∨ 9596 < len then txFail t 1 s
  else if frame.length < len then s
  else if s.get (POOL_FREE_V 2) < n ∨ !s.on (POOL_CFG_EN 2) then s
  else
    let a := cpuBuffers clsCpuDma n s
    let s := cpuFrame (insBlock d) (frame.take len) a.2
    let s := forEach a.1 (fun i s => (poolFree 2 i clsCpuDma s).2) s
    (ringDone t true s).send (.dmaTx t (txWord3 0))

/-- A host read for the descriptor at the HEAD of TX ring `t` fails or takes more than 10 ms (R654). -/
def dmaReadTimeout (t : Nat) (s : State) : State :=
  if dmaRuns s ∧ txServed s = some t then txFail t 2 s else s

/-- Words 3 to 7 of an RX descriptor written back (R654). -/
def rxWords (len port tc flags stamp bufLen : Nat) : List Nat :=
  let trunc := if bufLen < len then 16 else 0
  let st := tb96OfSns stamp
  [2 + 2 ^ 16 * len, port + 2 ^ 8 * tc + 2 ^ 16 * (flags + trunc), st % 2 ^ 32, st / 2 ^ 32 % 2 ^ 32, st / 2 ^ 64]

/-- A frame goes to the buffer of ring RX `t`. -/
def rxDeliver (t bufLen : Nat) (l : List Byte) (port tc flags stamp : Nat) (s : State) : State :=
  (ringDone (8 + t) true s).send (.dmaRx t (rxWords l.length port tc flags stamp bufLen) (l.take bufLen))

/-- The head copy of queue Q(64, t) is delivered (R656); one with a poisoned cell is discarded (R549). -/
def rxQueue (t bufLen c : Nat) (s : State) : State :=
  let q := 512 + t
  let k := s.copyRec c
  let s := cellsLook (onChipOf (s.queueRec q) c) s
  if (s.frameRec k.frame).poison then copyDrop c clsEgress ((s.count ECC_CNT1_POISON_DROP).ev ECC_EVENT_POISON)
  else
    let d := dequeue q c clsEgress s
    let s := freeCellsQ clsEgress d.1 d.2
    let f := s.frameRec k.frame
    let l := (egressEdit f k).1
    let all := l ++ fcsOf l
    let s := countSent 64 t all false s
    let s := rxDeliver t bufLen all f.port t ((if f.invalid then 8 else 0) + (if f.fine then 32 else 0)) f.stamp s
    residenceOf q (frameUnref k.frame (s.setCopy c {}))

/-- The next RX descriptor of ring `t` takes a loop-back copy, where they go to this ring, else the head of its queue. -/
def dmaRx (t bufLen : Nat) (s : State) : State :=
  if !dmaRuns s ∨ !ringReady s (8 + t) then s
  else
    let loops := if s.get MGT_DMA_CTRL_LB_RING = t then s.mgt.loops else []
    match loops with
    | b :: rest =>
      let s : State := { s with mgt := { s.mgt with loops := rest } }
      let s := forEach b.bufs (fun i s => (poolFree 2 i clsCpuDma s).2) s
      rxDeliver t bufLen b.bytes b.port b.tc b.flags b.stamp s
    | [] =>
      let s := queueJoin (512 + t) s
      match headReady s (512 + t) with
      | some c => rxQueue t bufLen c s
      | none => s

/-! ### SPI (R657) -/

/-- The status byte after a write with an outcome, and after a read. -/
def spiAfter (status : Nat) : Nat := if status = 0 then 0 else if status = 1 then 3 else if status = 4 then 5 else 1

/-- The byte that reports the last access. -/
def spiMark (v : Nat) (s : State) : State := { s with mgt := { s.mgt with spiStat := v } }

/-- WRITE: each whole group of four bytes is one write, to the address and then to each next word. -/
def spiWrites : Nat → Nat → List Byte → State → State
  | 0, _, _, s => s
  | n + 1, a, l, s =>
    if l.length < 4 then s
    else
      let x := busWrite .spi a 15 (BitVec.ofNat 32 (natBE (l.take 4))) s
      spiWrites n ((a + 4) % 2 ^ 32) (l.drop 4) (spiMark (spiAfter x.1) x.2)

def spiWrite (a : Nat) (l : List Byte) (s : State) : State :=
  if accWaits s .spi then accWait (.spiWrite a l) s
  else if served s .spi then spiWrites (l.length / 4) a l s else s

/-- READ: after 0x5A, the words at ascending addresses. -/
def spiReads : Nat → Nat → State → List Byte × State
  | 0, _, s => ([], s)
  | n + 1, a, s =>
    let x := busRead .spi a s
    let r := spiReads n ((a + 4) % 2 ^ 32) (spiMark (if x.1 = 4 then 4 else 0) x.2.2)
    (0x5A :: beBytes 4 x.2.1 ++ r.1, r.2)

def spiRead (a n : Nat) (s : State) : State :=
  if accWaits s .spi then accWait (.spiRead a n) s
  else if served s .spi then
    let r := spiReads n a s
    r.2.send (.spi r.1)
  else s

/-- STATUS: the byte goes out and clears. -/
def spiStatus (s : State) : State :=
  if served s .spi then spiMark 0 (s.send (.spi [BitVec.ofNat 8 s.mgt.spiStat])) else s

/-- An access that has waited ACC_TO completes; SPI reports it (R650, R657). -/
def accessTimeout (m : BusMaster) (a : Nat) (write : Bool) (s : State) : State :=
  let s' := busTimeout m a write s
  if m = .spi ∧ accWaits s m then spiMark (if write then 5 else 4) s' else s'

/-- An access that waited is made. -/
def waitMake (w : WaitAccess) (s : State) : State :=
  match w with
  | .write m a be v => busStore m a be v s
  | .read m a => busGet m a s
  | .spiWrite a l => spiWrite a l s
  | .spiRead a n => spiRead a n s

/-- The clocks are released: the accesses that waited are made in order (R74). -/
def waitServe (s : State) : State :=
  if s.gated then s else forEach s.mgt.waiting waitMake { s with mgt := { s.mgt with waiting := [] } }

/-! ### The Mehrid Management Protocol (R658 to R662) -/

/-- A request is discarded and counted. -/
def mmpDrop (f : Fld) (s : State) : State := (s.countSat f).ev MGT_EVENT_MMP_DROP

/-- One operation is executed: its twelve bytes with STATUS and VALUE filled. -/
def mmpOp (l : List Byte) (s : State) : List Byte × State :=
  let a := natLE ((l.drop 4).take 4)
  let v := natLE ((l.drop 8).take 4)
  let fill := fun (st v : Nat) => l.take 1 ++ [BitVec.ofNat 8 st] ++ (l.drop 2).take 6 ++ leBytes 4 v
  match byteAt l 0 with
  | 1 => let x := busRead .mmp a s; (fill x.1 x.2.1, x.2.2)
  | 2 => let x := busWrite .mmp a 15 (BitVec.ofNat 32 v) s; (fill x.1 v, x.2)
  | _ => (fill 3 v, s)

/-- The operations in order. -/
def mmpOps : Nat → List Byte → State → List Byte × State
  | 0, _, s => ([], s)
  | n + 1, l, s =>
    let x := mmpOp (l.take 12) s
    let r := mmpOps n (l.drop 12) x.2
    (x.1 ++ r.1, r.2)

/-- Up to `n` cells of pool 0 for class MGMT (R438). -/
def mgmtCells (floor : Nat) : Nat → State → List Nat × State
  | 0, s => ([], s)
  | n + 1, s =>
    match poolAlloc 0 clsMgmt floor s with
    | (some b, s) => let r := mgmtCells 0 n (cellWritten b s); (b :: r.1, r.2)
    | (none, s) => ([], s)

/-- A response is queued on port `p` as an untagged frame in the class of MGT_MMP_CFG; it is dropped where the port is not UP. -/
def mmpSend (p : Nat) (l : List Byte) (s : State) : State :=
  let l := l ++ List.replicate (60 - l.length) 0
  let all := l ++ fcsOf l
  let n := cellsOf all.length
  let c := mgmtCells (s.get QM_RESERVE_V) n s
  let s := c.2
  if c.1.length < n then freeCellsQ clsMgmt c.1 s
  else
    let f := freeFrame s
    let tc := s.get MGT_MMP_CFG_TC
    let s := s.setFrame f { live := true, port := p, bytes := all, tail := true, tc := tc, cells := c.1, provisional := all.length, arrived := s.clk }
    let s := copyOfferAs f p tc false false true {} s
    if (queuedCopies s f).isEmpty then frameTidy f (freeCellsQ clsMgmt c.1 s) else s

/-- A request that has been accepted is executed and answered (R661). -/
def mmpServe (r : MmpReq) (pdu : List Byte) (n : Nat) (s : State) : State :=
  let s := ((s.putWide MGT_MMP_LAST_SEQ (natLE ((pdu.drop 4).take 8))).count MGT_MMP_ACCEPTED_V)
  let x := mmpOps n (pdu.drop 16) s
  let s := x.2
  let body := pdu.take 1 ++ [2] ++ (pdu.drop 2).take 14 ++ x.1
  let mac := s.wide MGT_MMP_MAC % 2 ^ 48
  let head := (r.frame.drop 6).take 6 ++ beBytes 6 mac ++ [0x88, 0xB5]
  mmpSend r.port (head ++ body ++ hmac256 (leBytes 32 (s.wide MGT_MMP_KEY)) body) s

/-- The request that has waited longest is checked, FORMAT, AUTH, REPLAY, and served (R660). -/
def mmpRequest (s : State) : State :=
  match s.mgt.mmpq with
  | [] => s
  | r :: rest =>
    if !served s .mmp then s
    else
      let s : State := { s with mgt := { s.mgt with mmpq := rest } }
      let p := parseFrame r.frame
      let pdu := (r.frame.take (r.frame.length - 4)).drop p.off
      let n := natLE ((pdu.drop 2).take 2)
      let size := 16 + 12 * n
      let zero := ((pdu.drop 12).take 4).all (fun b => b == 0)
      if byteAt pdu 0 ≠ 1 ∨ byteAt pdu 1 ≠ 1 ∨ n = 0 ∨ 64 < n ∨ !zero ∨ pdu.length < size + 32 then mmpDrop MGT_MMP_CNT_FORMAT s
      else if !s.on MGT_MMP_CFG_KEY_SET ∨
          hmac256 (leBytes 32 (s.wide MGT_MMP_KEY)) (pdu.take size) ≠ (pdu.drop size).take 32 then mmpDrop MGT_MMP_CNT_AUTH s
      else if natLE ((pdu.drop 4).take 8) ≤ s.wide MGT_MMP_LAST_SEQ then mmpDrop MGT_MMP_CNT_REPLAY s
      else mmpServe r pdu n s

end Sys2Proof.Machine
end

