-- ==== Sys2Proof/Machine/Device.lean ====
section
/-!
DEFINITION. The device as a whole: reset and its release, the root declaration and the way to LOADING (R38, R52, R53, R615 to
R618), JTAG (R663), the pins that follow the state (R41, R666), and what every command leaves to be followed up.
-/

namespace Sys2Proof.Machine

/-! ### Reset (R38, R589, R615, R616) -/

/-- The device enters RESET: the FRAM, the fuses, the wall time and the JTAG instruction are all that stay; calibrated objects take
their factory values (R516). -/
def deviceReset (cause : Nat) (s : State) : State :=
  let s := ppsSilence s
  let r : State := { State.reset with
    fram := s.fram, otp := s.otp, now := s.now, freeNo := s.freeNo, out := s.out, pending := s.pending, inReset := true,
    mgt := { jtag := s.mgt.jtag }, tiu := factoryTiu s.otp, cal := factoryCal s.otp }
  (r.put GLB_STATE_ENTRY_CAUSE cause).put SYN_BAND_STORE_BAND s.otp.band

/-- RESET_N is high with supply-good asserted: the straps are sampled, the device enters CLOCK_START, and a flash boot reads the first
header (R52, R616, R617). -/
def resetRelease (st : Straps) (s : State) : State :=
  if !s.inReset then s
  else
    let s : State := { s with inReset := false, ldr := { s.ldr with started := s.now } }
    let s := (s.put LDR_STATUS_BOOT_SEL st.bootSel.val).putB PAIR_STATUS_PREFERRED st.mateRole
    let s := (s.putB SYN_STATUS_OCXO_WARM st.ocxoWarm).putB TIU_STATUS_OCXO_WARM st.ocxoWarm
    if st.bootSel.val < 2 then s.send (.flash 0x13 (imageBase st.bootSel.val)) else s

/-- The declaration a header gives, where it is readable and names a root (R52, R54).  A readable header whose FREQ is the reserved code
0b111 gives none, and the next header, or ROOT_DEFAULT, does (DESIGN CHOICE, log entry 128). -/
def headerDeclares (h : List Byte) : Option Nat :=
  if hdrReadable h ∧ hdrWord h 0x10 % 8 ≠ 7 then some (hdrWord h 0x10 % 8 + 2 ^ 16 * (hdrWord h 0x10 / 2 ^ 16)) else none

/-- The single-bit header reads are complete: the declaration comes from the first header that gives one, else from ROOT_DEFAULT, and
the Capstan starts (R52, R53, R616). -/
def rootDeclarationRead (a b : List Byte) (s : State) : State :=
  if s.dev ≠ .clockStart ∨ s.syn.attempt ∨ s.on SYN_STATUS_LOCKED then s
  else
    let boot := s.get LDR_STATUS_BOOT_SEL
    let da := if boot = 0 then headerDeclares a else none
    let useB := boot = 1 ∨ (boot = 0 ∧ da.isNone)
    let db := if useB then headerDeclares b else none
    let s : State := { s with ldr := { s.ldr with hdrA := if boot = 0 then a else [], hdrB := if useB then b else [] } }
    let v := match da, db with
      | some v, _ => v
      | none, some v => v
      | none, none => s.otp.rootDefault % 8 + 8 + 2 ^ 16 * (s.otp.rootDefault / 2 ^ 16)
    let s := if boot = 0 ∧ useB then s.send (.flash 0x13 (imageBase 1)) else s
    lockStart (s.setWord SYN_ROOT (BitVec.ofNat 32 v))

/-- The hardware regions are written after the Capstan first reaches nominal, and LOADING follows (R618, R537). -/
def hwRegionInit (s : State) : State :=
  if s.dev ≠ .clockStart ∨ !s.on SYN_STATUS_LOCKED ∨ !s.nominal then s
  else
    let s := forEach [1, 2, 7, 10, 11, 12, 13, 14, 15] (fun r s => s.putBit ECC_INIT_DONE_V r true) s
    let s := s.put GLB_STATE_STATE 2
    outStatusAll (ldrLaunch (bootOrder (s.get LDR_STATUS_BOOT_SEL)) s)

/-! ### JTAG (R663) -/

/-- An instruction that drives the balls from the boundary register. -/
def JtagInstr.drives : JtagInstr → Bool
  | .extest | .extestPulse | .extestTrain => true
  | _ => false

/-- The TAP takes an instruction; where it leaves one of the EXTEST instructions the device resets. -/
def jtagTake (i : JtagInstr) (s : State) : State :=
  let leaves := s.mgt.jtag.drives && s.mgt.jtag != i
  let s : State := { s with mgt := { s.mgt with jtag := i } }
  if leaves then deviceReset 0 s else s

/-- The TAP leaves an EXTEST instruction. -/
def extestExit (s : State) : State := if s.mgt.jtag.drives then jtagTake .idcode s else s

/-- The identification register. -/
def jtagId : Nat := 0x1648096B

/-! ### Pins that follow the state (R41, R72, R602, R666) -/

/-- FAULT_N is asserted: in every state but RUNNING, and while a major alarm is active. -/
def faultAsserted (s : State) : Bool := !s.running || s.majorActive

/-- CLKOUTn is high impedance: in RESET and CLOCK_START (R693), or with STOP_HIZ once it has been held low for one whole low phase after its
stop (R85); in SAFE_MODE it is disabled and low (R633). -/
def clkoutHiz (s : State) (n : Nat) : Bool :=
  s.dev = .reset || s.dev = .clockStart || ((s.dev = .loading || s.dev = .running) && !s.bit OUT_ENABLE_EN n && s.on (OUT_CFG_STOP_HIZ n) && (s.outRec n).phase == .off)

/-- The level of PPSOUTn: low where the device state holds it (R41), else its pulse under POLARITY (R113). -/
def ppsPin (s : State) (n : Nat) : Bool :=
  (s.dev = .loading || s.dev = .running) && ((s.ppsRec n).high != s.on (PPS_OUT_CFG_POLARITY n))

/-! ### What every command leaves to be followed up -/

/-- Vectors whose OR has risen send their message (R665). -/
def msixRaise (old s : State) : State :=
  if old.regs = s.regs then s
  else forEach ((vecsHigh s).filter (fun v => !(vecsHigh old).contains v)) msixFire s

/-- The mate slot and the P65 session follow a change of the pair (R572, R573). -/
def pairChange (old s : State) : State :=
  if old.word PAIR_STATUS = s.word PAIR_STATUS ∧ old.word PAIR_CTRL = s.word PAIR_CTRL then s
  else
    let s := forEach [8, 9, 10, 11] (fun n s =>
      if mateMasked old n != mateMasked s n then slotEnFollow (slotOn old n) n s else s) s
    if old.pairState = s.pairState then s else stateDecision (pairDom s) s

/-! ### Accesses to the hardware regions (R541, R547, R558) -/

/-- The first of some keys at which two states differ in what `f` gives. -/
def firstDiff {α : Type} [DecidableEq α] (keys : List Nat) (f : State → Nat → α) (old s : State) : Option Nat :=
  (keys.eraseDups).find? (fun k => f old k ≠ f s k)

/-- The lowest object of a hardware region that a command has written (R537), as what it holds has changed; its number is that of `hwObject`. -/
def hwTouched (old s : State) (r : Nat) : Option Nat :=
  let keys := fun {α : Type} (f : State → SMap α) => ((f old ++ f s).map (fun e => e.1)).mergeSort (fun a b => decide (a ≤ b))
  match r with
  | 1 => firstDiff (keys (·.queues)) (fun s q => let x := s.queueRec q; (x.copies, x.head, x.staging, x.pages)) old s
  | 2 => firstDiff (keys (·.bufs)) (fun s k => smGet {} s.bufs k) old s
  | 10 => firstDiff (keys (·.sess)) (fun s k => s.sessRec k) old s
  | 11 => if old.regs = s.regs then none
    else firstDiff (List.range counterWords) (fun s n => s.word ⟨counterAddr n, 0⟩) old s
  | 12 => if old.get PMC_DUMP_SEQ_V ≠ s.get PMC_DUMP_SEQ_V ∧ old.mem ≠ s.mem then some (old.get PMC_DUMP_STATUS_CHIP_WR) else none
  | 13 => firstDiff (keys (·.ports)) (fun s p => (s.portRec p).launches.map (fun l => l.copy)) old s
  | 14 =>
    if old.sel.secs ≠ s.sel.secs then some (old.sel.secs % 4096)
    else (firstDiff (keys (·.ens)) (fun s k => s.ensRec k) old s).map (fun k => 4096 + k % 8)
  | 15 =>
    if old.tiu.fifo.length < s.tiu.fifo.length then some (7 * (s.tiu.fifo.length - 1) + 6)
    else if old.tiu.binsA ≠ s.tiu.binsA then some 0
    else if old.tiu.binsB ≠ s.tiu.binsB then some 7
    else (firstDiff (keys (·.cal.rotator)) (fun s k => smGet [] s.cal.rotator k) old s).map (fun k => 7 * k + 3)
  | _ => none

/-- The injected errors of the TIU's FIFO move up with a result that is read; the one of the oldest goes with it. -/
def fifoMoved (old s : State) : State :=
  if old.tiu.fifo.length = s.tiu.fifo.length + 1 then
    { s with ecc := { s.ecc with injected := s.ecc.injected.filterMap (fun e =>
        if e.1 = 15 ∧ e.2.1 % 7 = 6 then (if e.2.1 < 7 then none else some (15, e.2.1 - 7, e.2.2)) else some e) } }
  else s

/-- After a command: an object it has touched, in which an injected error stood, was read first, and that error is met (R547); the launched frame
of a port reads the port's express buffer; an object that was written ends its words' runs of corrections and takes an armed injection (R544, R558). -/
def hwAccess (old s : State) : State :=
  let s :=
    if s.ecc.injected.isEmpty then s
    else
      let s := forEach [1, 2, 10, 11, 14] (fun r s => match hwTouched old s r with
        | some o => hwLook r o s
        | none => s) (fifoMoved old s)
      forEach ((s.ports.filter (fun e => e.2.launches.any (fun l => l.launched))).map (fun e => e.1)) (hwLook 13) s
  let tracked := (s.ecc.track.map (fun t => t.region)) ++ (if s.on ECC_INJ_ARM then [s.get ECC_INJ_REGION] else [])
  forEach (tracked.eraseDups.filter (fun r => r != 0 && !inTables r)) (fun r s => match hwTouched old s r with
    | some o => hwWritten r o s
    | none => s) s

/-- The follow-up of a command: states that depend on others (SRC_VOID as R198 has it), an escalation due, and the interrupts. -/
def finish (old s : State) : State :=
  let s := srcVoidRefresh (pairChange old (pairFollowUp s))
  let s := ensFollowAll (timersFollow (decisionsNote old (forEach (committed s) sessRefresh s)))
  let s := selectorFollow old s
  let s := hwAccess old (calFollow s)
  let s : State := if old.stage ≠ 0 ∧ s.stage = 0 then { s with mgt := { s.mgt with resumed := true } } else s
  msixRaise old (forEach (List.replicate s.escDue ()) (fun _ s => escalate s) s)

/-- The follow-up, with what no command touches: the queue, the fuses, and that the device is out of RESET; no escalation stays due. -/
def settle (old s : State) : State :=
  { finish old s with
    inReset := false, otp := old.otp, pending := old.pending, escDue := 0 }

/-- A command acts outside RESET, and its follow-up with it; in RESET nothing is served (R38). -/
def run (f : State → State) (s : State) : Host.Outcome State Fault Refusal :=
  .next (if s.inReset then s else settle s (f s))

/-- A command of the TAP or of the reset balls acts in every state. -/
def runAlways (f : State → State) (s : State) : Host.Outcome State Fault Refusal := .next (f s)

/-- A request that is answered in every state (R652): in RESET by `r` alone, outside it as any command. -/
def runElse (r f : State → State) (s : State) : Host.Outcome State Fault Refusal :=
  .next (if s.inReset then r s else settle s (f s))

/-- A read of a master, which the endpoint answers in RESET too (R652). -/
def runRead (m : BusMaster) (a : Nat) (s : State) : Host.Outcome State Fault Refusal := runElse (busUnserved m) (busGet m a) s

/-- What runs on the domain clocks is held while they are gated (R37, R71). -/
def timed (f : State → State) (s : State) : Host.Outcome State Fault Refusal := run (fun s => if s.clocked then f s else s) s

/-- A timer of a lane has run out: it pauses while CLK_MGT is gated or at the safe ratio (R218). -/
def laneTimed (f : State → State) (s : State) : Host.Outcome State Fault Refusal :=
  run (fun s => if s.clocked && s.nominal then f s else s) s

/-- A port with a MAC of its own; P64 is the host port (R22). -/
def onMac (p : Nat) (f : State → State) (s : State) : State := if p = 64 then s else f s

/-- A rail has stayed below its reset level (R589, R615): which one it was shows nowhere after the reset. -/
def railReset (_ : Fin 5) (s : State) : State := deviceReset 1 s

/-- The write of a word with one field as the row names it. -/
def busSet (m : BusMaster) (f : Fld) (x : Nat) (v : Word) (s : State) : State :=
  busPut m f.reg.addr (insertBits v f.lsb f.width x) s

/-- The write of a word with two fields of one register as the row names them. -/
def busSet2 (m : BusMaster) (f : Fld) (x : Nat) (g : Fld) (y : Nat) (v : Word) (s : State) : State :=
  busPut m f.reg.addr (insertBits (insertBits v f.lsb f.width x) g.lsb g.width y) s

end Sys2Proof.Machine
end

