-- ==== Sys2Proof/Machine/FamAccess.lean ====
section
/-!
DEFINITION. Register access (R11, R12, R17, R650): one meaning per command of the table, over the operations of the block.
-/

namespace Sys2Proof.Machine

open Sys2Proof

/-- REGISTER_WRITE: A master writes a register or table word that has no row of its own, and each field acts by its access type (R17) -/
def execRegisterWrite (m : BusMaster) (addr : Word) (be : Fin 16) (v : Word) (s : State) : Host.Outcome State Fault Refusal :=
  run (busStore m addr.toNat be.val v) s

/-- WIDE_VALUE_CAPTURE: A read of the lowest word of a wide value captures the whole value into that master's read shadow (R11) -/
def execWideValueCapture (m : BusMaster) (addr : Word) (s : State) : Host.Outcome State Fault Refusal := runRead m addr.toNat s

/-- WIDE_VALUE_STAGE: A write to a higher word of a wide value goes to that master's staging register (R12) -/
def execWideValueStage (m : BusMaster) (addr : Word) (v : Word) (s : State) : Host.Outcome State Fault Refusal :=
  run (busPut m addr.toNat v) s

/-- WIDE_VALUE_COMMIT: A write to the lowest word commits it together with the staged higher words of the same master (R12) -/
def execWideValueCommit (m : BusMaster) (addr : Word) (v : Word) (s : State) : Host.Outcome State Fault Refusal :=
  run (busPut m addr.toNat v) s

/-- RC_FIELD_READ: A read of an RC field returns its value and clears it, unless the master is OBSERVE (R17) -/
def execRcFieldRead (m : BusMaster) (addr : Word) (s : State) : Host.Outcome State Fault Refusal := runRead m addr.toNat s

/-- ACCESS_TIMEOUT: An access that waited MGT_CFG.ACC_TO on a gated block completes, reading zero or discarded, and sets ACC_TO (R650)
-/
def execAccessTimeout (m : BusMaster) (addr : Word) (write : Bool) (s : State) : Host.Outcome State Fault Refusal :=
  run (accessTimeout m addr.toNat write) s

end Sys2Proof.Machine
end

