-- ==== Sys2Proof/Machine/FamClock.lean ====
section
/-!
DEFINITION. Reset, start-up and synthesis (chapters 1 and 2): one meaning per command of the table, over the operations of the block.
-/

namespace Sys2Proof.Machine

open Sys2Proof

/-- RESET_ASSERT: RESET_N goes low past its filter and the device enters RESET (R38) -/
def execResetAssert (s : State) : Host.Outcome State Fault Refusal := runAlways (deviceReset 0) s

/-- RAIL_BELOW_RESET: A rail stays below its reset level for more than 1 µs and the device resets (R589) -/
def execRailBelowReset (rail : Fin 5) (s : State) : Host.Outcome State Fault Refusal := runAlways (railReset rail) s

/-- RESET_RELEASE: RESET_N is high with supply-good asserted; straps are sampled and the device enters CLOCK_START (R615) -/
def execResetRelease (straps : Straps) (s : State) : Host.Outcome State Fault Refusal := runAlways (resetRelease straps) s

/-- ROOT_DECLARATION_READ: The single-bit header read completes and the root declaration is taken from it or from ROOT_DEFAULT (R52) -/
def execRootDeclarationRead (a : List Byte) (b : List Byte) (s : State) : Host.Outcome State Fault Refusal :=
  run (rootDeclarationRead a b) s

/-- CLOCK_START_RETRY: The Capstan has not locked 10 ms after entry or retry, and CLOCK_START retries (R38) -/
def execClockStartRetry (s : State) : Host.Outcome State Fault Refusal := run clockStartRetry s

/-- CAPSTAN_LOCK: The Capstan phase error stays below 20 ps for 2 µs; lock is declared and the clocks are released at the safe ratio
(R56) -/
def execCapstanLock (band : Fin 512) (ppm : Int) (s : State) : Host.Outcome State Fault Refusal := run (fun s => waitServe (capstanLock band ppm s)) s

/-- CAPSTAN_BAND_SEARCH: The stored band gives no lock within 25 µs and the Capstan runs its binary band search (R58) -/
def execCapstanBandSearch (s : State) : Host.Outcome State Fault Refusal := run bandSearch s

/-- SAFE_RATIO_END: After 2 µs at half rate, the domain clocks switch to nominal at a low phase (R69) -/
def execSafeRatioEnd (s : State) : Host.Outcome State Fault Refusal := run safeRatioEnd s

/-- HW_REGION_INIT: After the Capstan first reaches nominal, the hardware ECC regions are written and the device enters LOADING (R618)
-/
def execHwRegionInit (s : State) : Host.Outcome State Fault Refusal := run hwRegionInit s

/-- CAPSTAN_LOSS_OF_LOCK: The lock detector trips; the VCO control freezes, the clocks are gated and the Capstan relocks (R69) -/
def execCapstanLossOfLock (s : State) : Host.Outcome State Fault Refusal := run (capstanTrip SYN_EVENT_LOL) s

/-- FREQUENCY_EXCURSION: A frequency-excursion monitor flags a domain clock or a missing root, and the relock sequence starts (R67) -/
def execFrequencyExcursion (s : State) : Host.Outcome State Fault Refusal := run (capstanTrip SYN_EVENT_EXCURSION) s

/-- CAPSTAN_RELOCK_TIMEOUT: The Capstan has not relocked 1 ms after gating; a major alarm is raised and FAULT_N asserted (R72) -/
def execCapstanRelockTimeout (s : State) : Host.Outcome State Fault Refusal := run relockTimeout s

/-- CAPSTAN_RETRY: Every 10 ms the Capstan retries lock from its stored band and then by search (R72) -/
def execCapstanRetry (s : State) : Host.Outcome State Fault Refusal := run capstanRetry s

/-- OCXO_COOL: OCXO_WARM falls and SYN_EVENT.OCXO_COOL is set (R55) -/
def execOcxoCool (s : State) : Host.Outcome State Fault Refusal := run ocxoCool s

/-- DITHER_RESEED: A write of 1 to SYN_DITHER.RESEED reloads the dither LFSR from SYN_DITHER_SEED (R63) -/
def execDitherReseed (m : BusMaster) (v : Word) (s : State) : Host.Outcome State Fault Refusal :=
  run (busSet m SYN_DITHER_RESEED 1 v) s

/-- AUX_PLAN_HOP: A write of a new SYN_AUXn_CFG.PLAN_SEL stops the aux outputs and relocks the aux to the new plan (R77) -/
def execAuxPlanHop (m : BusMaster) (n : Fin 2) (v : Word) (s : State) : Host.Outcome State Fault Refusal :=
  run (busPut m (SYN_AUX_CFG n).addr v) s

/-- AUX_HOP_COMPLETE: The aux locks to its plan, releases its outputs at the safe ratio and stores the band in the plan (R77) -/
def execAuxHopComplete (n : Fin 2) (band : Fin 256) (s : State) : Host.Outcome State Fault Refusal := run (auxComplete n band) s

/-- AUX_LOSS_OF_LOCK: An aux synthesiser loses lock and AUX_LOL is set (R75) -/
def execAuxLossOfLock (n : Fin 2) (s : State) : Host.Outcome State Fault Refusal := run (auxLoss n) s

end Sys2Proof.Machine
end

