-- ==== Sys2Proof/Machine/FamFm.lean ====
section
/-!
DEFINITION. The Ferryman (chapter 8): one meaning per command of the table, over the operations of the block.
-/

namespace Sys2Proof.Machine

open Sys2Proof

/-- FM_ENABLE: A write of FM_CTRL.EN = 1 commits every session whose own and domain EN read 1, in ascending order (R329) -/
def execFmEnable (m : BusMaster) (v : Word) (s : State) : Host.Outcome State Fault Refusal := run (busSet m FM_CTRL_EN 1 v) s

/-- FM_DISABLE: A write of FM_CTRL.EN = 0 takes every session to DISABLED (R360) -/
def execFmDisable (m : BusMaster) (v : Word) (s : State) : Host.Outcome State Fault Refusal := run (busSet m FM_CTRL_EN 0 v) s

/-- FM_BLOCK_RESET: A write of 1 to FM_CTRL.RESET resets every session and empties both queues (R357) -/
def execFmBlockReset (m : BusMaster) (v : Word) (s : State) : Host.Outcome State Fault Refusal := run (busSet m FM_CTRL_RESET 1 v) s

/-- FM_BLOCK_RESET_DONE: A Ferryman block reset completes within 1 ms, RESETTING clears and the engine serves its queues again (R357) -/
def execFmBlockResetDone (s : State) : Host.Outcome State Fault Refusal := timed blockResetDone s

/-- FM_DOMAIN_ENABLE: A write of FM_DOMd_CFG.EN = 1 enables the domain and commits its sessions (R327) -/
def execFmDomainEnable (m : BusMaster) (d : Fin 4) (v : Word) (s : State) : Host.Outcome State Fault Refusal :=
  run (busSet m (FM_DOM_CFG_EN d) 1 v) s

/-- FM_DOMAIN_DISABLE: A write of FM_DOMd_CFG.EN = 0 moves every session of the domain to DISABLED (R327) -/
def execFmDomainDisable (m : BusMaster) (d : Fin 4) (v : Word) (s : State) : Host.Outcome State Fault Refusal :=
  run (busSet m (FM_DOM_CFG_EN d) 0 v) s

/-- FM_SESSION_ENABLE: A write of FM_SESSs_CFG.EN = 1 commits the session, or records REFUSED (R329) -/
def execFmSessionEnable (m : BusMaster) (k : Fin 512) (v : Word) (s : State) : Host.Outcome State Fault Refusal :=
  run (busSet m (FM_SESS_CFG_EN k) 1 v) s

/-- FM_SESSION_DISABLE: A write of FM_SESSs_CFG.EN = 0 takes the session to DISABLED (R333) -/
def execFmSessionDisable (m : BusMaster) (k : Fin 512) (v : Word) (s : State) : Host.Outcome State Fault Refusal :=
  run (busSet m (FM_SESS_CFG_EN k) 0 v) s

/-- INITIALIZATION_COMPLETE: A session finishes initialisation and enters LISTENING (R333) -/
def execInitializationComplete (k : Fin 512) (s : State) : Host.Outcome State Fault Refusal := timed (initComplete k) s

/-- SYNC_RX: A Sync is received and, with a delay present, forms an offset that is screened and steers (R348) -/
def execSyncRx (s : State) : Host.Outcome State Fault Refusal := timed (serve 0 syncRx) s

/-- FOLLOW_UP_RX: A Follow_Up completes a two-step Sync, which then forms its offset (R348) -/
def execFollowUpRx (s : State) : Host.Outcome State Fault Refusal := timed (serve 8 followUpRx) s

/-- DELAY_REQ_RX: A Delay_Req is received by a master session, which answers with a Delay_Resp (R343) -/
def execDelayReqRx (s : State) : Host.Outcome State Fault Refusal := timed (serve 1 delayReqRx) s

/-- DELAY_RESP_RX: A Delay_Resp completes a delay exchange, which is filtered into D_f or discarded (R346) -/
def execDelayRespRx (s : State) : Host.Outcome State Fault Refusal := timed (serve 9 delayRespRx) s

/-- PDELAY_REQ_RX: A Pdelay_Req is received and answered with Pdelay_Resp (R343) -/
def execPdelayReqRx (s : State) : Host.Outcome State Fault Refusal := timed (serve 2 pdelayReqRx) s

/-- PDELAY_RESP_RX: A Pdelay_Resp completes a one-step peer exchange or awaits its follow-up (R309) -/
def execPdelayRespRx (s : State) : Host.Outcome State Fault Refusal := timed (serve 3 pdelayRespRx) s

/-- PDELAY_RESP_FOLLOW_UP_RX: A Pdelay_Resp_Follow_Up completes a two-step peer delay exchange (R309) -/
def execPdelayRespFollowUpRx (s : State) : Host.Outcome State Fault Refusal := timed (serve 10 pdelayFuRx) s

/-- ANNOUNCE_RX: An Announce updates the foreign-master records and may trigger a state decision (R340) -/
def execAnnounceRx (s : State) : Host.Outcome State Fault Refusal := timed (serve 11 announceRx) s

/-- SIGNALING_RX: A Signaling message with the L1_SYNC TLV advances the L1Sync state (R334) -/
def execSignalingRx (s : State) : Host.Outcome State Fault Refusal := timed (serve 12 signalingRx) s

/-- SYNC_DUE: A master session's Sync falls due and is sent (R338) -/
def execSyncDue (k : Fin 512) (s : State) : Host.Outcome State Fault Refusal := timed (expire .sync k (syncSend k)) s

/-- DELAY_REQ_DUE: A Delay_Req falls due and is sent (R338) -/
def execDelayReqDue (k : Fin 512) (s : State) : Host.Outcome State Fault Refusal := timed (expire .delayReq k (delayReqSend k)) s

/-- PDELAY_REQ_DUE: A Pdelay_Req falls due and is sent (R338) -/
def execPdelayReqDue (k : Fin 512) (s : State) : Host.Outcome State Fault Refusal := timed (expire .pdelayReq k (pdelayReqSend k)) s

/-- ANNOUNCE_DUE: A master session's Announce falls due and is sent (R338) -/
def execAnnounceDue (k : Fin 512) (s : State) : Host.Outcome State Fault Refusal := timed (expire .announce k (announceSend k)) s

/-- L1SYNC_DUE: A Signaling message with the L1_SYNC TLV falls due and is sent (R334) -/
def execL1syncDue (k : Fin 512) (s : State) : Host.Outcome State Fault Refusal := timed (expire .l1sync k (l1Send k)) s

/-- STAMP_RETURN: The egress MAC returns the transmit stamp of an originated event message; Follow_Up or exchanges use it (R339) -/
def execStampReturn (s : State) : Host.Outcome State Fault Refusal := timed stampReturn s

/-- STATE_DECISION: At each announce interval the domain's BMCA decides the state of every session (R340) -/
def execStateDecision (d : Fin 4) (s : State) : Host.Outcome State Fault Refusal := timed (expire .decision d (stateDecision d)) s

/-- QUALIFICATION_TIMEOUT: The qualification timeout of a PRE_MASTER session expires and it goes MASTER (R333) -/
def execQualificationTimeout (k : Fin 512) (s : State) : Host.Outcome State Fault Refusal := timed (expire .qualify k (qualificationTimeout k)) s

/-- ANNOUNCE_RECEIPT_TIMEOUT: The Announce receipt timer expires; foreign-master records clear and a state decision follows (R355) -/
def execAnnounceReceiptTimeout (k : Fin 512) (s : State) : Host.Outcome State Fault Refusal := timed (expire .annReceipt k (announceTimeout k)) s

/-- SYNC_RECEIPT_TIMEOUT: The Sync receipt timer expires and the time reference becomes invalid (R355) -/
def execSyncReceiptTimeout (k : Fin 512) (s : State) : Host.Outcome State Fault Refusal := timed (expire .syncReceipt k (syncTimeout k)) s

/-- FOLLOW_UP_TIMEOUT: A two-step Sync's Follow_Up does not arrive before the next Sync or 1 s and the Sync is discarded (R348) -/
def execFollowUpTimeout (k : Fin 512) (s : State) : Host.Outcome State Fault Refusal := timed (expire .followUp k (followUpTimeout k)) s

/-- RESPONSE_TIMEOUT: A delay request gets no response before the next falls due; LOST_RESP counts and NO_DELAY may set (R355) -/
def execResponseTimeout (k : Fin 512) (s : State) : Host.Outcome State Fault Refusal := timed (expire .response k (responseTimeout k)) s

/-- L1SYNC_RECEIPT_TIMEOUT: No peer L1_SYNC TLV for three intervals; the L1Sync state returns to IDLE (R355) -/
def execL1syncReceiptTimeout (k : Fin 512) (s : State) : Host.Outcome State Fault Refusal := timed (expire .l1Receipt k (l1Timeout k)) s

/-- SESSION_STALL: A session's transmission is 10 ms past due and the session is reset, or suspended on the third (R355) -/
def execSessionStall (k : Fin 512) (s : State) : Host.Outcome State Fault Refusal := timed (sessionStall k) s

/-- ENGINE_STALL: A Ferryman queue waits 100 µs without service and a block reset follows (R355) -/
def execEngineStall (s : State) : Host.Outcome State Fault Refusal := timed engineStall s

end Sys2Proof.Machine
end

