-- ==== Sys2Proof/Machine/FamFwd.lean ====
section
/-!
DEFINITION. Forwarding, queues, pools and express streams (chapters 9 to 11): one meaning per command of the table, over the operations of the block.
-/

namespace Sys2Proof.Machine

open Sys2Proof

/-- MAC_CMD_INSERT: FWD_MAC_CMD INSERT writes an entry into the MAC table (R379) -/
def execMacCmdInsert (m : BusMaster) (v : Word) (s : State) : Host.Outcome State Fault Refusal :=
  run (busSet2 m FWD_MAC_CMD_OP 1 FWD_MAC_CMD_GO 1 v) s

/-- MAC_CMD_DELETE: FWD_MAC_CMD DELETE removes an entry from the MAC table (R379) -/
def execMacCmdDelete (m : BusMaster) (v : Word) (s : State) : Host.Outcome State Fault Refusal :=
  run (busSet2 m FWD_MAC_CMD_OP 2 FWD_MAC_CMD_GO 1 v) s

/-- MAC_CMD_LOOKUP: FWD_MAC_CMD LOOKUP returns an entry into FWD_MAC_DATA (R379) -/
def execMacCmdLookup (m : BusMaster) (v : Word) (s : State) : Host.Outcome State Fault Refusal :=
  run (busSet2 m FWD_MAC_CMD_OP 3 FWD_MAC_CMD_GO 1 v) s

/-- FLUSH_DYNAMIC: FWD_MAC_CMD FLUSH_DYNAMIC removes dynamic entries, of one port when filtered (R379) -/
def execFlushDynamic (m : BusMaster) (v : Word) (s : State) : Host.Outcome State Fault Refusal :=
  run (busSet2 m FWD_MAC_CMD_OP 4 FWD_MAC_CMD_GO 1 v) s

/-- FLUSH_DYNAMIC_DONE: A FLUSH_DYNAMIC command completes within 1 ms and sets MAC_CMD_DONE (R379) -/
def execFlushDynamicDone (s : State) : Host.Outcome State Fault Refusal := timed flushDynamicDone s

/-- MAC_AGE_SCAN: Every AGE_TIME / 2 the ageing scanner removes unhit dynamic entries and clears HIT on the others (R378) -/
def execMacAgeScan (s : State) : Host.Outcome State Fault Refusal := timed macAge s

/-- STREAM_ENTRY_WRITE: A write to word 0 of a stream entry sets TAKE_ANY and restarts the recovery timer (R393) -/
def execStreamEntryWrite (m : BusMaster) (n : Fin 4096) (be : Fin 16) (v : Word) (s : State) : Host.Outcome State Fault Refusal :=
  run (busStore m (streamAddr n) be.val v) s

/-- METER_ENTRY_WRITE: A write to meter words 0 to 4 fills both buckets (R402) -/
def execMeterEntryWrite (m : BusMaster) (n : Fin 8192) (w : Fin 5) (be : Fin 16) (v : Word) (s : State) : Host.Outcome State Fault Refusal :=
  run (busStore m (meterAddr n + 4 * w.val) be.val v) s

/-- FRER_RESET: RESET_MS passes without a passed frame and the stream sets TAKE_ANY (R393) -/
def execFrerReset (n : Fin 4096) (s : State) : Host.Outcome State Fault Refusal := timed (frerTimeout n) s

/-- SPILL_ENABLE: A write of QM_SPILL_CFG.EN = 1 starts spill DRAM initialisation (R413) -/
def execSpillEnable (m : BusMaster) (v : Word) (s : State) : Host.Outcome State Fault Refusal :=
  run (busSet m QM_SPILL_CFG_EN 1 v) s

/-- SPILL_INIT_DONE: Spill DRAM training completes, STATE reads READY and pool 1 is enabled (R413) -/
def execSpillInitDone (s : State) : Host.Outcome State Fault Refusal := timed spillInitDone s

/-- SPILL_INIT_TIMEOUT: Spill initialisation fails or times out and STATE reads FAILED (R413) -/
def execSpillInitTimeout (s : State) : Host.Outcome State Fault Refusal := timed spillInitTimeout s

/-- SPILL_PAGE_WRITE: A staging segment holds 16 cells and the spill writer writes them as one page (R414) -/
def execSpillPageWrite (p : Fin 66) (t : Fin 8) (s : State) : Host.Outcome State Fault Refusal :=
  timed (spillWrite (8 * p.val + t.val)) s

/-- REFILL_PAGE_READ: A SPILLING queue's head falls below LOW and the refill engine reads the next page (R417) -/
def execRefillPageRead (p : Fin 66) (t : Fin 8) (s : State) : Host.Outcome State Fault Refusal :=
  timed (refillRead (8 * p.val + t.val)) s

/-- REFILL_READ_DONE: A page read completes, is checked, and its contents join the head (R551) -/
def execRefillReadDone (p : Fin 66) (t : Fin 8) (check : PageCheck) (s : State) : Host.Outcome State Fault Refusal :=
  timed (refillDone (8 * p.val + t.val) check) s

/-- READ_RETRY: A page read is not complete after 10 µs and is retried, or the spill DRAM goes FAILED on the third (R420) -/
def execReadRetry (p : Fin 66) (t : Fin 8) (s : State) : Host.Outcome State Fault Refusal := timed (readRetry (8 * p.val + t.val)) s

/-- GATE_EVENT: A gate-list entry boundary falls due and the port's gate states change (R425) -/
def execGateEvent (p : Fin 66) (s : State) : Host.Outcome State Fault Refusal := timed (gateEvent p) s

/-- QUEUE_STUCK_TIMEOUT: A queue's stuck timer reaches QM_STUCK and the queue is flushed, or suspended on the third (R432) -/
def execQueueStuckTimeout (p : Fin 66) (t : Fin 8) (s : State) : Host.Outcome State Fault Refusal :=
  timed (queueStuckTimeout (8 * p.val + t.val)) s

/-- RESIDENCE_SWEEP: Every 1 ms the queue heads are checked and frames past QM_MAX_RESIDENCE are discarded (R433) -/
def execResidenceSweep (s : State) : Host.Outcome State Fault Refusal := timed residenceSweep s

/-- QUEUE_RESUME: A write of 1 to QM_Qpt_STATUS.SUSPENDED resumes the queue (R434) -/
def execQueueResume (m : BusMaster) (p : Fin 66) (t : Fin 8) (v : Word) (s : State) : Host.Outcome State Fault Refusal :=
  run (busSet m (QM_Q_STATUS_SUSPENDED (8 * p.val + t.val)) 1 v) s

/-- POOL_AGE_EPOCH: The age epoch advances and a sweep reclaims buffers 8 or more epochs old (R441) -/
def execPoolAgeEpoch (s : State) : Host.Outcome State Fault Refusal := timed ageEpoch s

/-- ALLOC: POOL_CMD ALLOC allocates a buffer for class MGMT and returns its index (R442) -/
def execAlloc (m : BusMaster) (v : Word) (s : State) : Host.Outcome State Fault Refusal :=
  run (busSet2 m POOL_CMD_OP 1 POOL_CMD_GO 1 v) s

/-- FREE: POOL_CMD FREE frees or decrements a buffer for class MGMT (R442) -/
def execFree (m : BusMaster) (v : Word) (s : State) : Host.Outcome State Fault Refusal :=
  run (busSet2 m POOL_CMD_OP 2 POOL_CMD_GO 1 v) s

/-- INCREF: POOL_CMD INCREF increments a buffer's reference count (R442) -/
def execIncref (m : BusMaster) (v : Word) (s : State) : Host.Outcome State Fault Refusal :=
  run (busSet2 m POOL_CMD_OP 3 POOL_CMD_GO 1 v) s

/-- QUERY: POOL_CMD QUERY returns a buffer's state in POOL_CMD_STATE (R442) -/
def execQuery (m : BusMaster) (v : Word) (s : State) : Host.Outcome State Fault Refusal :=
  run (busSet2 m POOL_CMD_OP 4 POOL_CMD_GO 1 v) s

/-- POOL_ENABLE: A write of EN = 1 to pool 4 to 15 marks every buffer free (R443) -/
def execPoolEnable (m : BusMaster) (n : Fin 16) (v : Word) (s : State) : Host.Outcome State Fault Refusal :=
  run (busSet m (POOL_CFG_EN n) 1 v) s

/-- XC_STREAM_INSTALL: A write of XC_STREAMs_CFG.EN = 1 installs the stream after its checks, or refuses it (R457) -/
def execXcStreamInstall (m : BusMaster) (n : Fin 1024) (v : Word) (s : State) : Host.Outcome State Fault Refusal :=
  run (busSet m (XC_STREAM_CFG_EN n) 1 v) s

/-- XC_STREAM_UNINSTALL: A write of XC_STREAMs_CFG.EN = 0 uninstalls the stream (R456) -/
def execXcStreamUninstall (m : BusMaster) (n : Fin 1024) (v : Word) (s : State) : Host.Outcome State Fault Refusal :=
  run (busSet m (XC_STREAM_CFG_EN n) 0 v) s

end Sys2Proof.Machine
end

