-- ==== Sys2Proof/Machine/FamGuard.lean ====
section
/-!
DEFINITION. Stored data, pairs and supply (chapters 14 to 16): one meaning per command of the table, over the operations of the block.
-/

namespace Sys2Proof.Machine

open Sys2Proof

/-- SCRUB_WORD_READ: The scrubber reads a stored word and corrects or handles any error (R552) -/
def execScrubWordRead (r : Fin 16) (addr : Word) (flips : List Flip) (last : Bool) (s : State) : Host.Outcome State Fault Refusal :=
  timed (scrubWord r addr.toNat flips last) s

/-- TABLE_RELOAD_DONE: The region reload completes or fails, and held host writes apply (R546) -/
def execTableReloadDone (sections : List (List Byte)) (s : State) : Host.Outcome State Fault Refusal := timed (tableReloadDone sections) s

/-- CFG_SWEEP: Every 10 ms register parity and block CRCs are checked; a mismatch sets CFG_UPSET and may escalate (R553) -/
def execCfgSweep (upsets : List CfgUpset) (s : State) : Host.Outcome State Fault Refusal := run (cfgSweep upsets) s

/-- ECC_INJ_ARM: A write of 1 to ECC_INJ.ARM corrupts check bits of the next write to the region (R558) -/
def execEccInjArm (m : BusMaster) (v : Word) (s : State) : Host.Outcome State Fault Refusal := run (busSet m ECC_INJ_ARM 1 v) s

/-- ECC_LOG_READ: A read of the lowest ECC_LOG word takes the oldest entry into the shadow and removes it (R559) -/
def execEccLogRead (m : BusMaster) (s : State) : Host.Outcome State Fault Refusal := runRead m ECC_LOG.addr s

/-- PAIR_ENABLE: A write of PAIR_CTRL.EN = 1 commits the pair to STANDBY, or refuses it (R562) -/
def execPairEnable (m : BusMaster) (v : Word) (s : State) : Host.Outcome State Fault Refusal := run (busSet m PAIR_CTRL_EN 1 v) s

/-- PAIR_DISABLE: A write of PAIR_CTRL.EN = 0 returns the unit to SOLO (R569) -/
def execPairDisable (m : BusMaster) (v : Word) (s : State) : Host.Outcome State Fault Refusal := run (busSet m PAIR_CTRL_EN 0 v) s

/-- MATE_ALIVE_LOST: MATE_ALIVE_IN shows no edge for 50 µs and mate failure is declared (R568) -/
def execMateAliveLost (s : State) : Host.Outcome State Fault Refusal := timed mateAliveLost s

/-- MATE_ALIVE_PRESENT: MATE_ALIVE_IN shows 16 edges and is present again (R564) -/
def execMateAlivePresent (s : State) : Host.Outcome State Fault Refusal := timed mateAlivePresent s

/-- HEALTH_SEND: Every 10 ms the unit sends a HEALTH frame on P65 (R566) -/
def execHealthSend (s : State) : Host.Outcome State Fault Refusal := timed healthSend s

/-- HEALTH_RX: A HEALTH report from the mate is validated and may change the pair state (R566) -/
def execHealthRx (body : List Byte) (s : State) : Host.Outcome State Fault Refusal := timed (healthRx body) s

/-- REPORT_TIMEOUT: Three report intervals pass without a valid report and mate failure is declared (R568) -/
def execReportTimeout (s : State) : Host.Outcome State Fault Refusal := timed reportTimeout s

/-- FIRST_REPORT_TIMEOUT: No valid mate report 1 s after entry to STANDBY and the unit goes MATE_FAILED (R569) -/
def execFirstReportTimeout (s : State) : Host.Outcome State Fault Refusal := timed firstReportTimeout s

/-- SEQ_RX: A SEQ frame's records are matched with waiting frames of paired streams (R575) -/
def execSeqRx (body : List Byte) (s : State) : Host.Outcome State Fault Refusal := timed (seqRx body) s

/-- SEQ_SEND: Batched sequence records are sent in a SEQ frame within 2 µs of the first (R575) -/
def execSeqSend (s : State) : Host.Outcome State Fault Refusal := timed seqSend s

/-- SEQ_MATCH_TIMEOUT: A frame or record unmatched for PAIR_SEQ.WAIT is discarded or dropped (R575) -/
def execSeqMatchTimeout (n : Fin 4096) (s : State) : Host.Outcome State Fault Refusal := timed (seqTimeout n) s

/-- HO_REQ: A write of 1 to PAIR_CTRL.HO_REQ with TLOCK sends HO_REQ to the mate (R581) -/
def execHoReq (m : BusMaster) (v : Word) (s : State) : Host.Outcome State Fault Refusal := run (busSet m PAIR_CTRL_HO_REQ 1 v) s

/-- HO_REVERTIVE_REQUEST: A preferred healthy STANDBY unit past WTR with TLOCK requests a handover by itself (R581) -/
def execHoRevertiveRequest (s : State) : Host.Outcome State Fault Refusal := timed hoRevertive s

/-- HO_REQ_RX: An ACTIVE unit receiving HO_REQ answers HO_ACK and arms SCH_ACT63, or answers HO_ABORT (R581) -/
def execHoReqRx (body : List Byte) (s : State) : Host.Outcome State Fault Refusal := timed (hoReqRx body) s

/-- HO_ACK_RX: The requester receiving HO_ACK arms SCH_ACT63 and enters HANDOVER (R581) -/
def execHoAckRx (body : List Byte) (s : State) : Host.Outcome State Fault Refusal := timed (hoAckRx body) s

/-- HO_ABORT_RX: An HO_ABORT received aborts the handover and returns the unit to its role (R582) -/
def execHoAbortRx (body : List Byte) (s : State) : Host.Outcome State Fault Refusal := timed (hoAbortRx body) s

/-- HO_ACK_TIMEOUT: No HO_ACK within 20 ms of HO_REQ and the handover is aborted (R582) -/
def execHoAckTimeout (s : State) : Host.Outcome State Fault Refusal := timed hoAckTimeout s

/-- DEMOTE_RX: A DEMOTE from the mate takes a STANDBY unit to ACTIVE (R569) -/
def execDemoteRx (body : List Byte) (s : State) : Host.Outcome State Fault Refusal := timed (demoteRx body) s

/-- MARCH_TEST: The March C- test visits spare rows and quarantined cells once per 60 s (R579) -/
def execMarchTest (fails : MarchFails) (s : State) : Host.Outcome State Fault Refusal := timed (marchTest fails) s

/-- LANE_LOOP_TEST: A 1 s PRBS31 loop test runs on the next idle lane (R579) -/
def execLaneLoopTest (n : Fin 65) (errs : Nat) (s : State) : Host.Outcome State Fault Refusal := timed (laneLoopTest n errs) s

/-- RAIL_WARNING: A rail is declared below warning; t0 is set and SHED1 is entered (R589) -/
def execRailWarning (rail : Fin 5) (s : State) : Host.Outcome State Fault Refusal := run (railWarning rail) s

/-- PFAIL_ASSERT: PFAIL_N is declared asserted; t0 is set and SHED1 is entered (R590) -/
def execPfailAssert (s : State) : Host.Outcome State Fault Refusal := run pfailAssert s

/-- SHED_GROUP: At t0 + 50, 150 or 250 µs the lanes of a shed group go OFF (R592) -/
def execShedGroup (g : Fin 3) (s : State) : Host.Outcome State Fault Refusal := run (shedGroup (g.val + 1)) s

/-- SHED3_ENTRY: At t0 + 500 µs spill DRAM enters self-refresh and the last-gasp actions run (R592) -/
def execShed3Entry (s : State) : Host.Outcome State Fault Refusal := run shed3 s

/-- SUPPLY_TRIGGER_CLEAR: Every rail is back above warning and PFAIL_N released; the restore hold starts (R594) -/
def execSupplyTriggerClear (s : State) : Host.Outcome State Fault Refusal := run triggerClear s

/-- RAIL_BELOW_HYSTERESIS: A rail falls below its warning level plus hysteresis, but not below warning, during the restore hold, so the
hold restarts (R599) -/
def execRailBelowHysteresis (rail : Fin 5) (s : State) : Host.Outcome State Fault Refusal := run (railHyst rail) s

/-- RESTORE_START: The restore hold expires and the stages are undone in reverse order (R598) -/
def execRestoreStart (s : State) : Host.Outcome State Fault Refusal := run restoreStart s

/-- RESTORE_STEP: A restore step releases a shed group or resumes the SHED1 functions (R598) -/
def execRestoreStep (s : State) : Host.Outcome State Fault Refusal := run restoreStep s

end Sys2Proof.Machine
end

