-- ==== Sys2Proof/Machine/FamLane.lean ====
section
/-!
DEFINITION. Serial lanes (chapter 5): one meaning per command of the table, over the operations of the block.
-/

namespace Sys2Proof.Machine

open Sys2Proof

/-- QUAD_CFG_WRITE: A write of LN_QUADq_CFG while all lanes are OFF changes rate and plan and relocks the quad PLL (R209) -/
def execQuadCfgWrite (m : BusMaster) (q : Fin 16) (v : Word) (s : State) : Host.Outcome State Fault Refusal :=
  run (busPut m (LN_QUAD_CFG q).addr v) s

/-- QUAD_PLL_LOCKED: A quad PLL or the LM PLL locks, releases its PCS clocks and lets its enabled lanes leave OFF (R80) -/
def execQuadPllLocked (q : Fin 17) (band : Fin 128) (s : State) : Host.Outcome State Fault Refusal := timed (pllLock q band) s

/-- QUAD_PLL_LOSS: A quad PLL loses lock and its active lanes return to SIGNAL_DETECT with transmitters idle (R212) -/
def execQuadPllLoss (q : Fin 17) (s : State) : Host.Outcome State Fault Refusal := timed (pllLoss q) s

/-- QUAD_PLL_RELOCK_TIMEOUT: The quad PLL has not relocked 1 ms after loss of lock and its lanes go to FAULT (R212) -/
def execQuadPllRelockTimeout (q : Fin 17) (s : State) : Host.Outcome State Fault Refusal := laneTimed (pllTimeout q) s

/-- LANE_ENABLE: A write of LN_CTRL.EN = 1 powers the quad PLL if needed and moves the lane toward SIGNAL_DETECT (R212) -/
def execLaneEnable (m : BusMaster) (n : Fin 65) (v : Word) (s : State) : Host.Outcome State Fault Refusal :=
  run (busSet m (LN_CTRL_EN n) 1 v) s

/-- LANE_DISABLE: A write of LN_CTRL.EN = 0 takes the lane to OFF and clears its back-off (R212) -/
def execLaneDisable (m : BusMaster) (n : Fin 65) (v : Word) (s : State) : Host.Outcome State Fault Refusal :=
  run (busSet m (LN_CTRL_EN n) 0 v) s

/-- LANE_SIGNAL_DETECTED: Signal has been present for 100 µs and the back-off has elapsed; the lane enters CDR_LOCK (R212) -/
def execLaneSignalDetected (n : Fin 65) (s : State) : Host.Outcome State Fault Refusal := laneTimed (laneSignal n) s

/-- LANE_CDR_LOCKED: The CDR locks and the lane enters TRAINING or ALIGN_HUNT (R212) -/
def execLaneCdrLocked (n : Fin 65) (s : State) : Host.Outcome State Fault Refusal := timed (laneCdr n) s

/-- CDR_TIMEOUT: The CDR is not locked 10 ms after entry to CDR_LOCK and the lane fails back to SIGNAL_DETECT (R212) -/
def execCdrTimeout (n : Fin 65) (s : State) : Host.Outcome State Fault Refusal := laneTimed (laneCdrTimeout n) s

/-- LANE_TRAINING_DONE: Link training completes and the lane enters ALIGN_HUNT (R222) -/
def execLaneTrainingDone (n : Fin 65) (frames : List TrainFrame) (s : State) : Host.Outcome State Fault Refusal :=
  timed (laneTrained n frames) s

/-- TRAIN_FALLBACK: The 500 ms training wait timer expires; the lane keeps preset taps and enters ALIGN_HUNT (R225) -/
def execTrainFallback (n : Fin 65) (s : State) : Host.Outcome State Fault Refusal := laneTimed (laneTrainFallback n) s

/-- LANE_LOSS_OF_SIGNAL: Loss of signal, CDR lock or alignment is detected and the lane returns to SIGNAL_DETECT (R212) -/
def execLaneLossOfSignal (n : Fin 65) (cause : LossCause) (s : State) : Host.Outcome State Fault Refusal :=
  laneTimed (laneLoss n cause) s

/-- LANE_ALIGNED: Alignment is achieved; the lane enters LINKED and records its latency values (R219) -/
def execLaneAligned (n : Fin 65) (lat : List LaneLat) (s : State) : Host.Outcome State Fault Refusal := timed (laneAligned n lat) s

/-- ALIGN_TIMEOUT: Alignment is not achieved within 50 ms and the lane fails back to SIGNAL_DETECT (R212) -/
def execAlignTimeout (n : Fin 65) (s : State) : Host.Outcome State Fault Refusal := laneTimed (laneAlignTimeout n) s

/-- LANE_BACKOFF_RESET: A lane LINKED for 1 s has its back-off returned to zero (R214) -/
def execLaneBackoffReset (n : Fin 65) (s : State) : Host.Outcome State Fault Refusal := laneTimed (laneBackoffReset n) s

/-- LANE_SYNT_ESTIMATE: Every 10 ms in LINKED the lane estimates its frequency offset over a full 100 ms window (R228), after the beats of
its channel that no row of their own has brought -/
def execLaneSyntEstimate (n : Fin 65) (beats : List Beat) (every : Nat) (s : State) : Host.Outcome State Fault Refusal :=
  timed (fun s => syntEstimate n (laneBeats n every beats s)) s

/-- LANE_CROSSING_MARGIN: The syntonous crossing reaches its ±32-word margin and the lane falls back at the next block boundary (R230)
-/
def execLaneCrossingMargin (n : Fin 65) (s : State) : Host.Outcome State Fault Refusal := timed (crossingMargin n) s

/-- LANE_CLOCK_REQ_WRITE: A write of LN_CTRL.CLOCK_REQ changes the requested clocking, PLESIOCHRONOUS acting as a fallback trigger
(R230) -/
def execLaneClockReqWrite (m : BusMaster) (n : Fin 65) (v : Word) (s : State) : Host.Outcome State Fault Refusal :=
  run (busPut m (LN_CTRL n).addr v) s

/-- LANE_CLOCK_SWITCH: At the next idle run, the lane switches clocking mode and records its latency values again (R231) -/
def execLaneClockSwitch (n : Fin 65) (lat : List LaneLat) (s : State) : Host.Outcome State Fault Refusal :=
  timed (clockSwitch n lat false) s

/-- LANE_SWITCH_FORCE: No idle run within 10 µs; the switch is forced and the frame in progress is discarded (R231) -/
def execLaneSwitchForce (n : Fin 65) (lat : List LaneLat) (s : State) : Host.Outcome State Fault Refusal :=
  laneTimed (clockSwitch n lat true) s

/-- RCS_LANE_WRITE: A write of LN_RCSm_CFG.LANE while enabled stops the selector output for 20 µs (R239) -/
def execRcsLaneWrite (m : BusMaster) (k : Fin 4) (v : Word) (s : State) : Host.Outcome State Fault Refusal :=
  run (busPut m (LN_RCS_CFG k).addr v) s

/-- RCS_RESTART: After 20 µs the selector restarts from its new lane once that lane holds CDR lock (R239) -/
def execRcsRestart (k : Fin 4) (s : State) : Host.Outcome State Fault Refusal := laneTimed (rcsRestart k) s

/-- PRBS_GEN_ENABLE: A write of GEN_EN = 1 starts the pattern generator, or is discarded when the port is not DISABLED (R241) -/
def execPrbsGenEnable (m : BusMaster) (n : Fin 65) (v : Word) (s : State) : Host.Outcome State Fault Refusal :=
  run (busSet m (LN_PRBS_CTRL_GEN_EN n) 1 v) s

/-- INJ_SINGLE: A write of 1 to INJ_SINGLE inverts one transmitted bit (R243) -/
def execInjSingle (m : BusMaster) (n : Fin 65) (v : Word) (s : State) : Host.Outcome State Fault Refusal :=
  run (busSet m (LN_PRBS_CTRL_INJ_SINGLE n) 1 v) s

/-- PRBS_CHECKER_LOCK: The pattern checker sees 64 consecutive error-free bits and locks, and from then on counts errors (R242) -/
def execPrbsCheckerLock (l : LineBits) (s : State) : Host.Outcome State Fault Refusal := timed (checkerLine l.lane l.bits) s

/-- PRBS_CHECKER_UNLOCK: The pattern checker sees 16 or more errors within 64 bits and unlocks, and stops counting errors (R242) -/
def execPrbsCheckerUnlock (n : Fin 65) (bits : List Bool) (s : State) : Host.Outcome State Fault Refusal :=
  timed (checkerLine n bits) s

/-- EYE_SCAN_START: A write of 1 to LN_EYE_CTRL.START begins a scan point, or is rejected without CDR lock (R245) -/
def execEyeScanStart (m : BusMaster) (n : Fin 65) (v : Word) (s : State) : Host.Outcome State Fault Refusal :=
  run (busSet m (LN_EYE_CTRL_START n) 1 v) s

/-- EYE_SCAN_DONE: The scan point's dwell ends and RESULT reads DONE (R245) -/
def execEyeScanDone (n : Fin 65) (errs : Nat) (s : State) : Host.Outcome State Fault Refusal := timed (eyeDone n errs) s

end Sys2Proof.Machine
end

