-- ==== Sys2Proof/Machine/FamLoader.lean ====
section
/-!
DEFINITION. Start-up images and reload (chapters 1 and 17): one meaning per command of the table, over the operations of the block.
-/

namespace Sys2Proof.Machine

open Sys2Proof

/-- GLB_RELOAD: A write of 1 to GLB_CTRL.RELOAD in RUNNING starts a time-preserving reload (R43) -/
def execGlbReload (m : BusMaster) (v : Word) (s : State) : Host.Outcome State Fault Refusal := run (busSet m GLB_CTRL_RELOAD 1 v) s

/-- IMAGE_READ_START: In LOADING the loader starts the quad read of the next image from offset 0 (R629) -/
def execImageReadStart (s : State) : Host.Outcome State Fault Refusal := timed imageReadStart s

/-- SECTION_READ_DONE: A section is read and its CRC checked before its records execute, with one retry (R629) -/
def execSectionReadDone (bytes : List Byte) (s : State) : Host.Outcome State Fault Refusal := timed (sectionReadDone bytes) s

/-- HEADER: The HEADER record declares the image and is checked against the single-bit read (R621) -/
def execHeader (bytes : List Byte) (s : State) : Host.Outcome State Fault Refusal := timed (headerRead bytes) s

/-- WRITE32: The WRITE32 record writes each value to its address in order (R620) -/
def execWrite32 (s : State) : Host.Outcome State Fault Refusal := timed (record 0x02 recWrite32) s

/-- WRITE_BLOCK: The WRITE_BLOCK record writes its words to consecutive addresses (R620) -/
def execWriteBlock (s : State) : Host.Outcome State Fault Refusal := timed (record 0x03 recWriteBlock) s

/-- FILL: The FILL record writes one value to count consecutive words (R620) -/
def execFill (s : State) : Host.Outcome State Fault Refusal := timed (record 0x04 recFill) s

/-- MODIFY: The MODIFY record reads a word and writes it back under a mask (R620) -/
def execModify (s : State) : Host.Outcome State Fault Refusal := timed (record 0x05 recModify) s

/-- WAIT_TIME: The WAIT_TIME record holds execution for its time (R620) -/
def execWaitTime (s : State) : Host.Outcome State Fault Refusal := timed (record 0x06 recWaitTime) s

/-- WAIT_TIME_EXPIRE: The wait of a WAIT_TIME record ends and execution resumes (R620) -/
def execWaitTimeExpire (s : State) : Host.Outcome State Fault Refusal := timed waitTimeExpire s

/-- WAIT_BIT: The WAIT_BIT record polls a word every 1 µs until it matches (R620) -/
def execWaitBit (s : State) : Host.Outcome State Fault Refusal := timed (record 0x07 recWaitBit) s

/-- WAIT_BIT_MATCH: A poll of a WAIT_BIT record finds (word AND mask) equal to expect, and execution of the image resumes (R620) -/
def execWaitBitMatch (s : State) : Host.Outcome State Fault Refusal := timed waitBitMatch s

/-- WAIT_BIT_TIMEOUT: A WAIT_BIT times out, failing the image or setting WAIT_EXPIRED (R620) -/
def execWaitBitTimeout (s : State) : Host.Outcome State Fault Refusal := timed waitBitTimeout s

/-- TABLE_LOAD: The TABLE_LOAD record writes a table region and enters the reload directory (R626) -/
def execTableLoad (s : State) : Host.Outcome State Fault Refusal := timed (record 0x08 recTableLoad) s

/-- KEY: The KEY record supplies the signing key or writes the MMP key (R620) -/
def execKey (s : State) : Host.Outcome State Fault Refusal := timed (record 0x09 recKey) s

/-- SIGNATURE: The SIGNATURE record starts ECDSA verification of the image (R629) -/
def execSignature (s : State) : Host.Outcome State Fault Refusal := timed (record 0x0A recSignature) s

/-- SIGNATURE_VERIFIED: ECDSA verification completes, passing or failing the image with SIG_FAIL (R629) -/
def execSignatureVerified (s : State) : Host.Outcome State Fault Refusal := timed signatureVerified s

/-- END: The END record commits the image, applies the deferred enables and enters RUNNING (R627) -/
def execEnd (s : State) : Host.Outcome State Fault Refusal := timed (record 0x0B recEnd) s

/-- IMAGE_UNDO_DONE: The undo completes and the next image is tried, or the device enters SAFE_MODE (R632) -/
def execImageUndoDone (s : State) : Host.Outcome State Fault Refusal := timed undoDone s

/-- LOAD_TIMEOUT: LDR_CFG.LOAD_TO elapses before END and the image fails (R638) -/
def execLoadTimeout (s : State) : Host.Outcome State Fault Refusal := timed loadTimeout s

/-- HOST_LOAD_START: A write of 1 to LDR_HOST_CTRL.START begins a host load (R634) -/
def execHostLoadStart (m : BusMaster) (v : Word) (s : State) : Host.Outcome State Fault Refusal :=
  run (busSet2 m LDR_HOST_CTRL_START 1 LDR_HOST_CTRL_ABORT 0 v) s

/-- HOST_ABORT: A write of LDR_HOST_CTRL.ABORT ends the host load with HOST_ABORT (R630) -/
def execHostAbort (m : BusMaster) (v : Word) (s : State) : Host.Outcome State Fault Refusal :=
  run (busSet2 m LDR_HOST_CTRL_START 0 LDR_HOST_CTRL_ABORT 1 v) s

/-- HOST_FIFO_WRITE: A write to LDR_HOST_FIFO adds the next image word, or fails the image with HOST_OVF (R635) -/
def execHostFifoWrite (m : BusMaster) (v : Word) (s : State) : Host.Outcome State Fault Refusal :=
  run (busPut m LDR_HOST_FIFO.addr v) s

/-- HOST_IDLE: No host FIFO write for 1 s during a host load and the image fails (R630) -/
def execHostIdle (s : State) : Host.Outcome State Fault Refusal := timed hostIdle s

/-- HOST_WAIT_TIMEOUT: HOST_TO expires while waiting for a host load and the device enters SAFE_MODE (R636) -/
def execHostWaitTimeout (s : State) : Host.Outcome State Fault Refusal := timed hostWaitTimeout s

end Sys2Proof.Machine
end

