-- ==== Sys2Proof/Machine/FamMgt.lean ====
section
/-!
DEFINITION. Management, counters and JTAG (chapters 18 and 20): one meaning per command of the table, over the operations of the block.
-/

namespace Sys2Proof.Machine

open Sys2Proof

/-- PCIE_PERST: PCIE_PERST_N resets the PCIe endpoint (R652) -/
def execPciePerst (s : State) : Host.Outcome State Fault Refusal := run pciePerst s

/-- PCIE_CONFIGURATION_REQUEST: A PCIe configuration request arrives; it is answered with Retry Status in RESET and CLOCK_START, and
otherwise it sets fields such as Bus Master Enable (R652) -/
def execPcieConfigurationRequest (q : CfgReq) (s : State) : Host.Outcome State Fault Refusal :=
  runElse (cfgRetry q) (configRequest q) s

/-- DMA_TX_DESCRIPTOR: The device takes a TX descriptor, fetches its frame and enters it into pipeline 0 (R655) -/
def execDmaTxDescriptor (t : Fin 8) (desc : List Word) (frame : List Byte) (s : State) : Host.Outcome State Fault Refusal :=
  run (dmaTx t desc frame) s

/-- DMA_HOST_READ_TIMEOUT: A host read for a TX descriptor fails or exceeds 10 ms and the descriptor ends ERR READ (R654) -/
def execDmaHostReadTimeout (t : Fin 8) (s : State) : Host.Outcome State Fault Refusal := run (dmaReadTimeout t) s

/-- DMA_RX_DELIVER: A frame of Q(64, t) is written to the next RX descriptor with OWN = 1 (R656) -/
def execDmaRxDeliver (t : Fin 8) (bufLen : Nat) (s : State) : Host.Outcome State Fault Refusal := run (dmaRx t bufLen) s

/-- SPI_WRITE: The SPI WRITE command writes each 4-byte group to successive words (R657) -/
def execSpiWrite (addr : Word) (data : List Byte) (s : State) : Host.Outcome State Fault Refusal := run (spiWrite addr.toNat data) s

/-- SPI_READ: The SPI READ command reads successive words after a 0x5A marker (R657) -/
def execSpiRead (addr : Word) (n : Nat) (s : State) : Host.Outcome State Fault Refusal := run (spiRead addr.toNat n) s

/-- SPI_STATUS: The SPI STATUS command returns and clears the last access status byte (R657) -/
def execSpiStatus (s : State) : Host.Outcome State Fault Refusal := run spiStatus s

/-- MMP_REQUEST: An MMP request frame is checked for format, HMAC and replay and its operations executed (R660) -/
def execMmpRequest (s : State) : Host.Outcome State Fault Refusal := timed mmpRequest s

/-- BYPASS: The JTAG BYPASS instruction (R663) -/
def execBypass (s : State) : Host.Outcome State Fault Refusal := runAlways (jtagTake .bypass) s

/-- IDCODE: The JTAG IDCODE instruction returns 0x1648_096B (R663) -/
def execIdcode (s : State) : Host.Outcome State Fault Refusal := runAlways (fun s => (jtagTake .idcode s).send (.jtag jtagId)) s

/-- SAMPLE_PRELOAD: The JTAG SAMPLE/PRELOAD instruction (R663) -/
def execSamplePreload (s : State) : Host.Outcome State Fault Refusal := runAlways (jtagTake .sample) s

/-- EXTEST: The JTAG EXTEST instruction (R663) -/
def execExtest (s : State) : Host.Outcome State Fault Refusal := runAlways (jtagTake .extest) s

/-- EXTEST_PULSE: The IEEE 1149.6 EXTEST_PULSE instruction (R663) -/
def execExtestPulse (s : State) : Host.Outcome State Fault Refusal := runAlways (jtagTake .extestPulse) s

/-- EXTEST_TRAIN: The IEEE 1149.6 EXTEST_TRAIN instruction (R663) -/
def execExtestTrain (s : State) : Host.Outcome State Fault Refusal := runAlways (jtagTake .extestTrain) s

/-- EXTEST_EXIT: The TAP leaves an EXTEST instruction and the device resets as at RESET_N low (R663) -/
def execExtestExit (s : State) : Host.Outcome State Fault Refusal := runAlways extestExit s

/-- IRQ_REARM: A write of 1 to MGT_IRQ_REARM resends a vector's message while its sources read 1 (R665) -/
def execIrqRearm (m : BusMaster) (v : Word) (s : State) : Host.Outcome State Fault Refusal := run (busPut m MGT_IRQ_REARM.addr v) s

/-- I2C_COMMAND: A write of 1 to CMD.GO runs an I2C command through switch, page and data transfers (R667) -/
def execI2cCommand (m : BusMaster) (b : Fin 4) (v : Word) (s : State) : Host.Outcome State Fault Refusal :=
  run (busSet m (MGT_I2C_CMD_GO b) 1 v) s

/-- I2C_DONE: An I2C command ends with its RESULT and sets MOD_DONE (R667) -/
def execI2cDone (b : Fin 4) (r : I2cResult) (data : List Byte) (s : State) : Host.Outcome State Fault Refusal :=
  timed (i2cDone b r data) s

/-- I2C_TIMEOUT: A slave stretches the clock beyond 25 ms and the command ends TIMEOUT (R667) -/
def execI2cTimeout (b : Fin 4) (s : State) : Host.Outcome State Fault Refusal := timed (i2cTimeout b) s

/-- MDIO_FRAME: A write of 1 to the MDIO GO runs one Clause 22 or Clause 45 frame (R668) -/
def execMdioFrame (m : BusMaster) (v : Word) (s : State) : Host.Outcome State Fault Refusal := run (busSet m MGT_MDIO_CMD_GO 1 v) s

/-- MDIO_DONE: An MDIO frame completes and sets MOD_DONE (R668) -/
def execMdioDone (data : Fin 65536) (s : State) : Host.Outcome State Fault Refusal := timed (mdioDone data) s

/-- PMC_CLEAR: A write of 1 to PMC_CTRL.CLEAR zeroes every counter and OVF bit (R674) -/
def execPmcClear (m : BusMaster) (v : Word) (s : State) : Host.Outcome State Fault Refusal := run (busSet m PMC_CTRL_CLEAR 1 v) s

/-- PMC_FREEZE: A write of PMC_CTRL.FREEZE stops or restarts every counter (R674) -/
def execPmcFreeze (m : BusMaster) (v : Word) (s : State) : Host.Outcome State Fault Refusal := run (busPut m PMC_CTRL.addr v) s

/-- TALLY_DUMP_PERIODIC: Each PERIOD a tally-dump snapshot is taken and written to the chosen ring (R675) -/
def execTallyDumpPeriodic (s : State) : Host.Outcome State Fault Refusal := timed dumpDue s

/-- TALLY_DUMP_NOW: A write of 1 to PMC_DUMP_CTRL.NOW takes a snapshot unless paused (R675) -/
def execTallyDumpNow (m : BusMaster) (v : Word) (s : State) : Host.Outcome State Fault Refusal :=
  run (busSet m PMC_DUMP_CTRL_NOW 1 v) s

end Sys2Proof.Machine
end

