-- ==== Sys2Proof/Machine/FamOut.lean ====
section
/-!
DEFINITION. Clock and pulse outputs (chapter 2): one meaning per command of the table, over the operations of the block.
-/

namespace Sys2Proof.Machine

open Sys2Proof

/-- CLKOUT_ENABLE: A write setting an OUT_ENABLE bit starts the output on its grid, or is refused above the frequency limit (R84) -/
def execClkoutEnable (m : BusMaster) (n : Fin 12) (v : Word) (s : State) : Host.Outcome State Fault Refusal :=
  run (busSet m ⟨OUT_ENABLE, n, 1⟩ 1 v) s

/-- CLKOUT_DISABLE: A write clearing an OUT_ENABLE bit stops the output after its current high phase (R85) -/
def execClkoutDisable (m : BusMaster) (n : Fin 12) (v : Word) (s : State) : Host.Outcome State Fault Refusal :=
  run (busSet m ⟨OUT_ENABLE, n, 1⟩ 0 v) s

/-- OUT_PHASE_WRITE: A write of OUT_PHASEn sets a new target, applied at once when stopped or slewed toward when running (R88) -/
def execOutPhaseWrite (m : BusMaster) (n : Fin 12) (v : Word) (s : State) : Host.Outcome State Fault Refusal :=
  run (busPut m (OUT_PHASE n).addr v) s

/-- ZDB_MEASURE: Every 1 ms the zero-delay DLL measures CLKFBn and adjusts TRIM (R91) -/
def execZdbMeasure (n : Fin 4) (err : Int) (s : State) : Host.Outcome State Fault Refusal := timed (fbMeasure n err) s

/-- FB_LOST: CLKFBn shows no edge for 1 ms; the DLL holds TRIM and FB_LOST is set (R94) -/
def execFbLost (n : Fin 4) (s : State) : Host.Outcome State Fault Refusal := timed (fbLost n) s

/-- PPS_REALIGN: A write of 1 to PPS_REALIGN loads the pulse counter from the time base at the next tick, or is rejected while INVALID
(R107) -/
def execPpsRealign (m : BusMaster) (v : Word) (s : State) : Host.Outcome State Fault Refusal := run (busPut m PPS_REALIGN.addr v) s

/-- PPS_CFG_APPLY: At a whole second of the pulse counter, pending MODE, PERIOD, WIDTH, OFFSET and pattern writes take effect together
if valid (R109) -/
def execPpsCfgApply (n : Fin 4) (s : State) : Host.Outcome State Fault Refusal := timed (ppsApplyDue n) s

/-- PPS_OUT_ENABLE: A write of PPS_OUTn_CFG.EN = 1 enables the pulse output, or is discarded when the stored set is not valid (R114) -/
def execPpsOutEnable (m : BusMaster) (n : Fin 4) (v : Word) (s : State) : Host.Outcome State Fault Refusal :=
  run (busSet m (PPS_OUT_CFG_EN n) 1 v) s

end Sys2Proof.Machine
end

