-- ==== Sys2Proof/Machine/FamPort.lean ====
section
/-!
DEFINITION. Ports, frames and phase (chapters 6, 7, 9 and 10): one meaning per command of the table, over the operations of the block.
-/

namespace Sys2Proof.Machine

open Sys2Proof

/-- PORT_ENABLE: A write of MAC_CFG.EN = 1 commits the port to DOWN, or holds it while a flush runs (R259) -/
def execPortEnable (m : BusMaster) (p : Fin 66) (v : Word) (s : State) : Host.Outcome State Fault Refusal :=
  run (busSet m (MAC_CFG_EN p) 1 v) s

/-- PORT_DISABLE: A write of MAC_CFG.EN = 0 takes the port to DISABLED and flushes its queues (R259) -/
def execPortDisable (m : BusMaster) (p : Fin 66) (v : Word) (s : State) : Host.Outcome State Fault Refusal :=
  run (busSet m (MAC_CFG_EN p) 0 v) s

/-- PORT_UP_HOLD_EXPIRE: The link has been up for UP_HOLD and the port goes UP (R259) -/
def execPortUpHoldExpire (p : Fin 66) (s : State) : Host.Outcome State Fault Refusal := timed (portUpHold p) s

/-- PORT_DOWN_HOLD_EXPIRE: DOWN_HOLD expires and the port goes to FLUSHING (R259) -/
def execPortDownHoldExpire (p : Fin 66) (s : State) : Host.Outcome State Fault Refusal := timed (portDownHold p) s

/-- FLUSH_DONE: A flush completes; the port moves to DOWN or DISABLED and FLUSH_DONE is set (R430) -/
def execFlushDone (p : Fin 66) (s : State) : Host.Outcome State Fault Refusal := timed (portFlushed p) s

/-- FRAME_DECISION: A frame's parse window is in and the ingress pipeline decides its delivery, VLAN, lookups, class, stream and
destinations (R370) -/
def execFrameDecision (p : Fin 66) (rx : RxWindow) (s : State) : Host.Outcome State Fault Refusal :=
  run (onMac p (frameDecision p rx)) s

/-- FRAME_END: A frame's last byte arrives; FCS is judged, sources learned and meters trued up (R377) -/
def execFrameEnd (p : Fin 66) (rest : List Byte) (bad : Bool) (s : State) : Host.Outcome State Fault Refusal :=
  run (onMac p (frameTail p rest bad)) s

/-- EGRESS_SCHEDULE: An egress MAC can start a frame and the scheduler picks the eligible queue and sends its head frame (R421) -/
def execEgressSchedule (p : Fin 66) (tx : TxTiming) (s : State) : Host.Outcome State Fault Refusal :=
  run (onMac p (egressSchedule p tx)) s

/-- MPACKET_RX: A received mPacket is reassembled, or a fragment or mCRC error discards the frame (R474) -/
def execMpacketRx (p : Fin 66) (mp : MPacket) (s : State) : Host.Outcome State Fault Refusal := run (onMac p (mpacketRx p mp)) s

/-- VERIFY_DONE: Preemption verification succeeds or fails at the end of verifyTime (R476) -/
def execVerifyDone (p : Fin 66) (ok : Bool) (s : State) : Host.Outcome State Fault Refusal := timed (verifyDone p ok) s

/-- XC_LAUNCH: At L = T_rx + RES the express frame is launched on its egress port (R462) -/
def execXcLaunch (p : Fin 66) (tx : TxTiming) (s : State) : Host.Outcome State Fault Refusal := run (onMac p (xcLaunch p tx)) s

/-- PHA_SAMPLE: A DDMTD channel's beat edges yield a phase sample, which is validated and unwrapped (R294) -/
def execPhaSample (c : Fin 80) (beat : Beat) (s : State) : Host.Outcome State Fault Refusal := timed (laneSample c beat) s

/-- PHA_TXPH_MEASURE: The transmit survey finishes 16 beat periods on one PLL and writes PHA_TXPHq (R301) -/
def execPhaTxphMeasure (q : Fin 17) (phase : Fin 26215) (s : State) : Host.Outcome State Fault Refusal :=
  timed (txphMeasure q phase) s

/-- PHA_CH_CFG_WRITE: A write of PHA_CHc_CFG restarts a running channel with the new settings (R305) -/
def execPhaChCfgWrite (m : BusMaster) (c : Fin 80) (v : Word) (s : State) : Host.Outcome State Fault Refusal :=
  run (busPut m (PHA_CH_CFG c).addr v) s

/-- PHA_TRIM_WRITE: A write of TRIM_RX or TRIM_TX takes effect at the next stamp and increments TRIM_GEN (R311) -/
def execPhaTrimWrite (m : BusMaster) (p : Fin 66) (tx : Bool) (v : Word) (s : State) : Host.Outcome State Fault Refusal :=
  run (busPut m (if tx then PHA_PORT_TRIM_TX p else PHA_PORT_TRIM_RX p).addr v) s

end Sys2Proof.Machine
end

