-- ==== Sys2Proof/Machine/FamRef.lean ====
section
/-!
DEFINITION. References, the DPLL and the ensemble (chapter 3): one meaning per command of the table, over the operations of the block.
-/

namespace Sys2Proof.Machine

open Sys2Proof

/-- REF_LOSS: A candidate reference is declared lost and goes to FAILED, and the selector moves or enters holdover (R115) -/
def execRefLoss (n : Fin 16) (s : State) : Host.Outcome State Fault Refusal := timed (refLost n) s

/-- REF_FREQ_GATE: A frequency gate of a candidate ends; its frequency is measured and equal-priority pairs are tested for disagreement
(R117) -/
def execRefFreqGate (n : Fin 16) (f : Int) (s : State) : Host.Outcome State Fault Refusal := timed (freqGate n f) s

/-- REF_INSTAB_UPDATE: Every 16 s the instability estimator of each candidate takes a new term and updates INSTAB (R117) -/
def execRefInstabUpdate (n : Fin 16) (mean : Int) (s : State) : Host.Outcome State Fault Refusal := timed (instabUpdate n mean) s

/-- REF_PHASE_SAMPLE: A phase sample of a candidate arrives and is tested against the phase-hit threshold (R117) -/
def execRefPhaseSample (n : Fin 16) (p : Int) (s : State) : Host.Outcome State Fault Refusal := timed (slotPhase n p) s

/-- REF_SLOT_ENABLE: A write of REF_SLOTn_CFG.EN enables a slot toward SOAKING or returns it to UNQUALIFIED (R118) -/
def execRefSlotEnable (m : BusMaster) (n : Fin 16) (v : Word) (s : State) : Host.Outcome State Fault Refusal :=
  run (busPut m (REF_SLOT_CFG n).addr v) s

/-- REF_SOAK_EXPIRE: All checks pass throughout the soak and the candidate goes to QUALIFIED or WAIT_TO_RESTORE (R118) -/
def execRefSoakExpire (n : Fin 16) (s : State) : Host.Outcome State Fault Refusal := timed (soakExpire n) s

/-- REF_WTR_EXPIRE: All checks pass throughout REF_WTR and the candidate goes to QUALIFIED (R118) -/
def execRefWtrExpire (n : Fin 16) (s : State) : Host.Outcome State Fault Refusal := timed (wtrExpire n) s

/-- REF_SWITCH_COMMIT: At the next DPLL update the switch commits and the DPLL tracks the target less the build-out (R125) -/
def execRefSwitchCommit (s : State) : Host.Outcome State Fault Refusal := timed switchCommit s

/-- DPLL_UPDATE: Every 250 CLK_TIME cycles the DPLL updates DCO_OFFSET and tests its phase error (R132) -/
def execDpllUpdate (sample : Int) (s : State) : Host.Outcome State Fault Refusal := timed (dpllUpdate sample) s

/-- DPLL_LOCKED: The phase error stays within PE throughout the lock time and the DPLL goes LOCKED (R134) -/
def execDpllLocked (s : State) : Host.Outcome State Fault Refusal := timed dpllLocked s

/-- REF_MODE_AUTO: REF_CTRL.MODE written AUTO makes the selector choose the best-ranked QUALIFIED candidate (R122) -/
def execRefModeAuto (m : BusMaster) (v : Word) (s : State) : Host.Outcome State Fault Refusal := run (busSet m REF_CTRL_MODE 0 v) s

/-- REF_MODE_FORCED: REF_CTRL.MODE written FORCED makes the selector use the forced slot only (R124) -/
def execRefModeForced (m : BusMaster) (v : Word) (s : State) : Host.Outcome State Fault Refusal :=
  run (busSet m REF_CTRL_MODE 1 v) s

/-- FORCE_HOLDOVER: REF_CTRL.MODE written FORCE_HOLDOVER takes the DPLL to HOLDOVER, or to FREERUN when holdover is not available (R134)
-/
def execForceHoldover (m : BusMaster) (v : Word) (s : State) : Host.Outcome State Fault Refusal :=
  run (busSet m REF_CTRL_MODE 2 v) s

/-- FORCE_FREERUN: REF_CTRL.MODE written FORCE_FREERUN takes the DPLL to FREERUN (R136) -/
def execForceFreerun (m : BusMaster) (v : Word) (s : State) : Host.Outcome State Fault Refusal := run (busSet m REF_CTRL_MODE 3 v) s

/-- DCO_OWNER_CHANGE: A write of DCO_CTRL.OWNER hands DCO steering to the host or back to the DPLL (R138) -/
def execDcoOwnerChange (m : BusMaster) (v : Word) (s : State) : Host.Outcome State Fault Refusal := run (busPut m DCO_CTRL.addr v) s

/-- DCO_OFFSET_WRITE: A host write of DCO_OFFSET applies while the host owns it, and is otherwise discarded with DCO_NOT_OWNER (R137) -/
def execDcoOffsetWrite (m : BusMaster) (v : Word) (s : State) : Host.Outcome State Fault Refusal :=
  run (busPut m DCO_OFFSET.addr v) s

/-- HOLD_HISTORY_WRITE: At the end of each second the mean applied DCO_OFFSET is written into the holdover history (R139) -/
def execHoldHistoryWrite (s : State) : Host.Outcome State Fault Refusal := timed historyWrite s

/-- FRAM_PERIODIC_SAVE: After 64 new history entries, the entries and a new header are written to the FRAM (R144) -/
def execFramPeriodicSave (s : State) : Host.Outcome State Fault Refusal := timed framPeriodic s

/-- FRAM_SAVE_READBACK: The written header is read back; a match makes it the newest valid header, otherwise FRAM_ERR is set (R144) -/
def execFramSaveReadback (same : Bool) (s : State) : Host.Outcome State Fault Refusal := timed (framReadback same) s

/-- FRAM_START_READ: The first move of HOLD_FRAM_CFG.EN to 1 reads both headers and last-gasp slots and may make a provisional seed
(R146) -/
def execFramStartRead (s : State) : Host.Outcome State Fault Refusal := timed framStartDue s

/-- ENS_ENABLE: A write of REF_ENS_CTRL.EN = 1 commits the ensemble after checking MC24 (R148) -/
def execEnsEnable (m : BusMaster) (v : Word) (s : State) : Host.Outcome State Fault Refusal := run (busSet m REF_ENS_CTRL_EN 1 v) s

/-- ENS_ALLAN_UPDATE: Every 16 s each member's mean offset and Allan variance term are updated (R150) -/
def execEnsAllanUpdate (s : State) : Host.Outcome State Fault Refusal := timed ensAllan s

/-- ENS_ESTIMATE_UPDATE: Every 62.5 ms the ensemble weights, estimate E and departures are computed (R150) -/
def execEnsEstimateUpdate (s : State) : Host.Outcome State Fault Refusal := timed ensUpdate s

/-- ENS_MEMBER_RETURN: A DROPPED member within DISAGREE / 2 of E for 64 s returns to FUSED (R152) -/
def execEnsMemberReturn (k : Fin 8) (s : State) : Host.Outcome State Fault Refusal := timed (ensReturn k) s

end Sys2Proof.Machine
end

