-- ==== Sys2Proof/Machine/FamTime.lean ====
section
/-!
DEFINITION. The time base and scheduled actions (chapter 4): one meaning per command of the table, over the operations of the block.
-/

namespace Sys2Proof.Machine

open Sys2Proof

/-- TB_INCR_WRITE: A host write of TB_INCR applies at the next tick, or is discarded when out of range or not owned (R171) -/
def execTbIncrWrite (m : BusMaster) (v : Word) (s : State) : Host.Outcome State Fault Refusal := run (busPut m TB_INCR.addr v) s

/-- TB_SHADOW_MISMATCH: The shadow counter differs from the main counter; DIVERGE is set and the time base goes INVALID (R174) -/
def execTbShadowMismatch (s : State) : Host.Outcome State Fault Refusal := timed shadowMismatch s

/-- TB_HOST_STATE_REQ: A host write of TB_HOST_STATE.REQ sets the time-base state while the host owns steering (R175) -/
def execTbHostStateReq (m : BusMaster) (v : Word) (s : State) : Host.Outcome State Fault Refusal :=
  run (busPut m TB_HOST_STATE.addr v) s

/-- TB_STEP_APPLY: A pending step or load falls due at its tick and the counter takes c + e, or the step is rejected or collides (R179)
-/
def execTbStepApply (s : State) : Host.Outcome State Fault Refusal := timed stepApplyDue s

/-- TB_STEER_SRC_WRITE: A write of TB_CTRL.STEER_SRC changes the steering domain and resets the DOM_OFFSETs concerned (R354) -/
def execTbSteerSrcWrite (m : BusMaster) (v : Word) (s : State) : Host.Outcome State Fault Refusal := run (busPut m TB_CTRL.addr v) s

/-- TB_STEER_OWNER_WRITE: A write of TB_CTRL.STEER_OWNER changes the effective owner and discards a step pending from the previous owner
(R172) -/
def execTbSteerOwnerWrite (m : BusMaster) (v : Word) (s : State) : Host.Outcome State Fault Refusal :=
  run (busPut m TB_CTRL.addr v) s

/-- TB_STEP_GO: A write of 1 to TB_STEP_CTRL.GO requests the host step in TB_STEP at the next second boundary (R180) -/
def execTbStepGo (m : BusMaster) (v : Word) (s : State) : Host.Outcome State Fault Refusal := run (busSet m TB_STEP_CTRL_GO 1 v) s

/-- TB_LOAD_GO: A write of 1 to TB_LOAD_CTRL.GO requests a load of TB_LOAD at the next tick while INVALID (R180) -/
def execTbLoadGo (m : BusMaster) (v : Word) (s : State) : Host.Outcome State Fault Refusal := run (busSet m TB_LOAD_CTRL_GO 1 v) s

/-- TB_SNAP_SW: A write of 1 to TB_SNAP_CTRL.SW captures the time base into TB_SNAP0 at the next tick (R184) -/
def execTbSnapSw (m : BusMaster) (v : Word) (s : State) : Host.Outcome State Fault Refusal := run (busSet m TB_SNAP_CTRL_SW 1 v) s

/-- PPSIN_EDGE: An enabled edge on PPSIN0 or PPSIN1 captures the time base into TB_SNAP1 or TB_SNAP2 (R185) -/
def execPpsinEdge (n : Fin 2) (e : PinEdge) (s : State) : Host.Outcome State Fault Refusal := timed (ppsinEdge n e.falling e.fab) s

/-- TODIN_MESSAGE: A time-of-day message arrives on TODIN and is checked for format and checksum (R189) -/
def execTodinMessage (bytes : List Byte) (s : State) : Host.Outcome State Fault Refusal := timed (todIn bytes) s

/-- TODIN_EDGE: The first PPSIN edge in the message's window loads the time base or updates TB_TOD_IN_DIFF (R189) -/
def execTodinEdge (n : Fin 2) (e : PinEdge) (s : State) : Host.Outcome State Fault Refusal := timed (todinEdge n e.falling e.fab) s

/-- TODIN_EDGE_TIMEOUT: No edge arrives 1 ms to 1,000 ms after the message, which is discarded with TOD_ERR (R189) -/
def execTodinEdgeTimeout (s : State) : Host.Outcome State Fault Refusal := timed todTimeout s

/-- TODOUT_SEND: TX_DELAY after a pulse edge, TODOUT sends a message announcing the next second (R188) -/
def execTodoutSend (s : State) : Host.Outcome State Fault Refusal := timed todSend s

/-- SCH_ARM: A write of 1 to SCH_ACTn_CTRL.ARM arms the action at the next tick, or rejects it, or handles it as late (R191) -/
def execSchArm (m : BusMaster) (n : Fin 64) (v : Word) (s : State) : Host.Outcome State Fault Refusal :=
  run (busSet2 m (SCH_ACT_CTRL_ARM n) 1 (SCH_ACT_CTRL_DISARM n) 0 v) s

/-- SCH_DISARM: A write of CTRL with DISARM = 1 disarms the action and RESULT reads IDLE (R196) -/
def execSchDisarm (m : BusMaster) (n : Fin 64) (v : Word) (s : State) : Host.Outcome State Fault Refusal :=
  run (busSet m (SCH_ACT_CTRL_DISARM n) 1 v) s

/-- SCH_ACTION_DUE: At a tick where an armed action's time is reached or passed, it executes or follows its late policy (R192) -/
def execSchActionDue (n : Fin 64) (s : State) : Host.Outcome State Fault Refusal := timed (actDue n) s

end Sys2Proof.Machine
end

