-- ==== Sys2Proof/Machine/FamTiu.lean ====
section
/-!
DEFINITION. The TIU and calibration (chapters 12 and 13): one meaning per command of the table, over the operations of the block.
-/

namespace Sys2Proof.Machine

open Sys2Proof

/-- TIU_ARM: A write of 1 to TIU_CTRL.ARM arms a run, or refuses it with BAD_WINDOW or NO_REF (R503) -/
def execTiuArm (m : BusMaster) (v : Word) (s : State) : Host.Outcome State Fault Refusal :=
  run (busSet2 m TIU_CTRL_ARM 1 TIU_CTRL_DISARM 0 v) s

/-- TIU_DISARM: A write of 1 to TIU_CTRL.DISARM ends the run DISARMED (R503) -/
def execTiuDisarm (m : BusMaster) (v : Word) (s : State) : Host.Outcome State Fault Refusal := run (busSet m TIU_CTRL_DISARM 1 v) s

/-- TIU_BASE_LOCKED: The selected base locks while armed and calibration begins (R495) -/
def execTiuBaseLocked (s : State) : Host.Outcome State Fault Refusal := run tiuBaseLocked s

/-- TIU_CAL_DONE: Interpolator calibration completes and the TIU waits for a start, or records CAL_FAIL (R487) -/
def execTiuCalDone (k : TiuCodes) (s : State) : Host.Outcome State Fault Refusal := run (tiuCalDone k) s

/-- TIU_START_EDGE: An accepted start edge starts a measurement and tests any held stop (R497) -/
def execTiuStartEdge (e : TiuInput) (stop : TiuEdge) (ago : Nat) (s : State) : Host.Outcome State Fault Refusal :=
  run (tiuStartIn e stop ago) s

/-- TIU_STOP_EDGE: An accepted stop edge is held or accepted or rejected against the window (R497) -/
def execTiuStopEdge (e : TiuStop) (s : State) : Host.Outcome State Fault Refusal := run (tiuStopIn e) s

/-- TIU_WINDOW_CLOSE: The window closes with no stop accepted and a NO_STOP result is written (R499) -/
def execTiuWindowClose (s : State) : Host.Outcome State Fault Refusal := run tiuWindowClose s

/-- TIU_START_TIMEOUT: TIU_START_TO elapses from arm with no start and the run ends NO_START (R495) -/
def execTiuStartTimeout (s : State) : Host.Outcome State Fault Refusal := run tiuStartTimeout s

/-- TIU_REF_PRESENT: TIU_REF shows 1 ms of edges within ±0.1% of 10 MHz and is present (R493) -/
def execTiuRefPresent (s : State) : Host.Outcome State Fault Refusal := run tiuRefPresent s

/-- TIU_REF_LOST: TIU_REF shows no edge for 300 ns and is lost (R493) -/
def execTiuRefLost (s : State) : Host.Outcome State Fault Refusal := run tiuRefLost s

/-- TIU_MULTIPLIER_LOSS_OF_LOCK: With BASE = ROOT, the TIU multiplier loses lock, so a measurement in progress is aborted and the run
ends ABORTED (R494) -/
def execTiuMultiplierLossOfLock (s : State) : Host.Outcome State Fault Refusal := run tiuMultLoss s

/-- TIU_FIFO_READ: A read of the lowest TIU_FIFO word takes the oldest result into the shadow and removes it (R515) -/
def execTiuFifoRead (m : BusMaster) (s : State) : Host.Outcome State Fault Refusal := runRead m TIU_FIFO.addr s

/-- CAL_PASS_START: A class's period elapses or a trigger occurs and a calibration pass starts (R521) -/
def execCalPassStart (k : Fin 6) (s : State) : Host.Outcome State Fault Refusal := timed (calDue k) s

/-- CAL_RUN: A write of 1 to CAL_k_RUN starts a pass of the class (R521) -/
def execCalRun (m : BusMaster) (k : Fin 6) (v : Word) (s : State) : Host.Outcome State Fault Refusal :=
  run (busSet m (CAL_RUN_V k) 1 v) s

/-- CAL_APPLY: A pass completes for an instance and its new coefficient is applied in one step, or the limit fails (R524) -/
def execCalApply (k : Fin 6) (inst : Fin 80) (r : CalResult) (s : State) : Host.Outcome State Fault Refusal :=
  timed (calApply k inst r) s

end Sys2Proof.Machine
end

