-- ==== Sys2Proof/Machine/Dispatch.lean ====
section
/-!
DEFINITION. One arm per command: the call of its meaning, or its refusal by name.
-/

namespace Sys2Proof.Machine

open Sys2Proof

/-- What a command does, on everything but the queue. -/
def exec (i : Instr) (s : State) : Host.Outcome State Fault Refusal :=
  match i with
  | .registerWrite m addr be v => Sys2Proof.Machine.execRegisterWrite m addr be v s
  | .wideValueCapture m addr => Sys2Proof.Machine.execWideValueCapture m addr s
  | .wideValueStage m addr v => Sys2Proof.Machine.execWideValueStage m addr v s
  | .wideValueCommit m addr v => Sys2Proof.Machine.execWideValueCommit m addr v s
  | .rcFieldRead m addr => Sys2Proof.Machine.execRcFieldRead m addr s
  | .accessTimeout m addr write => Sys2Proof.Machine.execAccessTimeout m addr write s
  | .resetAssert => Sys2Proof.Machine.execResetAssert s
  | .railBelowReset rail => Sys2Proof.Machine.execRailBelowReset rail s
  | .resetRelease straps => Sys2Proof.Machine.execResetRelease straps s
  | .rootDeclarationRead a b => Sys2Proof.Machine.execRootDeclarationRead a b s
  | .clockStartRetry => Sys2Proof.Machine.execClockStartRetry s
  | .capstanLock band ppm => Sys2Proof.Machine.execCapstanLock band ppm s
  | .capstanBandSearch => Sys2Proof.Machine.execCapstanBandSearch s
  | .safeRatioEnd => Sys2Proof.Machine.execSafeRatioEnd s
  | .hwRegionInit => Sys2Proof.Machine.execHwRegionInit s
  | .capstanLossOfLock => Sys2Proof.Machine.execCapstanLossOfLock s
  | .frequencyExcursion => Sys2Proof.Machine.execFrequencyExcursion s
  | .capstanRelockTimeout => Sys2Proof.Machine.execCapstanRelockTimeout s
  | .capstanRetry => Sys2Proof.Machine.execCapstanRetry s
  | .ocxoCool => Sys2Proof.Machine.execOcxoCool s
  | .ditherReseed m v => Sys2Proof.Machine.execDitherReseed m v s
  | .auxPlanHop m n v => Sys2Proof.Machine.execAuxPlanHop m n v s
  | .auxHopComplete n band => Sys2Proof.Machine.execAuxHopComplete n band s
  | .auxLossOfLock n => Sys2Proof.Machine.execAuxLossOfLock n s
  | .clkoutEnable m n v => Sys2Proof.Machine.execClkoutEnable m n v s
  | .clkoutDisable m n v => Sys2Proof.Machine.execClkoutDisable m n v s
  | .outPhaseWrite m n v => Sys2Proof.Machine.execOutPhaseWrite m n v s
  | .zdbMeasure n err => Sys2Proof.Machine.execZdbMeasure n err s
  | .fbLost n => Sys2Proof.Machine.execFbLost n s
  | .ppsRealign m v => Sys2Proof.Machine.execPpsRealign m v s
  | .ppsCfgApply n => Sys2Proof.Machine.execPpsCfgApply n s
  | .ppsOutEnable m n v => Sys2Proof.Machine.execPpsOutEnable m n v s
  | .refLoss n => Sys2Proof.Machine.execRefLoss n s
  | .refFreqGate n f => Sys2Proof.Machine.execRefFreqGate n f s
  | .refInstabUpdate n mean => Sys2Proof.Machine.execRefInstabUpdate n mean s
  | .refPhaseSample n p => Sys2Proof.Machine.execRefPhaseSample n p s
  | .refSlotEnable m n v => Sys2Proof.Machine.execRefSlotEnable m n v s
  | .refSoakExpire n => Sys2Proof.Machine.execRefSoakExpire n s
  | .refWtrExpire n => Sys2Proof.Machine.execRefWtrExpire n s
  | .refSwitchCommit => Sys2Proof.Machine.execRefSwitchCommit s
  | .dpllUpdate sample => Sys2Proof.Machine.execDpllUpdate sample s
  | .dpllLocked => Sys2Proof.Machine.execDpllLocked s
  | .refModeAuto m v => Sys2Proof.Machine.execRefModeAuto m v s
  | .refModeForced m v => Sys2Proof.Machine.execRefModeForced m v s
  | .forceHoldover m v => Sys2Proof.Machine.execForceHoldover m v s
  | .forceFreerun m v => Sys2Proof.Machine.execForceFreerun m v s
  | .dcoOwnerChange m v => Sys2Proof.Machine.execDcoOwnerChange m v s
  | .dcoOffsetWrite m v => Sys2Proof.Machine.execDcoOffsetWrite m v s
  | .holdHistoryWrite => Sys2Proof.Machine.execHoldHistoryWrite s
  | .framPeriodicSave => Sys2Proof.Machine.execFramPeriodicSave s
  | .framSaveReadback same => Sys2Proof.Machine.execFramSaveReadback same s
  | .framStartRead => Sys2Proof.Machine.execFramStartRead s
  | .ensEnable m v => Sys2Proof.Machine.execEnsEnable m v s
  | .ensAllanUpdate => Sys2Proof.Machine.execEnsAllanUpdate s
  | .ensEstimateUpdate => Sys2Proof.Machine.execEnsEstimateUpdate s
  | .ensMemberReturn k => Sys2Proof.Machine.execEnsMemberReturn k s
  | .tbIncrWrite m v => Sys2Proof.Machine.execTbIncrWrite m v s
  | .tbShadowMismatch => Sys2Proof.Machine.execTbShadowMismatch s
  | .tbHostStateReq m v => Sys2Proof.Machine.execTbHostStateReq m v s
  | .tbStepApply => Sys2Proof.Machine.execTbStepApply s
  | .tbSteerSrcWrite m v => Sys2Proof.Machine.execTbSteerSrcWrite m v s
  | .tbSteerOwnerWrite m v => Sys2Proof.Machine.execTbSteerOwnerWrite m v s
  | .tbStepGo m v => Sys2Proof.Machine.execTbStepGo m v s
  | .tbLoadGo m v => Sys2Proof.Machine.execTbLoadGo m v s
  | .tbSnapSw m v => Sys2Proof.Machine.execTbSnapSw m v s
  | .ppsinEdge n e => Sys2Proof.Machine.execPpsinEdge n e s
  | .todinMessage bytes => Sys2Proof.Machine.execTodinMessage bytes s
  | .todinEdge n e => Sys2Proof.Machine.execTodinEdge n e s
  | .todinEdgeTimeout => Sys2Proof.Machine.execTodinEdgeTimeout s
  | .todoutSend => Sys2Proof.Machine.execTodoutSend s
  | .schArm m n v => Sys2Proof.Machine.execSchArm m n v s
  | .schDisarm m n v => Sys2Proof.Machine.execSchDisarm m n v s
  | .schActionDue n => Sys2Proof.Machine.execSchActionDue n s
  | .quadCfgWrite m q v => Sys2Proof.Machine.execQuadCfgWrite m q v s
  | .quadPllLocked q band => Sys2Proof.Machine.execQuadPllLocked q band s
  | .quadPllLoss q => Sys2Proof.Machine.execQuadPllLoss q s
  | .quadPllRelockTimeout q => Sys2Proof.Machine.execQuadPllRelockTimeout q s
  | .laneEnable m n v => Sys2Proof.Machine.execLaneEnable m n v s
  | .laneDisable m n v => Sys2Proof.Machine.execLaneDisable m n v s
  | .laneSignalDetected n => Sys2Proof.Machine.execLaneSignalDetected n s
  | .laneCdrLocked n => Sys2Proof.Machine.execLaneCdrLocked n s
  | .cdrTimeout n => Sys2Proof.Machine.execCdrTimeout n s
  | .laneTrainingDone n frames => Sys2Proof.Machine.execLaneTrainingDone n frames s
  | .trainFallback n => Sys2Proof.Machine.execTrainFallback n s
  | .laneLossOfSignal n cause => Sys2Proof.Machine.execLaneLossOfSignal n cause s
  | .laneAligned n lat => Sys2Proof.Machine.execLaneAligned n lat s
  | .alignTimeout n => Sys2Proof.Machine.execAlignTimeout n s
  | .laneBackoffReset n => Sys2Proof.Machine.execLaneBackoffReset n s
  | .laneSyntEstimate n beats every => Sys2Proof.Machine.execLaneSyntEstimate n beats every s
  | .laneCrossingMargin n => Sys2Proof.Machine.execLaneCrossingMargin n s
  | .laneClockReqWrite m n v => Sys2Proof.Machine.execLaneClockReqWrite m n v s
  | .laneClockSwitch n lat => Sys2Proof.Machine.execLaneClockSwitch n lat s
  | .laneSwitchForce n lat => Sys2Proof.Machine.execLaneSwitchForce n lat s
  | .rcsLaneWrite m k v => Sys2Proof.Machine.execRcsLaneWrite m k v s
  | .rcsRestart k => Sys2Proof.Machine.execRcsRestart k s
  | .prbsGenEnable m n v => Sys2Proof.Machine.execPrbsGenEnable m n v s
  | .injSingle m n v => Sys2Proof.Machine.execInjSingle m n v s
  | .eyeScanStart m n v => Sys2Proof.Machine.execEyeScanStart m n v s
  | .eyeScanDone n errs => Sys2Proof.Machine.execEyeScanDone n errs s
  | .portEnable m p v => Sys2Proof.Machine.execPortEnable m p v s
  | .portDisable m p v => Sys2Proof.Machine.execPortDisable m p v s
  | .portUpHoldExpire p => Sys2Proof.Machine.execPortUpHoldExpire p s
  | .portDownHoldExpire p => Sys2Proof.Machine.execPortDownHoldExpire p s
  | .flushDone p => Sys2Proof.Machine.execFlushDone p s
  | .frameDecision p rx => Sys2Proof.Machine.execFrameDecision p rx s
  | .frameEnd p rest bad => Sys2Proof.Machine.execFrameEnd p rest bad s
  | .egressSchedule p tx => Sys2Proof.Machine.execEgressSchedule p tx s
  | .phaSample c beat => Sys2Proof.Machine.execPhaSample c beat s
  | .phaTxphMeasure q phase => Sys2Proof.Machine.execPhaTxphMeasure q phase s
  | .phaChCfgWrite m c v => Sys2Proof.Machine.execPhaChCfgWrite m c v s
  | .phaTrimWrite m p tx v => Sys2Proof.Machine.execPhaTrimWrite m p tx v s
  | .fmEnable m v => Sys2Proof.Machine.execFmEnable m v s
  | .fmDisable m v => Sys2Proof.Machine.execFmDisable m v s
  | .fmBlockReset m v => Sys2Proof.Machine.execFmBlockReset m v s
  | .fmDomainEnable m d v => Sys2Proof.Machine.execFmDomainEnable m d v s
  | .fmDomainDisable m d v => Sys2Proof.Machine.execFmDomainDisable m d v s
  | .fmSessionEnable m k v => Sys2Proof.Machine.execFmSessionEnable m k v s
  | .fmSessionDisable m k v => Sys2Proof.Machine.execFmSessionDisable m k v s
  | .initializationComplete k => Sys2Proof.Machine.execInitializationComplete k s
  | .syncRx => Sys2Proof.Machine.execSyncRx s
  | .followUpRx => Sys2Proof.Machine.execFollowUpRx s
  | .delayReqRx => Sys2Proof.Machine.execDelayReqRx s
  | .delayRespRx => Sys2Proof.Machine.execDelayRespRx s
  | .pdelayReqRx => Sys2Proof.Machine.execPdelayReqRx s
  | .pdelayRespRx => Sys2Proof.Machine.execPdelayRespRx s
  | .pdelayRespFollowUpRx => Sys2Proof.Machine.execPdelayRespFollowUpRx s
  | .announceRx => Sys2Proof.Machine.execAnnounceRx s
  | .signalingRx => Sys2Proof.Machine.execSignalingRx s
  | .syncDue k => Sys2Proof.Machine.execSyncDue k s
  | .delayReqDue k => Sys2Proof.Machine.execDelayReqDue k s
  | .pdelayReqDue k => Sys2Proof.Machine.execPdelayReqDue k s
  | .announceDue k => Sys2Proof.Machine.execAnnounceDue k s
  | .l1syncDue k => Sys2Proof.Machine.execL1syncDue k s
  | .stampReturn => Sys2Proof.Machine.execStampReturn s
  | .stateDecision d => Sys2Proof.Machine.execStateDecision d s
  | .qualificationTimeout k => Sys2Proof.Machine.execQualificationTimeout k s
  | .announceReceiptTimeout k => Sys2Proof.Machine.execAnnounceReceiptTimeout k s
  | .syncReceiptTimeout k => Sys2Proof.Machine.execSyncReceiptTimeout k s
  | .followUpTimeout k => Sys2Proof.Machine.execFollowUpTimeout k s
  | .responseTimeout k => Sys2Proof.Machine.execResponseTimeout k s
  | .l1syncReceiptTimeout k => Sys2Proof.Machine.execL1syncReceiptTimeout k s
  | .sessionStall k => Sys2Proof.Machine.execSessionStall k s
  | .engineStall => Sys2Proof.Machine.execEngineStall s
  | .glbReload m v => Sys2Proof.Machine.execGlbReload m v s
  | .macCmdInsert m v => Sys2Proof.Machine.execMacCmdInsert m v s
  | .macCmdDelete m v => Sys2Proof.Machine.execMacCmdDelete m v s
  | .macCmdLookup m v => Sys2Proof.Machine.execMacCmdLookup m v s
  | .flushDynamic m v => Sys2Proof.Machine.execFlushDynamic m v s
  | .flushDynamicDone => Sys2Proof.Machine.execFlushDynamicDone s
  | .macAgeScan => Sys2Proof.Machine.execMacAgeScan s
  | .streamEntryWrite m n be v => Sys2Proof.Machine.execStreamEntryWrite m n be v s
  | .meterEntryWrite m n w be v => Sys2Proof.Machine.execMeterEntryWrite m n w be v s
  | .frerReset n => Sys2Proof.Machine.execFrerReset n s
  | .spillEnable m v => Sys2Proof.Machine.execSpillEnable m v s
  | .spillInitDone => Sys2Proof.Machine.execSpillInitDone s
  | .spillInitTimeout => Sys2Proof.Machine.execSpillInitTimeout s
  | .spillPageWrite p t => Sys2Proof.Machine.execSpillPageWrite p t s
  | .refillPageRead p t => Sys2Proof.Machine.execRefillPageRead p t s
  | .refillReadDone p t check => Sys2Proof.Machine.execRefillReadDone p t check s
  | .readRetry p t => Sys2Proof.Machine.execReadRetry p t s
  | .gateEvent p => Sys2Proof.Machine.execGateEvent p s
  | .queueStuckTimeout p t => Sys2Proof.Machine.execQueueStuckTimeout p t s
  | .residenceSweep => Sys2Proof.Machine.execResidenceSweep s
  | .queueResume m p t v => Sys2Proof.Machine.execQueueResume m p t v s
  | .poolAgeEpoch => Sys2Proof.Machine.execPoolAgeEpoch s
  | .alloc m v => Sys2Proof.Machine.execAlloc m v s
  | .free m v => Sys2Proof.Machine.execFree m v s
  | .incref m v => Sys2Proof.Machine.execIncref m v s
  | .query m v => Sys2Proof.Machine.execQuery m v s
  | .poolEnable m n v => Sys2Proof.Machine.execPoolEnable m n v s
  | .xcStreamInstall m n v => Sys2Proof.Machine.execXcStreamInstall m n v s
  | .xcStreamUninstall m n v => Sys2Proof.Machine.execXcStreamUninstall m n v s
  | .xcLaunch p tx => Sys2Proof.Machine.execXcLaunch p tx s
  | .verifyDone p ok => Sys2Proof.Machine.execVerifyDone p ok s
  | .mpacketRx p mp => Sys2Proof.Machine.execMpacketRx p mp s
  | .tiuArm m v => Sys2Proof.Machine.execTiuArm m v s
  | .tiuDisarm m v => Sys2Proof.Machine.execTiuDisarm m v s
  | .tiuBaseLocked => Sys2Proof.Machine.execTiuBaseLocked s
  | .tiuCalDone k => Sys2Proof.Machine.execTiuCalDone k s
  | .tiuStartEdge e stop ago => Sys2Proof.Machine.execTiuStartEdge e stop ago s
  | .tiuStopEdge e => Sys2Proof.Machine.execTiuStopEdge e s
  | .tiuWindowClose => Sys2Proof.Machine.execTiuWindowClose s
  | .tiuStartTimeout => Sys2Proof.Machine.execTiuStartTimeout s
  | .tiuRefPresent => Sys2Proof.Machine.execTiuRefPresent s
  | .tiuRefLost => Sys2Proof.Machine.execTiuRefLost s
  | .tiuFifoRead m => Sys2Proof.Machine.execTiuFifoRead m s
  | .calPassStart k => Sys2Proof.Machine.execCalPassStart k s
  | .calRun m k v => Sys2Proof.Machine.execCalRun m k v s
  | .calApply k inst r => Sys2Proof.Machine.execCalApply k inst r s
  | .scrubWordRead r addr flips last => Sys2Proof.Machine.execScrubWordRead r addr flips last s
  | .tableReloadDone sections => Sys2Proof.Machine.execTableReloadDone sections s
  | .cfgSweep upsets => Sys2Proof.Machine.execCfgSweep upsets s
  | .eccInjArm m v => Sys2Proof.Machine.execEccInjArm m v s
  | .eccLogRead m => Sys2Proof.Machine.execEccLogRead m s
  | .pairEnable m v => Sys2Proof.Machine.execPairEnable m v s
  | .pairDisable m v => Sys2Proof.Machine.execPairDisable m v s
  | .mateAliveLost => Sys2Proof.Machine.execMateAliveLost s
  | .mateAlivePresent => Sys2Proof.Machine.execMateAlivePresent s
  | .healthSend => Sys2Proof.Machine.execHealthSend s
  | .healthRx body => Sys2Proof.Machine.execHealthRx body s
  | .reportTimeout => Sys2Proof.Machine.execReportTimeout s
  | .firstReportTimeout => Sys2Proof.Machine.execFirstReportTimeout s
  | .seqRx body => Sys2Proof.Machine.execSeqRx body s
  | .seqSend => Sys2Proof.Machine.execSeqSend s
  | .seqMatchTimeout n => Sys2Proof.Machine.execSeqMatchTimeout n s
  | .hoReq m v => Sys2Proof.Machine.execHoReq m v s
  | .hoRevertiveRequest => Sys2Proof.Machine.execHoRevertiveRequest s
  | .hoReqRx body => Sys2Proof.Machine.execHoReqRx body s
  | .hoAckRx body => Sys2Proof.Machine.execHoAckRx body s
  | .hoAbortRx body => Sys2Proof.Machine.execHoAbortRx body s
  | .hoAckTimeout => Sys2Proof.Machine.execHoAckTimeout s
  | .demoteRx body => Sys2Proof.Machine.execDemoteRx body s
  | .marchTest fails => Sys2Proof.Machine.execMarchTest fails s
  | .laneLoopTest n errs => Sys2Proof.Machine.execLaneLoopTest n errs s
  | .railWarning rail => Sys2Proof.Machine.execRailWarning rail s
  | .pfailAssert => Sys2Proof.Machine.execPfailAssert s
  | .shedGroup g => Sys2Proof.Machine.execShedGroup g s
  | .shed3Entry => Sys2Proof.Machine.execShed3Entry s
  | .supplyTriggerClear => Sys2Proof.Machine.execSupplyTriggerClear s
  | .restoreStart => Sys2Proof.Machine.execRestoreStart s
  | .restoreStep => Sys2Proof.Machine.execRestoreStep s
  | .imageReadStart => Sys2Proof.Machine.execImageReadStart s
  | .sectionReadDone bytes => Sys2Proof.Machine.execSectionReadDone bytes s
  | .header bytes => Sys2Proof.Machine.execHeader bytes s
  | .write32 => Sys2Proof.Machine.execWrite32 s
  | .writeBlock => Sys2Proof.Machine.execWriteBlock s
  | .fill => Sys2Proof.Machine.execFill s
  | .modify => Sys2Proof.Machine.execModify s
  | .waitTime => Sys2Proof.Machine.execWaitTime s
  | .waitTimeExpire => Sys2Proof.Machine.execWaitTimeExpire s
  | .waitBit => Sys2Proof.Machine.execWaitBit s
  | .waitBitTimeout => Sys2Proof.Machine.execWaitBitTimeout s
  | .tableLoad => Sys2Proof.Machine.execTableLoad s
  | .key => Sys2Proof.Machine.execKey s
  | .signature => Sys2Proof.Machine.execSignature s
  | .signatureVerified => Sys2Proof.Machine.execSignatureVerified s
  | .end_ => Sys2Proof.Machine.execEnd s
  | .imageUndoDone => Sys2Proof.Machine.execImageUndoDone s
  | .loadTimeout => Sys2Proof.Machine.execLoadTimeout s
  | .hostLoadStart m v => Sys2Proof.Machine.execHostLoadStart m v s
  | .hostAbort m v => Sys2Proof.Machine.execHostAbort m v s
  | .hostFifoWrite m v => Sys2Proof.Machine.execHostFifoWrite m v s
  | .hostIdle => Sys2Proof.Machine.execHostIdle s
  | .hostWaitTimeout => Sys2Proof.Machine.execHostWaitTimeout s
  | .pciePerst => Sys2Proof.Machine.execPciePerst s
  | .dmaTxDescriptor t desc frame => Sys2Proof.Machine.execDmaTxDescriptor t desc frame s
  | .dmaHostReadTimeout t => Sys2Proof.Machine.execDmaHostReadTimeout t s
  | .dmaRxDeliver t bufLen => Sys2Proof.Machine.execDmaRxDeliver t bufLen s
  | .spiWrite addr data => Sys2Proof.Machine.execSpiWrite addr data s
  | .spiRead addr n => Sys2Proof.Machine.execSpiRead addr n s
  | .spiStatus => Sys2Proof.Machine.execSpiStatus s
  | .mmpRequest => Sys2Proof.Machine.execMmpRequest s
  | .bypass => Sys2Proof.Machine.execBypass s
  | .idcode => Sys2Proof.Machine.execIdcode s
  | .samplePreload => Sys2Proof.Machine.execSamplePreload s
  | .extest => Sys2Proof.Machine.execExtest s
  | .extestPulse => Sys2Proof.Machine.execExtestPulse s
  | .extestTrain => Sys2Proof.Machine.execExtestTrain s
  | .extestExit => Sys2Proof.Machine.execExtestExit s
  | .irqRearm m v => Sys2Proof.Machine.execIrqRearm m v s
  | .i2cCommand m b v => Sys2Proof.Machine.execI2cCommand m b v s
  | .i2cDone b r data => Sys2Proof.Machine.execI2cDone b r data s
  | .i2cTimeout b => Sys2Proof.Machine.execI2cTimeout b s
  | .mdioFrame m v => Sys2Proof.Machine.execMdioFrame m v s
  | .mdioDone data => Sys2Proof.Machine.execMdioDone data s
  | .pmcClear m v => Sys2Proof.Machine.execPmcClear m v s
  | .pmcFreeze m v => Sys2Proof.Machine.execPmcFreeze m v s
  | .tallyDumpPeriodic => Sys2Proof.Machine.execTallyDumpPeriodic s
  | .tallyDumpNow m v => Sys2Proof.Machine.execTallyDumpNow m v s
  | .prbsCheckerLock l => Sys2Proof.Machine.execPrbsCheckerLock l s
  | .prbsCheckerUnlock n bits => Sys2Proof.Machine.execPrbsCheckerUnlock n bits s
  | .tiuMultiplierLossOfLock => Sys2Proof.Machine.execTiuMultiplierLossOfLock s
  | .railBelowHysteresis rail => Sys2Proof.Machine.execRailBelowHysteresis rail s
  | .waitBitMatch => Sys2Proof.Machine.execWaitBitMatch s
  | .fmBlockResetDone => Sys2Proof.Machine.execFmBlockResetDone s
  | .pcieConfigurationRequest q => Sys2Proof.Machine.execPcieConfigurationRequest q s

end Sys2Proof.Machine
end

