-- ==== Sys2Proof/Machine/Step.lean ====
section
/-!
DEFINITION. One step: the command at the front of the queue, or, where none waits, one tick of CLK_TIME.
-/

namespace Sys2Proof.Machine

open Sys2Proof

/-- No command waits: 4 ns pass (DESIGN CHOICE, log entry 1). -/
def idle (s : State) : Host.Outcome State Fault Refusal := run tick s

/-- The command at the front of the queue acts on the state with the rest of the queue; on an empty queue time passes. -/
def step (s : State) : Host.Outcome State Fault Refusal :=
  match s.pending with
  | [] => idle s
  | c :: rest => exec c { s with pending := rest }

/-- The state with the command a word spells put at the front of its queue; no word spells one. -/
def State.withFetchWord (s : State) (nbits w : Nat) : State :=
  match Sys2Proof.decodeTableWord nbits w with
  | none => s
  | some c => { s with pending := c :: s.pending }

end Sys2Proof.Machine
end

