-- ==== Sys2Proof/Laws/Store.lean ====
section
/-!
SUPPORT. Laws of the sparse maps: what is read after a write, and that the canonical form is kept.
-/

namespace Sys2Proof.Machine

variable {α : Type}

/-! ### Reading after a change -/

theorem smGet_erase_same (d : α) (m : SMap α) (k : Nat) : smGet d (smErase m k) k = d := by
  induction m with
  | nil => rfl
  | cons e t ih =>
    obtain ⟨k', v⟩ := e
    by_cases h : k' = k <;> simp [smErase, smGet, h, ih]

theorem smGet_erase_other (d : α) (m : SMap α) {k j : Nat} (h : j ≠ k) : smGet d (smErase m k) j = smGet d m j := by
  induction m with
  | nil => rfl
  | cons e t ih =>
    obtain ⟨k', v⟩ := e
    by_cases h' : k' = k
    · simp [smErase, smGet, h', ih, h.symm]
    · simp [smErase, smGet, h', ih]

theorem smGet_insert_other (d : α) (m : SMap α) {k j : Nat} (v : α) (h : j ≠ k) :
    smGet d (smInsert m k v) j = smGet d m j := by
  induction m with
  | nil => simp [smInsert, smGet, h.symm]
  | cons e t ih =>
    obtain ⟨k', v'⟩ := e
    by_cases h' : k < k' <;> simp [smInsert, smGet, h', ih, h.symm]

theorem smGet_insert_erase (d : α) (m : SMap α) (k : Nat) (v : α) : smGet d (smInsert (smErase m k) k v) k = v := by
  induction m with
  | nil => simp [smErase, smInsert, smGet]
  | cons e t ih =>
    obtain ⟨k', v'⟩ := e
    by_cases h : k' = k
    · simp [smErase, h, ih]
    · by_cases h' : k < k' <;> simp [smErase, smInsert, smGet, h, h', ih]

/-- A key reads what was written to it. -/
@[simp] theorem smGet_set_same [DecidableEq α] (d : α) (m : SMap α) (k : Nat) (v : α) :
    smGet d (smSet d m k v) k = v := by
  unfold smSet
  split
  · rename_i h; rw [smGet_erase_same, h]
  · exact smGet_insert_erase d m k v

/-- Every other key reads as before. -/
theorem smGet_set_other [DecidableEq α] (d d' : α) (m : SMap α) {k j : Nat} (v : α) (h : j ≠ k) :
    smGet d (smSet d' m k v) j = smGet d m j := by
  unfold smSet
  split
  · exact smGet_erase_other d m h
  · rw [smGet_insert_other d _ v h, smGet_erase_other d m h]

/-! ### The canonical form -/

/-- Every key lies above the bound, where there is one. -/
def smAbove (b : Option Nat) (m : SMap α) : Prop := ∀ e ∈ m, ∀ x, b = some x → x < e.1

theorem smSorted_cons {b : Option Nat} {e : Nat × α} {t : SMap α} :
    smSorted b (e :: t) = true ↔ (∀ x, b = some x → x < e.1) ∧ smSorted (some e.1) t = true := by
  obtain ⟨k, v⟩ := e
  cases b <;> simp [smSorted]

theorem smSorted_weaken {b : Option Nat} {k : Nat} {t : SMap α} (h : smSorted (some k) t = true)
    (hb : ∀ x, b = some x → x ≤ k) : smSorted b t = true := by
  cases t with
  | nil => cases b <;> rfl
  | cons e t =>
    rw [smSorted_cons] at h ⊢
    exact ⟨fun x hx => Nat.lt_of_le_of_lt (hb x hx) (h.1 k rfl), h.2⟩

theorem smSorted_erase {b : Option Nat} {m : SMap α} (k : Nat) (h : smSorted b m = true) :
    smSorted b (smErase m k) = true := by
  induction m generalizing b with
  | nil => cases b <;> rfl
  | cons e t ih =>
    obtain ⟨k', v⟩ := e
    rw [smSorted_cons] at h
    by_cases h' : k' = k
    · simp only [smErase, h', if_true]
      exact smSorted_weaken (k := k') (ih h.2) (fun x hx => Nat.le_of_lt (h.1 x hx))
    · simp only [smErase, h', if_false]
      exact smSorted_cons.2 ⟨h.1, ih h.2⟩

theorem smSorted_insert {b : Option Nat} {m : SMap α} (k : Nat) (v : α) (h : smSorted b m = true)
    (hb : ∀ x, b = some x → x < k) (hk : ∀ e ∈ m, e.1 ≠ k) : smSorted b (smInsert m k v) = true := by
  induction m generalizing b with
  | nil => cases b <;> simp_all [smInsert, smSorted]
  | cons e t ih =>
    obtain ⟨k', v'⟩ := e
    rw [smSorted_cons] at h
    by_cases h' : k < k'
    · simp only [smInsert, h', if_true]
      exact smSorted_cons.2 ⟨hb, smSorted_cons.2 ⟨fun x hx => (Option.some.inj hx) ▸ h', h.2⟩⟩
    · simp only [smInsert, h', if_false]
      have hne : k' ≠ k := hk (k', v') (by simp)
      refine smSorted_cons.2 ⟨h.1, ih h.2 (fun x hx => ?_) (fun e he => hk e (by simp [he]))⟩
      have : k' = x := Option.some.inj hx
      omega

theorem smErase_mem {m : SMap α} {k : Nat} {e : Nat × α} (h : e ∈ smErase m k) : e ∈ m ∧ e.1 ≠ k := by
  induction m with
  | nil => simp [smErase] at h
  | cons e' t ih =>
    obtain ⟨k', v⟩ := e'
    by_cases h' : k' = k
    · simp only [smErase, h', if_true] at h
      exact ⟨by simp [(ih h).1], (ih h).2⟩
    · simp only [smErase, h', if_false, List.mem_cons] at h
      rcases h with rfl | h
      · exact ⟨by simp, h'⟩
      · exact ⟨by simp [(ih h).1], (ih h).2⟩

theorem smInsert_mem {m : SMap α} {k : Nat} {v : α} {e : Nat × α} (h : e ∈ smInsert m k v) : e = (k, v) ∨ e ∈ m := by
  induction m with
  | nil => simpa [smInsert] using h
  | cons e' t ih =>
    obtain ⟨k', v'⟩ := e'
    by_cases h' : k < k'
    · simpa [smInsert, h'] using h
    · simp only [smInsert, h', if_false, List.mem_cons] at h
      rcases h with rfl | h
      · simp
      · rcases ih h with h | h <;> simp [h]

/-- A write keeps the canonical form, where every unlisted key reads the same. -/
theorem smWf_set [DecidableEq α] (d : α) (m : SMap α) (k : Nat) (v : α) (h : smWf (fun _ => d) m = true) :
    smWf (fun _ => d) (smSet d m k v) = true := by
  simp only [smWf, Bool.and_eq_true, List.all_eq_true, decide_eq_true_eq] at h ⊢
  unfold smSet
  split
  · exact ⟨smSorted_erase k h.1, fun e he => h.2 e (smErase_mem he).1⟩
  · rename_i hv
    refine ⟨smSorted_insert k v (smSorted_erase k h.1) (by simp) (fun e he => (smErase_mem he).2), fun e he => ?_⟩
    rcases smInsert_mem he with rfl | he
    · exact hv
    · exact h.2 e (smErase_mem he).1

end Sys2Proof.Machine
end

