-- ==== Sys2Proof/Laws/State.lean ====
section
/-!
SUPPORT. What each elementary update of the state changes: one lemma per field per update, so that no proof unfolds a record update.
-/

namespace Sys2Proof.Machine

variable (s : State)

/-! ### setWord -/

@[simp] theorem State.setWord_mem (r : Reg) (w : Word) : (s.setWord r w).mem = s.mem := rfl
@[simp] theorem State.setWord_fram (r : Reg) (w : Word) : (s.setWord r w).fram = s.fram := rfl
@[simp] theorem State.setWord_otp (r : Reg) (w : Word) : (s.setWord r w).otp = s.otp := rfl
@[simp] theorem State.setWord_inReset (r : Reg) (w : Word) : (s.setWord r w).inReset = s.inReset := rfl
@[simp] theorem State.setWord_now (r : Reg) (w : Word) : (s.setWord r w).now = s.now := rfl
@[simp] theorem State.setWord_clk (r : Reg) (w : Word) : (s.setWord r w).clk = s.clk := rfl
@[simp] theorem State.setWord_shadows (r : Reg) (w : Word) : (s.setWord r w).shadows = s.shadows := rfl
@[simp] theorem State.setWord_stages (r : Reg) (w : Word) : (s.setWord r w).stages = s.stages := rfl
@[simp] theorem State.setWord_syn (r : Reg) (w : Word) : (s.setWord r w).syn = s.syn := rfl
@[simp] theorem State.setWord_outs (r : Reg) (w : Word) : (s.setWord r w).outs = s.outs := rfl
@[simp] theorem State.setWord_pps (r : Reg) (w : Word) : (s.setWord r w).pps = s.pps := rfl
@[simp] theorem State.setWord_refs (r : Reg) (w : Word) : (s.setWord r w).refs = s.refs := rfl
@[simp] theorem State.setWord_sel (r : Reg) (w : Word) : (s.setWord r w).sel = s.sel := rfl
@[simp] theorem State.setWord_ens (r : Reg) (w : Word) : (s.setWord r w).ens = s.ens := rfl
@[simp] theorem State.setWord_tb (r : Reg) (w : Word) : (s.setWord r w).tb = s.tb := rfl
@[simp] theorem State.setWord_lanes (r : Reg) (w : Word) : (s.setWord r w).lanes = s.lanes := rfl
@[simp] theorem State.setWord_plls (r : Reg) (w : Word) : (s.setWord r w).plls = s.plls := rfl
@[simp] theorem State.setWord_rcsHeld (r : Reg) (w : Word) : (s.setWord r w).rcsHeld = s.rcsHeld := rfl
@[simp] theorem State.setWord_ports (r : Reg) (w : Word) : (s.setWord r w).ports = s.ports := rfl
@[simp] theorem State.setWord_pha (r : Reg) (w : Word) : (s.setWord r w).pha = s.pha := rfl
@[simp] theorem State.setWord_survey (r : Reg) (w : Word) : (s.setWord r w).survey = s.survey := rfl
@[simp] theorem State.setWord_fm (r : Reg) (w : Word) : (s.setWord r w).fm = s.fm := rfl
@[simp] theorem State.setWord_doms (r : Reg) (w : Word) : (s.setWord r w).doms = s.doms := rfl
@[simp] theorem State.setWord_sess (r : Reg) (w : Word) : (s.setWord r w).sess = s.sess := rfl
@[simp] theorem State.setWord_fwd (r : Reg) (w : Word) : (s.setWord r w).fwd = s.fwd := rfl
@[simp] theorem State.setWord_meters (r : Reg) (w : Word) : (s.setWord r w).meters = s.meters := rfl
@[simp] theorem State.setWord_frames (r : Reg) (w : Word) : (s.setWord r w).frames = s.frames := rfl
@[simp] theorem State.setWord_copies (r : Reg) (w : Word) : (s.setWord r w).copies = s.copies := rfl
@[simp] theorem State.setWord_queues (r : Reg) (w : Word) : (s.setWord r w).queues = s.queues := rfl
@[simp] theorem State.setWord_qm (r : Reg) (w : Word) : (s.setWord r w).qm = s.qm := rfl
@[simp] theorem State.setWord_bufs (r : Reg) (w : Word) : (s.setWord r w).bufs = s.bufs := rfl
@[simp] theorem State.setWord_epoch (r : Reg) (w : Word) : (s.setWord r w).epoch = s.epoch := rfl
@[simp] theorem State.setWord_tiu (r : Reg) (w : Word) : (s.setWord r w).tiu = s.tiu := rfl
@[simp] theorem State.setWord_cal (r : Reg) (w : Word) : (s.setWord r w).cal = s.cal := rfl
@[simp] theorem State.setWord_ecc (r : Reg) (w : Word) : (s.setWord r w).ecc = s.ecc := rfl
@[simp] theorem State.setWord_pair (r : Reg) (w : Word) : (s.setWord r w).pair = s.pair := rfl
@[simp] theorem State.setWord_pwr (r : Reg) (w : Word) : (s.setWord r w).pwr = s.pwr := rfl
@[simp] theorem State.setWord_ldr (r : Reg) (w : Word) : (s.setWord r w).ldr = s.ldr := rfl
@[simp] theorem State.setWord_mgt (r : Reg) (w : Word) : (s.setWord r w).mgt = s.mgt := rfl
@[simp] theorem State.setWord_escAt (r : Reg) (w : Word) : (s.setWord r w).escAt = s.escAt := rfl
@[simp] theorem State.setWord_escDue (r : Reg) (w : Word) : (s.setWord r w).escDue = s.escDue := rfl
@[simp] theorem State.setWord_freeNo (r : Reg) (w : Word) : (s.setWord r w).freeNo = s.freeNo := rfl
@[simp] theorem State.setWord_out (r : Reg) (w : Word) : (s.setWord r w).out = s.out := rfl
@[simp] theorem State.setWord_pending (r : Reg) (w : Word) : (s.setWord r w).pending = s.pending := rfl

/-! ### put -/

@[simp] theorem State.put_mem (f : Fld) (v : Nat) : (s.put f v).mem = s.mem := rfl
@[simp] theorem State.put_fram (f : Fld) (v : Nat) : (s.put f v).fram = s.fram := rfl
@[simp] theorem State.put_otp (f : Fld) (v : Nat) : (s.put f v).otp = s.otp := rfl
@[simp] theorem State.put_inReset (f : Fld) (v : Nat) : (s.put f v).inReset = s.inReset := rfl
@[simp] theorem State.put_now (f : Fld) (v : Nat) : (s.put f v).now = s.now := rfl
@[simp] theorem State.put_clk (f : Fld) (v : Nat) : (s.put f v).clk = s.clk := rfl
@[simp] theorem State.put_shadows (f : Fld) (v : Nat) : (s.put f v).shadows = s.shadows := rfl
@[simp] theorem State.put_stages (f : Fld) (v : Nat) : (s.put f v).stages = s.stages := rfl
@[simp] theorem State.put_syn (f : Fld) (v : Nat) : (s.put f v).syn = s.syn := rfl
@[simp] theorem State.put_outs (f : Fld) (v : Nat) : (s.put f v).outs = s.outs := rfl
@[simp] theorem State.put_pps (f : Fld) (v : Nat) : (s.put f v).pps = s.pps := rfl
@[simp] theorem State.put_refs (f : Fld) (v : Nat) : (s.put f v).refs = s.refs := rfl
@[simp] theorem State.put_sel (f : Fld) (v : Nat) : (s.put f v).sel = s.sel := rfl
@[simp] theorem State.put_ens (f : Fld) (v : Nat) : (s.put f v).ens = s.ens := rfl
@[simp] theorem State.put_tb (f : Fld) (v : Nat) : (s.put f v).tb = s.tb := rfl
@[simp] theorem State.put_lanes (f : Fld) (v : Nat) : (s.put f v).lanes = s.lanes := rfl
@[simp] theorem State.put_plls (f : Fld) (v : Nat) : (s.put f v).plls = s.plls := rfl
@[simp] theorem State.put_rcsHeld (f : Fld) (v : Nat) : (s.put f v).rcsHeld = s.rcsHeld := rfl
@[simp] theorem State.put_ports (f : Fld) (v : Nat) : (s.put f v).ports = s.ports := rfl
@[simp] theorem State.put_pha (f : Fld) (v : Nat) : (s.put f v).pha = s.pha := rfl
@[simp] theorem State.put_survey (f : Fld) (v : Nat) : (s.put f v).survey = s.survey := rfl
@[simp] theorem State.put_fm (f : Fld) (v : Nat) : (s.put f v).fm = s.fm := rfl
@[simp] theorem State.put_doms (f : Fld) (v : Nat) : (s.put f v).doms = s.doms := rfl
@[simp] theorem State.put_sess (f : Fld) (v : Nat) : (s.put f v).sess = s.sess := rfl
@[simp] theorem State.put_fwd (f : Fld) (v : Nat) : (s.put f v).fwd = s.fwd := rfl
@[simp] theorem State.put_meters (f : Fld) (v : Nat) : (s.put f v).meters = s.meters := rfl
@[simp] theorem State.put_frames (f : Fld) (v : Nat) : (s.put f v).frames = s.frames := rfl
@[simp] theorem State.put_copies (f : Fld) (v : Nat) : (s.put f v).copies = s.copies := rfl
@[simp] theorem State.put_queues (f : Fld) (v : Nat) : (s.put f v).queues = s.queues := rfl
@[simp] theorem State.put_qm (f : Fld) (v : Nat) : (s.put f v).qm = s.qm := rfl
@[simp] theorem State.put_bufs (f : Fld) (v : Nat) : (s.put f v).bufs = s.bufs := rfl
@[simp] theorem State.put_epoch (f : Fld) (v : Nat) : (s.put f v).epoch = s.epoch := rfl
@[simp] theorem State.put_tiu (f : Fld) (v : Nat) : (s.put f v).tiu = s.tiu := rfl
@[simp] theorem State.put_cal (f : Fld) (v : Nat) : (s.put f v).cal = s.cal := rfl
@[simp] theorem State.put_ecc (f : Fld) (v : Nat) : (s.put f v).ecc = s.ecc := rfl
@[simp] theorem State.put_pair (f : Fld) (v : Nat) : (s.put f v).pair = s.pair := rfl
@[simp] theorem State.put_pwr (f : Fld) (v : Nat) : (s.put f v).pwr = s.pwr := rfl
@[simp] theorem State.put_ldr (f : Fld) (v : Nat) : (s.put f v).ldr = s.ldr := rfl
@[simp] theorem State.put_mgt (f : Fld) (v : Nat) : (s.put f v).mgt = s.mgt := rfl
@[simp] theorem State.put_escAt (f : Fld) (v : Nat) : (s.put f v).escAt = s.escAt := rfl
@[simp] theorem State.put_escDue (f : Fld) (v : Nat) : (s.put f v).escDue = s.escDue := rfl
@[simp] theorem State.put_freeNo (f : Fld) (v : Nat) : (s.put f v).freeNo = s.freeNo := rfl
@[simp] theorem State.put_out (f : Fld) (v : Nat) : (s.put f v).out = s.out := rfl
@[simp] theorem State.put_pending (f : Fld) (v : Nat) : (s.put f v).pending = s.pending := rfl

/-! ### send -/

@[simp] theorem State.send_regs (o : Out) : (s.send o).regs = s.regs := rfl
@[simp] theorem State.send_mem (o : Out) : (s.send o).mem = s.mem := rfl
@[simp] theorem State.send_fram (o : Out) : (s.send o).fram = s.fram := rfl
@[simp] theorem State.send_otp (o : Out) : (s.send o).otp = s.otp := rfl
@[simp] theorem State.send_inReset (o : Out) : (s.send o).inReset = s.inReset := rfl
@[simp] theorem State.send_now (o : Out) : (s.send o).now = s.now := rfl
@[simp] theorem State.send_clk (o : Out) : (s.send o).clk = s.clk := rfl
@[simp] theorem State.send_shadows (o : Out) : (s.send o).shadows = s.shadows := rfl
@[simp] theorem State.send_stages (o : Out) : (s.send o).stages = s.stages := rfl
@[simp] theorem State.send_syn (o : Out) : (s.send o).syn = s.syn := rfl
@[simp] theorem State.send_outs (o : Out) : (s.send o).outs = s.outs := rfl
@[simp] theorem State.send_pps (o : Out) : (s.send o).pps = s.pps := rfl
@[simp] theorem State.send_refs (o : Out) : (s.send o).refs = s.refs := rfl
@[simp] theorem State.send_sel (o : Out) : (s.send o).sel = s.sel := rfl
@[simp] theorem State.send_ens (o : Out) : (s.send o).ens = s.ens := rfl
@[simp] theorem State.send_tb (o : Out) : (s.send o).tb = s.tb := rfl
@[simp] theorem State.send_lanes (o : Out) : (s.send o).lanes = s.lanes := rfl
@[simp] theorem State.send_plls (o : Out) : (s.send o).plls = s.plls := rfl
@[simp] theorem State.send_rcsHeld (o : Out) : (s.send o).rcsHeld = s.rcsHeld := rfl
@[simp] theorem State.send_ports (o : Out) : (s.send o).ports = s.ports := rfl
@[simp] theorem State.send_pha (o : Out) : (s.send o).pha = s.pha := rfl
@[simp] theorem State.send_survey (o : Out) : (s.send o).survey = s.survey := rfl
@[simp] theorem State.send_fm (o : Out) : (s.send o).fm = s.fm := rfl
@[simp] theorem State.send_doms (o : Out) : (s.send o).doms = s.doms := rfl
@[simp] theorem State.send_sess (o : Out) : (s.send o).sess = s.sess := rfl
@[simp] theorem State.send_fwd (o : Out) : (s.send o).fwd = s.fwd := rfl
@[simp] theorem State.send_meters (o : Out) : (s.send o).meters = s.meters := rfl
@[simp] theorem State.send_frames (o : Out) : (s.send o).frames = s.frames := rfl
@[simp] theorem State.send_copies (o : Out) : (s.send o).copies = s.copies := rfl
@[simp] theorem State.send_queues (o : Out) : (s.send o).queues = s.queues := rfl
@[simp] theorem State.send_qm (o : Out) : (s.send o).qm = s.qm := rfl
@[simp] theorem State.send_bufs (o : Out) : (s.send o).bufs = s.bufs := rfl
@[simp] theorem State.send_epoch (o : Out) : (s.send o).epoch = s.epoch := rfl
@[simp] theorem State.send_tiu (o : Out) : (s.send o).tiu = s.tiu := rfl
@[simp] theorem State.send_cal (o : Out) : (s.send o).cal = s.cal := rfl
@[simp] theorem State.send_ecc (o : Out) : (s.send o).ecc = s.ecc := rfl
@[simp] theorem State.send_pair (o : Out) : (s.send o).pair = s.pair := rfl
@[simp] theorem State.send_pwr (o : Out) : (s.send o).pwr = s.pwr := rfl
@[simp] theorem State.send_ldr (o : Out) : (s.send o).ldr = s.ldr := rfl
@[simp] theorem State.send_mgt (o : Out) : (s.send o).mgt = s.mgt := rfl
@[simp] theorem State.send_escAt (o : Out) : (s.send o).escAt = s.escAt := rfl
@[simp] theorem State.send_escDue (o : Out) : (s.send o).escDue = s.escDue := rfl
@[simp] theorem State.send_freeNo (o : Out) : (s.send o).freeNo = s.freeNo := rfl
@[simp] theorem State.send_pending (o : Out) : (s.send o).pending = s.pending := rfl
@[simp] theorem State.send_word (o : Out) (x : Reg) : (s.send o).word x = s.word x := rfl
@[simp] theorem State.send_get (o : Out) (x : Fld) : (s.send o).get x = s.get x := rfl
@[simp] theorem State.send_on (o : Out) (x : Fld) : (s.send o).on x = s.on x := rfl

/-! ### setRef -/

@[simp] theorem State.setRef_regs (n : Nat) (r : RefRec) : (s.setRef n r).regs = s.regs := rfl
@[simp] theorem State.setRef_mem (n : Nat) (r : RefRec) : (s.setRef n r).mem = s.mem := rfl
@[simp] theorem State.setRef_fram (n : Nat) (r : RefRec) : (s.setRef n r).fram = s.fram := rfl
@[simp] theorem State.setRef_otp (n : Nat) (r : RefRec) : (s.setRef n r).otp = s.otp := rfl
@[simp] theorem State.setRef_inReset (n : Nat) (r : RefRec) : (s.setRef n r).inReset = s.inReset := rfl
@[simp] theorem State.setRef_now (n : Nat) (r : RefRec) : (s.setRef n r).now = s.now := rfl
@[simp] theorem State.setRef_clk (n : Nat) (r : RefRec) : (s.setRef n r).clk = s.clk := rfl
@[simp] theorem State.setRef_shadows (n : Nat) (r : RefRec) : (s.setRef n r).shadows = s.shadows := rfl
@[simp] theorem State.setRef_stages (n : Nat) (r : RefRec) : (s.setRef n r).stages = s.stages := rfl
@[simp] theorem State.setRef_syn (n : Nat) (r : RefRec) : (s.setRef n r).syn = s.syn := rfl
@[simp] theorem State.setRef_outs (n : Nat) (r : RefRec) : (s.setRef n r).outs = s.outs := rfl
@[simp] theorem State.setRef_pps (n : Nat) (r : RefRec) : (s.setRef n r).pps = s.pps := rfl
@[simp] theorem State.setRef_sel (n : Nat) (r : RefRec) : (s.setRef n r).sel = s.sel := rfl
@[simp] theorem State.setRef_ens (n : Nat) (r : RefRec) : (s.setRef n r).ens = s.ens := rfl
@[simp] theorem State.setRef_tb (n : Nat) (r : RefRec) : (s.setRef n r).tb = s.tb := rfl
@[simp] theorem State.setRef_lanes (n : Nat) (r : RefRec) : (s.setRef n r).lanes = s.lanes := rfl
@[simp] theorem State.setRef_plls (n : Nat) (r : RefRec) : (s.setRef n r).plls = s.plls := rfl
@[simp] theorem State.setRef_rcsHeld (n : Nat) (r : RefRec) : (s.setRef n r).rcsHeld = s.rcsHeld := rfl
@[simp] theorem State.setRef_ports (n : Nat) (r : RefRec) : (s.setRef n r).ports = s.ports := rfl
@[simp] theorem State.setRef_pha (n : Nat) (r : RefRec) : (s.setRef n r).pha = s.pha := rfl
@[simp] theorem State.setRef_survey (n : Nat) (r : RefRec) : (s.setRef n r).survey = s.survey := rfl
@[simp] theorem State.setRef_fm (n : Nat) (r : RefRec) : (s.setRef n r).fm = s.fm := rfl
@[simp] theorem State.setRef_doms (n : Nat) (r : RefRec) : (s.setRef n r).doms = s.doms := rfl
@[simp] theorem State.setRef_sess (n : Nat) (r : RefRec) : (s.setRef n r).sess = s.sess := rfl
@[simp] theorem State.setRef_fwd (n : Nat) (r : RefRec) : (s.setRef n r).fwd = s.fwd := rfl
@[simp] theorem State.setRef_meters (n : Nat) (r : RefRec) : (s.setRef n r).meters = s.meters := rfl
@[simp] theorem State.setRef_frames (n : Nat) (r : RefRec) : (s.setRef n r).frames = s.frames := rfl
@[simp] theorem State.setRef_copies (n : Nat) (r : RefRec) : (s.setRef n r).copies = s.copies := rfl
@[simp] theorem State.setRef_queues (n : Nat) (r : RefRec) : (s.setRef n r).queues = s.queues := rfl
@[simp] theorem State.setRef_qm (n : Nat) (r : RefRec) : (s.setRef n r).qm = s.qm := rfl
@[simp] theorem State.setRef_bufs (n : Nat) (r : RefRec) : (s.setRef n r).bufs = s.bufs := rfl
@[simp] theorem State.setRef_epoch (n : Nat) (r : RefRec) : (s.setRef n r).epoch = s.epoch := rfl
@[simp] theorem State.setRef_tiu (n : Nat) (r : RefRec) : (s.setRef n r).tiu = s.tiu := rfl
@[simp] theorem State.setRef_cal (n : Nat) (r : RefRec) : (s.setRef n r).cal = s.cal := rfl
@[simp] theorem State.setRef_ecc (n : Nat) (r : RefRec) : (s.setRef n r).ecc = s.ecc := rfl
@[simp] theorem State.setRef_pair (n : Nat) (r : RefRec) : (s.setRef n r).pair = s.pair := rfl
@[simp] theorem State.setRef_pwr (n : Nat) (r : RefRec) : (s.setRef n r).pwr = s.pwr := rfl
@[simp] theorem State.setRef_ldr (n : Nat) (r : RefRec) : (s.setRef n r).ldr = s.ldr := rfl
@[simp] theorem State.setRef_mgt (n : Nat) (r : RefRec) : (s.setRef n r).mgt = s.mgt := rfl
@[simp] theorem State.setRef_escAt (n : Nat) (r : RefRec) : (s.setRef n r).escAt = s.escAt := rfl
@[simp] theorem State.setRef_escDue (n : Nat) (r : RefRec) : (s.setRef n r).escDue = s.escDue := rfl
@[simp] theorem State.setRef_freeNo (n : Nat) (r : RefRec) : (s.setRef n r).freeNo = s.freeNo := rfl
@[simp] theorem State.setRef_out (n : Nat) (r : RefRec) : (s.setRef n r).out = s.out := rfl
@[simp] theorem State.setRef_pending (n : Nat) (r : RefRec) : (s.setRef n r).pending = s.pending := rfl
@[simp] theorem State.setRef_word (n : Nat) (r : RefRec) (x : Reg) : (s.setRef n r).word x = s.word x := rfl
@[simp] theorem State.setRef_get (n : Nat) (r : RefRec) (x : Fld) : (s.setRef n r).get x = s.get x := rfl
@[simp] theorem State.setRef_on (n : Nat) (r : RefRec) (x : Fld) : (s.setRef n r).on x = s.on x := rfl
@[simp] theorem State.setRef_refRec (n : Nat) (r : RefRec) : (s.setRef n r).refRec n = r := smGet_set_same _ _ _ _
theorem State.setRef_refRec_other (n : Nat) (r : RefRec) {k : Nat} (h : k ≠ n) : (s.setRef n r).refRec k = s.refRec k := smGet_set_other _ _ _ _ h

/-! ### setEns -/

@[simp] theorem State.setEns_regs (n : Nat) (r : EnsRec) : (s.setEns n r).regs = s.regs := rfl
@[simp] theorem State.setEns_mem (n : Nat) (r : EnsRec) : (s.setEns n r).mem = s.mem := rfl
@[simp] theorem State.setEns_fram (n : Nat) (r : EnsRec) : (s.setEns n r).fram = s.fram := rfl
@[simp] theorem State.setEns_otp (n : Nat) (r : EnsRec) : (s.setEns n r).otp = s.otp := rfl
@[simp] theorem State.setEns_inReset (n : Nat) (r : EnsRec) : (s.setEns n r).inReset = s.inReset := rfl
@[simp] theorem State.setEns_now (n : Nat) (r : EnsRec) : (s.setEns n r).now = s.now := rfl
@[simp] theorem State.setEns_clk (n : Nat) (r : EnsRec) : (s.setEns n r).clk = s.clk := rfl
@[simp] theorem State.setEns_shadows (n : Nat) (r : EnsRec) : (s.setEns n r).shadows = s.shadows := rfl
@[simp] theorem State.setEns_stages (n : Nat) (r : EnsRec) : (s.setEns n r).stages = s.stages := rfl
@[simp] theorem State.setEns_syn (n : Nat) (r : EnsRec) : (s.setEns n r).syn = s.syn := rfl
@[simp] theorem State.setEns_outs (n : Nat) (r : EnsRec) : (s.setEns n r).outs = s.outs := rfl
@[simp] theorem State.setEns_pps (n : Nat) (r : EnsRec) : (s.setEns n r).pps = s.pps := rfl
@[simp] theorem State.setEns_refs (n : Nat) (r : EnsRec) : (s.setEns n r).refs = s.refs := rfl
@[simp] theorem State.setEns_sel (n : Nat) (r : EnsRec) : (s.setEns n r).sel = s.sel := rfl
@[simp] theorem State.setEns_tb (n : Nat) (r : EnsRec) : (s.setEns n r).tb = s.tb := rfl
@[simp] theorem State.setEns_lanes (n : Nat) (r : EnsRec) : (s.setEns n r).lanes = s.lanes := rfl
@[simp] theorem State.setEns_plls (n : Nat) (r : EnsRec) : (s.setEns n r).plls = s.plls := rfl
@[simp] theorem State.setEns_rcsHeld (n : Nat) (r : EnsRec) : (s.setEns n r).rcsHeld = s.rcsHeld := rfl
@[simp] theorem State.setEns_ports (n : Nat) (r : EnsRec) : (s.setEns n r).ports = s.ports := rfl
@[simp] theorem State.setEns_pha (n : Nat) (r : EnsRec) : (s.setEns n r).pha = s.pha := rfl
@[simp] theorem State.setEns_survey (n : Nat) (r : EnsRec) : (s.setEns n r).survey = s.survey := rfl
@[simp] theorem State.setEns_fm (n : Nat) (r : EnsRec) : (s.setEns n r).fm = s.fm := rfl
@[simp] theorem State.setEns_doms (n : Nat) (r : EnsRec) : (s.setEns n r).doms = s.doms := rfl
@[simp] theorem State.setEns_sess (n : Nat) (r : EnsRec) : (s.setEns n r).sess = s.sess := rfl
@[simp] theorem State.setEns_fwd (n : Nat) (r : EnsRec) : (s.setEns n r).fwd = s.fwd := rfl
@[simp] theorem State.setEns_meters (n : Nat) (r : EnsRec) : (s.setEns n r).meters = s.meters := rfl
@[simp] theorem State.setEns_frames (n : Nat) (r : EnsRec) : (s.setEns n r).frames = s.frames := rfl
@[simp] theorem State.setEns_copies (n : Nat) (r : EnsRec) : (s.setEns n r).copies = s.copies := rfl
@[simp] theorem State.setEns_queues (n : Nat) (r : EnsRec) : (s.setEns n r).queues = s.queues := rfl
@[simp] theorem State.setEns_qm (n : Nat) (r : EnsRec) : (s.setEns n r).qm = s.qm := rfl
@[simp] theorem State.setEns_bufs (n : Nat) (r : EnsRec) : (s.setEns n r).bufs = s.bufs := rfl
@[simp] theorem State.setEns_epoch (n : Nat) (r : EnsRec) : (s.setEns n r).epoch = s.epoch := rfl
@[simp] theorem State.setEns_tiu (n : Nat) (r : EnsRec) : (s.setEns n r).tiu = s.tiu := rfl
@[simp] theorem State.setEns_cal (n : Nat) (r : EnsRec) : (s.setEns n r).cal = s.cal := rfl
@[simp] theorem State.setEns_ecc (n : Nat) (r : EnsRec) : (s.setEns n r).ecc = s.ecc := rfl
@[simp] theorem State.setEns_pair (n : Nat) (r : EnsRec) : (s.setEns n r).pair = s.pair := rfl
@[simp] theorem State.setEns_pwr (n : Nat) (r : EnsRec) : (s.setEns n r).pwr = s.pwr := rfl
@[simp] theorem State.setEns_ldr (n : Nat) (r : EnsRec) : (s.setEns n r).ldr = s.ldr := rfl
@[simp] theorem State.setEns_mgt (n : Nat) (r : EnsRec) : (s.setEns n r).mgt = s.mgt := rfl
@[simp] theorem State.setEns_escAt (n : Nat) (r : EnsRec) : (s.setEns n r).escAt = s.escAt := rfl
@[simp] theorem State.setEns_escDue (n : Nat) (r : EnsRec) : (s.setEns n r).escDue = s.escDue := rfl
@[simp] theorem State.setEns_freeNo (n : Nat) (r : EnsRec) : (s.setEns n r).freeNo = s.freeNo := rfl
@[simp] theorem State.setEns_out (n : Nat) (r : EnsRec) : (s.setEns n r).out = s.out := rfl
@[simp] theorem State.setEns_pending (n : Nat) (r : EnsRec) : (s.setEns n r).pending = s.pending := rfl
@[simp] theorem State.setEns_word (n : Nat) (r : EnsRec) (x : Reg) : (s.setEns n r).word x = s.word x := rfl
@[simp] theorem State.setEns_get (n : Nat) (r : EnsRec) (x : Fld) : (s.setEns n r).get x = s.get x := rfl
@[simp] theorem State.setEns_on (n : Nat) (r : EnsRec) (x : Fld) : (s.setEns n r).on x = s.on x := rfl
@[simp] theorem State.setEns_ensRec (n : Nat) (r : EnsRec) : (s.setEns n r).ensRec n = r := smGet_set_same _ _ _ _
theorem State.setEns_ensRec_other (n : Nat) (r : EnsRec) {k : Nat} (h : k ≠ n) : (s.setEns n r).ensRec k = s.ensRec k := smGet_set_other _ _ _ _ h

/-! ### setLane -/

@[simp] theorem State.setLane_regs (n : Nat) (r : LaneRec) : (s.setLane n r).regs = s.regs := rfl
@[simp] theorem State.setLane_mem (n : Nat) (r : LaneRec) : (s.setLane n r).mem = s.mem := rfl
@[simp] theorem State.setLane_fram (n : Nat) (r : LaneRec) : (s.setLane n r).fram = s.fram := rfl
@[simp] theorem State.setLane_otp (n : Nat) (r : LaneRec) : (s.setLane n r).otp = s.otp := rfl
@[simp] theorem State.setLane_inReset (n : Nat) (r : LaneRec) : (s.setLane n r).inReset = s.inReset := rfl
@[simp] theorem State.setLane_now (n : Nat) (r : LaneRec) : (s.setLane n r).now = s.now := rfl
@[simp] theorem State.setLane_clk (n : Nat) (r : LaneRec) : (s.setLane n r).clk = s.clk := rfl
@[simp] theorem State.setLane_shadows (n : Nat) (r : LaneRec) : (s.setLane n r).shadows = s.shadows := rfl
@[simp] theorem State.setLane_stages (n : Nat) (r : LaneRec) : (s.setLane n r).stages = s.stages := rfl
@[simp] theorem State.setLane_syn (n : Nat) (r : LaneRec) : (s.setLane n r).syn = s.syn := rfl
@[simp] theorem State.setLane_outs (n : Nat) (r : LaneRec) : (s.setLane n r).outs = s.outs := rfl
@[simp] theorem State.setLane_pps (n : Nat) (r : LaneRec) : (s.setLane n r).pps = s.pps := rfl
@[simp] theorem State.setLane_refs (n : Nat) (r : LaneRec) : (s.setLane n r).refs = s.refs := rfl
@[simp] theorem State.setLane_sel (n : Nat) (r : LaneRec) : (s.setLane n r).sel = s.sel := rfl
@[simp] theorem State.setLane_ens (n : Nat) (r : LaneRec) : (s.setLane n r).ens = s.ens := rfl
@[simp] theorem State.setLane_tb (n : Nat) (r : LaneRec) : (s.setLane n r).tb = s.tb := rfl
@[simp] theorem State.setLane_plls (n : Nat) (r : LaneRec) : (s.setLane n r).plls = s.plls := rfl
@[simp] theorem State.setLane_rcsHeld (n : Nat) (r : LaneRec) : (s.setLane n r).rcsHeld = s.rcsHeld := rfl
@[simp] theorem State.setLane_ports (n : Nat) (r : LaneRec) : (s.setLane n r).ports = s.ports := rfl
@[simp] theorem State.setLane_pha (n : Nat) (r : LaneRec) : (s.setLane n r).pha = s.pha := rfl
@[simp] theorem State.setLane_survey (n : Nat) (r : LaneRec) : (s.setLane n r).survey = s.survey := rfl
@[simp] theorem State.setLane_fm (n : Nat) (r : LaneRec) : (s.setLane n r).fm = s.fm := rfl
@[simp] theorem State.setLane_doms (n : Nat) (r : LaneRec) : (s.setLane n r).doms = s.doms := rfl
@[simp] theorem State.setLane_sess (n : Nat) (r : LaneRec) : (s.setLane n r).sess = s.sess := rfl
@[simp] theorem State.setLane_fwd (n : Nat) (r : LaneRec) : (s.setLane n r).fwd = s.fwd := rfl
@[simp] theorem State.setLane_meters (n : Nat) (r : LaneRec) : (s.setLane n r).meters = s.meters := rfl
@[simp] theorem State.setLane_frames (n : Nat) (r : LaneRec) : (s.setLane n r).frames = s.frames := rfl
@[simp] theorem State.setLane_copies (n : Nat) (r : LaneRec) : (s.setLane n r).copies = s.copies := rfl
@[simp] theorem State.setLane_queues (n : Nat) (r : LaneRec) : (s.setLane n r).queues = s.queues := rfl
@[simp] theorem State.setLane_qm (n : Nat) (r : LaneRec) : (s.setLane n r).qm = s.qm := rfl
@[simp] theorem State.setLane_bufs (n : Nat) (r : LaneRec) : (s.setLane n r).bufs = s.bufs := rfl
@[simp] theorem State.setLane_epoch (n : Nat) (r : LaneRec) : (s.setLane n r).epoch = s.epoch := rfl
@[simp] theorem State.setLane_tiu (n : Nat) (r : LaneRec) : (s.setLane n r).tiu = s.tiu := rfl
@[simp] theorem State.setLane_cal (n : Nat) (r : LaneRec) : (s.setLane n r).cal = s.cal := rfl
@[simp] theorem State.setLane_ecc (n : Nat) (r : LaneRec) : (s.setLane n r).ecc = s.ecc := rfl
@[simp] theorem State.setLane_pair (n : Nat) (r : LaneRec) : (s.setLane n r).pair = s.pair := rfl
@[simp] theorem State.setLane_pwr (n : Nat) (r : LaneRec) : (s.setLane n r).pwr = s.pwr := rfl
@[simp] theorem State.setLane_ldr (n : Nat) (r : LaneRec) : (s.setLane n r).ldr = s.ldr := rfl
@[simp] theorem State.setLane_mgt (n : Nat) (r : LaneRec) : (s.setLane n r).mgt = s.mgt := rfl
@[simp] theorem State.setLane_escAt (n : Nat) (r : LaneRec) : (s.setLane n r).escAt = s.escAt := rfl
@[simp] theorem State.setLane_escDue (n : Nat) (r : LaneRec) : (s.setLane n r).escDue = s.escDue := rfl
@[simp] theorem State.setLane_freeNo (n : Nat) (r : LaneRec) : (s.setLane n r).freeNo = s.freeNo := rfl
@[simp] theorem State.setLane_out (n : Nat) (r : LaneRec) : (s.setLane n r).out = s.out := rfl
@[simp] theorem State.setLane_pending (n : Nat) (r : LaneRec) : (s.setLane n r).pending = s.pending := rfl
@[simp] theorem State.setLane_word (n : Nat) (r : LaneRec) (x : Reg) : (s.setLane n r).word x = s.word x := rfl
@[simp] theorem State.setLane_get (n : Nat) (r : LaneRec) (x : Fld) : (s.setLane n r).get x = s.get x := rfl
@[simp] theorem State.setLane_on (n : Nat) (r : LaneRec) (x : Fld) : (s.setLane n r).on x = s.on x := rfl
@[simp] theorem State.setLane_laneRec (n : Nat) (r : LaneRec) : (s.setLane n r).laneRec n = r := smGet_set_same _ _ _ _
theorem State.setLane_laneRec_other (n : Nat) (r : LaneRec) {k : Nat} (h : k ≠ n) : (s.setLane n r).laneRec k = s.laneRec k := smGet_set_other _ _ _ _ h

/-! ### setPll -/

@[simp] theorem State.setPll_regs (n : Nat) (r : PllRec) : (s.setPll n r).regs = s.regs := rfl
@[simp] theorem State.setPll_mem (n : Nat) (r : PllRec) : (s.setPll n r).mem = s.mem := rfl
@[simp] theorem State.setPll_fram (n : Nat) (r : PllRec) : (s.setPll n r).fram = s.fram := rfl
@[simp] theorem State.setPll_otp (n : Nat) (r : PllRec) : (s.setPll n r).otp = s.otp := rfl
@[simp] theorem State.setPll_inReset (n : Nat) (r : PllRec) : (s.setPll n r).inReset = s.inReset := rfl
@[simp] theorem State.setPll_now (n : Nat) (r : PllRec) : (s.setPll n r).now = s.now := rfl
@[simp] theorem State.setPll_clk (n : Nat) (r : PllRec) : (s.setPll n r).clk = s.clk := rfl
@[simp] theorem State.setPll_shadows (n : Nat) (r : PllRec) : (s.setPll n r).shadows = s.shadows := rfl
@[simp] theorem State.setPll_stages (n : Nat) (r : PllRec) : (s.setPll n r).stages = s.stages := rfl
@[simp] theorem State.setPll_syn (n : Nat) (r : PllRec) : (s.setPll n r).syn = s.syn := rfl
@[simp] theorem State.setPll_outs (n : Nat) (r : PllRec) : (s.setPll n r).outs = s.outs := rfl
@[simp] theorem State.setPll_pps (n : Nat) (r : PllRec) : (s.setPll n r).pps = s.pps := rfl
@[simp] theorem State.setPll_refs (n : Nat) (r : PllRec) : (s.setPll n r).refs = s.refs := rfl
@[simp] theorem State.setPll_sel (n : Nat) (r : PllRec) : (s.setPll n r).sel = s.sel := rfl
@[simp] theorem State.setPll_ens (n : Nat) (r : PllRec) : (s.setPll n r).ens = s.ens := rfl
@[simp] theorem State.setPll_tb (n : Nat) (r : PllRec) : (s.setPll n r).tb = s.tb := rfl
@[simp] theorem State.setPll_lanes (n : Nat) (r : PllRec) : (s.setPll n r).lanes = s.lanes := rfl
@[simp] theorem State.setPll_rcsHeld (n : Nat) (r : PllRec) : (s.setPll n r).rcsHeld = s.rcsHeld := rfl
@[simp] theorem State.setPll_ports (n : Nat) (r : PllRec) : (s.setPll n r).ports = s.ports := rfl
@[simp] theorem State.setPll_pha (n : Nat) (r : PllRec) : (s.setPll n r).pha = s.pha := rfl
@[simp] theorem State.setPll_survey (n : Nat) (r : PllRec) : (s.setPll n r).survey = s.survey := rfl
@[simp] theorem State.setPll_fm (n : Nat) (r : PllRec) : (s.setPll n r).fm = s.fm := rfl
@[simp] theorem State.setPll_doms (n : Nat) (r : PllRec) : (s.setPll n r).doms = s.doms := rfl
@[simp] theorem State.setPll_sess (n : Nat) (r : PllRec) : (s.setPll n r).sess = s.sess := rfl
@[simp] theorem State.setPll_fwd (n : Nat) (r : PllRec) : (s.setPll n r).fwd = s.fwd := rfl
@[simp] theorem State.setPll_meters (n : Nat) (r : PllRec) : (s.setPll n r).meters = s.meters := rfl
@[simp] theorem State.setPll_frames (n : Nat) (r : PllRec) : (s.setPll n r).frames = s.frames := rfl
@[simp] theorem State.setPll_copies (n : Nat) (r : PllRec) : (s.setPll n r).copies = s.copies := rfl
@[simp] theorem State.setPll_queues (n : Nat) (r : PllRec) : (s.setPll n r).queues = s.queues := rfl
@[simp] theorem State.setPll_qm (n : Nat) (r : PllRec) : (s.setPll n r).qm = s.qm := rfl
@[simp] theorem State.setPll_bufs (n : Nat) (r : PllRec) : (s.setPll n r).bufs = s.bufs := rfl
@[simp] theorem State.setPll_epoch (n : Nat) (r : PllRec) : (s.setPll n r).epoch = s.epoch := rfl
@[simp] theorem State.setPll_tiu (n : Nat) (r : PllRec) : (s.setPll n r).tiu = s.tiu := rfl
@[simp] theorem State.setPll_cal (n : Nat) (r : PllRec) : (s.setPll n r).cal = s.cal := rfl
@[simp] theorem State.setPll_ecc (n : Nat) (r : PllRec) : (s.setPll n r).ecc = s.ecc := rfl
@[simp] theorem State.setPll_pair (n : Nat) (r : PllRec) : (s.setPll n r).pair = s.pair := rfl
@[simp] theorem State.setPll_pwr (n : Nat) (r : PllRec) : (s.setPll n r).pwr = s.pwr := rfl
@[simp] theorem State.setPll_ldr (n : Nat) (r : PllRec) : (s.setPll n r).ldr = s.ldr := rfl
@[simp] theorem State.setPll_mgt (n : Nat) (r : PllRec) : (s.setPll n r).mgt = s.mgt := rfl
@[simp] theorem State.setPll_escAt (n : Nat) (r : PllRec) : (s.setPll n r).escAt = s.escAt := rfl
@[simp] theorem State.setPll_escDue (n : Nat) (r : PllRec) : (s.setPll n r).escDue = s.escDue := rfl
@[simp] theorem State.setPll_freeNo (n : Nat) (r : PllRec) : (s.setPll n r).freeNo = s.freeNo := rfl
@[simp] theorem State.setPll_out (n : Nat) (r : PllRec) : (s.setPll n r).out = s.out := rfl
@[simp] theorem State.setPll_pending (n : Nat) (r : PllRec) : (s.setPll n r).pending = s.pending := rfl
@[simp] theorem State.setPll_word (n : Nat) (r : PllRec) (x : Reg) : (s.setPll n r).word x = s.word x := rfl
@[simp] theorem State.setPll_get (n : Nat) (r : PllRec) (x : Fld) : (s.setPll n r).get x = s.get x := rfl
@[simp] theorem State.setPll_on (n : Nat) (r : PllRec) (x : Fld) : (s.setPll n r).on x = s.on x := rfl
@[simp] theorem State.setPll_pllRec (n : Nat) (r : PllRec) : (s.setPll n r).pllRec n = r := smGet_set_same _ _ _ _
theorem State.setPll_pllRec_other (n : Nat) (r : PllRec) {k : Nat} (h : k ≠ n) : (s.setPll n r).pllRec k = s.pllRec k := smGet_set_other _ _ _ _ h

/-! ### setPort -/

@[simp] theorem State.setPort_regs (n : Nat) (r : PortRec) : (s.setPort n r).regs = s.regs := rfl
@[simp] theorem State.setPort_mem (n : Nat) (r : PortRec) : (s.setPort n r).mem = s.mem := rfl
@[simp] theorem State.setPort_fram (n : Nat) (r : PortRec) : (s.setPort n r).fram = s.fram := rfl
@[simp] theorem State.setPort_otp (n : Nat) (r : PortRec) : (s.setPort n r).otp = s.otp := rfl
@[simp] theorem State.setPort_inReset (n : Nat) (r : PortRec) : (s.setPort n r).inReset = s.inReset := rfl
@[simp] theorem State.setPort_now (n : Nat) (r : PortRec) : (s.setPort n r).now = s.now := rfl
@[simp] theorem State.setPort_clk (n : Nat) (r : PortRec) : (s.setPort n r).clk = s.clk := rfl
@[simp] theorem State.setPort_shadows (n : Nat) (r : PortRec) : (s.setPort n r).shadows = s.shadows := rfl
@[simp] theorem State.setPort_stages (n : Nat) (r : PortRec) : (s.setPort n r).stages = s.stages := rfl
@[simp] theorem State.setPort_syn (n : Nat) (r : PortRec) : (s.setPort n r).syn = s.syn := rfl
@[simp] theorem State.setPort_outs (n : Nat) (r : PortRec) : (s.setPort n r).outs = s.outs := rfl
@[simp] theorem State.setPort_pps (n : Nat) (r : PortRec) : (s.setPort n r).pps = s.pps := rfl
@[simp] theorem State.setPort_refs (n : Nat) (r : PortRec) : (s.setPort n r).refs = s.refs := rfl
@[simp] theorem State.setPort_sel (n : Nat) (r : PortRec) : (s.setPort n r).sel = s.sel := rfl
@[simp] theorem State.setPort_ens (n : Nat) (r : PortRec) : (s.setPort n r).ens = s.ens := rfl
@[simp] theorem State.setPort_tb (n : Nat) (r : PortRec) : (s.setPort n r).tb = s.tb := rfl
@[simp] theorem State.setPort_lanes (n : Nat) (r : PortRec) : (s.setPort n r).lanes = s.lanes := rfl
@[simp] theorem State.setPort_plls (n : Nat) (r : PortRec) : (s.setPort n r).plls = s.plls := rfl
@[simp] theorem State.setPort_rcsHeld (n : Nat) (r : PortRec) : (s.setPort n r).rcsHeld = s.rcsHeld := rfl
@[simp] theorem State.setPort_pha (n : Nat) (r : PortRec) : (s.setPort n r).pha = s.pha := rfl
@[simp] theorem State.setPort_survey (n : Nat) (r : PortRec) : (s.setPort n r).survey = s.survey := rfl
@[simp] theorem State.setPort_fm (n : Nat) (r : PortRec) : (s.setPort n r).fm = s.fm := rfl
@[simp] theorem State.setPort_doms (n : Nat) (r : PortRec) : (s.setPort n r).doms = s.doms := rfl
@[simp] theorem State.setPort_sess (n : Nat) (r : PortRec) : (s.setPort n r).sess = s.sess := rfl
@[simp] theorem State.setPort_fwd (n : Nat) (r : PortRec) : (s.setPort n r).fwd = s.fwd := rfl
@[simp] theorem State.setPort_meters (n : Nat) (r : PortRec) : (s.setPort n r).meters = s.meters := rfl
@[simp] theorem State.setPort_frames (n : Nat) (r : PortRec) : (s.setPort n r).frames = s.frames := rfl
@[simp] theorem State.setPort_copies (n : Nat) (r : PortRec) : (s.setPort n r).copies = s.copies := rfl
@[simp] theorem State.setPort_queues (n : Nat) (r : PortRec) : (s.setPort n r).queues = s.queues := rfl
@[simp] theorem State.setPort_qm (n : Nat) (r : PortRec) : (s.setPort n r).qm = s.qm := rfl
@[simp] theorem State.setPort_bufs (n : Nat) (r : PortRec) : (s.setPort n r).bufs = s.bufs := rfl
@[simp] theorem State.setPort_epoch (n : Nat) (r : PortRec) : (s.setPort n r).epoch = s.epoch := rfl
@[simp] theorem State.setPort_tiu (n : Nat) (r : PortRec) : (s.setPort n r).tiu = s.tiu := rfl
@[simp] theorem State.setPort_cal (n : Nat) (r : PortRec) : (s.setPort n r).cal = s.cal := rfl
@[simp] theorem State.setPort_ecc (n : Nat) (r : PortRec) : (s.setPort n r).ecc = s.ecc := rfl
@[simp] theorem State.setPort_pair (n : Nat) (r : PortRec) : (s.setPort n r).pair = s.pair := rfl
@[simp] theorem State.setPort_pwr (n : Nat) (r : PortRec) : (s.setPort n r).pwr = s.pwr := rfl
@[simp] theorem State.setPort_ldr (n : Nat) (r : PortRec) : (s.setPort n r).ldr = s.ldr := rfl
@[simp] theorem State.setPort_mgt (n : Nat) (r : PortRec) : (s.setPort n r).mgt = s.mgt := rfl
@[simp] theorem State.setPort_escAt (n : Nat) (r : PortRec) : (s.setPort n r).escAt = s.escAt := rfl
@[simp] theorem State.setPort_escDue (n : Nat) (r : PortRec) : (s.setPort n r).escDue = s.escDue := rfl
@[simp] theorem State.setPort_freeNo (n : Nat) (r : PortRec) : (s.setPort n r).freeNo = s.freeNo := rfl
@[simp] theorem State.setPort_out (n : Nat) (r : PortRec) : (s.setPort n r).out = s.out := rfl
@[simp] theorem State.setPort_pending (n : Nat) (r : PortRec) : (s.setPort n r).pending = s.pending := rfl
@[simp] theorem State.setPort_word (n : Nat) (r : PortRec) (x : Reg) : (s.setPort n r).word x = s.word x := rfl
@[simp] theorem State.setPort_get (n : Nat) (r : PortRec) (x : Fld) : (s.setPort n r).get x = s.get x := rfl
@[simp] theorem State.setPort_on (n : Nat) (r : PortRec) (x : Fld) : (s.setPort n r).on x = s.on x := rfl
@[simp] theorem State.setPort_portRec (n : Nat) (r : PortRec) : (s.setPort n r).portRec n = r := smGet_set_same _ _ _ _
theorem State.setPort_portRec_other (n : Nat) (r : PortRec) {k : Nat} (h : k ≠ n) : (s.setPort n r).portRec k = s.portRec k := smGet_set_other _ _ _ _ h

/-! ### setPha -/

@[simp] theorem State.setPha_regs (n : Nat) (r : PhaRec) : (s.setPha n r).regs = s.regs := rfl
@[simp] theorem State.setPha_mem (n : Nat) (r : PhaRec) : (s.setPha n r).mem = s.mem := rfl
@[simp] theorem State.setPha_fram (n : Nat) (r : PhaRec) : (s.setPha n r).fram = s.fram := rfl
@[simp] theorem State.setPha_otp (n : Nat) (r : PhaRec) : (s.setPha n r).otp = s.otp := rfl
@[simp] theorem State.setPha_inReset (n : Nat) (r : PhaRec) : (s.setPha n r).inReset = s.inReset := rfl
@[simp] theorem State.setPha_now (n : Nat) (r : PhaRec) : (s.setPha n r).now = s.now := rfl
@[simp] theorem State.setPha_clk (n : Nat) (r : PhaRec) : (s.setPha n r).clk = s.clk := rfl
@[simp] theorem State.setPha_shadows (n : Nat) (r : PhaRec) : (s.setPha n r).shadows = s.shadows := rfl
@[simp] theorem State.setPha_stages (n : Nat) (r : PhaRec) : (s.setPha n r).stages = s.stages := rfl
@[simp] theorem State.setPha_syn (n : Nat) (r : PhaRec) : (s.setPha n r).syn = s.syn := rfl
@[simp] theorem State.setPha_outs (n : Nat) (r : PhaRec) : (s.setPha n r).outs = s.outs := rfl
@[simp] theorem State.setPha_pps (n : Nat) (r : PhaRec) : (s.setPha n r).pps = s.pps := rfl
@[simp] theorem State.setPha_refs (n : Nat) (r : PhaRec) : (s.setPha n r).refs = s.refs := rfl
@[simp] theorem State.setPha_sel (n : Nat) (r : PhaRec) : (s.setPha n r).sel = s.sel := rfl
@[simp] theorem State.setPha_ens (n : Nat) (r : PhaRec) : (s.setPha n r).ens = s.ens := rfl
@[simp] theorem State.setPha_tb (n : Nat) (r : PhaRec) : (s.setPha n r).tb = s.tb := rfl
@[simp] theorem State.setPha_lanes (n : Nat) (r : PhaRec) : (s.setPha n r).lanes = s.lanes := rfl
@[simp] theorem State.setPha_plls (n : Nat) (r : PhaRec) : (s.setPha n r).plls = s.plls := rfl
@[simp] theorem State.setPha_rcsHeld (n : Nat) (r : PhaRec) : (s.setPha n r).rcsHeld = s.rcsHeld := rfl
@[simp] theorem State.setPha_ports (n : Nat) (r : PhaRec) : (s.setPha n r).ports = s.ports := rfl
@[simp] theorem State.setPha_survey (n : Nat) (r : PhaRec) : (s.setPha n r).survey = s.survey := rfl
@[simp] theorem State.setPha_fm (n : Nat) (r : PhaRec) : (s.setPha n r).fm = s.fm := rfl
@[simp] theorem State.setPha_doms (n : Nat) (r : PhaRec) : (s.setPha n r).doms = s.doms := rfl
@[simp] theorem State.setPha_sess (n : Nat) (r : PhaRec) : (s.setPha n r).sess = s.sess := rfl
@[simp] theorem State.setPha_fwd (n : Nat) (r : PhaRec) : (s.setPha n r).fwd = s.fwd := rfl
@[simp] theorem State.setPha_meters (n : Nat) (r : PhaRec) : (s.setPha n r).meters = s.meters := rfl
@[simp] theorem State.setPha_frames (n : Nat) (r : PhaRec) : (s.setPha n r).frames = s.frames := rfl
@[simp] theorem State.setPha_copies (n : Nat) (r : PhaRec) : (s.setPha n r).copies = s.copies := rfl
@[simp] theorem State.setPha_queues (n : Nat) (r : PhaRec) : (s.setPha n r).queues = s.queues := rfl
@[simp] theorem State.setPha_qm (n : Nat) (r : PhaRec) : (s.setPha n r).qm = s.qm := rfl
@[simp] theorem State.setPha_bufs (n : Nat) (r : PhaRec) : (s.setPha n r).bufs = s.bufs := rfl
@[simp] theorem State.setPha_epoch (n : Nat) (r : PhaRec) : (s.setPha n r).epoch = s.epoch := rfl
@[simp] theorem State.setPha_tiu (n : Nat) (r : PhaRec) : (s.setPha n r).tiu = s.tiu := rfl
@[simp] theorem State.setPha_cal (n : Nat) (r : PhaRec) : (s.setPha n r).cal = s.cal := rfl
@[simp] theorem State.setPha_ecc (n : Nat) (r : PhaRec) : (s.setPha n r).ecc = s.ecc := rfl
@[simp] theorem State.setPha_pair (n : Nat) (r : PhaRec) : (s.setPha n r).pair = s.pair := rfl
@[simp] theorem State.setPha_pwr (n : Nat) (r : PhaRec) : (s.setPha n r).pwr = s.pwr := rfl
@[simp] theorem State.setPha_ldr (n : Nat) (r : PhaRec) : (s.setPha n r).ldr = s.ldr := rfl
@[simp] theorem State.setPha_mgt (n : Nat) (r : PhaRec) : (s.setPha n r).mgt = s.mgt := rfl
@[simp] theorem State.setPha_escAt (n : Nat) (r : PhaRec) : (s.setPha n r).escAt = s.escAt := rfl
@[simp] theorem State.setPha_escDue (n : Nat) (r : PhaRec) : (s.setPha n r).escDue = s.escDue := rfl
@[simp] theorem State.setPha_freeNo (n : Nat) (r : PhaRec) : (s.setPha n r).freeNo = s.freeNo := rfl
@[simp] theorem State.setPha_out (n : Nat) (r : PhaRec) : (s.setPha n r).out = s.out := rfl
@[simp] theorem State.setPha_pending (n : Nat) (r : PhaRec) : (s.setPha n r).pending = s.pending := rfl
@[simp] theorem State.setPha_word (n : Nat) (r : PhaRec) (x : Reg) : (s.setPha n r).word x = s.word x := rfl
@[simp] theorem State.setPha_get (n : Nat) (r : PhaRec) (x : Fld) : (s.setPha n r).get x = s.get x := rfl
@[simp] theorem State.setPha_on (n : Nat) (r : PhaRec) (x : Fld) : (s.setPha n r).on x = s.on x := rfl
@[simp] theorem State.setPha_phaRec (n : Nat) (r : PhaRec) : (s.setPha n r).phaRec n = r := smGet_set_same _ _ _ _
theorem State.setPha_phaRec_other (n : Nat) (r : PhaRec) {k : Nat} (h : k ≠ n) : (s.setPha n r).phaRec k = s.phaRec k := smGet_set_other _ _ _ _ h

/-! ### setDom -/

@[simp] theorem State.setDom_regs (n : Nat) (r : DomRec) : (s.setDom n r).regs = s.regs := rfl
@[simp] theorem State.setDom_mem (n : Nat) (r : DomRec) : (s.setDom n r).mem = s.mem := rfl
@[simp] theorem State.setDom_fram (n : Nat) (r : DomRec) : (s.setDom n r).fram = s.fram := rfl
@[simp] theorem State.setDom_otp (n : Nat) (r : DomRec) : (s.setDom n r).otp = s.otp := rfl
@[simp] theorem State.setDom_inReset (n : Nat) (r : DomRec) : (s.setDom n r).inReset = s.inReset := rfl
@[simp] theorem State.setDom_now (n : Nat) (r : DomRec) : (s.setDom n r).now = s.now := rfl
@[simp] theorem State.setDom_clk (n : Nat) (r : DomRec) : (s.setDom n r).clk = s.clk := rfl
@[simp] theorem State.setDom_shadows (n : Nat) (r : DomRec) : (s.setDom n r).shadows = s.shadows := rfl
@[simp] theorem State.setDom_stages (n : Nat) (r : DomRec) : (s.setDom n r).stages = s.stages := rfl
@[simp] theorem State.setDom_syn (n : Nat) (r : DomRec) : (s.setDom n r).syn = s.syn := rfl
@[simp] theorem State.setDom_outs (n : Nat) (r : DomRec) : (s.setDom n r).outs = s.outs := rfl
@[simp] theorem State.setDom_pps (n : Nat) (r : DomRec) : (s.setDom n r).pps = s.pps := rfl
@[simp] theorem State.setDom_refs (n : Nat) (r : DomRec) : (s.setDom n r).refs = s.refs := rfl
@[simp] theorem State.setDom_sel (n : Nat) (r : DomRec) : (s.setDom n r).sel = s.sel := rfl
@[simp] theorem State.setDom_ens (n : Nat) (r : DomRec) : (s.setDom n r).ens = s.ens := rfl
@[simp] theorem State.setDom_tb (n : Nat) (r : DomRec) : (s.setDom n r).tb = s.tb := rfl
@[simp] theorem State.setDom_lanes (n : Nat) (r : DomRec) : (s.setDom n r).lanes = s.lanes := rfl
@[simp] theorem State.setDom_plls (n : Nat) (r : DomRec) : (s.setDom n r).plls = s.plls := rfl
@[simp] theorem State.setDom_rcsHeld (n : Nat) (r : DomRec) : (s.setDom n r).rcsHeld = s.rcsHeld := rfl
@[simp] theorem State.setDom_ports (n : Nat) (r : DomRec) : (s.setDom n r).ports = s.ports := rfl
@[simp] theorem State.setDom_pha (n : Nat) (r : DomRec) : (s.setDom n r).pha = s.pha := rfl
@[simp] theorem State.setDom_survey (n : Nat) (r : DomRec) : (s.setDom n r).survey = s.survey := rfl
@[simp] theorem State.setDom_fm (n : Nat) (r : DomRec) : (s.setDom n r).fm = s.fm := rfl
@[simp] theorem State.setDom_sess (n : Nat) (r : DomRec) : (s.setDom n r).sess = s.sess := rfl
@[simp] theorem State.setDom_fwd (n : Nat) (r : DomRec) : (s.setDom n r).fwd = s.fwd := rfl
@[simp] theorem State.setDom_meters (n : Nat) (r : DomRec) : (s.setDom n r).meters = s.meters := rfl
@[simp] theorem State.setDom_frames (n : Nat) (r : DomRec) : (s.setDom n r).frames = s.frames := rfl
@[simp] theorem State.setDom_copies (n : Nat) (r : DomRec) : (s.setDom n r).copies = s.copies := rfl
@[simp] theorem State.setDom_queues (n : Nat) (r : DomRec) : (s.setDom n r).queues = s.queues := rfl
@[simp] theorem State.setDom_qm (n : Nat) (r : DomRec) : (s.setDom n r).qm = s.qm := rfl
@[simp] theorem State.setDom_bufs (n : Nat) (r : DomRec) : (s.setDom n r).bufs = s.bufs := rfl
@[simp] theorem State.setDom_epoch (n : Nat) (r : DomRec) : (s.setDom n r).epoch = s.epoch := rfl
@[simp] theorem State.setDom_tiu (n : Nat) (r : DomRec) : (s.setDom n r).tiu = s.tiu := rfl
@[simp] theorem State.setDom_cal (n : Nat) (r : DomRec) : (s.setDom n r).cal = s.cal := rfl
@[simp] theorem State.setDom_ecc (n : Nat) (r : DomRec) : (s.setDom n r).ecc = s.ecc := rfl
@[simp] theorem State.setDom_pair (n : Nat) (r : DomRec) : (s.setDom n r).pair = s.pair := rfl
@[simp] theorem State.setDom_pwr (n : Nat) (r : DomRec) : (s.setDom n r).pwr = s.pwr := rfl
@[simp] theorem State.setDom_ldr (n : Nat) (r : DomRec) : (s.setDom n r).ldr = s.ldr := rfl
@[simp] theorem State.setDom_mgt (n : Nat) (r : DomRec) : (s.setDom n r).mgt = s.mgt := rfl
@[simp] theorem State.setDom_escAt (n : Nat) (r : DomRec) : (s.setDom n r).escAt = s.escAt := rfl
@[simp] theorem State.setDom_escDue (n : Nat) (r : DomRec) : (s.setDom n r).escDue = s.escDue := rfl
@[simp] theorem State.setDom_freeNo (n : Nat) (r : DomRec) : (s.setDom n r).freeNo = s.freeNo := rfl
@[simp] theorem State.setDom_out (n : Nat) (r : DomRec) : (s.setDom n r).out = s.out := rfl
@[simp] theorem State.setDom_pending (n : Nat) (r : DomRec) : (s.setDom n r).pending = s.pending := rfl
@[simp] theorem State.setDom_word (n : Nat) (r : DomRec) (x : Reg) : (s.setDom n r).word x = s.word x := rfl
@[simp] theorem State.setDom_get (n : Nat) (r : DomRec) (x : Fld) : (s.setDom n r).get x = s.get x := rfl
@[simp] theorem State.setDom_on (n : Nat) (r : DomRec) (x : Fld) : (s.setDom n r).on x = s.on x := rfl
@[simp] theorem State.setDom_domRec (n : Nat) (r : DomRec) : (s.setDom n r).domRec n = r := smGet_set_same _ _ _ _
theorem State.setDom_domRec_other (n : Nat) (r : DomRec) {k : Nat} (h : k ≠ n) : (s.setDom n r).domRec k = s.domRec k := smGet_set_other _ _ _ _ h

/-! ### setSess -/

@[simp] theorem State.setSess_regs (n : Nat) (r : SessRec) : (s.setSess n r).regs = s.regs := rfl
@[simp] theorem State.setSess_mem (n : Nat) (r : SessRec) : (s.setSess n r).mem = s.mem := rfl
@[simp] theorem State.setSess_fram (n : Nat) (r : SessRec) : (s.setSess n r).fram = s.fram := rfl
@[simp] theorem State.setSess_otp (n : Nat) (r : SessRec) : (s.setSess n r).otp = s.otp := rfl
@[simp] theorem State.setSess_inReset (n : Nat) (r : SessRec) : (s.setSess n r).inReset = s.inReset := rfl
@[simp] theorem State.setSess_now (n : Nat) (r : SessRec) : (s.setSess n r).now = s.now := rfl
@[simp] theorem State.setSess_clk (n : Nat) (r : SessRec) : (s.setSess n r).clk = s.clk := rfl
@[simp] theorem State.setSess_shadows (n : Nat) (r : SessRec) : (s.setSess n r).shadows = s.shadows := rfl
@[simp] theorem State.setSess_stages (n : Nat) (r : SessRec) : (s.setSess n r).stages = s.stages := rfl
@[simp] theorem State.setSess_syn (n : Nat) (r : SessRec) : (s.setSess n r).syn = s.syn := rfl
@[simp] theorem State.setSess_outs (n : Nat) (r : SessRec) : (s.setSess n r).outs = s.outs := rfl
@[simp] theorem State.setSess_pps (n : Nat) (r : SessRec) : (s.setSess n r).pps = s.pps := rfl
@[simp] theorem State.setSess_refs (n : Nat) (r : SessRec) : (s.setSess n r).refs = s.refs := rfl
@[simp] theorem State.setSess_sel (n : Nat) (r : SessRec) : (s.setSess n r).sel = s.sel := rfl
@[simp] theorem State.setSess_ens (n : Nat) (r : SessRec) : (s.setSess n r).ens = s.ens := rfl
@[simp] theorem State.setSess_tb (n : Nat) (r : SessRec) : (s.setSess n r).tb = s.tb := rfl
@[simp] theorem State.setSess_lanes (n : Nat) (r : SessRec) : (s.setSess n r).lanes = s.lanes := rfl
@[simp] theorem State.setSess_plls (n : Nat) (r : SessRec) : (s.setSess n r).plls = s.plls := rfl
@[simp] theorem State.setSess_rcsHeld (n : Nat) (r : SessRec) : (s.setSess n r).rcsHeld = s.rcsHeld := rfl
@[simp] theorem State.setSess_ports (n : Nat) (r : SessRec) : (s.setSess n r).ports = s.ports := rfl
@[simp] theorem State.setSess_pha (n : Nat) (r : SessRec) : (s.setSess n r).pha = s.pha := rfl
@[simp] theorem State.setSess_survey (n : Nat) (r : SessRec) : (s.setSess n r).survey = s.survey := rfl
@[simp] theorem State.setSess_fm (n : Nat) (r : SessRec) : (s.setSess n r).fm = s.fm := rfl
@[simp] theorem State.setSess_doms (n : Nat) (r : SessRec) : (s.setSess n r).doms = s.doms := rfl
@[simp] theorem State.setSess_fwd (n : Nat) (r : SessRec) : (s.setSess n r).fwd = s.fwd := rfl
@[simp] theorem State.setSess_meters (n : Nat) (r : SessRec) : (s.setSess n r).meters = s.meters := rfl
@[simp] theorem State.setSess_frames (n : Nat) (r : SessRec) : (s.setSess n r).frames = s.frames := rfl
@[simp] theorem State.setSess_copies (n : Nat) (r : SessRec) : (s.setSess n r).copies = s.copies := rfl
@[simp] theorem State.setSess_queues (n : Nat) (r : SessRec) : (s.setSess n r).queues = s.queues := rfl
@[simp] theorem State.setSess_qm (n : Nat) (r : SessRec) : (s.setSess n r).qm = s.qm := rfl
@[simp] theorem State.setSess_bufs (n : Nat) (r : SessRec) : (s.setSess n r).bufs = s.bufs := rfl
@[simp] theorem State.setSess_epoch (n : Nat) (r : SessRec) : (s.setSess n r).epoch = s.epoch := rfl
@[simp] theorem State.setSess_tiu (n : Nat) (r : SessRec) : (s.setSess n r).tiu = s.tiu := rfl
@[simp] theorem State.setSess_cal (n : Nat) (r : SessRec) : (s.setSess n r).cal = s.cal := rfl
@[simp] theorem State.setSess_ecc (n : Nat) (r : SessRec) : (s.setSess n r).ecc = s.ecc := rfl
@[simp] theorem State.setSess_pair (n : Nat) (r : SessRec) : (s.setSess n r).pair = s.pair := rfl
@[simp] theorem State.setSess_pwr (n : Nat) (r : SessRec) : (s.setSess n r).pwr = s.pwr := rfl
@[simp] theorem State.setSess_ldr (n : Nat) (r : SessRec) : (s.setSess n r).ldr = s.ldr := rfl
@[simp] theorem State.setSess_mgt (n : Nat) (r : SessRec) : (s.setSess n r).mgt = s.mgt := rfl
@[simp] theorem State.setSess_escAt (n : Nat) (r : SessRec) : (s.setSess n r).escAt = s.escAt := rfl
@[simp] theorem State.setSess_escDue (n : Nat) (r : SessRec) : (s.setSess n r).escDue = s.escDue := rfl
@[simp] theorem State.setSess_freeNo (n : Nat) (r : SessRec) : (s.setSess n r).freeNo = s.freeNo := rfl
@[simp] theorem State.setSess_out (n : Nat) (r : SessRec) : (s.setSess n r).out = s.out := rfl
@[simp] theorem State.setSess_pending (n : Nat) (r : SessRec) : (s.setSess n r).pending = s.pending := rfl
@[simp] theorem State.setSess_word (n : Nat) (r : SessRec) (x : Reg) : (s.setSess n r).word x = s.word x := rfl
@[simp] theorem State.setSess_get (n : Nat) (r : SessRec) (x : Fld) : (s.setSess n r).get x = s.get x := rfl
@[simp] theorem State.setSess_on (n : Nat) (r : SessRec) (x : Fld) : (s.setSess n r).on x = s.on x := rfl
@[simp] theorem State.setSess_sessRec (n : Nat) (r : SessRec) : (s.setSess n r).sessRec n = r := smGet_set_same _ _ _ _
theorem State.setSess_sessRec_other (n : Nat) (r : SessRec) {k : Nat} (h : k ≠ n) : (s.setSess n r).sessRec k = s.sessRec k := smGet_set_other _ _ _ _ h

/-! ### setFrame -/

@[simp] theorem State.setFrame_regs (n : Nat) (r : FrameRec) : (s.setFrame n r).regs = s.regs := rfl
@[simp] theorem State.setFrame_mem (n : Nat) (r : FrameRec) : (s.setFrame n r).mem = s.mem := rfl
@[simp] theorem State.setFrame_fram (n : Nat) (r : FrameRec) : (s.setFrame n r).fram = s.fram := rfl
@[simp] theorem State.setFrame_otp (n : Nat) (r : FrameRec) : (s.setFrame n r).otp = s.otp := rfl
@[simp] theorem State.setFrame_inReset (n : Nat) (r : FrameRec) : (s.setFrame n r).inReset = s.inReset := rfl
@[simp] theorem State.setFrame_now (n : Nat) (r : FrameRec) : (s.setFrame n r).now = s.now := rfl
@[simp] theorem State.setFrame_clk (n : Nat) (r : FrameRec) : (s.setFrame n r).clk = s.clk := rfl
@[simp] theorem State.setFrame_shadows (n : Nat) (r : FrameRec) : (s.setFrame n r).shadows = s.shadows := rfl
@[simp] theorem State.setFrame_stages (n : Nat) (r : FrameRec) : (s.setFrame n r).stages = s.stages := rfl
@[simp] theorem State.setFrame_syn (n : Nat) (r : FrameRec) : (s.setFrame n r).syn = s.syn := rfl
@[simp] theorem State.setFrame_outs (n : Nat) (r : FrameRec) : (s.setFrame n r).outs = s.outs := rfl
@[simp] theorem State.setFrame_pps (n : Nat) (r : FrameRec) : (s.setFrame n r).pps = s.pps := rfl
@[simp] theorem State.setFrame_refs (n : Nat) (r : FrameRec) : (s.setFrame n r).refs = s.refs := rfl
@[simp] theorem State.setFrame_sel (n : Nat) (r : FrameRec) : (s.setFrame n r).sel = s.sel := rfl
@[simp] theorem State.setFrame_ens (n : Nat) (r : FrameRec) : (s.setFrame n r).ens = s.ens := rfl
@[simp] theorem State.setFrame_tb (n : Nat) (r : FrameRec) : (s.setFrame n r).tb = s.tb := rfl
@[simp] theorem State.setFrame_lanes (n : Nat) (r : FrameRec) : (s.setFrame n r).lanes = s.lanes := rfl
@[simp] theorem State.setFrame_plls (n : Nat) (r : FrameRec) : (s.setFrame n r).plls = s.plls := rfl
@[simp] theorem State.setFrame_rcsHeld (n : Nat) (r : FrameRec) : (s.setFrame n r).rcsHeld = s.rcsHeld := rfl
@[simp] theorem State.setFrame_ports (n : Nat) (r : FrameRec) : (s.setFrame n r).ports = s.ports := rfl
@[simp] theorem State.setFrame_pha (n : Nat) (r : FrameRec) : (s.setFrame n r).pha = s.pha := rfl
@[simp] theorem State.setFrame_survey (n : Nat) (r : FrameRec) : (s.setFrame n r).survey = s.survey := rfl
@[simp] theorem State.setFrame_fm (n : Nat) (r : FrameRec) : (s.setFrame n r).fm = s.fm := rfl
@[simp] theorem State.setFrame_doms (n : Nat) (r : FrameRec) : (s.setFrame n r).doms = s.doms := rfl
@[simp] theorem State.setFrame_sess (n : Nat) (r : FrameRec) : (s.setFrame n r).sess = s.sess := rfl
@[simp] theorem State.setFrame_fwd (n : Nat) (r : FrameRec) : (s.setFrame n r).fwd = s.fwd := rfl
@[simp] theorem State.setFrame_meters (n : Nat) (r : FrameRec) : (s.setFrame n r).meters = s.meters := rfl
@[simp] theorem State.setFrame_copies (n : Nat) (r : FrameRec) : (s.setFrame n r).copies = s.copies := rfl
@[simp] theorem State.setFrame_queues (n : Nat) (r : FrameRec) : (s.setFrame n r).queues = s.queues := rfl
@[simp] theorem State.setFrame_qm (n : Nat) (r : FrameRec) : (s.setFrame n r).qm = s.qm := rfl
@[simp] theorem State.setFrame_bufs (n : Nat) (r : FrameRec) : (s.setFrame n r).bufs = s.bufs := rfl
@[simp] theorem State.setFrame_epoch (n : Nat) (r : FrameRec) : (s.setFrame n r).epoch = s.epoch := rfl
@[simp] theorem State.setFrame_tiu (n : Nat) (r : FrameRec) : (s.setFrame n r).tiu = s.tiu := rfl
@[simp] theorem State.setFrame_cal (n : Nat) (r : FrameRec) : (s.setFrame n r).cal = s.cal := rfl
@[simp] theorem State.setFrame_ecc (n : Nat) (r : FrameRec) : (s.setFrame n r).ecc = s.ecc := rfl
@[simp] theorem State.setFrame_pair (n : Nat) (r : FrameRec) : (s.setFrame n r).pair = s.pair := rfl
@[simp] theorem State.setFrame_pwr (n : Nat) (r : FrameRec) : (s.setFrame n r).pwr = s.pwr := rfl
@[simp] theorem State.setFrame_ldr (n : Nat) (r : FrameRec) : (s.setFrame n r).ldr = s.ldr := rfl
@[simp] theorem State.setFrame_mgt (n : Nat) (r : FrameRec) : (s.setFrame n r).mgt = s.mgt := rfl
@[simp] theorem State.setFrame_escAt (n : Nat) (r : FrameRec) : (s.setFrame n r).escAt = s.escAt := rfl
@[simp] theorem State.setFrame_escDue (n : Nat) (r : FrameRec) : (s.setFrame n r).escDue = s.escDue := rfl
@[simp] theorem State.setFrame_freeNo (n : Nat) (r : FrameRec) : (s.setFrame n r).freeNo = s.freeNo := rfl
@[simp] theorem State.setFrame_out (n : Nat) (r : FrameRec) : (s.setFrame n r).out = s.out := rfl
@[simp] theorem State.setFrame_pending (n : Nat) (r : FrameRec) : (s.setFrame n r).pending = s.pending := rfl
@[simp] theorem State.setFrame_word (n : Nat) (r : FrameRec) (x : Reg) : (s.setFrame n r).word x = s.word x := rfl
@[simp] theorem State.setFrame_get (n : Nat) (r : FrameRec) (x : Fld) : (s.setFrame n r).get x = s.get x := rfl
@[simp] theorem State.setFrame_on (n : Nat) (r : FrameRec) (x : Fld) : (s.setFrame n r).on x = s.on x := rfl
@[simp] theorem State.setFrame_frameRec (n : Nat) (r : FrameRec) : (s.setFrame n r).frameRec n = r := smGet_set_same _ _ _ _
theorem State.setFrame_frameRec_other (n : Nat) (r : FrameRec) {k : Nat} (h : k ≠ n) : (s.setFrame n r).frameRec k = s.frameRec k := smGet_set_other _ _ _ _ h

/-! ### setCopy -/

@[simp] theorem State.setCopy_regs (n : Nat) (r : CopyRec) : (s.setCopy n r).regs = s.regs := rfl
@[simp] theorem State.setCopy_mem (n : Nat) (r : CopyRec) : (s.setCopy n r).mem = s.mem := rfl
@[simp] theorem State.setCopy_fram (n : Nat) (r : CopyRec) : (s.setCopy n r).fram = s.fram := rfl
@[simp] theorem State.setCopy_otp (n : Nat) (r : CopyRec) : (s.setCopy n r).otp = s.otp := rfl
@[simp] theorem State.setCopy_inReset (n : Nat) (r : CopyRec) : (s.setCopy n r).inReset = s.inReset := rfl
@[simp] theorem State.setCopy_now (n : Nat) (r : CopyRec) : (s.setCopy n r).now = s.now := rfl
@[simp] theorem State.setCopy_clk (n : Nat) (r : CopyRec) : (s.setCopy n r).clk = s.clk := rfl
@[simp] theorem State.setCopy_shadows (n : Nat) (r : CopyRec) : (s.setCopy n r).shadows = s.shadows := rfl
@[simp] theorem State.setCopy_stages (n : Nat) (r : CopyRec) : (s.setCopy n r).stages = s.stages := rfl
@[simp] theorem State.setCopy_syn (n : Nat) (r : CopyRec) : (s.setCopy n r).syn = s.syn := rfl
@[simp] theorem State.setCopy_outs (n : Nat) (r : CopyRec) : (s.setCopy n r).outs = s.outs := rfl
@[simp] theorem State.setCopy_pps (n : Nat) (r : CopyRec) : (s.setCopy n r).pps = s.pps := rfl
@[simp] theorem State.setCopy_refs (n : Nat) (r : CopyRec) : (s.setCopy n r).refs = s.refs := rfl
@[simp] theorem State.setCopy_sel (n : Nat) (r : CopyRec) : (s.setCopy n r).sel = s.sel := rfl
@[simp] theorem State.setCopy_ens (n : Nat) (r : CopyRec) : (s.setCopy n r).ens = s.ens := rfl
@[simp] theorem State.setCopy_tb (n : Nat) (r : CopyRec) : (s.setCopy n r).tb = s.tb := rfl
@[simp] theorem State.setCopy_lanes (n : Nat) (r : CopyRec) : (s.setCopy n r).lanes = s.lanes := rfl
@[simp] theorem State.setCopy_plls (n : Nat) (r : CopyRec) : (s.setCopy n r).plls = s.plls := rfl
@[simp] theorem State.setCopy_rcsHeld (n : Nat) (r : CopyRec) : (s.setCopy n r).rcsHeld = s.rcsHeld := rfl
@[simp] theorem State.setCopy_ports (n : Nat) (r : CopyRec) : (s.setCopy n r).ports = s.ports := rfl
@[simp] theorem State.setCopy_pha (n : Nat) (r : CopyRec) : (s.setCopy n r).pha = s.pha := rfl
@[simp] theorem State.setCopy_survey (n : Nat) (r : CopyRec) : (s.setCopy n r).survey = s.survey := rfl
@[simp] theorem State.setCopy_fm (n : Nat) (r : CopyRec) : (s.setCopy n r).fm = s.fm := rfl
@[simp] theorem State.setCopy_doms (n : Nat) (r : CopyRec) : (s.setCopy n r).doms = s.doms := rfl
@[simp] theorem State.setCopy_sess (n : Nat) (r : CopyRec) : (s.setCopy n r).sess = s.sess := rfl
@[simp] theorem State.setCopy_fwd (n : Nat) (r : CopyRec) : (s.setCopy n r).fwd = s.fwd := rfl
@[simp] theorem State.setCopy_meters (n : Nat) (r : CopyRec) : (s.setCopy n r).meters = s.meters := rfl
@[simp] theorem State.setCopy_frames (n : Nat) (r : CopyRec) : (s.setCopy n r).frames = s.frames := rfl
@[simp] theorem State.setCopy_queues (n : Nat) (r : CopyRec) : (s.setCopy n r).queues = s.queues := rfl
@[simp] theorem State.setCopy_qm (n : Nat) (r : CopyRec) : (s.setCopy n r).qm = s.qm := rfl
@[simp] theorem State.setCopy_bufs (n : Nat) (r : CopyRec) : (s.setCopy n r).bufs = s.bufs := rfl
@[simp] theorem State.setCopy_epoch (n : Nat) (r : CopyRec) : (s.setCopy n r).epoch = s.epoch := rfl
@[simp] theorem State.setCopy_tiu (n : Nat) (r : CopyRec) : (s.setCopy n r).tiu = s.tiu := rfl
@[simp] theorem State.setCopy_cal (n : Nat) (r : CopyRec) : (s.setCopy n r).cal = s.cal := rfl
@[simp] theorem State.setCopy_ecc (n : Nat) (r : CopyRec) : (s.setCopy n r).ecc = s.ecc := rfl
@[simp] theorem State.setCopy_pair (n : Nat) (r : CopyRec) : (s.setCopy n r).pair = s.pair := rfl
@[simp] theorem State.setCopy_pwr (n : Nat) (r : CopyRec) : (s.setCopy n r).pwr = s.pwr := rfl
@[simp] theorem State.setCopy_ldr (n : Nat) (r : CopyRec) : (s.setCopy n r).ldr = s.ldr := rfl
@[simp] theorem State.setCopy_mgt (n : Nat) (r : CopyRec) : (s.setCopy n r).mgt = s.mgt := rfl
@[simp] theorem State.setCopy_escAt (n : Nat) (r : CopyRec) : (s.setCopy n r).escAt = s.escAt := rfl
@[simp] theorem State.setCopy_escDue (n : Nat) (r : CopyRec) : (s.setCopy n r).escDue = s.escDue := rfl
@[simp] theorem State.setCopy_freeNo (n : Nat) (r : CopyRec) : (s.setCopy n r).freeNo = s.freeNo := rfl
@[simp] theorem State.setCopy_out (n : Nat) (r : CopyRec) : (s.setCopy n r).out = s.out := rfl
@[simp] theorem State.setCopy_pending (n : Nat) (r : CopyRec) : (s.setCopy n r).pending = s.pending := rfl
@[simp] theorem State.setCopy_word (n : Nat) (r : CopyRec) (x : Reg) : (s.setCopy n r).word x = s.word x := rfl
@[simp] theorem State.setCopy_get (n : Nat) (r : CopyRec) (x : Fld) : (s.setCopy n r).get x = s.get x := rfl
@[simp] theorem State.setCopy_on (n : Nat) (r : CopyRec) (x : Fld) : (s.setCopy n r).on x = s.on x := rfl
@[simp] theorem State.setCopy_copyRec (n : Nat) (r : CopyRec) : (s.setCopy n r).copyRec n = r := smGet_set_same _ _ _ _
theorem State.setCopy_copyRec_other (n : Nat) (r : CopyRec) {k : Nat} (h : k ≠ n) : (s.setCopy n r).copyRec k = s.copyRec k := smGet_set_other _ _ _ _ h

/-! ### setQueue -/

@[simp] theorem State.setQueue_regs (n : Nat) (r : QRec) : (s.setQueue n r).regs = s.regs := rfl
@[simp] theorem State.setQueue_mem (n : Nat) (r : QRec) : (s.setQueue n r).mem = s.mem := rfl
@[simp] theorem State.setQueue_fram (n : Nat) (r : QRec) : (s.setQueue n r).fram = s.fram := rfl
@[simp] theorem State.setQueue_otp (n : Nat) (r : QRec) : (s.setQueue n r).otp = s.otp := rfl
@[simp] theorem State.setQueue_inReset (n : Nat) (r : QRec) : (s.setQueue n r).inReset = s.inReset := rfl
@[simp] theorem State.setQueue_now (n : Nat) (r : QRec) : (s.setQueue n r).now = s.now := rfl
@[simp] theorem State.setQueue_clk (n : Nat) (r : QRec) : (s.setQueue n r).clk = s.clk := rfl
@[simp] theorem State.setQueue_shadows (n : Nat) (r : QRec) : (s.setQueue n r).shadows = s.shadows := rfl
@[simp] theorem State.setQueue_stages (n : Nat) (r : QRec) : (s.setQueue n r).stages = s.stages := rfl
@[simp] theorem State.setQueue_syn (n : Nat) (r : QRec) : (s.setQueue n r).syn = s.syn := rfl
@[simp] theorem State.setQueue_outs (n : Nat) (r : QRec) : (s.setQueue n r).outs = s.outs := rfl
@[simp] theorem State.setQueue_pps (n : Nat) (r : QRec) : (s.setQueue n r).pps = s.pps := rfl
@[simp] theorem State.setQueue_refs (n : Nat) (r : QRec) : (s.setQueue n r).refs = s.refs := rfl
@[simp] theorem State.setQueue_sel (n : Nat) (r : QRec) : (s.setQueue n r).sel = s.sel := rfl
@[simp] theorem State.setQueue_ens (n : Nat) (r : QRec) : (s.setQueue n r).ens = s.ens := rfl
@[simp] theorem State.setQueue_tb (n : Nat) (r : QRec) : (s.setQueue n r).tb = s.tb := rfl
@[simp] theorem State.setQueue_lanes (n : Nat) (r : QRec) : (s.setQueue n r).lanes = s.lanes := rfl
@[simp] theorem State.setQueue_plls (n : Nat) (r : QRec) : (s.setQueue n r).plls = s.plls := rfl
@[simp] theorem State.setQueue_rcsHeld (n : Nat) (r : QRec) : (s.setQueue n r).rcsHeld = s.rcsHeld := rfl
@[simp] theorem State.setQueue_ports (n : Nat) (r : QRec) : (s.setQueue n r).ports = s.ports := rfl
@[simp] theorem State.setQueue_pha (n : Nat) (r : QRec) : (s.setQueue n r).pha = s.pha := rfl
@[simp] theorem State.setQueue_survey (n : Nat) (r : QRec) : (s.setQueue n r).survey = s.survey := rfl
@[simp] theorem State.setQueue_fm (n : Nat) (r : QRec) : (s.setQueue n r).fm = s.fm := rfl
@[simp] theorem State.setQueue_doms (n : Nat) (r : QRec) : (s.setQueue n r).doms = s.doms := rfl
@[simp] theorem State.setQueue_sess (n : Nat) (r : QRec) : (s.setQueue n r).sess = s.sess := rfl
@[simp] theorem State.setQueue_fwd (n : Nat) (r : QRec) : (s.setQueue n r).fwd = s.fwd := rfl
@[simp] theorem State.setQueue_meters (n : Nat) (r : QRec) : (s.setQueue n r).meters = s.meters := rfl
@[simp] theorem State.setQueue_frames (n : Nat) (r : QRec) : (s.setQueue n r).frames = s.frames := rfl
@[simp] theorem State.setQueue_copies (n : Nat) (r : QRec) : (s.setQueue n r).copies = s.copies := rfl
@[simp] theorem State.setQueue_qm (n : Nat) (r : QRec) : (s.setQueue n r).qm = s.qm := rfl
@[simp] theorem State.setQueue_bufs (n : Nat) (r : QRec) : (s.setQueue n r).bufs = s.bufs := rfl
@[simp] theorem State.setQueue_epoch (n : Nat) (r : QRec) : (s.setQueue n r).epoch = s.epoch := rfl
@[simp] theorem State.setQueue_tiu (n : Nat) (r : QRec) : (s.setQueue n r).tiu = s.tiu := rfl
@[simp] theorem State.setQueue_cal (n : Nat) (r : QRec) : (s.setQueue n r).cal = s.cal := rfl
@[simp] theorem State.setQueue_ecc (n : Nat) (r : QRec) : (s.setQueue n r).ecc = s.ecc := rfl
@[simp] theorem State.setQueue_pair (n : Nat) (r : QRec) : (s.setQueue n r).pair = s.pair := rfl
@[simp] theorem State.setQueue_pwr (n : Nat) (r : QRec) : (s.setQueue n r).pwr = s.pwr := rfl
@[simp] theorem State.setQueue_ldr (n : Nat) (r : QRec) : (s.setQueue n r).ldr = s.ldr := rfl
@[simp] theorem State.setQueue_mgt (n : Nat) (r : QRec) : (s.setQueue n r).mgt = s.mgt := rfl
@[simp] theorem State.setQueue_escAt (n : Nat) (r : QRec) : (s.setQueue n r).escAt = s.escAt := rfl
@[simp] theorem State.setQueue_escDue (n : Nat) (r : QRec) : (s.setQueue n r).escDue = s.escDue := rfl
@[simp] theorem State.setQueue_freeNo (n : Nat) (r : QRec) : (s.setQueue n r).freeNo = s.freeNo := rfl
@[simp] theorem State.setQueue_out (n : Nat) (r : QRec) : (s.setQueue n r).out = s.out := rfl
@[simp] theorem State.setQueue_pending (n : Nat) (r : QRec) : (s.setQueue n r).pending = s.pending := rfl
@[simp] theorem State.setQueue_word (n : Nat) (r : QRec) (x : Reg) : (s.setQueue n r).word x = s.word x := rfl
@[simp] theorem State.setQueue_get (n : Nat) (r : QRec) (x : Fld) : (s.setQueue n r).get x = s.get x := rfl
@[simp] theorem State.setQueue_on (n : Nat) (r : QRec) (x : Fld) : (s.setQueue n r).on x = s.on x := rfl
@[simp] theorem State.setQueue_queueRec (n : Nat) (r : QRec) : (s.setQueue n r).queueRec n = r := smGet_set_same _ _ _ _
theorem State.setQueue_queueRec_other (n : Nat) (r : QRec) {k : Nat} (h : k ≠ n) : (s.setQueue n r).queueRec k = s.queueRec k := smGet_set_other _ _ _ _ h

/-! ### setMeter -/

@[simp] theorem State.setMeter_regs (n : Nat) (r : MeterRec) : (s.setMeter n r).regs = s.regs := rfl
@[simp] theorem State.setMeter_mem (n : Nat) (r : MeterRec) : (s.setMeter n r).mem = s.mem := rfl
@[simp] theorem State.setMeter_fram (n : Nat) (r : MeterRec) : (s.setMeter n r).fram = s.fram := rfl
@[simp] theorem State.setMeter_otp (n : Nat) (r : MeterRec) : (s.setMeter n r).otp = s.otp := rfl
@[simp] theorem State.setMeter_inReset (n : Nat) (r : MeterRec) : (s.setMeter n r).inReset = s.inReset := rfl
@[simp] theorem State.setMeter_now (n : Nat) (r : MeterRec) : (s.setMeter n r).now = s.now := rfl
@[simp] theorem State.setMeter_clk (n : Nat) (r : MeterRec) : (s.setMeter n r).clk = s.clk := rfl
@[simp] theorem State.setMeter_shadows (n : Nat) (r : MeterRec) : (s.setMeter n r).shadows = s.shadows := rfl
@[simp] theorem State.setMeter_stages (n : Nat) (r : MeterRec) : (s.setMeter n r).stages = s.stages := rfl
@[simp] theorem State.setMeter_syn (n : Nat) (r : MeterRec) : (s.setMeter n r).syn = s.syn := rfl
@[simp] theorem State.setMeter_outs (n : Nat) (r : MeterRec) : (s.setMeter n r).outs = s.outs := rfl
@[simp] theorem State.setMeter_pps (n : Nat) (r : MeterRec) : (s.setMeter n r).pps = s.pps := rfl
@[simp] theorem State.setMeter_refs (n : Nat) (r : MeterRec) : (s.setMeter n r).refs = s.refs := rfl
@[simp] theorem State.setMeter_sel (n : Nat) (r : MeterRec) : (s.setMeter n r).sel = s.sel := rfl
@[simp] theorem State.setMeter_ens (n : Nat) (r : MeterRec) : (s.setMeter n r).ens = s.ens := rfl
@[simp] theorem State.setMeter_tb (n : Nat) (r : MeterRec) : (s.setMeter n r).tb = s.tb := rfl
@[simp] theorem State.setMeter_lanes (n : Nat) (r : MeterRec) : (s.setMeter n r).lanes = s.lanes := rfl
@[simp] theorem State.setMeter_plls (n : Nat) (r : MeterRec) : (s.setMeter n r).plls = s.plls := rfl
@[simp] theorem State.setMeter_rcsHeld (n : Nat) (r : MeterRec) : (s.setMeter n r).rcsHeld = s.rcsHeld := rfl
@[simp] theorem State.setMeter_ports (n : Nat) (r : MeterRec) : (s.setMeter n r).ports = s.ports := rfl
@[simp] theorem State.setMeter_pha (n : Nat) (r : MeterRec) : (s.setMeter n r).pha = s.pha := rfl
@[simp] theorem State.setMeter_survey (n : Nat) (r : MeterRec) : (s.setMeter n r).survey = s.survey := rfl
@[simp] theorem State.setMeter_fm (n : Nat) (r : MeterRec) : (s.setMeter n r).fm = s.fm := rfl
@[simp] theorem State.setMeter_doms (n : Nat) (r : MeterRec) : (s.setMeter n r).doms = s.doms := rfl
@[simp] theorem State.setMeter_sess (n : Nat) (r : MeterRec) : (s.setMeter n r).sess = s.sess := rfl
@[simp] theorem State.setMeter_fwd (n : Nat) (r : MeterRec) : (s.setMeter n r).fwd = s.fwd := rfl
@[simp] theorem State.setMeter_frames (n : Nat) (r : MeterRec) : (s.setMeter n r).frames = s.frames := rfl
@[simp] theorem State.setMeter_copies (n : Nat) (r : MeterRec) : (s.setMeter n r).copies = s.copies := rfl
@[simp] theorem State.setMeter_queues (n : Nat) (r : MeterRec) : (s.setMeter n r).queues = s.queues := rfl
@[simp] theorem State.setMeter_qm (n : Nat) (r : MeterRec) : (s.setMeter n r).qm = s.qm := rfl
@[simp] theorem State.setMeter_bufs (n : Nat) (r : MeterRec) : (s.setMeter n r).bufs = s.bufs := rfl
@[simp] theorem State.setMeter_epoch (n : Nat) (r : MeterRec) : (s.setMeter n r).epoch = s.epoch := rfl
@[simp] theorem State.setMeter_tiu (n : Nat) (r : MeterRec) : (s.setMeter n r).tiu = s.tiu := rfl
@[simp] theorem State.setMeter_cal (n : Nat) (r : MeterRec) : (s.setMeter n r).cal = s.cal := rfl
@[simp] theorem State.setMeter_ecc (n : Nat) (r : MeterRec) : (s.setMeter n r).ecc = s.ecc := rfl
@[simp] theorem State.setMeter_pair (n : Nat) (r : MeterRec) : (s.setMeter n r).pair = s.pair := rfl
@[simp] theorem State.setMeter_pwr (n : Nat) (r : MeterRec) : (s.setMeter n r).pwr = s.pwr := rfl
@[simp] theorem State.setMeter_ldr (n : Nat) (r : MeterRec) : (s.setMeter n r).ldr = s.ldr := rfl
@[simp] theorem State.setMeter_mgt (n : Nat) (r : MeterRec) : (s.setMeter n r).mgt = s.mgt := rfl
@[simp] theorem State.setMeter_escAt (n : Nat) (r : MeterRec) : (s.setMeter n r).escAt = s.escAt := rfl
@[simp] theorem State.setMeter_escDue (n : Nat) (r : MeterRec) : (s.setMeter n r).escDue = s.escDue := rfl
@[simp] theorem State.setMeter_freeNo (n : Nat) (r : MeterRec) : (s.setMeter n r).freeNo = s.freeNo := rfl
@[simp] theorem State.setMeter_out (n : Nat) (r : MeterRec) : (s.setMeter n r).out = s.out := rfl
@[simp] theorem State.setMeter_pending (n : Nat) (r : MeterRec) : (s.setMeter n r).pending = s.pending := rfl
@[simp] theorem State.setMeter_word (n : Nat) (r : MeterRec) (x : Reg) : (s.setMeter n r).word x = s.word x := rfl
@[simp] theorem State.setMeter_get (n : Nat) (r : MeterRec) (x : Fld) : (s.setMeter n r).get x = s.get x := rfl
@[simp] theorem State.setMeter_on (n : Nat) (r : MeterRec) (x : Fld) : (s.setMeter n r).on x = s.on x := rfl
@[simp] theorem State.setMeter_meterRec (n : Nat) (r : MeterRec) : (s.setMeter n r).meterRec n = r := smGet_set_same _ _ _ _
theorem State.setMeter_meterRec_other (n : Nat) (r : MeterRec) {k : Nat} (h : k ≠ n) : (s.setMeter n r).meterRec k = s.meterRec k := smGet_set_other _ _ _ _ h

/-! ### setOut -/

@[simp] theorem State.setOut_regs (n : Nat) (r : OutRec) : (s.setOut n r).regs = s.regs := rfl
@[simp] theorem State.setOut_mem (n : Nat) (r : OutRec) : (s.setOut n r).mem = s.mem := rfl
@[simp] theorem State.setOut_fram (n : Nat) (r : OutRec) : (s.setOut n r).fram = s.fram := rfl
@[simp] theorem State.setOut_otp (n : Nat) (r : OutRec) : (s.setOut n r).otp = s.otp := rfl
@[simp] theorem State.setOut_inReset (n : Nat) (r : OutRec) : (s.setOut n r).inReset = s.inReset := rfl
@[simp] theorem State.setOut_now (n : Nat) (r : OutRec) : (s.setOut n r).now = s.now := rfl
@[simp] theorem State.setOut_clk (n : Nat) (r : OutRec) : (s.setOut n r).clk = s.clk := rfl
@[simp] theorem State.setOut_shadows (n : Nat) (r : OutRec) : (s.setOut n r).shadows = s.shadows := rfl
@[simp] theorem State.setOut_stages (n : Nat) (r : OutRec) : (s.setOut n r).stages = s.stages := rfl
@[simp] theorem State.setOut_syn (n : Nat) (r : OutRec) : (s.setOut n r).syn = s.syn := rfl
@[simp] theorem State.setOut_pps (n : Nat) (r : OutRec) : (s.setOut n r).pps = s.pps := rfl
@[simp] theorem State.setOut_refs (n : Nat) (r : OutRec) : (s.setOut n r).refs = s.refs := rfl
@[simp] theorem State.setOut_sel (n : Nat) (r : OutRec) : (s.setOut n r).sel = s.sel := rfl
@[simp] theorem State.setOut_ens (n : Nat) (r : OutRec) : (s.setOut n r).ens = s.ens := rfl
@[simp] theorem State.setOut_tb (n : Nat) (r : OutRec) : (s.setOut n r).tb = s.tb := rfl
@[simp] theorem State.setOut_lanes (n : Nat) (r : OutRec) : (s.setOut n r).lanes = s.lanes := rfl
@[simp] theorem State.setOut_plls (n : Nat) (r : OutRec) : (s.setOut n r).plls = s.plls := rfl
@[simp] theorem State.setOut_rcsHeld (n : Nat) (r : OutRec) : (s.setOut n r).rcsHeld = s.rcsHeld := rfl
@[simp] theorem State.setOut_ports (n : Nat) (r : OutRec) : (s.setOut n r).ports = s.ports := rfl
@[simp] theorem State.setOut_pha (n : Nat) (r : OutRec) : (s.setOut n r).pha = s.pha := rfl
@[simp] theorem State.setOut_survey (n : Nat) (r : OutRec) : (s.setOut n r).survey = s.survey := rfl
@[simp] theorem State.setOut_fm (n : Nat) (r : OutRec) : (s.setOut n r).fm = s.fm := rfl
@[simp] theorem State.setOut_doms (n : Nat) (r : OutRec) : (s.setOut n r).doms = s.doms := rfl
@[simp] theorem State.setOut_sess (n : Nat) (r : OutRec) : (s.setOut n r).sess = s.sess := rfl
@[simp] theorem State.setOut_fwd (n : Nat) (r : OutRec) : (s.setOut n r).fwd = s.fwd := rfl
@[simp] theorem State.setOut_meters (n : Nat) (r : OutRec) : (s.setOut n r).meters = s.meters := rfl
@[simp] theorem State.setOut_frames (n : Nat) (r : OutRec) : (s.setOut n r).frames = s.frames := rfl
@[simp] theorem State.setOut_copies (n : Nat) (r : OutRec) : (s.setOut n r).copies = s.copies := rfl
@[simp] theorem State.setOut_queues (n : Nat) (r : OutRec) : (s.setOut n r).queues = s.queues := rfl
@[simp] theorem State.setOut_qm (n : Nat) (r : OutRec) : (s.setOut n r).qm = s.qm := rfl
@[simp] theorem State.setOut_bufs (n : Nat) (r : OutRec) : (s.setOut n r).bufs = s.bufs := rfl
@[simp] theorem State.setOut_epoch (n : Nat) (r : OutRec) : (s.setOut n r).epoch = s.epoch := rfl
@[simp] theorem State.setOut_tiu (n : Nat) (r : OutRec) : (s.setOut n r).tiu = s.tiu := rfl
@[simp] theorem State.setOut_cal (n : Nat) (r : OutRec) : (s.setOut n r).cal = s.cal := rfl
@[simp] theorem State.setOut_ecc (n : Nat) (r : OutRec) : (s.setOut n r).ecc = s.ecc := rfl
@[simp] theorem State.setOut_pair (n : Nat) (r : OutRec) : (s.setOut n r).pair = s.pair := rfl
@[simp] theorem State.setOut_pwr (n : Nat) (r : OutRec) : (s.setOut n r).pwr = s.pwr := rfl
@[simp] theorem State.setOut_ldr (n : Nat) (r : OutRec) : (s.setOut n r).ldr = s.ldr := rfl
@[simp] theorem State.setOut_mgt (n : Nat) (r : OutRec) : (s.setOut n r).mgt = s.mgt := rfl
@[simp] theorem State.setOut_escAt (n : Nat) (r : OutRec) : (s.setOut n r).escAt = s.escAt := rfl
@[simp] theorem State.setOut_escDue (n : Nat) (r : OutRec) : (s.setOut n r).escDue = s.escDue := rfl
@[simp] theorem State.setOut_freeNo (n : Nat) (r : OutRec) : (s.setOut n r).freeNo = s.freeNo := rfl
@[simp] theorem State.setOut_out (n : Nat) (r : OutRec) : (s.setOut n r).out = s.out := rfl
@[simp] theorem State.setOut_pending (n : Nat) (r : OutRec) : (s.setOut n r).pending = s.pending := rfl
@[simp] theorem State.setOut_word (n : Nat) (r : OutRec) (x : Reg) : (s.setOut n r).word x = s.word x := rfl
@[simp] theorem State.setOut_get (n : Nat) (r : OutRec) (x : Fld) : (s.setOut n r).get x = s.get x := rfl
@[simp] theorem State.setOut_on (n : Nat) (r : OutRec) (x : Fld) : (s.setOut n r).on x = s.on x := rfl
@[simp] theorem State.setOut_outRec (n : Nat) (r : OutRec) : (s.setOut n r).outRec n = r := smGet_set_same _ _ _ _
theorem State.setOut_outRec_other (n : Nat) (r : OutRec) {k : Nat} (h : k ≠ n) : (s.setOut n r).outRec k = s.outRec k := smGet_set_other _ _ _ _ h

/-! ### setPps -/

@[simp] theorem State.setPps_regs (n : Nat) (r : PpsRec) : (s.setPps n r).regs = s.regs := rfl
@[simp] theorem State.setPps_mem (n : Nat) (r : PpsRec) : (s.setPps n r).mem = s.mem := rfl
@[simp] theorem State.setPps_fram (n : Nat) (r : PpsRec) : (s.setPps n r).fram = s.fram := rfl
@[simp] theorem State.setPps_otp (n : Nat) (r : PpsRec) : (s.setPps n r).otp = s.otp := rfl
@[simp] theorem State.setPps_inReset (n : Nat) (r : PpsRec) : (s.setPps n r).inReset = s.inReset := rfl
@[simp] theorem State.setPps_now (n : Nat) (r : PpsRec) : (s.setPps n r).now = s.now := rfl
@[simp] theorem State.setPps_clk (n : Nat) (r : PpsRec) : (s.setPps n r).clk = s.clk := rfl
@[simp] theorem State.setPps_shadows (n : Nat) (r : PpsRec) : (s.setPps n r).shadows = s.shadows := rfl
@[simp] theorem State.setPps_stages (n : Nat) (r : PpsRec) : (s.setPps n r).stages = s.stages := rfl
@[simp] theorem State.setPps_syn (n : Nat) (r : PpsRec) : (s.setPps n r).syn = s.syn := rfl
@[simp] theorem State.setPps_outs (n : Nat) (r : PpsRec) : (s.setPps n r).outs = s.outs := rfl
@[simp] theorem State.setPps_refs (n : Nat) (r : PpsRec) : (s.setPps n r).refs = s.refs := rfl
@[simp] theorem State.setPps_sel (n : Nat) (r : PpsRec) : (s.setPps n r).sel = s.sel := rfl
@[simp] theorem State.setPps_ens (n : Nat) (r : PpsRec) : (s.setPps n r).ens = s.ens := rfl
@[simp] theorem State.setPps_tb (n : Nat) (r : PpsRec) : (s.setPps n r).tb = s.tb := rfl
@[simp] theorem State.setPps_lanes (n : Nat) (r : PpsRec) : (s.setPps n r).lanes = s.lanes := rfl
@[simp] theorem State.setPps_plls (n : Nat) (r : PpsRec) : (s.setPps n r).plls = s.plls := rfl
@[simp] theorem State.setPps_rcsHeld (n : Nat) (r : PpsRec) : (s.setPps n r).rcsHeld = s.rcsHeld := rfl
@[simp] theorem State.setPps_ports (n : Nat) (r : PpsRec) : (s.setPps n r).ports = s.ports := rfl
@[simp] theorem State.setPps_pha (n : Nat) (r : PpsRec) : (s.setPps n r).pha = s.pha := rfl
@[simp] theorem State.setPps_survey (n : Nat) (r : PpsRec) : (s.setPps n r).survey = s.survey := rfl
@[simp] theorem State.setPps_fm (n : Nat) (r : PpsRec) : (s.setPps n r).fm = s.fm := rfl
@[simp] theorem State.setPps_doms (n : Nat) (r : PpsRec) : (s.setPps n r).doms = s.doms := rfl
@[simp] theorem State.setPps_sess (n : Nat) (r : PpsRec) : (s.setPps n r).sess = s.sess := rfl
@[simp] theorem State.setPps_fwd (n : Nat) (r : PpsRec) : (s.setPps n r).fwd = s.fwd := rfl
@[simp] theorem State.setPps_meters (n : Nat) (r : PpsRec) : (s.setPps n r).meters = s.meters := rfl
@[simp] theorem State.setPps_frames (n : Nat) (r : PpsRec) : (s.setPps n r).frames = s.frames := rfl
@[simp] theorem State.setPps_copies (n : Nat) (r : PpsRec) : (s.setPps n r).copies = s.copies := rfl
@[simp] theorem State.setPps_queues (n : Nat) (r : PpsRec) : (s.setPps n r).queues = s.queues := rfl
@[simp] theorem State.setPps_qm (n : Nat) (r : PpsRec) : (s.setPps n r).qm = s.qm := rfl
@[simp] theorem State.setPps_bufs (n : Nat) (r : PpsRec) : (s.setPps n r).bufs = s.bufs := rfl
@[simp] theorem State.setPps_epoch (n : Nat) (r : PpsRec) : (s.setPps n r).epoch = s.epoch := rfl
@[simp] theorem State.setPps_tiu (n : Nat) (r : PpsRec) : (s.setPps n r).tiu = s.tiu := rfl
@[simp] theorem State.setPps_cal (n : Nat) (r : PpsRec) : (s.setPps n r).cal = s.cal := rfl
@[simp] theorem State.setPps_ecc (n : Nat) (r : PpsRec) : (s.setPps n r).ecc = s.ecc := rfl
@[simp] theorem State.setPps_pair (n : Nat) (r : PpsRec) : (s.setPps n r).pair = s.pair := rfl
@[simp] theorem State.setPps_pwr (n : Nat) (r : PpsRec) : (s.setPps n r).pwr = s.pwr := rfl
@[simp] theorem State.setPps_ldr (n : Nat) (r : PpsRec) : (s.setPps n r).ldr = s.ldr := rfl
@[simp] theorem State.setPps_mgt (n : Nat) (r : PpsRec) : (s.setPps n r).mgt = s.mgt := rfl
@[simp] theorem State.setPps_escAt (n : Nat) (r : PpsRec) : (s.setPps n r).escAt = s.escAt := rfl
@[simp] theorem State.setPps_escDue (n : Nat) (r : PpsRec) : (s.setPps n r).escDue = s.escDue := rfl
@[simp] theorem State.setPps_freeNo (n : Nat) (r : PpsRec) : (s.setPps n r).freeNo = s.freeNo := rfl
@[simp] theorem State.setPps_out (n : Nat) (r : PpsRec) : (s.setPps n r).out = s.out := rfl
@[simp] theorem State.setPps_pending (n : Nat) (r : PpsRec) : (s.setPps n r).pending = s.pending := rfl
@[simp] theorem State.setPps_word (n : Nat) (r : PpsRec) (x : Reg) : (s.setPps n r).word x = s.word x := rfl
@[simp] theorem State.setPps_get (n : Nat) (r : PpsRec) (x : Fld) : (s.setPps n r).get x = s.get x := rfl
@[simp] theorem State.setPps_on (n : Nat) (r : PpsRec) (x : Fld) : (s.setPps n r).on x = s.on x := rfl
@[simp] theorem State.setPps_ppsRec (n : Nat) (r : PpsRec) : (s.setPps n r).ppsRec n = r := smGet_set_same _ _ _ _
theorem State.setPps_ppsRec_other (n : Nat) (r : PpsRec) {k : Nat} (h : k ≠ n) : (s.setPps n r).ppsRec k = s.ppsRec k := smGet_set_other _ _ _ _ h

/-! ### setBuf -/

@[simp] theorem State.setBuf_regs (p i : Nat) (b : BufRec) : (s.setBuf p i b).regs = s.regs := rfl
@[simp] theorem State.setBuf_mem (p i : Nat) (b : BufRec) : (s.setBuf p i b).mem = s.mem := rfl
@[simp] theorem State.setBuf_fram (p i : Nat) (b : BufRec) : (s.setBuf p i b).fram = s.fram := rfl
@[simp] theorem State.setBuf_otp (p i : Nat) (b : BufRec) : (s.setBuf p i b).otp = s.otp := rfl
@[simp] theorem State.setBuf_inReset (p i : Nat) (b : BufRec) : (s.setBuf p i b).inReset = s.inReset := rfl
@[simp] theorem State.setBuf_now (p i : Nat) (b : BufRec) : (s.setBuf p i b).now = s.now := rfl
@[simp] theorem State.setBuf_clk (p i : Nat) (b : BufRec) : (s.setBuf p i b).clk = s.clk := rfl
@[simp] theorem State.setBuf_shadows (p i : Nat) (b : BufRec) : (s.setBuf p i b).shadows = s.shadows := rfl
@[simp] theorem State.setBuf_stages (p i : Nat) (b : BufRec) : (s.setBuf p i b).stages = s.stages := rfl
@[simp] theorem State.setBuf_syn (p i : Nat) (b : BufRec) : (s.setBuf p i b).syn = s.syn := rfl
@[simp] theorem State.setBuf_outs (p i : Nat) (b : BufRec) : (s.setBuf p i b).outs = s.outs := rfl
@[simp] theorem State.setBuf_pps (p i : Nat) (b : BufRec) : (s.setBuf p i b).pps = s.pps := rfl
@[simp] theorem State.setBuf_refs (p i : Nat) (b : BufRec) : (s.setBuf p i b).refs = s.refs := rfl
@[simp] theorem State.setBuf_sel (p i : Nat) (b : BufRec) : (s.setBuf p i b).sel = s.sel := rfl
@[simp] theorem State.setBuf_ens (p i : Nat) (b : BufRec) : (s.setBuf p i b).ens = s.ens := rfl
@[simp] theorem State.setBuf_tb (p i : Nat) (b : BufRec) : (s.setBuf p i b).tb = s.tb := rfl
@[simp] theorem State.setBuf_lanes (p i : Nat) (b : BufRec) : (s.setBuf p i b).lanes = s.lanes := rfl
@[simp] theorem State.setBuf_plls (p i : Nat) (b : BufRec) : (s.setBuf p i b).plls = s.plls := rfl
@[simp] theorem State.setBuf_rcsHeld (p i : Nat) (b : BufRec) : (s.setBuf p i b).rcsHeld = s.rcsHeld := rfl
@[simp] theorem State.setBuf_ports (p i : Nat) (b : BufRec) : (s.setBuf p i b).ports = s.ports := rfl
@[simp] theorem State.setBuf_pha (p i : Nat) (b : BufRec) : (s.setBuf p i b).pha = s.pha := rfl
@[simp] theorem State.setBuf_survey (p i : Nat) (b : BufRec) : (s.setBuf p i b).survey = s.survey := rfl
@[simp] theorem State.setBuf_fm (p i : Nat) (b : BufRec) : (s.setBuf p i b).fm = s.fm := rfl
@[simp] theorem State.setBuf_doms (p i : Nat) (b : BufRec) : (s.setBuf p i b).doms = s.doms := rfl
@[simp] theorem State.setBuf_sess (p i : Nat) (b : BufRec) : (s.setBuf p i b).sess = s.sess := rfl
@[simp] theorem State.setBuf_fwd (p i : Nat) (b : BufRec) : (s.setBuf p i b).fwd = s.fwd := rfl
@[simp] theorem State.setBuf_meters (p i : Nat) (b : BufRec) : (s.setBuf p i b).meters = s.meters := rfl
@[simp] theorem State.setBuf_frames (p i : Nat) (b : BufRec) : (s.setBuf p i b).frames = s.frames := rfl
@[simp] theorem State.setBuf_copies (p i : Nat) (b : BufRec) : (s.setBuf p i b).copies = s.copies := rfl
@[simp] theorem State.setBuf_queues (p i : Nat) (b : BufRec) : (s.setBuf p i b).queues = s.queues := rfl
@[simp] theorem State.setBuf_qm (p i : Nat) (b : BufRec) : (s.setBuf p i b).qm = s.qm := rfl
@[simp] theorem State.setBuf_epoch (p i : Nat) (b : BufRec) : (s.setBuf p i b).epoch = s.epoch := rfl
@[simp] theorem State.setBuf_tiu (p i : Nat) (b : BufRec) : (s.setBuf p i b).tiu = s.tiu := rfl
@[simp] theorem State.setBuf_cal (p i : Nat) (b : BufRec) : (s.setBuf p i b).cal = s.cal := rfl
@[simp] theorem State.setBuf_ecc (p i : Nat) (b : BufRec) : (s.setBuf p i b).ecc = s.ecc := rfl
@[simp] theorem State.setBuf_pair (p i : Nat) (b : BufRec) : (s.setBuf p i b).pair = s.pair := rfl
@[simp] theorem State.setBuf_pwr (p i : Nat) (b : BufRec) : (s.setBuf p i b).pwr = s.pwr := rfl
@[simp] theorem State.setBuf_ldr (p i : Nat) (b : BufRec) : (s.setBuf p i b).ldr = s.ldr := rfl
@[simp] theorem State.setBuf_mgt (p i : Nat) (b : BufRec) : (s.setBuf p i b).mgt = s.mgt := rfl
@[simp] theorem State.setBuf_escAt (p i : Nat) (b : BufRec) : (s.setBuf p i b).escAt = s.escAt := rfl
@[simp] theorem State.setBuf_escDue (p i : Nat) (b : BufRec) : (s.setBuf p i b).escDue = s.escDue := rfl
@[simp] theorem State.setBuf_freeNo (p i : Nat) (b : BufRec) : (s.setBuf p i b).freeNo = s.freeNo := rfl
@[simp] theorem State.setBuf_out (p i : Nat) (b : BufRec) : (s.setBuf p i b).out = s.out := rfl
@[simp] theorem State.setBuf_pending (p i : Nat) (b : BufRec) : (s.setBuf p i b).pending = s.pending := rfl
@[simp] theorem State.setBuf_word (p i : Nat) (b : BufRec) (x : Reg) : (s.setBuf p i b).word x = s.word x := rfl
@[simp] theorem State.setBuf_get (p i : Nat) (b : BufRec) (x : Fld) : (s.setBuf p i b).get x = s.get x := rfl
@[simp] theorem State.setBuf_on (p i : Nat) (b : BufRec) (x : Fld) : (s.setBuf p i b).on x = s.on x := rfl

/-! ### setByte -/

@[simp] theorem State.setByte_regs (a : Nat) (b : Byte) : (s.setByte a b).regs = s.regs := rfl
@[simp] theorem State.setByte_fram (a : Nat) (b : Byte) : (s.setByte a b).fram = s.fram := rfl
@[simp] theorem State.setByte_otp (a : Nat) (b : Byte) : (s.setByte a b).otp = s.otp := rfl
@[simp] theorem State.setByte_inReset (a : Nat) (b : Byte) : (s.setByte a b).inReset = s.inReset := rfl
@[simp] theorem State.setByte_now (a : Nat) (b : Byte) : (s.setByte a b).now = s.now := rfl
@[simp] theorem State.setByte_clk (a : Nat) (b : Byte) : (s.setByte a b).clk = s.clk := rfl
@[simp] theorem State.setByte_shadows (a : Nat) (b : Byte) : (s.setByte a b).shadows = s.shadows := rfl
@[simp] theorem State.setByte_stages (a : Nat) (b : Byte) : (s.setByte a b).stages = s.stages := rfl
@[simp] theorem State.setByte_syn (a : Nat) (b : Byte) : (s.setByte a b).syn = s.syn := rfl
@[simp] theorem State.setByte_outs (a : Nat) (b : Byte) : (s.setByte a b).outs = s.outs := rfl
@[simp] theorem State.setByte_pps (a : Nat) (b : Byte) : (s.setByte a b).pps = s.pps := rfl
@[simp] theorem State.setByte_refs (a : Nat) (b : Byte) : (s.setByte a b).refs = s.refs := rfl
@[simp] theorem State.setByte_sel (a : Nat) (b : Byte) : (s.setByte a b).sel = s.sel := rfl
@[simp] theorem State.setByte_ens (a : Nat) (b : Byte) : (s.setByte a b).ens = s.ens := rfl
@[simp] theorem State.setByte_tb (a : Nat) (b : Byte) : (s.setByte a b).tb = s.tb := rfl
@[simp] theorem State.setByte_lanes (a : Nat) (b : Byte) : (s.setByte a b).lanes = s.lanes := rfl
@[simp] theorem State.setByte_plls (a : Nat) (b : Byte) : (s.setByte a b).plls = s.plls := rfl
@[simp] theorem State.setByte_rcsHeld (a : Nat) (b : Byte) : (s.setByte a b).rcsHeld = s.rcsHeld := rfl
@[simp] theorem State.setByte_ports (a : Nat) (b : Byte) : (s.setByte a b).ports = s.ports := rfl
@[simp] theorem State.setByte_pha (a : Nat) (b : Byte) : (s.setByte a b).pha = s.pha := rfl
@[simp] theorem State.setByte_survey (a : Nat) (b : Byte) : (s.setByte a b).survey = s.survey := rfl
@[simp] theorem State.setByte_fm (a : Nat) (b : Byte) : (s.setByte a b).fm = s.fm := rfl
@[simp] theorem State.setByte_doms (a : Nat) (b : Byte) : (s.setByte a b).doms = s.doms := rfl
@[simp] theorem State.setByte_sess (a : Nat) (b : Byte) : (s.setByte a b).sess = s.sess := rfl
@[simp] theorem State.setByte_fwd (a : Nat) (b : Byte) : (s.setByte a b).fwd = s.fwd := rfl
@[simp] theorem State.setByte_meters (a : Nat) (b : Byte) : (s.setByte a b).meters = s.meters := rfl
@[simp] theorem State.setByte_frames (a : Nat) (b : Byte) : (s.setByte a b).frames = s.frames := rfl
@[simp] theorem State.setByte_copies (a : Nat) (b : Byte) : (s.setByte a b).copies = s.copies := rfl
@[simp] theorem State.setByte_queues (a : Nat) (b : Byte) : (s.setByte a b).queues = s.queues := rfl
@[simp] theorem State.setByte_qm (a : Nat) (b : Byte) : (s.setByte a b).qm = s.qm := rfl
@[simp] theorem State.setByte_bufs (a : Nat) (b : Byte) : (s.setByte a b).bufs = s.bufs := rfl
@[simp] theorem State.setByte_epoch (a : Nat) (b : Byte) : (s.setByte a b).epoch = s.epoch := rfl
@[simp] theorem State.setByte_tiu (a : Nat) (b : Byte) : (s.setByte a b).tiu = s.tiu := rfl
@[simp] theorem State.setByte_cal (a : Nat) (b : Byte) : (s.setByte a b).cal = s.cal := rfl
@[simp] theorem State.setByte_ecc (a : Nat) (b : Byte) : (s.setByte a b).ecc = s.ecc := rfl
@[simp] theorem State.setByte_pair (a : Nat) (b : Byte) : (s.setByte a b).pair = s.pair := rfl
@[simp] theorem State.setByte_pwr (a : Nat) (b : Byte) : (s.setByte a b).pwr = s.pwr := rfl
@[simp] theorem State.setByte_ldr (a : Nat) (b : Byte) : (s.setByte a b).ldr = s.ldr := rfl
@[simp] theorem State.setByte_mgt (a : Nat) (b : Byte) : (s.setByte a b).mgt = s.mgt := rfl
@[simp] theorem State.setByte_escAt (a : Nat) (b : Byte) : (s.setByte a b).escAt = s.escAt := rfl
@[simp] theorem State.setByte_escDue (a : Nat) (b : Byte) : (s.setByte a b).escDue = s.escDue := rfl
@[simp] theorem State.setByte_freeNo (a : Nat) (b : Byte) : (s.setByte a b).freeNo = s.freeNo := rfl
@[simp] theorem State.setByte_out (a : Nat) (b : Byte) : (s.setByte a b).out = s.out := rfl
@[simp] theorem State.setByte_pending (a : Nat) (b : Byte) : (s.setByte a b).pending = s.pending := rfl
@[simp] theorem State.setByte_word (a : Nat) (b : Byte) (x : Reg) : (s.setByte a b).word x = s.word x := rfl
@[simp] theorem State.setByte_get (a : Nat) (b : Byte) (x : Fld) : (s.setByte a b).get x = s.get x := rfl
@[simp] theorem State.setByte_on (a : Nat) (b : Byte) (x : Fld) : (s.setByte a b).on x = s.on x := rfl

end Sys2Proof.Machine
end

