-- ==== Sys2Proof/Laws/Registers.lean ====
section
/-!
SUPPORT. Laws of the register file: words, fields and wide values read as they were written, and every other one as before.
-/

namespace Sys2Proof.Machine

/-! ### Words -/

theorem State.word_congr {s t : State} (h : t.regs = s.regs) (r : Reg) : t.word r = s.word r := by
  simp [State.word, h]

@[simp] theorem State.word_setWord_same (s : State) (r : Reg) (w : Word) : (s.setWord r w).word r = w :=
  smGet_set_same _ _ _ _

theorem State.word_setWord_other (s : State) {r r' : Reg} (w : Word) (h : r'.addr ≠ r.addr) :
    (s.setWord r w).word r' = s.word r' :=
  smGet_set_other _ _ _ _ h

/-! ### Bits of a word -/

/-- Bit `i` of a word with a field replaced. -/
theorem getLsbD_insertBits (w : Word) (lsb width v i : Nat) (hi : i < 32) :
    (insertBits w lsb width v).getLsbD i =
      if lsb ≤ i ∧ i < lsb + width then v.testBit (i - lsb) else w.getLsbD i := by
  unfold insertBits
  simp only [BitVec.getLsbD_or, BitVec.getLsbD_and, BitVec.getLsbD_not, BitVec.getLsbD_shiftLeft, BitVec.getLsbD_ofNat,
    Nat.testBit_mod_two_pow, Nat.testBit_two_pow_sub_one, hi, decide_true, Bool.true_and]
  have h32 : i - lsb < 32 := by omega
  by_cases h1 : lsb ≤ i
  · by_cases h2 : i < lsb + width
    · have h3 : i - lsb < width := by omega
      simp [h1, h2, h3, h32, Nat.not_lt.2 h1]
    · have h3 : ¬ i - lsb < width := by omega
      simp [h2, h3, Nat.not_lt.2 h1]
  · simp [h1, Nat.lt_of_not_le h1]

/-- A number below 2 ^ width from its bits. -/
theorem testBit_extractBits (w : Word) (lsb width i : Nat) :
    (extractBits w lsb width).testBit i = (decide (i < width) && w.getLsbD (lsb + i)) := by
  unfold extractBits
  rw [Nat.testBit_mod_two_pow, Nat.testBit_div_two_pow, Nat.add_comm, BitVec.testBit_toNat]

theorem extract_insert_same (w : Word) {lsb width : Nat} (v : Nat) (h : lsb + width ≤ 32) :
    extractBits (insertBits w lsb width v) lsb width = v % 2 ^ width := by
  apply Nat.eq_of_testBit_eq
  intro i
  rw [testBit_extractBits, Nat.testBit_mod_two_pow]
  by_cases hi : i < width
  · rw [getLsbD_insertBits _ _ _ _ _ (by omega), if_pos ⟨by omega, by omega⟩]
    simp
  · simp [hi]

theorem extract_insert_other (w : Word) {lsb width lsb' width' : Nat} (v : Nat) (h : lsb + width ≤ 32)
    (hd : lsb + width ≤ lsb' ∨ lsb' + width' ≤ lsb) :
    extractBits (insertBits w lsb' width' v) lsb width = extractBits w lsb width := by
  apply Nat.eq_of_testBit_eq
  intro i
  rw [testBit_extractBits, testBit_extractBits]
  by_cases hi : i < width
  · rw [getLsbD_insertBits _ _ _ _ _ (by omega), if_neg (by omega)]
  · simp [hi]

/-! ### Fields -/

/-- A field of the word written reads from that word. -/
theorem State.get_setWord_same (s : State) (f : Fld) (w : Word) : (s.setWord f.reg w).get f = extractBits w f.lsb f.width := by
  simp [State.get]

theorem State.get_setWord_other (s : State) {f : Fld} {r : Reg} (w : Word) (h : f.reg.addr ≠ r.addr) :
    (s.setWord r w).get f = s.get f := by
  simp only [State.get, State.word_setWord_other s w h]

/-- A field reads the low bits of what was put into it. -/
theorem State.get_put_same (s : State) (f : Fld) (v : Nat) (h : f.lsb + f.width ≤ 32) :
    (s.put f v).get f = v % 2 ^ f.width := by
  unfold State.put
  rw [State.get_setWord_same, extract_insert_same _ _ h]

/-- A field of another register keeps its value. -/
theorem State.get_put_reg (s : State) {f g : Fld} (v : Nat) (h : f.reg.addr ≠ g.reg.addr) : (s.put g v).get f = s.get f :=
  State.get_setWord_other s _ h

/-- A field of the same register that shares no bit keeps its value. -/
theorem State.get_put_bits (s : State) {f g : Fld} (v : Nat) (hr : f.reg = g.reg) (h : f.lsb + f.width ≤ 32)
    (hd : f.lsb + f.width ≤ g.lsb ∨ g.lsb + g.width ≤ f.lsb) : (s.put g v).get f = s.get f := by
  unfold State.put
  rw [← hr, State.get_setWord_same, State.get, extract_insert_other _ _ h hd]

theorem State.word_put_other (s : State) {r : Reg} {f : Fld} (v : Nat) (h : r.addr ≠ f.reg.addr) :
    (s.put f v).word r = s.word r := State.word_setWord_other s _ h

/-- Two fields that share no bit: other registers, or other places of one register. -/
def Fld.Apart (f g : Fld) : Prop :=
  f.reg.addr ≠ g.reg.addr ∨ (f.reg = g.reg ∧ f.lsb + f.width ≤ 32 ∧ (f.lsb + f.width ≤ g.lsb ∨ g.lsb + g.width ≤ f.lsb))

/-- A field keeps its value when one apart from it is written. -/
theorem State.get_put_apart (s : State) {f g : Fld} (v : Nat) (h : f.Apart g) : (s.put g v).get f = s.get f := by
  rcases h with h | ⟨hr, hf, hd⟩
  · exact State.get_put_reg s v h
  · exact State.get_put_bits s v hr hf hd

/-! ### The other forms of writing a field -/

theorem State.putB_eq (s : State) (f : Fld) (b : Bool) : s.putB f b = s.put f (if b then 1 else 0) := rfl
theorem State.puti_eq (s : State) (f : Fld) (v : Int) : s.puti f v = s.put f (v % (2 ^ f.width : Int)).toNat := rfl
theorem State.ev_eq (s : State) (f : Fld) : s.ev f = s.put f 1 := rfl
theorem State.count_eq (s : State) (f : Fld) (n : Nat) : s.count f n = s.put f (s.get f + n) := rfl
theorem State.countSat_eq (s : State) (f : Fld) (n : Nat) :
    s.countSat f n = s.put f (min (s.get f + n) (2 ^ f.width - 1)) := rfl
theorem State.putBit_eq (s : State) (f : Fld) (k : Nat) (b : Bool) :
    s.putBit f k b = s.put ⟨f.reg, f.lsb + k, 1⟩ (if b then 1 else 0) := rfl

/-- An event bit reads 1 once it is set. -/
theorem State.get_ev_same (s : State) (f : Fld) (h : f.lsb + f.width ≤ 32) (hw : 0 < f.width) : (s.ev f).get f = 1 := by
  rw [State.ev_eq, State.get_put_same s f 1 h]
  exact Nat.mod_eq_of_lt (Nat.one_lt_two_pow (by omega))

/-- A counter wraps at its width. -/
theorem State.get_count_same (s : State) (f : Fld) (n : Nat) (h : f.lsb + f.width ≤ 32) :
    (s.count f n).get f = (s.get f + n) % 2 ^ f.width := State.get_put_same s f _ h

/-- A field's value fits its width. -/
theorem State.get_lt (s : State) (f : Fld) : s.get f < 2 ^ f.width := Nat.mod_lt _ (Nat.two_pow_pos _)

/-! ### Wide values -/

theorem State.wideFrom_congr {s t : State} (w : Wide) (n k : Nat)
    (h : ∀ j, k ≤ j → j < k + n → t.word (w.word j) = s.word (w.word j)) : t.wideFrom w n k = s.wideFrom w n k := by
  induction n generalizing k with
  | zero => rfl
  | succ n ih =>
    simp only [State.wideFrom]
    rw [h k (Nat.le_refl k) (by omega), ih (k + 1) (fun j h1 h2 => h j (by omega) (by omega))]

theorem State.word_putWideFrom_other (s : State) (w : Wide) (n k v : Nat) {r : Reg}
    (h : ∀ j, k ≤ j → j < k + n → r.addr ≠ w.addr + 4 * j) : (s.putWideFrom w n k v).word r = s.word r := by
  induction n generalizing s k v with
  | zero => rfl
  | succ n ih =>
    simp only [State.putWideFrom]
    rw [ih _ _ _ (fun j h1 h2 => h j (by omega) (by omega)), State.word_setWord_other _ _ (h k (Nat.le_refl k) (by omega))]

/-- A register outside a wide value keeps its word. -/
theorem State.word_putWide_other (s : State) (w : Wide) (v : Nat) {r : Reg}
    (h : r.addr < w.addr ∨ w.addr + 4 * w.words ≤ r.addr) : (s.putWide w v).word r = s.word r :=
  State.word_putWideFrom_other s w _ _ v (fun j _ h2 => by omega)

theorem State.wideFrom_putWideFrom (s : State) (w : Wide) (n k v : Nat) :
    (s.putWideFrom w n k v).wideFrom w n k = v % 2 ^ (32 * n) := by
  induction n generalizing s k v with
  | zero => simp [State.wideFrom, Nat.mod_one]
  | succ n ih =>
    simp only [State.putWideFrom, State.wideFrom]
    rw [ih, State.word_putWideFrom_other _ _ _ _ _ (fun j h1 _ => by simp only [Wide.word]; omega), State.word_setWord_same]
    simp only [BitVec.toNat_ofNat]
    rw [show 32 * (n + 1) = 32 + 32 * n by ring, Nat.pow_add, Nat.mod_mul]

/-- A wide value reads what was written to it, in its words' width (R10). -/
theorem State.wide_putWide (s : State) (w : Wide) (v : Nat) : (s.putWide w v).wide w = v % 2 ^ (32 * w.words) :=
  State.wideFrom_putWideFrom s w _ _ v

theorem State.wideFrom_lt (s : State) (w : Wide) (n k : Nat) : s.wideFrom w n k < 2 ^ (32 * n) := by
  induction n generalizing k with
  | zero => simp [State.wideFrom]
  | succ n ih =>
    have h1 := ih (k + 1)
    have h2 := (s.word (w.word k)).isLt
    simp only [State.wideFrom]
    rw [show 32 * (n + 1) = 32 + 32 * n by ring, Nat.pow_add]
    calc _ < 2 ^ 32 + 2 ^ 32 * s.wideFrom w n (k + 1) := by omega
      _ = 2 ^ 32 * (s.wideFrom w n (k + 1) + 1) := by ring
      _ ≤ _ := Nat.mul_le_mul_left _ h1

/-- A wide value fits its words. -/
theorem State.wide_lt (s : State) (w : Wide) : s.wide w < 2 ^ (32 * w.words) := State.wideFrom_lt s w _ _

theorem State.get_putWide_other (s : State) (w : Wide) (v : Nat) {f : Fld}
    (h : f.reg.addr < w.addr ∨ w.addr + 4 * w.words ≤ f.reg.addr) : (s.putWide w v).get f = s.get f := by
  simp only [State.get, State.word_putWide_other s w v h]

end Sys2Proof.Machine
end

