-- ==== Sys2Proof/Laws/Memory.lean ====
section
/-!
SUPPORT. Laws of the table memory: a byte reads as written, every other byte as before, and every operation keeps the canonical form.
-/

namespace Sys2Proof.Machine

/-! ### Bytes -/

@[simp] theorem State.byte_setByte_same (s : State) (a : Nat) (b : Byte) : (s.setByte a b).byte a = b := smGet_set_same _ _ _ _

theorem State.byte_setByte_other (s : State) {a a' : Nat} (b : Byte) (h : a' ≠ a) : (s.setByte a b).byte a' = s.byte a' :=
  smGet_set_other _ _ _ _ h

theorem State.byte_congr {s t : State} (h : t.mem = s.mem) (a : Nat) : t.byte a = s.byte a := by simp [State.byte, h]

theorem Memory.wf_setByte (s : State) (a : Nat) (b : Byte) (h : Memory.wf s.mem = true) : Memory.wf (s.setByte a b).mem = true :=
  smWf_set memBlank s.mem a b h

/-! ### Little-endian numbers -/

theorem State.bytesLE_congr {s t : State} (a n : Nat) (h : ∀ x, a ≤ x → x < a + n → t.byte x = s.byte x) :
    t.bytesLE a n = s.bytesLE a n := by
  induction n generalizing a with
  | zero => rfl
  | succ n ih =>
    simp only [State.bytesLE]
    rw [h a (Nat.le_refl a) (by omega), ih (a + 1) (fun x h1 h2 => h x (by omega) (by omega))]

theorem State.byte_storeLE_other (s : State) (a n v : Nat) {x : Nat} (h : x < a ∨ a + n ≤ x) :
    (s.storeLE a n v).byte x = s.byte x := by
  induction n generalizing s a v with
  | zero => rfl
  | succ n ih =>
    simp only [State.storeLE]
    rw [ih _ (a + 1) _ (by omega), State.byte_setByte_other _ _ (by omega)]

/-- The bytes stored read back as the number, in their width. -/
theorem State.bytesLE_storeLE (s : State) (a n v : Nat) : (s.storeLE a n v).bytesLE a n = v % 256 ^ n := by
  induction n generalizing s a v with
  | zero => simp [State.bytesLE, Nat.mod_one]
  | succ n ih =>
    simp only [State.storeLE, State.bytesLE]
    rw [ih, State.byte_storeLE_other _ _ _ _ (by omega), State.byte_setByte_same]
    rw [BitVec.toNat_ofNat, show (2 : Nat) ^ 8 = 256 from rfl, Nat.pow_succ', Nat.mod_mul]

theorem Memory.wf_storeLE (s : State) (a n v : Nat) (h : Memory.wf s.mem = true) : Memory.wf (s.storeLE a n v).mem = true := by
  induction n generalizing s a v with
  | zero => exact h
  | succ n ih => exact ih _ _ _ (Memory.wf_setByte s a _ h)

@[simp] theorem State.storeLE_regs (s : State) (a n v : Nat) : (s.storeLE a n v).regs = s.regs := by
  induction n generalizing s a v with
  | zero => rfl
  | succ n ih => simp [State.storeLE, ih]

/-! ### Words of the tables, with their check bits -/

@[simp] theorem State.setFlips_mem (s : State) (r a m : Nat) : (s.setFlips r a m).mem = s.mem := rfl

theorem foldl_setFlips_mem (r a : Nat) (l : List Nat) (s : State) :
    (l.foldl (fun (s : State) k => s.setFlips r (a + k) 0) s).mem = s.mem := by
  induction l generalizing s with
  | nil => rfl
  | cons k t ih => rw [List.foldl_cons, ih, State.setFlips_mem]

/-- New check bits touch no byte. -/
@[simp] theorem eccWritten_mem (r a n : Nat) (s : State) : (eccWritten r a n s).mem = s.mem := by
  unfold eccWritten
  dsimp only
  split_ifs <;> simp [foldl_setFlips_mem]

theorem Memory.wf_setBytesLE (s : State) (a n v : Nat) (h : Memory.wf s.mem = true) :
    Memory.wf (s.setBytesLE a n v).mem = true := by
  unfold State.setBytesLE
  split
  · exact Memory.wf_storeLE s a n v h
  · split
    · exact h
    · rw [eccWritten_mem]; exact Memory.wf_storeLE s a n v h

/-- Bytes outside those written read as before. -/
theorem State.byte_setBytesLE_other (s : State) (a n v : Nat) {x : Nat} (h : x < a ∨ a + n ≤ x) :
    (s.setBytesLE a n v).byte x = s.byte x := by
  unfold State.setBytesLE
  split
  · exact State.byte_storeLE_other s a n v h
  · split
    · rfl
    · rw [State.byte_congr (eccWritten_mem _ _ _ _)]; exact State.byte_storeLE_other s a n v h

theorem Memory.wf_setTword (s : State) (a v : Nat) (h : Memory.wf s.mem = true) : Memory.wf (s.setTword a v).mem = true :=
  Memory.wf_setBytesLE s a 4 v h

theorem Memory.wf_setTbits (s : State) (a lsb width v : Nat) (h : Memory.wf s.mem = true) :
    Memory.wf (s.setTbits a lsb width v).mem = true := Memory.wf_setTword s a _ h

theorem Memory.wf_tcount (s : State) (a lsb width n : Nat) (h : Memory.wf s.mem = true) :
    Memory.wf (s.tcount a lsb width n).mem = true := Memory.wf_setTbits s a lsb width _ h

end Sys2Proof.Machine
end

