-- ==== Sys2Proof/Safety.lean ====
section
/-!
DEFINITION. What a sound state of the block is, in the terms the claims use.
-/

namespace Sys2Proof.Machine

open Sys2Proof

/-- The device in RESET after a cause: all that stays is the FRAM, the fuses, the wall time, the free values' number, what has left the
device, the queue and the JTAG instruction (R38, R589, R615, R616); calibrated objects hold their factory values (R516). -/
def resetForm (cause : Nat) (s : State) : State :=
  let r : State := { State.reset with
    fram := s.fram, otp := s.otp, now := s.now, freeNo := s.freeNo, out := s.out, pending := s.pending, inReset := true,
    mgt := { jtag := s.mgt.jtag }, tiu := factoryTiu s.otp, cal := factoryCal s.otp }
  (r.put GLB_STATE_ENTRY_CAUSE cause).put SYN_BAND_STORE_BAND s.otp.band

/-- In RESET nothing differs from the reset values, with the cause of a reset of the balls (0) or of a rail (1). -/
def ResetHolds (s : State) : Prop := s.inReset = true → s = resetForm 0 s ∨ s = resetForm 1 s

/-- The block serves commands that run on the domain clocks: out of RESET, released and not gated (R37). -/
def Served (s : State) : Prop := s.inReset = false ∧ s.clocked = true

/-- A command is executed: there is a next state, the follow-up (`settle`) of a state `u` that the command's own effect leaves, and `P`
holds of `u`. -/
def Completes (i : Instr) (s : State) (P : State → Prop) : Prop := ∃ u : State, exec i s = .next (settle s u) ∧ P u

/-- The registers outside a range of addresses hold what they held. -/
def WordsKept (lo hi : Nat) (s t : State) : Prop := ∀ x : Reg, (x.addr < lo ∨ hi ≤ x.addr) → t.word x = s.word x

/-- The write of the word `w` to the lowest word of a register as its rules see it: with the words the master has staged (R12), the
value before, and the value it leaves by the types of the fields (R17). -/
def writeSeen (m : BusMaster) (h : RegHit) (w : Word) (s : State) : RegWrite :=
  writeAs m h (takeStaged m h w s).1.1 (takeStaged m h w s).1.2 s

/-- A write of the word `w` at address `a` by a master outside the loader meets the rules of the spec for a write that stands, all of them
conditions on the state and the word alone: the lowest word of a register lies there (R12, R23); the device is out of RESET and serves the
master (R38, R41, R645), whose access waits for no gated clock (R650); its level suffices (R646, R647), and the lock of R649 does not
close the register; LOADING does not close the block (R628), nor SAFE_MODE the enable (R627); format, ranges and reserved encodings hold
(R4, R17); no object runs that protects the register (R708); no forbidden combination would arise (R47); the value is the host's to write
(R137, R172). -/
def mayWrite (m : BusMaster) (a : Nat) (w : Word) (s : State) : Bool :=
  match placeOf s a with
  | .reg h =>
    let r := writeSeen m h w s
    h.w == 0 && !s.inReset && m != .loader && served s m && !s.gated &&
      (privOf s m == 2 || (privOf s m == 1 && !adminOnly h.spec.id && !adminPart r)) &&
      !(h.spec.id == .MGT_PRIV && s.on MGT_PRIV_LOCK) && (s.dev != .loading || hostOpen a) &&
      (s.dev != .safeMode || (r.v &&& deferredMask h.spec.id) == 0) && (!tb96Reg h.spec.id || tb96Ok r.new) &&
      (h.spec.id != .DCO_OFFSET || s.on DCO_CTRL_OWNER) && (h.spec.id != .TB_INCR || s.hostOwns) &&
      fieldsOk h.spec.fs r.new && !regBad r s && (regBusy r s).isNone && (regModes r s).isEmpty
  | _ => false

/-- A write of a register by a master outside the loader meets the rules for one that stands. -/
def Writable (m : BusMaster) (r : Reg) (w : Word) (s : State) : Prop := mayWrite m r.addr w s = true

/-- A master outside the loader may write the word at offset `o` of table `r`: out of RESET, served, no clock gated, privileged, not in
LOADING, the entry not retired and its table not being reloaded (R33, R545, R547, R628, R645, R647). -/
def TableOpen (m : BusMaster) (r o : Nat) (s : State) : Prop :=
  s.inReset = false ∧ s.gated = false ∧ m ≠ .loader ∧ served s m = true ∧ privOf s m ≠ 0 ∧ s.dev ≠ .loading ∧
    entryRetired s r o = false ∧ s.on (ECC_REG_RELOADING r) = false

/-- A timer that expires is served at once: nothing stands before it in the timer queue, no block reset is under way, and the receive queue
does not have the turn (R335, R357). -/
def TimerTurn (s : State) : Prop :=
  s.fm.timerq = [] ∧ s.on FM_STATUS_RESETTING = false ∧ (s.fm.timersTurn = true ∨ s.fm.rxq = [])

/-- The timer that an expiry names: the one set, or, where none is, one due now (log entry 140). -/
def timerFound (kind : TimerKind) (k : Nat) (s : State) : FmTimer :=
  (s.fm.wheel.find? (fun t => t.kind == kind && t.who == k)).getD ⟨kind, k, s.clk, 0⟩

/-- The state in which a timer that has the turn acts: the timer is gone, and the receive queue has the next turn (R335). -/
def timerTaken (kind : TimerKind) (k : Nat) (s : State) : State :=
  { s with fm := { (timerStop kind k s).fm with timerq := [], timersTurn := false } }

/-- After a periodic timer's message: it falls due again one interval on, where it still runs (R338). -/
def timerAgain (kind : TimerKind) (k due : Nat) (s : State) : State :=
  if timerRuns s kind k then timerPut kind k (due + timerTicks s kind k) s else s

/-- A register of one word as a wide value. -/
def Reg.one (r : Reg) : Wide := ⟨r.addr, 1, r.reset.toNat⟩

/-- Only registers of the performance counters' block (from 0x02700000) differ. -/
def OnlyPmc (s t : State) : Prop :=
  t = { s with regs := t.regs } ∧ ∀ r : Reg, r.addr < 0x02700000 → t.word r = s.word r

/-- An accepted access differs from `s` in nothing but the counters of accesses (R671), the words a master has staged (R12) and what is
known of flipped register bits (R553). -/
def AccessNoted (s c : State) : Prop :=
  c = { s with regs := c.regs, stages := c.stages, ecc := { s.ecc with upsets := c.ecc.upsets, shadow := c.ecc.shadow } } ∧
    ∀ r : Reg, r.addr < 0x02700000 → c.word r = s.word r

/-- The write of the value `v` to a register (its name, indices and words) stands: `R` is the write as the register sees it, with the
value before, the bits of `v` it carries, and the value it leaves by the types of the fields (R17); `c` is the state in which the
register acts, with that value stored; nothing else differs from `s` but the counters of accesses (R671), the words a master has
staged (R12) and what is known of flipped register bits (R553). -/
structure Stands (m : BusMaster) (id : RegId) (i j : Nat) (w : Wide) (v : Nat) (s : State) (R : RegWrite) (c : State) : Prop where
  who : R.m = m ∧ R.id = id ∧ R.i = i ∧ R.j = j ∧ R.addr = w.addr
  was : R.old = s.wide w
  kept : c.wide w = R.new % 2 ^ (32 * w.words)
  bits : ∀ k, R.v.testBit k = true → v.testBit k = true
  rest : c = { s with regs := c.regs, stages := c.stages, ecc := { s.ecc with upsets := c.ecc.upsets, shadow := c.ecc.shadow } }
  others : ∀ x : Reg, x.addr < 0x02700000 → (x.addr < w.addr ∨ w.addr + 4 * w.words ≤ x.addr) → c.word x = s.word x

/-- The word with a field replaced, as a row that names a field writes it. -/
def withField (f : Fld) (x : Nat) (v : Word) : Word := insertBits v f.lsb f.width x

end Sys2Proof.Machine
end

