-- ==== Sys2Proof/Laws/Device.lean ====
section
/-!
SUPPORT. What running a command can do, said once: `run`, `runAlways` and `timed` by the device's state, and what the follow-up
never touches.
-/

namespace Sys2Proof.Machine

variable (f : State → State) (old s : State)

@[simp] theorem settle_inReset : (settle old s).inReset = false := rfl
@[simp] theorem settle_otp : (settle old s).otp = old.otp := rfl
@[simp] theorem settle_pending : (settle old s).pending = old.pending := rfl
@[simp] theorem settle_escDue : (settle old s).escDue = false := rfl

/-- What holds before a list is gone through, and is kept at each of its elements, holds after it. -/
theorem forEach_keeps {α : Type} {P : State → Prop} {l : List α} {g : α → State → State} (h0 : P s) (h : ∀ a t, P t → P (g a t)) :
    P (forEach l g s) := by
  unfold forEach
  induction l generalizing s with
  | nil => exact h0
  | cons a t ih => exact ih _ (h a s h0)

/-- Silencing the pulse outputs touches their records and what leaves the device alone. -/
theorem ppsSilence_frame : ppsSilence s = { s with pps := (ppsSilence s).pps, out := (ppsSilence s).out } := by
  have h : ∀ t : State, t = { s with pps := t.pps, out := t.out } →
      forEach (List.range 4) (fun n s => if (s.ppsRec n).high then
        (s.setPps n { s.ppsRec n with high := false, left := 0 }).send (.pps n false (s.ppsRec n).count) else s) t =
      { s with pps := (forEach (List.range 4) (fun n s => if (s.ppsRec n).high then
        (s.setPps n { s.ppsRec n with high := false, left := 0 }).send (.pps n false (s.ppsRec n).count) else s) t).pps,
               out := (forEach (List.range 4) (fun n s => if (s.ppsRec n).high then
        (s.setPps n { s.ppsRec n with high := false, left := 0 }).send (.pps n false (s.ppsRec n).count) else s) t).out } := by
    intro t ht
    refine forEach_keeps (P := fun x => x = { s with pps := x.pps, out := x.out }) t ht (fun n x hx => ?_)
    dsimp only
    split
    · rw [hx]; rfl
    · exact hx
  exact h s rfl

/-- A reset leads to the reset form, whatever the state was (R38, R589). -/
theorem deviceReset_eq (cause : Nat) : deviceReset cause s = resetForm cause { s with out := (ppsSilence s).out } := by
  unfold deviceReset resetForm
  rw [ppsSilence_frame s]

/-- Out of RESET a command acts, and is followed up. -/
theorem run_active (h : s.inReset = false) : run f s = .next (settle s (f s)) := by simp [run, h]

/-- In RESET nothing is served (R38). -/
theorem run_inReset (h : s.inReset = true) : run f s = .next s := by simp [run, h]

/-- A command on the domain clocks acts where they run (R37). -/
theorem timed_served (h : Served s) : timed f s = .next (settle s (f s)) := by
  simp [timed, run, h.1, h.2]

/-- It is held while they do not. -/
theorem timed_held (h : s.inReset = false) (hc : s.clocked = false) : timed f s = .next (settle s s) := by
  simp [timed, run, h, hc]

@[simp] theorem runAlways_eq : runAlways f s = .next (f s) := rfl

/-- A command completes by the meaning that its row runs. -/
theorem Completes.of_run {i : Instr} {f : State → State} {s : State} {P : State → Prop} (hi : exec i s = run f s)
    (h : s.inReset = false) (hp : P (f s)) : Completes i s P := ⟨f s, by rw [hi, run_active f s h], hp⟩

theorem Completes.of_timed {i : Instr} {f : State → State} {s : State} {P : State → Prop} (hi : exec i s = timed f s)
    (h : Served s) (hp : P (f s)) : Completes i s P := ⟨f s, by rw [hi, timed_served f s h], hp⟩

theorem Completes.imp {i : Instr} {s : State} {P Q : State → Prop} (h : Completes i s P) (hpq : ∀ u, P u → Q u) :
    Completes i s Q := by
  obtain ⟨u, he, hp⟩ := h
  exact ⟨u, he, hpq u hp⟩

end Sys2Proof.Machine
end

