-- ==== Sys2Proof/Laws/Access.lean ====
section
/-!
SUPPORT. What an access can do, said once: the performance counters an access may count touch nothing else, and a register write
that answers OK stores the value its field types leave and has the effect of its register.
-/

namespace Sys2Proof.Machine

/-! ### Performance counters -/

theorem OnlyPmc.refl (s : State) : OnlyPmc s s := ⟨rfl, fun _ _ => rfl⟩

theorem OnlyPmc.trans {s t u : State} (h : OnlyPmc s t) (k : OnlyPmc t u) : OnlyPmc s u := by
  refine ⟨?_, fun r hr => (k.2 r hr).trans (h.2 r hr)⟩
  rw [k.1, h.1]

theorem State.putWideFrom_eq (s : State) (w : Wide) (n k v : Nat) :
    s.putWideFrom w n k v = { s with regs := (s.putWideFrom w n k v).regs } := by
  induction n generalizing s k v with
  | zero => rfl
  | succ n ih => simp only [State.putWideFrom]; rw [ih]; rfl

theorem OnlyPmc.putWide (s : State) (w : Wide) (v : Nat) (h : 0x02700000 ≤ w.addr) : OnlyPmc s (s.putWide w v) :=
  ⟨State.putWideFrom_eq s w _ _ v, fun _ hr => State.word_putWide_other s w v (Or.inl (by omega))⟩

theorem OnlyPmc.put (s : State) (f : Fld) (v : Nat) (h : 0x02700000 ≤ f.reg.addr) : OnlyPmc s (s.put f v) :=
  ⟨rfl, fun _ hr => State.word_put_other s v (by omega)⟩

theorem pmcAdd_only (n k : Nat) (s : State) : OnlyPmc s (pmcAdd n k s) := by
  have h1 : OnlyPmc s (s.putWide (PMC_CNT n) ((s.wide (PMC_CNT n) % 2 ^ 48 + k) % 2 ^ 48)) :=
    OnlyPmc.putWide _ _ _ (by simp only [PMC_CNT]; omega)
  unfold pmcAdd
  dsimp only
  split
  · exact (h1.trans (OnlyPmc.put _ _ _ (by simp only [PMC_OVF, Wide.word]; omega))).trans
      (OnlyPmc.put _ _ _ (by simp only [PMC_EVENT_OVF, PMC_EVENT]; omega))
  · exact h1

theorem forEach_only {α : Type} (l : List α) (f : α → State → State) (s : State) (h : ∀ a s, OnlyPmc s (f a s)) :
    OnlyPmc s (forEach l f s) := by
  unfold forEach
  induction l generalizing s with
  | nil => exact OnlyPmc.refl s
  | cons a t ih => exact (h a s).trans (ih (f a s))

/-- A performance event changes nothing but the counters. -/
theorem pmcEvent_only (code : Nat) (kind : PmcKind) (k : Nat) (s : State) : OnlyPmc s (pmcEvent code kind k s) := by
  unfold pmcEvent
  split
  · exact OnlyPmc.refl s
  · refine forEach_only _ _ _ (fun n s => ?_)
    split
    · exact pmcAdd_only n k s
    · exact OnlyPmc.refl s

theorem accCount_only (m : BusMaster) (a code : Nat) (s : State) : OnlyPmc s (accCount m a code s) := pmcEvent_only _ _ _ _

theorem OnlyPmc.get {s t : State} (h : OnlyPmc s t) (f : Fld) (hf : f.reg.addr < 0x02700000) : t.get f = s.get f := by
  simp only [State.get, h.2 f.reg hf]

theorem OnlyPmc.on {s t : State} (h : OnlyPmc s t) (f : Fld) (hf : f.reg.addr < 0x02700000) : t.on f = s.on f := by
  simp only [State.on, h.get f hf]

/-! ### The state a write acts in -/

/-- The state in which a write acts: the events every write counts are counted. -/
def counted (m : BusMaster) (a : Nat) (s : State) : State := accCount m a 0x012 (accCount m a 0x010 s)

theorem counted_only (m : BusMaster) (a : Nat) (s : State) : OnlyPmc s (counted m a s) :=
  (accCount_only m a 0x010 s).trans (accCount_only m a 0x012 _)

theorem OnlyPmc.wide {s t : State} (h : OnlyPmc s t) (w : Wide) (hw : w.addr + 4 * w.words ≤ 0x02700000) : t.wide w = s.wide w := by
  refine State.wideFrom_congr w _ _ (fun j _ h2 => h.2 _ ?_)
  simp only [Wide.word]
  omega

/-- While no clock is gated an access does not wait (R650). -/
theorem accWaits_running {m : BusMaster} {s : State} (h : s.gated = false) : accWaits s m = false := by simp [accWaits, h]

/-- A word written by a master while no clock is gated is written at once. -/
theorem busPut_now {m : BusMaster} {a : Nat} {w : Word} {s : State} (h : s.gated = false) : busPut m a w s = (busWrite m a 15 w s).2 := by
  simp [busPut, busStore, accWaits_running h]

@[simp] theorem upsetsWritten_word (h : RegHit) (b : Nat) (s : State) (x : Reg) : (upsetsWritten h b s).word x = s.word x := rfl
@[simp] theorem upsetsWritten_get (h : RegHit) (b : Nat) (s : State) (x : Fld) : (upsetsWritten h b s).get x = s.get x := rfl

theorem upsetsWritten_wide (h : RegHit) (b : Nat) (s : State) (w : Wide) : (upsetsWritten h b s).wide w = s.wide w :=
  State.wideFrom_congr w _ _ (fun _ _ _ => rfl)

/-- A number below 2 ^ width that another masks keeps its bits inside it. -/
theorem testBit_of_and3 {a b c k : Nat} (h : (a &&& b &&& c).testBit k = true) : a.testBit k = true := by
  simp only [Nat.testBit_and, Bool.and_eq_true] at h
  exact h.1.1

/-- A write below the counters' block clears no overflow bit. -/
theorem wrapsStand_other (a n : Nat) (s : State) (h : a < 0x02700000) : wrapsStand a n s = s := by
  have h1 : a ≠ PMC_EVENT.addr := by simp only [PMC_EVENT]; omega
  have h2 : ¬ (a = PMC_OVF.addr ∨ a = PMC_OVF.addr + 4) := by simp only [PMC_OVF]; omega
  simp [wrapsStand, h1, h2]

/-! ### What a commit takes -/

/-- The words a commit takes depend on what is staged alone. -/
theorem takeStaged_congr (m : BusMaster) (h : RegHit) (w : Word) (s t : State) (hs : t.stages = s.stages) :
    (takeStaged m h w t).1 = (takeStaged m h w s).1 ∧ (takeStaged m h w t).2.stages = (takeStaged m h w s).2.stages ∧
      (takeStaged m h w t).2 = { t with stages := (takeStaged m h w t).2.stages } := by
  unfold takeStaged
  rw [hs]
  exact ⟨rfl, rfl, rfl⟩

/-- The write as its rules see it is the same once its events are counted, below the counters' block. -/
theorem writeSeen_congr {m : BusMaster} {h : RegHit} {w : Word} {s c : State} (hc : OnlyPmc s c)
    (hw : h.wide.addr + 4 * h.wide.words ≤ 0x02700000) : writeSeen m h w c = writeSeen m h w s := by
  unfold writeSeen writeAs
  rw [(takeStaged_congr m h w s c (by rw [hc.1])).1, hc.wide h.wide hw]

theorem OnlyPmc.dev {s c : State} (hc : OnlyPmc s c) : c.dev = s.dev := by
  unfold State.dev
  rw [hc.get GLB_STATE_STATE (by decide), hc.1]

theorem OnlyPmc.privOf {s c : State} (hc : OnlyPmc s c) (m : BusMaster) : privOf c m = privOf s m := by
  cases m with
  | loader => rfl
  | pcie => exact hc.get _ (by decide)
  | spi => exact hc.get _ (by decide)
  | mmp => exact hc.get _ (by decide)

theorem OnlyPmc.hostOwns {s c : State} (hc : OnlyPmc s c) : c.hostOwns = s.hostOwns := by
  unfold State.hostOwns State.pairState
  rw [hc.on TB_CTRL_STEER_OWNER (by decide), hc.get PAIR_STATUS_STATE (by decide)]

/-- What `mayWrite` says, one rule a field, of the register `h` found at the address. -/
structure MayWrite (m : BusMaster) (a : Nat) (w : Word) (s : State) (h : RegHit) : Prop where
  place : placeOf s a = .reg h ∧ h.w = 0
  out : s.inReset = false
  master : m ≠ .loader ∧ served s m = true
  runs : s.gated = false
  level : privOf s m = 2 ∨ (privOf s m = 1 ∧ adminOnly h.spec.id = false ∧ adminPart (writeSeen m h w s) = false)
  locked : h.spec.id = .MGT_PRIV → s.on MGT_PRIV_LOCK = false
  loading : s.dev = .loading → hostOpen a = true
  safe : s.dev = .safeMode → (writeSeen m h w s).v &&& deferredMask h.spec.id = 0
  format : tb96Reg h.spec.id = true → tb96Ok (writeSeen m h w s).new = true
  owner : (h.spec.id = .DCO_OFFSET → s.on DCO_CTRL_OWNER = true) ∧ (h.spec.id = .TB_INCR → s.hostOwns = true)
  values : fieldsOk h.spec.fs (writeSeen m h w s).new = true ∧ regBad (writeSeen m h w s) s = false
  idle : regBusy (writeSeen m h w s) s = none
  modes : regModes (writeSeen m h w s) s = []

/-- What a write that meets its rules meets, one by one. -/
theorem mayWrite_meets {m : BusMaster} {a : Nat} {w : Word} {s : State} (h : mayWrite m a w s = true) : ∃ k, MayWrite m a w s k := by
  unfold mayWrite at h
  split at h
  · rename_i k hp
    simp only [Bool.and_eq_true, Bool.or_eq_true, Bool.not_eq_true', bne_iff_ne, ne_eq, beq_iff_eq, Bool.and_eq_false_iff,
      Option.isNone_iff_eq_none, List.isEmpty_iff] at h
    obtain ⟨⟨⟨⟨⟨⟨⟨⟨⟨⟨⟨⟨⟨⟨⟨h0, h1⟩, h2⟩, h3⟩, h4⟩, h5⟩, h6⟩, h7⟩, h8⟩, h9⟩, h10⟩, h11⟩, h12⟩, h13⟩, h14⟩, h15⟩ := h
    refine ⟨k, ⟨hp, h0⟩, h1, ⟨h2, h3⟩, h4, ?_, ?_, ?_, ?_, ?_, ⟨?_, ?_⟩, ⟨h12, h13⟩, h14, h15⟩
    · rcases h5 with h | ⟨⟨h, ha⟩, hb⟩
      · exact .inl h
      · exact .inr ⟨h, ha, hb⟩
    · intro e; rcases h6 with h | h
      · exact absurd e (beq_eq_false_iff_ne.1 h)
      · exact h
    · intro e; exact h7.resolve_left (fun n => n e)
    · intro e; exact h8.resolve_left (fun n => n e)
    · intro e; rcases h9 with h | h
      · rw [e] at h; cases h
      · exact h
    · intro e; exact h10.resolve_left (fun n => n e)
    · intro e; exact h11.resolve_left (fun n => n e)
  · cases h

/-- A commit whose rules hold is stored and acts. -/
theorem regCommit_done {m : BusMaster} {a : Nat} {h : RegHit} {w : Word} {s c : State} (hm : MayWrite m a w s h) (hc : OnlyPmc s c)
    (hw : h.wide.addr + 4 * h.wide.words ≤ 0x02700000) (hid : h.spec.id = .LDR_HOST_CTRL → (writeSeen m h w s).v % 2 = 0) :
    let t := takeStaged m h w c
    let r := writeSeen m h w s
    regCommit m h t.1.1 t.1.2 s t.2 = (0, regEffect r (upsetsWritten h t.1.1 (if r.new = r.old then t.2 else t.2.putWide h.wide r.new))) := by
  intro t r
  have ht : t.2 = { c with stages := t.2.stages } := (takeStaged_congr m h w s c (by rw [hc.1])).2.2
  have hl : (m == BusMaster.loader) = false := by simpa using hm.master.1
  have hr : writeSeen m h w c = r := writeSeen_congr hc hw
  have hold : t.2.wide h.wide = c.wide h.wide := by
    rw [ht]; exact State.wideFrom_congr _ _ _ (fun _ _ _ => rfl)
  have hr' : writeAs m h t.1.1 t.1.2 t.2 = r := by
    rw [← hr]
    unfold writeSeen writeAs
    rw [hold]
  have hp : privOf t.2 m = privOf s m := by
    rw [ht]; exact hc.privOf m
  have hd : t.2.dev = s.dev := by
    rw [ht]; exact hc.dev
  unfold regCommit
  simp only [hr']
  rw [if_neg (by
    rw [hp]
    rintro ⟨h1, h2⟩
    rcases hm.level with hx | ⟨-, -, hx⟩
    · exact h1 hx
    · exact Bool.false_ne_true (hx.symm.trans h2))]
  rw [if_neg (by
    rw [hd]
    rintro ⟨h1, h2⟩
    exact h2 (hm.safe h1))]
  rw [if_neg (by
    rintro ⟨h1, h2⟩
    have := hm.format h1
    change (!tb96Ok r.new) = true at h2
    rw [this] at h2
    exact absurd h2 (by decide))]
  have ho : ownerRefuses r t.2 = none := by
    have h1 : t.2.on DCO_CTRL_OWNER = s.on DCO_CTRL_OWNER := by rw [ht]; exact hc.on _ (by decide)
    have h2 : t.2.hostOwns = s.hostOwns := by rw [ht]; exact hc.hostOwns
    unfold ownerRefuses
    rw [h1, h2]
    split
    · rename_i e; rw [if_pos (hm.owner.1 e)]
    · rename_i e; rw [if_pos (hm.owner.2 e)]
    · rfl
  rw [ho]
  simp only [hl, Bool.false_and, Bool.false_eq_true, if_false]
  rw [if_neg (by rw [hm.values.1, hm.values.2]; decide), hm.idle]
  dsimp only
  rw [hm.modes]
  have hh : hostCtrl r t.2 = (true, t.2) := by
    unfold hostCtrl
    by_cases e : h.spec.id = .LDR_HOST_CTRL
    · have hz : r.v % 2 = 0 := hid e
      simp [hz]
    · have : (r.id == RegId.LDR_HOST_CTRL) = false := beq_eq_false_iff_ne.2 e
      simp [this]
  rw [hh]
  have hl' : (r.m == BusMaster.loader) = false := hl
  have hk : sameInReload h r = false := by simp [sameInReload, hl']
  simp [regStore, hl', hk]

/-- A write that meets its rules answers OK, and what it leaves is the stored value and the register's effect. -/
theorem busWrite_done {m : BusMaster} {a : Nat} {w : Word} {s : State} {h : RegHit} (hm : MayWrite m a w s h)
    (ha : a < 0x02700000) (hw : h.wide.addr + 4 * h.wide.words ≤ 0x02700000)
    (hid : h.spec.id = .LDR_HOST_CTRL → (writeSeen m h w s).v % 2 = 0) :
    let t := takeStaged m h w (counted m a s)
    let r := writeSeen m h w s
    busWrite m a 15 w s = (0, regEffect r (upsetsWritten h t.1.1 (if r.new = r.old then t.2 else t.2.putWide h.wide r.new))) := by
  intro t r
  have hc := counted_only m a s
  have hl : (m == BusMaster.loader) = false := by simpa using hm.master.1
  have hn : (m != BusMaster.loader) = true := by simpa using hm.master.1
  have hp : placeWrite m a 15 w s (counted m a s) = (0, regEffect r (upsetsWritten h t.1.1 (if r.new = r.old then t.2 else t.2.putWide h.wide r.new))) := by
    unfold placeWrite
    rw [if_neg (by simp), hm.place.1]
    dsimp only
    unfold regAccess
    rw [hc.privOf m]
    dsimp only
    rw [if_neg (by
      rcases hm.level with hx | ⟨hx, hy, -⟩
      · simp [hx]
      · simp [hx, hy])]
    simp only [hl, Bool.false_and, Bool.false_eq_true, if_false, hn, Bool.true_and]
    rw [if_neg (by
      intro hx
      simp only [Bool.and_eq_true, decide_eq_true_eq] at hx
      have := hm.loading (by rw [← hc.dev]; exact hx.1)
      rw [this] at hx
      exact absurd hx.2 (by decide))]
    rw [if_neg (by
      intro hx
      simp only [Bool.and_eq_true, beq_iff_eq] at hx
      have h1 := hm.locked hx.1.1
      rw [hc.on MGT_PRIV_LOCK (by decide), h1] at hx
      exact Bool.false_ne_true hx.2)]
    unfold regWrite
    rw [if_pos hm.place.2]
    exact regCommit_done hm hc hw hid
  unfold busWrite
  rw [if_neg (by simp [hm.master.2])]
  change (let x := placeWrite m a 15 w s (counted m a s); let x := (x.1, wrapsStand a (accWraps m a s) x.2); if x.1 = 0 then x else _) = _
  rw [hp]
  dsimp only
  rw [if_pos rfl, wrapsStand_other _ _ _ ha]

/-- A write that meets its rules stands, and its register acts (R12, R17). -/
theorem write_stands {m : BusMaster} {a : Nat} {w : Word} {s : State} {h : RegHit} (hm : MayWrite m a w s h)
    (ha : a < 0x02700000) (hw : h.wide.addr + 4 * h.wide.words ≤ 0x02700000)
    (hid : h.spec.id = .LDR_HOST_CTRL → (writeSeen m h w s).v % 2 = 0) :
    ∃ c, Stands m h.spec.id h.i h.j h.wide (takeStaged m h w s).1.2 s (writeSeen m h w s) c ∧
      c.stages = (takeStaged m h w s).2.stages ∧ busPut m a w s = regEffect (writeSeen m h w s) c := by
  have hc := counted_only m a s
  have hd := busWrite_done hm ha hw hid
  have hb := busPut_now (m := m) (a := a) (w := w) hm.runs
  rw [hd] at hb
  obtain ⟨ht1, ht2, ht3⟩ := takeStaged_congr m h w s (counted m a s) (by rw [hc.1])
  have hword : ∀ x : Reg, (takeStaged m h w (counted m a s)).2.word x = (counted m a s).word x := fun x => by rw [ht3]; rfl
  refine ⟨_, ⟨⟨rfl, rfl, rfl, rfl, rfl⟩, rfl, ?_, fun k hk => testBit_of_and3 hk, ?_, ?_⟩, ?_, hb⟩
  · rw [upsetsWritten_wide]
    split
    · rename_i e
      have h1 : (takeStaged m h w (counted m a s)).2.wide h.wide = (counted m a s).wide h.wide :=
        State.wideFrom_congr h.wide _ _ (fun _ _ _ => hword _)
      rw [e, h1, hc.wide _ hw]
      exact (Nat.mod_eq_of_lt (State.wide_lt _ _)).symm
    · exact State.wide_putWide _ _ _
  · unfold upsetsWritten
    generalize (takeStaged m h w (counted m a s)).1.1 = b
    split
    · rw [ht3, hc.1]
    · unfold State.putWide
      rw [State.putWideFrom_eq, ht3, hc.1]
  · intro x hx ho
    rw [upsetsWritten_word]
    split
    · rw [hword]; exact hc.2 x hx
    · rw [State.word_putWide_other _ _ _ ho, hword]
      exact hc.2 x hx
  · unfold upsetsWritten
    split
    · exact ht2
    · unfold State.putWide
      rw [State.putWideFrom_eq]
      exact ht2

/-- A register of one word takes the word written alone. -/
theorem takeStaged_one (m : BusMaster) (h : RegHit) (w : Word) (s : State) (h1 : h.spec.words = 1) :
    takeStaged m h w s = ((2 ^ 32 - 1, w.toNat), s) := by
  simp [takeStaged, stagedWords, h1]

end Sys2Proof.Machine
end

