-- ==== Sys2Proof/Laws/Exec.lean ====
section
/-!
SUPPORT. What executing a command can do, said once over all rows: it runs its meaning outside RESET, or it is one of the rows that act
in every state.
-/

namespace Sys2Proof.Machine

open Sys2Proof

/-- The rows that act in every state: the reset balls, the rails, PCIe configuration, reads (which the PCIe endpoint answers in every
state, R652) and JTAG. -/
def actsAlways : Instr → Bool
  | .resetAssert | .railBelowReset _ | .resetRelease _ | .pcieConfigurationRequest _ | .bypass | .idcode | .samplePreload | .extest
  | .extestPulse | .extestTrain | .extestExit | .wideValueCapture _ _ | .rcFieldRead _ _ | .tiuFifoRead _ | .eccLogRead _ => true
  | _ => false

/-- Every other row runs a meaning, outside RESET, with its follow-up. -/
theorem exec_run (c : Instr) (h : actsAlways c = false) : ∃ f : State → State, ∀ s, exec c s = run f s := by
  cases c <;> first | exact ⟨_, fun _ => rfl⟩ | exact absurd (show true = false from h) (by decide)

/-- The rows that act in every state, with what each does. -/
theorem exec_always (c : Instr) (h : actsAlways c = true) (s : State) :
    exec c s = .next (deviceReset 0 s) ∨ (exec c s = .next (deviceReset 1 s)) ∨ (∃ x, exec c s = .next (resetRelease x s)) ∨
      (∃ q, exec c s = runElse (cfgRetry q) (configRequest q) s) ∨ (∃ m a, exec c s = runRead m a s) ∨ (∃ i, exec c s = .next (jtagTake i s)) ∨
      (exec c s = .next ((jtagTake .idcode s).send (.jtag jtagId))) ∨ exec c s = .next (extestExit s) := by
  cases c <;> first | exact absurd h Bool.false_ne_true | skip
  case resetAssert => exact Or.inl rfl
  case railBelowReset => exact Or.inr (Or.inl rfl)
  case resetRelease => exact Or.inr (Or.inr (Or.inl ⟨_, rfl⟩))
  case pcieConfigurationRequest => exact Or.inr (Or.inr (Or.inr (Or.inl ⟨_, rfl⟩)))
  case wideValueCapture m a => exact Or.inr (Or.inr (Or.inr (Or.inr (Or.inl ⟨m, a.toNat, rfl⟩))))
  case rcFieldRead m a => exact Or.inr (Or.inr (Or.inr (Or.inr (Or.inl ⟨m, a.toNat, rfl⟩))))
  case tiuFifoRead m => exact Or.inr (Or.inr (Or.inr (Or.inr (Or.inl ⟨m, TIU_FIFO.addr, rfl⟩))))
  case eccLogRead m => exact Or.inr (Or.inr (Or.inr (Or.inr (Or.inl ⟨m, ECC_LOG.addr, rfl⟩))))
  case idcode => exact Or.inr (Or.inr (Or.inr (Or.inr (Or.inr (Or.inr (Or.inl rfl))))))
  case extestExit => exact Or.inr (Or.inr (Or.inr (Or.inr (Or.inr (Or.inr (Or.inr rfl))))))
  all_goals exact Or.inr (Or.inr (Or.inr (Or.inr (Or.inr (Or.inl ⟨_, rfl⟩)))))

end Sys2Proof.Machine
end

