-- ==== Sys2Proof/Certificates/Slice0/Obligations.lean ====
section
/-!
DEFINITION. The statements for the provers, from the rules of the specification; each is a proposition with a name of its own.
-/

open Sys2Proof Sys2Proof.Machine

/-- A step with a command at the front of its queue is that command on the rest (spec/95_opcode_classes.md, spec/INDEX.md). -/
def Obligations.QueueFrontRuns : Prop :=
  ∀ (s : State) (c : Instr) (rest : List Instr), s.pending = c :: rest → step s = exec c { s with pending := rest }

/-- With no command waiting, a step is one 4 ns tick (R33, R72). -/
def Obligations.EmptyQueueLetsTimePass : Prop :=
  ∀ s : State, s.pending = [] →
    (s.inReset = true → step s = .next s) ∧
    (s.inReset = false → s.clocked = true → step s = .next (settle s (ocxoLook (timeTick s)))) ∧
    (s.inReset = false → s.clocked = false → step s = .next (settle s (lanesTick 1 (outsTick false 1 { s with now := s.now + 1 })))) ∧
    (∀ r : Reg, r.addr < 0x00110000 → (lanesTick 1 (outsTick false 1 { s with now := s.now + 1 })).word r = s.word r)

/-- No command ever stops the machine: each answers a next state in every state (R17, R23, R38). -/
def Obligations.EveryCommandAnswersANextState : Prop :=
  ∀ (c : Instr) (s : State), ∃ t : State, exec c s = .next t

/-- No command touches the queue behind it or what is fused (R53, R60, R629). -/
def Obligations.QueueAndFusesAreLeftAlone : Prop :=
  ∀ (c : Instr) (s t : State), exec c s = .next t → t.pending = s.pending ∧ t.otp = s.otp

/-- In RESET the machine holds its reset values, whatever step led there (R38, R589, R615, R616, R663). -/
def Obligations.ResetFormKeptByEveryStep : Prop :=
  ∀ s t : State, ResetHolds s → step s = .next t → ResetHolds t

/-- A device-level escalation that falls due acts in the same step (R604, R639). -/
def Obligations.NoEscalationLeftDueByAnyStep : Prop :=
  ∀ s t : State, s.escDue = 0 → step s = .next t → t.escDue = 0

/-- The state after reset meets the invariants that every step keeps (R38, R689). -/
def Obligations.ResetStateMeetsTheInvariants : Prop :=
  ResetHolds State.reset ∧ State.reset.inReset = false ∧ State.reset.escDue = 0 ∧ State.reset.pending = []

/-- Registers that nothing has written hold the reset values of their tables (R689, R42, R74, R160, R449). -/
def Obligations.ResetValuesOfRegisters : Prop :=
  (∀ r : Reg, State.reset.word r = r.reset) ∧ (∀ a : Nat, State.reset.byte a = 0) ∧
    State.reset.word GLB_STATE = 0x301 ∧ State.reset.dev = .clockStart ∧ (∀ n, slotState State.reset n = 0) ∧
    (∀ k, sessState State.reset k = 3) ∧ State.reset.stage = 0 ∧ State.reset.tbState = 0

/-- In RESET no command acts but those of the reset balls, the rails, PCIe configuration and JTAG (R38, R652, R663). -/
def Obligations.InResetOnlyTheResetRowsAct : Prop :=
  ∀ (c : Instr) (s : State), s.inReset = true →
    (c ≠ .resetAssert → (∀ r, c ≠ .railBelowReset r) → (∀ x, c ≠ .resetRelease x) →
      (∀ b, c ≠ .pcieConfigurationRequest b) → (∀ m a, c ≠ .wideValueCapture m a) → (∀ m a, c ≠ .rcFieldRead m a) →
      (∀ m, c ≠ .tiuFifoRead m) → (∀ m, c ≠ .eccLogRead m) →
      c ∉ ([.bypass, .idcode, .samplePreload, .extest, .extestPulse, .extestTrain, .extestExit] : List Instr) → exec c s = .next s) ∧
    ∀ (m : BusMaster) (a : Word), c ∈ ([.wideValueCapture m a, .rcFieldRead m a, .tiuFifoRead m, .eccLogRead m] : List Instr) →
      exec c s = .next (if m = .pcie then s.send .unsupported else s)

/-- RESET_N, a rail below its reset level, and the release into CLOCK_START (R38, R589, R615). -/
def Obligations.ResetAndRelease : Prop :=
  (∀ s : State, ∃ t, exec .resetAssert s = .next t ∧ t.inReset = true ∧ t.dev = .reset ∧ t = resetForm 0 t ∧ t.fram = s.fram ∧
      t.otp = s.otp ∧ t.now = s.now ∧ t.pending = s.pending ∧ t.get GLB_STATE_ENTRY_CAUSE = 0) ∧
    (∀ (rail : Fin 5) (s : State), ∃ t, exec (.railBelowReset rail) s = .next t ∧ t.inReset = true ∧ t.dev = .reset ∧
      t = resetForm 1 t ∧ t.fram = s.fram ∧ t.otp = s.otp ∧ t.now = s.now ∧ t.pending = s.pending ∧
      t.get GLB_STATE_ENTRY_CAUSE = 1) ∧
    (∀ (x : Straps) (s : State), s.inReset = true → ResetHolds s → ∃ t, exec (.resetRelease x) s = .next t ∧
      t.inReset = false ∧ t.dev = .clockStart ∧ t.get LDR_STATUS_BOOT_SEL = x.bootSel.val ∧
      t.on PAIR_STATUS_PREFERRED = x.mateRole ∧ t.on SYN_STATUS_OCXO_WARM = x.ocxoWarm ∧ t.fram = s.fram) ∧
    (∀ (x : Straps) (s : State), s.inReset = false → exec (.resetRelease x) s = .next s)

/-- An access where nothing lies, or a write of part of a register word, is recorded with its master and changes nothing else (R21, R23, R24). -/
def Obligations.UnmappedAndPartialAccesses : Prop :=
  (∀ (m : BusMaster) (a : Word) (s : State), s.inReset = false → served s m = true → s.gated = false →
    placeOf s a.toNat = .unmapped →
    (∀ (be : Fin 16) (v : Word), (a.toNat % 4 = 0 → a.toNat < 0x03000000 → be.val = 15) →
      (∃ u : State, exec (.registerWrite m a be v) s = .next (settle s u) ∧ u.on GLB_ACC_STATUS_UNMAPPED = true ∧
        u.get GLB_ACC_STATUS_LAST_MASTER = masterCode m ∧ u.mem = s.mem ∧
        ∀ r : Reg, r.addr < 0x02700000 → r.addr ≠ GLB_ACC_STATUS.addr → u.word r = s.word r)) ∧
    (∀ c ∈ ([.rcFieldRead m a, .wideValueCapture m a] : List Instr),
      (∃ u : State, exec c s = .next (settle s u) ∧ u.on GLB_ACC_STATUS_UNMAPPED = true ∧ u.get GLB_ACC_STATUS_LAST_MASTER = masterCode m ∧
        u.out = s.out ++ [.data m a.toNat 0] ∧ u.mem = s.mem ∧
        ∀ r : Reg, r.addr < 0x02700000 → r.addr ≠ GLB_ACC_STATUS.addr → u.word r = s.word r))) ∧
  (∀ (m : BusMaster) (a : Word) (be : Fin 16) (v : Word) (s : State), s.inReset = false → served s m = true → s.gated = false →
    a.toNat % 4 = 0 → a.toNat < 0x03000000 → be.val ≠ 15 →
    (∃ u : State, exec (.registerWrite m a be v) s = .next (settle s u) ∧ u.on GLB_ACC_STATUS_PARTIAL = true ∧
      u.get GLB_ACC_STATUS_LAST_MASTER = masterCode m ∧ u.mem = s.mem ∧
      ∀ r : Reg, r.addr < 0x02700000 → r.addr ≠ GLB_ACC_STATUS.addr → u.word r = s.word r))

/-- A write by an OBSERVE master is discarded and recorded (R646, R647). -/
def Obligations.ObserveMasterWritesNothing : Prop :=
  ∀ (m : BusMaster) (a v : Word) (s : State), s.inReset = false → served s m = true → s.gated = false → privOf s m = 0 →
    placeOf s a.toNat ≠ .unmapped →
    (∃ u : State, exec (.registerWrite m a 15 v) s = .next (settle s u) ∧ u.on MGT_EVENT_PRIV = true ∧ u.mem = s.mem ∧
      (s.on MGT_PRIV_LOG_VALID = false → u.on MGT_PRIV_LOG_VALID = true ∧ u.get MGT_PRIV_LOG_ADDR = a.toNat ∧
        u.get MGT_PRIV_LOG_MASTER = masterCode m ∧ u.get MGT_PRIV_LOG_LEVEL = 0) ∧
      ∀ r : Reg, r.addr < 0x02600000 → u.word r = s.word r)

/-- Reading the lowest word captures the whole value; the higher words then read from the capture (R10, R11). -/
def Obligations.WideValueCapture : Prop :=
  ∀ (m : BusMaster) (h : RegHit) (k : Nat) (s t : State), h.w = 0 → 0 < k → k < h.spec.words →
    t.shadows = (regRead m h s).2.shadows →
    (regRead m h s).1 = regValue h s % 2 ^ 32 ∧
      (regRead m { h with w := k } t).1 = regValue h s / 2 ^ (32 * k) % 2 ^ 32

/-- A read answers its data, and captures, clears or pops as the register says (R11, R17, R202, R515, R559). -/
def Obligations.ReadsOfRegistersComplete : Prop :=
  ∀ (m : BusMaster) (a : Word) (h : RegHit) (s : State), s.inReset = false → served s m = true → s.gated = false →
    placeOf s a.toNat = .reg h → ∃ c : State, OnlyPmc s c ∧
    (∀ i ∈ ([.rcFieldRead m a, .wideValueCapture m a] : List Instr),
      exec i s = .next (settle s ((regRead m h c).2.send (.data m a.toNat (regRead m h c).1)))) ∧
    (a.toNat = TIU_FIFO.addr → exec (.tiuFifoRead m) s =
      .next (settle s ((regRead m h c).2.send (.data m a.toNat (regRead m h c).1)))) ∧
    (a.toNat = ECC_LOG.addr → exec (.eccLogRead m) s =
      .next (settle s ((regRead m h c).2.send (.data m a.toNat (regRead m h c).1))))

/-- A read clears the RC fields of a register, and an OBSERVE master's read clears nothing (R17, R646). -/
def Obligations.ReadClearOfRcFields : Prop :=
  ∀ (m : BusMaster) (h : RegHit) (s : State), h.w = 0 →
    h.spec.id ∉ ([.TB_SNAP, .TIU_FIFO, .ECC_LOG, .POOL_LOW_WATER] : List RegId) →
    (s.ecc.injected = [] → counterLook h s = s) ∧
    (privOf s m = 0 → (regRead m h s).2.regs = (counterLook h s).regs) ∧
    (privOf s m ≠ 0 → (regRead m h s).2.wide h.wide =
        (counterLook h s).wide h.wide - ((counterLook h s).wide h.wide &&& h.maskAll (fun a => a == .rc)) ∧
      ∀ x : Reg, (x.addr < h.wide.addr ∨ h.wide.addr + 4 * h.wide.words ≤ x.addr) → (regRead m h s).2.word x = (counterLook h s).word x)

/-- What a write leaves, bit by bit, by the type of the field (R12, R17). -/
def Obligations.WriteByTypeOfField : Prop :=
  ∀ (h : RegHit) (old written v k : Nat),
    (writtenValue h old written v).testBit k =
      if written.testBit k = false then old.testBit k
      else if (h.maskAll (fun a => a == .w1s)).testBit k && v.testBit k then true
      else if (h.maskAll (fun a => a == .rw1c)).testBit k && v.testBit k then false
      else if (rwMask h).testBit k then v.testBit k
      else old.testBit k

/-- A write of a higher word is staged; the write of the lowest word commits it with the staged words (R12). -/
def Obligations.StageAndCommitOfWideValues : Prop :=
  (∀ (m : BusMaster) (a v : Word) (h : RegHit) (s : State), s.inReset = false → served s m = true → m ≠ .loader → s.gated = false →
    placeOf s a.toNat = .reg h → h.w ≠ 0 → privOf s m = 2 → (s.dev = .loading → hostOpen a.toNat = true) →
    (h.spec.id = .SCH_ACT_TIME → h.i = 63 → s.pairState = .solo) →
    (∃ u : State, exec (.wideValueStage m a v) s = .next (settle s u) ∧ smGet none u.stages (shadowKey m (h.base + 4 * h.w)) = some v ∧ u.mem = s.mem ∧
      ∀ r : Reg, r.addr < 0x02700000 → u.word r = s.word r)) ∧
  (∀ (m : BusMaster) (a v : Word) (h : RegHit) (s : State), placeOf s a.toNat = .reg h → h.spec.words = 2 →
    Writable m ⟨a.toNat, 0⟩ v s → a.toNat + 8 ≤ 0x02700000 → ∃ R c, Stands m h.spec.id h.i h.j h.wide
        (v.toNat + 2 ^ 32 * ((smGet none s.stages (shadowKey m (h.base + 4))).getD 0).toNat) s R c ∧
      smGet none c.stages (shadowKey m (h.base + 4)) = none ∧
      exec (.wideValueCommit m a v) s = .next (settle s (regEffect R c)))

/-- A register write that meets the rules for a write stores the value and has the effect of its register (R17, R659). -/
def Obligations.RegisterWriteStands : Prop :=
  ∀ (m : BusMaster) (a v : Word) (h : RegHit) (s : State), placeOf s a.toNat = .reg h → h.spec.words = 1 →
    a.toNat < 0x026FFFFC → (h.spec.id = .LDR_HOST_CTRL → v.toNat % 2 = 0) → Writable m ⟨a.toNat, 0⟩ v s →
    ∃ R c, Stands m h.spec.id h.i h.j h.wide v.toNat s R c ∧
      exec (.registerWrite m a 15 v) s = .next (settle s (regEffect R c))

/-- An access that has waited ACC_TO for a gated block completes with 0, or without effect (R650). -/
def Obligations.AccessTimeoutWhileGated : Prop :=
  ∀ (m : BusMaster) (a : Word) (w : Bool) (s : State), s.inReset = false → served s m = true →
    (s.gated = true → (∃ u : State, exec (.accessTimeout m a w) s = .next (settle s u) ∧ u.on MGT_EVENT_ACC_TO = true ∧ u.mem = s.mem ∧
      (w = false → u.out = s.out ++ [.data m a.toNat 0]) ∧ ∀ r : Reg, r.addr < 0x02600000 → u.word r = s.word r)) ∧
    (s.gated = false → exec (.accessTimeout m a w) s = .next (settle s s))

/-- A write of a table word keeps the memory's canonical form, and every byte outside the entry it names (R690, R22, R402). -/
def Obligations.TableWriteKeepsEveryOtherByte : Prop :=
  ∀ (m : BusMaster) (a be : Nat) (v : Word) (s : State), 0x03000000 ≤ a →
    (Memory.wf s.mem = true → Memory.wf (busWrite m a be v s).2.mem = true) ∧
    ∀ x : Nat, x / 32 ≠ a / 32 → (busWrite m a be v s).2.byte x = s.byte x

/-- CLOCK_START: the declaration starts a lock attempt, the retry starts another, and lock leads to LOADING (R38, R52, R53, R58, R63, R618). -/
def Obligations.CapstanStartCommands : Prop :=
  (∀ (a b : List Byte) (s : State), s.inReset = false → s.dev = .clockStart → s.syn.attempt = false → s.on SYN_STATUS_LOCKED = false →
    (∃ u : State, exec (.rootDeclarationRead a b) s = .next (settle s u) ∧ u.syn.attempt = true ∧ u.on SYN_STATUS_SEARCHING = false ∧
      u.syn.lfsr ≠ 0 ∧ (s.get LDR_STATUS_BOOT_SEL = 0 → ∀ x, headerDeclares a = some x → u.word SYN_ROOT = BitVec.ofNat 32 x) ∧
      (s.get LDR_STATUS_BOOT_SEL = 1 → ∀ x, headerDeclares b = some x → u.word SYN_ROOT = BitVec.ofNat 32 x) ∧
      (2 ≤ s.get LDR_STATUS_BOOT_SEL → u.on SYN_ROOT_FROM_OTP = true ∧ u.get SYN_ROOT_FREQ = s.otp.rootDefault % 8))) ∧
  (∀ (s : State), s.inReset = false → s.dev = .clockStart → s.on SYN_STATUS_LOCKED = false →
    (∃ u : State, exec .clockStartRetry s = .next (settle s u) ∧ u.syn.attempt = true ∧ u.on SYN_STATUS_SEARCHING = false ∧ u.syn.lfsr ≠ 0)) ∧
  (∀ (s : State), s.inReset = false → s.dev = .clockStart → s.on SYN_STATUS_LOCKED = true → s.nominal = true →
    (∃ u : State, exec .hwRegionInit s = .next (settle s u) ∧ u.get GLB_STATE_STATE = 2 ∧
      ∀ r ∈ ([1, 2, 7, 10, 11, 12, 13, 14, 15] : List Nat), u.bit ECC_INIT_DONE_V r = true))

/-- Capstan lock, band search, loss of lock and excursion: what SYN_STATUS and SYN_EVENT show (R56, R58, R59, R69, R71, R72, R55). -/
def Obligations.CapstanLockAndLoss : Prop :=
  (∀ (band : Fin 512) (ppm : Int) (s : State), s.inReset = false → s.mgt.waiting = [] → s.syn.attempt = true → s.on SYN_STATUS_LOCKED = false →
    (∃ u : State, exec (.capstanLock band ppm) s = .next (settle s u) ∧ (5000 < ppm.natAbs → u.on SYN_EVENT_ROOT_MISMATCH = true ∧ u.syn.attempt = false ∧ u.on SYN_STATUS_LOCKED = false) ∧
      (ppm.natAbs ≤ 5000 → u.on SYN_STATUS_LOCKED = true ∧ u.on SYN_STATUS_GATED = false ∧ u.on SYN_STATUS_SAFE_RATIO = true ∧
        u.get SYN_STATUS_BAND_CUR = (if s.on SYN_STATUS_SEARCHING then band.val else s.syn.tryBand) % 512 ∧
        u.on SYN_STATUS_SEARCHING = false ∧
        (s.on SYN_STATUS_SEARCHING = true → u.on SYN_EVENT_SEARCH_USED = true) ∧
        (s.on SYN_BAND_STORE_FREEZE = false →
          u.get SYN_BAND_STORE_BAND = (if s.on SYN_STATUS_SEARCHING then band.val else s.syn.tryBand) % 512)))) ∧
  (∀ (s : State), s.inReset = false → s.syn.attempt = true → s.on SYN_STATUS_LOCKED = false →
    (∃ u : State, exec .capstanBandSearch s = .next (settle s u) ∧ u.on SYN_STATUS_SEARCHING = true)) ∧
  (∀ (s : State), s.inReset = false →
    exec .safeRatioEnd s = .next (settle s (safeRatioEnd s))) ∧
  (∀ (s : State), s.inReset = false → s.on SYN_STATUS_SAFE_RATIO = true → s.plls.all (fun e => !e.2.planDue) = true →
    (∃ u : State, exec .safeRatioEnd s = .next (settle s u) ∧ u.on SYN_STATUS_SAFE_RATIO = false ∧ u.get SYN_STATUS_LOCKED = s.get SYN_STATUS_LOCKED)) ∧
  (∀ (s : State), s.inReset = false → s.on SYN_STATUS_LOCKED = true →
    exec .capstanLossOfLock s = .next (settle s (let g := (((framesGated (s.ev SYN_EVENT_LOL)).put SYN_STATUS_LOCKED 0).put SYN_STATUS_GATED 1).put SYN_STATUS_SAFE_RATIO 0
      let t := tiuGated (calAbandonAll (fun _ => true) (tbEnterInvalid 8 g))
      outStatusAll (lockStart { t with syn := { t.syn with late := false } })))) ∧
  (∀ (s : State), s.inReset = false → s.on SYN_STATUS_LOCKED = true → s.ports = [] → s.cal.queue = [] → s.tbState = 0 → tiuState s < 2 →
    (∃ u : State, exec .capstanLossOfLock s = .next (settle s u) ∧ u.on SYN_STATUS_LOCKED = false ∧ u.on SYN_STATUS_GATED = true ∧ u.on SYN_EVENT_LOL = true ∧ u.syn.attempt = true)) ∧
  (∀ (s : State), s.inReset = false → s.on SYN_STATUS_LOCKED = true →
    exec .frequencyExcursion s = .next (settle s (let g := (((framesGated (s.ev SYN_EVENT_EXCURSION)).put SYN_STATUS_LOCKED 0).put SYN_STATUS_GATED 1).put SYN_STATUS_SAFE_RATIO 0
      let t := tiuGated (calAbandonAll (fun _ => true) (tbEnterInvalid 8 g))
      outStatusAll (lockStart { t with syn := { t.syn with late := false } })))) ∧
  (∀ (s : State), s.inReset = false → s.on SYN_STATUS_LOCKED = true → s.ports = [] → s.cal.queue = [] → s.tbState = 0 → tiuState s < 2 →
    (∃ u : State, exec .frequencyExcursion s = .next (settle s u) ∧ u.on SYN_STATUS_LOCKED = false ∧ u.on SYN_STATUS_GATED = true ∧ u.on SYN_EVENT_EXCURSION = true ∧ u.syn.attempt = true)) ∧
  (∀ (s : State), s.inReset = false → s.gated = true →
    (∃ u : State, exec .capstanRelockTimeout s = .next (settle s u) ∧ u.syn.late = true ∧ u.syn.attempt = false ∧ u.on SYN_STATUS_SEARCHING = false ∧ u.majorActive = true)) ∧
  (∀ (s : State), s.inReset = false → s.gated = true →
    (∃ u : State, exec .capstanRetry s = .next (settle s u) ∧ u.syn.attempt = true ∧ u.syn.lfsr ≠ 0)) ∧
  (∀ (s : State), s.inReset = false →
    (∃ u : State, exec .ocxoCool s = .next (settle s u) ∧ u.on SYN_STATUS_OCXO_WARM = false ∧ u.on SYN_EVENT_OCXO_COOL = true))

/-- Dither reseed, aux hops and their completion, and the loss of an aux (R62, R63, R70, R73, R75, R77, R78, R83). -/
def Obligations.AuxAndDitherCommands : Prop :=
  (∀ (m : BusMaster) (v : Word) (s : State), s.inReset = false → Writable m SYN_DITHER (withField SYN_DITHER_RESEED 1 v) s → s.on SYN_DITHER_RESEED = false →
    (∃ u : State, exec (.ditherReseed m v) s = .next (settle s u) ∧ u.syn.lfsr = BitVec.ofNat 23 (if s.get SYN_DITHER_SEED_SEED = 0 then 1 else s.get SYN_DITHER_SEED_SEED))) ∧
  (∀ (m : BusMaster) (n : Fin 2) (v : Word) (s : State), Writable m (SYN_AUX_CFG n) v s → ∃ R c,
    Stands m .SYN_AUX_CFG n 0 (SYN_AUX_CFG n).one v.toNat s R c ∧
    exec (.auxPlanHop m n v) s = .next (settle s (auxWritten n (R.was (SYN_AUX_CFG_EN n) != 0) (R.was (SYN_AUX_CFG_PLAN_SEL n)) c))) ∧
  (∀ (n : Fin 2) (band : Fin 256) (s : State), s.inReset = false → smGet 0 s.syn.auxHop n = s.get (SYN_AUX_CFG_PLAN_SEL n) + 1 → s.nominal = true →
    (∃ u : State, exec (.auxHopComplete n band) s = .next (settle s u) ∧ u.get (SYN_AUX_PLAN_CTL_BAND n (s.get (SYN_AUX_CFG_PLAN_SEL n))) = band.val ∧
      u.on (SYN_AUX_CFG_HOPPING n) = false ∧ u.on (auxLockedFld n) = true ∧
      smGet 0 u.syn.auxSafe n = s.now + safeTime)) ∧
  (∀ (n : Fin 2) (s : State), s.inReset = false → s.on (auxLockedFld n) = true → s.nominal = true →
    (∃ u : State, exec (.auxLossOfLock n) s = .next (settle s u) ∧ u.on (auxLockedFld n) = false ∧ u.on (if n = 0 then SYN_EVENT_AUX0_LOL else SYN_EVENT_AUX1_LOL) = true ∧
      smGet 0 u.syn.auxHop n = s.get (SYN_AUX_CFG_PLAN_SEL n) + 1)) ∧
  (∀ (n : Fin 2) (s : State), s.inReset = false → s.nominal = false →
    exec (.auxLossOfLock n) s = .next (settle s s))

/-- Clock outputs: enable within the frequency limit, phase, zero-delay measurement and feedback loss (R82, R84, R85, R87, R88, R91, R93, R94, R98). -/
def Obligations.ClockOutputCommands : Prop :=
  (∀ (m : BusMaster) (n : Fin 12) (v : Word) (s : State), Writable m OUT_ENABLE (withField (⟨OUT_ENABLE, n, 1⟩) 1 v) s → ∃ R c,
    Stands m .OUT_ENABLE 0 0 OUT_ENABLE.one (withField (⟨OUT_ENABLE, n, 1⟩) 1 v).toNat s R c ∧ R.new.testBit n = true ∧
    exec (.clkoutEnable m n v) s = .next (settle s ((clkoutSet 0xFFF R.new (R.back OUT_ENABLE_EN c)).1))) ∧
  (∀ (m : BusMaster) (n : Fin 12) (v : Word) (s : State), Writable m OUT_ENABLE (withField (⟨OUT_ENABLE, n, 1⟩) 0 v) s → ∃ R c,
    Stands m .OUT_ENABLE 0 0 OUT_ENABLE.one (withField (⟨OUT_ENABLE, n, 1⟩) 0 v).toNat s R c ∧ R.new.testBit n = false ∧
    exec (.clkoutDisable m n v) s = .next (settle s ((clkoutSet 0xFFF R.new (R.back OUT_ENABLE_EN c)).1))) ∧
  (∀ (n : Fin 12) (s : State), s.bit OUT_ENABLE_EN n = false →
    (clkoutSet (2 ^ n.val) (2 ^ n.val) s).1.bit OUT_ENABLE_EN n = !freqTooHigh s n) ∧
  (∀ (m : BusMaster) (n : Fin 12) (v : Word) (s : State), Writable m (OUT_PHASE n) v s → ∃ R c,
    Stands m .OUT_PHASE n 0 (OUT_PHASE n).one v.toNat s R c ∧ R.now (OUT_PHASE_PHASE n) = extractBits v (OUT_PHASE_PHASE n).lsb (OUT_PHASE_PHASE n).width ∧
    exec (.outPhaseWrite m n v) s = .next (settle s (outStatus n (outStopped n c)))) ∧
  (∀ (n : Fin 4) (err : Int) (s : State), Served s → chanRuns s (73 + n) = true → s.on (OUT_STATUS_STALE n) = false → s.on (OUT_ZDB_EN n) = true →
    (∃ u : State, exec (.zdbMeasure n err) s = .next (settle s u) ∧ (u.get (OUT_ZDB_TRIM n) : Int) = clampI 0 131071 (s.get (OUT_ZDB_TRIM n) + err) ∧ u.on (OUT_STATUS_FB_LOST n) = false)) ∧
  (∀ (n : Fin 4) (err : Int) (s : State), Served s → (chanRuns s (73 + n) && s.on (OUT_ZDB_EN n)) = false →
    exec (.zdbMeasure n err) s = .next (settle s s)) ∧
  (∀ (n : Fin 4) (s : State), Served s → s.on (OUT_ZDB_EN n) = true →
    (∃ u : State, exec (.fbLost n) s = .next (settle s u) ∧ u.on (OUT_STATUS_FB_LOST n) = true ∧ u.on (OUT_STATUS_ZDB_LOCKED n) = false ∧ u.bit OUT_EVENT_FB_LOST n = true ∧
      u.get (OUT_ZDB_TRIM n) = s.get (OUT_ZDB_TRIM n)))

/-- Pulse outputs: enable, settings that wait for the second, and realignment (R102, R104, R107, R108, R109, R114). -/
def Obligations.PulseOutputCommands : Prop :=
  (∀ (m : BusMaster) (v : Word) (s : State), Writable m PPS_REALIGN v s → ∃ R c,
    Stands m .PPS_REALIGN 0 0 PPS_REALIGN.one v.toNat s R c ∧ R.field R.v PPS_REALIGN_REALIGN = extractBits v 0 4 ∧
    exec (.ppsRealign m v) s = .next (settle s (ppsRealign (R.field R.v PPS_REALIGN_REALIGN) c))) ∧
  (∀ (n : Fin 4) (s : State), Served s → (s.ppsRec n).pend = true → ppsSetOk s n = true →
    (s.ppsRec n).count % sec40 < s.wide TB_INCR % 2 ^ 48 →
    (∃ u : State, exec (.ppsCfgApply n) s = .next (settle s u) ∧ (u.ppsRec n).pend = false ∧
      (u.ppsRec n).mode = s.get (PPS_OUT_CFG_MODE n) ∧ (u.ppsRec n).period = s.get (PPS_OUT_PERIOD_V n) ∧
      (u.ppsRec n).width = s.get (PPS_OUT_WIDTH_V n) ∧ (u.ppsRec n).offset = s.geti (PPS_OUT_OFFSET_V n) ∧
      (u.ppsRec n).pattern = s.wide (PPS_OUT_PATTERN n))) ∧
  (∀ (n : Fin 4) (s : State), Served s → ((s.ppsRec n).pend && ppsSetOk s n && decide ((s.ppsRec n).count % sec40 < s.wide TB_INCR % 2 ^ 48)) = false →
    exec (.ppsCfgApply n) s = .next (settle s s)) ∧
  (∀ (m : BusMaster) (n : Fin 4) (v : Word) (s : State), Writable m (PPS_OUT_CFG n) (withField (PPS_OUT_CFG_EN n) 1 v) s → ∃ R c,
    Stands m .PPS_OUT_CFG n 0 (PPS_OUT_CFG n).one (withField (PPS_OUT_CFG_EN n) 1 v).toNat s R c ∧ R.now (PPS_OUT_CFG_EN n) = 1 ∧
    exec (.ppsOutEnable m n v) s = .next (settle s ((ppsoutSet (2 ^ n.val) (2 ^ n.val) (ppsWritten n (R.back (PPS_OUT_CFG_EN n) c))).1)))

/-- What the monitor's results make of a candidate that acts as enabled (R115, R117, R118, R119, R129, R130, R150). -/
def Obligations.ReferenceCandidateEvents : Prop :=
  (∀ (n : Fin 16) (s : State), Served s → slotOn s n = true →
    exec (.refLoss n) s = .next (settle s (bwRefresh (refDecide (checkFail n
      ((s.setRef n { s.refRec n with lost := true, freqSeen := false, p1 := none, p2 := none, allan := {} }).put
        (REF_SLOT_INSTAB_V n) (2 ^ 32 - 1))))))) ∧
  (∀ (n : Fin 16) (s : State), Served s → slotOn s n = false →
    exec (.refLoss n) s = .next (settle s s) ∧ (∀ f, exec (.refFreqGate n f) s = .next (settle s s)) ∧
    (∀ x, exec (.refInstabUpdate n x) s = .next (settle s s)) ∧ (∀ p, exec (.refPhaseSample n p) s = .next (settle s s))) ∧
  (∀ (n : Fin 16) (f : Int) (s : State), Served s → slotOn s n = true → slotFed s n = true →
    exec (.refFreqGate n f) s = .next (settle s (bwRefresh (refDecide (disputeAlarm (disputeFollow n (disputeTest n
      (if checksPass ((s.setRef n { s.refRec n with lost := false, freqSeen := true }).puti (REF_SLOT_FREQ_V n)
            (clampI (-(2 ^ 31)) (2 ^ 31 - 1) f)) n then
        soakStart n ((s.setRef n { s.refRec n with lost := false, freqSeen := true }).puti (REF_SLOT_FREQ_V n)
          (clampI (-(2 ^ 31)) (2 ^ 31 - 1) f))
      else
        checkFail n ((s.setRef n { s.refRec n with lost := false, freqSeen := true }).puti (REF_SLOT_FREQ_V n)
          (clampI (-(2 ^ 31)) (2 ^ 31 - 1) f)))))))))) ∧
  (∀ (n : Fin 16) (f : Int) (s : State), Served s → slotOn s n = true → slotFed s n = false →
    exec (.refFreqGate n f) s = .next (settle s (refLost n s))) ∧
  (∀ (n : Fin 16) (x : Int) (s : State), Served s → slotOn s n = true → ((s.refRec n).allan.add x).terms = 0 →
    (∃ u : State, exec (.refInstabUpdate n x) s = .next (settle s u) ∧ (u.refRec n).allan = (s.refRec n).allan.add x ∧ u.regs = s.regs)) ∧
  (∀ (n : Fin 16) (x : Int) (s : State), Served s → slotOn s n = true → ((s.refRec n).allan.add x).terms ≠ 0 →
    exec (.refInstabUpdate n x) s = .next (settle s (bwRefresh (refDecide ((s.setRef n { s.refRec n with allan := (s.refRec n).allan.add x }).put (REF_SLOT_INSTAB_V n)
      ((s.refRec n).allan.add x).sigma))))) ∧
  (∀ (n : Fin 16) (p : Int) (a b : RefPoint) (s : State), Served s → slotOn s n = true → n < 8 → (s.refRec n).p1 = some a → (s.refRec n).p2 = some b →
    b.at_ < a.at_ → s.get (REF_SLOT_HIT_V n) <
      (p - (a.phase + roundDiv ((a.phase - b.phase) * ((s.clk : Int) - a.at_)) (a.at_ - b.at_))).natAbs →
    exec (.refPhaseSample n p) s = .next (settle s (phaseHit n (s.setRef n { s.refRec n with lost := false })))) ∧
  (∀ (n : Fin 16) (p : Int) (s : State), Served s → slotOn s n = true → slotFed s n = true → (n < 8 ∨ 12 ≤ n) → (s.refRec n).p1 = none → (s.refRec n).p2 = none →
    exec (.refPhaseSample n p) s = .next (settle s (bwRefresh (refDecide (soakStart n ((s.setRef n { s.refRec n with lost := false }).setRef n
      { s.refRec n with lost := false, p1 := some ⟨p, s.clk⟩, p2 := none })))))) ∧
  (∀ (n : Fin 16) (p : Int) (s : State), Served s → 8 ≤ n.val → n.val < 12 → s.on (PHA_CH_SAMPLE_VALID (s.get (LN_RCS_CFG_LANE (n.val - 8)))) = true →
    exec (.refPhaseSample n p) s = .next (settle s (phaseSample n (s.geti (PHA_CH_UNWRAP_V (s.get (LN_RCS_CFG_LANE (n.val - 8))))) s))) ∧
  (∀ (n : Fin 16) (s : State), Served s → slotState s n = 1 → s.get REF_WTR_WTR = 0 →
    exec (.refSoakExpire n) s = .next (settle s (bwRefresh (refDecide (slotSet n 2 (s.setRef n { s.refRec n with wasQual := true })))))) ∧
  (∀ (n : Fin 16) (s : State), Served s → slotState s n = 1 → (s.refRec n).wasQual = true → s.get REF_WTR_WTR ≠ 0 →
    exec (.refSoakExpire n) s = .next (settle s (bwRefresh (refDecide (slotSet n 5
      (s.setRef n { s.refRec n with timerEnd := s.clk + 250000000 * s.get REF_WTR_WTR })))))) ∧
  (∀ (n : Fin 16) (s : State), Served s → slotState s n = 3 → (s.refRec n).nearSince.isSome = true →
    exec (.refSoakExpire n) s = .next (settle s (bwRefresh (refDecide (slotSet n 2 s))))) ∧
  (∀ (n : Fin 16) (s : State), Served s → slotState s n = 5 →
    exec (.refWtrExpire n) s = .next (settle s (bwRefresh (refDecide (slotSet n 2 (s.setRef n { s.refRec n with wasQual := true })))))) ∧
  (∀ (n : Fin 16) (s : State), Served s → slotState s n ≠ 5 →
    exec (.refWtrExpire n) s = .next (settle s s))

/-- A slot takes the state the rules give it (R118, R119, R160). -/
def Obligations.SlotStatesAfterTheTimers : Prop :=
  (∀ (n : Fin 16) (st : Nat) (s : State), st < 8 → slotState (slotSet n st s) n = st) ∧
  (∀ (n : Fin 16) (s : State), slotState s n = 3 → ((slotSet n 2 s).refRec n).rival = none) ∧
  (∀ (n : Fin 16) (s : State), slotOn s n = true → checksPass s n = true → (slotState s n = 0 ∨ slotState s n = 4) →
    slotState (soakStart n s) n = 1 ∧
    ((soakStart n s).refRec n).timerEnd = s.clk + 250000000 * s.get (REF_SLOT_SOAK_V n)) ∧
  (∀ (n : Fin 16) (s : State), slotState s n = 2 → slotState (checkFail n s) n = 4 ∧ (checkFail n s).on REF_EVENT_LOSS = true)

/-- Selector and DPLL: the slot and mode writes, the commit of a switch, the update and the lock (R122, R125, R126, R127, R128, R132, R133, R134, R137, R139). -/
def Obligations.SelectorAndDpllCommands : Prop :=
  (∀ (m : BusMaster) (n : Fin 16) (v : Word) (s : State), Writable m (REF_SLOT_CFG n) v s → ∃ R c,
    Stands m .REF_SLOT_CFG n 0 (REF_SLOT_CFG n).one v.toNat s R c ∧
    exec (.refSlotEnable m n v) s = .next (settle s (slotWritten R c))) ∧
  (∀ (m : BusMaster) (v : Word) (s : State), Writable m REF_CTRL (withField REF_CTRL_MODE 0 v) s → ∃ R c,
    Stands m .REF_CTRL 0 0 REF_CTRL.one (withField REF_CTRL_MODE 0 v).toNat s R c ∧ R.now REF_CTRL_MODE = 0 ∧
    exec (.refModeAuto m v) s = .next (settle s (refCtrlWrite R.new (c.setWord REF_CTRL (BitVec.ofNat 32 R.old))))) ∧
  (∀ (m : BusMaster) (v : Word) (s : State), Writable m REF_CTRL (withField REF_CTRL_MODE 1 v) s → ∃ R c,
    Stands m .REF_CTRL 0 0 REF_CTRL.one (withField REF_CTRL_MODE 1 v).toNat s R c ∧ R.now REF_CTRL_MODE = 1 ∧
    exec (.refModeForced m v) s = .next (settle s (refCtrlWrite R.new (c.setWord REF_CTRL (BitVec.ofNat 32 R.old))))) ∧
  (∀ (m : BusMaster) (v : Word) (s : State), Writable m REF_CTRL (withField REF_CTRL_MODE 2 v) s → ∃ R c,
    Stands m .REF_CTRL 0 0 REF_CTRL.one (withField REF_CTRL_MODE 2 v).toNat s R c ∧ R.now REF_CTRL_MODE = 2 ∧
    exec (.forceHoldover m v) s = .next (settle s (refCtrlWrite R.new (c.setWord REF_CTRL (BitVec.ofNat 32 R.old))))) ∧
  (∀ (m : BusMaster) (v : Word) (s : State), Writable m REF_CTRL (withField REF_CTRL_MODE 3 v) s → ∃ R c,
    Stands m .REF_CTRL 0 0 REF_CTRL.one (withField REF_CTRL_MODE 3 v).toNat s R c ∧ R.now REF_CTRL_MODE = 3 ∧
    exec (.forceFreerun m v) s = .next (settle s (refCtrlWrite R.new (c.setWord REF_CTRL (BitVec.ofNat 32 R.old))))) ∧
  (∀ (m : BusMaster) (v : Word) (s : State), Writable m DCO_CTRL v s → ∃ R c,
    Stands m .DCO_CTRL 0 0 DCO_CTRL.one v.toNat s R c ∧
    exec (.dcoOwnerChange m v) s = .next (settle s (ownerChange (R.now DCO_CTRL_OWNER) (R.back DCO_CTRL_OWNER c)))) ∧
  (∀ (m : BusMaster) (v : Word) (s : State), Writable m (DCO_OFFSET.word 0) v s → ∃ R c x,
    Stands m .DCO_OFFSET 0 0 DCO_OFFSET x s R c ∧ x % 2 ^ 32 = v.toNat ∧ s.on DCO_CTRL_OWNER = true ∧
    exec (.dcoOffsetWrite m v) s = .next (settle s (dcoExtend DCO_OFFSET c))) ∧
  (∀ (t : Fin 16) (s : State), Served s → s.sel.target = some t.val → s.sel.ctrlWait = none → s.dpll = 2 →
    exec .refSwitchCommit s = .next (settle s (bwRefresh (refDecide
      (((({ s with sel := { s.sel with target := none, takeUp := false, buildOut := buildOutOf s t } }.put REF_STATUS_SWITCHING 0).put
        REF_STATUS_SELECTED t).put REF_STATUS_SEL_VALID 1).ev REF_EVENT_SWITCH))))) ∧
  (∀ (x : Int) (s : State), Served s → (s.on REF_STATUS_SWITCHING = true ∨ s.dpllOwns = false) →
    (∃ u : State, exec (.dpllUpdate x) s = .next (settle s u) ∧ u.wide DCO_OFFSET = s.wide DCO_OFFSET)) ∧
  (∀ (x : Int) (s : State), Served s → s.on REF_STATUS_SWITCHING = false → s.dpllOwns = true → s.dpll = 3 →
    (∃ u : State, exec (.dpllUpdate x) s = .next (settle s u) ∧ u.widei DCO_OFFSET = clampI (-(2 ^ 33)) (2 ^ 33 - 1) (s.widei HOLD_VALUE))) ∧
  (∀ (x : Int) (s : State), Served s → s.dpll = 1 → s.on REF_STATUS_SWITCHING = false → s.dpllOwns = true → s.sel.takeUp = false → s.get REF_STATUS_SELECTED < 8 →
    (∃ u : State, exec (.dpllUpdate x) s = .next (settle s u) ∧ u.geti DPLL_PHASE_ERR_V = clampI (-(2 ^ 31)) (2 ^ 31 - 1) (x - s.sel.buildOut) ∧
      u.sel.integ = s.sel.integ + (dpllGain (s.get DPLL_STATUS_BW_APPLIED) ^ 2 : Nat) * (x - s.sel.buildOut) ∧ u.dpll = 1)) ∧
  (∀ (x y : Int) (s : State), Served s → s.dpll = 1 → s.on REF_STATUS_SWITCHING = false → s.dpllOwns = true → s.sel.takeUp = false →
    8 ≤ s.get REF_STATUS_SELECTED → s.get REF_STATUS_SELECTED < 12 → y = s.geti (PHA_CH_UNWRAP_V (slotChannel s (s.get REF_STATUS_SELECTED))) →
    (∃ u : State, exec (.dpllUpdate x) s = .next (settle s u) ∧ u.geti DPLL_PHASE_ERR_V = clampI (-(2 ^ 31)) (2 ^ 31 - 1) (y - s.sel.buildOut) ∧
      u.sel.integ = s.sel.integ + (dpllGain (s.get DPLL_STATUS_BW_APPLIED) ^ 2 : Nat) * (y - s.sel.buildOut) ∧ u.dpll = 1)) ∧
  (∀ (s : State), Served s → s.dpll = 1 → (s.geti DPLL_PHASE_ERR_V).natAbs ≤ s.get DPLL_LOCK_PE →
    exec .dpllLocked s = .next (settle s (bwRefresh (dpllSet 2 s)))) ∧
  (∀ (s : State), Served s → s.dpll ≠ 1 →
    exec .dpllLocked s = .next (settle s s))

/-- Holdover history, FRAM and ensemble (R139, R144, R146, R149, R150, R151, R152). -/
def Obligations.HoldoverFramAndEnsembleEvents : Prop :=
  (∀ (s : State), Served s →
    (∃ u : State, exec .holdHistoryWrite s = .next (settle s u) ∧ u.sel.hist.length = min 4096 (s.sel.hist.length + 1) ∧ u.sel.secs = s.sel.secs + 1 ∧ u.sel.dcoSum = 0 ∧
      u.sel.dcoTicks = 0 ∧ u.sel.hist.tail = (s.sel.hist.take 4095) ∧ u.regs = s.regs)) ∧
  (∀ (s : State), Served s → s.on HOLD_FRAM_CFG_EN = true → s.sel.readDone = true → 64 ≤ s.sel.sinceSave →
    exec .framPeriodicSave s = .next (settle s (framSave 64 1 s))) ∧
  (∀ (s : State), Served s → (s.on HOLD_FRAM_CFG_EN = false ∨ s.sel.readDone = false ∨ s.sel.sinceSave < 64) →
    exec .framPeriodicSave s = .next (settle s s)) ∧
  (∀ (x : FramSave) (s : State), Served s → s.sel.save = some x →
    (∃ u : State, exec (.framSaveReadback true) s = .next (settle s u) ∧ u.on HOLD_STATUS_FRAM_ERR = false ∧ u.sel.anyHeader = true ∧ u.sel.newestB = x.slotB ∧
      u.sel.newestSeq = x.seq ∧ u.sel.newestIdx = x.idx ∧ u.sel.save = none ∧ u.fram = s.fram)) ∧
  (∀ (x : FramSave) (s : State), Served s → s.sel.save = some x →
    (∃ u : State, exec (.framSaveReadback false) s = .next (settle s u) ∧ u.on HOLD_STATUS_FRAM_ERR = true ∧ u.on REF_EVENT_FRAM_ERR = true ∧ u.sel.anyHeader = s.sel.anyHeader ∧
      u.sel.save = none ∧ u.fram = s.fram)) ∧
  (∀ (s : State), Served s → s.sel.readDue = true → s.sel.readDone = false → headerOk (framRead s 0 64) = false → headerOk (framRead s 0x40 64) = false →
    (∃ u : State, exec .framStartRead s = .next (settle s u) ∧ u.sel.readDone = true ∧ u.sel.readDue = false ∧
      u.sel.anyHeader = false ∧ u.fram = s.fram ∧ u.regs = s.regs)) ∧
  (∀ (s : State), Served s → s.sel.readDue = true → s.sel.readDone = false →
    exec .framStartRead s = .next (settle s (framStart s))) ∧
  (∀ (s : State), Served s → s.sel.readDue = false →
    exec .framStartRead s = .next (settle s s)) ∧
  (∀ (s : State), Served s → s.sel.readDue = true → s.sel.readDone = true →
    (∃ u : State, exec .framStartRead s = .next (settle s u) ∧ u.sel.readDue = false ∧ u.sel.sinceSave = s.sel.sinceSave ∧ u.sel.seed = s.sel.seed ∧ u.fram = s.fram ∧ u.regs = s.regs)) ∧
  (∀ (m : BusMaster) (v : Word) (s : State), Writable m REF_ENS_CTRL (withField REF_ENS_CTRL_EN 1 v) s → ∃ R c,
    Stands m .REF_ENS_CTRL 0 0 REF_ENS_CTRL.one (withField REF_ENS_CTRL_EN 1 v).toNat s R c ∧ R.now REF_ENS_CTRL_EN = 1 ∧
    exec (.ensEnable m v) s = .next (settle s (ensEnable (R.now REF_ENS_CTRL_EN != 0) (R.back REF_ENS_CTRL_EN c)))) ∧
  (∀ (s : State), Served s → (∀ k < 8, ensState s k = 0 ∨ (s.ensRec k).n = 0) →
    (∃ u : State, exec .ensAllanUpdate s = .next (settle s u) ∧ u = s)) ∧
  (∀ (k : Fin 8) (s : State), Served s → ensState s k = 2 → (s.ensRec k).n ≠ 0 → (∀ j < 8, j ≠ k.val → ensState s j = 0) →
    (∃ u : State, exec .ensAllanUpdate s = .next (settle s u) ∧ (u.ensRec k).n = 0 ∧ (u.ensRec k).sum = 0 ∧
      (u.ensRec k).allan = (s.ensRec k).allan.add (roundDiv (s.ensRec k).sum (s.ensRec k).n))) ∧
  (∀ (s : State), Served s → (ensFused s).isEmpty = true →
    exec .ensEstimateUpdate s = .next (settle s s)) ∧
  (∀ (s : State), Served s → (ensFused s).isEmpty = false → (ensFused s).all (fun k => (s.ensRec k).allan.num != 0) = true → (ensShow (ensDrop s)).steerSrc ≠ 4 →
    exec .ensEstimateUpdate s = .next (settle s (ensShow (ensDrop s)))) ∧
  (∀ (k : Fin 8) (s : State), Served s → ensState s k = 3 → (s.ensRec k).nearSince.isSome = true →
    exec (.ensMemberReturn k) s = .next (settle s (ensSet k 2 (s.setEns k { s.ensRec k with nearSince := none, beyond := 0 })))) ∧
  (∀ (k : Fin 8) (s : State), Served s → ensState s k ≠ 3 →
    exec (.ensMemberReturn k) s = .next (settle s s))

/-- The host's writes of the time base: increment, state, source and owner, step, load and snapshot (R171, R172, R177, R178, R180, R184, R198). -/
def Obligations.TimeBaseWrites : Prop :=
  (∀ (m : BusMaster) (v : Word) (s : State), Writable m (TB_INCR.word 0) v s → ∃ R c x,
    Stands m .TB_INCR 0 0 TB_INCR x s R c ∧ x % 2 ^ 32 = v.toNat ∧ s.hostOwns = true ∧ hostIncrOk R.new = true ∧
    exec (.tbIncrWrite m v) s = .next (settle s (c.put TB_STATUS_SLEW_CLAMP 0))) ∧
  (∀ (m : BusMaster) (v : Word) (s : State), Writable m TB_HOST_STATE v s → ∃ R c,
    Stands m .TB_HOST_STATE 0 0 TB_HOST_STATE.one v.toNat s R c ∧ s.hostOwns = true ∧ s.tbState ≠ 0 ∧
    exec (.tbHostStateReq m v) s = .next (settle s (tbHostState (R.now TB_HOST_STATE_REQ) c))) ∧
  (∀ (m : BusMaster) (v : Word) (s : State), Writable m TB_CTRL v s → ∃ R c,
    Stands m .TB_CTRL 0 0 TB_CTRL.one v.toNat s R c ∧
    exec (.tbSteerSrcWrite m v) s = .next (settle s (tbCtrlWritten R c))) ∧
  (∀ (m : BusMaster) (v : Word) (s : State), Writable m TB_CTRL v s → ∃ R c,
    Stands m .TB_CTRL 0 0 TB_CTRL.one v.toNat s R c ∧
    exec (.tbSteerOwnerWrite m v) s = .next (settle s (tbCtrlWritten R c))) ∧
  (∀ (m : BusMaster) (v : Word) (s : State), Writable m TB_STEP_CTRL (withField TB_STEP_CTRL_GO 1 v) s → s.tb.hostStep = none → ∃ R c,
    Stands m .TB_STEP_CTRL 0 0 TB_STEP_CTRL.one (withField TB_STEP_CTRL_GO 1 v).toNat s R c ∧
    exec (.tbStepGo m v) s = .next (settle s (tbStepGo c))) ∧
  (∀ (m : BusMaster) (v : Word) (s : State), Writable m TB_LOAD_CTRL (withField TB_LOAD_CTRL_GO 1 v) s → s.tb.load = none → ∃ R c,
    Stands m .TB_LOAD_CTRL 0 0 TB_LOAD_CTRL.one (withField TB_LOAD_CTRL_GO 1 v).toNat s R c ∧
    exec (.tbLoadGo m v) s = .next (settle s (tbLoadGo c))) ∧
  (∀ (m : BusMaster) (v : Word) (s : State), Writable m TB_SNAP_CTRL (withField TB_SNAP_CTRL_SW 1 v) s → s.on TB_SNAP_CTRL_SW = false → ∃ R c,
    Stands m .TB_SNAP_CTRL 0 0 TB_SNAP_CTRL.one (withField TB_SNAP_CTRL_SW 1 v).toNat s R c ∧
    exec (.tbSnapSw m v) s = .next (settle s ({ c with tb := { c.tb with snapDue := true } }))) ∧
  (∀ s : State, s.hostOwns = true → s.tbState ≠ 0 → stepPermitted s (sns40 (s.widei TB_STEP)) = true →
    (tbStepGo s).tb.hostStep = some (sns40 (s.widei TB_STEP)) ∧ (tbStepGo s).on TB_STATUS_STEP_PENDING = true) ∧
  (∀ s : State, (s.hostOwns = false ∨ s.tbState = 0 ∨ stepPermitted s (sns40 (s.widei TB_STEP)) = false) →
    (tbStepGo s).tb = s.tb ∧ (tbStepGo s).on TB_EVENT_STEP_REJ = true) ∧
  (∀ s : State, s.tbState ≠ 0 → (tbLoadGo s).tb = s.tb ∧ (tbLoadGo s).on TB_EVENT_STEP_REJ = true) ∧
  (∀ (m : Fin 3) (t : Nat) (s : State), (snapTake m t s).wide (TB_SNAP m) % 2 ^ 96 = tb96Of t % 2 ^ 96)

/-- The states of the time base, the mismatch of its shadow, and the tick at which a step applies (R174, R175, R176, R178, R179, R181, R182). -/
def Obligations.TimeBaseStatesAndSteps : Prop :=
  (∀ (s : State), Served s →
    exec .tbShadowMismatch s = .next (settle s (tbEnterInvalid 9 (raiseMajor 1 (s.ev TB_EVENT_DIVERGE))))) ∧
  (∀ (s : State), Served s → s.tbState ≠ 0 → mateClear s = false →
    (∃ u : State, exec .tbShadowMismatch s = .next (settle s u) ∧ u.tb.hostStep = none ∧ u.tb.ferryStep = none ∧ u.tb.load = none ∧ u.tb.todin = none ∧ u.tb.count = s.tb.count ∧
      u.on TB_EVENT_DIVERGE = true ∧ u.on TB_EVENT_INVALID = true ∧ u.tbState = 0)) ∧
  (∀ (s : State), Served s → stepDue s = true →
    exec .tbStepApply s = .next (settle s (timeTick s))) ∧
  (∀ (s : State), Served s → stepDue s = false →
    exec .tbStepApply s = .next (settle s s)) ∧
  (∀ (c : Nat) (d : DueStep) (s : State), (stepApply c d s).tb.count = ((c : Int) + d.e).toNat ∧
    (stepApply c d s).tb.shadow = ((c : Int) + d.e).toNat) ∧
  (∀ s : State, s.tbState ≠ 0 → (tbEnterCoarse s).tbState = 1 ∧ (tbEnterCoarse s).tb.fineCount = 0) ∧
  (∀ s : State, (tbEnterHoldover s).tbState = 3 ∧ (tbEnterHoldover s).tb.fineCount = 0 ∧
    (s.hostOwns = false → (tbEnterHoldover s).wide TB_INCR = holdMean s % 2 ^ 64 ∧
      (tbEnterHoldover s).wide TB_HOLD_INCR = holdMean s % 2 ^ 64) ∧
    (s.hostOwns = true → (tbEnterHoldover s).wide TB_INCR = s.wide TB_INCR))

/-- Edges on PPSIN and the time-of-day messages (R184, R185, R187, R188, R189). -/
def Obligations.PulsesInAndTimeOfDay : Prop :=
  (∀ (n : Fin 2) (falling : Bool) (k : Fin 5) (s : State), Served s → ppsinOn s n falling = true →
    (∃ u : State, exec (.ppsinEdge n ⟨falling, k⟩) s = .next (settle s u) ∧ u.wide (TB_SNAP (n.val + 1)) % 2 ^ 96 = tb96Of (ppsinTime s k) % 2 ^ 96 ∧ u.tb = s.tb)) ∧
  (∀ (n : Fin 2) (falling : Bool) (k : Fin 5) (s : State), Served s → ppsinOn s n falling = false →
    exec (.ppsinEdge n ⟨falling, k⟩) s = .next (settle s s)) ∧
  (∀ (l : List Byte) (s : State), Served s → s.on TB_TOD_CFG_IN_EN = false →
    exec (.todinMessage l) s = .next (settle s s)) ∧
  (∀ (l : List Byte) (s : State), Served s → s.on TB_TOD_CFG_IN_EN = true → todParse l = none →
    (∃ u : State, exec (.todinMessage l) s = .next (settle s u) ∧ u.on TB_EVENT_TOD_ERR = true ∧ u.tb = s.tb ∧
      u.get TB_TOD_IN_STATUS_BAD = min (s.get TB_TOD_IN_STATUS_BAD + 1) (2 ^ TB_TOD_IN_STATUS_BAD.width - 1))) ∧
  (∀ (l : List Byte) (x : Nat) (s : State), Served s → s.on TB_TOD_CFG_IN_EN = true → todParse l = some x →
    (∃ u : State, exec (.todinMessage l) s = .next (settle s u) ∧ u.tb.tod = s.tb.tod ++ [x] ∧ u.regs = s.regs)) ∧
  (∀ (n : Fin 2) (k : Fin 5) (x : Nat) (l : List Nat) (s : State), Served s → n.val = s.get TB_TOD_CFG_IN_SEL → s.tb.tod = x :: l →
    (∃ u : State, exec (.todinEdge n ⟨false, k⟩) s = .next (settle s u) ∧ u.tb.tod = l ∧
      u.get TB_TOD_IN_STATUS_GOOD = (s.get TB_TOD_IN_STATUS_GOOD + 1) % 2 ^ TB_TOD_IN_STATUS_GOOD.width ∧
      ((s.tbState ≠ 0 ∨ s.on TB_TOD_CFG_IN_LOAD = false) → u.tb.load = s.tb.load ∧ u.tb.todin = s.tb.todin ∧
        u.wide TB_TOD_IN_DIFF = (snsOf ((x * sec40 : Nat) - (ppsinTime s k : Int)) : Int) % 2 ^ 64))) ∧
  (∀ (n : Fin 2) (falling : Bool) (k : Fin 5) (s : State), Served s → (falling = true ∨ n.val ≠ s.get TB_TOD_CFG_IN_SEL ∨ s.tb.tod = []) →
    exec (.todinEdge n ⟨falling, k⟩) s = .next (settle s s)) ∧
  (∀ (x : Nat) (l : List Nat) (s : State), Served s → s.tb.tod = x :: l →
    (∃ u : State, exec .todinEdgeTimeout s = .next (settle s u) ∧ u.tb.tod = l ∧ u.on TB_EVENT_TOD_ERR = true)) ∧
  (∀ (s : State), Served s → s.tb.tod = [] →
    exec .todinEdgeTimeout s = .next (settle s s)) ∧
  (∀ (n : Nat) (s : State), Served s → n = s.get TB_TOD_CFG_OUT_SRC → s.on TB_TOD_CFG_OUT_EN = true → s.on (PPS_OUT_CFG_EN n) = true →
    (s.ppsRec n).mode = 0 → (s.ppsRec n).gave = true →
    (∃ u : State, exec .todoutSend s = .next (settle s u) ∧ u.out = s.out ++ [.tod (todMessage s n ((s.ppsRec n).edgeSec + 1))] ∧ u.regs = s.regs)) ∧
  (∀ (s : State), Served s → s.on TB_TOD_CFG_OUT_EN = false →
    exec .todoutSend s = .next (settle s s))

/-- Scheduled actions: arming, disarming and the tick at which an action is evaluated (R190, R191, R192, R194, R196, R206). -/
def Obligations.ScheduledActions : Prop :=
  (∀ (m : BusMaster) (n : Fin 64) (v : Word) (s : State), Writable m (SCH_ACT_CTRL n) (withField (SCH_ACT_CTRL_DISARM n) 0 (withField (SCH_ACT_CTRL_ARM n) 1 v)) s → s.on (SCH_ACT_CTRL_ARM n) = false → ∃ R c,
    Stands m .SCH_ACT_CTRL n 0 (SCH_ACT_CTRL n).one (withField (SCH_ACT_CTRL_DISARM n) 0 (withField (SCH_ACT_CTRL_ARM n) 1 v)).toNat s R c ∧
    exec (.schArm m n v) s = .next (settle s (actArm n c.nextCount c))) ∧
  (∀ (m : BusMaster) (n : Fin 64) (v : Word) (s : State), Writable m (SCH_ACT_CTRL n) (withField (SCH_ACT_CTRL_DISARM n) 1 v) s → ∃ R c,
    Stands m .SCH_ACT_CTRL n 0 (SCH_ACT_CTRL n).one (withField (SCH_ACT_CTRL_DISARM n) 1 v).toNat s R c ∧
    exec (.schDisarm m n v) s = .next (settle s (actDisarm n (if s.on (SCH_ACT_CTRL_ARM n) then
      R.back (SCH_ACT_CTRL_TYPE n) (R.back (SCH_ACT_CTRL_LATE_POLICY n) c) else c)))) ∧
  (∀ (n : Fin 64) (tc : Nat) (s : State), s.get (SCH_ACT_CTRL_TYPE n) = 0 →
    (actArm n tc s).on (SCH_ACT_CTRL_ARM n) = false ∧ (actArm n tc s).get (SCH_ACT_STATUS_RESULT n) = 4) ∧
  (∀ (n : Fin 64) (tc : Nat) (s : State), s.get (SCH_ACT_CTRL_TYPE n) ≠ 0 → actPeriodOk s n = true →
    s.on (SCH_ACT_CTRL_LATE_POLICY n) = false → tc < actTime s n →
    (actArm n tc s).on (SCH_ACT_CTRL_ARM n) = true ∧ (actArm n tc s).get (SCH_ACT_STATUS_RESULT n) = 1 ∧
    (actArm n tc s).get (SCH_ACT_STATUS_RUNS n) = 0) ∧
  (∀ (n : Fin 64) (s : State), (actDisarm n s).on (SCH_ACT_CTRL_ARM n) = false ∧ (actDisarm n s).get (SCH_ACT_STATUS_RESULT n) = 0) ∧
  (∀ (n : Fin 64) (s : State), Served s → (s.on (SCH_ACT_CTRL_ARM n) = false ∨ s.tbState = 0) →
    exec (.schActionDue n) s = .next (settle s s)) ∧
  (∀ (n : Fin 64) (s : State), Served s → s.on (SCH_ACT_CTRL_ARM n) = true → s.tb.count < actTime s n → s.nextCount < actTime s n →
    exec (.schActionDue n) s = .next (settle s s)) ∧
  (∀ (n : Fin 64) (s : State), Served s → s.on (SCH_ACT_CTRL_ARM n) = true → s.tbState ≠ 0 → s.tb.count < actTime s n → actTime s n ≤ s.nextCount →
    exec (.schActionDue n) s = .next (settle s (actHandover n (actExecute n s)))) ∧
  (∀ (n : Fin 64) (s : State), Served s → s.on (SCH_ACT_CTRL_ARM n) = true → s.tbState ≠ 0 → actTime s n ≤ s.tb.count →
    s.on (SCH_ACT_CTRL_LATE_POLICY n) = false →
    exec (.schActionDue n) s = .next (settle s (actHandover n (actEnd n 3 (s.setWord (SCH_LATE.word (n.val / 32))
      (s.word (SCH_LATE.word (n.val / 32)) ||| BitVec.ofNat 32 (2 ^ (n.val % 32))))))))

/-- Quad PLLs: configuration, lock, loss of lock and the relock timeout (R15, R73, R80, R207, R208, R209, R211, R212, R301). -/
def Obligations.QuadPllCommands : Prop :=
  (∀ (m : BusMaster) (q : Fin 16) (v : Word) (s : State), Writable m (LN_QUAD_CFG q) v s → ∃ R c,
    Stands m .LN_QUAD_CFG q 0 (LN_QUAD_CFG q).one v.toNat s R c ∧
    exec (.quadCfgWrite m q v) s = .next (settle s (if R.changes [LN_QUAD_CFG_RATE q, LN_QUAD_CFG_PLAN q] then quadWritten q c else c))) ∧
  (∀ (q : Fin 17) (band : Fin 128) (s : State), Served s → ((s.pllRec q).on && (s.pllRec q).waits && !(s.pllRec q).planDue && s.nominal) = false →
    exec (.quadPllLocked q band) s = .next (settle s s)) ∧
  (∀ (q : Fin 17) (band : Fin 128) (s : State), Served s → ((s.pllRec q).on && (s.pllRec q).waits && !(s.pllRec q).planDue && s.nominal) = true → q.val < 16 →
    exec (.quadPllLocked q band) s = .next (settle s (let t := txphLocked q (txphClear q (s.setPll q { s.pllRec q with waits := false, half := s.now + safeTime }))
      forEach (pllLanes q) laneKick
        ((((t.put (SYN_QPLL_PLAN_BAND q (t.get (LN_QUAD_CFG_PLAN q))) band).put
          (SYN_QPLL_PLAN_VALID q (t.get (LN_QUAD_CFG_PLAN q))) 1).put
          (LN_QUAD_STATUS_PLL_LOCKED q) 1).put (LN_QUAD_STATUS_RELOCKING q) 0)))) ∧
  (∀ (band : Fin 128) (s : State), Served s → ((s.pllRec 16).on && (s.pllRec 16).waits && !(s.pllRec 16).planDue && s.nominal) = true →
    exec (.quadPllLocked 16 band) s = .next (settle s (laneKick 64 (txphLocked 16 (txphClear 16 (s.setPll 16
      { s.pllRec 16 with waits := false, half := s.now + safeTime, band := band })))))) ∧
  (∀ (q : Fin 17) (s : State), Served s → (s.pllLocked q && s.nominal) = false →
    exec (.quadPllLoss q) s = .next (settle s s)) ∧
  (∀ (q : Fin 17) (s : State), Served s → s.pllLocked q = true → s.nominal = true → (∀ n ∈ pllLanes q, laneState s n = 0) → s.on (PHA_TXPH_VALID q) = false →
    (∃ u : State, exec (.quadPllLoss q) s = .next (settle s u) ∧ (u.pllRec q).waits = true ∧ (u.pllRec q).on = (s.pllRec q).on ∧
      (q.val < 16 → u.on (LN_QUAD_STATUS_PLL_LOCKED q) = false ∧ u.on (LN_QUAD_STATUS_RELOCKING q) = true))) ∧
  (∀ (q : Fin 17) (s : State), Served s → (s.nominal = false ∨ (s.pllRec q).on = false ∨ s.pllLocked q = true ∨ ∀ n ∈ pllLanes q, laneState s n = 0) →
    exec (.quadPllRelockTimeout q) s = .next (settle s s)) ∧
  (∀ (q : Fin 17) (n : Nat) (s : State), Served s → s.nominal = true → (s.pllRec q).on = true → s.pllLocked q = false → n ∈ pllLanes q → laneState s n ≠ 0 →
    exec (.quadPllRelockTimeout q) s = .next (settle s (forEach ((pllLanes q).filter (fun n => laneState s n != 0)) (fun n s => if laneState s n = 6 then s else laneFault n s)
      (if q < 16 then s.ev (LN_QUAD_STATUS_PLL_FAIL q) else s)))) ∧
  (∀ (q : Fin 17) (s : State), (s.pllRec q).on = false → planOk s q = true → ((pllUp q s).pllRec q).on = true ∧
    ((pllUp q s).pllRec q).waits = true ∧ (pllUp q s).pllLocked q = (if q < 16 then s.on (LN_QUAD_STATUS_PLL_LOCKED q) else false))

/-- The states of a lane: enable, signal, CDR, training, alignment, losses and failures (R212, R214, R216, R217, R221, R222, R224, R225, R237). -/
def Obligations.LaneStateCommands : Prop :=
  (∀ (m : BusMaster) (n : Fin 65) (v : Word) (s : State), Writable m (LN_CTRL n) (withField (LN_CTRL_EN n) 1 v) s → ∃ R c,
    Stands m .LN_CTRL n 0 (LN_CTRL n).one (withField (LN_CTRL_EN n) 1 v).toNat s R c ∧ R.now (LN_CTRL_EN n) = 1 ∧
    exec (.laneEnable m n v) s = .next (settle s (laneWritten R c))) ∧
  (∀ (m : BusMaster) (n : Fin 65) (v : Word) (s : State), Writable m (LN_CTRL n) (withField (LN_CTRL_EN n) 0 v) s → ∃ R c,
    Stands m .LN_CTRL n 0 (LN_CTRL n).one (withField (LN_CTRL_EN n) 0 v).toNat s R c ∧ R.now (LN_CTRL_EN n) = 0 ∧
    exec (.laneDisable m n v) s = .next (settle s (laneWritten R c))) ∧
  (∀ (n : Fin 65) (s : State), Served s → s.nominal = true → (laneLooped s n && laneIdle s n) = false → laneState s n = 1 →
    (∃ u : State, exec (.laneSignalDetected n) s = .next (settle s u) ∧ laneState u n = 2 ∧ u.on (LN_STATUS_LOS n) = false ∧
      u.get (LN_EQ_PEAK_CUR n) = s.get (LN_EQ_PEAK n) ∧ (u.laneRec n).train = (s.on (LN_CTRL_TRAIN_EN n) && laneRate s n != 0) ∧
      (u.laneRec n).gaveUp = false)) ∧
  (∀ (n : Fin 65) (s : State), Served s → laneState s n = 2 →
    exec (.laneCdrLocked n) s = .next (settle s (laneSet n (if (s.laneRec n).train then 4 else 3) (cdrSet n true (s.put (LN_STATUS_LOS n) 0))))) ∧
  (∀ (n : Fin 65) (s : State), Served s → s.nominal = true → laneState s n = 2 → s.cdrLock n = false → (s.laneRec n).fails < 7 →
    (∃ u : State, exec (.cdrTimeout n) s = .next (settle s u) ∧ laneState u n = 1 ∧
      u.on (LN_EVENT_CDR_TIMEOUT n) = true ∧ (u.laneRec n).fails = (s.laneRec n).fails + 1 ∧
      u.get (LN_STATUS_BACKOFF n) = (if s.get (LN_STATUS_BACKOFF n) = 0 then 10 else min (2 * s.get (LN_STATUS_BACKOFF n)) 1000) ∧
      u.get (LN_TX_CUR_MAIN n) = s.get (LN_TX_PRESET_MAIN n))) ∧
  (∀ (n : Fin 65) (s : State), Served s → s.nominal = true → laneState s n = 2 →
    exec (.cdrTimeout n) s = .next (settle s (laneFail n (s.ev (LN_EVENT_CDR_TIMEOUT n))))) ∧
  (∀ (n : Fin 65) (l : List TrainFrame) (t : TrainFrame) (s : State), Served s → laneState s n = 4 → laneLooped s n = false → l.getLast? = some t → t.ready = true →
    exec (.laneTrainingDone n l) s = .next (settle s (laneSet n 3 (forEach l (trainFrame n) s)))) ∧
  (∀ (n : Fin 65) (l : List TrainFrame) (t : TrainFrame) (s : State), Served s → laneState s n = 4 → laneLooped s n = false → l.getLast? = some t → t.ready = false →
    exec (.laneTrainingDone n l) s = .next (settle s (forEach l (trainFrame n) s))) ∧
  (∀ (n : Fin 65) (l : List TrainFrame) (t : TrainFrame) (s : State), Served s → laneState s n = 4 → laneLooped s n = true → l.getLast? = some t → t.ready = true →
    exec (.laneTrainingDone n l) s = .next (settle s (laneSet n 3 (forEach l (fun x => ownTrain n x.ready) s)))) ∧
  (∀ (n : Fin 65) (t : TrainFrame) (s : State),
    (t.preset = true → (trainFrame n t s).get (LN_TX_CUR_PRE n) = 0 ∧ (trainFrame n t s).get (LN_TX_CUR_MAIN n) = 63 ∧
      (trainFrame n t s).get (LN_TX_CUR_POST n) = 0) ∧
    (t.preset = false → t.initial = false → t.pre = .hold → t.post = .hold → t.main = .decrement →
      (trainFrame n t s).get (LN_TX_CUR_PRE n) = s.get (LN_TX_CUR_PRE n) ∧
      (trainFrame n t s).get (LN_TX_CUR_MAIN n) = s.get (LN_TX_CUR_MAIN n) - 1 ∧
      (trainFrame n t s).get (LN_TX_CUR_POST n) = s.get (LN_TX_CUR_POST n))) ∧
  (∀ (n : Fin 65) (s : State), Served s → s.nominal = true → laneState s n = 4 →
    (∃ u : State, exec (.trainFallback n) s = .next (settle s u) ∧ laneState u n = 3 ∧ u.on (LN_EVENT_TRAIN_FALLBACK n) = true ∧
      u.get (LN_TX_CUR_PRE n) = s.get (LN_TX_PRESET_PRE n) ∧ u.get (LN_TX_CUR_MAIN n) = s.get (LN_TX_PRESET_MAIN n) ∧
      u.get (LN_TX_CUR_POST n) = s.get (LN_TX_PRESET_POST n) ∧ (u.laneRec n).gaveUp = true)) ∧
  (∀ (n : Fin 65) (s : State), Served s → (laneLooped s n && !laneIdle s n) = true →
    exec (.laneLossOfSignal n .signal) s = .next (settle s s)) ∧
  (∀ (n : Fin 65) (s : State), Served s → s.nominal = true → (laneLooped s n && !laneIdle s n) = false → laneState s n = 4 →
    exec (.laneLossOfSignal n .signal) s = .next (settle s (laneFail n ((s.put (LN_STATUS_LOS n) 1).ev (LN_EVENT_TRAIN_LOS n))))) ∧
  (∀ (n : Fin 65) (x : LossCause) (s : State), Served s → s.nominal = true → x ≠ .signal → laneState s n = 5 →
    exec (.laneLossOfSignal n x) s = .next (settle s (laneDetect n (laneLost n s)))) ∧
  (∀ (n : Fin 65) (s : State), Served s → s.nominal = true → (laneLooped s n && !laneIdle s n) = false → laneState s n = 5 →
    exec (.laneLossOfSignal n .signal) s = .next (settle s (laneDetect n (laneLost n (s.put (LN_STATUS_LOS n) 1))))) ∧
  (∀ (n : Fin 65) (x : LossCause) (s : State), Served s → s.nominal = true → laneState s n ≠ 4 → laneState s n ≠ 5 →
    (∃ u : State, exec (.laneLossOfSignal n x) s = .next (settle s u) ∧ laneState u n = laneState s n ∧ u.lanes = s.lanes ∧
      (x = .signal → laneState s n ≠ 0 → (laneLooped s n && !laneIdle s n) = false → u.on (LN_STATUS_LOS n) = true))) ∧
  (∀ (n : Fin 65) (lat : List LaneLat) (s : State), Served s → (lat.length ≠ (laneGroup s n).length ∨ ∃ k ∈ laneGroup s n, laneState s k ≠ 3) →
    exec (.laneAligned n lat) s = .next (settle s s)) ∧
  (∀ (n : Fin 65) (lat : List LaneLat) (s : State), Served s → lat.length = (laneGroup s n).length → (∀ k ∈ laneGroup s n, laneState s k = 3) →
    (∀ l ∈ lat, l.deskew.val ≤ 4800) →
    exec (.laneAligned n lat) s = .next (settle s (portEval (laneOwner (forEach ((laneGroup s n).zip lat) (fun e s => laneLink e.1 e.2 s) s) n)
      (forEach ((laneGroup s n).zip lat) (fun e s => laneLink e.1 e.2 s) s)))) ∧
  (∀ (n : Fin 65) (s : State), Served s → s.nominal = true → laneState s n = 3 →
    exec (.alignTimeout n) s = .next (settle s (laneFail n (s.ev (LN_EVENT_ALIGN_TIMEOUT n))))) ∧
  (∀ (n : Fin 65) (s : State), Served s → s.nominal = true → laneState s n = 5 →
    (∃ u : State, exec (.laneBackoffReset n) s = .next (settle s u) ∧ u.get (LN_STATUS_BACKOFF n) = 0 ∧ laneState u n = 5)) ∧
  (∀ (n : Fin 65) (t : List TrainFrame) (lat : List LaneLat) (x : LossCause) (s : State), Served s →
    (s.nominal = false → ∀ i ∈ ([.laneSignalDetected n, .cdrTimeout n, .trainFallback n, .alignTimeout n, .laneBackoffReset n,
        .laneLossOfSignal n x, .laneSwitchForce n lat] : List Instr),
      exec i s = .next (settle s s)) ∧
    (laneState s n ≠ 1 → exec (.laneSignalDetected n) s = .next (settle s s)) ∧
    (laneState s n ≠ 2 → exec (.laneCdrLocked n) s = .next (settle s s) ∧ exec (.cdrTimeout n) s = .next (settle s s)) ∧
    (laneState s n ≠ 4 → exec (.laneTrainingDone n t) s = .next (settle s s) ∧ exec (.trainFallback n) s = .next (settle s s)) ∧
    (laneState s n ≠ 3 → exec (.alignTimeout n) s = .next (settle s s)) ∧
    (laneState s n ≠ 5 → exec (.laneBackoffReset n) s = .next (settle s s))) ∧
  (∀ (n : Fin 65) (l : LaneLat) (s : State), laneState (laneLink n l s) n = 5 ∧ ((laneLink n l s).laneRec n).fails = 0 ∧
    (laneLink n l s).on (LN_LAT_VALID n) = true ∧ (laneLink n l s).get (LN_EB_FILL n) = 16)

/-- Clocking modes of a lane, and the recovered-clock selectors (R226, R228, R229, R230, R231, R232, R237, R238, R239, R303). -/
def Obligations.LaneClockingCommands : Prop :=
  (∀ (m : BusMaster) (n : Fin 65) (v : Word) (s : State), Writable m (LN_CTRL n) v s → ∃ R c,
    Stands m .LN_CTRL n 0 (LN_CTRL n).one v.toNat s R c ∧
    exec (.laneClockReqWrite m n v) s = .next (settle s (laneWritten R c))) ∧
  (∀ (n : Fin 65) (l : List Beat) (e : Nat) (s : State), Served s →
    exec (.laneSyntEstimate n l e) s = .next (settle s (syntEstimate n (laneBeats n e l s)))) ∧
  (∀ (n : Fin 65) (l : List Beat) (e : Nat) (s : State), (laneBeats n e l s).clk = s.clk) ∧
  (∀ (n : Fin 65) (e : Nat) (s : State), Served s → (laneState s n ≠ 5 ∨ s.nominal = false ∨ s.clk < (s.laneRec n).winFrom + winTicks) →
    exec (.laneSyntEstimate n [] e) s = .next (settle s s)) ∧
  (∀ (n : Fin 65) (e : Nat) (s : State), Served s → laneState s n = 5 → s.nominal = true → (s.laneRec n).winFrom + winTicks ≤ s.clk →
    (∃ u : State, exec (.laneSyntEstimate n [] e) s = .next (settle s u) ∧ u.on (LN_STATUS_SYNT_OK n) = estimateOk s n (estimateWindow s n) ∧
      (u.laneRec n).passRun = (if estimateOk s n (estimateWindow s n) then (s.laneRec n).passRun + 1 else 0) ∧
      (u.laneRec n).failRun = (if estimateOk s n (estimateWindow s n) then 0 else (s.laneRec n).failRun + 1) ∧
      (s.on (LN_STATUS_CLOCK_EFF n) = true → 2 ≤ (s.laneRec n).failRun → estimateOk s n (estimateWindow s n) = false →
        (u.laneRec (laneHead s n)).switch = some false))) ∧
  (∀ (n : Fin 65) (s : State), Served s → laneState s n = 5 → s.on (LN_STATUS_CLOCK_EFF n) = true →
    (∃ u : State, exec (.laneCrossingMargin n) s = .next (settle s u) ∧ (u.laneRec (laneHead s n)).switch = some false ∧ u.regs = s.regs)) ∧
  (∀ (n : Fin 65) (s : State), Served s → (laneState s n ≠ 5 ∨ s.on (LN_STATUS_CLOCK_EFF n) = false) →
    exec (.laneCrossingMargin n) s = .next (settle s s)) ∧
  (∀ (n : Fin 65) (lat : List LaneLat) (s : State), Served s → ((s.laneRec (laneHead s n)).switch = none ∨
      lat.length ≠ (laneGroup s n).length ∨ laneState s (laneHead s n) ≠ 5) →
    exec (.laneClockSwitch n lat) s = .next (settle s s) ∧ exec (.laneSwitchForce n lat) s = .next (settle s s)) ∧
  (∀ (n : Fin 65) (lat : List LaneLat) (synt : Bool) (s : State), Served s → (s.laneRec (laneHead s n)).switch = some synt →
    lat.length = (laneGroup s n).length → laneState s (laneHead s n) = 5 → ∃ t,
    t = forEach ((laneGroup s n).zip lat) (fun e x => laneSwitch synt (s.laneRec (laneHead s n)).counted e.1 e.2 x) s ∧
    exec (.laneClockSwitch n lat) s = .next (settle s (xcRefreshAll (latRefresh (laneOwner s n) (fineRefresh (laneOwner s n) t)))) ∧
    (s.nominal = true → (s.portRec (laneOwner s n)).rx = none →
      exec (.laneSwitchForce n lat) s = .next (settle s (xcRefreshAll (latRefresh (laneOwner s n) (fineRefresh (laneOwner s n) t)))))) ∧
  (∀ (n : Fin 65) (counted : Bool) (l : LaneLat) (s : State),
    (laneSwitch true counted n l s).on (LN_STATUS_CLOCK_EFF n) = true ∧ (laneSwitch true counted n l s).get (LN_EB_FILL n) = 0 ∧
    (laneSwitch false counted n l s).on (LN_STATUS_CLOCK_EFF n) = false ∧ (laneSwitch false counted n l s).get (LN_EB_FILL n) = 16 ∧
    (laneSwitch false counted n l s).on (LN_EVENT_SYNT_FALLBACK n) = true) ∧
  (∀ (m : BusMaster) (k : Fin 4) (v : Word) (s : State), Writable m (LN_RCS_CFG k) v s → ∃ R c,
    Stands m .LN_RCS_CFG k 0 (LN_RCS_CFG k).one v.toNat s R c ∧
    exec (.rcsLaneWrite m k v) s = .next (settle s (rcsWritten k (R.was (LN_RCS_CFG_LANE k)) (R.was (LN_RCS_CFG_EN k) != 0) c))) ∧
  (∀ (k : Fin 4) (s : State), Served s → s.nominal = false →
    exec (.rcsRestart k) s = .next (settle s s)) ∧
  (∀ (k : Fin 4) (s : State), Served s → s.nominal = true →
    exec (.rcsRestart k) s = .next (settle s (rcsRefresh k { s with rcsHeld := smSet false s.rcsHeld k false }))) ∧
  (∀ (k : Fin 4) (s : State), s.on (LN_RCS_CFG_EN k) = true → smGet false s.rcsHeld k = false →
    s.cdrLock (s.get (LN_RCS_CFG_LANE k)) = true → (rcsRefresh k s).on (LN_RCS_CFG_ACTIVE k) = true)

/-- Pattern generators and checkers, and eye scans (R240, R241, R242, R243, R245, R246, R247). -/
def Obligations.PatternAndEyeCommands : Prop :=
  (∀ (m : BusMaster) (n : Fin 65) (v : Word) (s : State), Writable m (LN_PRBS_CTRL n) (withField (LN_PRBS_CTRL_GEN_EN n) 1 v) s → ∃ R c,
    Stands m .LN_PRBS_CTRL n 0 (LN_PRBS_CTRL n).one (withField (LN_PRBS_CTRL_GEN_EN n) 1 v).toNat s R c ∧ R.now (LN_PRBS_CTRL_GEN_EN n) = 1 ∧
    exec (.prbsGenEnable m n v) s = .next (settle s (prbsWritten R c))) ∧
  (∀ (m : BusMaster) (n : Fin 65) (v : Word) (s : State), Writable m (LN_PRBS_CTRL n) (withField (LN_PRBS_CTRL_INJ_SINGLE n) 1 v) s → ∃ R c,
    Stands m .LN_PRBS_CTRL n 0 (LN_PRBS_CTRL n).one (withField (LN_PRBS_CTRL_INJ_SINGLE n) 1 v).toNat s R c ∧ R.field R.v (LN_PRBS_CTRL_INJ_SINGLE n) ≠ 0 ∧
    exec (.injSingle m n v) s = .next (settle s (prbsWritten R c))) ∧
  (∀ (n : Fin 65) (s : State), s.on (LN_PRBS_CTRL_GEN_EN n) = true → s.stage = 0 → ((injectBit n s).laneRec n).gen.inj = true) ∧
  (∀ (c : PatCfg) (g : GenRec), (genBit c none { g with inj := true }).1 = !(genBit c none { g with inj := false }).1 ∧
    (genBit c none g).2.inj = false) ∧
  (∀ (c : PatCfg) (b : Bool) (k : ChkRec) (n : Nat),
    (chkBit c b (k, true, n)).2.2 = n + ((b != c.invert) != c.bit k.st).toNat ∧
    (chkBit c b (k, true, n)).2.1 = decide (((((b != c.invert) != c.bit k.st) :: k.errs).take 64).count true < 16) ∧
    (chkBit c b (k, false, n)).2.2 = n ∧
    (chkBit c b (k, false, n)).2.1 = (decide ((((b != c.invert) :: k.last).take 64).length = 64) &&
      (c.lock (((b != c.invert) :: k.last).take 64).reverse).isSome)) ∧
  (∀ (n : Fin 65) (l : List Bool) (s : State), Served s →
    (∀ i ∈ ([.prbsCheckerLock ⟨n, l⟩, .prbsCheckerUnlock n l] : List Instr),
      (laneLooped s n = true ∨ s.on (LN_PRBS_CTRL_CHK_EN n) = false ∨ s.stage ≠ 0 → exec i s = .next (settle s s))) ∧
    (laneLooped s n = false → s.on (LN_PRBS_CTRL_CHK_EN n) = true → s.stage = 0 →
      exec (.prbsCheckerLock ⟨n, l⟩) s = .next (settle s (checkerTake n l s)) ∧
      exec (.prbsCheckerUnlock n l) s = .next (settle s (checkerTake n l s)) ∧
      (checkerTake n l s).on (LN_PRBS_STATUS_CHK_LOCK n) = (l.foldl (fun x b => chkBit (lanePattern s n) (b != s.on (LN_CTRL_RX_POL_INV n)) x)
        ((s.laneRec n).chk, s.on (LN_PRBS_STATUS_CHK_LOCK n), 0)).2.1)) ∧
  (∀ (n : Fin 65) (k : Nat) (s : State), (prbsErrors n k s).wide (LN_PRBS_ERR n) = min (s.wide (LN_PRBS_ERR n) % 2 ^ 48 + k) (2 ^ 48 - 1) ∧
    (2 ^ 48 ≤ s.wide (LN_PRBS_ERR n) % 2 ^ 48 + k → (prbsErrors n k s).on (LN_PRBS_STATUS_OVF n) = true)) ∧
  (∀ (m : BusMaster) (n : Fin 65) (v : Word) (s : State), Writable m (LN_EYE_CTRL n) (withField (LN_EYE_CTRL_START n) 1 v) s → (s.laneRec n).eye = 0 → ∃ R c,
    Stands m .LN_EYE_CTRL n 0 (LN_EYE_CTRL n).one (withField (LN_EYE_CTRL_START n) 1 v).toNat s R c ∧
    exec (.eyeScanStart m n v) s = .next (settle s (eyeStart n c))) ∧
  (∀ (n : Fin 65) (s : State), (s.cdrLock n = false → (eyeStart n s).get (LN_EYE_STATUS_RESULT n) = 3 ∧ (eyeStart n s).lanes = s.lanes) ∧
    (s.cdrLock n = true → s.stage ≠ 0 → (eyeStart n s).get (LN_EYE_STATUS_RESULT n) = 2 ∧ (eyeStart n s).lanes = s.lanes) ∧
    (s.cdrLock n = true → s.stage = 0 → ((eyeStart n s).laneRec n).eye = (if offsetsBusy s then 2 else 1) ∧
      (eyeStart n s).get (LN_EYE_STATUS_RESULT n) = 0 ∧ (eyeStart n s).get (LN_EYE_ERR_V n) = 0)) ∧
  (∀ (n : Fin 65) (errs : Nat) (s : State), Served s → (s.laneRec n).eye = 1 →
    (∃ u : State, exec (.eyeScanDone n errs) s = .next (settle s u) ∧ u.get (LN_EYE_ERR_V n) = min errs (2 ^ 32 - 1) ∧
      u.get (LN_EYE_STATUS_RESULT n) = 1 ∧ u.on (LN_EQ_FROZEN n) = false ∧ (u.laneRec n).eye = 0)) ∧
  (∀ (n : Fin 65) (errs : Nat) (s : State), Served s → (s.laneRec n).eye ≠ 1 →
    exec (.eyeScanDone n errs) s = .next (settle s s))

/-- Ports: enable, disable, the hold times and the end of a flush (R46, R255, R258, R259, R260, R430). -/
def Obligations.PortCommands : Prop :=
  (∀ (m : BusMaster) (p : Fin 66) (v : Word) (s : State), Writable m (MAC_CFG p) (withField (MAC_CFG_EN p) 1 v) s → ∃ R c,
    Stands m .MAC_CFG p 0 (MAC_CFG p).one (withField (MAC_CFG_EN p) 1 v).toNat s R c ∧ R.now (MAC_CFG_EN p) = 1 ∧
    exec (.portEnable m p v) s = .next (settle s (portWritten R c))) ∧
  (∀ (m : BusMaster) (p : Fin 66) (v : Word) (s : State), Writable m (MAC_CFG p) (withField (MAC_CFG_EN p) 0 v) s → ∃ R c,
    Stands m .MAC_CFG p 0 (MAC_CFG p).one (withField (MAC_CFG_EN p) 0 v).toNat s R c ∧ R.now (MAC_CFG_EN p) = 0 ∧
    exec (.portDisable m p v) s = .next (settle s (portWritten R c))) ∧
  (∀ (p : Fin 66) (s : State), portState s p = 0 → s.on (MAC_STATUS_FLUSH_BUSY p) = true →
    ((portOn p s).portRec p).heldEnable = true ∧ (portOn p s).on (MAC_CFG_EN p) = true ∧ portState (portOn p s) p = 0) ∧
  (∀ (p : Fin 66) (s : State), portErrors s p ≠ [] → portState s p = 0 → s.on (MAC_STATUS_FLUSH_BUSY p) = false →
    (portOn p s).on (MAC_CFG_EN p) = false ∧ portState (portOn p s) p = 0 ∧ (portOn p s).on GLB_MODE_ERR_VALID = true) ∧
  (∀ (p : Fin 66) (s : State), portState s p = 0 → (portOff p s).on (MAC_CFG_EN p) = false ∧
    ((portOff p s).portRec p).heldEnable = false ∧ portState (portOff p s) p = 0) ∧
  (∀ (p : Fin 66) (s : State), Served s → portState s p = 1 → portLinked s p = true →
    exec (.portUpHoldExpire p) s = .next (settle s (portTo p 4 s))) ∧
  (∀ (p : Fin 66) (s : State), Served s → (portState s p ≠ 1 ∨ portLinked s p = false) →
    exec (.portUpHoldExpire p) s = .next (settle s s)) ∧
  (∀ (p : Fin 66) (s : State), Served s → portState s p = 2 → portLinked s p = true →
    exec (.portDownHoldExpire p) s = .next (settle s (portTo p 4 s))) ∧
  (∀ (p : Fin 66) (s : State), Served s → portState s p = 2 → portLinked s p = false →
    exec (.portDownHoldExpire p) s = .next (settle s (portFlushStart p (portTo p 3 s)))) ∧
  (∀ (p : Fin 66) (s : State), Served s → portState s p ≠ 2 →
    exec (.portDownHoldExpire p) s = .next (settle s s)) ∧
  (∀ (p : Fin 66) (s : State), Served s → s.on (MAC_STATUS_FLUSH_BUSY p) = false →
    exec (.flushDone p) s = .next (settle s s)) ∧
  (∀ (p : Fin 66) (s : State), Served s → s.on (MAC_STATUS_FLUSH_BUSY p) = true → portState ((portFlushEnd p s).ev (MAC_EVENT_FLUSH_DONE p)) p = 3 →
    exec (.flushDone p) s = .next (settle s (portEval p (portTo p 1 ((portFlushEnd p s).ev (MAC_EVENT_FLUSH_DONE p)))))) ∧
  (∀ (p : Fin 66) (s : State), Served s → s.on (MAC_STATUS_FLUSH_BUSY p) = true →
    (portState ((portFlushEnd p s).ev (MAC_EVENT_FLUSH_DONE p)) p = 1 ∨ portState ((portFlushEnd p s).ev (MAC_EVENT_FLUSH_DONE p)) p = 2 ∨
      portState ((portFlushEnd p s).ev (MAC_EVENT_FLUSH_DONE p)) p = 4) →
    exec (.flushDone p) s = .next (settle s ((portFlushEnd p s).ev (MAC_EVENT_FLUSH_DONE p)))) ∧
  (∀ (p : Fin 66) (s : State), Served s → p.val < 64 → s.get (XC_PORT_STATUS_VERIFY p) = 1 →
    (∃ u : State, exec (.verifyDone p true) s = .next (settle s u) ∧ u.get (XC_PORT_STATUS_VERIFY p) = 2 ∧ u.on (XC_PORT_STATUS_PREEMPT_ACTIVE p) = true)) ∧
  (∀ (p : Fin 66) (s : State), Served s → p.val < 64 → s.get (XC_PORT_STATUS_VERIFY p) = 1 →
    (∃ u : State, exec (.verifyDone p false) s = .next (settle s u) ∧ u.get (XC_PORT_STATUS_VERIFY p) = 3 ∧ u.on XC_EVENT_VERIFY_FAIL = true)) ∧
  (∀ (p : Fin 66) (ok : Bool) (s : State), Served s → (64 ≤ p.val ∨ s.get (XC_PORT_STATUS_VERIFY p) ≠ 1) →
    exec (.verifyDone p ok) s = .next (settle s s))

/-- Frames: the decision, the end, the schedule, the mPackets and the launch (R71, R235, R263, R370, R377, R418, R432, R470, R475). -/
def Obligations.FrameCommands : Prop :=
  (∀ (i : Instr) (rx : RxWindow) (l : List Byte) (b : Bool) (tx : TxTiming) (mp : MPacket) (s : State), s.inReset = false →
    i ∈ ([.frameDecision 64 rx, .frameEnd 64 l b, .egressSchedule 64 tx, .mpacketRx 64 mp, .xcLaunch 64 tx] : List Instr) →
    exec i s = .next (settle s s)) ∧
  (∀ (p : Fin 66) (rx : RxWindow) (s : State), s.inReset = false → p ≠ 64 → portLooped s p = false → s.gated = true →
    (∃ u : State, exec (.frameDecision p rx) s = .next (settle s u) ∧ u.regs = s.regs ∧ u.frames = s.frames ∧
      (rx.ended = false → (u.portRec p).gateRx = true))) ∧
  (∀ (p : Fin 66) (rx : RxWindow) (s : State), s.inReset = false → portLooped s p = false → s.gated = false → s.portUp p = false →
    exec (.frameDecision p rx) s = .next (settle s s)) ∧
  (∀ (p : Fin 66) (rx : RxWindow) (s : State), s.inReset = false → p ≠ 64 → portLooped s p = false → s.gated = false → s.portUp p = true → (s.portRec p).rx = none → rx.eb = [] →
    rx.ended = false →
    exec (.frameDecision p rx) s = .next (settle s (frameDecide p rx (arrival s p rx.rx) {} s))) ∧
  (∀ (p : Fin 66) (rx : RxWindow) (s : State), s.inReset = false → p ≠ 64 → portLooped s p = false → s.gated = false → s.portUp p = true → (s.portRec p).rx = none → rx.eb = [] →
    rx.ended = true →
    exec (.frameDecision p rx) s = .next (settle s (frameEnd p [] rx.bad true (frameDecide p rx (arrival s p rx.rx) {} s)))) ∧
  (∀ (p : Fin 66) (rx : RxWindow) (s : State), s.inReset = false → portLooped s p = true → (∀ b t, (s.portRec p).looped ≠ (false, b) :: t) →
    exec (.frameDecision p rx) s = .next (settle s s)) ∧
  (∀ (p : Fin 66) (rx : RxWindow) (b : List Byte) (t : List (Bool × List Byte)) (s : State), s.inReset = false → portLooped s p = true → (s.portRec p).looped = (false, b) :: t →
    exec (.frameDecision p rx) s = .next (settle s (frameArrive p { rx with bytes := b, ended := true, bad := false } (s.setPort p { s.portRec p with looped := t })))) ∧
  (∀ (p : Fin 66) (l : List Byte) (bad : Bool) (s : State), s.inReset = false → p ≠ 64 → s.gated = true →
    (∃ u : State, exec (.frameEnd p l bad) s = .next (settle s u) ∧ u.regs = s.regs ∧ u.frames = s.frames ∧ (u.portRec p).gateRx = false)) ∧
  (∀ (p : Fin 66) (l : List Byte) (bad : Bool) (s : State), s.inReset = false → s.gated = false → (s.portRec p).rx = none →
    exec (.frameEnd p l bad) s = .next (settle s s)) ∧
  (∀ (p : Fin 66) (l : List Byte) (bad : Bool) (f : Nat) (s : State), s.inReset = false → p ≠ 64 → s.gated = false → (s.portRec p).rx = some f →
    exec (.frameEnd p l bad) s = .next (settle s (frameFinish f (bad || (s.frameRec f).poisoned) true (s.setFrame f { s.frameRec f with bytes := (s.frameRec f).bytes ++ l })))) ∧
  (∀ (p : Fin 66) (tx : TxTiming) (s : State), s.inReset = false → s.gated = true →
    exec (.egressSchedule p tx) s = .next (settle s s)) ∧
  (∀ (p : Fin 66) (tx : TxTiming) (s : State), s.inReset = false → p ≠ 64 → s.gated = false → egressFree (txAdvance p 0 s) p = false →
    exec (.egressSchedule p tx) s = .next (settle s (txAdvance p 0 s))) ∧
  (∀ (p : Fin 66) (x : TxRec) (s : State), (s.portRec p).tx = none → (s.portRec p).held = some x → (s.portRec p).launches = [] →
    txAdvance p 0 s = s.setPort p { s.portRec p with tx := some { x with start := s.nowPs }, held := none }) ∧
  (∀ (p : Fin 66) (tx : TxTiming) (s : State), s.inReset = false → egressFree (txAdvance p 0 s) p = true → s.gated = false → ∀ t,
    t = creditSyncPort p (forEach (List.range 8) (fun q s => residenceOf (8 * p + q) (queueJoin (8 * p + q) s)) (txAdvance p 0 s)) →
    (∀ o l, (t.portRec p).ferry = o :: l → launchRoom t p ((o.bytes.length + 4) * byteTime (t.rate p)) false = true →
      exec (.egressSchedule p tx) s = .next (settle s (ferrySend p o tx (t.setPort p { t.portRec p with ferry := l })))) ∧
    ((t.portRec p).ferry = [] → ∀ q c, (pick p t).1 = some q → eligible (pick p t).2 (8 * p + q) = some c →
      exec (.egressSchedule p tx) s = .next (settle s (copyStart p q c tx (pick p t).2)))) ∧
  (∀ (p : Fin 66) (mp : MPacket) (s : State), s.inReset = false → s.gated = true →
    exec (.mpacketRx p mp) s = .next (settle s s)) ∧
  (∀ (p : Fin 66) (mp : MPacket) (s : State), s.inReset = false → (s.portUp p = false ∨ preemptOn s p = false) → mp.eb = [] →
    exec (.mpacketRx p mp) s = .next (settle s s)) ∧
  (∀ (p : Fin 66) (k : Fin 4) (rx : RxTiming) (l : List Byte) (s : State), s.inReset = false → p ≠ 64 → s.portUp p = true → preemptOn s p = true → s.gated = false → portLooped s p = false → (s.portRec p).fragOpen = false →
    (∃ u : State, exec (.mpacketRx p ⟨smdStart k :: (l ++ mCrc l), rx, []⟩) s = .next (settle s u) ∧ (u.portRec p).fragOpen = true ∧ (u.portRec p).fragBytes = l ∧ (u.portRec p).fragNum = k.val ∧ (u.portRec p).fragCount = 0 ∧
      (u.portRec p).fragArr = arrival s p rx ∧ u.regs = s.regs)) ∧
  (∀ (p : Fin 66) (k : Fin 4) (rx : RxTiming) (l : List Byte) (s : State), s.inReset = false → p ≠ 64 → s.portUp p = true → preemptOn s p = true → s.gated = false → portLooped s p = false → (s.portRec p).fragOpen = true → (s.portRec p).fragNum = k.val → (s.portRec p).fragCount < 4 →
    (∃ u : State, exec (.mpacketRx p ⟨smdCont k :: fragCode (s.portRec p).fragCount :: (l ++ mCrc ((s.portRec p).fragBytes ++ l)), rx, []⟩) s = .next (settle s u) ∧ (u.portRec p).fragOpen = true ∧ (u.portRec p).fragBytes = (s.portRec p).fragBytes ++ l ∧ (u.portRec p).fragNum = k.val ∧
      (u.portRec p).fragCount = ((s.portRec p).fragCount + 1) % 4 ∧ (u.portRec p).fragArr = (s.portRec p).fragArr ∧ u.regs = s.regs)) ∧
  (∀ (p : Fin 66) (rx : RxTiming) (s : State), s.inReset = false → p ≠ 64 → s.portUp p = true → preemptOn s p = true → s.gated = false → portLooped s p = false →
    (∃ u : State, exec (.mpacketRx p ⟨smdPacket smdVerify, rx, []⟩) s = .next (settle s u) ∧ u.out = s.out ++ [.mpacket p (smdPacket smdRespond)] ∧ u.regs = s.regs)) ∧
  (∀ (p : Fin 66) (k : Fin 4) (rx : RxTiming) (l : List Byte) (s : State), s.inReset = false → p ≠ 64 → s.portUp p = true → preemptOn s p = true → s.gated = false → portLooped s p = false → (s.portRec p).fragOpen = false →
    (∃ u : State, exec (.mpacketRx p ⟨smdCont k :: l, rx, []⟩) s = .next (settle s u) ∧ u.get (XC_PORT_CNT1_REASM_ERR p) = (s.get (XC_PORT_CNT1_REASM_ERR p) + 1) % 2 ^ (XC_PORT_CNT1_REASM_ERR p).width ∧ u.ports = s.ports)) ∧
  (∀ (p : Fin 66) (tx : TxTiming) (s : State), s.inReset = false → (s.gated = true ∨ (s.portRec p).launches.find? (fun l => !l.launched) = none) →
    exec (.xcLaunch p tx) s = .next (settle s s)) ∧
  (∀ (p : Fin 66) (tx : TxTiming) (l : LaunchRec) (s : State), s.inReset = false → (s.portRec p).launches.find? (fun l => !l.launched) = some l → 5 * (s.clk : Int) + 5 ≤ l.at_ →
    exec (.xcLaunch p tx) s = .next (settle s s)) ∧
  (∀ (p : Fin 66) (tx : TxTiming) (l : LaunchRec) (s : State), s.inReset = false → p ≠ 64 → s.gated = false → (s.portRec p).launches.find? (fun l => !l.launched) = some l → l.at_ < 5 * (s.clk : Int) + 5 → s.tbState = 0 →
    exec (.xcLaunch p tx) s = .next (settle s (launchDivert p l s))) ∧
  (∀ (p : Fin 66) (tx : TxTiming) (l : LaunchRec) (s : State), s.inReset = false → p ≠ 64 → s.gated = false → (s.portRec p).launches.find? (fun l => !l.launched) = some l → l.at_ < 5 * (s.clk : Int) + 5 → s.tbState ≠ 0 →
    (∃ u : State, exec (.xcLaunch p tx) s = .next (settle s u) ∧ (u.copyRec l.copy).stamp = (launchStamp s p ((l.at_ - 5 * s.clk) * vFab + l.fine) tx).1 ∧
      (∀ x ∈ (u.portRec p).launches, x.copy = l.copy → x.launched = true) ∧ u.frames = s.frames ∧
      u.get (XC_STREAM_CNT0_CROSSED l.stream) = (s.get (XC_STREAM_CNT0_CROSSED l.stream) + 1) % 2 ^ (XC_STREAM_CNT0_CROSSED l.stream).width))

/-- Phase: samples, the transmit survey, channel configuration and the ports' trims (R292, R294, R295, R296, R297, R301, R302, R306, R316, R322). -/
def Obligations.PhaseCommands : Prop :=
  (∀ (n : Fin 80) (s : State), Served s → (n.val = 78 → s.on CAL_STATUS_CH78_BUSY = false) → (s.phaRec n).lostAt ≠ some s.clk →
    (∃ u : State, exec (.phaSample n .absent) s = .next (settle s u) ∧ u.on (PHA_CH_SAMPLE_VALID n) = false ∧ u.on (PHA_CH_SAMPLE_NO_CLK n) = true ∧
      (u.phaRec n).recent = [] ∧ (u.phaRec n).last = none)) ∧
  (∀ (n : Fin 80) (b : Beat) (s : State), Served s → (n.val = 78 → s.on CAL_STATUS_CH78_BUSY = false) → (s.phaRec n).lostAt ≠ some s.clk → chanRuns s n = false →
    (∃ u : State, exec (.phaSample n b) s = .next (settle s u) ∧ u.on (PHA_CH_SAMPLE_VALID n) = false ∧ u.on (PHA_CH_SAMPLE_NO_CLK n) = true ∧
      (u.phaRec n).recent = [] ∧ (u.phaRec n).last = none)) ∧
  (∀ (b : Beat) (s : State), Served s → s.on CAL_STATUS_CH78_BUSY = true →
    exec (.phaSample 78 b) s = .next (settle s s)) ∧
  (∀ (n : Fin 80) (b : Beat) (s : State), Served s → (s.phaRec n).lostAt = some s.clk →
    exec (.phaSample n b) s = .next (settle s s)) ∧
  (∀ (n : Fin 80) (i r : Int) (is rs : List Int) (s : State), Served s → (n.val = 78 → s.on CAL_STATUS_CH78_BUSY = false) → (s.phaRec n).lostAt ≠ some s.clk → chanRuns s n = true →
    smGet none s.cal.thresh n = none → (deglitch (s.get (PHA_CH_DG_THRESH n)) i 1 is).2 ≤ 64 → (deglitch (s.get (PHA_CH_DG_THRESH n)) r 1 rs).2 ≤ 64 →
    ((deglitch (s.get (PHA_CH_DG_THRESH n)) i 1 is).2 % 2 = 0 ∨ (deglitch (s.get (PHA_CH_DG_THRESH n)) r 1 rs).2 % 2 = 0) →
    (∃ u : State, exec (.phaSample n (.edges (i :: is) (r :: rs))) s = .next (settle s u) ∧ u.on (PHA_CH_SAMPLE_VALID n) = false ∧ u.on (PHA_CH_SAMPLE_NO_CLK n) = true ∧
      (u.phaRec n).recent = [] ∧ (u.phaRec n).last = none)) ∧
  (∀ (n : Fin 80) (i r : Int) (is rs : List Int) (s : State), Served s → (n.val = 78 → s.on CAL_STATUS_CH78_BUSY = false) → (s.phaRec n).lostAt ≠ some s.clk → chanRuns s n = true →
    smGet none s.cal.thresh n = none → (64 < (deglitch (s.get (PHA_CH_DG_THRESH n)) i 1 is).2 ∨ 64 < (deglitch (s.get (PHA_CH_DG_THRESH n)) r 1 rs).2) →
    (∃ u : State, exec (.phaSample n (.edges (i :: is) (r :: rs))) s = .next (settle s u) ∧ u.on (PHA_CH_SAMPLE_VALID n) = false ∧ u.on (PHA_CH_SAMPLE_GLITCH n) = true ∧
      u.get (PHA_CH_SAMPLE_RAW n) = beatCount i (deglitch (s.get (PHA_CH_DG_THRESH n)) i 1 is).1 r (deglitch (s.get (PHA_CH_DG_THRESH n)) r 1 rs).1 ∧
      u.on PHA_EVENT_GLITCH = true ∧ (u.phaRec n).recent = (s.phaRec n).recent ∧ (u.phaRec n).last = (s.phaRec n).last)) ∧
  (∀ (n : Fin 80) (i r : Int) (is rs : List Int) (s : State), Served s → n.val < 78 → (s.phaRec n).lostAt ≠ some s.clk → chanRuns s n = true →
    smGet none s.cal.thresh n = none → (deglitch (s.get (PHA_CH_DG_THRESH n)) i 1 is).2 ≤ 64 → (deglitch (s.get (PHA_CH_DG_THRESH n)) r 1 rs).2 ≤ 64 →
    (deglitch (s.get (PHA_CH_DG_THRESH n)) i 1 is).2 % 2 = 1 → (deglitch (s.get (PHA_CH_DG_THRESH n)) r 1 rs).2 % 2 = 1 →
    (s.phaRec n).last = none → (s.phaRec n).recent = [] →
    (∃ u : State, exec (.phaSample n (.edges (i :: is) (r :: rs))) s = .next (settle s u) ∧ u.on (PHA_CH_SAMPLE_VALID n) = true ∧ ∃ k,
      k = beatCount i (deglitch (s.get (PHA_CH_DG_THRESH n)) i 1 is).1 r (deglitch (s.get (PHA_CH_DG_THRESH n)) r 1 rs).1 ∧
      u.get (PHA_CH_SAMPLE_RAW n) = k ∧ (u.phaRec n).last = some k ∧
      u.geti (PHA_CH_UNWRAP_V n) = roundDiv ((k : Int) * baseUnit (chanBase s n)) 10)) ∧
  (∀ (c : Fin 80) (v : Nat) (s : State), smGet none s.cal.thresh c = some v → (s.phaRec c).hostAt ≠ some s.clk → v < 2 ^ (PHA_CH_DG_THRESH c).width →
    (threshApply c s).get (PHA_CH_DG_THRESH c) = v ∧ smGet none (threshApply c s).cal.thresh c = none) ∧
  (∀ (q : Fin 17) (x : Fin 26215) (s : State), Served s → surveyDue s = some q.val →
    (∃ u : State, exec (.phaTxphMeasure q x) s = .next (settle s u) ∧ u.get (PHA_TXPH_PHASE q) = x ∧ u.on (PHA_TXPH_VALID q) = true)) ∧
  (∀ (q : Fin 17) (x : Fin 26215) (s : State), Served s → surveyDue s ≠ some q.val →
    exec (.phaTxphMeasure q x) s = .next (settle s s)) ∧
  (∀ (m : BusMaster) (n : Fin 80) (v : Word) (s : State), Writable m (PHA_CH_CFG n) v s → ∃ R c,
    Stands m .PHA_CH_CFG n 0 (PHA_CH_CFG n).one v.toNat s R c ∧
    exec (.phaChCfgWrite m n v) s = .next (settle s (chanRestart n c))) ∧
  (∀ (m : BusMaster) (p : Fin 66) (v : Word) (s : State), p ≠ 64 →
    (Writable m (PHA_PORT_TRIM_TX p) v s → ∃ R c, Stands m .PHA_PORT_TRIM_TX p 0 (PHA_PORT_TRIM_TX p).one v.toNat s R c ∧
      exec (.phaTrimWrite m p true v) s = .next (settle s (c.count (PHA_PORT_STATUS_TRIM_GEN p)))) ∧
    (Writable m (PHA_PORT_TRIM_RX p) v s → ∃ R c, Stands m .PHA_PORT_TRIM_RX p 0 (PHA_PORT_TRIM_RX p).one v.toNat s R c ∧
      exec (.phaTrimWrite m p false v) s = .next (settle s (c.count (PHA_PORT_STATUS_TRIM_GEN p))))) ∧
  (∀ (m : BusMaster) (tx : Bool) (v : Word) (s : State), s.inReset = false → served s m = true → s.gated = false → privOf s m ≠ 0 →
    (∃ u : State, exec (.phaTrimWrite m 64 tx v) s = .next (settle s u) ∧ OnlyPmc s u))

/-- The Ferryman: enables of the block, domains and sessions, and the block reset (R327, R329, R333, R355, R356, R357). -/
def Obligations.FerrymanEnablesAndResets : Prop :=
  (∀ (m : BusMaster) (v : Word) (s : State), Writable m FM_CTRL (withField FM_CTRL_EN 1 v) s → ∃ R c,
    Stands m .FM_CTRL 0 0 FM_CTRL.one (withField FM_CTRL_EN 1 v).toNat s R c ∧ R.now FM_CTRL_EN = 1 ∧
    exec (.fmEnable m v) s = .next (settle s (ferryWritten R c))) ∧
  (∀ (m : BusMaster) (v : Word) (s : State), Writable m FM_CTRL (withField FM_CTRL_EN 0 v) s → ∃ R c,
    Stands m .FM_CTRL 0 0 FM_CTRL.one (withField FM_CTRL_EN 0 v).toNat s R c ∧ R.now FM_CTRL_EN = 0 ∧
    exec (.fmDisable m v) s = .next (settle s (ferryWritten R c))) ∧
  (∀ (m : BusMaster) (v : Word) (s : State), Writable m FM_CTRL (withField FM_CTRL_RESET 1 v) s → ∃ R c,
    Stands m .FM_CTRL 0 0 FM_CTRL.one (withField FM_CTRL_RESET 1 v).toNat s R c ∧ R.field R.v FM_CTRL_RESET = 1 ∧
    exec (.fmBlockReset m v) s = .next (settle s (ferryWritten R c))) ∧
  (∀ (m : BusMaster) (d : Fin 4) (v : Word) (s : State), Writable m (FM_DOM_CFG d) (withField (FM_DOM_CFG_EN d) 1 v) s → ∃ R c,
    Stands m .FM_DOM_CFG d 0 (FM_DOM_CFG d).one (withField (FM_DOM_CFG_EN d) 1 v).toNat s R c ∧ R.now (FM_DOM_CFG_EN d) = 1 ∧
    exec (.fmDomainEnable m d v) s = .next (settle s (domWritten R c))) ∧
  (∀ (m : BusMaster) (d : Fin 4) (v : Word) (s : State), Writable m (FM_DOM_CFG d) (withField (FM_DOM_CFG_EN d) 0 v) s → ∃ R c,
    Stands m .FM_DOM_CFG d 0 (FM_DOM_CFG d).one (withField (FM_DOM_CFG_EN d) 0 v).toNat s R c ∧ R.now (FM_DOM_CFG_EN d) = 0 ∧
    exec (.fmDomainDisable m d v) s = .next (settle s (domWritten R c))) ∧
  (∀ (m : BusMaster) (k : Fin 512) (v : Word) (s : State), Writable m (FM_SESS_CFG k) (withField (FM_SESS_CFG_EN k) 1 v) s → ∃ R c,
    Stands m .FM_SESS_CFG k 0 (FM_SESS_CFG k).one (withField (FM_SESS_CFG_EN k) 1 v).toNat s R c ∧ R.now (FM_SESS_CFG_EN k) = 1 ∧
    exec (.fmSessionEnable m k v) s = .next (settle s (sessWritten R c))) ∧
  (∀ (m : BusMaster) (k : Fin 512) (v : Word) (s : State), Writable m (FM_SESS_CFG k) (withField (FM_SESS_CFG_EN k) 0 v) s → ∃ R c,
    Stands m .FM_SESS_CFG k 0 (FM_SESS_CFG k).one (withField (FM_SESS_CFG_EN k) 0 v).toNat s R c ∧ R.now (FM_SESS_CFG_EN k) = 0 ∧
    exec (.fmSessionDisable m k v) s = .next (settle s (sessWritten R c))) ∧
  (∀ (s : State), Served s → s.on FM_STATUS_RESETTING = true →
    (∃ u : State, exec .fmBlockResetDone s = .next (settle s u) ∧ u.on FM_STATUS_RESETTING = false ∧ u.on FM_EVENT_BLOCK_RESET = true ∧ u.fm = s.fm)) ∧
  (∀ (s : State), Served s → s.on FM_STATUS_RESETTING = false →
    exec .fmBlockResetDone s = .next (settle s s)) ∧
  (∀ s : State, (blockReset s).fm.rxq = [] ∧ (blockReset s).fm.timerq = [] ∧ (blockReset s).on FM_STATUS_RESETTING = true) ∧
  (∀ (s : State), Served s → s.on FM_STATUS_RESETTING = false →
    exec .engineStall s = .next (settle s (blockReset s))) ∧
  (∀ (s : State), Served s → s.on FM_STATUS_RESETTING = true →
    exec .engineStall s = .next (settle s s)) ∧
  (∀ (k : Fin 512) (s : State), Served s → (sessState s k = 3 ∨ sessState s k = 2 ∨ (s.sessRec k).committed = false) →
    exec (.sessionStall k) s = .next (settle s s)) ∧
  (∀ (k : Fin 512) (s : State), Served s → sessState s k ≠ 3 → sessState s k ≠ 2 → (s.sessRec k).committed = true →
    exec (.sessionStall k) s = .next (settle s (sessReset true k s))) ∧
  (∀ (k : Fin 512) (s : State), sessRefusal s k ≠ 0 → sessWanted s k = true → (s.sessRec k).committed = false →
    s.on (FM_SESS_STATUS_SUSPENDED k) = false → ((sessCommit k s).sessRec k).committed = false ∧
    (sessCommit k s).get (FM_SESS_STATUS_REFUSED k) = sessRefusal s k)

/-- The receive queue: its front is served by the row of its message type, and its buffer goes back (R335, R337, R340, R343, R344, R346, R348). -/
def Obligations.FerrymanMessagesReceived : Prop :=
  (∀ e ∈ ([(.syncRx, 0, syncRx), (.followUpRx, 8, followUpRx), (.delayReqRx, 1, delayReqRx), (.delayRespRx, 9, delayRespRx),
      (.pdelayReqRx, 2, pdelayReqRx), (.pdelayRespRx, 3, pdelayRespRx), (.pdelayRespFollowUpRx, 10, pdelayFuRx),
      (.announceRx, 11, announceRx), (.signalingRx, 12, signalingRx)] : List (Instr × Nat × (PtpMsg → State → State))),
    ∀ s : State, Served s →
    (s.fm.rxq = [] → exec e.1 s = .next (settle s s)) ∧
    (∀ m l, s.fm.rxq = m :: l → (m.ty ≠ e.2.1 ∨ s.on FM_STATUS_RESETTING = true ∨ (s.fm.timersTurn = true ∧ s.fm.timerq ≠ [])) →
      exec e.1 s = .next (settle s s)) ∧
    (∀ m l, s.fm.rxq = m :: l → m.ty = e.2.1 → s.on FM_STATUS_RESETTING = false → (s.fm.timersTurn = false ∨ s.fm.timerq = []) → ∃ c : State,
      c = (poolFree 3 m.buf clsFerryman { s with fm := { s.fm with rxq := l, timersTurn := true } }).2 ∧ c.fm.rxq = l ∧
      ((s.sessRec m.sess).committed = true → exec e.1 s = .next (settle s (e.2.2 m (c.count (FM_SESS_CNT0_RX m.sess))))) ∧
      ((s.sessRec m.sess).committed = false → exec e.1 s = .next (settle s (c.count FM_CNT1_NO_SESSION))))) ∧
  (∀ (m : PtpMsg) (s : State),
    ((takesSync s m.sess = false ∨ fromParent s m = false) → syncRx m s = s) ∧
    ((sessState s m.sess ≠ 6 ∨ s.tbState = 0 ∨ s.on (FM_SESS_CFG_DELAY m.sess) = true) → delayReqRx m s = s) ∧
    ((s.sessRec m.sess).waitFu = none → followUpRx m s = s) ∧
    (∀ y, (s.sessRec m.sess).waitFu = some y → y.seq ≠ m.seq → followUpRx m s = s) ∧
    ((s.sessRec m.sess).exch = none → delayRespRx m s = s) ∧
    (∀ x, (s.sessRec m.sess).exch = some x → x.seq ≠ m.seq → delayRespRx m s = s) ∧
    ((s.sessRec m.sess).pexch = none → pdelayRespRx m s = s ∧ pdelayFuRx m s = s) ∧
    (s.on (FM_SESS_CFG_DELAY m.sess) = false → pdelayReqRx m s = s) ∧
    (255 ≤ (announceRead s m).steps → announceRx m s = s) ∧
    (l1State s m.sess = 0 → signalingRx m s = s))

/-- The messages that fall due: sent with a pool 3 buffer, counted, handed to the egress of a port that is UP (R334, R337, R338, R339, R342, R343, R344, R345, R351). -/
def Obligations.FerrymanMessagesSent : Prop :=
  (∀ (k : Fin 512) (s : State), Served s → TimerTurn s →
    exec (.syncDue k) s = .next (settle s (timerAgain .sync k (timerFound .sync k s).due
      (syncSend k (timerTaken .sync k s))))) ∧
  (∀ (k : Fin 512) (s : State), Served s → TimerTurn s →
    exec (.announceDue k) s = .next (settle s (timerAgain .announce k (timerFound .announce k s).due
      (announceSend k (timerTaken .announce k s))))) ∧
  (∀ (k : Fin 512) (s : State), Served s → TimerTurn s →
    exec (.delayReqDue k) s = .next (settle s (timerAgain .delayReq k (timerFound .delayReq k s).due
      (delayReqSend k (timerTaken .delayReq k s))))) ∧
  (∀ (k : Fin 512) (s : State), Served s → TimerTurn s →
    exec (.pdelayReqDue k) s = .next (settle s (timerAgain .pdelayReq k (timerFound .pdelayReq k s).due
      (pdelayReqSend k (timerTaken .pdelayReq k s))))) ∧
  (∀ (k : Fin 512) (s : State), Served s → TimerTurn s →
    exec (.l1syncDue k) s = .next (settle s (timerAgain .l1sync k (timerFound .l1sync k s).due
      (l1Send k (timerTaken .l1sync k s))))) ∧
  (∀ (k : Fin 512) (s : State), sessState s k = 6 → s.tbState ≠ 0 → 0 < s.get (POOL_FREE_V 3) → s.on (POOL_CFG_EN 3) = true → ∃ u, u = syncSend k s ∧ (u.sessRec k).syncSeq = ((s.sessRec k).syncSeq + 1) % 65536 ∧
      u.get (FM_SESS_CNT0_TX k) = (s.get (FM_SESS_CNT0_TX k) + 1) % 2 ^ (FM_SESS_CNT0_TX k).width ∧
      (s.portUp (sessPort s k) = true → (u.portRec (sessPort s k)).ferry.length = (s.portRec (sessPort s k)).ferry.length + 1)) ∧
  (∀ (k : Fin 512) (s : State), sessState s k = 6 → s.tbState ≠ 0 → s.get (POOL_FREE_V 3) = 0 → ∃ u, u = syncSend k s ∧
      (u.sessRec k).syncSeq = (s.sessRec k).syncSeq ∧ u.on FM_EVENT_POOL_EMPTY = true ∧ u.ports = s.ports) ∧
  (∀ (k : Fin 512) (s : State), (sessState s k ≠ 6 ∨ s.tbState = 0) → syncSend k s = s ∧ announceSend k s = s) ∧
  (∀ (k : Fin 512) (s : State), sessState s k = 6 → s.tbState ≠ 0 → 0 < s.get (POOL_FREE_V 3) → s.on (POOL_CFG_EN 3) = true → ∃ u, u = announceSend k s ∧ (u.sessRec k).annSeq = ((s.sessRec k).annSeq + 1) % 65536 ∧
      u.get (FM_SESS_CNT0_TX k) = (s.get (FM_SESS_CNT0_TX k) + 1) % 2 ^ (FM_SESS_CNT0_TX k).width ∧
      (s.portUp (sessPort s k) = true → (u.portRec (sessPort s k)).ferry.length = (s.portRec (sessPort s k)).ferry.length + 1)) ∧
  (∀ (k : Fin 512) (s : State), takesSync s k = true → s.on (FM_SESS_CFG_DELAY k) = false → domTc s (sessDom s k) = false → 0 < s.get (POOL_FREE_V 3) → s.on (POOL_CFG_EN 3) = true → ∃ u, u = delayReqSend k s ∧
      (u.sessRec k).delaySeq = ((s.sessRec k).delaySeq + 1) % 65536 ∧
      u.get (FM_SESS_CNT0_TX k) = (s.get (FM_SESS_CNT0_TX k) + 1) % 2 ^ (FM_SESS_CNT0_TX k).width ∧
      (s.portUp (sessPort s k) = true → (u.portRec (sessPort s k)).ferry.length = (s.portRec (sessPort s k)).ferry.length + 1) ∧
      (s.portUp (sessPort s k) = true → (u.sessRec k).exch = some { seq := (s.sessRec k).delaySeq })) ∧
  (∀ (k : Fin 512) (s : State), (takesSync s k = false ∨ s.on (FM_SESS_CFG_DELAY k) = true ∨ domTc s (sessDom s k) = true) → delayReqSend k s = s) ∧
  (∀ (k : Fin 512) (s : State), sessLive s k = true → s.on (FM_SESS_CFG_DELAY k) = true → 0 < s.get (POOL_FREE_V 3) → s.on (POOL_CFG_EN 3) = true → ∃ u, u = pdelayReqSend k s ∧
      (u.sessRec k).pdelaySeq = ((s.sessRec k).pdelaySeq + 1) % 65536 ∧
      u.get (FM_SESS_CNT0_TX k) = (s.get (FM_SESS_CNT0_TX k) + 1) % 2 ^ (FM_SESS_CNT0_TX k).width ∧
      (s.portUp (sessPort s k) = true → (u.portRec (sessPort s k)).ferry.length = (s.portRec (sessPort s k)).ferry.length + 1) ∧
      (s.portUp (sessPort s k) = true → (u.sessRec k).pexch = some { seq := (s.sessRec k).pdelaySeq })) ∧
  (∀ (k : Fin 512) (s : State), (sessLive s k = false ∨ s.on (FM_SESS_CFG_DELAY k) = false) → pdelayReqSend k s = s) ∧
  (∀ (k : Fin 512) (s : State), sessLive s k = true → l1State s k ≠ 0 → 0 < s.get (POOL_FREE_V 3) → s.on (POOL_CFG_EN 3) = true → ∃ u, u = l1Send k s ∧ (u.sessRec k).sigSeq = ((s.sessRec k).sigSeq + 1) % 65536 ∧
      u.get (FM_SESS_CNT0_TX k) = (s.get (FM_SESS_CNT0_TX k) + 1) % 2 ^ (FM_SESS_CNT0_TX k).width ∧
      (s.portUp (sessPort s k) = true → (u.portRec (sessPort s k)).ferry.length = (s.portRec (sessPort s k)).ferry.length + 1)) ∧
  (∀ (k : Fin 512) (s : State), (sessLive s k = false ∨ l1State s k = 0) → l1Send k s = s) ∧
  (∀ (s : State), Served s → s.fm.stamps = [] →
    exec .stampReturn s = .next (settle s s)) ∧
  (∀ (t : StampRet) (l : List StampRet) (s : State), Served s → s.fm.stamps = t :: l → ∃ c : State,
    c = (poolFree 3 t.buf clsFerryman { s with fm := { s.fm with stamps := l } }).2 ∧ c.fm.stamps = l ∧
    ((s.sessRec t.sess).committed = false → exec .stampReturn s = .next (settle s c)) ∧
    ((s.sessRec t.sess).committed = true → t.kind = 0 → t.lost = false → c.on (FM_SESS_CFG_STEP t.sess) = false →
      exec .stampReturn s = .next (settle s (followUpSend t.sess t.seq t.stamp c))) ∧
    ((s.sessRec t.sess).committed = true → t.kind = 0 → (t.lost = true ∨ c.on (FM_SESS_CFG_STEP t.sess) = true) →
      exec .stampReturn s = .next (settle s c)))

/-- State decisions, initialisation, qualification and the receipt timers of a session (R333, R334, R340, R348, R351, R355, R360). -/
def Obligations.FerrymanTimersAndDecisions : Prop :=
  (∀ (d : Fin 4) (s : State), Served s → TimerTurn s →
    exec (.stateDecision d) s = .next (settle s (timerAgain .decision d (timerFound .decision d s).due
      (stateDecision d (timerTaken .decision d s))))) ∧
  (∀ (d : Fin 4) (s : State), (domTc s d = true ∨ s.on (FM_DOM_CFG_EN d) = false ∨ s.on FM_CTRL_EN = false) → stateDecision d s = s) ∧
  (∀ (d : Fin 4) (s : State), domTc s d = false → s.on (FM_DOM_CFG_EN d) = true → s.on FM_CTRL_EN = true → committed s = [] → stateDecision d s = parentSet d none s) ∧
  (∀ (d : Fin 4) (s : State), ((parentSet d none s).domRec d).parent = none ∧ (parentSet d none s).on (FM_DOM_STATUS_GM d) = true ∧
    (parentSet d none s).get (FM_DOM_STATUS_STEPS_REMOVED d) = 0) ∧
  (∀ (k : Fin 512) (s : State), Served s → sessState s k = 1 → s.on (FM_DOM_STATUS_TREF_VALID (sessDom s k)) = false →
    (∃ u : State, exec (.initializationComplete k) s = .next (settle s u) ∧ sessState u k = 4 ∧ (u.sessRec k).annDone = false)) ∧
  (∀ (k : Fin 512) (s : State), Served s → sessState s k = 1 →
    exec (.initializationComplete k) s = .next (settle s (sessSet k 4 (s.setSess k { s.sessRec k with annDone := false })))) ∧
  (∀ (k : Fin 512) (s : State), Served s → sessState s k ≠ 1 →
    exec (.initializationComplete k) s = .next (settle s s)) ∧
  (∀ (k : Fin 512) (s : State), Served s → TimerTurn s →
    exec (.qualificationTimeout k) s = .next (settle s (qualificationTimeout k (timerTaken .qualify k s)))) ∧
  (∀ (k : Fin 512) (s : State), sessState s k = 5 → s.on (FM_DOM_STATUS_TREF_VALID (sessDom s k)) = false → sessState (qualificationTimeout k s) k = 6) ∧
  (∀ (k : Fin 512) (s : State), sessState s k ≠ 5 → qualificationTimeout k s = s) ∧
  (∀ (k : Fin 512) (s : State), Served s → TimerTurn s → restartWaits (timerTaken .annReceipt k s) (timerFound .annReceipt k s) = false →
    exec (.announceReceiptTimeout k) s = .next (settle s (announceTimeout k (timerTaken .annReceipt k s)))) ∧
  (∀ (k : Fin 512) (s : State), Served s → TimerTurn s → restartWaits (timerTaken .annReceipt k s) (timerFound .annReceipt k s) = true →
    exec (.announceReceiptTimeout k) s = .next (settle s (timerTaken .annReceipt k s))) ∧
  (∀ (k : Fin 512) (s : State), sessState s k ∈ ([4, 7, 8, 9] : List Nat) → domTc s (sessDom s k) = false → announceTimeout k s = stateDecision (sessDom s k)
      ((s.setSess k { s.sessRec k with foreign := [], annDone := true }).count (FM_SESS_CNT2_ANN_TO k))) ∧
  (∀ (k : Fin 512) (s : State), (sessState s k ∉ ([4, 7, 8, 9] : List Nat) ∨ domTc s (sessDom s k) = true) → announceTimeout k s = s) ∧
  (∀ (k : Fin 512) (s : State), Served s → TimerTurn s → restartWaits (timerTaken .syncReceipt k s) (timerFound .syncReceipt k s) = false →
    exec (.syncReceiptTimeout k) s = .next (settle s (syncTimeout k (timerTaken .syncReceipt k s)))) ∧
  (∀ (k : Fin 512) (s : State), Served s → TimerTurn s → restartWaits (timerTaken .syncReceipt k s) (timerFound .syncReceipt k s) = true →
    exec (.syncReceiptTimeout k) s = .next (settle s (timerTaken .syncReceipt k s))) ∧
  (∀ (k : Fin 512) (s : State), takesSync s k = true → s.on (FM_DOM_STATUS_TREF_VALID (sessDom s k)) = false → ∃ u, u = syncTimeout k s ∧ (u.sessRec k).syncGood = false ∧
      (u.sessRec k).syncOut = true ∧
      (u.sessRec k).waitFu = (s.sessRec k).waitFu ∧ u.get (FM_SESS_CNT2_SYNC_TO k) = (s.get (FM_SESS_CNT2_SYNC_TO k) + 1) % 2 ^ (FM_SESS_CNT2_SYNC_TO k).width) ∧
  (∀ (k : Fin 512) (s : State), takesSync s k = false → syncTimeout k s = s) ∧
  (∀ (k : Fin 512) (s : State), Served s → TimerTurn s →
    exec (.followUpTimeout k) s = .next (settle s (followUpTimeout k (timerTaken .followUp k s)))) ∧
  (∀ (k : Fin 512) (s : State), (s.sessRec k).waitFu ≠ none → (s.sessRec k).exch = none → ((followUpTimeout k s).sessRec k).waitFu = none ∧
      (followUpTimeout k s).get (FM_SESS_CNT3_DISCARD k) = (s.get (FM_SESS_CNT3_DISCARD k) + 1) % 2 ^ (FM_SESS_CNT3_DISCARD k).width) ∧
  (∀ (k : Fin 512) (s : State), (s.sessRec k).waitFu = none → followUpTimeout k s = s) ∧
  (∀ (k : Fin 512) (s : State), Served s → TimerTurn s →
    exec (.responseTimeout k) s = .next (settle s (responseTimeout k (timerTaken .response k s)))) ∧
  (∀ (k : Fin 512) (s : State), ((responseTimeout k s).sessRec k).exch = none ∧ ((responseTimeout k s).sessRec k).pexch = none) ∧
  (∀ (k : Fin 512) (x : ExchRec) (s : State), (s.sessRec k).exch = some x → x.answered = false → (s.sessRec k).pexch = none → ∃ u, u = responseTimeout k s ∧ (u.sessRec k).lost = (s.sessRec k).lost + 1 ∧
      u.get (FM_SESS_CNT1_LOST_RESP k) = (s.get (FM_SESS_CNT1_LOST_RESP k) + 1) % 2 ^ (FM_SESS_CNT1_LOST_RESP k).width ∧
      (s.get (FM_SESS_VLAN_LOST_RESP k) ≤ (s.sessRec k).lost + 1 → u.on (FM_SESS_STATUS_NO_DELAY k) = true)) ∧
  (∀ (k : Fin 512) (s : State), Served s → TimerTurn s → restartWaits (timerTaken .l1Receipt k s) (timerFound .l1Receipt k s) = false →
    exec (.l1syncReceiptTimeout k) s = .next (settle s (l1Timeout k (timerTaken .l1Receipt k s)))) ∧
  (∀ (k : Fin 512) (s : State), Served s → TimerTurn s → restartWaits (timerTaken .l1Receipt k s) (timerFound .l1Receipt k s) = true →
    exec (.l1syncReceiptTimeout k) s = .next (settle s (timerTaken .l1Receipt k s))) ∧
  (∀ (k : Fin 512) (s : State), l1State s k ≠ 0 → l1Timeout k s = sessRefresh k (s.setSess k { s.sessRec k with l1Peer := none })) ∧
  (∀ (k : Fin 512) (s : State), l1State s k = 0 → l1Timeout k s = s)

/-- MAC table commands and their results, the flush, ageing, table entries and the stream's reset (R372, R373, R374, R375, R390, R396, R398, R402). -/
def Obligations.ForwardingCommands : Prop :=
  (∀ (m : BusMaster) (v : Word) (s : State), Writable m FWD_MAC_CMD (withField FWD_MAC_CMD_GO 1 (withField FWD_MAC_CMD_OP 1 v)) s → s.on FWD_MAC_CMD_GO = false → ∃ R c,
    Stands m .FWD_MAC_CMD 0 0 FWD_MAC_CMD.one (withField FWD_MAC_CMD_GO 1 (withField FWD_MAC_CMD_OP 1 v)).toNat s R c ∧ R.now FWD_MAC_CMD_OP = 1 ∧
    exec (.macCmdInsert m v) s = .next (settle s (macCommand c))) ∧
  (∀ (m : BusMaster) (v : Word) (s : State), Writable m FWD_MAC_CMD (withField FWD_MAC_CMD_GO 1 (withField FWD_MAC_CMD_OP 2 v)) s → s.on FWD_MAC_CMD_GO = false → ∃ R c,
    Stands m .FWD_MAC_CMD 0 0 FWD_MAC_CMD.one (withField FWD_MAC_CMD_GO 1 (withField FWD_MAC_CMD_OP 2 v)).toNat s R c ∧ R.now FWD_MAC_CMD_OP = 2 ∧
    exec (.macCmdDelete m v) s = .next (settle s (macCommand c))) ∧
  (∀ (m : BusMaster) (v : Word) (s : State), Writable m FWD_MAC_CMD (withField FWD_MAC_CMD_GO 1 (withField FWD_MAC_CMD_OP 3 v)) s → s.on FWD_MAC_CMD_GO = false → ∃ R c,
    Stands m .FWD_MAC_CMD 0 0 FWD_MAC_CMD.one (withField FWD_MAC_CMD_GO 1 (withField FWD_MAC_CMD_OP 3 v)).toNat s R c ∧ R.now FWD_MAC_CMD_OP = 3 ∧
    exec (.macCmdLookup m v) s = .next (settle s (macCommand c))) ∧
  (∀ (m : BusMaster) (v : Word) (s : State), Writable m FWD_MAC_CMD (withField FWD_MAC_CMD_GO 1 (withField FWD_MAC_CMD_OP 4 v)) s → s.on FWD_MAC_CMD_GO = false → ∃ R c,
    Stands m .FWD_MAC_CMD 0 0 FWD_MAC_CMD.one (withField FWD_MAC_CMD_GO 1 (withField FWD_MAC_CMD_OP 4 v)).toNat s R c ∧ R.now FWD_MAC_CMD_OP = 4 ∧
    exec (.flushDynamic m v) s = .next (settle s (flushDynamicGo c))) ∧
  (∀ (b mac vid : Nat) (s : State), s.ecc.flips = [] → mac = s.wide FWD_MAC_KEY % 2 ^ 48 → vid = s.wide FWD_MAC_KEY / 2 ^ 48 % 4096 →
    b = macBucket vid mac →
    ((s.get FWD_MAC_CMD_OP = 2 ∨ s.get FWD_MAC_CMD_OP = 3) → macFind s b mac vid = none →
      (macCommand s).get FWD_MAC_CMD_RESULT = 1 ∧ (macCommand s).on FWD_EVENT_MAC_CMD_FAIL = true ∧ (macCommand s).mem = s.mem) ∧
    (s.get FWD_MAC_CMD_OP = 3 → ∀ w, macFind s b mac vid = some w → (macCommand s).get FWD_MAC_CMD_RESULT = 0 ∧
      (macCommand s).word FWD_MAC_DATA = BitVec.ofNat 32 (macWord2 s b w)) ∧
    (s.get FWD_MAC_CMD_OP = 1 → s.ecc.retired = [] → (macCommand s).get FWD_MAC_CMD_RESULT = 0 →
      (∃ w < 4, (macCommand s).bytesLE (macAddr b w) 8 = macKeyOf mac vid) ∧
      ((s.word FWD_MAC_DATA).getLsbD 31 = true → (macFind (macCommand s) b mac vid).isSome = true))) ∧
  (∀ s : State, (flushDynamicGo s).on FWD_MAC_CMD_GO = true ∧ (flushDynamicGo s).fwd.flush ≠ none) ∧
  (∀ (only : Option Nat) (s : State), Served s → s.fwd.flush = some only →
    (∃ u : State, exec .flushDynamicDone s = .next (settle s u) ∧ u.fwd.flush = none ∧ u.on FWD_MAC_CMD_GO = false ∧ u.get FWD_MAC_CMD_RESULT = 0 ∧ u.on FWD_EVENT_MAC_CMD_DONE = true)) ∧
  (∀ (s : State), Served s → s.fwd.flush = none →
    exec .flushDynamicDone s = .next (settle s s)) ∧
  (∀ (s : State), Served s → s.get FWD_CTRL_AGE_TIME = 0 →
    exec .macAgeScan s = .next (settle s s)) ∧
  (∀ (s : State), Served s → s.get FWD_CTRL_AGE_TIME ≠ 0 →
    exec .macAgeScan s = .next (settle s (forEach (macListed (macLook s)) (fun a s =>
      if s.tbits a 13 1 = 1 then s else if s.tbits a 14 1 = 0 then s.setBytesLE (a - 8) 12 0 else s.setTbits a 14 1 0) (macLook s)))) ∧
  (∀ (m : BusMaster) (n : Fin 4096) (v : Word) (s : State), TableOpen m 5 (0x20 * n.val) s →
    1 ≤ v.toNat / 2 ^ 8 % 64 → v.toNat / 2 ^ 8 % 64 ≤ 32 → 1 ≤ v.toNat / 2 ^ 16 →
    (∃ u : State, exec (.streamEntryWrite m n 15 v) s = .next (settle s u) ∧ u.tword (streamAddr n) &&& 0xFFFF3F3F = v.toNat &&& 0xFFFF3F3F ∧
      u.tbits (streamAddr n + 12) 0 1 = 1)) ∧
  (∀ (m : BusMaster) (n : Fin 8192) (w : Fin 5) (v : Word) (s : State), TableOpen m 6 (0x20 * n.val + 4 * w.val) s →
    (w.val = 0 → m = .loader ∨ v.toNat ≤ s.tword (meterAddr n + 4)) → (w.val = 1 → s.tword (meterAddr n) ≤ v.toNat) → (w.val = 4 → v.toNat / 2 ^ 8 % 32 ≤ 24) →
    (∃ u : State, exec (.meterEntryWrite m n w 15 v) s = .next (settle s u) ∧ u.tword (meterAddr n + 4 * w.val) &&& tableMask 6 (0x20 * n.val + 4 * w.val) =
      v.toNat &&& tableMask 6 (0x20 * n.val + 4 * w.val))) ∧
  (∀ (m : BusMaster) (n : Fin 8192) (w : Fin 5) (be : Fin 16) (v : Word) (s : State), s.inReset = false → s.gated = false →
    exec (.meterEntryWrite m n w be v) s = .next (settle s (busWrite m (meterAddr n + 4 * w.val) be v s).2)) ∧
  (∀ (m : BusMaster) (n : Fin 4096) (be : Fin 16) (v : Word) (s : State), s.inReset = false → s.gated = false →
    exec (.streamEntryWrite m n be v) s = .next (settle s (busWrite m (streamAddr n) be v s).2)) ∧
  (∀ (n : Fin 4096) (s : State), Served s → s.ecc.retired = [] → s.tbits (streamAddr n) 1 1 = 1 →
    (∃ u : State, exec (.frerReset n) s = .next (settle s u) ∧ u.tbits (streamAddr n + 12) 0 1 = 1 ∧ u.on FWD_EVENT_FRER_RESET = true)) ∧
  (∀ (n : Fin 4096) (s : State), Served s → s.tbits (streamAddr n) 1 1 ≠ 1 →
    exec (.frerReset n) s = .next (settle s s))

/-- The spill DRAM and the queues: initialisation, pages out and in, gates, stuck queues, residence and resumption (R409, R411, R412, R413, R415, R420, R425, R429, R431, R432, R433). -/
def Obligations.SpillAndQueueCommands : Prop :=
  (∀ (m : BusMaster) (v : Word) (s : State), Writable m QM_SPILL_CFG (withField QM_SPILL_CFG_EN 1 v) s → s.on QM_SPILL_CFG_EN = false → ∃ R c,
    Stands m .QM_SPILL_CFG 0 0 QM_SPILL_CFG.one (withField QM_SPILL_CFG_EN 1 v).toNat s R c ∧ R.now QM_SPILL_CFG_EN = 1 ∧
    exec (.spillEnable m v) s = .next (settle s (spillEnabled true c))) ∧
  (∀ (m : BusMaster) (v : Word) (s : State), Writable m QM_SPILL_CFG (withField QM_SPILL_CFG_EN 1 v) s → s.on QM_SPILL_CFG_EN = true → ∃ R c,
    Stands m .QM_SPILL_CFG 0 0 QM_SPILL_CFG.one (withField QM_SPILL_CFG_EN 1 v).toNat s R c ∧
    exec (.spillEnable m v) s = .next (settle s (c))) ∧
  (∀ s : State, (spillEnabled true s).get QM_SPILL_STATUS_STATE = 1 ∧ (spillEnabled true s).get QM_SPILL_STATUS_CAUSE = 0) ∧
  (∀ (s : State), Served s → s.get QM_SPILL_STATUS_STATE = 1 →
    (∃ u : State, exec .spillInitDone s = .next (settle s u) ∧ u.get QM_SPILL_STATUS_STATE = spillServing s ∧ u.get (POOL_FREE_V 1) = u.get (POOL_SIZE_V 1))) ∧
  (∀ (s : State), Served s → s.get QM_SPILL_STATUS_STATE = 1 →
    exec .spillInitTimeout s = .next (settle s (spillFail 1 s))) ∧
  (∀ s : State, Served s → s.get QM_SPILL_STATUS_STATE ≠ 1 →
    exec .spillInitDone s = .next (settle s s) ∧ exec .spillInitTimeout s = .next (settle s s)) ∧
  (∀ (p : Fin 66) (t : Fin 8) (s : State), Served s → (queueMode s (8 * p.val + t.val) = 0 ∨ s.stage ≠ 0 ∨ spillReady s = false ∨ (s.queueRec (8 * p.val + t.val)).staging.length < 16) →
    exec (.spillPageWrite p t) s = .next (settle s s)) ∧
  (∀ (p : Fin 66) (t : Fin 8) (s : State), Served s → queueMode s (8 * p.val + t.val) ≠ 0 → s.stage = 0 → spillReady s = true → 16 ≤ (s.queueRec (8 * p.val + t.val)).staging.length →
    0 < s.get (POOL_FREE_V 1) → s.on (POOL_CFG_EN 1) = true →
    (∃ u : State, exec (.spillPageWrite p t) s = .next (settle s u) ∧ (u.queueRec (8 * p.val + t.val)).staging = (s.queueRec (8 * p.val + t.val)).staging.drop 16 ∧ (u.queueRec (8 * p.val + t.val)).pages.length = (s.queueRec (8 * p.val + t.val)).pages.length + 1 ∧
      (u.queueRec (8 * p.val + t.val)).copies = (s.queueRec (8 * p.val + t.val)).copies)) ∧
  (∀ (p : Fin 66) (t : Fin 8) (s : State), Served s → refillDue s (8 * p.val + t.val) = false →
    exec (.refillPageRead p t) s = .next (settle s s)) ∧
  (∀ (p : Fin 66) (t : Fin 8) (k : Nat) (s : State), Served s → refillDue s (8 * p.val + t.val) = true → k = ((s.queueRec (8 * p.val + t.val)).pages.getD (s.queueRec (8 * p.val + t.val)).reads ⟨0, []⟩).cells.length → s.get (POOL_FREE_V 0) < s.get QM_RESERVE_V + k →
    (∃ u : State, exec (.refillPageRead p t) s = .next (settle s u) ∧ u.get QM_CNT0_REFILL_NOBUF = (s.get QM_CNT0_REFILL_NOBUF + 1) % 2 ^ QM_CNT0_REFILL_NOBUF.width ∧
      u.on POOL_EVENT_EMPTY = true ∧ u.queues = s.queues)) ∧
  (∀ (p : Fin 66) (t : Fin 8) (k : Nat) (s : State), Served s → refillDue s (8 * p.val + t.val) = true → k = ((s.queueRec (8 * p.val + t.val)).pages.getD (s.queueRec (8 * p.val + t.val)).reads ⟨0, []⟩).cells.length → s.get QM_RESERVE_V + k ≤ s.get (POOL_FREE_V 0) →
    (∃ u : State, exec (.refillPageRead p t) s = .next (settle s u) ∧ (u.queueRec (8 * p.val + t.val)).reads = (s.queueRec (8 * p.val + t.val)).reads + 1 ∧ (u.queueRec (8 * p.val + t.val)).refilling = true ∧ (u.queueRec (8 * p.val + t.val)).pages = (s.queueRec (8 * p.val + t.val)).pages)) ∧
  (∀ (p : Fin 66) (t : Fin 8) (x : PageCheck) (s : State), Served s → (s.queueRec (8 * p.val + t.val)).reads = 0 →
    exec (.refillReadDone p t x) s = .next (settle s s)) ∧
  (∀ (p : Fin 66) (t : Fin 8) (s : State), Served s → (s.queueRec (8 * p.val + t.val)).reads ≠ 0 → (s.queueRec (8 * p.val + t.val)).pages ≠ [] →
    exec (.refillReadDone p t ⟨[]⟩) s = .next (settle s (pageJoin (8 * p.val + t.val) (readGood (8 * p.val + t.val) s)))) ∧
  (∀ (p : Fin 66) (t : Fin 8) (s : State), Served s → ((s.queueRec (8 * p.val + t.val)).reads = 0 ∨ (spillReady s = false ∧ s.get QM_SPILL_STATUS_STATE ≠ 3)) →
    exec (.readRetry p t) s = .next (settle s s)) ∧
  (∀ (p : Fin 66) (t : Fin 8) (s : State), Served s → (s.queueRec (8 * p.val + t.val)).reads ≠ 0 → spillReady s = true → smGet 0 s.qm.timeouts (pageChannel s (8 * p.val + t.val)) < 2 →
    (∃ u : State, exec (.readRetry p t) s = .next (settle s u) ∧ smGet 0 u.qm.timeouts (pageChannel s (8 * p.val + t.val)) = smGet 0 s.qm.timeouts (pageChannel s (8 * p.val + t.val)) + 1 ∧
      u.get QM_CNT0_READ_RETRY = (s.get QM_CNT0_READ_RETRY + 1) % 2 ^ QM_CNT0_READ_RETRY.width)) ∧
  (∀ (p : Fin 66) (t : Fin 8) (s : State), Served s → (s.queueRec (8 * p.val + t.val)).reads ≠ 0 → spillReady s = true → 2 ≤ smGet 0 s.qm.timeouts (pageChannel s (8 * p.val + t.val)) →
    exec (.readRetry p t) s = .next (settle s (spillFail 2 { s with qm := { s.qm with timeouts := [] } }))) ∧
  (∀ (p : Fin 66) (s : State), Served s → gatesRun s p = false →
    exec (.gateEvent p) s = .next (settle s s)) ∧
  (∀ (p : Fin 66) (s : State), Served s → gatesRun s p = true → s.ecc.flips = [] →
    exec (.gateEvent p) s = .next (settle s (gateRefresh p (creditSyncPort p s)))) ∧
  (∀ (p : Fin 66) (t : Fin 8) (s : State), Served s → stuckRuns s (8 * p.val + t.val) = false →
    exec (.queueStuckTimeout p t) s = .next (settle s s)) ∧
  (∀ (p : Fin 66) (t : Fin 8) (s : State), Served s → stuckRuns s (8 * p.val + t.val) = true →
    exec (.queueStuckTimeout p t) s = .next (settle s (stuckFlush (8 * p.val + t.val) s))) ∧
  (∀ (s : State), Served s → (∀ e ∈ s.queues, e.2.copies = []) →
    exec .residenceSweep s = .next (settle s s)) ∧
  (∀ (s : State), Served s →
    exec .residenceSweep s = .next (settle s (forEach (busyQueues s) residenceOf s))) ∧
  (∀ (m : BusMaster) (p : Fin 66) (t : Fin 8) (v : Word) (s : State),
    Writable m (QM_Q_STATUS (8 * p.val + t.val)) (withField (QM_Q_STATUS_SUSPENDED (8 * p.val + t.val)) 1 v) s → ∃ R c,
    Stands m .QM_Q_STATUS (8 * p.val + t.val) 0 (QM_Q_STATUS (8 * p.val + t.val)).one
      (withField (QM_Q_STATUS_SUSPENDED (8 * p.val + t.val)) 1 v).toNat s R c ∧
    c.on (QM_Q_STATUS_SUSPENDED (8 * p.val + t.val)) = false ∧ c.get (QM_Q_STATUS_MODE (8 * p.val + t.val)) =
      s.get (QM_Q_STATUS_MODE (8 * p.val + t.val)) ∧ exec (.queueResume m p t v) s = .next (settle s c))

/-- Buffer pools: the four commands, the age epoch and the enable; express streams: installing and uninstalling (R436, R437, R438, R439, R441, R442, R443, R455, R457, R459). -/
def Obligations.PoolAndStreamCommands : Prop :=
  (∀ (m : BusMaster) (v : Word) (s : State), Writable m POOL_CMD (withField POOL_CMD_GO 1 (withField POOL_CMD_OP 1 v)) s → s.on POOL_CMD_GO = false → ∃ R c,
    Stands m .POOL_CMD 0 0 POOL_CMD.one (withField POOL_CMD_GO 1 (withField POOL_CMD_OP 1 v)).toNat s R c ∧ R.now POOL_CMD_OP = 1 ∧
    exec (.alloc m v) s = .next (settle s (poolCmd c))) ∧
  (∀ (m : BusMaster) (v : Word) (s : State), Writable m POOL_CMD (withField POOL_CMD_GO 1 (withField POOL_CMD_OP 2 v)) s → s.on POOL_CMD_GO = false → ∃ R c,
    Stands m .POOL_CMD 0 0 POOL_CMD.one (withField POOL_CMD_GO 1 (withField POOL_CMD_OP 2 v)).toNat s R c ∧ R.now POOL_CMD_OP = 2 ∧
    exec (.free m v) s = .next (settle s (poolCmd c))) ∧
  (∀ (m : BusMaster) (v : Word) (s : State), Writable m POOL_CMD (withField POOL_CMD_GO 1 (withField POOL_CMD_OP 3 v)) s → s.on POOL_CMD_GO = false → ∃ R c,
    Stands m .POOL_CMD 0 0 POOL_CMD.one (withField POOL_CMD_GO 1 (withField POOL_CMD_OP 3 v)).toNat s R c ∧ R.now POOL_CMD_OP = 3 ∧
    exec (.incref m v) s = .next (settle s (poolCmd c))) ∧
  (∀ (m : BusMaster) (v : Word) (s : State), Writable m POOL_CMD (withField POOL_CMD_GO 1 (withField POOL_CMD_OP 4 v)) s → s.on POOL_CMD_GO = false → ∃ R c,
    Stands m .POOL_CMD 0 0 POOL_CMD.one (withField POOL_CMD_GO 1 (withField POOL_CMD_OP 4 v)).toNat s R c ∧ R.now POOL_CMD_OP = 4 ∧
    exec (.query m v) s = .next (settle s (poolCmd c))) ∧
  (∀ s : State, (s.on (POOL_CFG_EN (s.get POOL_CMD_POOL)) = false ∨ (s.get POOL_CMD_OP ≠ 1 ∧
      s.get (POOL_SIZE_V (s.get POOL_CMD_POOL)) ≤ s.get POOL_CMD_INDEX_V)) →
    (poolCmd s).get POOL_CMD_RESULT = 5 ∧ (poolCmd s).on POOL_EVENT_CMD_DONE = true ∧ (poolCmd s).bufs = s.bufs) ∧
  (∀ (k : Fin 16) (s : State), k.val = s.get POOL_CMD_POOL → s.on (POOL_CFG_EN k) = true → s.get POOL_CMD_OP = 1 → k ≠ 0 →
    (0 < s.get (POOL_FREE_V k) → (poolCmd s).get POOL_CMD_RESULT = 0 ∧ (poolCmd s).get (POOL_FREE_V k) + 1 = s.get (POOL_FREE_V k) ∧
      ((poolCmd s).buf k (firstGap (allocated s k) 0)).alloc = true) ∧
    (s.get (POOL_FREE_V k) = 0 → (poolCmd s).get POOL_CMD_RESULT = 1 ∧ (poolCmd s).on POOL_EVENT_EMPTY = true ∧
      (poolCmd s).bufs = s.bufs)) ∧
  (∀ (k : Fin 16) (s : State), k.val = s.get POOL_CMD_POOL → s.on (POOL_CFG_EN k) = true → s.get POOL_CMD_OP = 2 →
    s.get POOL_CMD_INDEX_V < s.get (POOL_SIZE_V k) → (s.buf k (s.get POOL_CMD_INDEX_V)).alloc = false →
    (poolCmd s).get POOL_CMD_RESULT = 2 ∧ (poolCmd s).on POOL_EVENT_DOUBLE_FREE = true ∧ (poolCmd s).bufs = s.bufs) ∧
  (∀ (k : Fin 16) (s : State), k.val = s.get POOL_CMD_POOL → s.on (POOL_CFG_EN k) = true → s.get POOL_CMD_OP = 4 →
    s.get POOL_CMD_INDEX_V < s.get (POOL_SIZE_V k) → (poolCmd s).get POOL_CMD_RESULT = 0 ∧
    (poolCmd s).on POOL_CMD_STATE_ALLOCATED = (s.buf k (s.get POOL_CMD_INDEX_V)).alloc ∧
    (poolCmd s).get POOL_CMD_STATE_REFCOUNT = (s.buf k (s.get POOL_CMD_INDEX_V)).refs % 256 ∧ (poolCmd s).bufs = s.bufs) ∧
  (∀ (s : State), Served s →
    (∃ u : State, exec .poolAgeEpoch s = .next (settle s u) ∧ u.epoch = (s.epoch + 1) % 16)) ∧
  (∀ (m : BusMaster) (n : Fin 16) (v : Word) (s : State), Writable m (POOL_CFG n) (withField (POOL_CFG_EN n) 1 v) s → 4 ≤ n.val → ∃ R c,
    Stands m .POOL_CFG n 0 (POOL_CFG n).one (withField (POOL_CFG_EN n) 1 v).toNat s R c ∧ R.now (POOL_CFG_EN n) = 1 ∧
    exec (.poolEnable m n v) s = .next (settle s (poolEnable n c))) ∧
  (∀ (m : BusMaster) (n : Fin 16) (v : Word) (s : State), Writable m (POOL_CFG n) (withField (POOL_CFG_EN n) 1 v) s → n.val < 4 → ∃ R c,
    Stands m .POOL_CFG n 0 (POOL_CFG n).one (withField (POOL_CFG_EN n) 1 v).toNat s R c ∧
    exec (.poolEnable m n v) s = .next (settle s (c))) ∧
  (∀ (n : Fin 16) (s : State), (poolEnable n s).on (POOL_CFG_EN n) = true ∧ (poolEnable n s).get (POOL_FREE_V n) = s.get (POOL_SIZE_V n) ∧
    (poolEnable n s).get (POOL_LOW_WATER_V n) = s.get (POOL_SIZE_V n)) ∧
  (∀ (m : BusMaster) (n : Fin 1024) (v : Word) (s : State), Writable m (XC_STREAM_CFG n) (withField (XC_STREAM_CFG_EN n) 1 v) s → ∃ R c,
    Stands m .XC_STREAM_CFG n 0 (XC_STREAM_CFG n).one (withField (XC_STREAM_CFG_EN n) 1 v).toNat s R c ∧ R.now (XC_STREAM_CFG_EN n) = 1 ∧
    exec (.xcStreamInstall m n v) s = .next (settle s (streamWritten R c))) ∧
  (∀ (m : BusMaster) (n : Fin 1024) (v : Word) (s : State), Writable m (XC_STREAM_CFG n) (withField (XC_STREAM_CFG_EN n) 0 v) s → ∃ R c,
    Stands m .XC_STREAM_CFG n 0 (XC_STREAM_CFG n).one (withField (XC_STREAM_CFG_EN n) 0 v).toNat s R c ∧ R.now (XC_STREAM_CFG_EN n) = 0 ∧
    exec (.xcStreamUninstall m n v) s = .next (settle s (streamWritten R c))) ∧
  (∀ (n : Fin 1024) (s : State), (xcUninstall n s).on (XC_STREAM_CFG_EN n) = false ∧
    (xcUninstall n s).get (XC_STREAM_STATUS_STATE n) = 0 ∧
    (xcErrors s (s.get (XC_STREAM_CFG_TC n)) (s.get (XC_STREAM_CFG_INGRESS n)) (s.get (XC_STREAM_CFG_EGRESS n)) ≠ [] →
      (xcInstall n s).get (XC_STREAM_CFG_EN n) = s.get (XC_STREAM_CFG_EN n) ∧ (xcInstall n s).on GLB_MODE_ERR_VALID = true))

/-- The TIU: arming and its refusals, the base, calibration, edges, windows, timeouts and aborts (R485, R491, R493, R494, R495, R497, R499, R500, R503, R510). -/
def Obligations.TiuCommands : Prop :=
  (∀ (m : BusMaster) (v : Word) (s : State), Writable m TIU_CTRL (withField TIU_CTRL_DISARM 0 (withField TIU_CTRL_ARM 1 v)) s → ∃ R c,
    Stands m .TIU_CTRL 0 0 TIU_CTRL.one (withField TIU_CTRL_DISARM 0 (withField TIU_CTRL_ARM 1 v)).toNat s R c ∧
    exec (.tiuArm m v) s = .next (settle s (tiuArmWrite c))) ∧
  (∀ (m : BusMaster) (v : Word) (s : State), Writable m TIU_CTRL (withField TIU_CTRL_DISARM 1 v) s → ∃ R c,
    Stands m .TIU_CTRL 0 0 TIU_CTRL.one (withField TIU_CTRL_DISARM 1 v).toNat s R c ∧
    exec (.tiuDisarm m v) s = .next (settle s (tiuDisarm c))) ∧
  (∀ s : State, s.on TIU_CTRL_ARM = false → s.geti TIU_WIN_CLOSE_V < s.geti TIU_WIN_OPEN_V →
    (tiuArm s).1.get TIU_STATUS_RUN_END = 6 ∧ (tiuArm s).1.on TIU_CTRL_ARM = false ∧ tiuState (tiuArm s).1 = tiuState s) ∧
  (∀ s : State, s.on TIU_CTRL_ARM = false → s.geti TIU_WIN_OPEN_V ≤ s.geti TIU_WIN_CLOSE_V →
    (s.get TIU_CFG_BASE ≠ 1 ∨ s.on TIU_STATUS_REF_PRESENT = true) →
    (tiuArm s).1.on TIU_CTRL_ARM = true ∧ tiuState (tiuArm s).1 = (if tiuLocked s then 2 else 1) ∧
    (tiuArm s).1.get TIU_STATUS_MEAS = 0 ∧ (tiuArm s).1.get TIU_STAT_COUNT = 0 ∧ (tiuArm s).1.wide TIU_STAT_MEAN = 0) ∧
  (∀ s : State, s.on TIU_CTRL_ARM = false → s.geti TIU_WIN_OPEN_V ≤ s.geti TIU_WIN_CLOSE_V → s.get TIU_CFG_BASE = 1 →
    s.on TIU_STATUS_REF_PRESENT = false → (tiuArm s).1.get TIU_STATUS_RUN_END = 4 ∧ (tiuArm s).1.on TIU_EVENT_NO_REF = true ∧
    tiuState (tiuArm s).1 = 0) ∧
  (∀ s : State, (tiuArmWrite s).regs = (tiuArm s).1.regs ∧ (s.on TIU_CTRL_ARM = true → tiuArmWrite s = s)) ∧
  (∀ s : State, s.on TIU_CTRL_ARM = true → tiuState (tiuDisarm s) = 0 ∧ (tiuDisarm s).get TIU_STATUS_RUN_END = 5 ∧
    (tiuDisarm s).on TIU_CTRL_ARM = false ∧ (tiuDisarm s).on TIU_EVENT_RUN_DONE = true) ∧
  (∀ (s : State), s.inReset = false → s.get TIU_CFG_BASE = 2 → s.dev ≠ .reset → s.dev ≠ .clockStart → tiuState s = 1 →
    (∃ u : State, exec .tiuBaseLocked s = .next (settle s u) ∧ tiuState u = 2 ∧ u.on TIU_STATUS_BASE_LOCKED = true)) ∧
  (∀ (s : State), s.inReset = false → tiuState s ≠ 1 →
    (∃ u : State, exec .tiuBaseLocked s = .next (settle s u) ∧ tiuState u = tiuState s ∧ u.on TIU_STATUS_BASE_LOCKED = tiuLocked u)) ∧
  (∀ (c : TiuCodes) (s : State), s.inReset = false → (∀ w, s.tiu.was = some w → w.at_ ≠ s.now) → tiuState s ≠ 2 →
    exec (.tiuCalDone c) s = .next (settle s s)) ∧
  (∀ (c : TiuCodes) (k : TiuCal) (s : State), s.inReset = false → (∀ w, s.tiu.was = some w → w.at_ ≠ s.now) → tiuState s = 2 → k = tiuMeans c → k.startK1 + 1792 ≤ k.startK2 → k.startK2 ≤ k.startK1 + 2304 →
    k.stopK1 + 1792 ≤ k.stopK2 → k.stopK2 ≤ k.stopK1 + 2304 →
    (∃ u : State, exec (.tiuCalDone c) s = .next (settle s u) ∧ tiuState u = 3 ∧ u.tiu.cal = k)) ∧
  (∀ (c : TiuCodes) (k : TiuCal) (s : State), s.inReset = false → (∀ w, s.tiu.was = some w → w.at_ ≠ s.now) → tiuState s = 2 → k = tiuMeans c → (k.startK2 < k.startK1 + 1792 ∨ k.stopK1 + 2304 < k.stopK2) →
    (∃ u : State, exec (.tiuCalDone c) s = .next (settle s u) ∧ u.on TIU_EVENT_CAL_FAIL = true ∧
      u.get TIU_STATUS_MEAS = (s.get TIU_STATUS_MEAS + 1) % 2 ^ TIU_STATUS_MEAS.width)) ∧
  (∀ (a1 a2 b1 b2 : List (Fin 512)), a1.length = 8 → a2.length = 8 → b1.length = 8 → b2.length = 8 →
    tiuMeans ⟨a1, a2, b1, b2⟩ = ⟨(a1.map (fun c => c.val)).sum, (a2.map (fun c => c.val)).sum, (b1.map (fun c => c.val)).sum,
      (b2.map (fun c => c.val)).sum⟩) ∧
  (∀ (e : TiuInput) (stop : TiuEdge) (ago : Nat) (s : State), s.inReset = false → (tiuOwn e.src = true ∨ tiuStartSel s e.src e.falling = false) →
    exec (.tiuStartEdge e stop ago) s = .next (settle s s)) ∧
  (∀ (e : TiuInput) (stop : TiuEdge) (ago : Nat) (s : State), s.inReset = false → tiuOwn e.src = false → tiuStartSel s e.src e.falling = true → tiuStopSel s e.src e.falling = false → (∀ w, s.tiu.was = some w → w.at_ ≠ s.now) →
    exec (.tiuStartEdge e stop ago) s = .next (settle s (tiuStartEdge e.edge ago s))) ∧
  (∀ (e : TiuInput) (stop : TiuEdge) (ago : Nat) (s : State), s.inReset = false → tiuOwn e.src = false → tiuStartSel s e.src e.falling = true → tiuStopSel s e.src e.falling = true → (∀ w, s.tiu.was = some w → w.at_ ≠ s.now) →
    tiuState s = 3 → s.tiu.start = none →
    exec (.tiuStartEdge e stop ago) s = .next (settle s (tiuStartEdge e.edge ago (tiuStopEdge stop s)))) ∧
  (∀ (e : TiuInput) (stop : TiuEdge) (ago : Nat) (s : State), s.inReset = false → tiuOwn e.src = false → tiuStartSel s e.src e.falling = true → tiuStopSel s e.src e.falling = true → (∀ w, s.tiu.was = some w → w.at_ ≠ s.now) →
    tiuState s = 4 →
    exec (.tiuStartEdge e stop ago) s = .next (settle s (tiuStopEdge stop (tiuStartEdge e.edge ago s)))) ∧
  (∀ (e : TiuStop) (s : State), s.inReset = false → (tiuOwn e.src = true ∨ tiuStopSel s e.src e.falling = false) →
    exec (.tiuStopEdge e) s = .next (settle s s)) ∧
  (∀ (e : TiuStop) (s : State), s.inReset = false → tiuOwn e.src = false → tiuStopSel s e.src e.falling = true → tiuStartSel s e.src e.falling = false → (∀ w, s.tiu.was = some w → w.at_ ≠ s.now) →
    (tiuState s = 3 → s.tiu.start = none) →
    exec (.tiuStopEdge e) s = .next (settle s (tiuStopEdge e.edge s))) ∧
  (∀ (e : TiuStop) (s : State), s.inReset = false → tiuOwn e.src = false → tiuStopSel s e.src e.falling = true → tiuStartSel s e.src e.falling = true → (∀ w, s.tiu.was = some w → w.at_ ≠ s.now) →
    tiuState s = 3 → s.tiu.start = none →
    exec (.tiuStopEdge e) s = .next (settle s (tiuStartEdge e.start e.ago (tiuStopEdge e.edge s)))) ∧
  (∀ (e : TiuStop) (s : State), s.inReset = false → tiuOwn e.src = false → tiuStopSel s e.src e.falling = true → tiuStartSel s e.src e.falling = true → (∀ w, s.tiu.was = some w → w.at_ ≠ s.now) →
    tiuState s = 4 →
    exec (.tiuStopEdge e) s = .next (settle s (tiuStopEdge e.edge (tiuStartEdge e.start e.ago s)))) ∧
  (∀ (e : TiuEdge) (ago : Nat) (s : State),
    ((tiuState s < 3 ∨ tooSoon s true s.tiu.lastA e = true) → tiuStartEdge e ago s = s) ∧
    (tiuState s = 4 → tooSoon s true s.tiu.lastA e = false → tiuStartEdge e ago s = tiuTakeA e s) ∧
    (tiuState s = 3 → tooSoon s true s.tiu.lastA e = false → s.tiu.held = none → tiuState (tiuStartEdge e ago s) = 4 ∧
      (tiuStartEdge e ago s).tiu.start = some e ∧ (tiuStartEdge e ago s).tiu.lastA = some e ∧
      (tiuStartEdge e ago s).tiu.startInvalid = decide (s.tbState = 0)) ∧
    (∀ h, tiuState s = 3 → tooSoon s true s.tiu.lastA e = false → s.tiu.held = some h → tiuStartEdge e ago s =
      tiuJudge e h true (tiuSet 4 { tiuTakeA e s with tiu := { (tiuTakeA e s).tiu with
        start := some e, startAt := tb96OfSns (gridStamp (tiuTakeA e s) (-(ago : Int)) 0), startInvalid := decide ((tiuTakeA e s).tbState = 0) } }))) ∧
  (∀ (e : TiuEdge) (s : State),
    ((tiuState s < 3 ∨ tooSoon s false s.tiu.lastB e = true) → tiuStopEdge e s = s) ∧
    (3 ≤ tiuState s → tooSoon s false s.tiu.lastB e = false → s.tiu.start = none →
      (tiuStopEdge e s).tiu.held = some e ∧ (tiuStopEdge e s).regs = s.regs) ∧
    (∀ st, 3 ≤ tiuState s → tooSoon s false s.tiu.lastB e = false → s.tiu.start = some st →
      tiuStopEdge e s = tiuJudge st e (decide (e.coarse ≤ st.coarse)) (tiuTakeB e s))) ∧
  (∀ (st e : TiuEdge) (h : Bool) (v x : Int × Int) (s : State), tiuSpan s true false st e = some v →
    x = (v.1 * 2 ^ 40 - tiuTrim s * v.2, v.2 * 2 ^ 40) → nearZero (tiuResult x) = false →
    (x.1 < s.geti TIU_WIN_OPEN_V * x.2 → tiuJudge st e h s = s.countSat TIU_STAT_REJECTED) ∧
    (s.geti TIU_WIN_OPEN_V * x.2 ≤ x.1 → x.1 ≤ s.geti TIU_WIN_CLOSE_V * x.2 →
      (tiuJudge st e h s).get TIU_STAT_COUNT = (s.get TIU_STAT_COUNT + 1) % 2 ^ 16 ∧
      (tiuJudge st e h s).get TIU_STATUS_MEAS = (s.get TIU_STATUS_MEAS + 1) % 2 ^ TIU_STATUS_MEAS.width) ∧
    (s.geti TIU_WIN_OPEN_V * x.2 ≤ x.1 → s.geti TIU_WIN_CLOSE_V * x.2 < x.1 → tiuJudge st e false s = s)) ∧
  (∀ (w : TiuWas) (s : State), s.inReset = false → s.tiu.was = some w → w.at_ = s.now → w.st = 4 →
    (∃ u : State, exec .tiuWindowClose s = .next (settle s u) ∧ tiuState u = 0 ∧ u.get TIU_STATUS_RUN_END = 5 ∧ u.on TIU_CTRL_ARM = false ∧
      u.get TIU_STAT_NO_STOP = (s.get TIU_STAT_NO_STOP + 1) % 2 ^ 16)) ∧
  (∀ (s : State), s.inReset = false → (∀ w, s.tiu.was = some w → w.at_ ≠ s.now) → tiuState s = 4 →
    (∃ u : State, exec .tiuWindowClose s = .next (settle s u) ∧ u.get TIU_STAT_NO_STOP = (s.get TIU_STAT_NO_STOP + 1) % 2 ^ 16 ∧
      u.get TIU_STATUS_MEAS = (s.get TIU_STATUS_MEAS + 1) % 2 ^ TIU_STATUS_MEAS.width)) ∧
  (∀ (s : State), s.inReset = false → (∀ w, s.tiu.was = some w → w.at_ ≠ s.now) → tiuState s ≠ 4 →
    exec .tiuWindowClose s = .next (settle s s)) ∧
  (∀ (s : State), s.inReset = false → tiuState s = 3 → s.get TIU_START_TO_V ≠ 0 →
    (∃ u : State, exec .tiuStartTimeout s = .next (settle s u) ∧ tiuState u = 0 ∧ u.on TIU_CTRL_ARM = false ∧ u.get TIU_STATUS_RUN_END = 3)) ∧
  (∀ (s : State), s.inReset = false → (tiuState s ≠ 3 ∨ s.get TIU_START_TO_V = 0) →
    exec .tiuStartTimeout s = .next (settle s s)) ∧
  (∀ (s : State), s.inReset = false →
    (∃ u : State, exec .tiuRefPresent s = .next (settle s u) ∧ u.on TIU_STATUS_REF_PRESENT = true ∧ u.on TIU_STATUS_BASE_LOCKED = tiuLocked u ∧ tiuState u = tiuState s)) ∧
  (∀ (s : State), s.inReset = false → s.get TIU_CFG_BASE ≠ 1 →
    (∃ u : State, exec .tiuRefLost s = .next (settle s u) ∧ u.on TIU_STATUS_REF_PRESENT = false ∧ tiuState u = tiuState s)) ∧
  (∀ (s : State), s.inReset = false → s.get TIU_CFG_BASE = 1 → 2 ≤ tiuState s →
    (∃ u : State, exec .tiuRefLost s = .next (settle s u) ∧ u.on TIU_STATUS_REF_PRESENT = false ∧ u.on TIU_EVENT_ABORT = true ∧ tiuState u = 0 ∧ u.get TIU_STATUS_RUN_END = 2 ∧ u.on TIU_CTRL_ARM = false)) ∧
  (∀ (s : State), s.inReset = false → s.get TIU_CFG_BASE = 2 → 2 ≤ tiuState s →
    (∃ u : State, exec .tiuMultiplierLossOfLock s = .next (settle s u) ∧ u.on TIU_EVENT_ABORT = true ∧ tiuState u = 0 ∧ u.get TIU_STATUS_RUN_END = 2 ∧ u.on TIU_CTRL_ARM = false)) ∧
  (∀ (s : State), s.inReset = false → (s.get TIU_CFG_BASE ≠ 2 ∨ tiuState s < 2) →
    (∃ u : State, exec .tiuMultiplierLossOfLock s = .next (settle s u) ∧ u.tiu.multLocked = false ∧ tiuState u = tiuState s))

/-- Calibration passes and results; scrubbing, table reloads, the configuration sweep and injection (R516, R521, R523, R526, R527, R529, R546, R552, R553, R554, R558). -/
def Obligations.CalibrationAndStoredDataCommands : Prop :=
  (∀ (k : Fin 6) (s : State), Served s → s.on (CAL_CFG_EN k) = false →
    exec (.calPassStart k) s = .next (settle s s)) ∧
  (∀ (k : Fin 6) (s : State), Served s → s.on (CAL_CFG_EN k) = true → calWaits s k = false → s.stage ≠ 0 →
    exec (.calPassStart k) s = .next (settle s (calLater [k.val] ((s.put (CAL_K_STATUS_STATE k) 2).ev CAL_EVENT_DEFERRED)))) ∧
  (∀ (k : Fin 6) (s : State), k.val ∈ (calLater [k.val] s).cal.later ∧ (calLater [k.val] s).cal.queue = s.cal.queue ∧ (calLater [k.val] s).regs = s.regs) ∧
  (∀ (k : Fin 6) (s : State), Served s → s.on (CAL_CFG_EN k) = true → calWaits s k = false → s.stage = 0 →
    exec (.calPassStart k) s = .next (settle s (calBegin k [k.val] s))) ∧
  (∀ (k : Fin 6) (s : State), s.stage = 0 → (calBegin k [k.val] s).cal.queue = s.cal.queue ++ (calInstances s k).map (fun i => (k.val, i))) ∧
  (∀ (k : Fin 6) (s : State), Served s → s.on (CAL_CFG_EN k) = true → calWaits s k = true → k.val ∉ s.cal.owed →
    exec (.calPassStart k) s = .next (settle s ({ s with cal := { s.cal with owed := s.cal.owed ++ [k.val] } }))) ∧
  (∀ (k : Fin 6) (s : State), Served s → s.on (CAL_CFG_EN k) = true → calWaits s k = true → k.val ∈ s.cal.owed →
    exec (.calPassStart k) s = .next (settle s s)) ∧
  (∀ (m : BusMaster) (k : Fin 6) (v : Word) (s : State), Writable m (CAL_RUN k) (withField (CAL_RUN_V k) 1 v) s → ∃ R c,
    Stands m .CAL_RUN k 0 (CAL_RUN k).one (withField (CAL_RUN_V k) 1 v).toNat s R c ∧
    exec (.calRun m k v) s = .next (settle s (calAsk k c))) ∧
  (∀ (k : Fin 6) (s : State), (k.val ∈ s.cal.asked ∨ k.val ∈ s.cal.askedOwed ∨ s.on (CAL_CFG_EN k) = false ∨ s.gated = true) → calAsk k s = s) ∧
  (∀ (k : Fin 6) (s : State), k.val ∉ s.cal.asked → k.val ∉ s.cal.askedOwed → s.on (CAL_CFG_EN k) = true → s.gated = false → calWaits s k = true → (k.val ∈ (calAsk k s).cal.owed ∧ k.val ∈ (calAsk k s).cal.askedOwed ∧ (calAsk k s).regs = s.regs)) ∧
  (∀ (k : Fin 6) (i : Fin 80) (r : CalResult) (s : State), Served s → (calKind k r = false ∨ calEntry k i r ∉ s.cal.queue) →
    exec (.calApply k i r) s = .next (settle s s)) ∧
  (∀ (i : Fin 80) (v : Int) (s : State), Served s → (4, i.val) ∈ s.cal.queue → v.natAbs ≤ 32 →
    exec (.calApply 4 i (.offset v)) s = .next (settle s (calResult 4 i true (calApplied 4 i { s with cal := { s.cal with offset := smSet 0 s.cal.offset i v } })))) ∧
  (∀ (i : Fin 80) (v : Int) (s : State), Served s → (4, i.val) ∈ s.cal.queue → 32 < v.natAbs →
    exec (.calApply 4 i (.offset v)) s = .next (settle s (calResult 4 i false s))) ∧
  (∀ (k : Fin 5) (i : Fin 80) (ok : Bool) (s : State), (calResult k i ok s).cal.offset = s.cal.offset ∧ (k.val, i.val) ∉ (calResult k i ok s).cal.queue ∧
    smGet 0 (calResult k i ok s).cal.fails (calKey k i) = if ok then 0 else smGet 0 s.cal.fails (calKey k i) + 1) ∧
  (∀ (r : Fin 16) (a : Word) (l : List Flip) (last : Bool) (s : State), Served s → s.on ECC_CTRL_SCRUB_EN = false →
    exec (.scrubWordRead r a l last) s = .next (settle s s)) ∧
  (∀ (r : Fin 16) (a : Word) (l : List Flip) (last : Bool) (s : State), Served s → s.on ECC_CTRL_SCRUB_EN = true → eccReady s r = true → (r = 0 → (s.buf 0 (a.toNat / 256)).written = true) →
    exec (.scrubWordRead r a l last) s = .next (settle s (scrubRead r a.toNat l last s))) ∧
  (∀ (r : Fin 16) (a : Nat) (s : State), r ≠ 0 → (inTables r = true ∨ s.ecc.injected = []) → (∀ k < 4, s.flipsAt r (a + k) = 0) → (scrubRead r a [] false s).regs = s.regs ∧ (scrubRead r a [] false s).mem = s.mem ∧ (scrubRead r a [] false s).bufs = s.bufs) ∧
  (∀ (l : List (List Byte)) (s : State), Served s → s.ecc.reloads = [] →
    exec (.tableReloadDone l) s = .next (settle s s)) ∧
  (∀ (l : List (List Byte)) (s : State), Served s →
    exec (.tableReloadDone l) s = .next (settle s (tableReloadDone l s))) ∧
  (∀ (l : List (List Byte)) (r : Fin 16) (s : State), s.ecc.reloads = [r.val] → s.ecc.held = [] → (tableReloadDone l s).ecc.reloads = [] ∧ (tableReloadDone l s).on (ECC_REG_RELOADING r) = false ∧
    (tableReloadDone l s).on (if (sectionsReload (smGet [] s.ecc.dir r) l { s with ecc := { s.ecc with reloads := [] } }).1 then ECC_EVENT_RELOAD else ECC_EVENT_RELOAD_FAIL) = true) ∧
  (∀ (x : SecRec) (t : List SecRec) (b : List Byte) (bs : List (List Byte)) (s : State), (b.length ≠ x.length ∨ (crc32 b).toNat ≠ x.crc) → (sectionsReload (x :: t) (b :: bs) s).1 = false ∧ sectionsReload (x :: t) (b :: bs) s = (false, s)) ∧
  (∀ (s : State), Served s → s.ecc.upsets = [] → s.ecc.shadow = [] →
    exec (.cfgSweep []) s = .next (settle s s)) ∧
  (∀ (l : List CfgUpset) (s : State), Served s → (forEach l upsetTake s).on ECC_CTRL_CFG_CHECK_EN = false →
    exec (.cfgSweep l) s = .next (settle s (forEach l upsetTake s))) ∧
  (∀ (l : List CfgUpset) (s : State), Served s → (forEach l upsetTake s).on ECC_CTRL_CFG_CHECK_EN = true → (forEach l upsetTake s).gated = false →
    exec (.cfgSweep l) s = .next (settle s (forEach (upsetBlocks (forEach l upsetTake s)) cfgMismatch (forEach l upsetTake s)))) ∧
  (∀ (b : Fin 4096) (s : State), ((cfgMismatch b s).on ECC_EVENT_CFG_UPSET = true ∧ (cfgMismatch b s).get ECC_CFG_STATUS_BASE = b ∧
    (cfgMismatch b s).on ECC_CFG_STATUS_VALID = true ∧ (s.on ECC_CTRL_CFG_RELOAD = true → (s.ldr.reload = false ∨ b.val ∉ s.ecc.met) →
      (cfgMismatch b s).escDue = s.escDue + 1 ∧ b.val ∈ (cfgMismatch b s).ecc.met))) ∧
  (∀ (m : BusMaster) (v : Word) (s : State), Writable m ECC_INJ (withField ECC_INJ_ARM 1 v) s → s.on ECC_INJ_ARM = false → ∃ R c,
    Stands m .ECC_INJ 0 0 ECC_INJ.one (withField ECC_INJ_ARM 1 v).toNat s R c ∧
    exec (.eccInjArm m v) s = .next (settle s (c.put ECC_INJ_ARM 1)))

/-- The pair: commitment and its refusal, the heartbeat, health reports, mate failure and DEMOTE (R562, R564, R565, R566, R567, R568, R569, R576, R577). -/
def Obligations.PairCommands : Prop :=
  (∀ (m : BusMaster) (v : Word) (s : State), Writable m PAIR_CTRL (withField PAIR_CTRL_EN 1 v) s → ∃ R c,
    Stands m .PAIR_CTRL 0 0 PAIR_CTRL.one (withField PAIR_CTRL_EN 1 v).toNat s R c ∧ R.now PAIR_CTRL_EN = 1 ∧
    exec (.pairEnable m v) s = .next (settle s (pairWritten R c))) ∧
  (∀ (m : BusMaster) (v : Word) (s : State), Writable m PAIR_CTRL (withField PAIR_CTRL_EN 0 v) s → ∃ R c,
    Stands m .PAIR_CTRL 0 0 PAIR_CTRL.one (withField PAIR_CTRL_EN 0 v).toNat s R c ∧ R.now PAIR_CTRL_EN = 0 ∧
    exec (.pairDisable m v) s = .next (settle s (pairWritten R c))) ∧
  (∀ s : State, s.pairState = .solo → (pairRefusal s).1 ≠ 0 → (pairEnable s).pairState = .solo ∧
    (pairEnable s).on PAIR_CTRL_EN = false ∧ (pairEnable s).get PAIR_STATUS_REFUSED = (pairRefusal s).1) ∧
  (∀ s : State, s.pairState = .solo → (pairRefusal s).1 = 0 → (pairEnable s).pairState = .standby ∧
    (pairEnable s).on PAIR_CTRL_EN = true ∧ (pairEnable s).get PAIR_STATUS_REFUSED = 0 ∧ (pairEnable s).pair.lastValid = none) ∧
  (∀ s : State, (pairDisable s).pairState = .solo ∧ (pairDisable s).on PAIR_CTRL_EN = false) ∧
  (∀ (s : State), Served s → (s.pair.failed = true ∨ s.pairState = .solo) →
    exec .mateAliveLost s = .next (settle s (s.put PAIR_STATUS_MATE_ALIVE 0))) ∧
  (∀ (s : State), Served s → s.pair.failed = false → s.pairState ≠ .solo → s.pairState ≠ .mateFailed →
    (∃ u : State, exec .mateAliveLost s = .next (settle s u) ∧ u.on PAIR_STATUS_MATE_ALIVE = false ∧ u.pairState = .mateFailed ∧ u.on PAIR_EVENT_MATE_FAIL = true ∧
      u.get PAIR_CNT3_TAKEOVERS = (s.get PAIR_CNT3_TAKEOVERS + 1) % 2 ^ 16 ∧ u.pair.failed = true)) ∧
  (∀ (s : State), Served s →
    (∃ u : State, exec .mateAlivePresent s = .next (settle s u) ∧ u.on PAIR_STATUS_MATE_ALIVE = true ∧ u.pairState = s.pairState ∧ u.pair = s.pair)) ∧
  (∀ (s : State), Served s → s.pairState = .solo →
    exec .healthSend s = .next (settle s s)) ∧
  (∀ (s : State), Served s → s.pairState ≠ .solo →
    (∃ u : State, exec .healthSend s = .next (settle s u) ∧ u.pair.repSeq = (s.pair.repSeq + 1) % 2 ^ 32 ∧ u.pair.worstDev = 0 ∧ u.regs = s.regs ∧
      (s.portUp 65 = true → u.out = s.out ++ [.towline (towlineFrame s 1 s.pair.txSeq (healthReport s))]) ∧ (s.portUp 65 = false → u.out = s.out))) ∧
  (∀ s : State, (healthReport s).length = 64) ∧
  (∀ (b : List Byte) (s : State), Served s → b.length ≠ 64 →
    exec (.healthRx b) s = .next (settle s (s.count PAIR_CNT1_REPORTS_BAD))) ∧
  (∀ (b : List Byte) (s : State), Served s → b.length = 64 → natLE (b.drop 60) ≠ (crc32 (b.take 60)).toNat →
    (∃ u : State, exec (.healthRx b) s = .next (settle s u) ∧ u.pairState = s.pairState ∧
      u.get PAIR_CNT1_REPORTS_BAD = (s.get PAIR_CNT1_REPORTS_BAD + 1) % 2 ^ 16 ∧
      u.get PAIR_CNT1_REPORTS_MISSED = (s.get PAIR_CNT1_REPORTS_MISSED + 1) % 2 ^ 16)) ∧
  (∀ (b : List Byte) (s : State), Served s → b.length = 64 → natLE (b.drop 60) = (crc32 (b.take 60)).toNat →
    (∃ u : State, exec (.healthRx b) s = .next (settle s u) ∧ u.wide PAIR_MATE_REPORT = natLE b ∧
      u.get PAIR_STATUS_MATE_STATE = byteAt b 0x18 % 8 ∧ u.pair.lastValid = some s.now ∧ u.pair.missed = 0)) ∧
  (∀ (w : Option Bool) (m : Nat) (s : State),
    (s.pairState = .standby → (mateReport 1 (some true) s).pairState = .active ∧ (mateReport 1 (some false) s).pairState = .standby) ∧
    (s.pairState = .mateFailed → (mateReport 1 w s).pairState = .active) ∧
    ((s.pairState = .active ∨ s.pairState = .mateFailed) → (m = 2 ∨ m = 4) →
      (mateReport m (some false) s).pairState = .standby ∧ (mateReport m (some false) s).on PAIR_EVENT_DUAL_ACTIVE = true ∧
      (mateReport m (some true) s).pairState = s.pairState) ∧
    (s.pairState = .standby → (mateReport 1 none s).pairState = .standby ∧ (mateReport 1 none s).on PAIR_EVENT_ID_CLASH = true ∧
      (mateReport 1 none s).bit FLT_MAJOR_B 10 = true)) ∧
  (∀ (s : State), Served s → s.pairState = .solo →
    exec .reportTimeout s = .next (settle s s)) ∧
  (∀ (s : State), Served s → s.pairState ≠ .solo →
    (∃ u : State, exec .reportTimeout s = .next (settle s u) ∧ u.get PAIR_CNT1_REPORTS_MISSED = (s.get PAIR_CNT1_REPORTS_MISSED + (3 - s.pair.missed)) % 2 ^ 16 ∧
      u.pair.missed = 0 ∧ u.pair.failed = true ∧ (s.pair.failed = false → u.pairState = .mateFailed))) ∧
  (∀ (s : State), Served s → (s.pairState ≠ .standby ∨ s.pair.lastValid ≠ none) →
    exec .firstReportTimeout s = .next (settle s s)) ∧
  (∀ (s : State), Served s → s.pairState = .standby → s.pair.lastValid = none →
    (∃ u : State, exec .firstReportTimeout s = .next (settle s u) ∧ u.pairState = .mateFailed ∧ u.on PAIR_EVENT_MATE_FAIL = true ∧
      u.get PAIR_CNT3_TAKEOVERS = (s.get PAIR_CNT3_TAKEOVERS + 1) % 2 ^ 16 ∧ u.pair.failed = true)) ∧
  (∀ (b : List Byte) (s : State), Served s → b.length ≠ 1 →
    exec (.demoteRx b) s = .next (settle s (s.count PAIR_CNT1_REPORTS_BAD))) ∧
  (∀ (b : List Byte) (s : State), Served s → b.length = 1 → s.pairState = .solo →
    exec (.demoteRx b) s = .next (settle s s)) ∧
  (∀ (b : List Byte) (s : State), Served s → b.length = 1 → s.pairState = .standby →
    (∃ u : State, exec (.demoteRx b) s = .next (settle s u) ∧ u.pairState = .active ∧ u.on PAIR_EVENT_DEMOTE = true)) ∧
  (∀ (b : List Byte) (s : State), Served s → b.length = 1 → s.pairState ≠ .solo → s.pairState ≠ .standby →
    exec (.demoteRx b) s = .next (settle s (s.ev PAIR_EVENT_DEMOTE)))

/-- Sequence records, the handover and the self-tests of a pair (R565, R575, R577, R578, R579, R581, R582). -/
def Obligations.SequenceRecordsHandoverAndSelfTests : Prop :=
  (∀ (b : List Byte) (s : State), Served s → (b.length % 8 ≠ 0 ∨ b.length = 0 ∨ 512 < b.length) →
    exec (.seqRx b) s = .next (settle s (s.count PAIR_CNT1_REPORTS_BAD))) ∧
  (∀ (b : List Byte) (s : State), Served s → b.length % 8 = 0 → b.length ≠ 0 → b.length ≤ 512 →
    exec (.seqRx b) s = .next (settle s (forEach (records (b.length / 8) b) (fun b s => recordRx (recordOf s b) s) s))) ∧
  (∀ (r : SeqRec) (s : State), s.pairFollows = true → r.kind = 0 → waitingOf s r.stream = [] → (recordRx r s).pair.got = s.pair.got ++ [r]) ∧
  (∀ (s : State), Served s → s.pair.toSend = [] →
    exec .seqSend s = .next (settle s s)) ∧
  (∀ (s : State), Served s → s.pair.toSend ≠ [] → s.portUp 65 = true →
    (∃ u : State, exec .seqSend s = .next (settle s u) ∧ u.pair.toSend = s.pair.toSend.drop 64 ∧ u.regs = s.regs ∧
      u.out = s.out ++ [.towline (towlineFrame s 2 s.pair.txSeq ((s.pair.toSend.take 64).map recordBytes).flatten)])) ∧
  (∀ (s : State), Served s → s.pair.toSend ≠ [] → s.portUp 65 = false →
    (∃ u : State, exec .seqSend s = .next (settle s u) ∧ u.pair.toSend = s.pair.toSend.drop 64 ∧ u.regs = s.regs ∧ u.out = s.out)) ∧
  (∀ (n : Fin 4096) (s : State), Served s → s.pair.closing.contains n.val = true →
    exec (.seqMatchTimeout n) s = .next (settle s (closeStream n none s))) ∧
  (∀ (n : Fin 4096) (w : Nat × Nat) (l : List (Nat × Nat)) (s : State), Served s → s.pair.closing.contains n.val = false → s.pair.waits.filter (fun w => (waitingOf s n).contains w.1) = w :: l →
    (∀ r ∈ s.pair.got, r.stream = n.val → w.2 ≤ r.at_) →
    exec (.seqMatchTimeout n) s = .next (settle s (frameMiss w.1 s))) ∧
  (∀ (n : Fin 4096) (r : SeqRec) (l : List SeqRec) (s : State), Served s → s.pair.closing.contains n.val = false → s.pair.got.filter (fun r => r.stream == n.val) = r :: l →
    (∀ w ∈ s.pair.waits, w.1 ∈ waitingOf s n → r.at_ < w.2) →
    exec (.seqMatchTimeout n) s = .next (settle s (recordOrphan r s))) ∧
  (∀ (f : Nat) (r : SeqRec) (s : State), frameMiss f s = frameDiscard f ((s.count PAIR_CNT0_SEQ_MISS).ev PAIR_EVENT_SEQ_MISS) ∧
    (recordOrphan r s).pair.got = s.pair.got.erase r ∧ (recordOrphan r s).get PAIR_CNT0_SEQ_ORPHAN = (s.get PAIR_CNT0_SEQ_ORPHAN + 1) % 2 ^ 16) ∧
  (∀ (n : Fin 4096) (s : State), Served s → s.pair.closing.contains n.val = false → s.pair.waits.filter (fun w => (waitingOf s n).contains w.1) = [] →
    s.pair.got.filter (fun r => r.stream == n.val) = [] →
    exec (.seqMatchTimeout n) s = .next (settle s s)) ∧
  (∀ (m : BusMaster) (v : Word) (s : State), Writable m PAIR_CTRL (withField PAIR_CTRL_HO_REQ 1 v) s → ∃ R c,
    Stands m .PAIR_CTRL 0 0 PAIR_CTRL.one (withField PAIR_CTRL_HO_REQ 1 v).toNat s R c ∧
    exec (.hoReq m v) s = .next (settle s (pairWritten R c))) ∧
  (∀ s : State, ((s.pairState ≠ .standby ∨ pairTlock s = false ∨ s.pair.hoAsked = true ∨ s.now < s.pair.noAskUntil) → hoAsk s = s) ∧
    (s.pairState = .standby → pairTlock s = true → s.pair.hoAsked = false → s.pair.noAskUntil ≤ s.now →
      (hoAsk s).pair.hoAsked = true ∧ (hoAsk s).regs = s.regs ∧ ∃ t, (hoAsk s).pair.hoT = some t ∧
      (s.portUp 65 = true → (hoAsk s).out = s.out ++ [.towline (towlineFrame s 3 s.pair.txSeq (tbBytes t))]))) ∧
  (∀ (s : State), Served s → s.on PAIR_STATUS_PREFERRED = true → s.on PAIR_CTRL_REVERTIVE = true → s.get PAIR_TIMING_WTR ≤ pairHealthyS s →
    exec .hoRevertiveRequest s = .next (settle s (hoAsk s))) ∧
  (∀ (s : State), Served s → (s.on PAIR_STATUS_PREFERRED = false ∨ s.on PAIR_CTRL_REVERTIVE = false ∨ pairHealthyS s < s.get PAIR_TIMING_WTR) →
    exec .hoRevertiveRequest s = .next (settle s s)) ∧
  (∀ (b : List Byte) (s : State), Served s → b.length ≠ 12 →
    exec (.hoReqRx b) s = .next (settle s (s.count PAIR_CNT1_REPORTS_BAD))) ∧
  (∀ (b : List Byte) (s : State), Served s → b.length = 12 → s.pairState = .active →
    exec (.hoReqRx b) s = .next (settle s (handoverArm (tb96Time (natLE b)) true (towlineSend 4 b s)))) ∧
  (∀ (b : List Byte) (s : State), Served s → b.length = 12 → s.pairState ≠ .active →
    exec (.hoReqRx b) s = .next (settle s (towlineSend 5 (b ++ [1]) s))) ∧
  (∀ (b : List Byte) (s : State), Served s → b.length ≠ 12 →
    exec (.hoAckRx b) s = .next (settle s (s.count PAIR_CNT1_REPORTS_BAD))) ∧
  (∀ (b : List Byte) (s : State), Served s → b.length = 12 → s.pairState = .standby → s.pair.hoAsked = true → s.pair.hoT = some (tb96Time (natLE b)) →
    exec (.hoAckRx b) s = .next (settle s (handoverArm (tb96Time (natLE b)) false s))) ∧
  (∀ (b : List Byte) (s : State), Served s → b.length = 12 → (s.pairState ≠ .standby ∨ s.pair.hoAsked = false ∨ s.pair.hoT ≠ some (tb96Time (natLE b))) →
    exec (.hoAckRx b) s = .next (settle s s)) ∧
  (∀ (b : List Byte) (s : State), Served s → b.length ≠ 13 →
    exec (.hoAbortRx b) s = .next (settle s (s.count PAIR_CNT1_REPORTS_BAD))) ∧
  (∀ (b : List Byte) (s : State), Served s → b.length = 13 → (s.pairState = .handover ∨ s.pair.hoAsked = true) →
    exec (.hoAbortRx b) s = .next (settle s (hoAbort (byteAt b 12) true s))) ∧
  (∀ (b : List Byte) (s : State), Served s → b.length = 13 → s.pairState ≠ .handover → s.pair.hoAsked = false →
    exec (.hoAbortRx b) s = .next (settle s s)) ∧
  (∀ (s : State), Served s → s.pair.hoAsked = true → s.pairState ≠ .handover →
    exec .hoAckTimeout s = .next (settle s (hoAbort 2 true s))) ∧
  (∀ (s : State), Served s → (s.pair.hoAsked = false ∨ s.pairState = .handover) →
    exec .hoAckTimeout s = .next (settle s s)) ∧
  (∀ (cause : Nat) (tell : Bool) (s : State), (hoAbort cause tell s).pair.hoAsked = false ∧ (hoAbort cause tell s).pair.hoT = none ∧
    (hoAbort cause tell s).pair.noAskUntil = s.now + 2500000000 ∧ (hoAbort cause tell s).on PAIR_EVENT_HO_ABORT = true ∧
    (hoAbort cause tell s).get PAIR_CNT2_HO_ABORTS = (s.get PAIR_CNT2_HO_ABORTS + 1) % 2 ^ 16 ∧
    (s.pairState = .handover → (hoAbort cause tell s).on (SCH_ACT_CTRL_ARM 63) = false ∧
      (hoAbort cause tell s).pairState = (if s.on PAIR_STATUS_HO_FROM_ACTIVE then .active else .standby)) ∧
    (s.pairState ≠ .handover → (hoAbort cause tell s).pairState = s.pairState)) ∧
  (∀ (f : MarchFails) (s : State), Served s → testsRun s = false →
    exec (.marchTest f) s = .next (settle s s)) ∧
  (∀ (s : State), Served s → testsRun s = true →
    (∃ u : State, exec (.marchTest ⟨0, 0⟩) s = .next (settle s u) ∧ u.bit PAIR_TEST_RESULTS 1 = true ∧ u.ecc.spares = s.ecc.spares)) ∧
  (∀ (f : MarchFails) (s : State), Served s → testsRun s = true → f.rows + f.cells ≠ 0 →
    (∃ u : State, exec (.marchTest f) s = .next (settle s u) ∧ u.bit PAIR_TEST_RESULTS 1 = false ∧ u.on PAIR_EVENT_SELFTEST_FAIL = true ∧
      u.pair.marchFails = min 65535 (s.pair.marchFails + (f.rows + f.cells)))) ∧
  (∀ (n : Fin 65) (e : Nat) (s : State), Served s → (testsRun s = false ∨ s.get PAIR_TEST_LANE ≠ n.val ∨ loopIdle s n = false) →
    exec (.laneLoopTest n e) s = .next (settle s s)) ∧
  (∀ (n : Fin 65) (e : Nat) (s : State), Served s → testsRun s = true → s.get PAIR_TEST_LANE = n.val → loopIdle s n = true →
    (∃ u : State, exec (.laneLoopTest n e) s = .next (settle s u) ∧ u.bit PAIR_TEST_RESULTS 2 = decide (e = 0) ∧
      u.pair.loopErrs = min 65535 e ∧ (e ≠ 0 → u.on PAIR_EVENT_SELFTEST_FAIL = true) ∧ u.get PAIR_TEST_LANE = loopNext s n ∧ (∀ k < 65, u.word (LN_CTRL k) = s.word (LN_CTRL k))))

/-- The supply: triggers, the shed groups, SHED3 with its last gasp, the clear, and the restore (R590, R592, R594, R595, R596, R598, R599, R601). -/
def Obligations.SupplyCommands : Prop :=
  (∀ (r : Fin 5) (s : State), s.inReset = false →
    exec (.railWarning r) s = .next (settle s (trigger 2 ((s.putBit PWR_STATUS_BELOW_WARN r true).putBit PWR_STATUS_BELOW_HYST r true)))) ∧
  (∀ (r : Fin 5) (s : State), ((s.putBit PWR_STATUS_BELOW_WARN r true).putBit PWR_STATUS_BELOW_HYST r true).bit PWR_STATUS_BELOW_WARN r = true ∧
    ((s.putBit PWR_STATUS_BELOW_WARN r true).putBit PWR_STATUS_BELOW_HYST r true).stage = s.stage) ∧
  (∀ (s : State), s.inReset = false → s.on PWR_CTRL_PFAIL_EN = false →
    exec .pfailAssert s = .next (settle s s)) ∧
  (∀ (t : State) (s : State), s.inReset = false → s.on PWR_CTRL_PFAIL_EN = true → t = trigger 1 (s.put PWR_STATUS_PFAIL 1) →
    (t.on HOLD_FRAM_CFG_EN && t.sel.readDone) = false →
    exec .pfailAssert s = .next (settle s t)) ∧
  (∀ (t : State) (s : State), s.inReset = false → s.on PWR_CTRL_PFAIL_EN = true → t = trigger 1 (s.put PWR_STATUS_PFAIL 1) →
    (t.on HOLD_FRAM_CFG_EN && t.sel.readDone) = true →
    exec .pfailAssert s = .next (settle s (framSave t.sel.sinceSave 2 t))) ∧
  (∀ (k : Nat) (s : State),
    (s.stage ≠ 0 → s.on PWR_STATUS_RESTORING = false → (∀ x, s.pwr.at_ = some x → x.1 ≠ s.now) → trigger k s = s) ∧
    (∀ b, s.stage ≠ 0 → s.on PWR_STATUS_RESTORING = false → s.pwr.at_ = some (s.now, b) → (trigger k s).pwr.trig = s.pwr.trig ||| k ∧
      (trigger k s).stage = s.stage ∧ (b = true → (trigger k s).on (if k = 1 then PWR_EVENT_PFAIL else PWR_EVENT_WARN) = true)) ∧
    (s.stage ≠ 0 → s.on PWR_STATUS_RESTORING = true → (trigger k s).stage = s.stage ∧ (trigger k s).on PWR_STATUS_RESTORING = false ∧
      (trigger k s).get PWR_CNT_TRIGGERS = (s.get PWR_CNT_TRIGGERS + 1) % 2 ^ 16 ∧ (trigger k s).wide PWR_LAST = tb96Of s.tb.count % 2 ^ 96 ∧
      (trigger k s).pwr.trig = k) ∧
    (s.stage = 0 → ∃ t, trigger k s = shed1 t ∧ t.on (if k = 1 then PWR_EVENT_PFAIL else PWR_EVENT_WARN) = true ∧
      t.bit FLT_MINOR_B 3 = true ∧ t.get PWR_CNT_TRIGGERS = (s.get PWR_CNT_TRIGGERS + 1) % 2 ^ 16 ∧
      t.wide PWR_LAST = tb96Of s.tb.count % 2 ^ 96 ∧ t.pwr.trig = k)) ∧
  (∀ s : State, s.queues = [] → s.lanes = [] → s.cal.queue = [] → (shed1 s).stage = 1 ∧ (shed1 s).on PWR_EVENT_SHED1 = true) ∧
  (∀ (g : Fin 3) (s : State), s.inReset = false → (s.stage = 0 ∨ s.on PWR_STATUS_RESTORING = true ∨ s.get PWR_STATUS_GROUPS_SHED ≠ 2 - g.val) →
    exec (.shedGroup g) s = .next (settle s s)) ∧
  (∀ (g : Fin 3) (s : State), s.inReset = false → s.stage = 1 → s.on PWR_STATUS_RESTORING = false → s.get PWR_STATUS_GROUPS_SHED = 2 - g.val →
    exec (.shedGroup g) s = .next (settle s (shedLanes (((s.put PWR_STATUS_STAGE 2).ev PWR_EVENT_SHED2).put PWR_STATUS_GROUPS_SHED (3 - g.val))))) ∧
  (∀ (g : Fin 3) (s : State), s.inReset = false → 2 ≤ s.stage → s.on PWR_STATUS_RESTORING = false → s.get PWR_STATUS_GROUPS_SHED = 2 - g.val →
    exec (.shedGroup g) s = .next (settle s (shedLanes (s.put PWR_STATUS_GROUPS_SHED (3 - g.val))))) ∧
  (∀ (s : State), s.inReset = false → (s.stage ≠ 2 ∨ s.on PWR_STATUS_RESTORING = true ∨ s.get PWR_STATUS_GROUPS_SHED ≠ 3) →
    exec .shed3Entry s = .next (settle s s)) ∧
  (∀ (t : State) (s : State), s.inReset = false → s.stage = 2 → s.on PWR_STATUS_RESTORING = false → s.get PWR_STATUS_GROUPS_SHED = 3 →
    t = spillShed (((s.put PWR_STATUS_STAGE 3).ev PWR_EVENT_SHED3).count PWR_CNT_SHED3) → t.running = false →
    exec .shed3Entry s = .next (settle s (selfDemote 2 t))) ∧
  (∀ (t : State) (s : State), s.inReset = false → s.stage = 2 → s.on PWR_STATUS_RESTORING = false → s.get PWR_STATUS_GROUPS_SHED = 3 →
    t = spillShed (((s.put PWR_STATUS_STAGE 3).ev PWR_EVENT_SHED3).count PWR_CNT_SHED3) → t.running = true →
    exec .shed3Entry s = .next (settle s (selfDemote 2 (lastGaspAnnounce (lastGaspWrite t))))) ∧
  (∀ s : State, (s.on PWR_CTRL_LG_FRAM_EN = true → s.on HOLD_FRAM_CFG_EN = true → (lastGaspWrite s).on PWR_EVENT_LG_DONE = true ∧
      (lastGaspWrite s).sel.lgSlotB = !s.sel.lgSlotB ∧ (lastGaspWrite s).sel.lgSeq = (s.sel.lgSeq + 1) % 2 ^ 32) ∧
    ((s.on PWR_CTRL_LG_FRAM_EN = false ∨ s.on HOLD_FRAM_CFG_EN = false) → lastGaspWrite s = s) ∧ (lastGasp s).length = 64) ∧
  (∀ (k : Nat) (s : State), (s.pairState = .active → (selfDemote k s).pairState = .standby ∧ (selfDemote k s).on PAIR_EVENT_DEMOTE = true) ∧
    (s.pairState ≠ .active → selfDemote k s = s)) ∧
  (∀ (s : State), s.inReset = false → s.stage ≠ 0 → s.pwr.restoring = false →
    (∃ u : State, exec .supplyTriggerClear s = .next (settle s u) ∧ u.on PWR_STATUS_RESTORING = true ∧ u.get PWR_STATUS_BELOW_WARN = 0 ∧
      u.get PWR_STATUS_BELOW_HYST = 0 ∧ u.on PWR_STATUS_PFAIL = false ∧ u.stage = s.stage)) ∧
  (∀ (s : State), s.inReset = false → (s.stage = 0 ∨ s.pwr.restoring = true) →
    (∃ u : State, exec .supplyTriggerClear s = .next (settle s u) ∧ u.on PWR_STATUS_RESTORING = s.on PWR_STATUS_RESTORING ∧ u.get PWR_STATUS_BELOW_WARN = 0 ∧
      u.on PWR_STATUS_PFAIL = false ∧ u.stage = s.stage)) ∧
  (∀ (r : Fin 5) (s : State), s.inReset = false →
    (∃ u : State, exec (.railBelowHysteresis r) s = .next (settle s u) ∧ u.bit PWR_STATUS_BELOW_HYST r = true ∧ u.stage = s.stage ∧ u.pwr = s.pwr)) ∧
  (∀ (s : State), s.inReset = false → (s.on PWR_STATUS_RESTORING = false ∨ s.pwr.restoring = true ∨ s.get PWR_STATUS_BELOW_HYST ≠ 0 ∨ s.on PWR_STATUS_PFAIL = true) →
    exec .restoreStart s = .next (settle s s)) ∧
  (∀ (s : State), s.inReset = false → s.on PWR_STATUS_RESTORING = true → s.pwr.restoring = false → s.get PWR_STATUS_BELOW_HYST = 0 → s.on PWR_STATUS_PFAIL = false → s.stage = 3 →
    (∃ u : State, exec .restoreStart s = .next (settle s u) ∧ ∃ t : State, u = spillShed t ∧ t.stage = 2 ∧ t.pwr.restoring = true)) ∧
  (∀ (s : State), s.inReset = false → s.on PWR_STATUS_RESTORING = true → s.pwr.restoring = false → s.get PWR_STATUS_BELOW_HYST = 0 → s.on PWR_STATUS_PFAIL = false → s.stage = 2 →
    exec .restoreStart s = .next (settle s (groupRelease { s with pwr := { s.pwr with restoring := true } }))) ∧
  (∀ (s : State), s.inReset = false → s.on PWR_STATUS_RESTORING = true → s.pwr.restoring = false → s.get PWR_STATUS_BELOW_HYST = 0 → s.on PWR_STATUS_PFAIL = false → s.stage < 2 →
    exec .restoreStart s = .next (settle s (restoreEnd { s with pwr := { s.pwr with restoring := true } }))) ∧
  (∀ (s : State), s.inReset = false → s.pwr.restoring = false →
    exec .restoreStep s = .next (settle s s)) ∧
  (∀ (s : State), s.inReset = false → s.pwr.restoring = true → s.stage = 2 →
    exec .restoreStep s = .next (settle s (groupRelease s))) ∧
  (∀ (s : State), s.inReset = false → s.pwr.restoring = true → s.stage ≠ 2 →
    exec .restoreStep s = .next (settle s (restoreEnd s))) ∧
  (∀ s : State, s.get QM_SPILL_STATUS_STATE ≠ 3 → ∃ t, restoreEnd s = calResume t ∧ t.stage = 0 ∧ t.on PWR_STATUS_RESTORING = false ∧
    t.on PWR_EVENT_RESTORED = true ∧ t.pwr.restoring = false)

/-- Images: reload, reading, the header, the sections, failures with their undo, and SAFE_MODE (R39, R43, R622, R629, R630, R631, R632, R633, R637, R638, R639). -/
def Obligations.ImageReadsAndFailures : Prop :=
  (∀ (m : BusMaster) (v : Word) (s : State), Writable m GLB_CTRL (withField GLB_CTRL_RELOAD 1 v) s → s.on GLB_CTRL_RELOAD = false → ∃ R c,
    Stands m .GLB_CTRL 0 0 GLB_CTRL.one (withField GLB_CTRL_RELOAD 1 v).toNat s R c ∧
    exec (.glbReload m v) s = .next (settle s (reloadAsked c))) ∧
  (∀ s : State, (s.running = false → reloadAsked s = s) ∧ (s.running = true → (reloadAsked s).get GLB_STATE_STATE = 2 ∧
    (reloadAsked s).get GLB_STATE_ENTRY_CAUSE = 3 ∧ (reloadAsked s).on LDR_EVENT_RELOAD = true ∧ (reloadAsked s).ldr.active = false)) ∧
  (∀ (s : State), Served s → (s.ldr.left = [] ∨ s.dev ≠ .loading ∨ s.ldr.active = true ∨ s.phase = 6 ∨ s.phase = 7) →
    exec .imageReadStart s = .next (settle s s)) ∧
  (∀ (k : Nat) (l : List Nat) (s : State), Served s → s.ldr.left = k :: l → s.dev = .loading → s.ldr.active = false → s.phase ≠ 6 → s.phase ≠ 7 →
    (∃ u : State, exec .imageReadStart s = .next (settle s u) ∧ u.ldr.active = true ∧ u.ldr.left = l ∧ u.phase = 1 ∧
      u.get LDR_STATUS_SOURCE = k % 4 ∧ u.get LDR_STATUS_SECTION = 0 ∧
      u.out = s.out ++ [.flash 0xEC (imageBase k)])) ∧
  (∀ (b : List Byte) (s : State), Served s → (s.ldr.active = false ∨ s.phase ≠ 1) →
    exec (.header b) s = .next (settle s s)) ∧
  (∀ (b : List Byte) (s : State), Served s → s.ldr.active = true → s.phase = 1 → hostImage s = false → hdrReadable b = false →
    exec (.header b) s = .next (settle s (ldrFail 1 0 s))) ∧
  (∀ (b : List Byte) (s : State), Served s → s.ldr.active = true → s.phase = 1 → hostImage s = false → hdrReadable b = true → hdrValid (b.take (hdrSize (hdrSections b))) = true → hdrRecord (b.take (hdrSize (hdrSections b))) = true →
    (s.ldr.reload = true ∨ singleHeader s = [] ∨ (singleHeader s).take (b.take (hdrSize (hdrSections b))).length = b.take (hdrSize (hdrSections b))) →
    hdrWord b 0x10 % 8 = s.get SYN_ROOT_FREQ → hdrWord b 0x10 / 2 ^ 16 = s.get SYN_ROOT_SOURCE_ID →
    (s.otp.secure = false ∨ hdrSigned (b.take (hdrSize (hdrSections b))) = true) →
    (∃ u : State, exec (.header b) s = .next (settle s u) ∧ u.phase = 2 ∧ u.ldr.hdr = b.take (hdrSize (hdrSections b)) ∧ u.ldr.next = 0 ∧ u.ldr.imgVer = hdrWord (b.take (hdrSize (hdrSections b))) 0x14)) ∧
  (∀ (b : List Byte) (s : State), Served s → s.ldr.active = true → s.phase = 1 → hostImage s = false → hdrReadable b = true →
    (s.ldr.reload = true ∨ singleHeader s = [] ∨ (singleHeader s).take (b.take (hdrSize (hdrSections b))).length = b.take (hdrSize (hdrSections b))) → (hdrValid (b.take (hdrSize (hdrSections b))) = false ∨ hdrRecord (b.take (hdrSize (hdrSections b))) = false) →
    exec (.header b) s = .next (settle s (ldrFail (if hdrValid (b.take (hdrSize (hdrSections b))) then 6 else 2) 0 s))) ∧
  (∀ (b : List Byte) (s : State), Served s → s.ldr.active = true → s.phase = 1 → hostImage s = true → s.ldr.stream.length < 0x40 →
    exec (.header b) s = .next (settle s s)) ∧
  (∀ (b : List Byte) (s : State), Served s → sectionFree s = false →
    exec (.sectionReadDone b) s = .next (settle s s)) ∧
  (∀ (b : List Byte) (s : State), Served s → sectionFree s = true → hostImage s = false → b.length = secLength s.ldr.hdr s.ldr.next →
    (crc32 b).toNat ≠ secCrc s.ldr.hdr s.ldr.next → s.ldr.retry = false →
    (∃ u : State, exec (.sectionReadDone b) s = .next (settle s u) ∧ u.ldr.retry = true ∧ u.ldr.next = s.ldr.next ∧ u.on LDR_EVENT_SECTION_RETRY = true ∧
      u.get LDR_CNT_SECTION_RETRY = (s.get LDR_CNT_SECTION_RETRY + 1) % 2 ^ 16 ∧
      u.out = s.out ++ [.flash 0xEC (imageBase (s.get LDR_STATUS_SOURCE) + secOffset s.ldr.hdr s.ldr.next)])) ∧
  (∀ (b : List Byte) (s : State), Served s → sectionFree s = true → hostImage s = false →
    (b.length ≠ secLength s.ldr.hdr s.ldr.next ∨ (crc32 b).toNat ≠ secCrc s.ldr.hdr s.ldr.next) → s.ldr.retry = true →
    exec (.sectionReadDone b) s = .next (settle s (ldrFail 5 (secOffset s.ldr.hdr s.ldr.next) s))) ∧
  (∀ (b : List Byte) (s : State), Served s → sectionFree s = true → hostImage s = false → b.length = secLength s.ldr.hdr s.ldr.next →
    (crc32 b).toNat = secCrc s.ldr.hdr s.ldr.next → s.ldr.executing = true →
    (∃ u : State, exec (.sectionReadDone b) s = .next (settle s u) ∧ u.ldr.buf2 = some b ∧ u.ldr.next = s.ldr.next + 1 ∧ u.ldr.buf = s.ldr.buf ∧ u.regs = s.regs)) ∧
  (∀ (b : List Byte) (s : State), Served s → sectionFree s = true → hostImage s = false → b.length = secLength s.ldr.hdr s.ldr.next →
    (crc32 b).toNat = secCrc s.ldr.hdr s.ldr.next → s.ldr.executing = false →
    exec (.sectionReadDone b) s = .next (settle s (sectionBegin s.ldr.next b { s with ldr := { s.ldr with all := s.ldr.all ++ b, next := s.ldr.next + 1, retry := false } }))) ∧
  (∀ (k n : Nat) (s : State), (s.ldr.active = false → ldrFail k n s = s) ∧ (s.ldr.active = true →
    (ldrFail k n s).phase = 7 ∧ (ldrFail k n s).ldr.active = false ∧ (ldrFail k n s).lanes = [] ∧ (ldrFail k n s).frames = [] ∧
    (ldrFail k n s).sess = [] ∧ (ldrFail k n s).queues = [] ∧ (ldrFail k n s).tiu = factoryTiu s.otp ∧ (ldrFail k n s).cal = factoryCal s.otp ∧
    (s.ldr.reload = false → (ldrFail k n s).tb = {} ∧ (ldrFail k n s).refs = [] ∧ (ldrFail k n s).ens = []))) ∧
  (∀ (s : State), Served s → s.phase ≠ 7 →
    exec .imageUndoDone s = .next (settle s s)) ∧
  (∀ (s : State), Served s → s.phase = 7 → s.ldr.escal = true →
    exec .imageUndoDone s = .next (settle s (safeEnter 5 s))) ∧
  (∀ (s : State), Served s → s.phase = 7 → s.ldr.escal = false → (hostImage s = true ∨ s.ldr.left = []) →
    exec .imageUndoDone s = .next (settle s (safeEnter 4 (s.put GLB_STATE_IMAGE 3)))) ∧
  (∀ (s : State), Served s → s.phase = 7 → s.ldr.escal = false → hostImage s = false → s.ldr.left ≠ [] →
    (∃ u : State, exec .imageUndoDone s = .next (settle s u) ∧ u.phase = 0 ∧ u.get LDR_STATUS_SOURCE = 3 ∧ u.ldr = s.ldr)) ∧
  (∀ (k : Nat) (s : State), (safeEnter k s).get GLB_STATE_STATE = 4 ∧ (safeEnter k s).get GLB_STATE_ENTRY_CAUSE = k % 16 ∧
    (safeEnter k s).ldr.active = false ∧ (safeEnter k s).ldr.left = [] ∧ (safeEnter k s).phase = 0 ∧
    (safeEnter k s).word MGT_PRIV = MGT_PRIV.reset) ∧
  (∀ (s : State), Served s → s.ldr.active = false →
    exec .loadTimeout s = .next (settle s s)) ∧
  (∀ (s : State), Served s → s.ldr.active = true →
    exec .loadTimeout s = .next (settle s (ldrFail 0x0C s.ldr.offset s)))

/-- The records: each executes at its turn, the waits end, the signature is verified, END commits (R620, R624, R625, R626, R627, R629, R638, R644). -/
def Obligations.RecordsOfAnImage : Prop :=
  (∀ (ty : Nat) (i : Instr) (f : List Byte → State → State), (i, ty, f) ∈ ([(.write32, 0x02, recWrite32), (.writeBlock, 0x03, recWriteBlock),
      (.fill, 0x04, recFill), (.modify, 0x05, recModify), (.waitTime, 0x06, recWaitTime), (.waitBit, 0x07, recWaitBit),
      (.tableLoad, 0x08, recTableLoad), (.key, 0x09, recKey), (.signature, 0x0A, recSignature), (.end_, 0x0B, recEnd)] :
        List (Instr × Nat × (List Byte → State → State))) → ∀ s : State, Served s →
    ((s.ldr.active = false ∨ s.ldr.executing = false ∨ s.phase ≠ 2 ∨ recType s ≠ ty) → exec i s = .next (settle s s)) ∧
    (s.ldr.active = true → s.ldr.executing = true → s.phase = 2 → recType s = ty → exec i s = .next (settle s (f (recBody s)
      (if ty = 8 then s else { s with ldr := { s.ldr with tblMixed := true } }))))) ∧
  (∀ (a v : Nat) (s : State), s.ldr.active = true → (busWrite .loader a 15 (BitVec.ofNat 32 v) s).1 = 0 →
    loaderPut a v s = (busWrite .loader a 15 (BitVec.ofNat 32 v) s).2) ∧
  (∀ (r : Reg) (v : Word) (s : State), r ∈ [GLB_CTRL, LDR_HOST_CTRL, LDR_HOST_FIFO] →
    (busWrite .loader r.addr 15 v s).1 = 3 ∧ OnlyPmc s (busWrite .loader r.addr 15 v s).2) ∧
  (∀ s : State, s.ldr.active = true → s.ldr.buf.length ≤ 4 + recLen s → s.ldr.buf2 = none → (recDone s).ldr.executing = false ∧
    (recDone s).phase = 2 ∧ (recDone s).ldr.offset = s.ldr.offset + (4 + recLen s) ∧ (recDone s).ldr.wait = .none) ∧
  (∀ (b : List Byte) (s : State), (recWaitTime b s).phase = 3 ∧ (recWaitTime b s).ldr.wait = .time ∧ (recWaitBit b s).phase = 3 ∧
    (recWaitBit b s).ldr.wait = .bit (bodyWord b 0) (bodyWord b 1) (bodyWord b 2) (bodyWord b 4 == 1) ∧
    (recSignature b s).phase = 4 ∧ (recSignature b s).ldr.sigAt = some s.ldr.offset ∧
    (recEnd b s).phase = 8 ∧ (recEnd b s).on LDR_EVENT_DONE = true ∧ (recEnd b s).get GLB_STATE_STATE = 3 ∧
    (recEnd b s).ldr.active = false ∧ (recEnd b s).ldr.reload = false ∧ (recEnd b s).ldr.defer = []) ∧
  (∀ (s : State), Served s → (s.ldr.active = false ∨ s.ldr.wait ≠ .time) →
    exec .waitTimeExpire s = .next (settle s s)) ∧
  (∀ (s : State), Served s → s.ldr.active = true → s.ldr.wait = .time →
    exec .waitTimeExpire s = .next (settle s (recDone s))) ∧
  (∀ (s : State), Served s → (s.ldr.active = false ∨ ∀ a m e f, s.ldr.wait ≠ .bit a m e f) →
    exec .waitBitMatch s = .next (settle s s)) ∧
  (∀ (a m e : Nat) (f : Bool) (s : State), Served s → s.ldr.active = true → s.ldr.wait = .bit a m e f →
    (BitVec.ofNat 32 (busRead .loader a s).2.1 &&& BitVec.ofNat 32 m : Word) = BitVec.ofNat 32 e →
    exec .waitBitMatch s = .next (settle s (recDone (busRead .loader a s).2.2))) ∧
  (∀ (a m e : Nat) (f : Bool) (s : State), Served s → s.ldr.active = true → s.ldr.wait = .bit a m e f →
    (BitVec.ofNat 32 (busRead .loader a s).2.1 &&& BitVec.ofNat 32 m : Word) ≠ BitVec.ofNat 32 e →
    exec .waitBitMatch s = .next (settle s ((busRead .loader a s).2.2))) ∧
  (∀ (s : State), Served s → (s.ldr.active = false ∨ ∀ a m e f, s.ldr.wait ≠ .bit a m e f) →
    exec .waitBitTimeout s = .next (settle s s)) ∧
  (∀ (a m e : Nat) (s : State), Served s → s.ldr.active = true → s.ldr.wait = .bit a m e true →
    exec .waitBitTimeout s = .next (settle s (ldrFail 8 s.ldr.offset s))) ∧
  (∀ (a m e : Nat) (s : State), Served s → s.ldr.active = true → s.ldr.wait = .bit a m e false →
    exec .waitBitTimeout s = .next (settle s (recDone (s.ev LDR_EVENT_WAIT_EXPIRED)))) ∧
  (∀ (s : State), Served s → (s.ldr.active = false ∨ s.phase ≠ 4 ∨ s.ldr.sigAt = none ∨ s.ldr.signKey = none) →
    exec .signatureVerified s = .next (settle s s)) ∧
  (∀ (n : Nat) (k : List Byte) (s : State), Served s → s.ldr.active = true → s.phase = 4 → s.ldr.sigAt = some n → s.ldr.signKey = some k →
    s.otp.keyHash ≠ some (natBE (sha256 k)) →
    exec .signatureVerified s = .next (settle s (ldrFail 9 n s))) ∧
  (∀ (n : Nat) (k : List Byte) (s : State), Served s → s.ldr.active = true → s.phase = 4 → s.ldr.sigAt = some n → s.ldr.signKey = some k →
    s.otp.keyHash = some (natBE (sha256 k)) → ecdsaOk (natBE ((k.drop 0).take 32)) (natBE ((k.drop 32).take 32))
      (natBE ((s.ldr.sig.drop 0).take 32)) (natBE ((s.ldr.sig.drop 32).take 32)) (s.ldr.all.take n) = true →
    exec .signatureVerified s = .next (settle s (recDone s))) ∧
  (∀ (n : Nat) (k : List Byte) (s : State), Served s → s.ldr.active = true → s.phase = 4 → s.ldr.sigAt = some n → s.ldr.signKey = some k →
    s.otp.keyHash = some (natBE (sha256 k)) → ecdsaOk (natBE ((k.drop 0).take 32)) (natBE ((k.drop 32).take 32))
      (natBE ((s.ldr.sig.drop 0).take 32)) (natBE ((s.ldr.sig.drop 32).take 32)) (s.ldr.all.take n) = false →
    exec .signatureVerified s = .next (settle s (ldrFail 0x0A n s)))

/-- Host loads: START where it is served, the FIFO, ABORT, and the timers (R630, R634, R635, R636, R638). -/
def Obligations.HostLoads : Prop :=
  (∀ (m : BusMaster) (v : Word) (s : State), Writable m LDR_HOST_CTRL (withField LDR_HOST_CTRL_ABORT 0 (withField LDR_HOST_CTRL_START 1 v)) s → s.on LDR_HOST_CTRL_START = false →
    ((s.dev = .safeMode ∧ (m = .pcie ∨ m = .spi)) ∨ (s.dev = .loading ∧ s.on LDR_HOST_STATUS_WAITING = true ∧ hostMay s m = true)) →
    ∃ c : State, AccessNoted s c ∧ exec (.hostLoadStart m v) s = .next (settle s (hostStart m c).2)) ∧
  (∀ (m : BusMaster) (v : Word) (s : State), s.inReset = false → s.gated = false → served s m = true → m ≠ .loader → privOf s m = 2 →
    s.on LDR_HOST_CTRL_START = false → s.word LDR_HOST_CTRL = 0 → s.dev ≠ .safeMode →
    (s.dev ≠ .loading ∨ s.on LDR_HOST_STATUS_WAITING = false ∨ hostMay s m = false) →
    (∃ u : State, exec (.hostLoadStart m v) s = .next (settle s u) ∧ u.on LDR_EVENT_CFG_ERR = true ∧ u.ldr = s.ldr ∧ u.dev = s.dev)) ∧
  (∀ (m : BusMaster) (s : State), s.dev = .safeMode → (m = .pcie ∨ m = .spi) → (hostStart m s).1 = true ∧
    (hostStart m s).2.get GLB_STATE_STATE = 2 ∧ (hostStart m s).2.get GLB_STATE_ENTRY_CAUSE = 6 ∧ (hostStart m s).2.ldr.active = true ∧
    (hostStart m s).2.get LDR_STATUS_SOURCE = 2 ∧ (hostStart m s).2.phase = 1 ∧ (hostStart m s).2.on LDR_HOST_CTRL_START = true) ∧
  (∀ (m : BusMaster) (s : State), s.dev = .loading → s.on LDR_HOST_STATUS_WAITING = true → hostMay s m = true → (hostStart m s).1 = true ∧
    (hostStart m s).2.on LDR_HOST_STATUS_WAITING = false ∧ (hostStart m s).2.ldr.active = true ∧ (hostStart m s).2.phase = 1 ∧
    (hostStart m s).2.get LDR_STATUS_SOURCE = 2) ∧
  (∀ (m : BusMaster) (s : State), s.dev ≠ .safeMode → (s.dev ≠ .loading ∨ s.on LDR_HOST_STATUS_WAITING = false ∨ hostMay s m = false) →
    hostStart m s = (false, s.ev LDR_EVENT_CFG_ERR)) ∧
  (∀ (m : BusMaster) (v : Word) (s : State), Writable m LDR_HOST_CTRL (withField LDR_HOST_CTRL_ABORT 1 (withField LDR_HOST_CTRL_START 0 v)) s → ∃ R c,
    Stands m .LDR_HOST_CTRL 0 0 LDR_HOST_CTRL.one (withField LDR_HOST_CTRL_ABORT 1 (withField LDR_HOST_CTRL_START 0 v)).toNat s R c ∧
    exec (.hostAbort m v) s = .next (settle s (hostAbort c))) ∧
  (∀ s : State, (hostActive s = false → hostAbort s = s) ∧ (hostActive s = true → hostAbort s = ldrFail 0x0F (hostBytes s) s)) ∧
  (∀ (m : BusMaster) (v : Word) (s : State), Writable m LDR_HOST_FIFO v s → ∃ R c,
    Stands m .LDR_HOST_FIFO 0 0 LDR_HOST_FIFO.one v.toNat s R c ∧
    exec (.hostFifoWrite m v) s = .next (settle s (fifoWrite m v c))) ∧
  (∀ (m : BusMaster) (v : Word) (s : State), ((hostActive s = false ∨ s.ldr.hostIf ≠ ifOf m) → fifoWrite m v s = s) ∧
    (hostActive s = true → s.ldr.hostIf = ifOf m → 1024 ≤ fifoWords s → fifoWrite m v s = ldrFail 0x0D (hostBytes s) s) ∧
    (hostActive s = true → s.ldr.hostIf = ifOf m → fifoWords s < 1024 →
      (fifoWrite m v s).ldr.stream = s.ldr.stream ++ leBytes 4 v.toNat ∧ (fifoWrite m v s).ldr.active = true)) ∧
  (∀ (s : State), Served s → hostActive s = false →
    exec .hostIdle s = .next (settle s s)) ∧
  (∀ (s : State), Served s → hostActive s = true →
    exec .hostIdle s = .next (settle s (ldrFail 0x0E (hostBytes s) s))) ∧
  (∀ (s : State), Served s → (s.on LDR_HOST_STATUS_WAITING = false ∨ s.get LDR_CFG_HOST_TO = 0) →
    exec .hostWaitTimeout s = .next (settle s s)) ∧
  (∀ (s : State), Served s → s.on LDR_HOST_STATUS_WAITING = true → s.get LDR_CFG_HOST_TO ≠ 0 →
    exec .hostWaitTimeout s = .next (settle s (safeEnter 4 (s.put GLB_STATE_IMAGE 3))))

/-- PCIe, the rings of the CPU port, SPI, MMP requests and JTAG (R651, R652, R653, R654, R655, R656, R657, R658, R659, R660, R661, R663). -/
def Obligations.ManagementPortsAndJtag : Prop :=
  (∀ (s : State), s.inReset = false →
    exec .pciePerst s = .next (settle s (portEval 64 { s with mgt :=
      { s.mgt with bme := false, msixEn := false, msixMask := false, vecMask := 0xFFFFFFFF, vecPend := 0 } }))) ∧
  (∀ (q : CfgReq) (s : State), s.inReset = true → exec (.pcieConfigurationRequest q) s = .next (cfgRetry q s)) ∧
  (∀ (q : CfgReq) (s : State), s.inReset = false → (s.dev = .reset ∨ s.dev = .clockStart) →
    exec (.pcieConfigurationRequest q) s = .next (settle s (cfgRetry q s))) ∧
  (∀ (q : CfgReq) (s : State), ((∀ v m, q ≠ .vector v m) → cfgRetry q s = s.send (.cfg true)) ∧ ((∃ v m, q = .vector v m) → cfgRetry q s = s)) ∧
  (∀ (k : Fin 1024) (s : State), s.inReset = false → s.dev ≠ .reset → s.dev ≠ .clockStart →
    exec (.pcieConfigurationRequest (.read k)) s = .next (settle s ((s.fresh.2.send (.cfg false)).send (.cfgData k.val (cfgDword k.val s.fresh.1))))) ∧
  (∀ (v : Bool) (s : State), s.inReset = false → s.dev ≠ .reset → s.dev ≠ .clockStart →
    exec (.pcieConfigurationRequest (.command v)) s = .next (settle s (msixRelease (portEval 64 { s.send (.cfg false) with mgt := { s.mgt with bme := v } })))) ∧
  (∀ (e f : Bool) (s : State), s.inReset = false → s.dev ≠ .reset → s.dev ≠ .clockStart →
    exec (.pcieConfigurationRequest (.msix e f)) s = .next (settle s (msixRelease { s.send (.cfg false) with mgt := { s.mgt with msixEn := e, msixMask := f } }))) ∧
  (∀ (v : Fin 32) (s : State), s.inReset = false → s.dev ≠ .reset → s.dev ≠ .clockStart →
    exec (.pcieConfigurationRequest (.vector v true)) s = .next (settle s (msixRelease { s with mgt := { s.mgt with vecMask := s.mgt.vecMask ||| 2 ^ v.val } }))) ∧
  (∀ (v : Fin 32) (s : State), s.inReset = false → s.dev ≠ .reset → s.dev ≠ .clockStart →
    exec (.pcieConfigurationRequest (.vector v false)) s = .next (settle s (msixRelease { s with mgt := { s.mgt with vecMask := s.mgt.vecMask &&& (0xFFFFFFFF - 2 ^ v.val) } }))) ∧
  (∀ (v : Nat) (s : State), (msixRuns s = false → msixFire v s = s) ∧ (msixRuns s = true → vecMasked s v = false → msixFire v s = s.send (.msix v)) ∧
    (msixRuns s = true → vecMasked s v = true → (msixFire v s).out = s.out ∧ (msixFire v s).mgt.vecPend = s.mgt.vecPend ||| 2 ^ v)) ∧
  (∀ (t : Fin 8) (d : List Word) (f : List Byte) (s : State), s.inReset = false → (dmaRuns s = false ∨ txServed s ≠ some t.val ∨ (d.getD 3 0).getLsbD 0 = false) →
    exec (.dmaTxDescriptor t d f) s = .next (settle s s)) ∧
  (∀ (t : Fin 8) (d : List Word) (f : List Byte) (s : State), s.inReset = false → dmaRuns s = true → txServed s = some t.val → (d.getD 3 0).getLsbD 0 = true → (((d.getD 2 0).toNat % 2 ^ 14) < 60 ∨ 9596 < ((d.getD 2 0).toNat % 2 ^ 14)) →
    (∃ u : State, exec (.dmaTxDescriptor t d f) s = .next (settle s u) ∧ u.get (MGT_RING_HEAD_V t) = (s.get (MGT_RING_HEAD_V t) + 1) % s.get (MGT_RING_SIZE_V t) % 2 ^ 12 ∧
      u.bit MGT_DMA_EVENT_V t = true ∧ u.on MGT_EVENT_DMA_ERR = true ∧ u.out = s.out ++ [.dmaTx t (2 + 16 * 1)] ∧ u.frames = s.frames)) ∧
  (∀ (t : Fin 8) (d : List Word) (f : List Byte) (s : State), s.inReset = false → dmaRuns s = true → txServed s = some t.val → (d.getD 3 0).getLsbD 0 = true → 60 ≤ ((d.getD 2 0).toNat % 2 ^ 14) → ((d.getD 2 0).toNat % 2 ^ 14) ≤ 9596 →
    (f.length < ((d.getD 2 0).toNat % 2 ^ 14) ∨ s.get (POOL_FREE_V 2) < cellsOf (((d.getD 2 0).toNat % 2 ^ 14) + 4) ∨ s.on (POOL_CFG_EN 2) = false) →
    exec (.dmaTxDescriptor t d f) s = .next (settle s s)) ∧
  (∀ (t : Fin 8) (d : List Word) (f : List Byte) (x : List Nat × State) (s : State), s.inReset = false → dmaRuns s = true → txServed s = some t.val → (d.getD 3 0).getLsbD 0 = true → 60 ≤ ((d.getD 2 0).toNat % 2 ^ 14) → ((d.getD 2 0).toNat % 2 ^ 14) ≤ 9596 → ((d.getD 2 0).toNat % 2 ^ 14) ≤ f.length →
    cellsOf (((d.getD 2 0).toNat % 2 ^ 14) + 4) ≤ s.get (POOL_FREE_V 2) → s.on (POOL_CFG_EN 2) = true → x = cpuBuffers clsCpuDma (cellsOf (((d.getD 2 0).toNat % 2 ^ 14) + 4)) s →
    exec (.dmaTxDescriptor t d f) s = .next (settle s ((ringDone t true (forEach x.1 (fun i s => (poolFree 2 i clsCpuDma s).2)
      (cpuFrame (insBlock d) (f.take ((d.getD 2 0).toNat % 2 ^ 14)) x.2))).send (.dmaTx t 2)))) ∧
  (∀ (t : Fin 8) (s : State), s.inReset = false → dmaRuns s = true → txServed s = some t.val →
    (∃ u : State, exec (.dmaHostReadTimeout t) s = .next (settle s u) ∧ u.get (MGT_RING_HEAD_V t) = (s.get (MGT_RING_HEAD_V t) + 1) % s.get (MGT_RING_SIZE_V t) % 2 ^ 12 ∧
      u.bit MGT_DMA_EVENT_V t = true ∧ u.on MGT_EVENT_DMA_ERR = true ∧ u.out = s.out ++ [.dmaTx t (2 + 16 * 2)] ∧ u.frames = s.frames)) ∧
  (∀ (t : Fin 8) (s : State), s.inReset = false → (dmaRuns s = false ∨ txServed s ≠ some t.val) →
    exec (.dmaHostReadTimeout t) s = .next (settle s s)) ∧
  (∀ (t : Fin 8) (n : Nat) (s : State), s.inReset = false → (dmaRuns s = false ∨ ringReady s (8 + t.val) = false) →
    exec (.dmaRxDeliver t n) s = .next (settle s s)) ∧
  (∀ (t : Fin 8) (n : Nat) (b : LbCopy) (l : List LbCopy) (s : State), s.inReset = false → dmaRuns s = true → ringReady s (8 + t.val) = true →
    s.get MGT_DMA_CTRL_LB_RING = t.val → s.mgt.loops = b :: l →
    exec (.dmaRxDeliver t n) s = .next (settle s (rxDeliver t n b.bytes b.port b.tc b.flags b.stamp
      (forEach b.bufs (fun i s => (poolFree 2 i clsCpuDma s).2) { s with mgt := { s.mgt with loops := l } })))) ∧
  (∀ (t : Fin 8) (n : Nat) (s : State), s.inReset = false → dmaRuns s = true → ringReady s (8 + t.val) = true →
    (s.get MGT_DMA_CTRL_LB_RING ≠ t.val ∨ s.mgt.loops = []) → headReady (queueJoin (512 + t.val) s) (512 + t.val) = none →
    exec (.dmaRxDeliver t n) s = .next (settle s (queueJoin (512 + t.val) s))) ∧
  (∀ (t : Fin 8) (n c : Nat) (s : State), s.inReset = false → dmaRuns s = true → ringReady s (8 + t.val) = true →
    (s.get MGT_DMA_CTRL_LB_RING ≠ t.val ∨ s.mgt.loops = []) → headReady (queueJoin (512 + t.val) s) (512 + t.val) = some c →
    exec (.dmaRxDeliver t n) s = .next (settle s (rxQueue t n c (queueJoin (512 + t.val) s)))) ∧
  (∀ (t n p c f st : Nat) (l : List Byte) (s : State), (rxDeliver t n l p c f st s).out = s.out ++ [.dmaRx t (rxWords l.length p c f st n) (l.take n)]) ∧
  (∀ (a : Word) (l : List Byte) (s : State), s.inReset = false → (served s .spi = false ∨ (s.gated = false ∧ l.length < 4)) →
    exec (.spiWrite a l) s = .next (settle s s)) ∧
  (∀ (a : Word) (l : List Byte) (s : State), s.inReset = false → served s .spi = true → s.gated = false → l.length = 4 →
    exec (.spiWrite a l) s = .next (settle s (spiMark (spiAfter (busWrite .spi a.toNat 15 (BitVec.ofNat 32 (natBE l)) s).1) (busWrite .spi a.toNat 15 (BitVec.ofNat 32 (natBE l)) s).2))) ∧
  (∀ (n a : Nat) (l : List Byte) (s : State), 4 ≤ l.length → spiWrites (n + 1) a l s = spiWrites n ((a + 4) % 2 ^ 32) (l.drop 4)
    (spiMark (spiAfter (busWrite .spi a 15 (BitVec.ofNat 32 (natBE (l.take 4))) s).1)
      (busWrite .spi a 15 (BitVec.ofNat 32 (natBE (l.take 4))) s).2)) ∧
  (∀ (a : Word) (n : Nat) (s : State), s.inReset = false → served s .spi = false →
    exec (.spiRead a n) s = .next (settle s s)) ∧
  (∀ (a : Word) (l : List Byte) (s : State), s.inReset = false → served s .spi = true → s.gated = true →
    exec (.spiWrite a l) s = .next (settle s (accWait (.spiWrite a.toNat l) s))) ∧
  (∀ (a : Word) (n : Nat) (s : State), s.inReset = false → served s .spi = true → s.gated = true →
    exec (.spiRead a n) s = .next (settle s (accWait (.spiRead a.toNat n) s))) ∧
  (∀ (a : Word) (n : Nat) (s : State), s.inReset = false → served s .spi = true → s.gated = false →
    exec (.spiRead a n) s = .next (settle s ((spiReads n a.toNat s).2.send (.spi (spiReads n a.toNat s).1)))) ∧
  (∀ (n a : Nat) (s : State), (spiReads n a s).1.length = 5 * n) ∧
  (∀ (s : State), s.inReset = false → served s .spi = false →
    exec .spiStatus s = .next (settle s s)) ∧
  (∀ (s : State), s.inReset = false → served s .spi = true →
    (∃ u : State, exec .spiStatus s = .next (settle s u) ∧ u.mgt.spiStat = 0 ∧ u.out = s.out ++ [.spi [BitVec.ofNat 8 s.mgt.spiStat]] ∧ u.regs = s.regs)) ∧
  (∀ (s : State), Served s → (s.mgt.mmpq = [] ∨ served s .mmp = false) →
    exec .mmpRequest s = .next (settle s s)) ∧
  (∀ (r : MmpReq) (l : List MmpReq) (p : List Byte) (s : State), Served s → s.mgt.mmpq = r :: l → served s .mmp = true → p = (r.frame.take (r.frame.length - 4)).drop (parseFrame r.frame).off → (byteAt p 0 ≠ 1 ∨ byteAt p 1 ≠ 1 ∨ natLE ((p.drop 2).take 2) = 0 ∨ 64 < natLE ((p.drop 2).take 2)) →
    (∃ u : State, exec .mmpRequest s = .next (settle s u) ∧ u.mgt.mmpq = l ∧ u.on MGT_EVENT_MMP_DROP = true ∧
      u.get MGT_MMP_CNT_FORMAT = min (s.get MGT_MMP_CNT_FORMAT + 1) 255 ∧ u.out = s.out)) ∧
  (∀ (r : MmpReq) (l : List MmpReq) (p : List Byte) (s : State), Served s → s.mgt.mmpq = r :: l → served s .mmp = true → p = (r.frame.take (r.frame.length - 4)).drop (parseFrame r.frame).off → byteAt p 0 = 1 → byteAt p 1 = 1 → 1 ≤ natLE ((p.drop 2).take 2) → natLE ((p.drop 2).take 2) ≤ 64 →
    (p.drop 12).take 4 = [0, 0, 0, 0] → 16 + 12 * natLE ((p.drop 2).take 2) + 32 ≤ p.length →
    (s.on MGT_MMP_CFG_KEY_SET = false ∨ hmac256 (leBytes 32 (s.wide MGT_MMP_KEY)) (p.take (16 + 12 * natLE ((p.drop 2).take 2))) ≠ (p.drop (16 + 12 * natLE ((p.drop 2).take 2))).take 32) →
    (∃ u : State, exec .mmpRequest s = .next (settle s u) ∧ u.mgt.mmpq = l ∧ u.on MGT_EVENT_MMP_DROP = true ∧
      u.get MGT_MMP_CNT_AUTH = min (s.get MGT_MMP_CNT_AUTH + 1) 255 ∧ u.out = s.out)) ∧
  (∀ (r : MmpReq) (l : List MmpReq) (p : List Byte) (s : State), Served s → s.mgt.mmpq = r :: l → served s .mmp = true → p = (r.frame.take (r.frame.length - 4)).drop (parseFrame r.frame).off → byteAt p 0 = 1 → byteAt p 1 = 1 → 1 ≤ natLE ((p.drop 2).take 2) → natLE ((p.drop 2).take 2) ≤ 64 →
    (p.drop 12).take 4 = [0, 0, 0, 0] → 16 + 12 * natLE ((p.drop 2).take 2) + 32 ≤ p.length →
    s.on MGT_MMP_CFG_KEY_SET = true →
    hmac256 (leBytes 32 (s.wide MGT_MMP_KEY)) (p.take (16 + 12 * natLE ((p.drop 2).take 2))) = (p.drop (16 + 12 * natLE ((p.drop 2).take 2))).take 32 →
    natLE ((p.drop 4).take 8) ≤ s.wide MGT_MMP_LAST_SEQ →
    (∃ u : State, exec .mmpRequest s = .next (settle s u) ∧ u.mgt.mmpq = l ∧ u.on MGT_EVENT_MMP_DROP = true ∧
      u.get MGT_MMP_CNT_REPLAY = min (s.get MGT_MMP_CNT_REPLAY + 1) 255 ∧ u.out = s.out)) ∧
  (∀ (r : MmpReq) (l : List MmpReq) (p : List Byte) (s : State), Served s → s.mgt.mmpq = r :: l → served s .mmp = true → p = (r.frame.take (r.frame.length - 4)).drop (parseFrame r.frame).off → byteAt p 0 = 1 → byteAt p 1 = 1 → 1 ≤ natLE ((p.drop 2).take 2) → natLE ((p.drop 2).take 2) ≤ 64 →
    (p.drop 12).take 4 = [0, 0, 0, 0] → 16 + 12 * natLE ((p.drop 2).take 2) + 32 ≤ p.length →
    s.on MGT_MMP_CFG_KEY_SET = true →
    hmac256 (leBytes 32 (s.wide MGT_MMP_KEY)) (p.take (16 + 12 * natLE ((p.drop 2).take 2))) = (p.drop (16 + 12 * natLE ((p.drop 2).take 2))).take 32 →
    s.wide MGT_MMP_LAST_SEQ < natLE ((p.drop 4).take 8) →
    exec .mmpRequest s = .next (settle s (mmpServe r p (natLE ((p.drop 2).take 2)) { s with mgt := { s.mgt with mmpq := l } }))) ∧
  (∀ (i : Instr) (j : JtagInstr), (i, j) ∈ ([(.bypass, .bypass), (.samplePreload, .sample), (.extest, .extest), (.extestPulse, .extestPulse),
      (.extestTrain, .extestTrain)] : List (Instr × JtagInstr)) → ∀ s : State,
    ((s.mgt.jtag.drives = false ∨ s.mgt.jtag = j) → exec i s = .next { s with mgt := { s.mgt with jtag := j } }) ∧
    (s.mgt.jtag.drives = true → s.mgt.jtag ≠ j → exec i s = .next (deviceReset 0 { s with mgt := { s.mgt with jtag := j } }))) ∧
  (∀ s : State, (s.mgt.jtag.drives = false → exec .idcode s = .next ({ s with mgt := { s.mgt with jtag := .idcode } }.send (.jtag 0x1648096B))) ∧
    (s.mgt.jtag.drives = true → exec .idcode s =
      .next ((deviceReset 0 { s with mgt := { s.mgt with jtag := .idcode } }).send (.jtag 0x1648096B))) ∧
    (s.mgt.jtag.drives = false → exec .extestExit s = .next s) ∧
    (s.mgt.jtag.drives = true → exec .extestExit s = .next (deviceReset 0 { s with mgt := { s.mgt with jtag := .idcode } })))

/-- Interrupt rearm, the I2C and MDIO masters, the event counters and the tally dumps (R664, R665, R667, R668, R673, R674, R675, R677). -/
def Obligations.InterruptsModuleBusesAndCounters : Prop :=
  (∀ (m : BusMaster) (v : Word) (s : State), Writable m MGT_IRQ_REARM v s → ∃ R c,
    Stands m .MGT_IRQ_REARM 0 0 MGT_IRQ_REARM.one v.toNat s R c ∧
    exec (.irqRearm m v) s = .next (settle s (irqRearm v.toNat c))) ∧
  (∀ (k : Fin 32) (s : State), (k.val ∈ vecsHigh s → irqRearm (2 ^ k.val) s = msixFire k s) ∧ (k.val ∉ vecsHigh s → irqRearm (2 ^ k.val) s = s)) ∧
  (∀ (m : BusMaster) (b : Fin 4) (v : Word) (s : State), Writable m (MGT_I2C_CMD b) (withField (MGT_I2C_CMD_GO b) 1 v) s → s.on (MGT_I2C_CMD_GO b) = false → ∃ R c,
    Stands m .MGT_I2C_CMD b 0 (MGT_I2C_CMD b).one (withField (MGT_I2C_CMD_GO b) 1 v).toNat s R c ∧
    exec (.i2cCommand m b v) s = .next (settle s (i2cGo b c))) ∧
  (∀ (b : Fin 4) (s : State), ((s.on (MGT_I2C_CFG_EN b) = false ∨ s.on (MGT_I2C_STATUS_BUSY b) = true) → i2cGo b s = s) ∧
    (s.on (MGT_I2C_CFG_EN b) = true → s.on (MGT_I2C_STATUS_BUSY b) = false →
      (i2cGo b s).on (MGT_I2C_STATUS_BUSY b) = true ∧ (i2cGo b s).on (MGT_I2C_CMD_GO b) = true ∧
      (s.on (MGT_I2C_CFG_MUX_EN b) = false → s.on (MGT_I2C_CMD_PAGE_EN b) = false → s.on (MGT_I2C_CMD_WRITE b) = false →
        (i2cGo b s).out = s.out ++ [.i2cRead b (s.on (MGT_I2C_CFG_FAST b)) (s.get (MGT_I2C_CMD_DEV b)) (s.get (MGT_I2C_CMD_OFFSET b)) (s.get (MGT_I2C_LEN_V b))]))) ∧
  (∀ (b : Fin 4) (r : I2cResult) (l : List Byte) (s : State), Served s → s.on (MGT_I2C_STATUS_BUSY b) = false →
    exec (.i2cDone b r l) s = .next (settle s s)) ∧
  (∀ (b : Fin 4) (r : I2cResult) (l : List Byte) (s : State), Served s → s.on (MGT_I2C_STATUS_BUSY b) = true →
    (∃ u : State, exec (.i2cDone b r l) s = .next (settle s u) ∧ u.on (MGT_I2C_STATUS_BUSY b) = false ∧ u.on (MGT_I2C_CMD_GO b) = false ∧
      u.on MGT_EVENT_MOD_DONE = true ∧ u.get (MGT_I2C_STATUS_BYTES b) = min l.length (s.get (MGT_I2C_LEN_V b)) ∧
      u.get (MGT_I2C_STATUS_RESULT b) = (match r with | .ok => 0 | .nack => 1 | .busStuck => 3) ∧ (r ≠ .ok → u.on MGT_EVENT_MOD_ERR = true) ∧
      (s.on (MGT_I2C_CMD_WRITE b) = false → ∀ k < 128, k < min l.length (s.get (MGT_I2C_LEN_V b)) →
        u.get ⟨MGT_I2C_DATA b (k / 4), 8 * (k % 4), 8⟩ = (l.getD k 0).toNat))) ∧
  (∀ (b : Fin 4) (s : State), Served s → s.on (MGT_I2C_STATUS_BUSY b) = false →
    exec (.i2cTimeout b) s = .next (settle s s)) ∧
  (∀ (b : Fin 4) (s : State), Served s → s.on (MGT_I2C_STATUS_BUSY b) = true →
    (∃ u : State, exec (.i2cTimeout b) s = .next (settle s u) ∧ u.on (MGT_I2C_STATUS_BUSY b) = false ∧ u.on (MGT_I2C_CMD_GO b) = false ∧
      u.get (MGT_I2C_STATUS_RESULT b) = 2 ∧ u.get (MGT_I2C_STATUS_BYTES b) ≤ s.get (MGT_I2C_LEN_V b) ∧
      u.on MGT_EVENT_MOD_DONE = true ∧ u.on MGT_EVENT_MOD_ERR = true)) ∧
  (∀ (m : BusMaster) (v : Word) (s : State), Writable m MGT_MDIO_CMD (withField MGT_MDIO_CMD_GO 1 v) s → s.on MGT_MDIO_CMD_GO = false → ∃ R c,
    Stands m .MGT_MDIO_CMD 0 0 MGT_MDIO_CMD.one (withField MGT_MDIO_CMD_GO 1 v).toNat s R c ∧
    exec (.mdioFrame m v) s = .next (settle s (mdioGo c))) ∧
  (∀ s : State, (s.on MGT_MDIO_STATUS_BUSY = true → mdioGo s = s) ∧ (s.on MGT_MDIO_STATUS_BUSY = false →
    (mdioGo s).on MGT_MDIO_STATUS_BUSY = true ∧ (mdioGo s).on MGT_MDIO_CMD_GO = true ∧ (mdioGo s).out = s.out ++
      [.mdio (s.get MGT_MDIO_CFG_DIV) (s.get MGT_MDIO_CMD_OP) (s.get MGT_MDIO_CMD_PHYAD) (s.get MGT_MDIO_CMD_REGAD) (s.get MGT_MDIO_CMD_DATA)])) ∧
  (∀ (d : Fin 65536) (s : State), Served s → s.on MGT_MDIO_STATUS_BUSY = false →
    exec (.mdioDone d) s = .next (settle s s)) ∧
  (∀ (d : Fin 65536) (s : State), Served s → s.on MGT_MDIO_STATUS_BUSY = true →
    (∃ u : State, exec (.mdioDone d) s = .next (settle s u) ∧ u.on MGT_MDIO_STATUS_BUSY = false ∧ u.on MGT_MDIO_CMD_GO = false ∧
      u.on MGT_EVENT_MOD_DONE = true ∧ u.get MGT_MDIO_STATUS_RDATA =
        (if s.get MGT_MDIO_CMD_OP = 1 ∨ s.get MGT_MDIO_CMD_OP = 4 then d.val else s.get MGT_MDIO_STATUS_RDATA))) ∧
  (∀ (m : BusMaster) (v : Word) (s : State), Writable m PMC_CTRL (withField PMC_CTRL_CLEAR 1 v) s → s.on PMC_CTRL_CLEAR = false → ∃ R c,
    Stands m .PMC_CTRL 0 0 PMC_CTRL.one (withField PMC_CTRL_CLEAR 1 v).toNat s R c ∧
    exec (.pmcClear m v) s = .next (settle s (pmcClear c))) ∧
  (∀ (m : BusMaster) (v : Word) (s : State), Writable m PMC_CTRL v s → v.toNat.testBit 1 = false → ∃ R c,
    Stands m .PMC_CTRL 0 0 PMC_CTRL.one v.toNat s R c ∧ c.on PMC_CTRL_FREEZE = v.toNat.testBit 0 ∧
    exec (.pmcFreeze m v) s = .next (settle s (c))) ∧
  (∀ (m : BusMaster) (v : Word) (s : State), Writable m PMC_CTRL v s → v.toNat.testBit 1 = true → s.on PMC_CTRL_CLEAR = false → ∃ R c,
    Stands m .PMC_CTRL 0 0 PMC_CTRL.one v.toNat s R c ∧ c.on PMC_CTRL_FREEZE = v.toNat.testBit 0 ∧
    exec (.pmcFreeze m v) s = .next (settle s (pmcClear c))) ∧
  (∀ s : State, (∀ n < 64, (pmcClear s).wide (PMC_CNT n) = 0) ∧ (pmcClear s).wide PMC_OVF = 0 ∧ (pmcClear s).mgt = s.mgt) ∧
  (∀ (m : BusMaster) (v : Word) (s : State), Writable m PMC_DUMP_CTRL (withField PMC_DUMP_CTRL_NOW 1 v) s → s.on PMC_DUMP_CTRL_NOW = false → ∃ R c,
    Stands m .PMC_DUMP_CTRL 0 0 PMC_DUMP_CTRL.one (withField PMC_DUMP_CTRL_NOW 1 v).toNat s R c ∧
    exec (.tallyDumpNow m v) s = .next (settle s (dumpNow c))) ∧
  (∀ (s : State), Served s → (s.on PMC_DUMP_CTRL_EN = false ∨ s.stage ≠ 0) →
    exec .tallyDumpPeriodic s = .next (settle s s)) ∧
  (∀ (s : State), Served s → s.on PMC_DUMP_CTRL_EN = true → s.stage = 0 →
    exec .tallyDumpPeriodic s = .next (settle s (dumpSnapshot false s))) ∧
  (∀ s : State, (s.stage ≠ 0 → dumpNow s = s) ∧ (s.stage = 0 → dumpNow s = dumpSnapshot true s)) ∧
  (∀ (now : Bool) (s : State), (dumpSnapshot now s).get PMC_DUMP_SEQ_V = (s.get PMC_DUMP_SEQ_V + 1) % 2 ^ 32 ∧
    (s.on PMC_DUMP_CTRL_DEST = false → (dumpSnapshot now s).get PMC_DUMP_STATUS_CHIP_WR = (s.get PMC_DUMP_STATUS_CHIP_WR + 1) % 120 ∧
      (dumpSnapshot now s).on PMC_EVENT_DUMP = true) ∧
    (s.on PMC_DUMP_CTRL_DEST = true → s.mgt.bme = false →
      (dumpSnapshot now s).get PMC_DUMP_LOST_V = (s.get PMC_DUMP_LOST_V + 1) % 2 ^ 32 ∧ (dumpSnapshot now s).on PMC_EVENT_DUMP_LOST = true ∧
      (dumpSnapshot now s).get PMC_DUMP_HOST_WR_V = s.get PMC_DUMP_HOST_WR_V ∧ (dumpSnapshot now s).out = s.out) ∧
    (s.on PMC_DUMP_CTRL_DEST = true → s.mgt.bme = true →
      (s.get PMC_DUMP_HOST_WR_V + 1) % s.get PMC_DUMP_HOST_SIZE_V ≠ s.get PMC_DUMP_HOST_RD_V → (dumpSnapshot now s).on PMC_EVENT_DUMP = true ∧
      (dumpSnapshot now s).out = s.out ++ [.dump (s.wide PMC_DUMP_HOST_BASE + 544 * s.get PMC_DUMP_HOST_WR_V) (dumpRecord s now)]))

/-- A conversion into a coarser format rounds to the nearest value, with ties to even (R9). -/
def Obligations.RoundingToNearestTiesToEven : Prop :=
  ∀ (a : Int) (b : Nat), 0 < b → 2 * (a - b * roundDiv a b).natAbs ≤ b ∧
    (2 * (a - b * roundDiv a b).natAbs = b → roundDiv a b % 2 = 0)

/-- A realign requested while the time base is INVALID is rejected, with REALIGN_REJ of that output (R108). -/
def Obligations.RealignWhileInvalidIsRejected : Prop :=
  (∀ (m : BusMaster) (v : Word) (s : State), Writable m PPS_REALIGN v s → s.get TB_STATUS_STATE = 0 → (∃ u : State, exec (.ppsRealign m v) s = .next (settle s u) ∧ u.pps = s.pps ∧ ∀ n < 4, u.bit PPS_STATUS_REALIGN_REJ n = (v.toNat.testBit n || s.bit PPS_STATUS_REALIGN_REJ n))) ∧
  (∀ (k : Nat) (s : State), s.get TB_STATUS_STATE = 0 → (ppsRealign k s).pps = s.pps ∧
    ∀ n < 4, (ppsRealign k s).bit PPS_STATUS_REALIGN_REJ n = (k.testBit n || s.bit PPS_STATUS_REALIGN_REJ n))

/-- What the events of a block leave as it was: other blocks' registers, every table byte, every other part of the state (R184, R189, R216, R241, R355, R393, R475, R494, R564, R594, R620, R667). -/
def Obligations.FramesOfTheBlocks : Prop :=
  (∀ (e : TiuInput) (x : TiuStop) (stop : TiuEdge) (ago : Nat) (s : State), Served s → ∀ i ∈ ([.tiuBaseLocked, .tiuStartEdge e stop ago, .tiuStopEdge x, .tiuWindowClose, .tiuStartTimeout, .tiuRefPresent, .tiuRefLost, .tiuMultiplierLossOfLock] : List Instr),
    (∃ u : State, exec i s = .next (settle s u) ∧ u = { s with regs := u.regs, tiu := u.tiu, freeNo := u.freeNo } ∧ WordsKept 0x02000000 0x02000100 s u)) ∧
  (∀ (r : Fin 5) (s : State), Served s → ∀ i ∈ ([.supplyTriggerClear, .railBelowHysteresis r] : List Instr),
    (∃ u : State, exec i s = .next (settle s u) ∧ u = { s with regs := u.regs } ∧ WordsKept 0x02400000 0x02400100 s u)) ∧
  (∀ (n : Fin 65) (e : Nat) (s : State), Served s → ∀ i ∈ ([.mateAlivePresent, .laneLoopTest n e] : List Instr),
    (∃ u : State, exec i s = .next (settle s u) ∧ u = { s with regs := u.regs, pair := u.pair } ∧ WordsKept 0x02300000 0x02300100 s u)) ∧
  (∀ (s : State), Served s → ∀ i ∈ ([.healthSend, .seqSend] : List Instr),
    (∃ u : State, exec i s = .next (settle s u) ∧ u = { s with pair := u.pair, ports := u.ports, out := u.out })) ∧
  (∀ (b : Fin 4) (r : I2cResult) (l : List Byte) (d : Fin 65536) (s : State), Served s → ∀ i ∈ ([.i2cDone b r l, .i2cTimeout b, .mdioDone d] : List Instr),
    (∃ u : State, exec i s = .next (settle s u) ∧ u = { s with regs := u.regs, freeNo := u.freeNo, out := u.out } ∧ WordsKept 0x02600000 0x02602000 s u)) ∧
  (∀ (s : State), Served s → ∀ i ∈ ([.spiStatus] : List Instr),
    (∃ u : State, exec i s = .next (settle s u) ∧ u = { s with mgt := u.mgt, out := u.out })) ∧
  (∀ (s : State), Served s → ∀ i ∈ ([.imageReadStart, .waitTime, .waitBit, .signature] : List Instr),
    (∃ u : State, exec i s = .next (settle s u) ∧ u = { s with regs := u.regs, ldr := u.ldr, out := u.out } ∧ WordsKept 0x02500000 0x02500100 s u)) ∧
  (∀ (n : Fin 65) (e : Nat) (w : List Bool) (s : State), Served s → ∀ i ∈ ([.laneBackoffReset n, .prbsCheckerLock ⟨n, w⟩, .prbsCheckerUnlock n w, .eyeScanDone n e, .laneSyntEstimate n [] e, .laneCrossingMargin n] : List Instr),
    (∃ u : State, exec i s = .next (settle s u) ∧ u = { s with regs := u.regs, lanes := u.lanes } ∧ WordsKept 0x00400000 0x00800000 s u)) ∧
  (∀ (n : Fin 2) (f : Bool) (c : Fin 5) (l : List Byte) (s : State), Served s → ∀ i ∈ ([.ppsinEdge n ⟨f, c⟩, .todinMessage l, .todinEdge n ⟨f, c⟩, .todinEdgeTimeout] : List Instr),
    (∃ u : State, exec i s = .next (settle s u) ∧ u = { s with regs := u.regs, tb := u.tb } ∧ WordsKept 0x00300000 0x00400000 s u)) ∧
  (∀ (n : Fin 2) (k : Fin 4) (s : State), Served s → ∀ i ∈ ([.capstanBandSearch, .clockStartRetry, .capstanRetry, .auxLossOfLock n, .fbLost k] : List Instr),
    (∃ u : State, exec i s = .next (settle s u) ∧ u = { s with regs := u.regs, syn := u.syn, outs := u.outs } ∧ WordsKept 0x00100000 0x00200000 s u)) ∧
  (∀ (k : Fin 512) (s : State), Served s → ∀ i ∈ ([.responseTimeout k, .l1syncReceiptTimeout k] : List Instr),
    (∃ u : State, exec i s = .next (settle s u) ∧ u = { s with regs := u.regs, sess := u.sess, fm := u.fm } ∧ WordsKept 0x00D00000 0x00E00000 s u)) ∧
  (∀ (p : Fin 66) (ok : Bool) (s : State), Served s → ∀ i ∈ ([.verifyDone p ok] : List Instr),
    (∃ u : State, exec i s = .next (settle s u) ∧ u = { s with regs := u.regs, ports := u.ports } ∧ WordsKept 0x01C00000 0x01D00000 s u)) ∧
  (∀ (k : TiuCodes) (s : State), Served s → s.tiu.nextA = none → s.tiu.nextB = none →
    (∃ u : State, exec (.tiuCalDone k) s = .next (settle s u) ∧ u = { s with regs := u.regs, tiu := u.tiu, freeNo := u.freeNo } ∧ WordsKept 0x02000000 0x02000100 s u)) ∧
  (∀ (k : Fin 512) (s : State), Served s → (s.sessRec k).exch = none →
    (∃ u : State, exec (.followUpTimeout k) s = .next (settle s u) ∧ u = { s with regs := u.regs, sess := u.sess, fm := u.fm } ∧ WordsKept 0x00D00000 0x00E00000 s u)) ∧
  (∀ (n : Fin 4096) (s : State), Served s → (∃ u : State, exec (.frerReset n) s = .next (settle s u) ∧ (∀ a, (a < streamAddr n + 12 ∨ (streamAddr n + 16 ≤ a ∧ a < streamAddr n + 28) ∨ streamAddr n + 32 ≤ a) → u.byte a = s.byte a) ∧
    u = { s with regs := u.regs, mem := u.mem, ecc := { s.ecc with flips := u.ecc.flips, track := u.ecc.track } } ∧
    ∀ x : Reg, x.addr ≠ FWD_EVENT.addr → x.addr ≠ ECC_INJ.addr → u.word x = s.word x))
end

