-- ==== Sys2Proof/WellFormed.lean ====
section
/-!
DEFINITION. The relations between a command's operands that their types do not say: what a tool that feeds the queue checks.
The machine gives every command a meaning, well-formed or not; an ill-formed one is no command the block can receive.
-/

namespace Sys2Proof

/-- A stored word begins at an aligned address; an access may name any address (R23). -/
def aligned (a : Word) : Bool := a.toNat % 4 == 0

/-- The latency values of a lane lie in the ranges of R236: RX_SLIP up to 65 UI, TX_GBOX even and up to 64, DESKEW within 4,800. -/
def LaneLat.ok (l : LaneLat) : Bool := decide (l.slip.val ≤ 65) && decide (l.gbox.val ≤ 64) && l.gbox.val % 2 == 0 && decide (l.deskew.val ≤ 4800)

/-- A lane links alone, or as one of the four of a 100G port (R217, R220). -/
def latOk (l : List LaneLat) : Bool := (l.length == 1 || l.length == 4) && l.all LaneLat.ok

/-- A parse window holds 128 bytes, or a whole shorter frame (R370); one that goes on is not yet judged. -/
def RxWindow.ok (r : RxWindow) : Bool := if r.ended then true else r.bytes.length == 128 && !r.bad

/-- A class of the Calibration Sequencer measures its own kind of result, for an instance it has (R516). -/
def CalResult.ok (k inst : Nat) (r : CalResult) : Bool :=
  decide (inst < ([2, 80, 17, 12, 65, 65] : List Nat).getD k 0) &&
  match r with
  | .bins h _ _ => k == 0 && h.all (fun e => decide (e.1 < 512))
  | .starved => k == 0
  | .span _ => k == 1
  | .latency _ _ => k == 2
  | .table l => k == 3 && l.length == 64
  | .offset _ | .gain _ => k == 4
  | .ones n => k == 5 && decide (n ≤ 2 ^ 24)

/-- A command is well formed. -/
def Instr.wellFormed : Instr → Bool
  | .laneAligned _ l | .laneClockSwitch _ l | .laneSwitchForce _ l => latOk l
  | .frameDecision _ r => r.ok
  | .calApply k i r => r.ok k.val i.val
  | .poolEnable _ n _ => decide (4 ≤ n.val)
  | .tiuCalDone c => c.startOne.length == 8 && c.startTwo.length == 8 && c.stopOne.length == 8 && c.stopTwo.length == 8
  | .scrubWordRead _ a fl _ => aligned a && fl.all (fun f => decide (f.byte < 4))
  | .dmaTxDescriptor _ d _ => d.length == 16
  | .dmaRxDeliver _ n => decide (64 ≤ n) && decide (n ≤ 9600)
  | .i2cDone _ _ l => decide (l.length ≤ 128)
  | _ => true

end Sys2Proof
end

