-- ==== Sys2Proof/Laws/PerInstr.lean ====
section
/-!
SUPPORT. For every command: its operands are well formed whatever they are, but for the rows whose operands stand in a relation that
their types do not say.
-/

namespace Sys2Proof.Laws.Indices

open Sys2Proof

/-- The rows that `Instr.wellFormed` judges. -/
def judged : Instr → Bool
  | .laneAligned .. | .laneClockSwitch .. | .laneSwitchForce .. | .frameDecision .. | .calApply .. | .poolEnable .. | .tiuCalDone .. | .scrubWordRead .. | .dmaTxDescriptor .. | .dmaRxDeliver .. | .i2cDone .. => true
  | _ => false

/-- A command that is not judged is well formed. -/
def Statement (i : Instr) : Prop := judged i = false → i.wellFormed = true

theorem registerWrite (m : BusMaster) (addr : Word) (be : Fin 16) (v : Word) : Statement (.registerWrite m addr be v) := fun _ => rfl
theorem wideValueCapture (m : BusMaster) (addr : Word) : Statement (.wideValueCapture m addr) := fun _ => rfl
theorem wideValueStage (m : BusMaster) (addr : Word) (v : Word) : Statement (.wideValueStage m addr v) := fun _ => rfl
theorem wideValueCommit (m : BusMaster) (addr : Word) (v : Word) : Statement (.wideValueCommit m addr v) := fun _ => rfl
theorem rcFieldRead (m : BusMaster) (addr : Word) : Statement (.rcFieldRead m addr) := fun _ => rfl
theorem accessTimeout (m : BusMaster) (addr : Word) (write : Bool) : Statement (.accessTimeout m addr write) := fun _ => rfl
theorem resetAssert : Statement .resetAssert := fun _ => rfl
theorem railBelowReset (rail : Fin 5) : Statement (.railBelowReset rail) := fun _ => rfl
theorem resetRelease (straps : Straps) : Statement (.resetRelease straps) := fun _ => rfl
theorem rootDeclarationRead (a : List Byte) (b : List Byte) : Statement (.rootDeclarationRead a b) := fun _ => rfl
theorem clockStartRetry : Statement .clockStartRetry := fun _ => rfl
theorem capstanLock (band : Fin 512) (ppm : Int) : Statement (.capstanLock band ppm) := fun _ => rfl
theorem capstanBandSearch : Statement .capstanBandSearch := fun _ => rfl
theorem safeRatioEnd : Statement .safeRatioEnd := fun _ => rfl
theorem hwRegionInit : Statement .hwRegionInit := fun _ => rfl
theorem capstanLossOfLock : Statement .capstanLossOfLock := fun _ => rfl
theorem frequencyExcursion : Statement .frequencyExcursion := fun _ => rfl
theorem capstanRelockTimeout : Statement .capstanRelockTimeout := fun _ => rfl
theorem capstanRetry : Statement .capstanRetry := fun _ => rfl
theorem ocxoCool : Statement .ocxoCool := fun _ => rfl
theorem ditherReseed (m : BusMaster) (v : Word) : Statement (.ditherReseed m v) := fun _ => rfl
theorem auxPlanHop (m : BusMaster) (n : Fin 2) (v : Word) : Statement (.auxPlanHop m n v) := fun _ => rfl
theorem auxHopComplete (n : Fin 2) (band : Fin 256) : Statement (.auxHopComplete n band) := fun _ => rfl
theorem auxLossOfLock (n : Fin 2) : Statement (.auxLossOfLock n) := fun _ => rfl
theorem clkoutEnable (m : BusMaster) (n : Fin 12) (v : Word) : Statement (.clkoutEnable m n v) := fun _ => rfl
theorem clkoutDisable (m : BusMaster) (n : Fin 12) (v : Word) : Statement (.clkoutDisable m n v) := fun _ => rfl
theorem outPhaseWrite (m : BusMaster) (n : Fin 12) (v : Word) : Statement (.outPhaseWrite m n v) := fun _ => rfl
theorem zdbMeasure (n : Fin 4) (err : Int) : Statement (.zdbMeasure n err) := fun _ => rfl
theorem fbLost (n : Fin 4) : Statement (.fbLost n) := fun _ => rfl
theorem ppsRealign (m : BusMaster) (v : Word) : Statement (.ppsRealign m v) := fun _ => rfl
theorem ppsCfgApply (n : Fin 4) : Statement (.ppsCfgApply n) := fun _ => rfl
theorem ppsOutEnable (m : BusMaster) (n : Fin 4) (v : Word) : Statement (.ppsOutEnable m n v) := fun _ => rfl
theorem refLoss (n : Fin 16) : Statement (.refLoss n) := fun _ => rfl
theorem refFreqGate (n : Fin 16) (f : Int) : Statement (.refFreqGate n f) := fun _ => rfl
theorem refInstabUpdate (n : Fin 16) (mean : Int) : Statement (.refInstabUpdate n mean) := fun _ => rfl
theorem refPhaseSample (n : Fin 16) (p : Int) : Statement (.refPhaseSample n p) := fun _ => rfl
theorem refSlotEnable (m : BusMaster) (n : Fin 16) (v : Word) : Statement (.refSlotEnable m n v) := fun _ => rfl
theorem refSoakExpire (n : Fin 16) : Statement (.refSoakExpire n) := fun _ => rfl
theorem refWtrExpire (n : Fin 16) : Statement (.refWtrExpire n) := fun _ => rfl
theorem refSwitchCommit : Statement .refSwitchCommit := fun _ => rfl
theorem dpllUpdate (sample : Int) : Statement (.dpllUpdate sample) := fun _ => rfl
theorem dpllLocked : Statement .dpllLocked := fun _ => rfl
theorem refModeAuto (m : BusMaster) (v : Word) : Statement (.refModeAuto m v) := fun _ => rfl
theorem refModeForced (m : BusMaster) (v : Word) : Statement (.refModeForced m v) := fun _ => rfl
theorem forceHoldover (m : BusMaster) (v : Word) : Statement (.forceHoldover m v) := fun _ => rfl
theorem forceFreerun (m : BusMaster) (v : Word) : Statement (.forceFreerun m v) := fun _ => rfl
theorem dcoOwnerChange (m : BusMaster) (v : Word) : Statement (.dcoOwnerChange m v) := fun _ => rfl
theorem dcoOffsetWrite (m : BusMaster) (v : Word) : Statement (.dcoOffsetWrite m v) := fun _ => rfl
theorem holdHistoryWrite : Statement .holdHistoryWrite := fun _ => rfl
theorem framPeriodicSave : Statement .framPeriodicSave := fun _ => rfl
theorem framSaveReadback (same : Bool) : Statement (.framSaveReadback same) := fun _ => rfl
theorem framStartRead : Statement .framStartRead := fun _ => rfl
theorem ensEnable (m : BusMaster) (v : Word) : Statement (.ensEnable m v) := fun _ => rfl
theorem ensAllanUpdate : Statement .ensAllanUpdate := fun _ => rfl
theorem ensEstimateUpdate : Statement .ensEstimateUpdate := fun _ => rfl
theorem ensMemberReturn (k : Fin 8) : Statement (.ensMemberReturn k) := fun _ => rfl
theorem tbIncrWrite (m : BusMaster) (v : Word) : Statement (.tbIncrWrite m v) := fun _ => rfl
theorem tbShadowMismatch : Statement .tbShadowMismatch := fun _ => rfl
theorem tbHostStateReq (m : BusMaster) (v : Word) : Statement (.tbHostStateReq m v) := fun _ => rfl
theorem tbStepApply : Statement .tbStepApply := fun _ => rfl
theorem tbSteerSrcWrite (m : BusMaster) (v : Word) : Statement (.tbSteerSrcWrite m v) := fun _ => rfl
theorem tbSteerOwnerWrite (m : BusMaster) (v : Word) : Statement (.tbSteerOwnerWrite m v) := fun _ => rfl
theorem tbStepGo (m : BusMaster) (v : Word) : Statement (.tbStepGo m v) := fun _ => rfl
theorem tbLoadGo (m : BusMaster) (v : Word) : Statement (.tbLoadGo m v) := fun _ => rfl
theorem tbSnapSw (m : BusMaster) (v : Word) : Statement (.tbSnapSw m v) := fun _ => rfl
theorem ppsinEdge (n : Fin 2) (e : PinEdge) : Statement (.ppsinEdge n e) := fun _ => rfl
theorem todinMessage (bytes : List Byte) : Statement (.todinMessage bytes) := fun _ => rfl
theorem todinEdge (n : Fin 2) (e : PinEdge) : Statement (.todinEdge n e) := fun _ => rfl
theorem todinEdgeTimeout : Statement .todinEdgeTimeout := fun _ => rfl
theorem todoutSend : Statement .todoutSend := fun _ => rfl
theorem schArm (m : BusMaster) (n : Fin 64) (v : Word) : Statement (.schArm m n v) := fun _ => rfl
theorem schDisarm (m : BusMaster) (n : Fin 64) (v : Word) : Statement (.schDisarm m n v) := fun _ => rfl
theorem schActionDue (n : Fin 64) : Statement (.schActionDue n) := fun _ => rfl
theorem quadCfgWrite (m : BusMaster) (q : Fin 16) (v : Word) : Statement (.quadCfgWrite m q v) := fun _ => rfl
theorem quadPllLocked (q : Fin 17) (band : Fin 128) : Statement (.quadPllLocked q band) := fun _ => rfl
theorem quadPllLoss (q : Fin 17) : Statement (.quadPllLoss q) := fun _ => rfl
theorem quadPllRelockTimeout (q : Fin 17) : Statement (.quadPllRelockTimeout q) := fun _ => rfl
theorem laneEnable (m : BusMaster) (n : Fin 65) (v : Word) : Statement (.laneEnable m n v) := fun _ => rfl
theorem laneDisable (m : BusMaster) (n : Fin 65) (v : Word) : Statement (.laneDisable m n v) := fun _ => rfl
theorem laneSignalDetected (n : Fin 65) : Statement (.laneSignalDetected n) := fun _ => rfl
theorem laneCdrLocked (n : Fin 65) : Statement (.laneCdrLocked n) := fun _ => rfl
theorem cdrTimeout (n : Fin 65) : Statement (.cdrTimeout n) := fun _ => rfl
theorem laneTrainingDone (n : Fin 65) (frames : List TrainFrame) : Statement (.laneTrainingDone n frames) := fun _ => rfl
theorem trainFallback (n : Fin 65) : Statement (.trainFallback n) := fun _ => rfl
theorem laneLossOfSignal (n : Fin 65) (cause : LossCause) : Statement (.laneLossOfSignal n cause) := fun _ => rfl
theorem laneAligned (n : Fin 65) (lat : List LaneLat) : Statement (.laneAligned n lat) := fun h => Bool.noConfusion h
theorem alignTimeout (n : Fin 65) : Statement (.alignTimeout n) := fun _ => rfl
theorem laneBackoffReset (n : Fin 65) : Statement (.laneBackoffReset n) := fun _ => rfl
theorem laneSyntEstimate (n : Fin 65) (beats : List Beat) (every : Nat) : Statement (.laneSyntEstimate n beats every) := fun _ => rfl
theorem laneCrossingMargin (n : Fin 65) : Statement (.laneCrossingMargin n) := fun _ => rfl
theorem laneClockReqWrite (m : BusMaster) (n : Fin 65) (v : Word) : Statement (.laneClockReqWrite m n v) := fun _ => rfl
theorem laneClockSwitch (n : Fin 65) (lat : List LaneLat) : Statement (.laneClockSwitch n lat) := fun h => Bool.noConfusion h
theorem laneSwitchForce (n : Fin 65) (lat : List LaneLat) : Statement (.laneSwitchForce n lat) := fun h => Bool.noConfusion h
theorem rcsLaneWrite (m : BusMaster) (k : Fin 4) (v : Word) : Statement (.rcsLaneWrite m k v) := fun _ => rfl
theorem rcsRestart (k : Fin 4) : Statement (.rcsRestart k) := fun _ => rfl
theorem prbsGenEnable (m : BusMaster) (n : Fin 65) (v : Word) : Statement (.prbsGenEnable m n v) := fun _ => rfl
theorem injSingle (m : BusMaster) (n : Fin 65) (v : Word) : Statement (.injSingle m n v) := fun _ => rfl
theorem eyeScanStart (m : BusMaster) (n : Fin 65) (v : Word) : Statement (.eyeScanStart m n v) := fun _ => rfl
theorem eyeScanDone (n : Fin 65) (errs : Nat) : Statement (.eyeScanDone n errs) := fun _ => rfl
theorem portEnable (m : BusMaster) (p : Fin 66) (v : Word) : Statement (.portEnable m p v) := fun _ => rfl
theorem portDisable (m : BusMaster) (p : Fin 66) (v : Word) : Statement (.portDisable m p v) := fun _ => rfl
theorem portUpHoldExpire (p : Fin 66) : Statement (.portUpHoldExpire p) := fun _ => rfl
theorem portDownHoldExpire (p : Fin 66) : Statement (.portDownHoldExpire p) := fun _ => rfl
theorem flushDone (p : Fin 66) : Statement (.flushDone p) := fun _ => rfl
theorem frameDecision (p : Fin 66) (rx : RxWindow) : Statement (.frameDecision p rx) := fun h => Bool.noConfusion h
theorem frameEnd (p : Fin 66) (rest : List Byte) (bad : Bool) : Statement (.frameEnd p rest bad) := fun _ => rfl
theorem egressSchedule (p : Fin 66) (tx : TxTiming) : Statement (.egressSchedule p tx) := fun _ => rfl
theorem phaSample (c : Fin 80) (beat : Beat) : Statement (.phaSample c beat) := fun _ => rfl
theorem phaTxphMeasure (q : Fin 17) (phase : Fin 26215) : Statement (.phaTxphMeasure q phase) := fun _ => rfl
theorem phaChCfgWrite (m : BusMaster) (c : Fin 80) (v : Word) : Statement (.phaChCfgWrite m c v) := fun _ => rfl
theorem phaTrimWrite (m : BusMaster) (p : Fin 66) (tx : Bool) (v : Word) : Statement (.phaTrimWrite m p tx v) := fun _ => rfl
theorem fmEnable (m : BusMaster) (v : Word) : Statement (.fmEnable m v) := fun _ => rfl
theorem fmDisable (m : BusMaster) (v : Word) : Statement (.fmDisable m v) := fun _ => rfl
theorem fmBlockReset (m : BusMaster) (v : Word) : Statement (.fmBlockReset m v) := fun _ => rfl
theorem fmDomainEnable (m : BusMaster) (d : Fin 4) (v : Word) : Statement (.fmDomainEnable m d v) := fun _ => rfl
theorem fmDomainDisable (m : BusMaster) (d : Fin 4) (v : Word) : Statement (.fmDomainDisable m d v) := fun _ => rfl
theorem fmSessionEnable (m : BusMaster) (k : Fin 512) (v : Word) : Statement (.fmSessionEnable m k v) := fun _ => rfl
theorem fmSessionDisable (m : BusMaster) (k : Fin 512) (v : Word) : Statement (.fmSessionDisable m k v) := fun _ => rfl
theorem initializationComplete (k : Fin 512) : Statement (.initializationComplete k) := fun _ => rfl
theorem syncRx : Statement .syncRx := fun _ => rfl
theorem followUpRx : Statement .followUpRx := fun _ => rfl
theorem delayReqRx : Statement .delayReqRx := fun _ => rfl
theorem delayRespRx : Statement .delayRespRx := fun _ => rfl
theorem pdelayReqRx : Statement .pdelayReqRx := fun _ => rfl
theorem pdelayRespRx : Statement .pdelayRespRx := fun _ => rfl
theorem pdelayRespFollowUpRx : Statement .pdelayRespFollowUpRx := fun _ => rfl
theorem announceRx : Statement .announceRx := fun _ => rfl
theorem signalingRx : Statement .signalingRx := fun _ => rfl
theorem syncDue (k : Fin 512) : Statement (.syncDue k) := fun _ => rfl
theorem delayReqDue (k : Fin 512) : Statement (.delayReqDue k) := fun _ => rfl
theorem pdelayReqDue (k : Fin 512) : Statement (.pdelayReqDue k) := fun _ => rfl
theorem announceDue (k : Fin 512) : Statement (.announceDue k) := fun _ => rfl
theorem l1syncDue (k : Fin 512) : Statement (.l1syncDue k) := fun _ => rfl
theorem stampReturn : Statement .stampReturn := fun _ => rfl
theorem stateDecision (d : Fin 4) : Statement (.stateDecision d) := fun _ => rfl
theorem qualificationTimeout (k : Fin 512) : Statement (.qualificationTimeout k) := fun _ => rfl
theorem announceReceiptTimeout (k : Fin 512) : Statement (.announceReceiptTimeout k) := fun _ => rfl
theorem syncReceiptTimeout (k : Fin 512) : Statement (.syncReceiptTimeout k) := fun _ => rfl
theorem followUpTimeout (k : Fin 512) : Statement (.followUpTimeout k) := fun _ => rfl
theorem responseTimeout (k : Fin 512) : Statement (.responseTimeout k) := fun _ => rfl
theorem l1syncReceiptTimeout (k : Fin 512) : Statement (.l1syncReceiptTimeout k) := fun _ => rfl
theorem sessionStall (k : Fin 512) : Statement (.sessionStall k) := fun _ => rfl
theorem engineStall : Statement .engineStall := fun _ => rfl
theorem glbReload (m : BusMaster) (v : Word) : Statement (.glbReload m v) := fun _ => rfl
theorem macCmdInsert (m : BusMaster) (v : Word) : Statement (.macCmdInsert m v) := fun _ => rfl
theorem macCmdDelete (m : BusMaster) (v : Word) : Statement (.macCmdDelete m v) := fun _ => rfl
theorem macCmdLookup (m : BusMaster) (v : Word) : Statement (.macCmdLookup m v) := fun _ => rfl
theorem flushDynamic (m : BusMaster) (v : Word) : Statement (.flushDynamic m v) := fun _ => rfl
theorem flushDynamicDone : Statement .flushDynamicDone := fun _ => rfl
theorem macAgeScan : Statement .macAgeScan := fun _ => rfl
theorem streamEntryWrite (m : BusMaster) (n : Fin 4096) (be : Fin 16) (v : Word) : Statement (.streamEntryWrite m n be v) := fun _ => rfl
theorem meterEntryWrite (m : BusMaster) (n : Fin 8192) (w : Fin 5) (be : Fin 16) (v : Word) : Statement (.meterEntryWrite m n w be v) := fun _ => rfl
theorem frerReset (n : Fin 4096) : Statement (.frerReset n) := fun _ => rfl
theorem spillEnable (m : BusMaster) (v : Word) : Statement (.spillEnable m v) := fun _ => rfl
theorem spillInitDone : Statement .spillInitDone := fun _ => rfl
theorem spillInitTimeout : Statement .spillInitTimeout := fun _ => rfl
theorem spillPageWrite (p : Fin 66) (t : Fin 8) : Statement (.spillPageWrite p t) := fun _ => rfl
theorem refillPageRead (p : Fin 66) (t : Fin 8) : Statement (.refillPageRead p t) := fun _ => rfl
theorem refillReadDone (p : Fin 66) (t : Fin 8) (check : PageCheck) : Statement (.refillReadDone p t check) := fun _ => rfl
theorem readRetry (p : Fin 66) (t : Fin 8) : Statement (.readRetry p t) := fun _ => rfl
theorem gateEvent (p : Fin 66) : Statement (.gateEvent p) := fun _ => rfl
theorem queueStuckTimeout (p : Fin 66) (t : Fin 8) : Statement (.queueStuckTimeout p t) := fun _ => rfl
theorem residenceSweep : Statement .residenceSweep := fun _ => rfl
theorem queueResume (m : BusMaster) (p : Fin 66) (t : Fin 8) (v : Word) : Statement (.queueResume m p t v) := fun _ => rfl
theorem poolAgeEpoch : Statement .poolAgeEpoch := fun _ => rfl
theorem alloc (m : BusMaster) (v : Word) : Statement (.alloc m v) := fun _ => rfl
theorem free (m : BusMaster) (v : Word) : Statement (.free m v) := fun _ => rfl
theorem incref (m : BusMaster) (v : Word) : Statement (.incref m v) := fun _ => rfl
theorem query (m : BusMaster) (v : Word) : Statement (.query m v) := fun _ => rfl
theorem poolEnable (m : BusMaster) (n : Fin 16) (v : Word) : Statement (.poolEnable m n v) := fun h => Bool.noConfusion h
theorem xcStreamInstall (m : BusMaster) (n : Fin 1024) (v : Word) : Statement (.xcStreamInstall m n v) := fun _ => rfl
theorem xcStreamUninstall (m : BusMaster) (n : Fin 1024) (v : Word) : Statement (.xcStreamUninstall m n v) := fun _ => rfl
theorem xcLaunch (p : Fin 66) (tx : TxTiming) : Statement (.xcLaunch p tx) := fun _ => rfl
theorem verifyDone (p : Fin 66) (ok : Bool) : Statement (.verifyDone p ok) := fun _ => rfl
theorem mpacketRx (p : Fin 66) (mp : MPacket) : Statement (.mpacketRx p mp) := fun _ => rfl
theorem tiuArm (m : BusMaster) (v : Word) : Statement (.tiuArm m v) := fun _ => rfl
theorem tiuDisarm (m : BusMaster) (v : Word) : Statement (.tiuDisarm m v) := fun _ => rfl
theorem tiuBaseLocked : Statement .tiuBaseLocked := fun _ => rfl
theorem tiuCalDone (k : TiuCodes) : Statement (.tiuCalDone k) := fun h => Bool.noConfusion h
theorem tiuStartEdge (e : TiuInput) (stop : TiuEdge) (ago : Nat) : Statement (.tiuStartEdge e stop ago) := fun _ => rfl
theorem tiuStopEdge (e : TiuStop) : Statement (.tiuStopEdge e) := fun _ => rfl
theorem tiuWindowClose : Statement .tiuWindowClose := fun _ => rfl
theorem tiuStartTimeout : Statement .tiuStartTimeout := fun _ => rfl
theorem tiuRefPresent : Statement .tiuRefPresent := fun _ => rfl
theorem tiuRefLost : Statement .tiuRefLost := fun _ => rfl
theorem tiuFifoRead (m : BusMaster) : Statement (.tiuFifoRead m) := fun _ => rfl
theorem calPassStart (k : Fin 6) : Statement (.calPassStart k) := fun _ => rfl
theorem calRun (m : BusMaster) (k : Fin 6) (v : Word) : Statement (.calRun m k v) := fun _ => rfl
theorem calApply (k : Fin 6) (inst : Fin 80) (r : CalResult) : Statement (.calApply k inst r) := fun h => Bool.noConfusion h
theorem scrubWordRead (r : Fin 16) (addr : Word) (flips : List Flip) (last : Bool) : Statement (.scrubWordRead r addr flips last) := fun h => Bool.noConfusion h
theorem tableReloadDone (sections : List (List Byte)) : Statement (.tableReloadDone sections) := fun _ => rfl
theorem cfgSweep (upsets : List CfgUpset) : Statement (.cfgSweep upsets) := fun _ => rfl
theorem eccInjArm (m : BusMaster) (v : Word) : Statement (.eccInjArm m v) := fun _ => rfl
theorem eccLogRead (m : BusMaster) : Statement (.eccLogRead m) := fun _ => rfl
theorem pairEnable (m : BusMaster) (v : Word) : Statement (.pairEnable m v) := fun _ => rfl
theorem pairDisable (m : BusMaster) (v : Word) : Statement (.pairDisable m v) := fun _ => rfl
theorem mateAliveLost : Statement .mateAliveLost := fun _ => rfl
theorem mateAlivePresent : Statement .mateAlivePresent := fun _ => rfl
theorem healthSend : Statement .healthSend := fun _ => rfl
theorem healthRx (body : List Byte) : Statement (.healthRx body) := fun _ => rfl
theorem reportTimeout : Statement .reportTimeout := fun _ => rfl
theorem firstReportTimeout : Statement .firstReportTimeout := fun _ => rfl
theorem seqRx (body : List Byte) : Statement (.seqRx body) := fun _ => rfl
theorem seqSend : Statement .seqSend := fun _ => rfl
theorem seqMatchTimeout (n : Fin 4096) : Statement (.seqMatchTimeout n) := fun _ => rfl
theorem hoReq (m : BusMaster) (v : Word) : Statement (.hoReq m v) := fun _ => rfl
theorem hoRevertiveRequest : Statement .hoRevertiveRequest := fun _ => rfl
theorem hoReqRx (body : List Byte) : Statement (.hoReqRx body) := fun _ => rfl
theorem hoAckRx (body : List Byte) : Statement (.hoAckRx body) := fun _ => rfl
theorem hoAbortRx (body : List Byte) : Statement (.hoAbortRx body) := fun _ => rfl
theorem hoAckTimeout : Statement .hoAckTimeout := fun _ => rfl
theorem demoteRx (body : List Byte) : Statement (.demoteRx body) := fun _ => rfl
theorem marchTest (fails : MarchFails) : Statement (.marchTest fails) := fun _ => rfl
theorem laneLoopTest (n : Fin 65) (errs : Nat) : Statement (.laneLoopTest n errs) := fun _ => rfl
theorem railWarning (rail : Fin 5) : Statement (.railWarning rail) := fun _ => rfl
theorem pfailAssert : Statement .pfailAssert := fun _ => rfl
theorem shedGroup (g : Fin 3) : Statement (.shedGroup g) := fun _ => rfl
theorem shed3Entry : Statement .shed3Entry := fun _ => rfl
theorem supplyTriggerClear : Statement .supplyTriggerClear := fun _ => rfl
theorem restoreStart : Statement .restoreStart := fun _ => rfl
theorem restoreStep : Statement .restoreStep := fun _ => rfl
theorem imageReadStart : Statement .imageReadStart := fun _ => rfl
theorem sectionReadDone (bytes : List Byte) : Statement (.sectionReadDone bytes) := fun _ => rfl
theorem header (bytes : List Byte) : Statement (.header bytes) := fun _ => rfl
theorem write32 : Statement .write32 := fun _ => rfl
theorem writeBlock : Statement .writeBlock := fun _ => rfl
theorem fill : Statement .fill := fun _ => rfl
theorem modify : Statement .modify := fun _ => rfl
theorem waitTime : Statement .waitTime := fun _ => rfl
theorem waitTimeExpire : Statement .waitTimeExpire := fun _ => rfl
theorem waitBit : Statement .waitBit := fun _ => rfl
theorem waitBitTimeout : Statement .waitBitTimeout := fun _ => rfl
theorem tableLoad : Statement .tableLoad := fun _ => rfl
theorem key : Statement .key := fun _ => rfl
theorem signature : Statement .signature := fun _ => rfl
theorem signatureVerified : Statement .signatureVerified := fun _ => rfl
theorem end_ : Statement .end_ := fun _ => rfl
theorem imageUndoDone : Statement .imageUndoDone := fun _ => rfl
theorem loadTimeout : Statement .loadTimeout := fun _ => rfl
theorem hostLoadStart (m : BusMaster) (v : Word) : Statement (.hostLoadStart m v) := fun _ => rfl
theorem hostAbort (m : BusMaster) (v : Word) : Statement (.hostAbort m v) := fun _ => rfl
theorem hostFifoWrite (m : BusMaster) (v : Word) : Statement (.hostFifoWrite m v) := fun _ => rfl
theorem hostIdle : Statement .hostIdle := fun _ => rfl
theorem hostWaitTimeout : Statement .hostWaitTimeout := fun _ => rfl
theorem pciePerst : Statement .pciePerst := fun _ => rfl
theorem dmaTxDescriptor (t : Fin 8) (desc : List Word) (frame : List Byte) : Statement (.dmaTxDescriptor t desc frame) := fun h => Bool.noConfusion h
theorem dmaHostReadTimeout (t : Fin 8) : Statement (.dmaHostReadTimeout t) := fun _ => rfl
theorem dmaRxDeliver (t : Fin 8) (bufLen : Nat) : Statement (.dmaRxDeliver t bufLen) := fun h => Bool.noConfusion h
theorem spiWrite (addr : Word) (data : List Byte) : Statement (.spiWrite addr data) := fun _ => rfl
theorem spiRead (addr : Word) (n : Nat) : Statement (.spiRead addr n) := fun _ => rfl
theorem spiStatus : Statement .spiStatus := fun _ => rfl
theorem mmpRequest : Statement .mmpRequest := fun _ => rfl
theorem bypass : Statement .bypass := fun _ => rfl
theorem idcode : Statement .idcode := fun _ => rfl
theorem samplePreload : Statement .samplePreload := fun _ => rfl
theorem extest : Statement .extest := fun _ => rfl
theorem extestPulse : Statement .extestPulse := fun _ => rfl
theorem extestTrain : Statement .extestTrain := fun _ => rfl
theorem extestExit : Statement .extestExit := fun _ => rfl
theorem irqRearm (m : BusMaster) (v : Word) : Statement (.irqRearm m v) := fun _ => rfl
theorem i2cCommand (m : BusMaster) (b : Fin 4) (v : Word) : Statement (.i2cCommand m b v) := fun _ => rfl
theorem i2cDone (b : Fin 4) (r : I2cResult) (data : List Byte) : Statement (.i2cDone b r data) := fun h => Bool.noConfusion h
theorem i2cTimeout (b : Fin 4) : Statement (.i2cTimeout b) := fun _ => rfl
theorem mdioFrame (m : BusMaster) (v : Word) : Statement (.mdioFrame m v) := fun _ => rfl
theorem mdioDone (data : Fin 65536) : Statement (.mdioDone data) := fun _ => rfl
theorem pmcClear (m : BusMaster) (v : Word) : Statement (.pmcClear m v) := fun _ => rfl
theorem pmcFreeze (m : BusMaster) (v : Word) : Statement (.pmcFreeze m v) := fun _ => rfl
theorem tallyDumpPeriodic : Statement .tallyDumpPeriodic := fun _ => rfl
theorem tallyDumpNow (m : BusMaster) (v : Word) : Statement (.tallyDumpNow m v) := fun _ => rfl
theorem prbsCheckerLock (l : LineBits) : Statement (.prbsCheckerLock l) := fun _ => rfl
theorem prbsCheckerUnlock (n : Fin 65) (bits : List Bool) : Statement (.prbsCheckerUnlock n bits) := fun _ => rfl
theorem tiuMultiplierLossOfLock : Statement .tiuMultiplierLossOfLock := fun _ => rfl
theorem railBelowHysteresis (rail : Fin 5) : Statement (.railBelowHysteresis rail) := fun _ => rfl
theorem waitBitMatch : Statement .waitBitMatch := fun _ => rfl
theorem fmBlockResetDone : Statement .fmBlockResetDone := fun _ => rfl
theorem pcieConfigurationRequest (q : CfgReq) : Statement (.pcieConfigurationRequest q) := fun _ => rfl

end Sys2Proof.Laws.Indices
end

