-- ==== Sys2Proof/Laws/Transmit.lean ====
section
/-!
SUPPORT. Transmission: where nothing is in transmission nothing ends, and what preemption and the mPackets sent touch.
-/

namespace Sys2Proof.Machine

variable {p : Nat} {s : State}

/-! ### A port on which nothing is under way -/

theorem txRun_idle (since : Nat) (h : (s.portRec p).tx = none) : txRun p since s = s := by simp [txRun, h]

theorem txResume_none (h : (s.portRec p).held = none) : txResume p s = s := by
  unfold txResume
  dsimp only
  split
  · rename_i hh; rw [h] at hh; cases hh
  · rfl

theorem txResume_busy (h : (s.portRec p).launches ≠ []) : txResume p s = s := by
  unfold txResume
  dsimp only
  split
  · rw [if_neg (by simpa [List.isEmpty_iff] using h)]
  · rfl

theorem txAdvance_idle (since : Nat) (ht : (s.portRec p).tx = none) (hh : (s.portRec p).held = none)
    (hl : (s.portRec p).launches = []) : txAdvance p since s = s := by
  simp [txAdvance, txRun_idle since ht, hl, forEach, txResume_none hh]

/-! ### Preemption -/

theorem preemptNow_idle (h : (s.portRec p).tx = none) : preemptNow p s = s := by simp [preemptNow, h]

theorem preemptNow_express {t : TxRec} (h : (s.portRec p).tx = some t) (hp : t.pre = false) : preemptNow p s = s := by
  simp [preemptNow, h, hp]

/-- All that a preemption can change at once is the record of the port. -/
theorem preemptNow_frame : preemptNow p s = { s with ports := (preemptNow p s).ports } := by
  unfold preemptNow
  split
  · rfl
  · dsimp only
    split <;> rfl

/-! ### mPackets -/

theorem loopPut_frame (m : Bool) (b : List Byte) : loopPut p m b s = { s with ports := (loopPut p m b s).ports } := by
  unfold loopPut
  split <;> rfl

/-- mPackets go out, and in loop-back come back; nothing else changes. -/
theorem sendMpackets_frame (l : List (List Byte)) :
    sendMpackets p l s = { s with out := (sendMpackets p l s).out, ports := (sendMpackets p l s).ports } := by
  induction l generalizing s with
  | nil => rfl
  | cons b t ih =>
    have hs : sendMpackets p (b :: t) s = sendMpackets p t (loopPut p true b (s.send (.mpacket p b))) := rfl
    rw [hs, ih, loopPut_frame]
    rfl

end Sys2Proof.Machine
end

