-- ==== Sys2Proof/Tests/Slice0.lean ====
section
/-!
SUPPORT. Tests: ill-formed commands that the well-formedness check refuses, results worked by hand from the rules, and for every
statement with hypotheses states and operands that meet them.
-/

namespace Sys2Proof.Tests

open Sys2Proof Sys2Proof.Machine

set_option Elab.async false

/-- A state with fields of registers set. -/
def sets (l : List (Fld × Nat)) (s : State) : State := l.foldl (fun s e => s.put e.1 e.2) s

/-- RUNNING with the synthesiser locked. -/
def run : State := sets [(GLB_STATE_STATE, 3), (SYN_STATUS_LOCKED, 1)] State.reset

/-- The same, with fields set. -/
def at_ (l : List (Fld × Nat)) : State := sets l run

/-- The state a command leaves. -/
def after (i : Instr) (s : State) : State :=
  match exec i s with
  | .next t => t
  | _ => s

/-- The state a step leaves. -/
def stepped (s : State) : State :=
  match step s with
  | .next t => t
  | _ => s

/-- The register at an address, for the statements that name one. -/
def hit (a : Nat) : RegHit := (regAt a).getD ⟨⟨.GLB_DEVICE_ID, 0, 0, 0, 0, 0, 0, fun _ _ => 0, []⟩, 0, 0, 0⟩

/-- A time-of-day message for second 0, written out by the format of R187: "$KTD,000000000000,+037,I,0000,00*21". -/
def todLine : List Byte :=
  [36, 75, 84, 68, 44, 48, 48, 48, 48, 48, 48, 48, 48, 48, 48, 48, 48, 44, 43, 48, 51, 55, 44, 73, 44, 48, 48, 48, 48, 44, 48, 48, 42, 50, 49, 13, 10]

/-- A header of one section of four zero bytes (R621), with its CRC. -/
def hdr : List Byte :=
  let h := leBytes 4 0x01000048 ++ leBytes 4 0x4B58414E ++ [1, 0, 0, 0] ++ leBytes 4 0x50 ++ leBytes 4 0x00050003 ++ leBytes 4 0 ++
    [1, 0, 1] ++ List.replicate 33 0 ++ leBytes 4 0x4C ++ leBytes 4 4 ++ leBytes 4 (crc32 [0, 0, 0, 0]).toNat
  h ++ leBytes 4 (crc32 h).toNat

/-- A key and a signature it gives the empty message under FIPS 186-4, computed outside the model. -/
def signKey : List Byte :=
  beBytes 32 99060375615197202848085487377010060159388930469313978737290190598091795228460 ++
    beBytes 32 34567744605522425871948295531274196313281635435286899099174351291860652889448

/-- The signature: r and s are the same number. -/
def signature : List Byte :=
  beBytes 32 111523838223422198184976702073798823283264603698823185226074638374417563058429 ++
    beBytes 32 111523838223422198184976702073798823283264603698823185226074638374417563058429

/-- An MMP request of one operation with a sequence number (R659), without its MAC. -/
def mmpReq (seq : Nat) : List Byte := [1, 1, 1, 0] ++ leBytes 8 seq ++ List.replicate 16 0

/-- A frame that carries bytes after its EtherType, with an FCS. -/
def mmpFrame (l : List Byte) : List Byte := List.replicate 12 0 ++ [0x88, 0xB5] ++ l ++ [0, 0, 0, 0]

/-! ### Ill-formed commands -/

theorem test_ill_formed_is_refused :
    Instr.wellFormed (.laneAligned 0 []) = false ∧ Instr.wellFormed (.laneClockSwitch 0 [⟨66, 0, 0⟩]) = false ∧
    Instr.wellFormed (.laneSwitchForce 0 [⟨0, 3, 0⟩]) = false ∧
    Instr.wellFormed (.laneAligned 0 [⟨0, 66, 0⟩]) = false ∧ Instr.wellFormed (.laneAligned 0 [⟨0, 0, 4801⟩]) = false ∧
    Instr.wellFormed (.frameDecision 0 ⟨[], false, false, ⟨0, 0, 0, 0⟩, []⟩) = false ∧
    Instr.wellFormed (.frameDecision 0 ⟨List.replicate 128 0, false, true, ⟨0, 0, 0, 0⟩, []⟩) = false ∧
    Instr.wellFormed (.calApply 0 2 .starved) = false ∧ Instr.wellFormed (.calApply 1 0 .starved) = false ∧
    Instr.wellFormed (.calApply 0 0 (.span 0)) = false ∧ Instr.wellFormed (.calApply 0 0 (.bins [(512, 1)] 0 0)) = false ∧
    Instr.wellFormed (.calApply 3 0 (.table [])) = false ∧ Instr.wellFormed (.calApply 5 0 (.ones (2 ^ 24 + 1))) = false ∧
    Instr.wellFormed (.poolEnable .pcie 3 0) = false ∧ Instr.wellFormed (.tiuCalDone ⟨[], [], [], []⟩) = false ∧
    Instr.wellFormed (.scrubWordRead 0 2 [] false) = false ∧ Instr.wellFormed (.scrubWordRead 0 0 [⟨4, 0⟩] false) = false ∧
    Instr.wellFormed (.dmaTxDescriptor 0 [] []) = false ∧ Instr.wellFormed (.dmaRxDeliver 0 63) = false ∧
    Instr.wellFormed (.dmaRxDeliver 0 9601) = false ∧ Instr.wellFormed (.i2cDone 0 .ok (List.replicate 129 0)) = false := by
  decide +kernel

theorem test_well_formed_at_the_bounds :
    Instr.wellFormed (.laneAligned 0 [⟨65, 64, 4800⟩]) = true ∧ Instr.wellFormed (.poolEnable .pcie 4 0) = true ∧
    Instr.wellFormed (.frameDecision 0 ⟨List.replicate 128 0, false, false, ⟨0, 0, 0, 0⟩, []⟩) = true ∧
    Instr.wellFormed (.dmaRxDeliver 0 9600) = true ∧ Instr.wellFormed (.i2cDone 0 .ok (List.replicate 128 0)) = true ∧
    Instr.wellFormed (.calApply 5 64 (.ones (2 ^ 24))) = true ∧ Instr.wellFormed (.scrubWordRead 0 4 [⟨3, 0⟩] true) = true := by
  decide +kernel

/-! ### Worked examples of the text -/

/-- A tie goes to the even code, 2,502; 1,000 pu are 2,500 codes
(spec/02_root_clock_and_synthesis.md). -/
theorem test_codes_of_a_phase_request : rotatorCodes run 0 1000 = 2500 ∧ rotatorCodes run 0 1001 = 2502 := by decide +kernel

/-- A delay of -1.5 ns is 0xFFFF_FFFF_FFFE_8000 in SNS64 (spec/00_scope.md). -/
theorem test_delay_in_sns : snsOf (-(3 * 2 ^ 39)) = 0xFFFFFFFFFFFE8000 := by decide +kernel

/-- TB_TIME at 1,782,520,960 s and 250,000,000 ns (spec/18_management_and_counters.md). -/
theorem test_time_base_words :
    (busRead .pcie 0x00300010 { run with tb := { count := 1782520960 * sec40 + 250000000 * 2 ^ 40 } }).2.1 = 0xB2800000 ∧
    (busRead .pcie 0x00300014 (busRead .pcie 0x00300010
      { run with tb := { count := 1782520960 * sec40 + 250000000 * 2 ^ 40 } }).2.2).2.1 = 0x1C800EE6 := by decide +kernel

/-- FLUSHED of Q(12, 7) and PMC_CNT5 (spec/19_register_map.md). -/
theorem test_counter_addresses : (QM_Q_CNT1 103).addr = 0x014219F4 ∧ (PMC_CNT 5).addr = 0x027001AC := by decide

/-- Position 10 alone: syndrome 0x1A, corrected; positions 10 and 3: 0x09, uncorrectable (spec/14_stored_data_protection.md). -/
theorem test_syndromes : hamLogged (2 ^ 10) = 0x1A ∧ hamKind (2 ^ 10) = 1 ∧ hamLogged (2 ^ 10 + 2 ^ 3) = 0x09 ∧
    hamKind (2 ^ 10 + 2 ^ 3) = 2 := by decide

/-- The message "$KTD,00006A3F1C80,+037,F,0012,08*5D" (spec/04_time_base.md). -/
theorem test_time_of_day_message :
    todMessage (at_ [(TB_TOD_UTC_UTC_OFFSET, 37), (TB_TOD_UTC_VALID, 1), (TB_STATUS_STATE, 2), (TB_EPOCH_V, 18)]) 1 0x6A3F1C80 =
      [36, 75, 84, 68, 44, 48, 48, 48, 48, 54, 65, 51, 70, 49, 67, 56, 48, 44, 43, 48, 51, 55, 44, 70, 44, 48, 48, 49, 50, 44, 48, 56,
       42, 53, 68, 13, 10] := by decide +kernel

/-- HOLD_VALUE = 400,100 from seven entries (spec/03_references_and_holdover.md). -/
theorem test_holdover_window :
    (holdCompute { at_ [(HOLD_CFG_WINDOW, 8), (HOLD_CFG_GUARD, 2)] with
      sel := { secs := 1000, hist := [⟨0, true⟩, ⟨0, true⟩, ⟨400110, true⟩, ⟨400090, true⟩, ⟨400140, true⟩, ⟨400060, true⟩,
        ⟨999999, false⟩, ⟨400100, true⟩, ⟨400080, true⟩, ⟨400120, true⟩] } } 1000).map (fun r => r.1) = some 400100 := by
  decide +kernel

/-- LATE_POLICY = NEXT_PERIOD: T becomes 1000.001 750 000 s; REJECT: RESULT reads LATE (spec/04_time_base.md). -/
theorem test_late_action :
    actTime (actArm 4 (1000 * sec40 + 1730000 * 2 ^ 40) (sets [(SCH_ACT_CTRL_TYPE 4, 1), (SCH_ACT_CTRL_LATE_POLICY 4, 1),
      (SCH_ACT_PERIOD_V 4, 250000)] (run.putWide (SCH_ACT_TIME 4) (tb96Of (1000 * sec40))))) 4 = 1000 * sec40 + 1750000 * 2 ^ 40 ∧
    (actArm 4 (1000 * sec40 + 1730000 * 2 ^ 40) (sets [(SCH_ACT_CTRL_TYPE 4, 1)]
      (run.putWide (SCH_ACT_TIME 4) (tb96Of (1000 * sec40))))).word (SCH_LATE.word 0) = 0x10 := by decide +kernel

/-- The asymmetry of 80 km: 47.851 562 5 ns, 0x002F_DA00 (spec/07_link_phase_and_delay.md). -/
theorem test_asymmetry : asymmetry (2 ^ 20) 25693248000 = 0x002FDA00 := by decide

/-- The first correction on it: TB_INCR = 0x03FF_FFFF_FEA8 (spec/08_timing_protocol_engine.md). -/
theorem test_first_correction :
    (steerServo 0 81920 15625000 (at_ [(TB_STATUS_STATE, 1)])).wide TB_INCR = 0x03FFFFFFFEA8 := by decide +kernel

/-- 621.222 769 ns, 0x026D_3907 (spec/12_time_interval_unit.md). -/
theorem test_interval :
    (tiuSpan { run with tiu := { cal := ⟨800, 2848, 788, 2844⟩ } } true false ⟨0, 180⟩ ⟨777, 300⟩).map
      (fun v => roundDiv (65536 * v.1) v.2.toNat) = some 0x026D3907 := by decide +kernel

/-- Stream 17 of the example in spec/09_forwarding.md: VECTOR, HIST 8, RESET_MS 100, RECOV_SEQ = 100 and all marked. -/
def stream17 : State :=
  ((run.setTword (streamAddr 17) 0x00640802).setTword (streamAddr 17 + 4) 0x00640000).setTword (streamAddr 17 + 8) 0xFF

/-- There 100 is discarded, 102 passes with LOST = 0, 101 is OUT_OF_ORDER, 112 is ROGUE. -/
theorem test_recovery :
    (frerRecover 17 (some 100) stream17).1 = false ∧ (frerRecover 17 (some 102) stream17).1 = true ∧
    (frerRecover 17 (some 102) stream17).2.tword (streamAddr 17 + 24) = 0 ∧
    (frerRecover 17 (some 101) (frerRecover 17 (some 102) stream17).2).2.tword (streamAddr 17 + 20) = 1 ∧
    (frerRecover 17 (some 112) (frerRecover 17 (some 102) stream17).2).2.tword (streamAddr 17 + 20) = 0x10000 := by decide +kernel

/-- PPS_OUT0_DIFF after a step of 3 us forward: 0xFFFF_FFFF_F448_0000 (spec/02_root_clock_and_synthesis.md). -/
theorem test_pulse_difference_after_a_step :
    (ppsStepped (sec40 + 3000 * 2 ^ 40) 0 { run with pps := [(0, { count := sec40 })] }).wide (PPS_OUT_DIFF 0) =
      0xFFFFFFFFF4480000 := by decide +kernel

/-- PRBS7 after seven ones, worked by hand from x^7 + x^6 + 1 (R240); a square wave of two ones and two zeros; and inversion. -/
theorem test_patterns :
    (genBits ⟨0, 1, 0, false⟩ none 14 { st := 127 }).1 =
      [false, false, false, false, false, false, true, false, false, false, false, false, true, true] ∧
    (genBits ⟨6, 2, 0, false⟩ none 5 {}).1 = [true, true, false, false, true] ∧
    (genBits ⟨7, 1, 5, true⟩ none 3 {}).1 = [false, true, false] := by decide

/-- IDCODE reads 0x1648_096B (R663). -/
theorem test_idcode : (after .idcode run).out = [.jtag 0x1648096B] := by decide +kernel

/-- The published values of SHA-256 and HMAC-SHA-256 (FIPS 180-4, RFC 4231 case 2). -/
theorem test_sha256 :
    natBE (sha256 [0x61, 0x62, 0x63]) = 0xba7816bf8f01cfea414140de5dae2223b00361a396177a9cb410ff61f20015ad ∧
    natBE (hmac256 [0x4A, 0x65, 0x66, 0x65] [0x77, 0x68, 0x61, 0x74, 0x20, 0x64, 0x6F, 0x20, 0x79, 0x61, 0x20, 0x77, 0x61, 0x6E,
      0x74, 0x20, 0x66, 0x6F, 0x72, 0x20, 0x6E, 0x6F, 0x74, 0x68, 0x69, 0x6E, 0x67, 0x3F]) =
      0x5bdcc146bf60754e6a042426089575c75a003f089d2739839dec58b964ec3843 := by decide +kernel

/-- CRC-32 of "123456789" is 0xCBF43926 (IEEE 802.3). -/
theorem test_crc32 : (crc32 [49, 50, 51, 52, 53, 54, 55, 56, 57]).toNat = 0xCBF43926 := by decide +kernel

/-- A write of ACC_STATUS' UNMAPPED flag as 1 clears it (R17, R24), and a write to a hole sets it. -/
theorem test_unmapped_flag :
    (after (.registerWrite .pcie 0x02FFFFFC 15 0) run).on GLB_ACC_STATUS_UNMAPPED = true ∧
    (after (.registerWrite .pcie 0x00000004 15 0xFFFFFFFF)
      (after (.registerWrite .pcie 0x02FFFFFC 15 0) run)).on GLB_ACC_STATUS_UNMAPPED = false := by decide +kernel

/-! ### Statements' hypotheses are met -/

theorem witness_queue_front_runs :
    ∃ (s : State) (c : Instr) (rest : List Instr), s.pending = c :: rest :=
  ⟨{ run with pending := [.tbStepApply, .resetAssert] }, .tbStepApply, [.resetAssert], by decide +kernel⟩

theorem witness_empty_queue_lets_time_pass :
    (∃ (s : State), s.pending = [] ∧ s.inReset = true) ∧
    (∃ (s : State), s.pending = [] ∧ s.inReset = false ∧ s.clocked = true) ∧
    (∃ (s : State), s.pending = [] ∧ s.inReset = false ∧ s.clocked = false) ∧
    (∃ (s : State) (r : Reg), s.pending = [] ∧ r.addr < 0x00110000) :=
  ⟨⟨{ run with inReset := true }, by decide +kernel⟩,
    ⟨run, by decide +kernel⟩,
    ⟨State.reset, by decide +kernel⟩,
    ⟨run, ⟨0x0010FFFC, 0⟩, by decide +kernel⟩⟩

theorem witness_queue_and_fuses_are_left_alone :
    ∃ (c : Instr) (s t : State), exec c s = .next t :=
  ⟨.resetAssert, run, after .resetAssert run, by rfl⟩

theorem witness_reset_form_kept_by_every_step :
    ∃ (s t : State), ResetHolds s ∧ step s = .next t :=
  ⟨{ resetForm 0 State.reset with pending := [.resetRelease ⟨0, true, true⟩] }, after (.resetRelease ⟨0, true, true⟩) (resetForm 0 State.reset), by exact ⟨fun _ => .inl (by decide +kernel), rfl⟩⟩

theorem witness_no_escalation_left_due_by_any_step :
    ∃ (s t : State), s.escDue = 0 ∧ step s = .next t :=
  ⟨run, stepped run, by exact ⟨by decide +kernel, rfl⟩⟩

theorem witness_in_reset_only_the_reset_rows_act :
    (∃ (c : Instr) (s : State), s.inReset = true ∧ c ≠ .resetAssert ∧ (∀ r, c ≠ .railBelowReset r) ∧ (∀ x, c ≠ .resetRelease x) ∧ (∀ b, c ≠ .pcieConfigurationRequest b) ∧ (∀ m a, c ≠ .wideValueCapture m a) ∧ (∀ m a, c ≠ .rcFieldRead m a) ∧ (∀ m, c ≠ .tiuFifoRead m) ∧ (∀ m, c ≠ .eccLogRead m) ∧ c ∉ ([.bypass, .idcode, .samplePreload, .extest, .extestPulse, .extestTrain, .extestExit] : List Instr)) ∧
    (∃ (c : Instr) (s : State) (m : BusMaster) (a : Word), s.inReset = true ∧ c ∈ ([.wideValueCapture m a, .rcFieldRead m a, .tiuFifoRead m, .eccLogRead m] : List Instr)) :=
  ⟨⟨.tbStepApply, resetForm 0 run, by refine ⟨rfl, by simp, by simp, by simp, by simp, by simp, by simp, by simp, by simp, by decide⟩⟩,
    ⟨.wideValueCapture .pcie 0, resetForm 0 run, .pcie, 0, by exact ⟨rfl, by simp⟩⟩⟩

theorem witness_reset_and_release :
    (∃ (s : State), s.inReset = true ∧ ResetHolds s) ∧
    (∃ (s : State), s.inReset = false) :=
  ⟨⟨resetForm 0 run, by exact ⟨rfl, fun _ => .inl (by decide +kernel)⟩⟩,
    ⟨run, by decide +kernel⟩⟩

theorem witness_unmapped_and_partial_accesses :
    (∃ (m : BusMaster) (a : Word) (s : State) (be : Fin 16), s.inReset = false ∧ served s m = true ∧ s.gated = false ∧ placeOf s a.toNat = .unmapped ∧ (a.toNat % 4 = 0 → a.toNat < 0x03000000 → be.val = 15)) ∧
    (∃ (m : BusMaster) (a : Word) (s : State) (c : _), s.inReset = false ∧ served s m = true ∧ s.gated = false ∧ placeOf s a.toNat = .unmapped ∧ c ∈ ([.rcFieldRead m a, .wideValueCapture m a] : List Instr)) ∧
    (∃ (m : BusMaster) (a : Word) (be : Fin 16) (s : State), s.inReset = false ∧ served s m = true ∧ s.gated = false ∧ a.toNat % 4 = 0 ∧ a.toNat < 0x03000000 ∧ be.val ≠ 15) :=
  ⟨⟨.pcie, 0x02FFFFFC, run, 15, by exact ⟨by decide +kernel, by decide +kernel, by decide +kernel, rfl, by decide⟩⟩,
    ⟨.spi, 0x00000001, run, .wideValueCapture .spi 0x00000001, by exact ⟨by decide +kernel, by decide +kernel, by decide +kernel, rfl, by decide⟩⟩,
    ⟨.spi, 0x02FFFFFC, 14, run, by decide +kernel⟩⟩

theorem witness_observe_master_writes_nothing :
    ∃ (m : BusMaster) (a : Word) (s : State), s.inReset = false ∧ served s m = true ∧ s.gated = false ∧ privOf s m = 0 ∧ placeOf s a.toNat ≠ .unmapped :=
  ⟨.mmp, 0x0000000C, run, by exact ⟨by decide +kernel, by decide +kernel, by decide +kernel, by decide +kernel, by change Place.reg (hit 12) ≠ _; simp⟩⟩

theorem witness_wide_value_capture :
    ∃ (m : BusMaster) (h : RegHit) (k : Nat) (s t : State), h.w = 0 ∧ 0 < k ∧ k < h.spec.words ∧ t.shadows = (regRead m h s).2.shadows :=
  ⟨.pcie, hit 0x02000080, 2, run, (regRead .pcie (hit 0x02000080) run).2, by decide +kernel⟩

theorem witness_reads_of_registers_complete :
    ∃ (m : BusMaster) (a : Word) (h : RegHit) (s : State), s.inReset = false ∧ served s m = true ∧ s.gated = false ∧ placeOf s a.toNat = .reg h :=
  ⟨.pcie, 0x02000080, hit 0x02000080, run, by exact ⟨by decide +kernel, by decide +kernel, by decide +kernel, rfl⟩⟩

theorem witness_read_clear_of_rc_fields :
    (∃ (h : RegHit) (s : State), h.w = 0 ∧ h.spec.id ∉ ([.TB_SNAP, .TIU_FIFO, .ECC_LOG, .POOL_LOW_WATER] : List RegId) ∧ s.ecc.injected = []) ∧
    (∃ (m : BusMaster) (h : RegHit) (s : State), h.w = 0 ∧ h.spec.id ∉ ([.TB_SNAP, .TIU_FIFO, .ECC_LOG, .POOL_LOW_WATER] : List RegId) ∧ privOf s m = 0) ∧
    (∃ (m : BusMaster) (h : RegHit) (s : State) (x : Reg), h.w = 0 ∧ h.spec.id ∉ ([.TB_SNAP, .TIU_FIFO, .ECC_LOG, .POOL_LOW_WATER] : List RegId) ∧ privOf s m ≠ 0 ∧ (x.addr < h.wide.addr ∨ h.wide.addr + 4 * h.wide.words ≤ x.addr)) :=
  ⟨⟨hit 0x00300208, run, by decide +kernel⟩,
    ⟨.mmp, hit 0x00300208, sets [(TB_TOD_IN_STATUS_GOOD, 5)] run, by decide +kernel⟩,
    ⟨.pcie, hit 0x00300208, sets [(TB_TOD_IN_STATUS_GOOD, 5)] run, ⟨0x0030020C, 0⟩, by decide +kernel⟩⟩

theorem witness_stage_and_commit_of_wide_values :
    (∃ (m : BusMaster) (a : Word) (h : RegHit) (s : State), s.inReset = false ∧ served s m = true ∧ m ≠ .loader ∧ s.gated = false ∧ placeOf s a.toNat = .reg h ∧ h.w ≠ 0 ∧ privOf s m = 2 ∧ (s.dev = .loading → hostOpen a.toNat = true) ∧ (h.spec.id = .SCH_ACT_TIME → h.i = 63 → s.pairState = .solo)) ∧
    (∃ (m : BusMaster) (a v : Word) (h : RegHit) (s : State), placeOf s a.toNat = .reg h ∧ h.spec.words = 2 ∧ Writable m ⟨a.toNat, 0⟩ v s ∧ a.toNat + 8 ≤ 0x02700000) :=
  ⟨⟨.pcie, 0x00200C14, hit 0x00200C14, run, by exact ⟨by decide +kernel, by decide +kernel, by decide +kernel, by decide +kernel, rfl, by decide +kernel, by decide +kernel, by decide +kernel, by decide +kernel⟩⟩,
    ⟨.pcie, 0x00200C10, 7, hit 0x00200C10, run, by unfold Writable; exact ⟨rfl, by decide +kernel, by decide +kernel, by decide +kernel⟩⟩⟩

theorem witness_register_write_stands :
    ∃ (m : BusMaster) (a v : Word) (h : RegHit) (s : State), placeOf s a.toNat = .reg h ∧ h.spec.words = 1 ∧ a.toNat < 0x026FFFFC ∧ (h.spec.id = .LDR_HOST_CTRL → v.toNat % 2 = 0) ∧ Writable m ⟨a.toNat, 0⟩ v s :=
  ⟨.pcie, 0x00110400, 0, hit 0x00110400, run, by unfold Writable; exact ⟨rfl, by decide +kernel, by decide +kernel, by decide +kernel, by decide +kernel⟩⟩

theorem witness_access_timeout_while_gated :
    (∃ (m : BusMaster) (s : State), s.inReset = false ∧ served s m = true ∧ s.gated = true) ∧
    (∃ (m : BusMaster) (s : State), s.inReset = false ∧ served s m = true ∧ s.gated = false) :=
  ⟨⟨.pcie, at_ [(SYN_STATUS_GATED, 1)], by decide +kernel⟩,
    ⟨.spi, run, by decide +kernel⟩⟩

theorem witness_table_write_keeps_every_other_byte :
    (∃ (a : Nat) (s : State), 0x03000000 ≤ a ∧ Memory.wf s.mem = true) ∧
    (∃ (a : Nat) (x : Nat), 0x03000000 ≤ a ∧ x / 32 ≠ a / 32) :=
  ⟨⟨0x03000000, run, by decide +kernel⟩,
    ⟨0x03000000, 0x03000020, by decide +kernel⟩⟩

theorem witness_capstan_start_commands :
    (∃ (s : State), s.inReset = false ∧ s.dev = .clockStart ∧ s.syn.attempt = false ∧ s.on SYN_STATUS_LOCKED = false) ∧
    (∃ (s : State), s.inReset = false ∧ s.dev = .clockStart ∧ s.on SYN_STATUS_LOCKED = false) ∧
    (∃ (s : State), s.inReset = false ∧ s.dev = .clockStart ∧ s.on SYN_STATUS_LOCKED = true ∧ s.nominal = true) :=
  ⟨⟨State.reset, by decide +kernel⟩,
    ⟨State.reset, by decide +kernel⟩,
    ⟨at_ [(GLB_STATE_STATE, 1)], by decide +kernel⟩⟩

theorem witness_capstan_lock_and_loss :
    (∃ (s : State), s.inReset = false ∧ s.mgt.waiting = [] ∧ s.syn.attempt = true ∧ s.on SYN_STATUS_LOCKED = false) ∧
    (∃ (s : State), s.inReset = false ∧ s.syn.attempt = true ∧ s.on SYN_STATUS_LOCKED = false) ∧
    (∃ (s : State), s.inReset = false ∧ s.on SYN_STATUS_SAFE_RATIO = true ∧ s.plls.all (fun e => !e.2.planDue) = true) ∧
    (∃ (s : State), s.inReset = false ∧ s.on SYN_STATUS_LOCKED = true ∧ s.ports = [] ∧ s.cal.queue = [] ∧ s.tbState = 0 ∧ tiuState s < 2) ∧
    (∃ (s : State), s.inReset = false ∧ s.gated = true) :=
  ⟨⟨{ State.reset with syn := { attempt := true } }, by decide +kernel⟩,
    ⟨{ State.reset with syn := { attempt := true } }, by decide +kernel⟩,
    ⟨at_ [(SYN_STATUS_SAFE_RATIO, 1)], by decide +kernel⟩,
    ⟨run, by decide +kernel⟩,
    ⟨at_ [(SYN_STATUS_GATED, 1), (SYN_STATUS_LOCKED, 0)], by decide +kernel⟩⟩

theorem witness_aux_and_dither_commands :
    (∃ (m : BusMaster) (v : Word) (s : State), s.inReset = false ∧ Writable m SYN_DITHER (withField SYN_DITHER_RESEED 1 v) s ∧ s.on SYN_DITHER_RESEED = false) ∧
    (∃ (m : BusMaster) (n : Fin 2) (v : Word) (s : State), Writable m (SYN_AUX_CFG n) v s) ∧
    (∃ (n : Fin 2) (s : State), s.inReset = false ∧ smGet 0 s.syn.auxHop n = s.get (SYN_AUX_CFG_PLAN_SEL n) + 1 ∧ s.nominal = true) ∧
    (∃ (n : Fin 2) (s : State), s.inReset = false ∧ s.on (auxLockedFld n) = true ∧ s.nominal = true) ∧
    (∃ (s : State), s.inReset = false ∧ s.nominal = false) :=
  ⟨⟨.pcie, 0, run, by unfold Writable; decide +kernel⟩,
    ⟨.spi, 1, 0x10001, run, by unfold Writable; decide +kernel⟩,
    ⟨1, { run with syn := { auxHop := [(1, 1)] } }, by decide +kernel⟩,
    ⟨1, at_ [(SYN_STATUS_AUX1_LOCKED, 1)], by decide +kernel⟩,
    ⟨at_ [(SYN_STATUS_SAFE_RATIO, 1)], by decide +kernel⟩⟩

theorem witness_clock_output_commands :
    (∃ (m : BusMaster) (n : Fin 12) (v : Word) (s : State), Writable m OUT_ENABLE (withField (⟨OUT_ENABLE, n, 1⟩) 1 v) s) ∧
    (∃ (m : BusMaster) (n : Fin 12) (v : Word) (s : State), Writable m OUT_ENABLE (withField (⟨OUT_ENABLE, n, 1⟩) 0 v) s) ∧
    (∃ (n : Fin 12) (s : State), s.bit OUT_ENABLE_EN n = false) ∧
    (∃ (m : BusMaster) (n : Fin 12) (v : Word) (s : State), Writable m (OUT_PHASE n) v s) ∧
    (∃ (n : Fin 4) (s : State), Served s ∧ chanRuns s (73 + n) = true ∧ s.on (OUT_STATUS_STALE n) = false ∧ s.on (OUT_ZDB_EN n) = true) ∧
    (∃ (n : Fin 4) (s : State), Served s ∧ (chanRuns s (73 + n) && s.on (OUT_ZDB_EN n)) = false) ∧
    (∃ (n : Fin 4) (s : State), Served s ∧ s.on (OUT_ZDB_EN n) = true) :=
  ⟨⟨.pcie, 11, 0, run, by unfold Writable; decide +kernel⟩,
    ⟨.spi, 0, 0xFFF, run, by unfold Writable; decide +kernel⟩,
    ⟨11, run, by decide +kernel⟩,
    ⟨.pcie, 11, 0, run, by unfold Writable; decide +kernel⟩,
    ⟨3, at_ [(OUT_ZDB_EN 3, 1), (OUT_CFG_DIV_M1 3, 63), (PHA_CH_CFG_EN 76, 1), (PHA_CH_CFG_PRESCALE 76, 1)], by unfold Served; decide +kernel⟩,
    ⟨0, at_ [(OUT_ZDB_EN 0, 1)], by unfold Served; decide +kernel⟩,
    ⟨3, at_ [(OUT_ZDB_EN 3, 1)], by unfold Served; decide +kernel⟩⟩

theorem witness_pulse_output_commands :
    (∃ (m : BusMaster) (v : Word) (s : State), Writable m PPS_REALIGN v s) ∧
    (∃ (n : Fin 4) (s : State), Served s ∧ (s.ppsRec n).pend = true ∧ ppsSetOk s n = true ∧ (s.ppsRec n).count % sec40 < s.wide TB_INCR % 2 ^ 48) ∧
    (∃ (n : Fin 4) (s : State), Served s ∧ ((s.ppsRec n).pend && ppsSetOk s n && decide ((s.ppsRec n).count % sec40 < s.wide TB_INCR % 2 ^ 48)) = false) ∧
    (∃ (m : BusMaster) (n : Fin 4) (v : Word) (s : State), Writable m (PPS_OUT_CFG n) (withField (PPS_OUT_CFG_EN n) 1 v) s) :=
  ⟨⟨.pcie, 15, run, by unfold Writable; decide +kernel⟩,
    ⟨3, { run with pps := [(3, { pend := true })] }, by unfold Served; decide +kernel⟩,
    ⟨0, run, by unfold Served; decide +kernel⟩,
    ⟨.pcie, 3, 0, run, by unfold Writable; decide +kernel⟩⟩

theorem witness_reference_candidate_events_1 :
    (∃ (n : Fin 16) (s : State), Served s ∧ slotOn s n = true) ∧
    (∃ (n : Fin 16) (s : State), Served s ∧ slotOn s n = false) ∧
    (∃ (n : Fin 16) (s : State), Served s ∧ slotOn s n = false) ∧
    (∃ (n : Fin 16) (s : State), Served s ∧ slotOn s n = false) ∧
    (∃ (n : Fin 16) (s : State), Served s ∧ slotOn s n = true ∧ slotFed s n = true) ∧
    (∃ (n : Fin 16) (s : State), Served s ∧ slotOn s n = true ∧ slotFed s n = false) ∧
    (∃ (n : Fin 16) (x : Int) (s : State), Served s ∧ slotOn s n = true ∧ ((s.refRec n).allan.add x).terms = 0) ∧
    (∃ (n : Fin 16) (x : Int) (s : State), Served s ∧ slotOn s n = true ∧ ((s.refRec n).allan.add x).terms ≠ 0) :=
  ⟨⟨15, at_ [(REF_SLOT_CFG_EN 15, 1)], by unfold Served; decide +kernel⟩,
    ⟨0, run, by unfold Served; decide +kernel⟩,
    ⟨0, run, by unfold Served; decide +kernel⟩,
    ⟨0, run, by unfold Served; decide +kernel⟩,
    ⟨7, at_ [(REF_SLOT_CFG_EN 7, 1)], by unfold Served; decide +kernel⟩,
    ⟨11, at_ [(REF_SLOT_CFG_EN 11, 1)], by unfold Served; decide +kernel⟩,
    ⟨0, 3, at_ [(REF_SLOT_CFG_EN 0, 1)], by unfold Served; decide +kernel⟩,
    ⟨0, 3, { at_ [(REF_SLOT_CFG_EN 0, 1)] with refs := [(0, { allan := { x1 := some 0, x2 := some 0 } })] }, by unfold Served; decide +kernel⟩⟩

theorem witness_reference_candidate_events_2 :
    (∃ (n : Fin 16) (p : Int) (a b : RefPoint) (s : State), Served s ∧ slotOn s n = true ∧ n < 8 ∧ (s.refRec n).p1 = some a ∧ (s.refRec n).p2 = some b ∧ b.at_ < a.at_ ∧ s.get (REF_SLOT_HIT_V n) < (p - (a.phase + roundDiv ((a.phase - b.phase) * ((s.clk : Int) - a.at_)) (a.at_ - b.at_))).natAbs) ∧
    (∃ (n : Fin 16) (s : State), Served s ∧ slotOn s n = true ∧ slotFed s n = true ∧ (n < 8 ∨ 12 ≤ n) ∧ (s.refRec n).p1 = none ∧ (s.refRec n).p2 = none) ∧
    (∃ (n : Fin 16) (s : State), Served s ∧ 8 ≤ n.val ∧ n.val < 12 ∧ s.on (PHA_CH_SAMPLE_VALID (s.get (LN_RCS_CFG_LANE (n.val - 8)))) = true) ∧
    (∃ (n : Fin 16) (s : State), Served s ∧ slotState s n = 1 ∧ s.get REF_WTR_WTR = 0) ∧
    (∃ (n : Fin 16) (s : State), Served s ∧ slotState s n = 1 ∧ (s.refRec n).wasQual = true ∧ s.get REF_WTR_WTR ≠ 0) ∧
    (∃ (n : Fin 16) (s : State), Served s ∧ slotState s n = 3 ∧ (s.refRec n).nearSince.isSome = true) ∧
    (∃ (n : Fin 16) (s : State), Served s ∧ slotState s n = 5) ∧
    (∃ (n : Fin 16) (s : State), Served s ∧ slotState s n ≠ 5) :=
  ⟨⟨7, 2000000000, ⟨0, 5⟩, ⟨0, 0⟩, { at_ [(REF_SLOT_CFG_EN 7, 1)] with clk := 10, refs := [(7, { p1 := some ⟨0, 5⟩, p2 := some ⟨0, 0⟩ })] }, by unfold Served; decide +kernel⟩,
    ⟨0, at_ [(REF_SLOT_CFG_EN 0, 1)], by unfold Served; decide +kernel⟩,
    ⟨11, at_ [(PHA_CH_SAMPLE_VALID 0, 1)], by unfold Served; decide +kernel⟩,
    ⟨0, at_ [(REF_SLOT_STATE_STATE 0, 1), (REF_WTR_WTR, 0)], by unfold Served; decide +kernel⟩,
    ⟨15, { at_ [(REF_SLOT_STATE_STATE 15, 1), (REF_WTR_WTR, 1)] with refs := [(15, { wasQual := true })] }, by unfold Served; decide +kernel⟩,
    ⟨15, { at_ [(REF_SLOT_STATE_STATE 15, 3)] with refs := [(15, { nearSince := some 0 })] }, by unfold Served; decide +kernel⟩,
    ⟨0, at_ [(REF_SLOT_STATE_STATE 0, 5)], by unfold Served; decide +kernel⟩,
    ⟨0, run, by unfold Served; decide +kernel⟩⟩

theorem witness_slot_states_after_the_timers :
    (∃ (st : Nat), st < 8) ∧
    (∃ (n : Fin 16) (s : State), slotState s n = 3) ∧
    (∃ (n : Fin 16) (s : State), slotOn s n = true ∧ checksPass s n = true ∧ (slotState s n = 0 ∨ slotState s n = 4)) ∧
    (∃ (n : Fin 16) (s : State), slotState s n = 2) :=
  ⟨⟨7, by decide +kernel⟩,
    ⟨0, at_ [(REF_SLOT_STATE_STATE 0, 3)], by decide +kernel⟩,
    ⟨0, { at_ [(REF_SLOT_CFG_EN 0, 1), (REF_SLOT_STATE_STATE 0, 4)] with refs := [(0, { freqSeen := true })] }, by decide +kernel⟩,
    ⟨15, at_ [(REF_SLOT_STATE_STATE 15, 2)], by decide +kernel⟩⟩

theorem witness_selector_and_dpll_commands_1 :
    (∃ (m : BusMaster) (n : Fin 16) (v : Word) (s : State), Writable m (REF_SLOT_CFG n) v s) ∧
    (∃ (m : BusMaster) (v : Word) (s : State), Writable m REF_CTRL (withField REF_CTRL_MODE 0 v) s) ∧
    (∃ (m : BusMaster) (v : Word) (s : State), Writable m REF_CTRL (withField REF_CTRL_MODE 1 v) s) ∧
    (∃ (m : BusMaster) (v : Word) (s : State), Writable m REF_CTRL (withField REF_CTRL_MODE 2 v) s) ∧
    (∃ (m : BusMaster) (v : Word) (s : State), Writable m REF_CTRL (withField REF_CTRL_MODE 3 v) s) ∧
    (∃ (m : BusMaster) (v : Word) (s : State), Writable m DCO_CTRL v s) ∧
    (∃ (m : BusMaster) (v : Word) (s : State), Writable m (DCO_OFFSET.word 0) v s) ∧
    (∃ (t : Fin 16) (s : State), Served s ∧ s.sel.target = some t.val ∧ s.sel.ctrlWait = none ∧ s.dpll = 2) :=
  ⟨⟨.pcie, 0, 0xFFF0, run, by unfold Writable; decide +kernel⟩,
    ⟨.pcie, 8, run, by unfold Writable; decide +kernel⟩,
    ⟨.pcie, 8, run, by unfold Writable; decide +kernel⟩,
    ⟨.spi, 8, run, by unfold Writable; decide +kernel⟩,
    ⟨.pcie, 8, run, by unfold Writable; decide +kernel⟩,
    ⟨.pcie, 1, run, by unfold Writable; decide +kernel⟩,
    ⟨.pcie, 1, at_ [(DCO_CTRL_OWNER, 1)], by unfold Writable; decide +kernel⟩,
    ⟨15, { at_ [(DPLL_STATUS_STATE, 2)] with sel := { target := some 15 } }, by unfold Served; decide +kernel⟩⟩

theorem witness_selector_and_dpll_commands_2 :
    (∃ (s : State), Served s ∧ (s.on REF_STATUS_SWITCHING = true ∨ s.dpllOwns = false)) ∧
    (∃ (s : State), Served s ∧ s.on REF_STATUS_SWITCHING = false ∧ s.dpllOwns = true ∧ s.dpll = 3) ∧
    (∃ (s : State), Served s ∧ s.dpll = 1 ∧ s.on REF_STATUS_SWITCHING = false ∧ s.dpllOwns = true ∧ s.sel.takeUp = false ∧ s.get REF_STATUS_SELECTED < 8) ∧
    (∃ (y : Int) (s : State), Served s ∧ s.dpll = 1 ∧ s.on REF_STATUS_SWITCHING = false ∧ s.dpllOwns = true ∧ s.sel.takeUp = false ∧ 8 ≤ s.get REF_STATUS_SELECTED ∧ s.get REF_STATUS_SELECTED < 12 ∧ y = s.geti (PHA_CH_UNWRAP_V (slotChannel s (s.get REF_STATUS_SELECTED)))) ∧
    (∃ (s : State), Served s ∧ s.dpll = 1 ∧ (s.geti DPLL_PHASE_ERR_V).natAbs ≤ s.get DPLL_LOCK_PE) ∧
    (∃ (s : State), Served s ∧ s.dpll ≠ 1) :=
  ⟨⟨at_ [(REF_STATUS_SWITCHING, 1)], by unfold Served; decide +kernel⟩,
    ⟨at_ [(DPLL_STATUS_STATE, 3)], by unfold Served; decide +kernel⟩,
    ⟨at_ [(DPLL_STATUS_STATE, 1), (REF_STATUS_SELECTED, 7), (DCO_CTRL_OWNER, 0)], by unfold Served; decide +kernel⟩,
    ⟨0, at_ [(DPLL_STATUS_STATE, 1), (REF_STATUS_SELECTED, 11), (DCO_CTRL_OWNER, 0)], by unfold Served; decide +kernel⟩,
    ⟨at_ [(DPLL_STATUS_STATE, 1)], by unfold Served; decide +kernel⟩,
    ⟨run, by unfold Served; decide +kernel⟩⟩

theorem witness_holdover_fram_and_ensemble_events_1 :
    (∃ (s : State), Served s ∧ s.on HOLD_FRAM_CFG_EN = true ∧ s.sel.readDone = true ∧ 64 ≤ s.sel.sinceSave) ∧
    (∃ (s : State), Served s ∧ (s.on HOLD_FRAM_CFG_EN = false ∨ s.sel.readDone = false ∨ s.sel.sinceSave < 64)) ∧
    (∃ (x : FramSave) (s : State), Served s ∧ s.sel.save = some x) ∧
    (∃ (s : State), Served s ∧ s.sel.readDue = true ∧ s.sel.readDone = false ∧ headerOk (framRead s 0 64) = false ∧ headerOk (framRead s 0x40 64) = false) ∧
    (∃ (s : State), Served s ∧ s.sel.readDue = false) ∧
    (∃ (s : State), Served s ∧ s.sel.readDue = true ∧ s.sel.readDone = true) ∧
    (∃ (m : BusMaster) (v : Word) (s : State), Writable m REF_ENS_CTRL (withField REF_ENS_CTRL_EN 1 v) s) ∧
    (∃ (s : State), Served s ∧ (∀ k < 8, ensState s k = 0 ∨ (s.ensRec k).n = 0)) :=
  ⟨⟨{ at_ [(HOLD_FRAM_CFG_EN, 1)] with sel := { readDone := true, sinceSave := 64 } }, by unfold Served; decide +kernel⟩,
    ⟨{ at_ [(HOLD_FRAM_CFG_EN, 1)] with sel := { readDone := true, sinceSave := 63 } }, by unfold Served; decide +kernel⟩,
    ⟨⟨true, 1, 2⟩, { run with sel := { save := some ⟨true, 1, 2⟩ } }, by unfold Served; decide +kernel⟩,
    ⟨{ run with sel := { readDue := true } }, by unfold Served; decide +kernel⟩,
    ⟨run, by unfold Served; decide +kernel⟩,
    ⟨{ run with sel := { readDue := true, readDone := true } }, by unfold Served; decide +kernel⟩,
    ⟨.pcie, 0x00640000, run, by unfold Writable; decide +kernel⟩,
    ⟨run, by unfold Served; decide +kernel⟩⟩

theorem witness_holdover_fram_and_ensemble_events_2 :
    (∃ (k : Fin 8) (s : State), Served s ∧ ensState s k = 2 ∧ (s.ensRec k).n ≠ 0 ∧ (∀ j < 8, j ≠ k.val → ensState s j = 0)) ∧
    (∃ (s : State), Served s ∧ (ensFused s).isEmpty = true) ∧
    (∃ (s : State), Served s ∧ (ensFused s).isEmpty = false ∧ (ensFused s).all (fun k => (s.ensRec k).allan.num != 0) = true ∧ (ensShow (ensDrop s)).steerSrc ≠ 4) ∧
    (∃ (k : Fin 8) (s : State), Served s ∧ ensState s k = 3 ∧ (s.ensRec k).nearSince.isSome = true) ∧
    (∃ (k : Fin 8) (s : State), Served s ∧ ensState s k ≠ 3) :=
  ⟨⟨7, { at_ [(REF_ENS_MSTAT_STATE 7, 2)] with ens := [(7, { n := 1 })] }, by unfold Served; decide +kernel⟩,
    ⟨run, by unfold Served; decide +kernel⟩,
    ⟨{ at_ [(REF_ENS_MSTAT_STATE 0, 2)] with ens := [(0, { allan := { num := 1 } })] }, by unfold Served; decide +kernel⟩,
    ⟨0, { at_ [(REF_ENS_MSTAT_STATE 0, 3)] with ens := [(0, { nearSince := some 0 })] }, by unfold Served; decide +kernel⟩,
    ⟨7, run, by unfold Served; decide +kernel⟩⟩

theorem witness_time_base_writes_1 :
    (∃ (m : BusMaster) (v : Word) (s : State), Writable m (TB_INCR.word 0) v s) ∧
    (∃ (m : BusMaster) (v : Word) (s : State), Writable m TB_HOST_STATE v s) ∧
    (∃ (m : BusMaster) (v : Word) (s : State), Writable m TB_CTRL v s) ∧
    (∃ (m : BusMaster) (v : Word) (s : State), Writable m TB_STEP_CTRL (withField TB_STEP_CTRL_GO 1 v) s ∧ s.tb.hostStep = none) ∧
    (∃ (m : BusMaster) (v : Word) (s : State), Writable m TB_LOAD_CTRL (withField TB_LOAD_CTRL_GO 1 v) s ∧ s.tb.load = none) ∧
    (∃ (m : BusMaster) (v : Word) (s : State), Writable m TB_SNAP_CTRL (withField TB_SNAP_CTRL_SW 1 v) s ∧ s.on TB_SNAP_CTRL_SW = false) ∧
    (∃ (s : State), s.hostOwns = true ∧ s.tbState ≠ 0 ∧ stepPermitted s (sns40 (s.widei TB_STEP)) = true) ∧
    (∃ (s : State), (s.hostOwns = false ∨ s.tbState = 0 ∨ stepPermitted s (sns40 (s.widei TB_STEP)) = false)) :=
  ⟨⟨.pcie, 0, at_ [(TB_CTRL_STEER_OWNER, 1)], by unfold Writable; decide +kernel⟩,
    ⟨.pcie, 2, at_ [(TB_CTRL_STEER_OWNER, 1), (TB_STATUS_STATE, 1)], by unfold Writable; decide +kernel⟩,
    ⟨.pcie, 0, run, by unfold Writable; decide +kernel⟩,
    ⟨.pcie, 0, run, by unfold Writable; decide +kernel⟩,
    ⟨.pcie, 0, run, by unfold Writable; decide +kernel⟩,
    ⟨.pcie, 0, run, by unfold Writable; decide +kernel⟩,
    ⟨at_ [(TB_CTRL_STEER_OWNER, 1), (TB_STATUS_STATE, 1)], by decide +kernel⟩,
    ⟨run, by decide +kernel⟩⟩

theorem witness_time_base_writes_2 :
    ∃ (s : State), s.tbState ≠ 0 :=
  ⟨at_ [(TB_STATUS_STATE, 3)], by decide +kernel⟩

theorem witness_time_base_states_and_steps :
    (∃ (s : State), Served s ∧ s.tbState ≠ 0 ∧ mateClear s = false) ∧
    (∃ (s : State), Served s ∧ stepDue s = true) ∧
    (∃ (s : State), Served s ∧ stepDue s = false) ∧
    (∃ (s : State), s.tbState ≠ 0) ∧
    (∃ (s : State), s.hostOwns = false) ∧
    (∃ (s : State), s.hostOwns = true) :=
  ⟨⟨{ at_ [(TB_STATUS_STATE, 1)] with regs := ((at_ [(TB_STATUS_STATE, 1)]).putWide PAIR_MATE_REPORT (2 ^ 227)).regs }, by unfold Served; decide +kernel⟩,
    ⟨{ run with tb := { load := some 5 } }, by unfold Served; decide +kernel⟩,
    ⟨{ run with tb := { hostStep := some 5 } }, by unfold Served; decide +kernel⟩,
    ⟨at_ [(TB_STATUS_STATE, 1)], by decide +kernel⟩,
    ⟨run, by decide +kernel⟩,
    ⟨at_ [(TB_CTRL_STEER_OWNER, 1)], by decide +kernel⟩⟩

theorem witness_pulses_in_and_time_of_day_1 :
    (∃ (n : Fin 2) (falling : Bool) (s : State), Served s ∧ ppsinOn s n falling = true) ∧
    (∃ (n : Fin 2) (falling : Bool) (s : State), Served s ∧ ppsinOn s n falling = false) ∧
    (∃ (s : State), Served s ∧ s.on TB_TOD_CFG_IN_EN = false) ∧
    (∃ (l : List Byte) (s : State), Served s ∧ s.on TB_TOD_CFG_IN_EN = true ∧ todParse l = none) ∧
    (∃ (l : List Byte) (x : Nat) (s : State), Served s ∧ s.on TB_TOD_CFG_IN_EN = true ∧ todParse l = some x) ∧
    (∃ (n : Fin 2) (x : Nat) (l : List Nat) (s : State), Served s ∧ n.val = s.get TB_TOD_CFG_IN_SEL ∧ s.tb.tod = x :: l) ∧
    (∃ (n : Fin 2) (falling : Bool) (s : State), Served s ∧ (falling = true ∨ n.val ≠ s.get TB_TOD_CFG_IN_SEL ∨ s.tb.tod = [])) ∧
    (∃ (x : Nat) (l : List Nat) (s : State), Served s ∧ s.tb.tod = x :: l) :=
  ⟨⟨1, true, at_ [(TB_SNAP_CTRL_PPSIN1_EN, 1), (TB_SNAP_CTRL_PPSIN1_FALL, 1)], by unfold Served; decide +kernel⟩,
    ⟨0, false, run, by unfold Served; decide +kernel⟩,
    ⟨run, by unfold Served; decide +kernel⟩,
    ⟨[0x24], at_ [(TB_TOD_CFG_IN_EN, 1)], by unfold Served; decide +kernel⟩,
    ⟨todLine, 0, at_ [(TB_TOD_CFG_IN_EN, 1)], by unfold Served; decide +kernel⟩,
    ⟨0, 7, [9], { run with tb := { tod := [7, 9] } }, by unfold Served; decide +kernel⟩,
    ⟨1, false, { run with tb := { tod := [7] } }, by unfold Served; decide +kernel⟩,
    ⟨7, [9], { run with tb := { tod := [7, 9] } }, by unfold Served; decide +kernel⟩⟩

theorem witness_pulses_in_and_time_of_day_2 :
    (∃ (s : State), Served s ∧ s.tb.tod = []) ∧
    (∃ (n : Nat) (s : State), Served s ∧ n = s.get TB_TOD_CFG_OUT_SRC ∧ s.on TB_TOD_CFG_OUT_EN = true ∧ s.on (PPS_OUT_CFG_EN n) = true ∧ (s.ppsRec n).mode = 0 ∧ (s.ppsRec n).gave = true) ∧
    (∃ (s : State), Served s ∧ s.on TB_TOD_CFG_OUT_EN = false) :=
  ⟨⟨run, by unfold Served; decide +kernel⟩,
    ⟨3, { at_ [(TB_TOD_CFG_OUT_EN, 1), (TB_TOD_CFG_OUT_SRC, 3), (PPS_OUT_CFG_EN 3, 1)] with pps := [(3, { gave := true })] }, by unfold Served; decide +kernel⟩,
    ⟨run, by unfold Served; decide +kernel⟩⟩

theorem witness_scheduled_actions :
    (∃ (m : BusMaster) (n : Fin 64) (v : Word) (s : State), Writable m (SCH_ACT_CTRL n) (withField (SCH_ACT_CTRL_DISARM n) 0 (withField (SCH_ACT_CTRL_ARM n) 1 v)) s ∧ s.on (SCH_ACT_CTRL_ARM n) = false) ∧
    (∃ (m : BusMaster) (n : Fin 64) (v : Word) (s : State), Writable m (SCH_ACT_CTRL n) (withField (SCH_ACT_CTRL_DISARM n) 1 v) s) ∧
    (∃ (n : Fin 64) (s : State), s.get (SCH_ACT_CTRL_TYPE n) = 0) ∧
    (∃ (n : Fin 64) (tc : Nat) (s : State), s.get (SCH_ACT_CTRL_TYPE n) ≠ 0 ∧ actPeriodOk s n = true ∧ s.on (SCH_ACT_CTRL_LATE_POLICY n) = false ∧ tc < actTime s n) ∧
    (∃ (n : Fin 64) (s : State), Served s ∧ (s.on (SCH_ACT_CTRL_ARM n) = false ∨ s.tbState = 0)) ∧
    (∃ (n : Fin 64) (s : State), Served s ∧ s.on (SCH_ACT_CTRL_ARM n) = true ∧ s.tb.count < actTime s n ∧ s.nextCount < actTime s n) ∧
    (∃ (n : Fin 64) (s : State), Served s ∧ s.on (SCH_ACT_CTRL_ARM n) = true ∧ s.tbState ≠ 0 ∧ s.tb.count < actTime s n ∧ actTime s n ≤ s.nextCount) ∧
    (∃ (n : Fin 64) (s : State), Served s ∧ s.on (SCH_ACT_CTRL_ARM n) = true ∧ s.tbState ≠ 0 ∧ actTime s n ≤ s.tb.count ∧ s.on (SCH_ACT_CTRL_LATE_POLICY n) = false) :=
  ⟨⟨.pcie, 63, 0x100, run, by unfold Writable; decide +kernel⟩,
    ⟨.pcie, 0, 0x700, run, by unfold Writable; decide +kernel⟩,
    ⟨63, run, by decide +kernel⟩,
    ⟨0, 0, sets [(SCH_ACT_CTRL_TYPE 0, 1)] (run.putWide (SCH_ACT_TIME 0) (tb96Of sec40)), by decide +kernel⟩,
    ⟨63, run, by unfold Served; decide +kernel⟩,
    ⟨63, sets [(SCH_ACT_CTRL_ARM 63, 1)] (run.putWide (SCH_ACT_TIME 63) (tb96Of sec40)), by unfold Served; decide +kernel⟩,
    ⟨0, sets [(SCH_ACT_CTRL_ARM 0, 1), (TB_STATUS_STATE, 2)] (run.putWide (SCH_ACT_TIME 0) 0x10000), by unfold Served; decide +kernel⟩,
    ⟨0, sets [(SCH_ACT_CTRL_ARM 0, 1), (TB_STATUS_STATE, 2)] { run with tb := { count := sec40 } }, by unfold Served; decide +kernel⟩⟩

theorem witness_quad_pll_commands_1 :
    (∃ (m : BusMaster) (q : Fin 16) (v : Word) (s : State), Writable m (LN_QUAD_CFG q) v s) ∧
    (∃ (q : Fin 17) (s : State), Served s ∧ ((s.pllRec q).on && (s.pllRec q).waits && !(s.pllRec q).planDue && s.nominal) = false) ∧
    (∃ (q : Fin 17) (s : State), Served s ∧ ((s.pllRec q).on && (s.pllRec q).waits && !(s.pllRec q).planDue && s.nominal) = true ∧ q.val < 16) ∧
    (∃ (s : State), Served s ∧ ((s.pllRec 16).on && (s.pllRec 16).waits && !(s.pllRec 16).planDue && s.nominal) = true) ∧
    (∃ (q : Fin 17) (s : State), Served s ∧ (s.pllLocked q && s.nominal) = false) ∧
    (∃ (q : Fin 17) (s : State), Served s ∧ s.pllLocked q = true ∧ s.nominal = true ∧ (∀ n ∈ pllLanes q, laneState s n = 0) ∧ s.on (PHA_TXPH_VALID q) = false) ∧
    (∃ (q : Fin 17) (s : State), Served s ∧ (s.nominal = false ∨ (s.pllRec q).on = false ∨ s.pllLocked q = true ∨ ∀ n ∈ pllLanes q, laneState s n = 0)) ∧
    (∃ (q : Fin 17) (n : Nat) (s : State), Served s ∧ s.nominal = true ∧ (s.pllRec q).on = true ∧ s.pllLocked q = false ∧ n ∈ pllLanes q ∧ laneState s n ≠ 0) :=
  ⟨⟨.pcie, 15, 2, at_ [(SYN_QPLL_PLAN_N 15 0, rateN 2)], by unfold Writable; decide +kernel⟩,
    ⟨16, run, by unfold Served; decide +kernel⟩,
    ⟨15, { run with plls := [(15, { on := true, waits := true })] }, by unfold Served; decide +kernel⟩,
    ⟨{ run with plls := [(16, { on := true, waits := true })] }, by unfold Served; decide +kernel⟩,
    ⟨0, run, by unfold Served; decide +kernel⟩,
    ⟨16, { run with plls := [(16, { on := true })] }, by unfold Served; decide +kernel⟩,
    ⟨0, run, by unfold Served; decide +kernel⟩,
    ⟨16, 64, { at_ [(LN_STATUS_STATE 64, 1)] with plls := [(16, { on := true, waits := true })] }, by unfold Served; decide +kernel⟩⟩

theorem witness_quad_pll_commands_2 :
    ∃ (q : Fin 17) (s : State), (s.pllRec q).on = false ∧ planOk s q = true :=
  ⟨16, run, by decide +kernel⟩

theorem witness_lane_state_commands_1 :
    (∃ (m : BusMaster) (n : Fin 65) (v : Word) (s : State), Writable m (LN_CTRL n) (withField (LN_CTRL_EN n) 1 v) s) ∧
    (∃ (m : BusMaster) (n : Fin 65) (v : Word) (s : State), Writable m (LN_CTRL n) (withField (LN_CTRL_EN n) 0 v) s) ∧
    (∃ (n : Fin 65) (s : State), Served s ∧ s.nominal = true ∧ (laneLooped s n && laneIdle s n) = false ∧ laneState s n = 1) ∧
    (∃ (n : Fin 65) (s : State), Served s ∧ laneState s n = 2) ∧
    (∃ (n : Fin 65) (s : State), Served s ∧ s.nominal = true ∧ laneState s n = 2 ∧ s.cdrLock n = false ∧ (s.laneRec n).fails < 7) ∧
    (∃ (n : Fin 65) (l : List TrainFrame) (t : TrainFrame) (s : State), Served s ∧ laneState s n = 4 ∧ laneLooped s n = false ∧ l.getLast? = some t ∧ t.ready = true) ∧
    (∃ (n : Fin 65) (l : List TrainFrame) (t : TrainFrame) (s : State), Served s ∧ laneState s n = 4 ∧ laneLooped s n = false ∧ l.getLast? = some t ∧ t.ready = false) ∧
    (∃ (n : Fin 65) (l : List TrainFrame) (t : TrainFrame) (s : State), Served s ∧ laneState s n = 4 ∧ laneLooped s n = true ∧ l.getLast? = some t ∧ t.ready = true) :=
  ⟨⟨.pcie, 64, 0x13000, run, by unfold Writable; decide +kernel⟩,
    ⟨.spi, 0, 0x13000, run, by unfold Writable; decide +kernel⟩,
    ⟨64, at_ [(LN_STATUS_STATE 64, 1)], by unfold Served; decide +kernel⟩,
    ⟨0, at_ [(LN_STATUS_STATE 0, 2)], by unfold Served; decide +kernel⟩,
    ⟨0, { at_ [(LN_STATUS_STATE 0, 2)] with lanes := [(0, { fails := 6 })] }, by unfold Served; decide +kernel⟩,
    ⟨64, [⟨false, false, .hold, .hold, .hold, true⟩], ⟨false, false, .hold, .hold, .hold, true⟩, at_ [(LN_STATUS_STATE 64, 4)], by unfold Served; decide +kernel⟩,
    ⟨64, [⟨true, false, .hold, .hold, .hold, false⟩], ⟨true, false, .hold, .hold, .hold, false⟩, at_ [(LN_STATUS_STATE 64, 4)], by unfold Served; decide +kernel⟩,
    ⟨64, [⟨true, false, .hold, .hold, .hold, true⟩], ⟨true, false, .hold, .hold, .hold, true⟩, at_ [(LN_STATUS_STATE 64, 4), (LN_CTRL_LOOPBACK 64, 1)], by unfold Served; decide +kernel⟩⟩

theorem witness_lane_state_commands_2 :
    (∃ (t : TrainFrame), t.preset = true) ∧
    (∃ (t : TrainFrame), t.preset = false ∧ t.initial = false ∧ t.pre = .hold ∧ t.post = .hold ∧ t.main = .decrement) ∧
    (∃ (n : Fin 65) (s : State), Served s ∧ s.nominal = true ∧ laneState s n = 4) ∧
    (∃ (n : Fin 65) (s : State), Served s ∧ (laneLooped s n && !laneIdle s n) = true) ∧
    (∃ (n : Fin 65) (s : State), Served s ∧ s.nominal = true ∧ (laneLooped s n && !laneIdle s n) = false ∧ laneState s n = 4) ∧
    (∃ (n : Fin 65) (x : LossCause) (s : State), Served s ∧ s.nominal = true ∧ x ≠ .signal ∧ laneState s n = 5) ∧
    (∃ (n : Fin 65) (s : State), Served s ∧ s.nominal = true ∧ (laneLooped s n && !laneIdle s n) = false ∧ laneState s n = 5) ∧
    (∃ (n : Fin 65) (s : State), Served s ∧ s.nominal = true ∧ laneState s n ≠ 4 ∧ laneState s n ≠ 5) :=
  ⟨⟨⟨true, false, .hold, .hold, .hold, false⟩, by rfl⟩,
    ⟨⟨false, false, .hold, .decrement, .hold, false⟩, by decide +kernel⟩,
    ⟨0, at_ [(LN_STATUS_STATE 0, 4)], by unfold Served; decide +kernel⟩,
    ⟨64, { at_ [(LN_STATUS_STATE 64, 1), (LN_CTRL_LOOPBACK 64, 1)] with plls := [(16, { on := true })] }, by unfold Served; decide +kernel⟩,
    ⟨0, at_ [(LN_STATUS_STATE 0, 4)], by unfold Served; decide +kernel⟩,
    ⟨64, .cdr, at_ [(LN_STATUS_STATE 64, 5)], by unfold Served; decide +kernel⟩,
    ⟨64, at_ [(LN_STATUS_STATE 64, 5)], by unfold Served; decide +kernel⟩,
    ⟨0, at_ [(LN_STATUS_STATE 0, 3)], by unfold Served; decide +kernel⟩⟩

theorem witness_lane_state_commands_3 :
    (∃ (n : Fin 65) (lat : List LaneLat) (s : State), Served s ∧ (lat.length ≠ (laneGroup s n).length ∨ ∃ k ∈ laneGroup s n, laneState s k ≠ 3)) ∧
    (∃ (n : Fin 65) (lat : List LaneLat) (s : State), Served s ∧ lat.length = (laneGroup s n).length ∧ (∀ k ∈ laneGroup s n, laneState s k = 3) ∧ (∀ l ∈ lat, l.deskew.val ≤ 4800)) ∧
    (∃ (n : Fin 65) (s : State), Served s ∧ s.nominal = true ∧ laneState s n = 3) ∧
    (∃ (n : Fin 65) (s : State), Served s ∧ s.nominal = true ∧ laneState s n = 5) ∧
    (∃ (n : Fin 65) (lat : List LaneLat) (x : LossCause) (s : State) (i : _), Served s ∧ s.nominal = false ∧ i ∈ ([.laneSignalDetected n, .cdrTimeout n, .trainFallback n, .alignTimeout n, .laneBackoffReset n, .laneLossOfSignal n x, .laneSwitchForce n lat] : List Instr)) ∧
    (∃ (n : Fin 65) (s : State), Served s ∧ laneState s n ≠ 1) ∧
    (∃ (n : Fin 65) (s : State), Served s ∧ laneState s n ≠ 2) ∧
    (∃ (n : Fin 65) (s : State), Served s ∧ laneState s n ≠ 4) :=
  ⟨⟨63, [⟨0, 0, 0⟩], at_ [(LN_QUAD_CFG_RATE 15, 3)], by unfold Served; decide +kernel⟩,
    ⟨62, List.replicate 4 ⟨65, 64, 4800⟩, at_ [(LN_QUAD_CFG_RATE 15, 3), (LN_STATUS_STATE 60, 3), (LN_STATUS_STATE 61, 3), (LN_STATUS_STATE 62, 3), (LN_STATUS_STATE 63, 3)], by unfold Served; decide +kernel⟩,
    ⟨0, at_ [(LN_STATUS_STATE 0, 3)], by unfold Served; decide +kernel⟩,
    ⟨0, at_ [(LN_STATUS_STATE 0, 5)], by unfold Served; decide +kernel⟩,
    ⟨64, [], .signal, at_ [(SYN_STATUS_SAFE_RATIO, 1)], .laneLossOfSignal 64 .signal, by unfold Served; exact ⟨by decide +kernel, by decide +kernel, by simp⟩⟩,
    ⟨64, run, by unfold Served; decide +kernel⟩,
    ⟨64, run, by unfold Served; decide +kernel⟩,
    ⟨64, run, by unfold Served; decide +kernel⟩⟩

theorem witness_lane_state_commands_4 :
    (∃ (n : Fin 65) (s : State), Served s ∧ laneState s n ≠ 3) ∧
    (∃ (n : Fin 65) (s : State), Served s ∧ laneState s n ≠ 5) :=
  ⟨⟨64, run, by unfold Served; decide +kernel⟩,
    ⟨64, run, by unfold Served; decide +kernel⟩⟩

theorem witness_lane_clocking_commands_1 :
    (∃ (m : BusMaster) (n : Fin 65) (v : Word) (s : State), Writable m (LN_CTRL n) v s) ∧
    (∃ (s : State), Served s) ∧
    (∃ (n : Fin 65) (s : State), Served s ∧ (laneState s n ≠ 5 ∨ s.nominal = false ∨ s.clk < (s.laneRec n).winFrom + winTicks)) ∧
    (∃ (n : Fin 65) (s : State), Served s ∧ laneState s n = 5 ∧ s.nominal = true ∧ (s.laneRec n).winFrom + winTicks ≤ s.clk) ∧
    (∃ (n : Fin 65) (s : State), Served s ∧ laneState s n = 5 ∧ s.on (LN_STATUS_CLOCK_EFF n) = true) ∧
    (∃ (n : Fin 65) (s : State), Served s ∧ (laneState s n ≠ 5 ∨ s.on (LN_STATUS_CLOCK_EFF n) = false)) ∧
    (∃ (n : Fin 65) (lat : List LaneLat) (s : State), Served s ∧ ((s.laneRec (laneHead s n)).switch = none ∨ lat.length ≠ (laneGroup s n).length ∨ laneState s (laneHead s n) ≠ 5)) ∧
    (∃ (n : Fin 65) (lat : List LaneLat) (synt : Bool) (s : State), Served s ∧ (s.laneRec (laneHead s n)).switch = some synt ∧ lat.length = (laneGroup s n).length ∧ laneState s (laneHead s n) = 5) :=
  ⟨⟨.pcie, 64, 0x13002, run, by unfold Writable; decide +kernel⟩,
    ⟨run, by unfold Served; decide +kernel⟩,
    ⟨0, at_ [(LN_STATUS_STATE 0, 5), (SYN_STATUS_SAFE_RATIO, 1)], by unfold Served; decide +kernel⟩,
    ⟨64, { at_ [(LN_STATUS_STATE 64, 5)] with clk := 100000000 }, by unfold Served; decide +kernel⟩,
    ⟨64, at_ [(LN_STATUS_STATE 64, 5), (LN_STATUS_CLOCK_EFF 64, 1)], by unfold Served; decide +kernel⟩,
    ⟨0, at_ [(LN_STATUS_STATE 0, 5)], by unfold Served; decide +kernel⟩,
    ⟨64, [⟨0, 0, 0⟩], run, by unfold Served; decide +kernel⟩,
    ⟨63, List.replicate 4 ⟨0, 0, 0⟩, true, { at_ [(LN_STATUS_STATE 60, 5), (LN_QUAD_CFG_RATE 15, 3)] with lanes := [(60, { switch := some true })] }, by unfold Served; decide +kernel⟩⟩

theorem witness_lane_clocking_commands_2 :
    (∃ (m : BusMaster) (k : Fin 4) (v : Word) (s : State), Writable m (LN_RCS_CFG k) v s) ∧
    (∃ (s : State), Served s ∧ s.nominal = false) ∧
    (∃ (s : State), Served s ∧ s.nominal = true) ∧
    (∃ (k : Fin 4) (s : State), s.on (LN_RCS_CFG_EN k) = true ∧ smGet false s.rcsHeld k = false ∧ s.cdrLock (s.get (LN_RCS_CFG_LANE k)) = true) :=
  ⟨⟨.pcie, 3, 0x140, run, by unfold Writable; decide +kernel⟩,
    ⟨at_ [(SYN_STATUS_SAFE_RATIO, 1)], by unfold Served; decide +kernel⟩,
    ⟨run, by unfold Served; decide +kernel⟩,
    ⟨3, at_ [(LN_RCS_CFG_EN 3, 1), (LN_RCS_CFG_LANE 3, 64), (LN_STATUS_CDR_LOCKED 64, 1)], by decide +kernel⟩⟩

theorem witness_pattern_and_eye_commands_1 :
    (∃ (m : BusMaster) (n : Fin 65) (v : Word) (s : State), Writable m (LN_PRBS_CTRL n) (withField (LN_PRBS_CTRL_GEN_EN n) 1 v) s) ∧
    (∃ (m : BusMaster) (n : Fin 65) (v : Word) (s : State), Writable m (LN_PRBS_CTRL n) (withField (LN_PRBS_CTRL_INJ_SINGLE n) 1 v) s) ∧
    (∃ (n : Fin 65) (s : State), s.on (LN_PRBS_CTRL_GEN_EN n) = true ∧ s.stage = 0) ∧
    (∃ (n : Fin 65) (l : List Bool) (s : State) (i : _), Served s ∧ i ∈ ([.prbsCheckerLock ⟨n, l⟩, .prbsCheckerUnlock n l] : List Instr) ∧ (laneLooped s n = true ∨ s.on (LN_PRBS_CTRL_CHK_EN n) = false ∨ s.stage ≠ 0)) ∧
    (∃ (n : Fin 65) (s : State), Served s ∧ laneLooped s n = false ∧ s.on (LN_PRBS_CTRL_CHK_EN n) = true ∧ s.stage = 0) ∧
    (∃ (n : Fin 65) (k : Nat) (s : State), 2 ^ 48 ≤ s.wide (LN_PRBS_ERR n) % 2 ^ 48 + k) ∧
    (∃ (m : BusMaster) (n : Fin 65) (v : Word) (s : State), Writable m (LN_EYE_CTRL n) (withField (LN_EYE_CTRL_START n) 1 v) s ∧ (s.laneRec n).eye = 0) ∧
    (∃ (n : Fin 65) (s : State), s.cdrLock n = false) :=
  ⟨⟨.pcie, 64, 0x450, run, by unfold Writable; decide +kernel⟩,
    ⟨.pcie, 0, 0x450, run, by unfold Writable; decide +kernel⟩,
    ⟨64, at_ [(LN_PRBS_CTRL_GEN_EN 64, 1)], by decide +kernel⟩,
    ⟨0, [], at_ [(LN_PRBS_CTRL_CHK_EN 0, 1), (PWR_STATUS_STAGE, 1)], .prbsCheckerLock ⟨0, []⟩, by unfold Served; exact ⟨by decide +kernel, by simp, by decide +kernel⟩⟩,
    ⟨64, at_ [(LN_PRBS_CTRL_CHK_EN 64, 1)], by unfold Served; decide +kernel⟩,
    ⟨64, 2 ^ 48, run, by decide +kernel⟩,
    ⟨.pcie, 64, 0xA0000, run, by unfold Writable; decide +kernel⟩,
    ⟨0, run, by decide +kernel⟩⟩

theorem witness_pattern_and_eye_commands_2 :
    (∃ (n : Fin 65) (s : State), s.cdrLock n = true ∧ s.stage ≠ 0) ∧
    (∃ (n : Fin 65) (s : State), s.cdrLock n = true ∧ s.stage = 0) ∧
    (∃ (n : Fin 65) (s : State), Served s ∧ (s.laneRec n).eye = 1) ∧
    (∃ (n : Fin 65) (s : State), Served s ∧ (s.laneRec n).eye ≠ 1) :=
  ⟨⟨0, at_ [(LN_STATUS_CDR_LOCKED 0, 1), (PWR_STATUS_STAGE, 3)], by decide +kernel⟩,
    ⟨64, at_ [(LN_STATUS_CDR_LOCKED 64, 1)], by decide +kernel⟩,
    ⟨64, { run with lanes := [(64, { eye := 1 })] }, by unfold Served; decide +kernel⟩,
    ⟨0, { run with lanes := [(0, { eye := 2 })] }, by unfold Served; decide +kernel⟩⟩

theorem witness_port_commands_1 :
    (∃ (m : BusMaster) (p : Fin 66) (v : Word) (s : State), Writable m (MAC_CFG p) (withField (MAC_CFG_EN p) 1 v) s) ∧
    (∃ (m : BusMaster) (p : Fin 66) (v : Word) (s : State), Writable m (MAC_CFG p) (withField (MAC_CFG_EN p) 0 v) s) ∧
    (∃ (p : Fin 66) (s : State), portState s p = 0 ∧ s.on (MAC_STATUS_FLUSH_BUSY p) = true) ∧
    (∃ (p : Fin 66) (s : State), portErrors s p ≠ [] ∧ portState s p = 0 ∧ s.on (MAC_STATUS_FLUSH_BUSY p) = false) ∧
    (∃ (p : Fin 66) (s : State), Served s ∧ portState s p = 1 ∧ portLinked s p = true) ∧
    (∃ (p : Fin 66) (s : State), Served s ∧ (portState s p ≠ 1 ∨ portLinked s p = false)) ∧
    (∃ (p : Fin 66) (s : State), Served s ∧ portState s p = 2 ∧ portLinked s p = true) ∧
    (∃ (p : Fin 66) (s : State), Served s ∧ portState s p = 2 ∧ portLinked s p = false) :=
  ⟨⟨.pcie, 65, 0x25800100, run, by unfold Writable; decide +kernel⟩,
    ⟨.pcie, 0, 0x25800100, run, by unfold Writable; decide +kernel⟩,
    ⟨0, at_ [(MAC_STATUS_FLUSH_BUSY 0, 1)], by decide +kernel⟩,
    ⟨65, at_ [(MAC_CFG_FEC 65, 1)], by decide +kernel⟩,
    ⟨65, at_ [(MAC_STATUS_STATE 65, 1), (LN_STATUS_STATE 64, 5)], by unfold Served; decide +kernel⟩,
    ⟨65, at_ [(MAC_STATUS_STATE 65, 1)], by unfold Served; decide +kernel⟩,
    ⟨0, at_ [(MAC_STATUS_STATE 0, 2), (LN_STATUS_STATE 0, 5)], by unfold Served; decide +kernel⟩,
    ⟨0, at_ [(MAC_STATUS_STATE 0, 2)], by unfold Served; decide +kernel⟩⟩

theorem witness_port_commands_2 :
    (∃ (p : Fin 66) (s : State), Served s ∧ portState s p ≠ 2) ∧
    (∃ (p : Fin 66) (s : State), Served s ∧ s.on (MAC_STATUS_FLUSH_BUSY p) = false) ∧
    (∃ (p : Fin 66) (s : State), Served s ∧ s.on (MAC_STATUS_FLUSH_BUSY p) = true ∧ portState ((portFlushEnd p s).ev (MAC_EVENT_FLUSH_DONE p)) p = 3) ∧
    (∃ (p : Fin 66) (s : State), Served s ∧ s.on (MAC_STATUS_FLUSH_BUSY p) = true ∧ (portState ((portFlushEnd p s).ev (MAC_EVENT_FLUSH_DONE p)) p = 1 ∨ portState ((portFlushEnd p s).ev (MAC_EVENT_FLUSH_DONE p)) p = 2 ∨ portState ((portFlushEnd p s).ev (MAC_EVENT_FLUSH_DONE p)) p = 4)) ∧
    (∃ (p : Fin 66) (s : State), Served s ∧ p.val < 64 ∧ s.get (XC_PORT_STATUS_VERIFY p) = 1) ∧
    (∃ (p : Fin 66) (s : State), Served s ∧ (64 ≤ p.val ∨ s.get (XC_PORT_STATUS_VERIFY p) ≠ 1)) :=
  ⟨⟨64, run, by unfold Served; decide +kernel⟩,
    ⟨65, run, by unfold Served; decide +kernel⟩,
    ⟨0, at_ [(MAC_STATUS_STATE 0, 3), (MAC_STATUS_FLUSH_BUSY 0, 1)], by unfold Served; decide +kernel⟩,
    ⟨65, at_ [(MAC_STATUS_STATE 65, 4), (MAC_STATUS_FLUSH_BUSY 65, 1)], by unfold Served; decide +kernel⟩,
    ⟨63, at_ [(XC_PORT_STATUS_VERIFY 63, 1)], by unfold Served; decide +kernel⟩,
    ⟨64, run, by unfold Served; decide +kernel⟩⟩

theorem witness_frame_commands_1 :
    (∃ (i : Instr) (rx : RxWindow) (l : List Byte) (b : Bool) (tx : TxTiming) (mp : MPacket) (s : State), s.inReset = false ∧ i ∈ ([.frameDecision 64 rx, .frameEnd 64 l b, .egressSchedule 64 tx, .mpacketRx 64 mp, .xcLaunch 64 tx] : List Instr)) ∧
    (∃ (p : Fin 66) (s : State), s.inReset = false ∧ p ≠ 64 ∧ portLooped s p = false ∧ s.gated = true) ∧
    (∃ (p : Fin 66) (s : State), s.inReset = false ∧ portLooped s p = false ∧ s.gated = false ∧ s.portUp p = false) ∧
    (∃ (p : Fin 66) (rx : RxWindow) (s : State), s.inReset = false ∧ p ≠ 64 ∧ portLooped s p = false ∧ s.gated = false ∧ s.portUp p = true ∧ (s.portRec p).rx = none ∧ rx.eb = [] ∧ rx.ended = false) ∧
    (∃ (p : Fin 66) (rx : RxWindow) (s : State), s.inReset = false ∧ p ≠ 64 ∧ portLooped s p = false ∧ s.gated = false ∧ s.portUp p = true ∧ (s.portRec p).rx = none ∧ rx.eb = [] ∧ rx.ended = true) ∧
    (∃ (p : Fin 66) (s : State), s.inReset = false ∧ portLooped s p = true ∧ (∀ b t, (s.portRec p).looped ≠ (false, b) :: t)) ∧
    (∃ (p : Fin 66) (b : List Byte) (t : List (Bool × List Byte)) (s : State), s.inReset = false ∧ portLooped s p = true ∧ (s.portRec p).looped = (false, b) :: t) ∧
    (∃ (p : Fin 66) (s : State), s.inReset = false ∧ p ≠ 64 ∧ s.gated = true) :=
  ⟨⟨.xcLaunch 64 ⟨0, 0, 0, 0⟩, ⟨List.replicate 128 0, false, false, ⟨0, 0, 0, 0⟩, []⟩, [], false, ⟨0, 0, 0, 0⟩, ⟨[], ⟨0, 0, 0, 0⟩, []⟩, run, by decide +kernel⟩,
    ⟨65, at_ [(SYN_STATUS_GATED, 1)], by decide +kernel⟩,
    ⟨0, run, by decide +kernel⟩,
    ⟨65, ⟨List.replicate 128 0, false, false, ⟨0, 0, 0, 0⟩, []⟩, at_ [(MAC_STATUS_STATE 65, 4)], by decide +kernel⟩,
    ⟨0, ⟨[], true, false, ⟨0, 0, 0, 0⟩, []⟩, at_ [(MAC_STATUS_STATE 0, 4)], by decide +kernel⟩,
    ⟨65, at_ [(LN_CTRL_LOOPBACK 64, 1)], by exact ⟨by decide +kernel, by decide +kernel, fun b t h => by rw [show ((at_ [(LN_CTRL_LOOPBACK 64, 1)]).portRec (65 : Fin 66)).looped = [] by decide +kernel] at h; cases h⟩⟩,
    ⟨65, [], [], { at_ [(LN_CTRL_LOOPBACK 64, 1)] with ports := [(65, { looped := [(false, [])] })] }, by decide +kernel⟩,
    ⟨65, at_ [(SYN_STATUS_GATED, 1)], by decide +kernel⟩⟩

theorem witness_frame_commands_2 :
    (∃ (p : Fin 66) (s : State), s.inReset = false ∧ s.gated = false ∧ (s.portRec p).rx = none) ∧
    (∃ (p : Fin 66) (f : Nat) (s : State), s.inReset = false ∧ p ≠ 64 ∧ s.gated = false ∧ (s.portRec p).rx = some f) ∧
    (∃ (s : State), s.inReset = false ∧ s.gated = true) ∧
    (∃ (p : Fin 66) (s : State), s.inReset = false ∧ p ≠ 64 ∧ s.gated = false ∧ egressFree (txAdvance p 0 s) p = false) ∧
    (∃ (p : Fin 66) (x : TxRec) (s : State), (s.portRec p).tx = none ∧ (s.portRec p).held = some x ∧ (s.portRec p).launches = []) ∧
    (∃ (p : Fin 66) (s : State) (t : _) (o l : _), s.inReset = false ∧ egressFree (txAdvance p 0 s) p = true ∧ s.gated = false ∧ t = creditSyncPort p (forEach (List.range 8) (fun q s => residenceOf (8 * p + q) (queueJoin (8 * p + q) s)) (txAdvance p 0 s)) ∧ (t.portRec p).ferry = o :: l ∧ launchRoom t p ((o.bytes.length + 4) * byteTime (t.rate p)) false = true) ∧
    (∃ (p : Fin 66) (s : State) (t : _) (q c : _), s.inReset = false ∧ egressFree (txAdvance p 0 s) p = true ∧ s.gated = false ∧ t = creditSyncPort p (forEach (List.range 8) (fun q s => residenceOf (8 * p + q) (queueJoin (8 * p + q) s)) (txAdvance p 0 s)) ∧ (t.portRec p).ferry = [] ∧ (pick p t).1 = some q ∧ eligible (pick p t).2 (8 * p + q) = some c) ∧
    (∃ (s : State), s.inReset = false ∧ s.gated = true) :=
  ⟨⟨0, run, by decide +kernel⟩,
    ⟨65, 0, { run with ports := [(65, { rx := some 0 })] }, by decide +kernel⟩,
    ⟨at_ [(SYN_STATUS_GATED, 1), (SYN_STATUS_LOCKED, 0)], by decide +kernel⟩,
    ⟨0, run, by decide +kernel⟩,
    ⟨65, { copy := none }, { run with ports := [(65, { held := some { copy := none } })] }, by decide +kernel⟩,
    ⟨65, { at_ [(MAC_STATUS_STATE 65, 4)] with ports := [(65, { ferry := [{ bytes := [] }] })] }, creditSyncPort (65 : Fin 66) (forEach (List.range 8) (fun q s => residenceOf (8 * (65 : Fin 66) + q) (queueJoin (8 * (65 : Fin 66) + q) s)) (txAdvance (65 : Fin 66) 0 ({ at_ [(MAC_STATUS_STATE 65, 4)] with ports := [(65, { ferry := [{ bytes := [] }] })] } : State))), { bytes := [] }, [], by exact ⟨by decide +kernel, by decide +kernel, by decide +kernel, rfl, by decide +kernel, by decide +kernel⟩⟩,
    ⟨65, { at_ [(MAC_STATUS_STATE 65, 4), (QM_PORT_GATE_OPER_GATES 65, 255)] with frames := [(0, { live := true, bytes := List.replicate 64 0, tail := true, cells := [0] })], copies := [(0, { frame := 0 })], queues := [(527, { copies := [0], head := [⟨0, 0, 0⟩] })] }, creditSyncPort (65 : Fin 66) (forEach (List.range 8) (fun q s => residenceOf (8 * (65 : Fin 66) + q) (queueJoin (8 * (65 : Fin 66) + q) s)) (txAdvance (65 : Fin 66) 0 ({ at_ [(MAC_STATUS_STATE 65, 4), (QM_PORT_GATE_OPER_GATES 65, 255)] with frames := [(0, { live := true, bytes := List.replicate 64 0, tail := true, cells := [0] })], copies := [(0, { frame := 0 })], queues := [(527, { copies := [0], head := [⟨0, 0, 0⟩] })] } : State))), 7, 0, by exact ⟨by decide +kernel, by decide +kernel, by decide +kernel, rfl, by decide +kernel, by decide +kernel, by decide +kernel⟩⟩,
    ⟨at_ [(SYN_STATUS_GATED, 1), (SYN_STATUS_LOCKED, 0)], by decide +kernel⟩⟩

theorem witness_frame_commands_3 :
    (∃ (p : Fin 66) (mp : MPacket) (s : State), s.inReset = false ∧ (s.portUp p = false ∨ preemptOn s p = false) ∧ mp.eb = []) ∧
    (∃ (p : Fin 66) (s : State), s.inReset = false ∧ p ≠ 64 ∧ s.portUp p = true ∧ preemptOn s p = true ∧ s.gated = false ∧ portLooped s p = false ∧ (s.portRec p).fragOpen = false) ∧
    (∃ (p : Fin 66) (k : Fin 4) (s : State), s.inReset = false ∧ p ≠ 64 ∧ s.portUp p = true ∧ preemptOn s p = true ∧ s.gated = false ∧ portLooped s p = false ∧ (s.portRec p).fragOpen = true ∧ (s.portRec p).fragNum = k.val ∧ (s.portRec p).fragCount < 4) ∧
    (∃ (p : Fin 66) (s : State), s.inReset = false ∧ p ≠ 64 ∧ s.portUp p = true ∧ preemptOn s p = true ∧ s.gated = false ∧ portLooped s p = false) ∧
    (∃ (p : Fin 66) (s : State), s.inReset = false ∧ (s.gated = true ∨ (s.portRec p).launches.find? (fun l => !l.launched) = none)) ∧
    (∃ (p : Fin 66) (l : LaunchRec) (s : State), s.inReset = false ∧ (s.portRec p).launches.find? (fun l => !l.launched) = some l ∧ 5 * (s.clk : Int) + 5 ≤ l.at_) ∧
    (∃ (p : Fin 66) (l : LaunchRec) (s : State), s.inReset = false ∧ p ≠ 64 ∧ s.gated = false ∧ (s.portRec p).launches.find? (fun l => !l.launched) = some l ∧ l.at_ < 5 * (s.clk : Int) + 5 ∧ s.tbState = 0) ∧
    (∃ (p : Fin 66) (l : LaunchRec) (s : State), s.inReset = false ∧ p ≠ 64 ∧ s.gated = false ∧ (s.portRec p).launches.find? (fun l => !l.launched) = some l ∧ l.at_ < 5 * (s.clk : Int) + 5 ∧ s.tbState ≠ 0) :=
  ⟨⟨65, ⟨[], ⟨0, 0, 0, 0⟩, []⟩, run, by decide +kernel⟩,
    ⟨0, at_ [(MAC_STATUS_STATE 0, 4), (XC_PORT_CFG_PREEMPT 0, 1), (LN_QUAD_CFG_RATE 0, 1)], by decide +kernel⟩,
    ⟨0, 3, { at_ [(MAC_STATUS_STATE 0, 4), (XC_PORT_CFG_PREEMPT 0, 1), (LN_QUAD_CFG_RATE 0, 1)] with ports := [(0, { fragOpen := true, fragNum := 3, fragCount := 3 })] }, by decide +kernel⟩,
    ⟨0, at_ [(MAC_STATUS_STATE 0, 4), (XC_PORT_CFG_PREEMPT 0, 1), (LN_QUAD_CFG_RATE 0, 1)], by decide +kernel⟩,
    ⟨65, run, by decide +kernel⟩,
    ⟨65, ⟨0, 0, 5, 0, false⟩, { at_ [(MAC_STATUS_STATE 65, 4)] with ports := [(65, { launches := [⟨0, 0, 5, 0, false⟩] })] }, by decide +kernel⟩,
    ⟨0, ⟨0, 0, 4, 0, false⟩, { at_ [(MAC_STATUS_STATE 0, 4)] with ports := [(0, { launches := [⟨0, 0, 4, 0, false⟩] })] }, by decide +kernel⟩,
    ⟨0, ⟨0, 0, 4, 0, false⟩, { at_ [(MAC_STATUS_STATE 0, 4), (TB_STATUS_STATE, 2)] with ports := [(0, { launches := [⟨0, 0, 4, 0, false⟩] })] }, by decide +kernel⟩⟩

theorem witness_phase_commands_1 :
    (∃ (n : Fin 80) (s : State), Served s ∧ (n.val = 78 → s.on CAL_STATUS_CH78_BUSY = false) ∧ (s.phaRec n).lostAt ≠ some s.clk) ∧
    (∃ (n : Fin 80) (s : State), Served s ∧ (n.val = 78 → s.on CAL_STATUS_CH78_BUSY = false) ∧ (s.phaRec n).lostAt ≠ some s.clk ∧ chanRuns s n = false) ∧
    (∃ (s : State), Served s ∧ s.on CAL_STATUS_CH78_BUSY = true) ∧
    (∃ (n : Fin 80) (s : State), Served s ∧ (s.phaRec n).lostAt = some s.clk) ∧
    (∃ (n : Fin 80) (i r : Int) (is rs : List Int) (s : State), Served s ∧ (n.val = 78 → s.on CAL_STATUS_CH78_BUSY = false) ∧ (s.phaRec n).lostAt ≠ some s.clk ∧ chanRuns s n = true ∧ smGet none s.cal.thresh n = none ∧ (deglitch (s.get (PHA_CH_DG_THRESH n)) i 1 is).2 ≤ 64 ∧ (deglitch (s.get (PHA_CH_DG_THRESH n)) r 1 rs).2 ≤ 64 ∧ ((deglitch (s.get (PHA_CH_DG_THRESH n)) i 1 is).2 % 2 = 0 ∨ (deglitch (s.get (PHA_CH_DG_THRESH n)) r 1 rs).2 % 2 = 0)) ∧
    (∃ (n : Fin 80) (i r : Int) (is rs : List Int) (s : State), Served s ∧ (n.val = 78 → s.on CAL_STATUS_CH78_BUSY = false) ∧ (s.phaRec n).lostAt ≠ some s.clk ∧ chanRuns s n = true ∧ smGet none s.cal.thresh n = none ∧ (64 < (deglitch (s.get (PHA_CH_DG_THRESH n)) i 1 is).2 ∨ 64 < (deglitch (s.get (PHA_CH_DG_THRESH n)) r 1 rs).2)) ∧
    (∃ (n : Fin 80) (i r : Int) (is rs : List Int) (s : State), Served s ∧ n.val < 78 ∧ (s.phaRec n).lostAt ≠ some s.clk ∧ chanRuns s n = true ∧ smGet none s.cal.thresh n = none ∧ (deglitch (s.get (PHA_CH_DG_THRESH n)) i 1 is).2 ≤ 64 ∧ (deglitch (s.get (PHA_CH_DG_THRESH n)) r 1 rs).2 ≤ 64 ∧ (deglitch (s.get (PHA_CH_DG_THRESH n)) i 1 is).2 % 2 = 1 ∧ (deglitch (s.get (PHA_CH_DG_THRESH n)) r 1 rs).2 % 2 = 1 ∧ (s.phaRec n).last = none ∧ (s.phaRec n).recent = []) ∧
    (∃ (c : Fin 80) (v : Nat) (s : State), smGet none s.cal.thresh c = some v ∧ (s.phaRec c).hostAt ≠ some s.clk ∧ v < 2 ^ (PHA_CH_DG_THRESH c).width) :=
  ⟨⟨78, run, by unfold Served; decide +kernel⟩,
    ⟨72, run, by unfold Served; decide +kernel⟩,
    ⟨at_ [(CAL_STATUS_CH78_BUSY, 1)], by unfold Served; decide +kernel⟩,
    ⟨64, { run with pha := [(64, { lostAt := some 0 })] }, by unfold Served; decide +kernel⟩,
    ⟨0, 0, 0, [], [1], at_ [(LN_STATUS_CDR_LOCKED 0, 1)], by unfold Served; decide +kernel⟩,
    ⟨0, 0, 0, (List.range 64).map (fun k => (k : Int)), [], at_ [(LN_STATUS_CDR_LOCKED 0, 1)], by unfold Served; decide +kernel⟩,
    ⟨64, 0, 0, (List.range 62).map (fun k => (k : Int)), [], at_ [(LN_STATUS_CDR_LOCKED 64, 1)], by unfold Served; decide +kernel⟩,
    ⟨79, 255, { run with cal := { thresh := [(79, some 255)] } }, by decide +kernel⟩⟩

theorem witness_phase_commands_2 :
    (∃ (q : Fin 17) (s : State), Served s ∧ surveyDue s = some q.val) ∧
    (∃ (q : Fin 17) (s : State), Served s ∧ surveyDue s ≠ some q.val) ∧
    (∃ (m : BusMaster) (n : Fin 80) (v : Word) (s : State), Writable m (PHA_CH_CFG n) v s) ∧
    (∃ (m : BusMaster) (p : Fin 66) (v : Word) (s : State), p ≠ 64 ∧ Writable m (PHA_PORT_TRIM_TX p) v s) ∧
    (∃ (m : BusMaster) (p : Fin 66) (v : Word) (s : State), p ≠ 64 ∧ Writable m (PHA_PORT_TRIM_RX p) v s) ∧
    (∃ (m : BusMaster) (s : State), s.inReset = false ∧ served s m = true ∧ s.gated = false ∧ privOf s m ≠ 0) :=
  ⟨⟨15, at_ [(LN_QUAD_STATUS_PLL_LOCKED 15, 1)], by unfold Served; decide +kernel⟩,
    ⟨16, run, by unfold Served; decide +kernel⟩,
    ⟨.pcie, 79, 0x100, run, by unfold Writable; decide +kernel⟩,
    ⟨.pcie, 65, 0xFFFFFFFF, run, by unfold Writable; decide +kernel⟩,
    ⟨.pcie, 0, 1, run, by unfold Writable; decide +kernel⟩,
    ⟨.pcie, run, by decide +kernel⟩⟩

theorem witness_ferryman_enables_and_resets_1 :
    (∃ (m : BusMaster) (v : Word) (s : State), Writable m FM_CTRL (withField FM_CTRL_EN 1 v) s) ∧
    (∃ (m : BusMaster) (v : Word) (s : State), Writable m FM_CTRL (withField FM_CTRL_EN 0 v) s) ∧
    (∃ (m : BusMaster) (v : Word) (s : State), Writable m FM_CTRL (withField FM_CTRL_RESET 1 v) s) ∧
    (∃ (m : BusMaster) (d : Fin 4) (v : Word) (s : State), Writable m (FM_DOM_CFG d) (withField (FM_DOM_CFG_EN d) 1 v) s) ∧
    (∃ (m : BusMaster) (d : Fin 4) (v : Word) (s : State), Writable m (FM_DOM_CFG d) (withField (FM_DOM_CFG_EN d) 0 v) s) ∧
    (∃ (m : BusMaster) (k : Fin 512) (v : Word) (s : State), Writable m (FM_SESS_CFG k) (withField (FM_SESS_CFG_EN k) 1 v) s) ∧
    (∃ (m : BusMaster) (k : Fin 512) (v : Word) (s : State), Writable m (FM_SESS_CFG k) (withField (FM_SESS_CFG_EN k) 0 v) s) ∧
    (∃ (s : State), Served s ∧ s.on FM_STATUS_RESETTING = true) :=
  ⟨⟨.pcie, 0, run, by unfold Writable; decide +kernel⟩,
    ⟨.pcie, 0, run, by unfold Writable; decide +kernel⟩,
    ⟨.pcie, 1, run, by unfold Writable; decide +kernel⟩,
    ⟨.pcie, 3, 0x7F000010, run.putWide (FM_DOM_ID 3) 1, by unfold Writable; decide +kernel⟩,
    ⟨.pcie, 0, 0x10, run, by unfold Writable; decide +kernel⟩,
    ⟨.pcie, 511, 0x80040040, run, by unfold Writable; decide +kernel⟩,
    ⟨.pcie, 0, 0x80040040, run, by unfold Writable; decide +kernel⟩,
    ⟨at_ [(FM_STATUS_RESETTING, 1)], by unfold Served; decide +kernel⟩⟩

theorem witness_ferryman_enables_and_resets_2 :
    (∃ (s : State), Served s ∧ s.on FM_STATUS_RESETTING = false) ∧
    (∃ (k : Fin 512) (s : State), Served s ∧ (sessState s k = 3 ∨ sessState s k = 2 ∨ (s.sessRec k).committed = false)) ∧
    (∃ (k : Fin 512) (s : State), Served s ∧ sessState s k ≠ 3 ∧ sessState s k ≠ 2 ∧ (s.sessRec k).committed = true) ∧
    (∃ (k : Fin 512) (s : State), sessRefusal s k ≠ 0 ∧ sessWanted s k = true ∧ (s.sessRec k).committed = false ∧ s.on (FM_SESS_STATUS_SUSPENDED k) = false) :=
  ⟨⟨run, by unfold Served; decide +kernel⟩,
    ⟨511, run, by unfold Served; decide +kernel⟩,
    ⟨511, { at_ [(FM_SESS_STATUS_STATE 511, 6)] with sess := [(511, { committed := true })] }, by unfold Served; decide +kernel⟩,
    ⟨0, at_ [(FM_SESS_CFG_EN 0, 1), (FM_DOM_CFG_EN 0, 1), (FM_CTRL_EN, 1), (FM_SESS_CFG_PORT 0, 64)], by decide +kernel⟩⟩

theorem witness_ferryman_messages_received_1 :
    (∃ (e : _) (s : State), (e ∈ ([(.syncRx, 0, syncRx), (.followUpRx, 8, followUpRx), (.delayReqRx, 1, delayReqRx), (.delayRespRx, 9, delayRespRx), (.pdelayReqRx, 2, pdelayReqRx), (.pdelayRespRx, 3, pdelayRespRx), (.pdelayRespFollowUpRx, 10, pdelayFuRx), (.announceRx, 11, announceRx), (.signalingRx, 12, signalingRx)] : List (Instr × Nat × (PtpMsg → State → State)))) ∧ Served s ∧ s.fm.rxq = []) ∧
    (∃ (e : _) (s : State) (m l : _), (e ∈ ([(.syncRx, 0, syncRx), (.followUpRx, 8, followUpRx), (.delayReqRx, 1, delayReqRx), (.delayRespRx, 9, delayRespRx), (.pdelayReqRx, 2, pdelayReqRx), (.pdelayRespRx, 3, pdelayRespRx), (.pdelayRespFollowUpRx, 10, pdelayFuRx), (.announceRx, 11, announceRx), (.signalingRx, 12, signalingRx)] : List (Instr × Nat × (PtpMsg → State → State)))) ∧ Served s ∧ s.fm.rxq = m :: l ∧ (m.ty ≠ e.2.1 ∨ s.on FM_STATUS_RESETTING = true ∨ (s.fm.timersTurn = true ∧ s.fm.timerq ≠ []))) ∧
    (∃ (e : _) (s : State) (m l : _), (e ∈ ([(.syncRx, 0, syncRx), (.followUpRx, 8, followUpRx), (.delayReqRx, 1, delayReqRx), (.delayRespRx, 9, delayRespRx), (.pdelayReqRx, 2, pdelayReqRx), (.pdelayRespRx, 3, pdelayRespRx), (.pdelayRespFollowUpRx, 10, pdelayFuRx), (.announceRx, 11, announceRx), (.signalingRx, 12, signalingRx)] : List (Instr × Nat × (PtpMsg → State → State)))) ∧ Served s ∧ s.fm.rxq = m :: l ∧ m.ty = e.2.1 ∧ s.on FM_STATUS_RESETTING = false ∧ (s.fm.timersTurn = false ∨ s.fm.timerq = [])) ∧
    (∃ (m : PtpMsg) (s : State), (takesSync s m.sess = false ∨ fromParent s m = false)) ∧
    (∃ (m : PtpMsg) (s : State), (sessState s m.sess ≠ 6 ∨ s.tbState = 0 ∨ s.on (FM_SESS_CFG_DELAY m.sess) = true)) ∧
    (∃ (m : PtpMsg) (s : State), (s.sessRec m.sess).waitFu = none) ∧
    (∃ (m : PtpMsg) (s : State) (y : _), (s.sessRec m.sess).waitFu = some y ∧ y.seq ≠ m.seq) ∧
    (∃ (m : PtpMsg) (s : State), (s.sessRec m.sess).exch = none) :=
  ⟨⟨(.syncRx, 0, syncRx), run, by exact ⟨List.mem_cons_self, by unfold Served; decide +kernel⟩⟩,
    ⟨(.signalingRx, 12, signalingRx), { run with fm := { rxq := [{ ty := 0 }] } }, { ty := 0 }, [], by exact ⟨by simp, by unfold Served; decide +kernel⟩⟩,
    ⟨(.signalingRx, 12, signalingRx), { run with fm := { rxq := [{ ty := 12 }] } }, { ty := 12 }, [], by exact ⟨by simp, by unfold Served; decide +kernel⟩⟩,
    ⟨{}, run, by decide +kernel⟩,
    ⟨{}, run, by decide +kernel⟩,
    ⟨{}, run, by decide +kernel⟩,
    ⟨{ sess := 511 }, { run with sess := [(511, { waitFu := some ⟨1, 0, 0, 0, 0, 0, 0, 0, 0, 0⟩ })] }, ⟨1, 0, 0, 0, 0, 0, 0, 0, 0, 0⟩, by decide +kernel⟩,
    ⟨{}, run, by decide +kernel⟩⟩

theorem witness_ferryman_messages_received_2 :
    (∃ (m : PtpMsg) (s : State) (x : _), (s.sessRec m.sess).exch = some x ∧ x.seq ≠ m.seq) ∧
    (∃ (m : PtpMsg) (s : State), (s.sessRec m.sess).pexch = none) ∧
    (∃ (m : PtpMsg) (s : State), s.on (FM_SESS_CFG_DELAY m.sess) = false) ∧
    (∃ (m : PtpMsg) (s : State), 255 ≤ (announceRead s m).steps) ∧
    (∃ (m : PtpMsg) (s : State), l1State s m.sess = 0) :=
  ⟨⟨{}, { run with sess := [(0, { exch := some { seq := 65535 } })] }, { seq := 65535 }, by decide +kernel⟩,
    ⟨{}, run, by decide +kernel⟩,
    ⟨{}, run, by decide +kernel⟩,
    ⟨{ body := List.replicate 30 0xFF }, run, by decide +kernel⟩,
    ⟨{}, run, by decide +kernel⟩⟩

theorem witness_ferryman_messages_sent_1 :
    (∃ (s : State), Served s ∧ TimerTurn s) ∧
    (∃ (k : Fin 512) (s : State), sessState s k = 6 ∧ s.tbState ≠ 0 ∧ 0 < s.get (POOL_FREE_V 3) ∧ s.on (POOL_CFG_EN 3) = true) ∧
    (∃ (k : Fin 512) (s : State), sessState s k = 6 ∧ s.tbState ≠ 0 ∧ s.get (POOL_FREE_V 3) = 0) ∧
    (∃ (k : Fin 512) (s : State), (sessState s k ≠ 6 ∨ s.tbState = 0)) ∧
    (∃ (k : Fin 512) (s : State), takesSync s k = true ∧ s.on (FM_SESS_CFG_DELAY k) = false ∧ domTc s (sessDom s k) = false ∧ 0 < s.get (POOL_FREE_V 3) ∧ s.on (POOL_CFG_EN 3) = true) ∧
    (∃ (k : Fin 512) (s : State), (takesSync s k = false ∨ s.on (FM_SESS_CFG_DELAY k) = true ∨ domTc s (sessDom s k) = true)) ∧
    (∃ (k : Fin 512) (s : State), sessLive s k = true ∧ s.on (FM_SESS_CFG_DELAY k) = true ∧ 0 < s.get (POOL_FREE_V 3) ∧ s.on (POOL_CFG_EN 3) = true) ∧
    (∃ (k : Fin 512) (s : State), (sessLive s k = false ∨ s.on (FM_SESS_CFG_DELAY k) = false)) :=
  ⟨⟨run, by unfold Served TimerTurn; decide +kernel⟩,
    ⟨511, at_ [(FM_SESS_STATUS_STATE 511, 6), (TB_STATUS_STATE, 1), (POOL_CFG_EN 3, 1), (POOL_FREE_V 3, 1)], by decide +kernel⟩,
    ⟨0, at_ [(FM_SESS_STATUS_STATE 0, 6), (TB_STATUS_STATE, 2), (POOL_FREE_V 3, 0)], by decide +kernel⟩,
    ⟨0, run, by decide +kernel⟩,
    ⟨511, at_ [(FM_SESS_STATUS_STATE 511, 9), (POOL_CFG_EN 3, 1), (POOL_FREE_V 3, 1)], by decide +kernel⟩,
    ⟨0, run, by decide +kernel⟩,
    ⟨0, at_ [(FM_SESS_STATUS_STATE 0, 4), (FM_SESS_CFG_DELAY 0, 1), (POOL_CFG_EN 3, 1), (POOL_FREE_V 3, 1)], by decide +kernel⟩,
    ⟨0, run, by decide +kernel⟩⟩

theorem witness_ferryman_messages_sent_2 :
    (∃ (k : Fin 512) (s : State), sessLive s k = true ∧ l1State s k ≠ 0 ∧ 0 < s.get (POOL_FREE_V 3) ∧ s.on (POOL_CFG_EN 3) = true) ∧
    (∃ (k : Fin 512) (s : State), (sessLive s k = false ∨ l1State s k = 0)) ∧
    (∃ (s : State), Served s ∧ s.fm.stamps = []) ∧
    (∃ (t : StampRet) (l : List StampRet) (s : State), Served s ∧ s.fm.stamps = t :: l) :=
  ⟨⟨0, at_ [(FM_SESS_STATUS_STATE 0, 4), (FM_SESS_CFG_L1SYNC_EN 0, 1), (FM_DOM_CFG_PROFILE 0, 1), (POOL_CFG_EN 3, 1), (POOL_FREE_V 3, 1)], by decide +kernel⟩,
    ⟨0, run, by decide +kernel⟩,
    ⟨run, by unfold Served; decide +kernel⟩,
    ⟨⟨0, 4, 0, 0, 0, 0, false, 0⟩, [], { run with fm := { stamps := [⟨0, 4, 0, 0, 0, 0, false, 0⟩] } }, by unfold Served; decide +kernel⟩⟩

theorem witness_ferryman_timers_and_decisions_1 :
    (∃ (s : State), Served s ∧ TimerTurn s) ∧
    (∃ (d : Fin 4) (s : State), (domTc s d = true ∨ s.on (FM_DOM_CFG_EN d) = false ∨ s.on FM_CTRL_EN = false)) ∧
    (∃ (d : Fin 4) (s : State), domTc s d = false ∧ s.on (FM_DOM_CFG_EN d) = true ∧ s.on FM_CTRL_EN = true ∧ committed s = []) ∧
    (∃ (k : Fin 512) (s : State), Served s ∧ sessState s k = 1 ∧ s.on (FM_DOM_STATUS_TREF_VALID (sessDom s k)) = false) ∧
    (∃ (k : Fin 512) (s : State), Served s ∧ sessState s k ≠ 1) ∧
    (∃ (k : Fin 512) (s : State), sessState s k = 5 ∧ s.on (FM_DOM_STATUS_TREF_VALID (sessDom s k)) = false) ∧
    (∃ (k : Fin 512) (s : State), sessState s k ≠ 5) ∧
    (∃ (k : Fin 512) (s : State), Served s ∧ TimerTurn s ∧ restartWaits (timerTaken .annReceipt k s) (timerFound .annReceipt k s) = false) :=
  ⟨⟨run, by unfold Served TimerTurn; decide +kernel⟩,
    ⟨3, run, by decide +kernel⟩,
    ⟨3, at_ [(FM_DOM_CFG_EN 3, 1), (FM_CTRL_EN, 1)], by decide +kernel⟩,
    ⟨511, at_ [(FM_SESS_STATUS_STATE 511, 1)], by unfold Served; decide +kernel⟩,
    ⟨0, run, by unfold Served; decide +kernel⟩,
    ⟨0, at_ [(FM_SESS_STATUS_STATE 0, 5)], by decide +kernel⟩,
    ⟨0, run, by decide +kernel⟩,
    ⟨511, run, by unfold Served TimerTurn; decide +kernel⟩⟩

theorem witness_ferryman_timers_and_decisions_2 :
    (∃ (k : Fin 512) (s : State), Served s ∧ TimerTurn s ∧ restartWaits (timerTaken .annReceipt k s) (timerFound .annReceipt k s) = true) ∧
    (∃ (k : Fin 512) (s : State), sessState s k ∈ ([4, 7, 8, 9] : List Nat) ∧ domTc s (sessDom s k) = false) ∧
    (∃ (k : Fin 512) (s : State), (sessState s k ∉ ([4, 7, 8, 9] : List Nat) ∨ domTc s (sessDom s k) = true)) ∧
    (∃ (k : Fin 512) (s : State), Served s ∧ TimerTurn s ∧ restartWaits (timerTaken .syncReceipt k s) (timerFound .syncReceipt k s) = false) ∧
    (∃ (k : Fin 512) (s : State), Served s ∧ TimerTurn s ∧ restartWaits (timerTaken .syncReceipt k s) (timerFound .syncReceipt k s) = true) ∧
    (∃ (k : Fin 512) (s : State), takesSync s k = true ∧ s.on (FM_DOM_STATUS_TREF_VALID (sessDom s k)) = false) ∧
    (∃ (k : Fin 512) (s : State), takesSync s k = false) ∧
    (∃ (k : Fin 512) (s : State), (s.sessRec k).waitFu ≠ none ∧ (s.sessRec k).exch = none) :=
  ⟨⟨511, { at_ [(FM_SESS_STATUS_STATE 511, 4)] with fm := { timersTurn := true, rxq := [{ sess := 511, ty := 11, body := [] }] } }, by unfold Served TimerTurn; decide +kernel⟩,
    ⟨511, at_ [(FM_SESS_STATUS_STATE 511, 9)], by decide +kernel⟩,
    ⟨0, at_ [(FM_SESS_STATUS_STATE 0, 6)], by decide +kernel⟩,
    ⟨511, run, by unfold Served TimerTurn; decide +kernel⟩,
    ⟨511, { run with fm := { timersTurn := true, rxq := [{ sess := 511 }] }, sess := [(511, { parentKey := some (0, 0) })] }, by unfold Served TimerTurn; decide +kernel⟩,
    ⟨0, at_ [(FM_SESS_STATUS_STATE 0, 8)], by decide +kernel⟩,
    ⟨0, run, by decide +kernel⟩,
    ⟨511, { run with sess := [(511, { waitFu := some ⟨1, 0, 0, 0, 0, 0, 0, 0, 0, 0⟩ })] }, by decide +kernel⟩⟩

theorem witness_ferryman_timers_and_decisions_3 :
    (∃ (k : Fin 512) (s : State), (s.sessRec k).waitFu = none) ∧
    (∃ (k : Fin 512) (x : ExchRec) (s : State), (s.sessRec k).exch = some x ∧ x.answered = false ∧ (s.sessRec k).pexch = none) ∧
    (∃ (k : Fin 512) (s : State), Served s ∧ TimerTurn s ∧ restartWaits (timerTaken .l1Receipt k s) (timerFound .l1Receipt k s) = false) ∧
    (∃ (k : Fin 512) (s : State), Served s ∧ TimerTurn s ∧ restartWaits (timerTaken .l1Receipt k s) (timerFound .l1Receipt k s) = true) ∧
    (∃ (k : Fin 512) (s : State), l1State s k ≠ 0) ∧
    (∃ (k : Fin 512) (s : State), l1State s k = 0) :=
  ⟨⟨0, run, by decide +kernel⟩,
    ⟨511, { seq := 1 }, { run with sess := [(511, { exch := some { seq := 1 } })] }, by decide +kernel⟩,
    ⟨511, run, by unfold Served TimerTurn; decide +kernel⟩,
    ⟨511, { run with fm := { timersTurn := true, rxq := [{ sess := 511, ty := 12, body := List.replicate 10 0 ++ [0x80, 0x01, 0, 2, 0, 0] }] } }, by unfold Served TimerTurn; decide +kernel⟩,
    ⟨0, at_ [(FM_SESS_STATUS_STATE 0, 4), (FM_SESS_CFG_L1SYNC_EN 0, 1), (FM_DOM_CFG_PROFILE 0, 1)], by decide +kernel⟩,
    ⟨0, run, by decide +kernel⟩⟩

theorem witness_forwarding_commands_1 :
    (∃ (m : BusMaster) (v : Word) (s : State), Writable m FWD_MAC_CMD (withField FWD_MAC_CMD_GO 1 (withField FWD_MAC_CMD_OP 1 v)) s ∧ s.on FWD_MAC_CMD_GO = false) ∧
    (∃ (m : BusMaster) (v : Word) (s : State), Writable m FWD_MAC_CMD (withField FWD_MAC_CMD_GO 1 (withField FWD_MAC_CMD_OP 2 v)) s ∧ s.on FWD_MAC_CMD_GO = false) ∧
    (∃ (m : BusMaster) (v : Word) (s : State), Writable m FWD_MAC_CMD (withField FWD_MAC_CMD_GO 1 (withField FWD_MAC_CMD_OP 3 v)) s ∧ s.on FWD_MAC_CMD_GO = false) ∧
    (∃ (m : BusMaster) (v : Word) (s : State), Writable m FWD_MAC_CMD (withField FWD_MAC_CMD_GO 1 (withField FWD_MAC_CMD_OP 4 v)) s ∧ s.on FWD_MAC_CMD_GO = false) ∧
    (∃ (b mac vid : Nat) (s : State), s.ecc.flips = [] ∧ mac = s.wide FWD_MAC_KEY % 2 ^ 48 ∧ vid = s.wide FWD_MAC_KEY / 2 ^ 48 % 4096 ∧ b = macBucket vid mac ∧ (s.get FWD_MAC_CMD_OP = 2 ∨ s.get FWD_MAC_CMD_OP = 3) ∧ macFind s b mac vid = none) ∧
    (∃ (b mac vid : Nat) (s : State) (w : _), s.ecc.flips = [] ∧ mac = s.wide FWD_MAC_KEY % 2 ^ 48 ∧ vid = s.wide FWD_MAC_KEY / 2 ^ 48 % 4096 ∧ b = macBucket vid mac ∧ s.get FWD_MAC_CMD_OP = 3 ∧ macFind s b mac vid = some w) ∧
    (∃ (b mac vid : Nat) (s : State), s.ecc.flips = [] ∧ mac = s.wide FWD_MAC_KEY % 2 ^ 48 ∧ vid = s.wide FWD_MAC_KEY / 2 ^ 48 % 4096 ∧ b = macBucket vid mac ∧ s.get FWD_MAC_CMD_OP = 1 ∧ s.ecc.retired = [] ∧ (macCommand s).get FWD_MAC_CMD_RESULT = 0 ∧ (s.word FWD_MAC_DATA).getLsbD 31 = true) ∧
    (∃ (only : Option Nat) (s : State), Served s ∧ s.fwd.flush = some only) :=
  ⟨⟨.pcie, 0, run, by unfold Writable; decide +kernel⟩,
    ⟨.pcie, 0, run, by unfold Writable; decide +kernel⟩,
    ⟨.pcie, 0, run, by unfold Writable; decide +kernel⟩,
    ⟨.pcie, 0, run, by unfold Writable; decide +kernel⟩,
    ⟨macBucket 0 0, 0, 0, at_ [(FWD_MAC_CMD_OP, 2)], by decide +kernel⟩,
    ⟨macBucket 0 0, 0, 0, macPut (macBucket 0 0) 3 0 0 (2 ^ 31) (at_ [(FWD_MAC_CMD_OP, 3)]), 3, by decide +kernel⟩,
    ⟨macBucket 0 0, 0, 0, sets [(FWD_MAC_CMD_OP, 1)] (run.setWord FWD_MAC_DATA 0x80000000), by decide +kernel⟩,
    ⟨some 65, { run with fwd := { flush := some (some 65) } }, by unfold Served; decide +kernel⟩⟩

theorem witness_forwarding_commands_2 :
    (∃ (s : State), Served s ∧ s.fwd.flush = none) ∧
    (∃ (s : State), Served s ∧ s.get FWD_CTRL_AGE_TIME = 0) ∧
    (∃ (s : State), Served s ∧ s.get FWD_CTRL_AGE_TIME ≠ 0) ∧
    (∃ (m : BusMaster) (n : Fin 4096) (v : Word) (s : State), TableOpen m 5 (0x20 * n.val) s ∧ 1 ≤ v.toNat / 2 ^ 8 % 64 ∧ v.toNat / 2 ^ 8 % 64 ≤ 32 ∧ 1 ≤ v.toNat / 2 ^ 16) ∧
    (∃ (m : BusMaster) (n : Fin 8192) (w : Fin 5) (v : Word) (s : State), TableOpen m 6 (0x20 * n.val + 4 * w.val) s ∧ (w.val = 0 → m = .loader ∨ v.toNat ≤ s.tword (meterAddr n + 4)) ∧ (w.val = 1 → s.tword (meterAddr n) ≤ v.toNat) ∧ (w.val = 4 → v.toNat / 2 ^ 8 % 32 ≤ 24)) ∧
    (∃ (s : State), s.inReset = false ∧ s.gated = false) ∧
    (∃ (s : State), s.inReset = false ∧ s.gated = false) ∧
    (∃ (n : Fin 4096) (s : State), Served s ∧ s.ecc.retired = [] ∧ s.tbits (streamAddr n) 1 1 = 1) :=
  ⟨⟨run, by unfold Served; decide +kernel⟩,
    ⟨at_ [(FWD_CTRL_AGE_TIME, 0)], by unfold Served; decide +kernel⟩,
    ⟨at_ [(FWD_CTRL_AGE_TIME, 1)], by unfold Served; decide +kernel⟩,
    ⟨.pcie, 4095, 0xFFFF2000, run, by unfold TableOpen; decide +kernel⟩,
    ⟨.pcie, 8191, 1, 0xFFFFFFFF, run, by unfold TableOpen; decide +kernel⟩,
    ⟨run, by decide +kernel⟩,
    ⟨run, by decide +kernel⟩,
    ⟨4095, (run.setTword (streamAddr 4095) 2).setTbits (streamAddr 4095 + 12) 0 1 1, by unfold Served; decide +kernel⟩⟩

theorem witness_forwarding_commands_3 :
    ∃ (n : Fin 4096) (s : State), Served s ∧ s.tbits (streamAddr n) 1 1 ≠ 1 :=
  ⟨0, run, by unfold Served; decide +kernel⟩

theorem witness_spill_and_queue_commands_1 :
    (∃ (m : BusMaster) (v : Word) (s : State), Writable m QM_SPILL_CFG (withField QM_SPILL_CFG_EN 1 v) s ∧ s.on QM_SPILL_CFG_EN = false) ∧
    (∃ (m : BusMaster) (v : Word) (s : State), Writable m QM_SPILL_CFG (withField QM_SPILL_CFG_EN 1 v) s ∧ s.on QM_SPILL_CFG_EN = true) ∧
    (∃ (s : State), Served s ∧ s.get QM_SPILL_STATUS_STATE = 1) ∧
    (∃ (s : State), Served s ∧ s.get QM_SPILL_STATUS_STATE ≠ 1) ∧
    (∃ (p : Fin 66) (t : Fin 8) (s : State), Served s ∧ (queueMode s (8 * p.val + t.val) = 0 ∨ s.stage ≠ 0 ∨ spillReady s = false ∨ (s.queueRec (8 * p.val + t.val)).staging.length < 16)) ∧
    (∃ (p : Fin 66) (t : Fin 8) (s : State), Served s ∧ queueMode s (8 * p.val + t.val) ≠ 0 ∧ s.stage = 0 ∧ spillReady s = true ∧ 16 ≤ (s.queueRec (8 * p.val + t.val)).staging.length ∧ 0 < s.get (POOL_FREE_V 1) ∧ s.on (POOL_CFG_EN 1) = true) ∧
    (∃ (p : Fin 66) (t : Fin 8) (s : State), Served s ∧ refillDue s (8 * p.val + t.val) = false) ∧
    (∃ (p : Fin 66) (t : Fin 8) (k : Nat) (s : State), Served s ∧ refillDue s (8 * p.val + t.val) = true ∧ k = ((s.queueRec (8 * p.val + t.val)).pages.getD (s.queueRec (8 * p.val + t.val)).reads ⟨0, []⟩).cells.length ∧ s.get (POOL_FREE_V 0) < s.get QM_RESERVE_V + k) :=
  ⟨⟨.pcie, 0x21000002, run, by unfold Writable; decide +kernel⟩,
    ⟨.pcie, 0x21000002, at_ [(QM_SPILL_CFG_EN, 1)], by unfold Writable; decide +kernel⟩,
    ⟨at_ [(QM_SPILL_STATUS_STATE, 1)], by unfold Served; decide +kernel⟩,
    ⟨at_ [(QM_SPILL_STATUS_STATE, 2)], by unfold Served; decide +kernel⟩,
    ⟨65, 7, { at_ [(QM_Q_STATUS_MODE 527, 1), (QM_SPILL_STATUS_STATE, 2)] with queues := [(527, { staging := List.replicate 15 ⟨0, 0, 0⟩ })] }, by unfold Served; decide +kernel⟩,
    ⟨65, 7, { at_ [(QM_Q_STATUS_MODE 527, 1), (QM_SPILL_STATUS_STATE, 2), (POOL_FREE_V 1, 1), (POOL_CFG_EN 1, 1)] with queues := [(527, { staging := List.replicate 16 ⟨0, 0, 0⟩ })] }, by unfold Served; decide +kernel⟩,
    ⟨0, 0, run, by unfold Served; decide +kernel⟩,
    ⟨65, 7, 16, { at_ [(QM_Q_STATUS_MODE 527, 1), (QM_SPILL_STATUS_STATE, 2), (POOL_FREE_V 0, 15), (QM_RESERVE_V, 0)] with queues := [(527, { pages := [⟨0, List.replicate 16 ⟨0, 0, 0⟩⟩] })] }, by unfold Served; decide +kernel⟩⟩

theorem witness_spill_and_queue_commands_2 :
    (∃ (p : Fin 66) (t : Fin 8) (k : Nat) (s : State), Served s ∧ refillDue s (8 * p.val + t.val) = true ∧ k = ((s.queueRec (8 * p.val + t.val)).pages.getD (s.queueRec (8 * p.val + t.val)).reads ⟨0, []⟩).cells.length ∧ s.get QM_RESERVE_V + k ≤ s.get (POOL_FREE_V 0)) ∧
    (∃ (p : Fin 66) (t : Fin 8) (s : State), Served s ∧ (s.queueRec (8 * p.val + t.val)).reads = 0) ∧
    (∃ (p : Fin 66) (t : Fin 8) (s : State), Served s ∧ (s.queueRec (8 * p.val + t.val)).reads ≠ 0 ∧ (s.queueRec (8 * p.val + t.val)).pages ≠ []) ∧
    (∃ (p : Fin 66) (t : Fin 8) (s : State), Served s ∧ ((s.queueRec (8 * p.val + t.val)).reads = 0 ∨ (spillReady s = false ∧ s.get QM_SPILL_STATUS_STATE ≠ 3))) ∧
    (∃ (p : Fin 66) (t : Fin 8) (s : State), Served s ∧ (s.queueRec (8 * p.val + t.val)).reads ≠ 0 ∧ spillReady s = true ∧ smGet 0 s.qm.timeouts (pageChannel s (8 * p.val + t.val)) < 2) ∧
    (∃ (p : Fin 66) (t : Fin 8) (s : State), Served s ∧ (s.queueRec (8 * p.val + t.val)).reads ≠ 0 ∧ spillReady s = true ∧ 2 ≤ smGet 0 s.qm.timeouts (pageChannel s (8 * p.val + t.val))) ∧
    (∃ (p : Fin 66) (s : State), Served s ∧ gatesRun s p = false) ∧
    (∃ (p : Fin 66) (s : State), Served s ∧ gatesRun s p = true ∧ s.ecc.flips = []) :=
  ⟨⟨65, 7, 16, { at_ [(QM_Q_STATUS_MODE 527, 1), (QM_SPILL_STATUS_STATE, 2), (POOL_FREE_V 0, 16), (QM_RESERVE_V, 0)] with queues := [(527, { pages := [⟨0, List.replicate 16 ⟨0, 0, 0⟩⟩] })] }, by unfold Served; decide +kernel⟩,
    ⟨0, 0, run, by unfold Served; decide +kernel⟩,
    ⟨65, 7, { run with queues := [(527, { pages := [⟨0, []⟩], reads := 1 })] }, by unfold Served; decide +kernel⟩,
    ⟨65, 7, { run with queues := [(527, { reads := 1 })] }, by unfold Served; decide +kernel⟩,
    ⟨65, 7, { { at_ [(QM_SPILL_STATUS_STATE, 2), (QM_SPILL_CFG_CHANNELS, 0)] with queues := [(527, { pages := [⟨0, []⟩], reads := 1 })] } with qm := { timeouts := [(0, 1)] } }, by unfold Served; decide +kernel⟩,
    ⟨0, 0, { { at_ [(QM_SPILL_STATUS_STATE, 2), (QM_SPILL_CFG_CHANNELS, 0)] with queues := [(0, { pages := [⟨0, []⟩], reads := 1 })] } with qm := { timeouts := [(0, 2)] } }, by unfold Served; decide +kernel⟩,
    ⟨64, run, by unfold Served; decide +kernel⟩,
    ⟨65, at_ [(QM_PORT_GATE_EN 65, 1), (QM_PORT_GATE_OPER_VALID 65, 1)], by unfold Served; decide +kernel⟩⟩

theorem witness_spill_and_queue_commands_3 :
    (∃ (p : Fin 66) (t : Fin 8) (s : State), Served s ∧ stuckRuns s (8 * p.val + t.val) = false) ∧
    (∃ (p : Fin 66) (t : Fin 8) (s : State), Served s ∧ stuckRuns s (8 * p.val + t.val) = true) ∧
    (∃ (s : State), Served s ∧ (∀ e ∈ s.queues, e.2.copies = [])) ∧
    (∃ (m : BusMaster) (p : Fin 66) (t : Fin 8) (v : Word) (s : State), Writable m (QM_Q_STATUS (8 * p.val + t.val)) (withField (QM_Q_STATUS_SUSPENDED (8 * p.val + t.val)) 1 v) s) :=
  ⟨⟨0, 0, run, by unfold Served; decide +kernel⟩,
    ⟨65, 7, { at_ [(MAC_STATUS_STATE 65, 4), (QM_PORT_GATE_OPER_GATES 65, 255)] with queues := [(527, { copies := [0] })] }, by unfold Served; decide +kernel⟩,
    ⟨run, by unfold Served; decide +kernel⟩,
    ⟨.pcie, 65, 7, 0, run, by unfold Writable; decide +kernel⟩⟩

theorem witness_pool_and_stream_commands_1 :
    (∃ (m : BusMaster) (v : Word) (s : State), Writable m POOL_CMD (withField POOL_CMD_GO 1 (withField POOL_CMD_OP 1 v)) s ∧ s.on POOL_CMD_GO = false) ∧
    (∃ (m : BusMaster) (v : Word) (s : State), Writable m POOL_CMD (withField POOL_CMD_GO 1 (withField POOL_CMD_OP 2 v)) s ∧ s.on POOL_CMD_GO = false) ∧
    (∃ (m : BusMaster) (v : Word) (s : State), Writable m POOL_CMD (withField POOL_CMD_GO 1 (withField POOL_CMD_OP 3 v)) s ∧ s.on POOL_CMD_GO = false) ∧
    (∃ (m : BusMaster) (v : Word) (s : State), Writable m POOL_CMD (withField POOL_CMD_GO 1 (withField POOL_CMD_OP 4 v)) s ∧ s.on POOL_CMD_GO = false) ∧
    (∃ (s : State), (s.on (POOL_CFG_EN (s.get POOL_CMD_POOL)) = false ∨ (s.get POOL_CMD_OP ≠ 1 ∧ s.get (POOL_SIZE_V (s.get POOL_CMD_POOL)) ≤ s.get POOL_CMD_INDEX_V))) ∧
    (∃ (k : Fin 16) (s : State), k.val = s.get POOL_CMD_POOL ∧ s.on (POOL_CFG_EN k) = true ∧ s.get POOL_CMD_OP = 1 ∧ k ≠ 0 ∧ 0 < s.get (POOL_FREE_V k)) ∧
    (∃ (k : Fin 16) (s : State), k.val = s.get POOL_CMD_POOL ∧ s.on (POOL_CFG_EN k) = true ∧ s.get POOL_CMD_OP = 1 ∧ k ≠ 0 ∧ s.get (POOL_FREE_V k) = 0) ∧
    (∃ (k : Fin 16) (s : State), k.val = s.get POOL_CMD_POOL ∧ s.on (POOL_CFG_EN k) = true ∧ s.get POOL_CMD_OP = 2 ∧ s.get POOL_CMD_INDEX_V < s.get (POOL_SIZE_V k) ∧ (s.buf k (s.get POOL_CMD_INDEX_V)).alloc = false) :=
  ⟨⟨.pcie, 0, run, by unfold Writable; decide +kernel⟩,
    ⟨.pcie, 0, run, by unfold Writable; decide +kernel⟩,
    ⟨.pcie, 0, run, by unfold Writable; decide +kernel⟩,
    ⟨.pcie, 0xF00, run, by unfold Writable; decide +kernel⟩,
    ⟨at_ [(POOL_CMD_POOL, 15)], by decide +kernel⟩,
    ⟨15, at_ [(POOL_CMD_POOL, 15), (POOL_CFG_EN 15, 1), (POOL_CMD_OP, 1), (POOL_FREE_V 15, 1)], by decide +kernel⟩,
    ⟨1, at_ [(POOL_CMD_POOL, 1), (POOL_CFG_EN 1, 1), (POOL_CMD_OP, 1), (POOL_FREE_V 1, 0)], by decide +kernel⟩,
    ⟨0, at_ [(POOL_CMD_OP, 2), (POOL_CMD_INDEX_V, 0x3FFFF)], by decide +kernel⟩⟩

theorem witness_pool_and_stream_commands_2 :
    (∃ (k : Fin 16) (s : State), k.val = s.get POOL_CMD_POOL ∧ s.on (POOL_CFG_EN k) = true ∧ s.get POOL_CMD_OP = 4 ∧ s.get POOL_CMD_INDEX_V < s.get (POOL_SIZE_V k)) ∧
    (∃ (s : State), Served s) ∧
    (∃ (m : BusMaster) (n : Fin 16) (v : Word) (s : State), Writable m (POOL_CFG n) (withField (POOL_CFG_EN n) 1 v) s ∧ 4 ≤ n.val) ∧
    (∃ (m : BusMaster) (n : Fin 16) (v : Word) (s : State), Writable m (POOL_CFG n) (withField (POOL_CFG_EN n) 1 v) s ∧ n.val < 4) ∧
    (∃ (m : BusMaster) (n : Fin 1024) (v : Word) (s : State), Writable m (XC_STREAM_CFG n) (withField (XC_STREAM_CFG_EN n) 1 v) s) ∧
    (∃ (m : BusMaster) (n : Fin 1024) (v : Word) (s : State), Writable m (XC_STREAM_CFG n) (withField (XC_STREAM_CFG_EN n) 0 v) s) ∧
    (∃ (n : Fin 1024) (s : State), xcErrors s (s.get (XC_STREAM_CFG_TC n)) (s.get (XC_STREAM_CFG_INGRESS n)) (s.get (XC_STREAM_CFG_EGRESS n)) ≠ []) :=
  ⟨⟨0, at_ [(POOL_CMD_OP, 4)], by decide +kernel⟩,
    ⟨run, by unfold Served; decide +kernel⟩,
    ⟨.pcie, 15, 2, (run.put (POOL_SIZE_V 15) 1).put (POOL_CFG_EN 15) 1, by unfold Writable; decide +kernel⟩,
    ⟨.pcie, 3, 2, run, by unfold Writable; decide +kernel⟩,
    ⟨.pcie, 1023, 0x003F0002, run, by unfold Writable; decide +kernel⟩,
    ⟨.pcie, 0, 0x100, run, by unfold Writable; decide +kernel⟩,
    ⟨1023, run, by decide +kernel⟩⟩

theorem witness_tiu_commands_1 :
    (∃ (m : BusMaster) (v : Word) (s : State), Writable m TIU_CTRL (withField TIU_CTRL_DISARM 0 (withField TIU_CTRL_ARM 1 v)) s) ∧
    (∃ (m : BusMaster) (v : Word) (s : State), Writable m TIU_CTRL (withField TIU_CTRL_DISARM 1 v) s) ∧
    (∃ (s : State), s.on TIU_CTRL_ARM = false ∧ s.geti TIU_WIN_CLOSE_V < s.geti TIU_WIN_OPEN_V) ∧
    (∃ (s : State), s.on TIU_CTRL_ARM = false ∧ s.geti TIU_WIN_OPEN_V ≤ s.geti TIU_WIN_CLOSE_V ∧ (s.get TIU_CFG_BASE ≠ 1 ∨ s.on TIU_STATUS_REF_PRESENT = true)) ∧
    (∃ (s : State), s.on TIU_CTRL_ARM = false ∧ s.geti TIU_WIN_OPEN_V ≤ s.geti TIU_WIN_CLOSE_V ∧ s.get TIU_CFG_BASE = 1 ∧ s.on TIU_STATUS_REF_PRESENT = false) ∧
    (∃ (s : State), s.on TIU_CTRL_ARM = true) ∧
    (∃ (s : State), s.inReset = false ∧ s.get TIU_CFG_BASE = 2 ∧ s.dev ≠ .reset ∧ s.dev ≠ .clockStart ∧ tiuState s = 1) ∧
    (∃ (s : State), s.inReset = false ∧ tiuState s ≠ 1) :=
  ⟨⟨.pcie, 0, run, by unfold Writable; decide +kernel⟩,
    ⟨.pcie, 1, run, by unfold Writable; decide +kernel⟩,
    ⟨at_ [(TIU_WIN_OPEN_V, 6), (TIU_WIN_CLOSE_V, 5)], by decide +kernel⟩,
    ⟨at_ [(TIU_WIN_OPEN_V, 5), (TIU_WIN_CLOSE_V, 5)], by decide +kernel⟩,
    ⟨at_ [(TIU_CFG_BASE, 1)], by decide +kernel⟩,
    ⟨at_ [(TIU_CTRL_ARM, 1)], by decide +kernel⟩,
    ⟨at_ [(TIU_STATUS_STATE, 1), (TIU_CFG_BASE, 2)], by decide +kernel⟩,
    ⟨run, by decide +kernel⟩⟩

theorem witness_tiu_commands_2 :
    (∃ (s : State), s.inReset = false ∧ (∀ w, s.tiu.was = some w → w.at_ ≠ s.now) ∧ tiuState s ≠ 2) ∧
    (∃ (c : TiuCodes) (k : TiuCal) (s : State), s.inReset = false ∧ (∀ w, s.tiu.was = some w → w.at_ ≠ s.now) ∧ tiuState s = 2 ∧ k = tiuMeans c ∧ k.startK1 + 1792 ≤ k.startK2 ∧ k.startK2 ≤ k.startK1 + 2304 ∧ k.stopK1 + 1792 ≤ k.stopK2 ∧ k.stopK2 ≤ k.stopK1 + 2304) ∧
    (∃ (c : TiuCodes) (k : TiuCal) (s : State), s.inReset = false ∧ (∀ w, s.tiu.was = some w → w.at_ ≠ s.now) ∧ tiuState s = 2 ∧ k = tiuMeans c ∧ (k.startK2 < k.startK1 + 1792 ∨ k.stopK1 + 2304 < k.stopK2)) ∧
    (∃ (a1 a2 b1 b2 : List (Fin 512)), a1.length = 8 ∧ a2.length = 8 ∧ b1.length = 8 ∧ b2.length = 8) ∧
    (∃ (e : TiuInput) (s : State), s.inReset = false ∧ (tiuOwn e.src = true ∨ tiuStartSel s e.src e.falling = false)) ∧
    (∃ (e : TiuInput) (s : State), s.inReset = false ∧ tiuOwn e.src = false ∧ tiuStartSel s e.src e.falling = true ∧ tiuStopSel s e.src e.falling = false ∧ (∀ w, s.tiu.was = some w → w.at_ ≠ s.now)) ∧
    (∃ (e : TiuInput) (s : State), s.inReset = false ∧ tiuOwn e.src = false ∧ tiuStartSel s e.src e.falling = true ∧ tiuStopSel s e.src e.falling = true ∧ (∀ w, s.tiu.was = some w → w.at_ ≠ s.now) ∧ tiuState s = 3 ∧ s.tiu.start = none) ∧
    (∃ (e : TiuInput) (s : State), s.inReset = false ∧ tiuOwn e.src = false ∧ tiuStartSel s e.src e.falling = true ∧ tiuStopSel s e.src e.falling = true ∧ (∀ w, s.tiu.was = some w → w.at_ ≠ s.now) ∧ tiuState s = 4) :=
  ⟨⟨run, by decide +kernel⟩,
    ⟨⟨List.replicate 8 0, List.replicate 8 224, List.replicate 8 5, List.replicate 8 293⟩, ⟨0, 1792, 40, 2344⟩, at_ [(TIU_STATUS_STATE, 2)], by decide +kernel⟩,
    ⟨⟨List.replicate 8 0, List.replicate 8 223, List.replicate 8 0, List.replicate 8 0⟩, ⟨0, 1784, 0, 0⟩, at_ [(TIU_STATUS_STATE, 2)], by decide +kernel⟩,
    ⟨List.replicate 8 511, List.replicate 8 511, List.replicate 8 511, List.replicate 8 511, by decide +kernel⟩,
    ⟨⟨4, true, ⟨-5, 511⟩⟩, run, by decide +kernel⟩,
    ⟨⟨0, false, ⟨-5, 511⟩⟩, at_ [(TIU_STATUS_STATE, 3), (TIU_CFG_START_SRC, 0), (TIU_CFG_STOP_SRC, 1), (TIU_CFG_START_EDGE, 0), (TIU_CFG_STOP_EDGE, 0)], by decide +kernel⟩,
    ⟨⟨0, false, ⟨-5, 511⟩⟩, at_ [(TIU_STATUS_STATE, 3), (TIU_CFG_START_SRC, 0), (TIU_CFG_STOP_SRC, 0), (TIU_CFG_START_EDGE, 0), (TIU_CFG_STOP_EDGE, 0)], by decide +kernel⟩,
    ⟨⟨0, false, ⟨-5, 511⟩⟩, at_ [(TIU_STATUS_STATE, 4), (TIU_CFG_START_SRC, 0), (TIU_CFG_STOP_SRC, 0), (TIU_CFG_START_EDGE, 0), (TIU_CFG_STOP_EDGE, 0)], by decide +kernel⟩⟩

theorem witness_tiu_commands_3 :
    (∃ (e : TiuStop) (s : State), s.inReset = false ∧ (tiuOwn e.src = true ∨ tiuStopSel s e.src e.falling = false)) ∧
    (∃ (e : TiuStop) (s : State), s.inReset = false ∧ tiuOwn e.src = false ∧ tiuStopSel s e.src e.falling = true ∧ tiuStartSel s e.src e.falling = false ∧ (∀ w, s.tiu.was = some w → w.at_ ≠ s.now) ∧ (tiuState s = 3 → s.tiu.start = none)) ∧
    (∃ (e : TiuStop) (s : State), s.inReset = false ∧ tiuOwn e.src = false ∧ tiuStopSel s e.src e.falling = true ∧ tiuStartSel s e.src e.falling = true ∧ (∀ w, s.tiu.was = some w → w.at_ ≠ s.now) ∧ tiuState s = 3 ∧ s.tiu.start = none) ∧
    (∃ (e : TiuStop) (s : State), s.inReset = false ∧ tiuOwn e.src = false ∧ tiuStopSel s e.src e.falling = true ∧ tiuStartSel s e.src e.falling = true ∧ (∀ w, s.tiu.was = some w → w.at_ ≠ s.now) ∧ tiuState s = 4) ∧
    (∃ (e : TiuEdge) (s : State), (tiuState s < 3 ∨ tooSoon s true s.tiu.lastA e = true)) ∧
    (∃ (e : TiuEdge) (s : State), tiuState s = 4 ∧ tooSoon s true s.tiu.lastA e = false) ∧
    (∃ (e : TiuEdge) (s : State), tiuState s = 3 ∧ tooSoon s true s.tiu.lastA e = false ∧ s.tiu.held = none) ∧
    (∃ (e : TiuEdge) (s : State) (h : _), tiuState s = 3 ∧ tooSoon s true s.tiu.lastA e = false ∧ s.tiu.held = some h) :=
  ⟨⟨⟨7, true, ⟨-5, 511⟩, ⟨0, 0⟩, 0⟩, run, by decide +kernel⟩,
    ⟨⟨3, true, ⟨-5, 511⟩, ⟨0, 0⟩, 9⟩, at_ [(TIU_STATUS_STATE, 3), (TIU_CFG_START_SRC, 0), (TIU_CFG_STOP_SRC, 3), (TIU_CFG_START_EDGE, 1), (TIU_CFG_STOP_EDGE, 1)], by decide +kernel⟩,
    ⟨⟨3, true, ⟨-5, 511⟩, ⟨0, 0⟩, 9⟩, at_ [(TIU_STATUS_STATE, 3), (TIU_CFG_START_SRC, 3), (TIU_CFG_STOP_SRC, 3), (TIU_CFG_START_EDGE, 1), (TIU_CFG_STOP_EDGE, 1)], by decide +kernel⟩,
    ⟨⟨3, true, ⟨-5, 511⟩, ⟨0, 0⟩, 9⟩, at_ [(TIU_STATUS_STATE, 4), (TIU_CFG_START_SRC, 3), (TIU_CFG_STOP_SRC, 3), (TIU_CFG_START_EDGE, 1), (TIU_CFG_STOP_EDGE, 1)], by decide +kernel⟩,
    ⟨⟨0, 0⟩, { at_ [(TIU_STATUS_STATE, 4)] with tiu := { lastA := some ⟨0, 0⟩ } }, by decide +kernel⟩,
    ⟨⟨9, 0⟩, { at_ [(TIU_STATUS_STATE, 4)] with tiu := { lastA := some ⟨0, 0⟩ } }, by decide +kernel⟩,
    ⟨⟨0, 0⟩, at_ [(TIU_STATUS_STATE, 3)], by decide +kernel⟩,
    ⟨⟨-5, 511⟩, { at_ [(TIU_STATUS_STATE, 3)] with tiu := { held := some ⟨9, 9⟩ } }, ⟨9, 9⟩, by decide +kernel⟩⟩

theorem witness_tiu_commands_4 :
    (∃ (e : TiuEdge) (s : State), (tiuState s < 3 ∨ tooSoon s false s.tiu.lastB e = true)) ∧
    (∃ (e : TiuEdge) (s : State), 3 ≤ tiuState s ∧ tooSoon s false s.tiu.lastB e = false ∧ s.tiu.start = none) ∧
    (∃ (e : TiuEdge) (s : State) (st : _), 3 ≤ tiuState s ∧ tooSoon s false s.tiu.lastB e = false ∧ s.tiu.start = some st) ∧
    (∃ (st e : TiuEdge) (v x : Int × Int) (s : State), tiuSpan s true false st e = some v ∧ x = (v.1 * 2 ^ 40 - tiuTrim s * v.2, v.2 * 2 ^ 40) ∧ nearZero (tiuResult x) = false ∧ x.1 < s.geti TIU_WIN_OPEN_V * x.2) ∧
    (∃ (st e : TiuEdge) (v x : Int × Int) (s : State), tiuSpan s true false st e = some v ∧ x = (v.1 * 2 ^ 40 - tiuTrim s * v.2, v.2 * 2 ^ 40) ∧ nearZero (tiuResult x) = false ∧ s.geti TIU_WIN_OPEN_V * x.2 ≤ x.1 ∧ x.1 ≤ s.geti TIU_WIN_CLOSE_V * x.2) ∧
    (∃ (st e : TiuEdge) (v x : Int × Int) (s : State), tiuSpan s true false st e = some v ∧ x = (v.1 * 2 ^ 40 - tiuTrim s * v.2, v.2 * 2 ^ 40) ∧ nearZero (tiuResult x) = false ∧ s.geti TIU_WIN_OPEN_V * x.2 ≤ x.1 ∧ s.geti TIU_WIN_CLOSE_V * x.2 < x.1) ∧
    (∃ (w : TiuWas) (s : State), s.inReset = false ∧ s.tiu.was = some w ∧ w.at_ = s.now ∧ w.st = 4) ∧
    (∃ (s : State), s.inReset = false ∧ (∀ w, s.tiu.was = some w → w.at_ ≠ s.now) ∧ tiuState s = 4) :=
  ⟨⟨⟨0, 0⟩, { at_ [(TIU_STATUS_STATE, 4)] with tiu := { lastB := some ⟨0, 0⟩ } }, by decide +kernel⟩,
    ⟨⟨0, 0⟩, at_ [(TIU_STATUS_STATE, 4)], by decide +kernel⟩,
    ⟨⟨9, 0⟩, { at_ [(TIU_STATUS_STATE, 4)] with tiu := { start := some ⟨0, 0⟩ } }, ⟨0, 0⟩, by decide +kernel⟩,
    ⟨⟨0, 0⟩, ⟨10, 511⟩, (tiuSpan { at_ [(TIU_WIN_OPEN_V, 7), (TIU_WIN_CLOSE_V, 9)] with tiu := { cal := ⟨0, 2048, 0, 2048⟩ } } true false ⟨0, 0⟩ ⟨10, 511⟩).getD (0, 0), (((tiuSpan { at_ [(TIU_WIN_OPEN_V, 7), (TIU_WIN_CLOSE_V, 9)] with tiu := { cal := ⟨0, 2048, 0, 2048⟩ } } true false ⟨0, 0⟩ ⟨10, 511⟩).getD (0, 0)).1 * 2 ^ 40 - tiuTrim { at_ [(TIU_WIN_OPEN_V, 7), (TIU_WIN_CLOSE_V, 9)] with tiu := { cal := ⟨0, 2048, 0, 2048⟩ } } * ((tiuSpan { at_ [(TIU_WIN_OPEN_V, 7), (TIU_WIN_CLOSE_V, 9)] with tiu := { cal := ⟨0, 2048, 0, 2048⟩ } } true false ⟨0, 0⟩ ⟨10, 511⟩).getD (0, 0)).2, ((tiuSpan { at_ [(TIU_WIN_OPEN_V, 7), (TIU_WIN_CLOSE_V, 9)] with tiu := { cal := ⟨0, 2048, 0, 2048⟩ } } true false ⟨0, 0⟩ ⟨10, 511⟩).getD (0, 0)).2 * 2 ^ 40), { at_ [(TIU_WIN_OPEN_V, 7), (TIU_WIN_CLOSE_V, 9)] with tiu := { cal := ⟨0, 2048, 0, 2048⟩ } }, by decide +kernel⟩,
    ⟨⟨0, 0⟩, ⟨10, 511⟩, (tiuSpan { at_ [(TIU_WIN_OPEN_V, 6), (TIU_WIN_CLOSE_V, 7)] with tiu := { cal := ⟨0, 2048, 0, 2048⟩ } } true false ⟨0, 0⟩ ⟨10, 511⟩).getD (0, 0), (((tiuSpan { at_ [(TIU_WIN_OPEN_V, 6), (TIU_WIN_CLOSE_V, 7)] with tiu := { cal := ⟨0, 2048, 0, 2048⟩ } } true false ⟨0, 0⟩ ⟨10, 511⟩).getD (0, 0)).1 * 2 ^ 40 - tiuTrim { at_ [(TIU_WIN_OPEN_V, 6), (TIU_WIN_CLOSE_V, 7)] with tiu := { cal := ⟨0, 2048, 0, 2048⟩ } } * ((tiuSpan { at_ [(TIU_WIN_OPEN_V, 6), (TIU_WIN_CLOSE_V, 7)] with tiu := { cal := ⟨0, 2048, 0, 2048⟩ } } true false ⟨0, 0⟩ ⟨10, 511⟩).getD (0, 0)).2, ((tiuSpan { at_ [(TIU_WIN_OPEN_V, 6), (TIU_WIN_CLOSE_V, 7)] with tiu := { cal := ⟨0, 2048, 0, 2048⟩ } } true false ⟨0, 0⟩ ⟨10, 511⟩).getD (0, 0)).2 * 2 ^ 40), { at_ [(TIU_WIN_OPEN_V, 6), (TIU_WIN_CLOSE_V, 7)] with tiu := { cal := ⟨0, 2048, 0, 2048⟩ } }, by decide +kernel⟩,
    ⟨⟨0, 0⟩, ⟨10, 511⟩, (tiuSpan { at_ [(TIU_WIN_OPEN_V, 0), (TIU_WIN_CLOSE_V, 6)] with tiu := { cal := ⟨0, 2048, 0, 2048⟩ } } true false ⟨0, 0⟩ ⟨10, 511⟩).getD (0, 0), (((tiuSpan { at_ [(TIU_WIN_OPEN_V, 0), (TIU_WIN_CLOSE_V, 6)] with tiu := { cal := ⟨0, 2048, 0, 2048⟩ } } true false ⟨0, 0⟩ ⟨10, 511⟩).getD (0, 0)).1 * 2 ^ 40 - tiuTrim { at_ [(TIU_WIN_OPEN_V, 0), (TIU_WIN_CLOSE_V, 6)] with tiu := { cal := ⟨0, 2048, 0, 2048⟩ } } * ((tiuSpan { at_ [(TIU_WIN_OPEN_V, 0), (TIU_WIN_CLOSE_V, 6)] with tiu := { cal := ⟨0, 2048, 0, 2048⟩ } } true false ⟨0, 0⟩ ⟨10, 511⟩).getD (0, 0)).2, ((tiuSpan { at_ [(TIU_WIN_OPEN_V, 0), (TIU_WIN_CLOSE_V, 6)] with tiu := { cal := ⟨0, 2048, 0, 2048⟩ } } true false ⟨0, 0⟩ ⟨10, 511⟩).getD (0, 0)).2 * 2 ^ 40), { at_ [(TIU_WIN_OPEN_V, 0), (TIU_WIN_CLOSE_V, 6)] with tiu := { cal := ⟨0, 2048, 0, 2048⟩ } }, by decide +kernel⟩,
    ⟨⟨0, 4, none, none, false⟩, { run with tiu := { was := some ⟨0, 4, none, none, false⟩ } }, by decide +kernel⟩,
    ⟨at_ [(TIU_STATUS_STATE, 4)], by decide +kernel⟩⟩

theorem witness_tiu_commands_5 :
    (∃ (s : State), s.inReset = false ∧ (∀ w, s.tiu.was = some w → w.at_ ≠ s.now) ∧ tiuState s ≠ 4) ∧
    (∃ (s : State), s.inReset = false ∧ tiuState s = 3 ∧ s.get TIU_START_TO_V ≠ 0) ∧
    (∃ (s : State), s.inReset = false ∧ (tiuState s ≠ 3 ∨ s.get TIU_START_TO_V = 0)) ∧
    (∃ (s : State), s.inReset = false ∧ s.get TIU_CFG_BASE ≠ 1) ∧
    (∃ (s : State), s.inReset = false ∧ s.get TIU_CFG_BASE = 1 ∧ 2 ≤ tiuState s) ∧
    (∃ (s : State), s.inReset = false ∧ s.get TIU_CFG_BASE = 2 ∧ 2 ≤ tiuState s) ∧
    (∃ (s : State), s.inReset = false ∧ (s.get TIU_CFG_BASE ≠ 2 ∨ tiuState s < 2)) :=
  ⟨⟨at_ [(TIU_STATUS_STATE, 3)], by decide +kernel⟩,
    ⟨at_ [(TIU_STATUS_STATE, 3), (TIU_START_TO_V, 1)], by decide +kernel⟩,
    ⟨at_ [(TIU_STATUS_STATE, 3), (TIU_START_TO_V, 0)], by decide +kernel⟩,
    ⟨run, by decide +kernel⟩,
    ⟨at_ [(TIU_STATUS_STATE, 2), (TIU_CFG_BASE, 1)], by decide +kernel⟩,
    ⟨at_ [(TIU_STATUS_STATE, 4), (TIU_CFG_BASE, 2)], by decide +kernel⟩,
    ⟨at_ [(TIU_STATUS_STATE, 1), (TIU_CFG_BASE, 2)], by decide +kernel⟩⟩

theorem witness_calibration_and_stored_data_commands_1 :
    (∃ (k : Fin 6) (s : State), Served s ∧ s.on (CAL_CFG_EN k) = false) ∧
    (∃ (k : Fin 6) (s : State), Served s ∧ s.on (CAL_CFG_EN k) = true ∧ calWaits s k = false ∧ s.stage ≠ 0) ∧
    (∃ (k : Fin 6) (s : State), Served s ∧ s.on (CAL_CFG_EN k) = true ∧ calWaits s k = false ∧ s.stage = 0) ∧
    (∃ (s : State), s.stage = 0) ∧
    (∃ (k : Fin 6) (s : State), Served s ∧ s.on (CAL_CFG_EN k) = true ∧ calWaits s k = true ∧ k.val ∉ s.cal.owed) ∧
    (∃ (k : Fin 6) (s : State), Served s ∧ s.on (CAL_CFG_EN k) = true ∧ calWaits s k = true ∧ k.val ∈ s.cal.owed) ∧
    (∃ (m : BusMaster) (k : Fin 6) (v : Word) (s : State), Writable m (CAL_RUN k) (withField (CAL_RUN_V k) 1 v) s) ∧
    (∃ (k : Fin 6) (s : State), (k.val ∈ s.cal.asked ∨ k.val ∈ s.cal.askedOwed ∨ s.on (CAL_CFG_EN k) = false ∨ s.gated = true)) :=
  ⟨⟨5, at_ [(CAL_CFG_EN 5, 0)], by unfold Served; decide +kernel⟩,
    ⟨5, at_ [(CAL_CFG_EN 5, 1), (PWR_STATUS_STAGE, 3)], by unfold Served; decide +kernel⟩,
    ⟨4, at_ [(CAL_CFG_EN 4, 1)], by unfold Served; decide +kernel⟩,
    ⟨run, by decide +kernel⟩,
    ⟨5, at_ [(CAL_CFG_EN 5, 1), (CAL_K_STATUS_STATE 5, 1)], by unfold Served; decide +kernel⟩,
    ⟨5, { at_ [(CAL_CFG_EN 5, 1), (CAL_K_STATUS_STATE 5, 1)] with cal := { owed := [5] } }, by unfold Served; decide +kernel⟩,
    ⟨.pcie, 5, 0, run, by unfold Writable; decide +kernel⟩,
    ⟨0, { run with cal := { asked := [0] } }, by decide +kernel⟩⟩

theorem witness_calibration_and_stored_data_commands_2 :
    (∃ (k : Fin 6) (s : State), k.val ∉ s.cal.asked ∧ k.val ∉ s.cal.askedOwed ∧ s.on (CAL_CFG_EN k) = true ∧ s.gated = false ∧ calWaits s k = true) ∧
    (∃ (k : Fin 6) (i : Fin 80) (r : CalResult) (s : State), Served s ∧ (calKind k r = false ∨ calEntry k i r ∉ s.cal.queue)) ∧
    (∃ (i : Fin 80) (v : Int) (s : State), Served s ∧ (4, i.val) ∈ s.cal.queue ∧ v.natAbs ≤ 32) ∧
    (∃ (i : Fin 80) (v : Int) (s : State), Served s ∧ (4, i.val) ∈ s.cal.queue ∧ 32 < v.natAbs) ∧
    (∃ (s : State), Served s ∧ s.on ECC_CTRL_SCRUB_EN = false) ∧
    (∃ (r : Fin 16) (a : Word) (s : State), Served s ∧ s.on ECC_CTRL_SCRUB_EN = true ∧ eccReady s r = true ∧ (r = 0 → (s.buf 0 (a.toNat / 256)).written = true)) ∧
    (∃ (r : Fin 16) (a : Nat) (s : State), r ≠ 0 ∧ (inTables r = true ∨ s.ecc.injected = []) ∧ (∀ k < 4, s.flipsAt r (a + k) = 0)) ∧
    (∃ (s : State), Served s ∧ s.ecc.reloads = []) :=
  ⟨⟨5, at_ [(CAL_CFG_EN 5, 1), (CAL_K_STATUS_STATE 5, 1)], by decide +kernel⟩,
    ⟨0, 1, .starved, run, by unfold Served; decide +kernel⟩,
    ⟨64, -32, { run with cal := { queue := [(4, 64)] } }, by unfold Served; decide +kernel⟩,
    ⟨0, 33, { run with cal := { queue := [(4, 0)] } }, by unfold Served; decide +kernel⟩,
    ⟨at_ [(ECC_CTRL_SCRUB_EN, 0)], by unfold Served; decide +kernel⟩,
    ⟨9, 0xFFFFFFFC, at_ [(ECC_CTRL_SCRUB_EN, 1), (ECC_INIT_DONE_V, 512)], by unfold Served; decide +kernel⟩,
    ⟨9, 3, run, by decide +kernel⟩,
    ⟨run, by unfold Served; decide +kernel⟩⟩

theorem witness_calibration_and_stored_data_commands_3 :
    (∃ (r : Fin 16) (s : State), s.ecc.reloads = [r.val] ∧ s.ecc.held = []) ∧
    (∃ (x : SecRec) (b : List Byte), (b.length ≠ x.length ∨ (crc32 b).toNat ≠ x.crc)) ∧
    (∃ (s : State), Served s ∧ s.ecc.upsets = [] ∧ s.ecc.shadow = []) ∧
    (∃ (l : List CfgUpset) (s : State), Served s ∧ (forEach l upsetTake s).on ECC_CTRL_CFG_CHECK_EN = false) ∧
    (∃ (l : List CfgUpset) (s : State), Served s ∧ (forEach l upsetTake s).on ECC_CTRL_CFG_CHECK_EN = true ∧ (forEach l upsetTake s).gated = false) ∧
    (∃ (b : Fin 4096) (s : State), s.on ECC_CTRL_CFG_RELOAD = true ∧ (s.ldr.reload = false ∨ b.val ∉ s.ecc.met)) ∧
    (∃ (m : BusMaster) (v : Word) (s : State), Writable m ECC_INJ (withField ECC_INJ_ARM 1 v) s ∧ s.on ECC_INJ_ARM = false) :=
  ⟨⟨9, { run with ecc := { reloads := [9] } }, by decide +kernel⟩,
    ⟨⟨0, 4, 0⟩, [], by decide +kernel⟩,
    ⟨run, by unfold Served; decide +kernel⟩,
    ⟨[], at_ [(ECC_CTRL_CFG_CHECK_EN, 0)], by unfold Served; decide +kernel⟩,
    ⟨[⟨0x00200C10, 1, 15, 0x80000000⟩], at_ [(ECC_CTRL_CFG_CHECK_EN, 1)], by unfold Served; decide +kernel⟩,
    ⟨4095, at_ [(ECC_CTRL_CFG_RELOAD, 1)], by decide +kernel⟩,
    ⟨.pcie, 0x10, run, by unfold Writable; decide +kernel⟩⟩

theorem witness_pair_commands_1 :
    (∃ (m : BusMaster) (v : Word) (s : State), Writable m PAIR_CTRL (withField PAIR_CTRL_EN 1 v) s) ∧
    (∃ (m : BusMaster) (v : Word) (s : State), Writable m PAIR_CTRL (withField PAIR_CTRL_EN 0 v) s) ∧
    (∃ (s : State), s.pairState = .solo ∧ (pairRefusal s).1 ≠ 0) ∧
    (∃ (s : State), s.pairState = .solo ∧ (pairRefusal s).1 = 0) ∧
    (∃ (s : State), Served s ∧ (s.pair.failed = true ∨ s.pairState = .solo)) ∧
    (∃ (s : State), Served s ∧ s.pair.failed = false ∧ s.pairState ≠ .solo ∧ s.pairState ≠ .mateFailed) ∧
    (∃ (s : State), Served s ∧ s.pairState = .solo) ∧
    (∃ (s : State), Served s ∧ s.pairState ≠ .solo) :=
  ⟨⟨.pcie, 2, run, by unfold Writable; decide +kernel⟩,
    ⟨.pcie, 2, run, by unfold Writable; decide +kernel⟩,
    ⟨run, by decide +kernel⟩,
    ⟨{ at_ [(LN_CTRL_CLOCK_REQ 64, 1), (MAC_CFG_EN 65, 1), (FM_DOM_CFG_EN 0, 1), (FM_DOM_CFG_ROLE 0, 1), (FM_SESS_CFG_PORT 511, 65)] with sess := [(511, { committed := true })] }, by decide +kernel⟩,
    ⟨run, by unfold Served; decide +kernel⟩,
    ⟨at_ [(PAIR_STATUS_STATE, 2)], by unfold Served; decide +kernel⟩,
    ⟨run, by unfold Served; decide +kernel⟩,
    ⟨at_ [(PAIR_STATUS_STATE, 4)], by unfold Served; decide +kernel⟩⟩

theorem witness_pair_commands_2 :
    (∃ (b : List Byte) (s : State), Served s ∧ b.length ≠ 64) ∧
    (∃ (b : List Byte) (s : State), Served s ∧ b.length = 64 ∧ natLE (b.drop 60) ≠ (crc32 (b.take 60)).toNat) ∧
    (∃ (b : List Byte) (s : State), Served s ∧ b.length = 64 ∧ natLE (b.drop 60) = (crc32 (b.take 60)).toNat) ∧
    (∃ (s : State), s.pairState = .standby) ∧
    (∃ (s : State), s.pairState = .mateFailed) ∧
    (∃ (m : Nat) (s : State), (s.pairState = .active ∨ s.pairState = .mateFailed) ∧ (m = 2 ∨ m = 4)) ∧
    (∃ (s : State), Served s ∧ (s.pairState ≠ .standby ∨ s.pair.lastValid ≠ none)) ∧
    (∃ (s : State), Served s ∧ s.pairState = .standby ∧ s.pair.lastValid = none) :=
  ⟨⟨List.replicate 63 0, run, by unfold Served; decide +kernel⟩,
    ⟨List.replicate 64 0, run, by unfold Served; decide +kernel⟩,
    ⟨(List.replicate 60 0 ++ leBytes 4 (crc32 (List.replicate 60 0)).toNat), run, by unfold Served; decide +kernel⟩,
    ⟨at_ [(PAIR_STATUS_STATE, 1)], by decide +kernel⟩,
    ⟨at_ [(PAIR_STATUS_STATE, 4)], by decide +kernel⟩,
    ⟨2, at_ [(PAIR_STATUS_STATE, 2)], by decide +kernel⟩,
    ⟨run, by unfold Served; decide +kernel⟩,
    ⟨at_ [(PAIR_STATUS_STATE, 1)], by unfold Served; decide +kernel⟩⟩

theorem witness_pair_commands_3 :
    (∃ (b : List Byte) (s : State), Served s ∧ b.length ≠ 1) ∧
    (∃ (b : List Byte) (s : State), Served s ∧ b.length = 1 ∧ s.pairState = .solo) ∧
    (∃ (b : List Byte) (s : State), Served s ∧ b.length = 1 ∧ s.pairState = .standby) ∧
    (∃ (b : List Byte) (s : State), Served s ∧ b.length = 1 ∧ s.pairState ≠ .solo ∧ s.pairState ≠ .standby) :=
  ⟨⟨[], run, by unfold Served; decide +kernel⟩,
    ⟨[2], run, by unfold Served; decide +kernel⟩,
    ⟨[0], at_ [(PAIR_STATUS_STATE, 1)], by unfold Served; decide +kernel⟩,
    ⟨[1], at_ [(PAIR_STATUS_STATE, 3)], by unfold Served; decide +kernel⟩⟩

theorem witness_sequence_records_handover_and_self_tests_1 :
    (∃ (b : List Byte) (s : State), Served s ∧ (b.length % 8 ≠ 0 ∨ b.length = 0 ∨ 512 < b.length)) ∧
    (∃ (b : List Byte) (s : State), Served s ∧ b.length % 8 = 0 ∧ b.length ≠ 0 ∧ b.length ≤ 512) ∧
    (∃ (r : SeqRec) (s : State), s.pairFollows = true ∧ r.kind = 0 ∧ waitingOf s r.stream = []) ∧
    (∃ (s : State), Served s ∧ s.pair.toSend = []) ∧
    (∃ (s : State), Served s ∧ s.pair.toSend ≠ [] ∧ s.portUp 65 = true) ∧
    (∃ (s : State), Served s ∧ s.pair.toSend ≠ [] ∧ s.portUp 65 = false) ∧
    (∃ (n : Fin 4096) (s : State), Served s ∧ s.pair.closing.contains n.val = true) ∧
    (∃ (n : Fin 4096) (w : Nat × Nat) (l : List (Nat × Nat)) (s : State), Served s ∧ s.pair.closing.contains n.val = false ∧ s.pair.waits.filter (fun w => (waitingOf s n).contains w.1) = w :: l ∧ (∀ r ∈ s.pair.got, r.stream = n.val → w.2 ≤ r.at_)) :=
  ⟨⟨List.replicate 520 0, run, by unfold Served; decide +kernel⟩,
    ⟨List.replicate 512 0, run, by unfold Served; decide +kernel⟩,
    ⟨⟨4095, 0, 0, 0, 0⟩, at_ [(PAIR_STATUS_STATE, 1)], by decide +kernel⟩,
    ⟨run, by unfold Served; decide +kernel⟩,
    ⟨{ at_ [(MAC_STATUS_STATE 65, 4)] with pair := { toSend := [⟨0, 0, 0, 0, 0⟩] } }, by unfold Served; decide +kernel⟩,
    ⟨{ run with pair := { toSend := [⟨0, 0, 0, 0, 0⟩] } }, by unfold Served; decide +kernel⟩,
    ⟨4095, { run with pair := { closing := [4095] } }, by unfold Served; decide +kernel⟩,
    ⟨7, (0, 5), [], { run with pair := { waits := [(0, 5)], got := [⟨7, 0, 0, 0, 5⟩] }, frames := [(0, { live := true, waiting := true, paired := some 7 })] }, by unfold Served; decide +kernel⟩⟩

theorem witness_sequence_records_handover_and_self_tests_2 :
    (∃ (n : Fin 4096) (r : SeqRec) (l : List SeqRec) (s : State), Served s ∧ s.pair.closing.contains n.val = false ∧ s.pair.got.filter (fun r => r.stream == n.val) = r :: l ∧ (∀ w ∈ s.pair.waits, w.1 ∈ waitingOf s n → r.at_ < w.2)) ∧
    (∃ (n : Fin 4096) (s : State), Served s ∧ s.pair.closing.contains n.val = false ∧ s.pair.waits.filter (fun w => (waitingOf s n).contains w.1) = [] ∧ s.pair.got.filter (fun r => r.stream == n.val) = []) ∧
    (∃ (m : BusMaster) (v : Word) (s : State), Writable m PAIR_CTRL (withField PAIR_CTRL_HO_REQ 1 v) s) ∧
    (∃ (s : State), (s.pairState ≠ .standby ∨ pairTlock s = false ∨ s.pair.hoAsked = true ∨ s.now < s.pair.noAskUntil)) ∧
    (∃ (s : State), s.pairState = .standby ∧ pairTlock s = true ∧ s.pair.hoAsked = false ∧ s.pair.noAskUntil ≤ s.now) ∧
    (∃ (s : State), Served s ∧ s.on PAIR_STATUS_PREFERRED = true ∧ s.on PAIR_CTRL_REVERTIVE = true ∧ s.get PAIR_TIMING_WTR ≤ pairHealthyS s) ∧
    (∃ (s : State), Served s ∧ (s.on PAIR_STATUS_PREFERRED = false ∨ s.on PAIR_CTRL_REVERTIVE = false ∨ pairHealthyS s < s.get PAIR_TIMING_WTR)) ∧
    (∃ (b : List Byte) (s : State), Served s ∧ b.length ≠ 12) :=
  ⟨⟨7, ⟨7, 0, 0, 0, 4⟩, [], { run with pair := { waits := [(0, 5)], got := [⟨7, 0, 0, 0, 4⟩] }, frames := [(0, { live := true, waiting := true, paired := some 7 })] }, by unfold Served; decide +kernel⟩,
    ⟨4095, run, by unfold Served; decide +kernel⟩,
    ⟨.pcie, 2, run, by unfold Writable; decide +kernel⟩,
    ⟨run, by decide +kernel⟩,
    ⟨{ at_ [(PAIR_STATUS_STATE, 1), (LN_STATUS_STATE 64, 5), (LN_STATUS_CLOCK_EFF 64, 1)] with now := 2500000000, pair := { lockSince := some 0 } }, by decide +kernel⟩,
    ⟨{ at_ [(PAIR_STATUS_PREFERRED, 1), (PAIR_CTRL_REVERTIVE, 1), (PAIR_TIMING_WTR, 1)] with now := 250000000, pair := { healthySince := some 0 } }, by unfold Served; decide +kernel⟩,
    ⟨run, by unfold Served; decide +kernel⟩,
    ⟨[], run, by unfold Served; decide +kernel⟩⟩

theorem witness_sequence_records_handover_and_self_tests_3 :
    (∃ (b : List Byte) (s : State), Served s ∧ b.length = 12 ∧ s.pairState = .active) ∧
    (∃ (b : List Byte) (s : State), Served s ∧ b.length = 12 ∧ s.pairState ≠ .active) ∧
    (∃ (b : List Byte) (s : State), Served s ∧ b.length = 12 ∧ s.pairState = .standby ∧ s.pair.hoAsked = true ∧ s.pair.hoT = some (tb96Time (natLE b))) ∧
    (∃ (b : List Byte) (s : State), Served s ∧ b.length = 12 ∧ (s.pairState ≠ .standby ∨ s.pair.hoAsked = false ∨ s.pair.hoT ≠ some (tb96Time (natLE b)))) ∧
    (∃ (b : List Byte) (s : State), Served s ∧ b.length ≠ 13) ∧
    (∃ (b : List Byte) (s : State), Served s ∧ b.length = 13 ∧ (s.pairState = .handover ∨ s.pair.hoAsked = true)) ∧
    (∃ (b : List Byte) (s : State), Served s ∧ b.length = 13 ∧ s.pairState ≠ .handover ∧ s.pair.hoAsked = false) ∧
    (∃ (s : State), Served s ∧ s.pair.hoAsked = true ∧ s.pairState ≠ .handover) :=
  ⟨⟨List.replicate 12 0, at_ [(PAIR_STATUS_STATE, 2)], by unfold Served; decide +kernel⟩,
    ⟨List.replicate 12 0, at_ [(PAIR_STATUS_STATE, 1)], by unfold Served; decide +kernel⟩,
    ⟨List.replicate 12 0, { at_ [(PAIR_STATUS_STATE, 1)] with pair := { hoAsked := true, hoT := some 0 } }, by unfold Served; decide +kernel⟩,
    ⟨List.replicate 12 0, { at_ [(PAIR_STATUS_STATE, 1)] with pair := { hoAsked := true, hoT := some 1 } }, by unfold Served; decide +kernel⟩,
    ⟨List.replicate 12 0, run, by unfold Served; decide +kernel⟩,
    ⟨List.replicate 13 0, at_ [(PAIR_STATUS_STATE, 3)], by unfold Served; decide +kernel⟩,
    ⟨List.replicate 13 0, run, by unfold Served; decide +kernel⟩,
    ⟨{ at_ [(PAIR_STATUS_STATE, 1)] with pair := { hoAsked := true } }, by unfold Served; decide +kernel⟩⟩

theorem witness_sequence_records_handover_and_self_tests_4 :
    (∃ (s : State), Served s ∧ (s.pair.hoAsked = false ∨ s.pairState = .handover)) ∧
    (∃ (s : State), s.pairState = .handover) ∧
    (∃ (s : State), s.pairState ≠ .handover) ∧
    (∃ (s : State), Served s ∧ testsRun s = false) ∧
    (∃ (s : State), Served s ∧ testsRun s = true) ∧
    (∃ (f : MarchFails) (s : State), Served s ∧ testsRun s = true ∧ f.rows + f.cells ≠ 0) ∧
    (∃ (n : Fin 65) (s : State), Served s ∧ (testsRun s = false ∨ s.get PAIR_TEST_LANE ≠ n.val ∨ loopIdle s n = false)) ∧
    (∃ (n : Fin 65) (s : State), Served s ∧ testsRun s = true ∧ s.get PAIR_TEST_LANE = n.val ∧ loopIdle s n = true) :=
  ⟨⟨run, by unfold Served; decide +kernel⟩,
    ⟨at_ [(PAIR_STATUS_STATE, 3)], by decide +kernel⟩,
    ⟨at_ [(PAIR_STATUS_STATE, 2)], by decide +kernel⟩,
    ⟨run, by unfold Served; decide +kernel⟩,
    ⟨at_ [(PAIR_STATUS_STATE, 1)], by unfold Served; decide +kernel⟩,
    ⟨⟨0, 1⟩, at_ [(PAIR_STATUS_STATE, 1)], by unfold Served; decide +kernel⟩,
    ⟨64, run, by unfold Served; decide +kernel⟩,
    ⟨64, { at_ [(PAIR_STATUS_STATE, 1), (PAIR_TEST_LANE, 64)] with plls := [(16, { on := true })] }, by unfold Served; decide +kernel⟩⟩

theorem witness_supply_commands_1 :
    (∃ (s : State), s.inReset = false) ∧
    (∃ (s : State), s.inReset = false ∧ s.on PWR_CTRL_PFAIL_EN = false) ∧
    (∃ (t : State) (s : State), s.inReset = false ∧ s.on PWR_CTRL_PFAIL_EN = true ∧ t = trigger 1 (s.put PWR_STATUS_PFAIL 1) ∧ (t.on HOLD_FRAM_CFG_EN && t.sel.readDone) = false) ∧
    (∃ (t : State) (s : State), s.inReset = false ∧ s.on PWR_CTRL_PFAIL_EN = true ∧ t = trigger 1 (s.put PWR_STATUS_PFAIL 1) ∧ (t.on HOLD_FRAM_CFG_EN && t.sel.readDone) = true) ∧
    (∃ (s : State), s.stage ≠ 0 ∧ s.on PWR_STATUS_RESTORING = false ∧ (∀ x, s.pwr.at_ = some x → x.1 ≠ s.now)) ∧
    (∃ (s : State) (b : _), s.stage ≠ 0 ∧ s.on PWR_STATUS_RESTORING = false ∧ s.pwr.at_ = some (s.now, b) ∧ b = true) ∧
    (∃ (s : State), s.stage ≠ 0 ∧ s.on PWR_STATUS_RESTORING = true) ∧
    (∃ (s : State), s.stage = 0) :=
  ⟨⟨run, by decide +kernel⟩,
    ⟨at_ [(PWR_CTRL_PFAIL_EN, 0)], by decide +kernel⟩,
    ⟨trigger 1 ((at_ [(PWR_CTRL_PFAIL_EN, 1)]).put PWR_STATUS_PFAIL 1), (at_ [(PWR_CTRL_PFAIL_EN, 1)]), by exact ⟨by decide +kernel, by decide +kernel, rfl, by decide +kernel⟩⟩,
    ⟨trigger 1 ({ at_ [(PWR_CTRL_PFAIL_EN, 1), (HOLD_FRAM_CFG_EN, 1)] with sel := { readDone := true } }.put PWR_STATUS_PFAIL 1), { at_ [(PWR_CTRL_PFAIL_EN, 1), (HOLD_FRAM_CFG_EN, 1)] with sel := { readDone := true } }, by exact ⟨by decide +kernel, by decide +kernel, rfl, by decide +kernel⟩⟩,
    ⟨at_ [(PWR_STATUS_STAGE, 1)], by decide +kernel⟩,
    ⟨{ at_ [(PWR_STATUS_STAGE, 3)] with pwr := { at_ := some (0, true) } }, true, by decide +kernel⟩,
    ⟨at_ [(PWR_STATUS_STAGE, 1), (PWR_STATUS_RESTORING, 1)], by decide +kernel⟩,
    ⟨run, by decide +kernel⟩⟩

theorem witness_supply_commands_2 :
    (∃ (s : State), s.queues = [] ∧ s.lanes = [] ∧ s.cal.queue = []) ∧
    (∃ (g : Fin 3) (s : State), s.inReset = false ∧ (s.stage = 0 ∨ s.on PWR_STATUS_RESTORING = true ∨ s.get PWR_STATUS_GROUPS_SHED ≠ 2 - g.val)) ∧
    (∃ (g : Fin 3) (s : State), s.inReset = false ∧ s.stage = 1 ∧ s.on PWR_STATUS_RESTORING = false ∧ s.get PWR_STATUS_GROUPS_SHED = 2 - g.val) ∧
    (∃ (g : Fin 3) (s : State), s.inReset = false ∧ 2 ≤ s.stage ∧ s.on PWR_STATUS_RESTORING = false ∧ s.get PWR_STATUS_GROUPS_SHED = 2 - g.val) ∧
    (∃ (s : State), s.inReset = false ∧ (s.stage ≠ 2 ∨ s.on PWR_STATUS_RESTORING = true ∨ s.get PWR_STATUS_GROUPS_SHED ≠ 3)) ∧
    (∃ (t : State) (s : State), s.inReset = false ∧ s.stage = 2 ∧ s.on PWR_STATUS_RESTORING = false ∧ s.get PWR_STATUS_GROUPS_SHED = 3 ∧ t = spillShed (((s.put PWR_STATUS_STAGE 3).ev PWR_EVENT_SHED3).count PWR_CNT_SHED3) ∧ t.running = false) ∧
    (∃ (t : State) (s : State), s.inReset = false ∧ s.stage = 2 ∧ s.on PWR_STATUS_RESTORING = false ∧ s.get PWR_STATUS_GROUPS_SHED = 3 ∧ t = spillShed (((s.put PWR_STATUS_STAGE 3).ev PWR_EVENT_SHED3).count PWR_CNT_SHED3) ∧ t.running = true) ∧
    (∃ (s : State), s.on PWR_CTRL_LG_FRAM_EN = true ∧ s.on HOLD_FRAM_CFG_EN = true) :=
  ⟨⟨run, by decide +kernel⟩,
    ⟨2, run, by decide +kernel⟩,
    ⟨2, at_ [(PWR_STATUS_STAGE, 1)], by decide +kernel⟩,
    ⟨0, at_ [(PWR_STATUS_STAGE, 3), (PWR_STATUS_GROUPS_SHED, 2)], by decide +kernel⟩,
    ⟨at_ [(PWR_STATUS_STAGE, 2), (PWR_STATUS_GROUPS_SHED, 2)], by decide +kernel⟩,
    ⟨spillShed ((((at_ [(PWR_STATUS_STAGE, 2), (PWR_STATUS_GROUPS_SHED, 3), (GLB_STATE_STATE, 2)]).put PWR_STATUS_STAGE 3).ev PWR_EVENT_SHED3).count PWR_CNT_SHED3), (at_ [(PWR_STATUS_STAGE, 2), (PWR_STATUS_GROUPS_SHED, 3), (GLB_STATE_STATE, 2)]), by exact ⟨by decide +kernel, by decide +kernel, by decide +kernel, by decide +kernel, rfl, by decide +kernel⟩⟩,
    ⟨spillShed ((((at_ [(PWR_STATUS_STAGE, 2), (PWR_STATUS_GROUPS_SHED, 3)]).put PWR_STATUS_STAGE 3).ev PWR_EVENT_SHED3).count PWR_CNT_SHED3), (at_ [(PWR_STATUS_STAGE, 2), (PWR_STATUS_GROUPS_SHED, 3)]), by exact ⟨by decide +kernel, by decide +kernel, by decide +kernel, by decide +kernel, rfl, by decide +kernel⟩⟩,
    ⟨at_ [(PWR_CTRL_LG_FRAM_EN, 1), (HOLD_FRAM_CFG_EN, 1)], by decide +kernel⟩⟩

theorem witness_supply_commands_3 :
    (∃ (s : State), (s.on PWR_CTRL_LG_FRAM_EN = false ∨ s.on HOLD_FRAM_CFG_EN = false)) ∧
    (∃ (s : State), s.pairState = .active) ∧
    (∃ (s : State), s.pairState ≠ .active) ∧
    (∃ (s : State), s.inReset = false ∧ s.stage ≠ 0 ∧ s.pwr.restoring = false) ∧
    (∃ (s : State), s.inReset = false ∧ (s.stage = 0 ∨ s.pwr.restoring = true)) ∧
    (∃ (s : State), s.inReset = false ∧ (s.on PWR_STATUS_RESTORING = false ∨ s.pwr.restoring = true ∨ s.get PWR_STATUS_BELOW_HYST ≠ 0 ∨ s.on PWR_STATUS_PFAIL = true)) ∧
    (∃ (s : State), s.inReset = false ∧ s.on PWR_STATUS_RESTORING = true ∧ s.pwr.restoring = false ∧ s.get PWR_STATUS_BELOW_HYST = 0 ∧ s.on PWR_STATUS_PFAIL = false ∧ s.stage = 3) ∧
    (∃ (s : State), s.inReset = false ∧ s.on PWR_STATUS_RESTORING = true ∧ s.pwr.restoring = false ∧ s.get PWR_STATUS_BELOW_HYST = 0 ∧ s.on PWR_STATUS_PFAIL = false ∧ s.stage = 2) :=
  ⟨⟨run, by decide +kernel⟩,
    ⟨at_ [(PAIR_STATUS_STATE, 2)], by decide +kernel⟩,
    ⟨run, by decide +kernel⟩,
    ⟨at_ [(PWR_STATUS_STAGE, 1)], by decide +kernel⟩,
    ⟨run, by decide +kernel⟩,
    ⟨run, by decide +kernel⟩,
    ⟨at_ [(PWR_STATUS_STAGE, 3), (PWR_STATUS_RESTORING, 1)], by decide +kernel⟩,
    ⟨at_ [(PWR_STATUS_STAGE, 2), (PWR_STATUS_RESTORING, 1)], by decide +kernel⟩⟩

theorem witness_supply_commands_4 :
    (∃ (s : State), s.inReset = false ∧ s.on PWR_STATUS_RESTORING = true ∧ s.pwr.restoring = false ∧ s.get PWR_STATUS_BELOW_HYST = 0 ∧ s.on PWR_STATUS_PFAIL = false ∧ s.stage < 2) ∧
    (∃ (s : State), s.inReset = false ∧ s.pwr.restoring = false) ∧
    (∃ (s : State), s.inReset = false ∧ s.pwr.restoring = true ∧ s.stage = 2) ∧
    (∃ (s : State), s.inReset = false ∧ s.pwr.restoring = true ∧ s.stage ≠ 2) ∧
    (∃ (s : State), s.get QM_SPILL_STATUS_STATE ≠ 3) :=
  ⟨⟨at_ [(PWR_STATUS_STAGE, 1), (PWR_STATUS_RESTORING, 1)], by decide +kernel⟩,
    ⟨run, by decide +kernel⟩,
    ⟨{ at_ [(PWR_STATUS_STAGE, 2)] with pwr := { restoring := true, trig := 1 } }, by decide +kernel⟩,
    ⟨{ at_ [(PWR_STATUS_STAGE, 3)] with pwr := { restoring := true, trig := 1 } }, by decide +kernel⟩,
    ⟨run, by decide +kernel⟩⟩

theorem witness_image_reads_and_failures_1 :
    (∃ (m : BusMaster) (v : Word) (s : State), Writable m GLB_CTRL (withField GLB_CTRL_RELOAD 1 v) s ∧ s.on GLB_CTRL_RELOAD = false) ∧
    (∃ (s : State), s.running = false) ∧
    (∃ (s : State), s.running = true) ∧
    (∃ (s : State), Served s ∧ (s.ldr.left = [] ∨ s.dev ≠ .loading ∨ s.ldr.active = true ∨ s.phase = 6 ∨ s.phase = 7)) ∧
    (∃ (k : Nat) (l : List Nat) (s : State), Served s ∧ s.ldr.left = k :: l ∧ s.dev = .loading ∧ s.ldr.active = false ∧ s.phase ≠ 6 ∧ s.phase ≠ 7) ∧
    (∃ (s : State), Served s ∧ (s.ldr.active = false ∨ s.phase ≠ 1)) ∧
    (∃ (b : List Byte) (s : State), Served s ∧ s.ldr.active = true ∧ s.phase = 1 ∧ hostImage s = false ∧ hdrReadable b = false) ∧
    (∃ (b : List Byte) (s : State), Served s ∧ s.ldr.active = true ∧ s.phase = 1 ∧ hostImage s = false ∧ hdrReadable b = true ∧ hdrValid (b.take (hdrSize (hdrSections b))) = true ∧ hdrRecord (b.take (hdrSize (hdrSections b))) = true ∧ (s.ldr.reload = true ∨ singleHeader s = [] ∨ (singleHeader s).take (b.take (hdrSize (hdrSections b))).length = b.take (hdrSize (hdrSections b))) ∧ hdrWord b 0x10 % 8 = s.get SYN_ROOT_FREQ ∧ hdrWord b 0x10 / 2 ^ 16 = s.get SYN_ROOT_SOURCE_ID ∧ (s.otp.secure = false ∨ hdrSigned (b.take (hdrSize (hdrSections b))) = true)) :=
  ⟨⟨.pcie, 0, run, by unfold Writable; decide +kernel⟩,
    ⟨at_ [(GLB_STATE_STATE, 2)], by decide +kernel⟩,
    ⟨run, by decide +kernel⟩,
    ⟨run, by unfold Served; decide +kernel⟩,
    ⟨1, [2], { at_ [(GLB_STATE_STATE, 2)] with ldr := { left := [1, 2] } }, by unfold Served; decide +kernel⟩,
    ⟨run, by unfold Served; decide +kernel⟩,
    ⟨[], { at_ [(LDR_STATUS_PHASE, 1)] with ldr := { active := true } }, by unfold Served; decide +kernel⟩,
    ⟨hdr, { at_ [(GLB_STATE_STATE, 2), (LDR_STATUS_PHASE, 1), (SYN_ROOT_SOURCE_ID, 5), (SYN_ROOT_FREQ, 3)] with ldr := { active := true } }, by unfold Served; decide +kernel⟩⟩

theorem witness_image_reads_and_failures_2 :
    (∃ (b : List Byte) (s : State), Served s ∧ s.ldr.active = true ∧ s.phase = 1 ∧ hostImage s = false ∧ hdrReadable b = true ∧ (s.ldr.reload = true ∨ singleHeader s = [] ∨ (singleHeader s).take (b.take (hdrSize (hdrSections b))).length = b.take (hdrSize (hdrSections b))) ∧ (hdrValid (b.take (hdrSize (hdrSections b))) = false ∨ hdrRecord (b.take (hdrSize (hdrSections b))) = false)) ∧
    (∃ (s : State), Served s ∧ s.ldr.active = true ∧ s.phase = 1 ∧ hostImage s = true ∧ s.ldr.stream.length < 0x40) ∧
    (∃ (s : State), Served s ∧ sectionFree s = false) ∧
    (∃ (b : List Byte) (s : State), Served s ∧ sectionFree s = true ∧ hostImage s = false ∧ b.length = secLength s.ldr.hdr s.ldr.next ∧ (crc32 b).toNat ≠ secCrc s.ldr.hdr s.ldr.next ∧ s.ldr.retry = false) ∧
    (∃ (b : List Byte) (s : State), Served s ∧ sectionFree s = true ∧ hostImage s = false ∧ (b.length ≠ secLength s.ldr.hdr s.ldr.next ∨ (crc32 b).toNat ≠ secCrc s.ldr.hdr s.ldr.next) ∧ s.ldr.retry = true) ∧
    (∃ (b : List Byte) (s : State), Served s ∧ sectionFree s = true ∧ hostImage s = false ∧ b.length = secLength s.ldr.hdr s.ldr.next ∧ (crc32 b).toNat = secCrc s.ldr.hdr s.ldr.next ∧ s.ldr.executing = true) ∧
    (∃ (b : List Byte) (s : State), Served s ∧ sectionFree s = true ∧ hostImage s = false ∧ b.length = secLength s.ldr.hdr s.ldr.next ∧ (crc32 b).toNat = secCrc s.ldr.hdr s.ldr.next ∧ s.ldr.executing = false) ∧
    (∃ (s : State), s.ldr.active = false) :=
  ⟨⟨leBytes 4 0x01000044 ++ (hdr.drop 4).take 68 ++ leBytes 4 (crc32 (leBytes 4 0x01000044 ++ (hdr.drop 4).take 68)).toNat, { at_ [(GLB_STATE_STATE, 2), (LDR_STATUS_PHASE, 1)] with ldr := { active := true } }, by unfold Served; decide +kernel⟩,
    ⟨{ at_ [(LDR_STATUS_PHASE, 1), (LDR_STATUS_SOURCE, 2)] with ldr := { active := true, stream := List.replicate 63 0 } }, by unfold Served; decide +kernel⟩,
    ⟨run, by unfold Served; decide +kernel⟩,
    ⟨[0, 0, 0, 1], { run with ldr := { active := true, hdr := hdr } }, by unfold Served; decide +kernel⟩,
    ⟨[], { run with ldr := { active := true, hdr := hdr, retry := true } }, by unfold Served; decide +kernel⟩,
    ⟨[0, 0, 0, 0], { run with ldr := { active := true, hdr := hdr, executing := true } }, by unfold Served; decide +kernel⟩,
    ⟨[0, 0, 0, 0], { run with ldr := { active := true, hdr := hdr } }, by unfold Served; decide +kernel⟩,
    ⟨run, by decide +kernel⟩⟩

theorem witness_image_reads_and_failures_3 :
    (∃ (s : State), s.ldr.active = true ∧ s.ldr.reload = false) ∧
    (∃ (s : State), Served s ∧ s.phase ≠ 7) ∧
    (∃ (s : State), Served s ∧ s.phase = 7 ∧ s.ldr.escal = true) ∧
    (∃ (s : State), Served s ∧ s.phase = 7 ∧ s.ldr.escal = false ∧ (hostImage s = true ∨ s.ldr.left = [])) ∧
    (∃ (s : State), Served s ∧ s.phase = 7 ∧ s.ldr.escal = false ∧ hostImage s = false ∧ s.ldr.left ≠ []) ∧
    (∃ (s : State), Served s ∧ s.ldr.active = false) ∧
    (∃ (s : State), Served s ∧ s.ldr.active = true) :=
  ⟨⟨{ run with ldr := { active := true } }, by decide +kernel⟩,
    ⟨run, by unfold Served; decide +kernel⟩,
    ⟨{ at_ [(LDR_STATUS_PHASE, 7)] with ldr := { escal := true } }, by unfold Served; decide +kernel⟩,
    ⟨at_ [(LDR_STATUS_PHASE, 7)], by unfold Served; decide +kernel⟩,
    ⟨{ at_ [(LDR_STATUS_PHASE, 7)] with ldr := { left := [1] } }, by unfold Served; decide +kernel⟩,
    ⟨run, by unfold Served; decide +kernel⟩,
    ⟨{ run with ldr := { active := true } }, by unfold Served; decide +kernel⟩⟩

theorem witness_records_of_an_image_1 :
    (∃ (ty : Nat) (i : Instr) (f : List Byte → State → State) (s : State), ((i, ty, f) ∈ ([(.write32, 0x02, recWrite32), (.writeBlock, 0x03, recWriteBlock), (.fill, 0x04, recFill), (.modify, 0x05, recModify), (.waitTime, 0x06, recWaitTime), (.waitBit, 0x07, recWaitBit), (.tableLoad, 0x08, recTableLoad), (.key, 0x09, recKey), (.signature, 0x0A, recSignature), (.end_, 0x0B, recEnd)] : List (Instr × Nat × (List Byte → State → State)))) ∧ Served s ∧ (s.ldr.active = false ∨ s.ldr.executing = false ∨ s.phase ≠ 2 ∨ recType s ≠ ty)) ∧
    (∃ (ty : Nat) (i : Instr) (f : List Byte → State → State) (s : State), ((i, ty, f) ∈ ([(.write32, 0x02, recWrite32), (.writeBlock, 0x03, recWriteBlock), (.fill, 0x04, recFill), (.modify, 0x05, recModify), (.waitTime, 0x06, recWaitTime), (.waitBit, 0x07, recWaitBit), (.tableLoad, 0x08, recTableLoad), (.key, 0x09, recKey), (.signature, 0x0A, recSignature), (.end_, 0x0B, recEnd)] : List (Instr × Nat × (List Byte → State → State)))) ∧ Served s ∧ s.ldr.active = true ∧ s.ldr.executing = true ∧ s.phase = 2 ∧ recType s = ty) ∧
    (∃ (a v : Nat) (s : State), s.ldr.active = true ∧ (busWrite .loader a 15 (BitVec.ofNat 32 v) s).1 = 0) ∧
    (∃ (r : Reg), r ∈ [GLB_CTRL, LDR_HOST_CTRL, LDR_HOST_FIFO]) ∧
    (∃ (s : State), s.ldr.active = true ∧ s.ldr.buf.length ≤ 4 + recLen s ∧ s.ldr.buf2 = none) ∧
    (∃ (s : State), Served s ∧ (s.ldr.active = false ∨ s.ldr.wait ≠ .time)) ∧
    (∃ (s : State), Served s ∧ s.ldr.active = true ∧ s.ldr.wait = .time) ∧
    (∃ (s : State), Served s ∧ (s.ldr.active = false ∨ ∀ a m e f, s.ldr.wait ≠ .bit a m e f)) :=
  ⟨⟨0x02, .write32, recWrite32, run, by exact ⟨by simp, by unfold Served; decide +kernel⟩⟩,
    ⟨0x0B, .end_, recEnd, { at_ [(LDR_STATUS_PHASE, 2)] with ldr := { active := true, executing := true, buf := [0, 0, 0, 0x0B] } }, by exact ⟨by simp, by unfold Served; decide +kernel⟩⟩,
    ⟨0x00110400, 0, { at_ [(GLB_STATE_STATE, 2)] with ldr := { active := true } }, by decide +kernel⟩,
    ⟨LDR_HOST_FIFO, by decide +kernel⟩,
    ⟨{ run with ldr := { active := true, buf := [0, 0, 0, 0x0B] } }, by decide +kernel⟩,
    ⟨run, by unfold Served; decide +kernel⟩,
    ⟨{ run with ldr := { active := true, wait := .time } }, by unfold Served; decide +kernel⟩,
    ⟨run, by exact ⟨by unfold Served; decide +kernel, .inl rfl⟩⟩⟩

theorem witness_records_of_an_image_2 :
    (∃ (a m e : Nat) (f : Bool) (s : State), Served s ∧ s.ldr.active = true ∧ s.ldr.wait = .bit a m e f ∧ (BitVec.ofNat 32 (busRead .loader a s).2.1 &&& BitVec.ofNat 32 m : Word) = BitVec.ofNat 32 e) ∧
    (∃ (a m e : Nat) (f : Bool) (s : State), Served s ∧ s.ldr.active = true ∧ s.ldr.wait = .bit a m e f ∧ (BitVec.ofNat 32 (busRead .loader a s).2.1 &&& BitVec.ofNat 32 m : Word) ≠ BitVec.ofNat 32 e) ∧
    (∃ (a m e : Nat) (s : State), Served s ∧ s.ldr.active = true ∧ s.ldr.wait = .bit a m e true) ∧
    (∃ (a m e : Nat) (s : State), Served s ∧ s.ldr.active = true ∧ s.ldr.wait = .bit a m e false) ∧
    (∃ (s : State), Served s ∧ (s.ldr.active = false ∨ s.phase ≠ 4 ∨ s.ldr.sigAt = none ∨ s.ldr.signKey = none)) ∧
    (∃ (n : Nat) (k : List Byte) (s : State), Served s ∧ s.ldr.active = true ∧ s.phase = 4 ∧ s.ldr.sigAt = some n ∧ s.ldr.signKey = some k ∧ s.otp.keyHash ≠ some (natBE (sha256 k))) ∧
    (∃ (n : Nat) (k : List Byte) (s : State), Served s ∧ s.ldr.active = true ∧ s.phase = 4 ∧ s.ldr.sigAt = some n ∧ s.ldr.signKey = some k ∧ s.otp.keyHash = some (natBE (sha256 k)) ∧ ecdsaOk (natBE ((k.drop 0).take 32)) (natBE ((k.drop 32).take 32)) (natBE ((s.ldr.sig.drop 0).take 32)) (natBE ((s.ldr.sig.drop 32).take 32)) (s.ldr.all.take n) = true) ∧
    (∃ (n : Nat) (k : List Byte) (s : State), Served s ∧ s.ldr.active = true ∧ s.phase = 4 ∧ s.ldr.sigAt = some n ∧ s.ldr.signKey = some k ∧ s.otp.keyHash = some (natBE (sha256 k)) ∧ ecdsaOk (natBE ((k.drop 0).take 32)) (natBE ((k.drop 32).take 32)) (natBE ((s.ldr.sig.drop 0).take 32)) (natBE ((s.ldr.sig.drop 32).take 32)) (s.ldr.all.take n) = false) :=
  ⟨⟨0x00000008, 0, 0, true, { run with ldr := { active := true, wait := .bit 0x00000008 0 0 true } }, by unfold Served; decide +kernel⟩,
    ⟨0x00000008, 0, 1, false, { run with ldr := { active := true, wait := .bit 0x00000008 0 1 false } }, by unfold Served; decide +kernel⟩,
    ⟨0, 0, 1, { run with ldr := { active := true, wait := .bit 0 0 1 true } }, by unfold Served; decide +kernel⟩,
    ⟨0, 0, 1, { run with ldr := { active := true, wait := .bit 0 0 1 false } }, by unfold Served; decide +kernel⟩,
    ⟨run, by unfold Served; decide +kernel⟩,
    ⟨0, [], { at_ [(LDR_STATUS_PHASE, 4)] with ldr := { active := true, sigAt := some 0, signKey := some [] } }, by unfold Served; decide +kernel⟩,
    ⟨0, signKey, { { at_ [(LDR_STATUS_PHASE, 4)] with ldr := { active := true, sigAt := some 0, signKey := some signKey, sig := signature } } with otp := { keyHash := some (natBE (sha256 signKey)) } }, by unfold Served; decide +kernel⟩,
    ⟨0, signKey, { { at_ [(LDR_STATUS_PHASE, 4)] with ldr := { active := true, sigAt := some 0, signKey := some signKey, sig := [] } } with otp := { keyHash := some (natBE (sha256 signKey)) } }, by unfold Served; decide +kernel⟩⟩

theorem witness_host_loads_1 :
    (∃ (m : BusMaster) (v : Word) (s : State), Writable m LDR_HOST_CTRL (withField LDR_HOST_CTRL_ABORT 0 (withField LDR_HOST_CTRL_START 1 v)) s ∧ s.on LDR_HOST_CTRL_START = false ∧ ((s.dev = .safeMode ∧ (m = .pcie ∨ m = .spi)) ∨ (s.dev = .loading ∧ s.on LDR_HOST_STATUS_WAITING = true ∧ hostMay s m = true))) ∧
    (∃ (m : BusMaster) (s : State), s.inReset = false ∧ s.gated = false ∧ served s m = true ∧ m ≠ .loader ∧ privOf s m = 2 ∧ s.on LDR_HOST_CTRL_START = false ∧ s.word LDR_HOST_CTRL = 0 ∧ s.dev ≠ .safeMode ∧ (s.dev ≠ .loading ∨ s.on LDR_HOST_STATUS_WAITING = false ∨ hostMay s m = false)) ∧
    (∃ (m : BusMaster) (s : State), s.dev = .safeMode ∧ (m = .pcie ∨ m = .spi)) ∧
    (∃ (m : BusMaster) (s : State), s.dev = .loading ∧ s.on LDR_HOST_STATUS_WAITING = true ∧ hostMay s m = true) ∧
    (∃ (m : BusMaster) (s : State), s.dev ≠ .safeMode ∧ (s.dev ≠ .loading ∨ s.on LDR_HOST_STATUS_WAITING = false ∨ hostMay s m = false)) ∧
    (∃ (m : BusMaster) (v : Word) (s : State), Writable m LDR_HOST_CTRL (withField LDR_HOST_CTRL_ABORT 1 (withField LDR_HOST_CTRL_START 0 v)) s) ∧
    (∃ (s : State), hostActive s = false) ∧
    (∃ (s : State), hostActive s = true) :=
  ⟨⟨.pcie, 0, at_ [(GLB_STATE_STATE, 4)], by unfold Writable; decide +kernel⟩,
    ⟨.pcie, run, by decide +kernel⟩,
    ⟨.spi, at_ [(GLB_STATE_STATE, 4)], by decide +kernel⟩,
    ⟨.pcie, at_ [(GLB_STATE_STATE, 2), (LDR_HOST_STATUS_WAITING, 1)], by decide +kernel⟩,
    ⟨.mmp, run, by decide +kernel⟩,
    ⟨.pcie, 0, run, by unfold Writable; decide +kernel⟩,
    ⟨run, by decide +kernel⟩,
    ⟨{ at_ [(LDR_STATUS_SOURCE, 2)] with ldr := { active := true } }, by decide +kernel⟩⟩

theorem witness_host_loads_2 :
    (∃ (m : BusMaster) (v : Word) (s : State), Writable m LDR_HOST_FIFO v s) ∧
    (∃ (m : BusMaster) (s : State), (hostActive s = false ∨ s.ldr.hostIf ≠ ifOf m)) ∧
    (∃ (m : BusMaster) (s : State), hostActive s = true ∧ s.ldr.hostIf = ifOf m ∧ 1024 ≤ fifoWords s) ∧
    (∃ (m : BusMaster) (s : State), hostActive s = true ∧ s.ldr.hostIf = ifOf m ∧ fifoWords s < 1024) ∧
    (∃ (s : State), Served s ∧ hostActive s = false) ∧
    (∃ (s : State), Served s ∧ hostActive s = true) ∧
    (∃ (s : State), Served s ∧ (s.on LDR_HOST_STATUS_WAITING = false ∨ s.get LDR_CFG_HOST_TO = 0)) ∧
    (∃ (s : State), Served s ∧ s.on LDR_HOST_STATUS_WAITING = true ∧ s.get LDR_CFG_HOST_TO ≠ 0) :=
  ⟨⟨.pcie, 0xFFFFFFFF, run, by unfold Writable; decide +kernel⟩,
    ⟨.pcie, run, by decide +kernel⟩,
    ⟨.pcie, { at_ [(LDR_STATUS_SOURCE, 2)] with ldr := { active := true, hostIf := 1, stream := List.replicate 4925 0 } }, by decide +kernel⟩,
    ⟨.spi, { at_ [(LDR_STATUS_SOURCE, 2)] with ldr := { active := true, hostIf := 2, stream := List.replicate 4924 0 } }, by decide +kernel⟩,
    ⟨run, by unfold Served; decide +kernel⟩,
    ⟨{ at_ [(LDR_STATUS_SOURCE, 2)] with ldr := { active := true } }, by unfold Served; decide +kernel⟩,
    ⟨at_ [(LDR_HOST_STATUS_WAITING, 1), (LDR_CFG_HOST_TO, 0)], by unfold Served; decide +kernel⟩,
    ⟨at_ [(LDR_HOST_STATUS_WAITING, 1), (LDR_CFG_HOST_TO, 1)], by unfold Served; decide +kernel⟩⟩

theorem witness_management_ports_and_jtag_1 :
    (∃ (s : State), s.inReset = true) ∧
    (∃ (s : State), s.inReset = false ∧ (s.dev = .reset ∨ s.dev = .clockStart)) ∧
    (∃ (q : CfgReq), (∀ v m, q ≠ .vector v m)) ∧
    (∃ (q : CfgReq), (∃ v m, q = .vector v m)) ∧
    (∃ (s : State), s.inReset = false ∧ s.dev ≠ .reset ∧ s.dev ≠ .clockStart) ∧
    (∃ (s : State), s.inReset = false ∧ s.dev ≠ .reset ∧ s.dev ≠ .clockStart) ∧
    (∃ (s : State), s.inReset = false ∧ s.dev ≠ .reset ∧ s.dev ≠ .clockStart) ∧
    (∃ (s : State), s.inReset = false ∧ s.dev ≠ .reset ∧ s.dev ≠ .clockStart) :=
  ⟨⟨{ run with inReset := true }, by decide +kernel⟩,
    ⟨at_ [(GLB_STATE_STATE, 1)], by decide +kernel⟩,
    ⟨.read 0, by simp⟩,
    ⟨.vector 0 true, by simp⟩,
    ⟨run, by decide +kernel⟩,
    ⟨run, by decide +kernel⟩,
    ⟨run, by decide +kernel⟩,
    ⟨run, by decide +kernel⟩⟩

theorem witness_management_ports_and_jtag_2 :
    (∃ (s : State), msixRuns s = false) ∧
    (∃ (v : Nat) (s : State), msixRuns s = true ∧ vecMasked s v = false) ∧
    (∃ (v : Nat) (s : State), msixRuns s = true ∧ vecMasked s v = true) ∧
    (∃ (t : Fin 8) (d : List Word) (s : State), s.inReset = false ∧ (dmaRuns s = false ∨ txServed s ≠ some t.val ∨ (d.getD 3 0).getLsbD 0 = false)) ∧
    (∃ (t : Fin 8) (d : List Word) (s : State), s.inReset = false ∧ dmaRuns s = true ∧ txServed s = some t.val ∧ (d.getD 3 0).getLsbD 0 = true ∧ (((d.getD 2 0).toNat % 2 ^ 14) < 60 ∨ 9596 < ((d.getD 2 0).toNat % 2 ^ 14))) ∧
    (∃ (t : Fin 8) (d : List Word) (f : List Byte) (s : State), s.inReset = false ∧ dmaRuns s = true ∧ txServed s = some t.val ∧ (d.getD 3 0).getLsbD 0 = true ∧ 60 ≤ ((d.getD 2 0).toNat % 2 ^ 14) ∧ ((d.getD 2 0).toNat % 2 ^ 14) ≤ 9596 ∧ (f.length < ((d.getD 2 0).toNat % 2 ^ 14) ∨ s.get (POOL_FREE_V 2) < cellsOf (((d.getD 2 0).toNat % 2 ^ 14) + 4) ∨ s.on (POOL_CFG_EN 2) = false)) ∧
    (∃ (t : Fin 8) (d : List Word) (f : List Byte) (x : List Nat × State) (s : State), s.inReset = false ∧ dmaRuns s = true ∧ txServed s = some t.val ∧ (d.getD 3 0).getLsbD 0 = true ∧ 60 ≤ ((d.getD 2 0).toNat % 2 ^ 14) ∧ ((d.getD 2 0).toNat % 2 ^ 14) ≤ 9596 ∧ ((d.getD 2 0).toNat % 2 ^ 14) ≤ f.length ∧ cellsOf (((d.getD 2 0).toNat % 2 ^ 14) + 4) ≤ s.get (POOL_FREE_V 2) ∧ s.on (POOL_CFG_EN 2) = true ∧ x = cpuBuffers clsCpuDma (cellsOf (((d.getD 2 0).toNat % 2 ^ 14) + 4)) s) ∧
    (∃ (t : Fin 8) (s : State), s.inReset = false ∧ dmaRuns s = true ∧ txServed s = some t.val) :=
  ⟨⟨run, by decide +kernel⟩,
    ⟨31, { run with mgt := { bme := true, msixEn := true, vecMask := 0 } }, by decide +kernel⟩,
    ⟨31, { run with mgt := { bme := true, msixEn := true } }, by decide +kernel⟩,
    ⟨0, [], run, by decide +kernel⟩,
    ⟨7, [0, 0, 59, 1], { at_ [(MGT_DMA_CTRL_EN, 1), (MAC_STATUS_STATE 64, 4), (MGT_RING_EN_V 7, 1), (MGT_RING_TAIL_V 7, 1)] with mgt := { bme := true } }, by decide +kernel⟩,
    ⟨0, [0, 0, 9596, 1], [], { at_ [(MGT_DMA_CTRL_EN, 1), (MAC_STATUS_STATE 64, 4), (MGT_RING_EN_V 0, 1), (MGT_RING_TAIL_V 0, 1)] with mgt := { bme := true } }, by decide +kernel⟩,
    ⟨7, [0, 0, 60, 1], List.replicate 60 0, cpuBuffers clsCpuDma 1 ({ at_ [(MGT_DMA_CTRL_EN, 1), (MAC_STATUS_STATE 64, 4), (MGT_RING_EN_V 7, 1), (MGT_RING_TAIL_V 7, 1), (POOL_CFG_EN 2, 1), (POOL_FREE_V 2, 1)] with mgt := { bme := true } }), { at_ [(MGT_DMA_CTRL_EN, 1), (MAC_STATUS_STATE 64, 4), (MGT_RING_EN_V 7, 1), (MGT_RING_TAIL_V 7, 1), (POOL_CFG_EN 2, 1), (POOL_FREE_V 2, 1)] with mgt := { bme := true } }, by exact ⟨by decide +kernel, by decide +kernel, by decide +kernel, by decide +kernel, by decide +kernel, by decide +kernel, by decide +kernel, by decide +kernel, by decide +kernel, rfl⟩⟩,
    ⟨0, { at_ [(MGT_DMA_CTRL_EN, 1), (MAC_STATUS_STATE 64, 4), (MGT_RING_EN_V 0, 1), (MGT_RING_TAIL_V 0, 1)] with mgt := { bme := true } }, by decide +kernel⟩⟩

theorem witness_management_ports_and_jtag_3 :
    (∃ (t : Fin 8) (s : State), s.inReset = false ∧ (dmaRuns s = false ∨ txServed s ≠ some t.val)) ∧
    (∃ (t : Fin 8) (s : State), s.inReset = false ∧ (dmaRuns s = false ∨ ringReady s (8 + t.val) = false)) ∧
    (∃ (t : Fin 8) (b : LbCopy) (l : List LbCopy) (s : State), s.inReset = false ∧ dmaRuns s = true ∧ ringReady s (8 + t.val) = true ∧ s.get MGT_DMA_CTRL_LB_RING = t.val ∧ s.mgt.loops = b :: l) ∧
    (∃ (t : Fin 8) (s : State), s.inReset = false ∧ dmaRuns s = true ∧ ringReady s (8 + t.val) = true ∧ (s.get MGT_DMA_CTRL_LB_RING ≠ t.val ∨ s.mgt.loops = []) ∧ headReady (queueJoin (512 + t.val) s) (512 + t.val) = none) ∧
    (∃ (t : Fin 8) (c : Nat) (s : State), s.inReset = false ∧ dmaRuns s = true ∧ ringReady s (8 + t.val) = true ∧ (s.get MGT_DMA_CTRL_LB_RING ≠ t.val ∨ s.mgt.loops = []) ∧ headReady (queueJoin (512 + t.val) s) (512 + t.val) = some c) ∧
    (∃ (l : List Byte) (s : State), s.inReset = false ∧ (served s .spi = false ∨ (s.gated = false ∧ l.length < 4))) ∧
    (∃ (l : List Byte) (s : State), s.inReset = false ∧ served s .spi = true ∧ s.gated = false ∧ l.length = 4) ∧
    (∃ (l : List Byte), 4 ≤ l.length) :=
  ⟨⟨0, { at_ [(MGT_DMA_CTRL_EN, 1), (MAC_STATUS_STATE 64, 4), (MGT_RING_EN_V 7, 1), (MGT_RING_TAIL_V 7, 1), (MGT_RING_EN_V 0, 1), (MGT_RING_TAIL_V 0, 1)] with mgt := { bme := true } }, by decide +kernel⟩,
    ⟨0, run, by decide +kernel⟩,
    ⟨7, ⟨[], 0, 0, 0, 0, []⟩, [], { at_ [(MGT_DMA_CTRL_EN, 1), (MAC_STATUS_STATE 64, 4), (MGT_RING_EN_V 15, 1), (MGT_RING_TAIL_V 15, 1), (MGT_DMA_CTRL_LB_RING, 7)] with mgt := { bme := true, loops := [⟨[], 0, 0, 0, 0, []⟩] } }, by decide +kernel⟩,
    ⟨7, { at_ [(MGT_DMA_CTRL_EN, 1), (MAC_STATUS_STATE 64, 4), (MGT_RING_EN_V 15, 1), (MGT_RING_TAIL_V 15, 1)] with mgt := { bme := true } }, by decide +kernel⟩,
    ⟨0, 0, { at_ [(MGT_DMA_CTRL_EN, 1), (MAC_STATUS_STATE 64, 4), (MGT_RING_EN_V 8, 1), (MGT_RING_TAIL_V 8, 1)] with mgt := { bme := true }, queues := [(512, { copies := [0], head := [⟨0, 0, 0⟩] })], copies := [(0, { cut := true })] }, by decide +kernel⟩,
    ⟨[], run, by decide +kernel⟩,
    ⟨[0, 0, 0, 0], run, by decide +kernel⟩,
    ⟨[1, 2, 3, 4], by decide +kernel⟩⟩

theorem witness_management_ports_and_jtag_4 :
    (∃ (s : State), s.inReset = false ∧ served s .spi = false) ∧
    (∃ (s : State), s.inReset = false ∧ served s .spi = true ∧ s.gated = true) ∧
    (∃ (s : State), s.inReset = false ∧ served s .spi = true ∧ s.gated = true) ∧
    (∃ (s : State), s.inReset = false ∧ served s .spi = true ∧ s.gated = false) ∧
    (∃ (s : State), s.inReset = false ∧ served s .spi = false) ∧
    (∃ (s : State), s.inReset = false ∧ served s .spi = true) ∧
    (∃ (s : State), Served s ∧ (s.mgt.mmpq = [] ∨ served s .mmp = false)) ∧
    (∃ (r : MmpReq) (l : List MmpReq) (p : List Byte) (s : State), Served s ∧ s.mgt.mmpq = r :: l ∧ served s .mmp = true ∧ p = (r.frame.take (r.frame.length - 4)).drop (parseFrame r.frame).off ∧ (byteAt p 0 ≠ 1 ∨ byteAt p 1 ≠ 1 ∨ natLE ((p.drop 2).take 2) = 0 ∨ 64 < natLE ((p.drop 2).take 2))) :=
  ⟨⟨at_ [(GLB_STATE_STATE, 1)], by decide +kernel⟩,
    ⟨at_ [(SYN_STATUS_GATED, 1)], by decide +kernel⟩,
    ⟨at_ [(SYN_STATUS_GATED, 1)], by decide +kernel⟩,
    ⟨run, by decide +kernel⟩,
    ⟨at_ [(GLB_STATE_STATE, 1)], by decide +kernel⟩,
    ⟨run, by decide +kernel⟩,
    ⟨run, by unfold Served; decide +kernel⟩,
    ⟨⟨0, mmpFrame ([0])⟩, [], [0], { run with mgt := { mmpq := [⟨0, mmpFrame ([0])⟩] } }, by unfold Served; decide +kernel⟩⟩

theorem witness_management_ports_and_jtag_5 :
    (∃ (r : MmpReq) (l : List MmpReq) (p : List Byte) (s : State), Served s ∧ s.mgt.mmpq = r :: l ∧ served s .mmp = true ∧ p = (r.frame.take (r.frame.length - 4)).drop (parseFrame r.frame).off ∧ byteAt p 0 = 1 ∧ byteAt p 1 = 1 ∧ 1 ≤ natLE ((p.drop 2).take 2) ∧ natLE ((p.drop 2).take 2) ≤ 64 ∧ (p.drop 12).take 4 = [0, 0, 0, 0] ∧ 16 + 12 * natLE ((p.drop 2).take 2) + 32 ≤ p.length ∧ (s.on MGT_MMP_CFG_KEY_SET = false ∨ hmac256 (leBytes 32 (s.wide MGT_MMP_KEY)) (p.take (16 + 12 * natLE ((p.drop 2).take 2))) ≠ (p.drop (16 + 12 * natLE ((p.drop 2).take 2))).take 32)) ∧
    (∃ (r : MmpReq) (l : List MmpReq) (p : List Byte) (s : State), Served s ∧ s.mgt.mmpq = r :: l ∧ served s .mmp = true ∧ p = (r.frame.take (r.frame.length - 4)).drop (parseFrame r.frame).off ∧ byteAt p 0 = 1 ∧ byteAt p 1 = 1 ∧ 1 ≤ natLE ((p.drop 2).take 2) ∧ natLE ((p.drop 2).take 2) ≤ 64 ∧ (p.drop 12).take 4 = [0, 0, 0, 0] ∧ 16 + 12 * natLE ((p.drop 2).take 2) + 32 ≤ p.length ∧ s.on MGT_MMP_CFG_KEY_SET = true ∧ hmac256 (leBytes 32 (s.wide MGT_MMP_KEY)) (p.take (16 + 12 * natLE ((p.drop 2).take 2))) = (p.drop (16 + 12 * natLE ((p.drop 2).take 2))).take 32 ∧ natLE ((p.drop 4).take 8) ≤ s.wide MGT_MMP_LAST_SEQ) ∧
    (∃ (r : MmpReq) (l : List MmpReq) (p : List Byte) (s : State), Served s ∧ s.mgt.mmpq = r :: l ∧ served s .mmp = true ∧ p = (r.frame.take (r.frame.length - 4)).drop (parseFrame r.frame).off ∧ byteAt p 0 = 1 ∧ byteAt p 1 = 1 ∧ 1 ≤ natLE ((p.drop 2).take 2) ∧ natLE ((p.drop 2).take 2) ≤ 64 ∧ (p.drop 12).take 4 = [0, 0, 0, 0] ∧ 16 + 12 * natLE ((p.drop 2).take 2) + 32 ≤ p.length ∧ s.on MGT_MMP_CFG_KEY_SET = true ∧ hmac256 (leBytes 32 (s.wide MGT_MMP_KEY)) (p.take (16 + 12 * natLE ((p.drop 2).take 2))) = (p.drop (16 + 12 * natLE ((p.drop 2).take 2))).take 32 ∧ s.wide MGT_MMP_LAST_SEQ < natLE ((p.drop 4).take 8)) ∧
    (∃ (i : Instr) (j : JtagInstr) (s : State), (i, j) ∈ ([(.bypass, .bypass), (.samplePreload, .sample), (.extest, .extest), (.extestPulse, .extestPulse), (.extestTrain, .extestTrain)] : List (Instr × JtagInstr)) ∧ (s.mgt.jtag.drives = false ∨ s.mgt.jtag = j)) ∧
    (∃ (i : Instr) (j : JtagInstr) (s : State), (i, j) ∈ ([(.bypass, .bypass), (.samplePreload, .sample), (.extest, .extest), (.extestPulse, .extestPulse), (.extestTrain, .extestTrain)] : List (Instr × JtagInstr)) ∧ s.mgt.jtag.drives = true ∧ s.mgt.jtag ≠ j) ∧
    (∃ (s : State), s.mgt.jtag.drives = false) ∧
    (∃ (s : State), s.mgt.jtag.drives = true) :=
  ⟨⟨⟨0, mmpFrame (mmpReq 0 ++ List.replicate 32 0)⟩, [], mmpReq 0 ++ List.replicate 32 0, { run with mgt := { mmpq := [⟨0, mmpFrame (mmpReq 0 ++ List.replicate 32 0)⟩] } }, by unfold Served; decide +kernel⟩,
    ⟨⟨0, mmpFrame ((mmpReq 0 ++ hmac256 (leBytes 32 0) (mmpReq 0)))⟩, [], (mmpReq 0 ++ hmac256 (leBytes 32 0) (mmpReq 0)), { at_ [(MGT_MMP_CFG_KEY_SET, 1)] with mgt := { mmpq := [⟨0, mmpFrame ((mmpReq 0 ++ hmac256 (leBytes 32 0) (mmpReq 0)))⟩] } }, by unfold Served; decide +kernel⟩,
    ⟨⟨0, mmpFrame ((mmpReq 1 ++ hmac256 (leBytes 32 0) (mmpReq 1)))⟩, [], (mmpReq 1 ++ hmac256 (leBytes 32 0) (mmpReq 1)), { at_ [(MGT_MMP_CFG_KEY_SET, 1)] with mgt := { mmpq := [⟨0, mmpFrame ((mmpReq 1 ++ hmac256 (leBytes 32 0) (mmpReq 1)))⟩] } }, by unfold Served; decide +kernel⟩,
    ⟨.extestTrain, .extestTrain, run, by decide +kernel⟩,
    ⟨.bypass, .bypass, { run with mgt := { jtag := .extest } }, by decide +kernel⟩,
    ⟨run, by decide +kernel⟩,
    ⟨{ run with mgt := { jtag := .extestPulse } }, by decide +kernel⟩⟩

theorem witness_interrupts_module_buses_and_counters_1 :
    (∃ (m : BusMaster) (v : Word) (s : State), Writable m MGT_IRQ_REARM v s) ∧
    (∃ (k : Fin 32) (s : State), k.val ∈ vecsHigh s) ∧
    (∃ (k : Fin 32) (s : State), k.val ∉ vecsHigh s) ∧
    (∃ (m : BusMaster) (b : Fin 4) (v : Word) (s : State), Writable m (MGT_I2C_CMD b) (withField (MGT_I2C_CMD_GO b) 1 v) s ∧ s.on (MGT_I2C_CMD_GO b) = false) ∧
    (∃ (b : Fin 4) (s : State), (s.on (MGT_I2C_CFG_EN b) = false ∨ s.on (MGT_I2C_STATUS_BUSY b) = true)) ∧
    (∃ (b : Fin 4) (s : State), s.on (MGT_I2C_CFG_EN b) = true ∧ s.on (MGT_I2C_STATUS_BUSY b) = false ∧ s.on (MGT_I2C_CFG_MUX_EN b) = false ∧ s.on (MGT_I2C_CMD_PAGE_EN b) = false ∧ s.on (MGT_I2C_CMD_WRITE b) = false) ∧
    (∃ (b : Fin 4) (s : State), Served s ∧ s.on (MGT_I2C_STATUS_BUSY b) = false) ∧
    (∃ (b : Fin 4) (s : State), Served s ∧ s.on (MGT_I2C_STATUS_BUSY b) = true) :=
  ⟨⟨.pcie, 0xFFFFFFFF, run, by unfold Writable; decide +kernel⟩,
    ⟨21, at_ [(MGT_IRQ_EN_V, 0xFFFFFFFF), (PMC_EVENT_DUMP, 1)], by decide +kernel⟩,
    ⟨31, run, by decide +kernel⟩,
    ⟨.pcie, 3, 0x5000, at_ [(MGT_I2C_CFG_EN 3, 1)], by unfold Writable; decide +kernel⟩,
    ⟨3, run, by decide +kernel⟩,
    ⟨3, at_ [(MGT_I2C_CFG_EN 3, 1)], by decide +kernel⟩,
    ⟨0, run, by unfold Served; decide +kernel⟩,
    ⟨3, at_ [(MGT_I2C_STATUS_BUSY 3, 1)], by unfold Served; decide +kernel⟩⟩

theorem witness_interrupts_module_buses_and_counters_2 :
    (∃ (b : Fin 4) (s : State), Served s ∧ s.on (MGT_I2C_STATUS_BUSY b) = false) ∧
    (∃ (b : Fin 4) (s : State), Served s ∧ s.on (MGT_I2C_STATUS_BUSY b) = true) ∧
    (∃ (m : BusMaster) (v : Word) (s : State), Writable m MGT_MDIO_CMD (withField MGT_MDIO_CMD_GO 1 v) s ∧ s.on MGT_MDIO_CMD_GO = false) ∧
    (∃ (s : State), s.on MGT_MDIO_STATUS_BUSY = true) ∧
    (∃ (s : State), s.on MGT_MDIO_STATUS_BUSY = false) ∧
    (∃ (s : State), Served s ∧ s.on MGT_MDIO_STATUS_BUSY = false) ∧
    (∃ (s : State), Served s ∧ s.on MGT_MDIO_STATUS_BUSY = true) ∧
    (∃ (m : BusMaster) (v : Word) (s : State), Writable m PMC_CTRL (withField PMC_CTRL_CLEAR 1 v) s ∧ s.on PMC_CTRL_CLEAR = false) :=
  ⟨⟨0, run, by unfold Served; decide +kernel⟩,
    ⟨3, at_ [(MGT_I2C_STATUS_BUSY 3, 1)], by unfold Served; decide +kernel⟩,
    ⟨.pcie, 0, run, by unfold Writable; decide +kernel⟩,
    ⟨at_ [(MGT_MDIO_STATUS_BUSY, 1)], by decide +kernel⟩,
    ⟨run, by decide +kernel⟩,
    ⟨run, by unfold Served; decide +kernel⟩,
    ⟨at_ [(MGT_MDIO_STATUS_BUSY, 1)], by unfold Served; decide +kernel⟩,
    ⟨.pcie, 0, run, by unfold Writable; decide +kernel⟩⟩

theorem witness_interrupts_module_buses_and_counters_3 :
    (∃ (m : BusMaster) (v : Word) (s : State), Writable m PMC_CTRL v s ∧ v.toNat.testBit 1 = false) ∧
    (∃ (m : BusMaster) (v : Word) (s : State), Writable m PMC_CTRL v s ∧ v.toNat.testBit 1 = true ∧ s.on PMC_CTRL_CLEAR = false) ∧
    (∃ (n : _), n < 64) ∧
    (∃ (m : BusMaster) (v : Word) (s : State), Writable m PMC_DUMP_CTRL (withField PMC_DUMP_CTRL_NOW 1 v) s ∧ s.on PMC_DUMP_CTRL_NOW = false) ∧
    (∃ (s : State), Served s ∧ (s.on PMC_DUMP_CTRL_EN = false ∨ s.stage ≠ 0)) ∧
    (∃ (s : State), Served s ∧ s.on PMC_DUMP_CTRL_EN = true ∧ s.stage = 0) ∧
    (∃ (s : State), s.stage ≠ 0) ∧
    (∃ (s : State), s.stage = 0) :=
  ⟨⟨.pcie, 1, run, by unfold Writable; decide +kernel⟩,
    ⟨.pcie, 3, run, by unfold Writable; decide +kernel⟩,
    ⟨63, by decide +kernel⟩,
    ⟨.pcie, 0x03E80000, run, by unfold Writable; decide +kernel⟩,
    ⟨run, by unfold Served; decide +kernel⟩,
    ⟨at_ [(PMC_DUMP_CTRL_EN, 1)], by unfold Served; decide +kernel⟩,
    ⟨at_ [(PWR_STATUS_STAGE, 1)], by decide +kernel⟩,
    ⟨run, by decide +kernel⟩⟩

theorem witness_interrupts_module_buses_and_counters_4 :
    (∃ (s : State), s.on PMC_DUMP_CTRL_DEST = false) ∧
    (∃ (s : State), s.on PMC_DUMP_CTRL_DEST = true ∧ s.mgt.bme = false) ∧
    (∃ (s : State), s.on PMC_DUMP_CTRL_DEST = true ∧ s.mgt.bme = true ∧ (s.get PMC_DUMP_HOST_WR_V + 1) % s.get PMC_DUMP_HOST_SIZE_V ≠ s.get PMC_DUMP_HOST_RD_V) :=
  ⟨⟨at_ [(PMC_DUMP_CTRL_DEST, 0)], by decide +kernel⟩,
    ⟨at_ [(PMC_DUMP_CTRL_DEST, 1)], by decide +kernel⟩,
    ⟨{ at_ [(PMC_DUMP_CTRL_DEST, 1), (PMC_DUMP_HOST_SIZE_V, 2)] with mgt := { bme := true } }, by decide +kernel⟩⟩

theorem witness_rounding_to_nearest_ties_to_even :
    ∃ (a : Int) (b : Nat), 0 < b ∧ 2 * (a - b * roundDiv a b).natAbs = b :=
  ⟨-3, 2, by decide +kernel⟩

theorem witness_realign_while_invalid_is_rejected :
    (∃ (m : BusMaster) (v : Word) (s : State), Writable m PPS_REALIGN v s ∧ s.get TB_STATUS_STATE = 0) ∧
    (∃ (s : State) (n : _), s.get TB_STATUS_STATE = 0 ∧ n < 4) :=
  ⟨⟨.pcie, 15, run, by unfold Writable; decide +kernel⟩,
    ⟨run, 3, by decide +kernel⟩⟩

theorem witness_frames_of_the_blocks_1 :
    (∃ (e : TiuInput) (x : TiuStop) (stop : TiuEdge) (ago : Nat) (s : State) (i : _), Served s ∧ i ∈ ([.tiuBaseLocked, .tiuStartEdge e stop ago, .tiuStopEdge x, .tiuWindowClose, .tiuStartTimeout, .tiuRefPresent, .tiuRefLost, .tiuMultiplierLossOfLock] : List Instr)) ∧
    (∃ (r : Fin 5) (s : State) (i : _), Served s ∧ i ∈ ([.supplyTriggerClear, .railBelowHysteresis r] : List Instr)) ∧
    (∃ (n : Fin 65) (e : Nat) (s : State) (i : _), Served s ∧ i ∈ ([.mateAlivePresent, .laneLoopTest n e] : List Instr)) ∧
    (∃ (s : State) (i : _), Served s ∧ i ∈ ([.healthSend, .seqSend] : List Instr)) ∧
    (∃ (b : Fin 4) (r : I2cResult) (l : List Byte) (d : Fin 65536) (s : State) (i : _), Served s ∧ i ∈ ([.i2cDone b r l, .i2cTimeout b, .mdioDone d] : List Instr)) ∧
    (∃ (s : State) (i : _), Served s ∧ i ∈ ([.spiStatus] : List Instr)) ∧
    (∃ (s : State) (i : _), Served s ∧ i ∈ ([.imageReadStart, .waitTime, .waitBit, .signature] : List Instr)) ∧
    (∃ (n : Fin 65) (e : Nat) (w : List Bool) (s : State) (i : _), Served s ∧ i ∈ ([.laneBackoffReset n, .prbsCheckerLock ⟨n, w⟩, .prbsCheckerUnlock n w, .eyeScanDone n e, .laneSyntEstimate n [] e, .laneCrossingMargin n] : List Instr)) :=
  ⟨⟨⟨0, false, ⟨0, 0⟩⟩, ⟨0, false, ⟨0, 0⟩, ⟨0, 0⟩, 0⟩, ⟨0, 0⟩, 0, run, .tiuRefLost, by unfold Served; exact ⟨by decide +kernel, by simp⟩⟩,
    ⟨4, run, .railBelowHysteresis 4, by unfold Served; decide +kernel⟩,
    ⟨64, 0, run, .laneLoopTest 64 0, by unfold Served; decide +kernel⟩,
    ⟨run, .seqSend, by unfold Served; decide +kernel⟩,
    ⟨3, .ok, [], 65535, run, .mdioDone 65535, by unfold Served; decide +kernel⟩,
    ⟨run, .spiStatus, by unfold Served; decide +kernel⟩,
    ⟨run, .signature, by unfold Served; decide +kernel⟩,
    ⟨64, 0, [], run, .eyeScanDone 64 0, by unfold Served; exact ⟨by decide +kernel, by simp⟩⟩⟩

theorem witness_frames_of_the_blocks_2 :
    (∃ (n : Fin 2) (f : Bool) (c : Fin 5) (l : List Byte) (s : State) (i : _), Served s ∧ i ∈ ([.ppsinEdge n ⟨f, c⟩, .todinMessage l, .todinEdge n ⟨f, c⟩, .todinEdgeTimeout] : List Instr)) ∧
    (∃ (n : Fin 2) (k : Fin 4) (s : State) (i : _), Served s ∧ i ∈ ([.capstanBandSearch, .clockStartRetry, .capstanRetry, .auxLossOfLock n, .fbLost k] : List Instr)) ∧
    (∃ (k : Fin 512) (s : State) (i : _), Served s ∧ i ∈ ([.responseTimeout k, .l1syncReceiptTimeout k] : List Instr)) ∧
    (∃ (p : Fin 66) (ok : Bool) (s : State) (i : _), Served s ∧ i ∈ ([.verifyDone p ok] : List Instr)) ∧
    (∃ (s : State), Served s ∧ s.tiu.nextA = none ∧ s.tiu.nextB = none) ∧
    (∃ (k : Fin 512) (s : State), Served s ∧ (s.sessRec k).exch = none) ∧
    (∃ (s : State), Served s) :=
  ⟨⟨1, true, 4, [], run, .todinEdgeTimeout, by unfold Served; exact ⟨by decide +kernel, by simp⟩⟩,
    ⟨1, 3, run, .fbLost 3, by unfold Served; decide +kernel⟩,
    ⟨511, run, .responseTimeout 511, by unfold Served; exact ⟨by decide +kernel, by simp⟩⟩,
    ⟨65, false, run, .verifyDone 65 false, by unfold Served; decide +kernel⟩,
    ⟨run, by unfold Served; decide +kernel⟩,
    ⟨511, run, by unfold Served; decide +kernel⟩,
    ⟨run, by unfold Served; decide +kernel⟩⟩

end Sys2Proof.Tests
end

section
/-!
PROOFS. Arithmetic that the model's definitions rest on: rounding (R9), and the bits of sums and differences of masked numbers (R17).
-/

namespace Sys2Proof.Machine

/-! ### Rounding -/

/-- Settles O58: the quotient rounded down leaves the remainder `r`, the next one leaves `r - b`; half a unit decides between them. -/
theorem roundingToNearestTiesToEven : Obligations.RoundingToNearestTiesToEven := by
  intro a b hb
  have hdiv : (b : Int) * (a / b) + a % b = a := Int.mul_ediv_add_emod a b
  have hlow : 0 ≤ a % (b : Int) := Int.emod_nonneg a (by omega)
  have hhigh : a % (b : Int) < b := Int.emod_lt_of_pos a (by omega)
  have hdown : a - b * (a / b) = a % b := by omega
  have hup : a - b * (a / b + 1) = a % b - b := by rw [Int.mul_add]; omega
  unfold roundDiv
  rw [if_neg (by omega)]
  dsimp only
  split
  · rw [hdown]; omega
  · split
    · split
      · rw [hdown]; omega
      · rw [hup]; omega
    · rw [hup]; omega

/-! ### Bits of masked numbers -/

/-- Numbers that share no bit add without a carry. -/
theorem testBit_add_disjoint {a b : Nat} (h : ∀ k, a.testBit k = true → b.testBit k = false) (k : Nat) :
    (a + b).testBit k = (a.testBit k || b.testBit k) := by
  induction k generalizing a b with
  | zero =>
    have hodd := h 0
    simp only [Nat.testBit_zero, decide_eq_true_eq, decide_eq_false_iff_not] at hodd ⊢
    rw [← Bool.decide_or, decide_eq_decide]
    omega
  | succ k ih =>
    have hodd := h 0
    simp only [Nat.testBit_zero, decide_eq_true_eq, decide_eq_false_iff_not] at hodd
    have hhalf : (a + b) / 2 = a / 2 + b / 2 := by omega
    simp only [Nat.testBit_succ, hhalf]
    exact ih (fun j hj => by simpa only [Nat.testBit_succ] using h (j + 1) (by simpa only [Nat.testBit_succ] using hj))

/-- A number less its part under a mask keeps the bits outside the mask. -/
theorem testBit_sub_and (x m k : Nat) : (x - (x &&& m)).testBit k = (x.testBit k && !m.testBit k) := by
  have hparts : (x &&& m) + (x ^^^ (x &&& m)) = x := by
    refine Nat.eq_of_testBit_eq fun j => ?_
    rw [testBit_add_disjoint (fun i hi => by simp_all), Nat.testBit_xor, Nat.testBit_and]
    cases x.testBit j <;> cases m.testBit j <;> rfl
  have hsub : x - (x &&& m) = x ^^^ (x &&& m) := by omega
  rw [hsub, Nat.testBit_xor, Nat.testBit_and]
  cases x.testBit k <;> cases m.testBit k <;> rfl

/-- The bits under a mask replaced by those of another number. -/
theorem testBit_replace (x v m k : Nat) :
    (x - (x &&& m) + (v &&& m)).testBit k = if m.testBit k then v.testBit k else x.testBit k := by
  rw [testBit_add_disjoint (fun i hi => by simp_all [testBit_sub_and]), testBit_sub_and, Nat.testBit_and]
  cases m.testBit k <;> simp

/-- Settles O16: the RW bits are replaced, then the RW1C bits written 1 removed, then the W1S bits written 1 added. -/
theorem writeByTypeOfField : Obligations.WriteByTypeOfField := by
  intro h old written v k
  unfold writtenValue
  simp only [Nat.testBit_or, testBit_sub_and, testBit_replace, Nat.testBit_and]
  cases written.testBit k with
  | false => simp
  | true =>
    cases v.testBit k with
    | false => simp
    | true => cases (h.maskAll (fun a => a == .w1s)).testBit k <;> cases (h.maskAll (fun a => a == .rw1c)).testBit k <;> simp

/-- A number under masks is even where the number is. -/
theorem and_even {a b c : Nat} (h : a % 2 = 0) : (a &&& b &&& c) % 2 = 0 := by
  rw [Nat.mod_two_eq_zero_iff_testBit_zero] at h ⊢
  rw [Nat.testBit_and, Nat.testBit_and, h]
  rfl

end Sys2Proof.Machine
end

section
/-!
PROOFS. What running a command gives, on top of Laws/Device.lean and Laws/Exec.lean.
-/

namespace Sys2Proof.Machine

open Sys2Proof

/-- Settles O3: a row runs a meaning, or is one of those that act in every state, and each of these answers a next state. -/
theorem everyCommandAnswersANextState : Obligations.EveryCommandAnswersANextState := by
  intro c s
  cases hc : actsAlways c with
  | false =>
    obtain ⟨f, hf⟩ := exec_run c hc
    exact ⟨_, hf s⟩
  | true =>
    rcases exec_always c hc s with h | h | ⟨_, h⟩ | ⟨_, h⟩ | ⟨_, _, h⟩ | ⟨_, h⟩ | h | h <;> exact ⟨_, h⟩

/-- Out of RESET a command leaves the follow-up of what its meaning gives. -/
theorem run_eq {f : State → State} {s t : State} (h : s.inReset = false) (ht : f s = t) : run f s = .next (settle s t) := by
  rw [run_active f s h, ht]

theorem timed_eq {f : State → State} {s t : State} (h : Served s) (ht : f s = t) : timed f s = .next (settle s t) := by
  rw [timed_served f s h, ht]

/-- A lane's timer acts while the Capstan is nominal (R218). -/
theorem laneTimed_eq {f : State → State} {s t : State} (h : Served s) (hn : s.nominal = true) (ht : f s = t) :
    laneTimed f s = .next (settle s t) := by
  obtain ⟨hr, hc⟩ := h
  exact run_eq hr (by simp [hc, hn, ht])

/-- It leaves the state where it pauses, or has nothing to do. -/
theorem laneTimed_unchanged {f : State → State} {s : State} (h : Served s) (hf : s.nominal = false ∨ f s = s) :
    laneTimed f s = .next (settle s s) := by
  rcases hf with hn | hf
  · exact run_eq h.1 (by simp [hn])
  · exact run_eq h.1 (by simp [hf])

/-- A list gone through without effect. -/
theorem forEach_unchanged {α : Type} {l : List α} {f : α → State → State} {s : State} (h : ∀ a ∈ l, f a s = s) :
    forEach l f s = s := by
  unfold forEach
  induction l with
  | nil => rfl
  | cons a t ih => rw [List.foldl_cons, h a List.mem_cons_self, ih (fun b hb => h b (List.mem_cons_of_mem a hb))]

end Sys2Proof.Machine
end

section
/-!
PROOFS. The register found at an address: its place on the map, and the registers that rows name.
-/

namespace Sys2Proof.Machine

/-! ### Finding a register word -/

theorem findReg_some {l : List RegSpec} {a : Nat} {h : RegHit} (hf : findReg l a = some h) :
    h.spec ∈ l ∧ h.spec.find a = some (h.i, h.j, h.w) := by
  induction l with
  | nil => cases hf
  | cons r t ih =>
    unfold findReg at hf
    split at hf
    · rename_i i j w hr
      obtain rfl := Option.some.inj hf
      exact ⟨List.mem_cons_self, hr⟩
    · obtain ⟨hm, hw⟩ := ih hf
      exact ⟨List.mem_cons_of_mem r hm, hw⟩

/-- An offset in strides of `n` and a rest; without a stride (`n = 0`) all of it is the rest. -/
theorem stride_split (x n : Nat) : n * (if n = 0 then 0 else x / n) + (if n = 0 then x else x % n) = x := by
  split
  · omega
  · exact Nat.div_add_mod x n

/-- The indices and the word found lead back to the address (R688). -/
theorem RegSpec.find_some {r : RegSpec} {a i j w : Nat} (h : r.find a = some (i, j, w)) :
    r.base + r.s0 * i + r.s1 * j + 4 * w = a ∧ w < r.words := by
  unfold RegSpec.find at h
  rw [Option.ite_none_left_eq_some] at h
  obtain ⟨hb, h⟩ := h
  dsimp only at h
  rw [Option.ite_none_right_eq_some] at h
  obtain ⟨⟨-, -, hw, h4⟩, hi⟩ := h
  simp only [Option.some.injEq, Prod.mk.injEq] at hi
  obtain ⟨rfl, rfl, rfl⟩ := hi
  refine ⟨?_, hw⟩
  have h0 := stride_split (a - r.base) r.s0
  generalize (if r.s0 = 0 then a - r.base else (a - r.base) % r.s0) = off at *
  have h1 := stride_split off r.s1
  omega

/-- Word `w` of the register found lies at the address, within the register. -/
theorem regAt_place {a : Nat} {h : RegHit} (hf : regAt a = some h) : h.base + 4 * h.w = a ∧ h.w < h.spec.words :=
  RegSpec.find_some (findReg_some hf).2

/-- Where a register word lies, the map names it. -/
theorem regAt_of_placeOf {s : State} {a : Nat} {h : RegHit} (hp : placeOf s a = .reg h) : regAt a = some h := by
  unfold placeOf at hp
  split at hp
  · cases hp
  · split at hp
    · split at hp
      · cases hp
      · split at hp <;> cases hp
    · split at hp
      · split at hp <;> cases hp
      · rename_i k hk
        split at hp
        · cases hp; exact hk
        · split at hp
          · cases hp
          · split at hp
            · cases hp
            · split at hp
              · cases hp
              · cases hp; exact hk

/-! ### The two control registers with rules of their own -/

/-- In a list of registers, MGT_PRIV (locked by R649) and LDR_HOST_CTRL (R634) have one word. -/
def controlsOneWord (l : List RegSpec) : Bool :=
  l.all (fun r => (r.id != .MGT_PRIV && r.id != .LDR_HOST_CTRL) || r.words == 1)

theorem controlsOneWord_ite {c : Prop} [Decidable c] {l k : List RegSpec} (hl : controlsOneWord l = true)
    (hk : controlsOneWord k = true) : controlsOneWord (if c then l else k) = true := by
  split
  · exact hl
  · exact hk

/-- The 21 blocks of the map, one after the other. -/
theorem controlsOneWord_regsOf (a : Nat) : controlsOneWord (regsOf a) = true := by
  unfold regsOf
  iterate 21 refine controlsOneWord_ite (by decide +kernel) ?_
  rfl

theorem words_of_control {a : Nat} {h : RegHit} (hf : regAt a = some h)
    (hid : h.spec.id = .MGT_PRIV ∨ h.spec.id = .LDR_HOST_CTRL) : h.spec.words = 1 := by
  have hone := List.all_eq_true.1 (controlsOneWord_regsOf a) h.spec (findReg_some hf).1
  rcases hid with hid | hid <;> simpa [hid] using hone

/-! ### Registers by name -/

/-- At the address of `r` the map has the one-word register of this name and these indices. -/
def namesOneWord (r : Reg) (id : RegId) (i j : Nat) : Bool :=
  (regAt r.addr).any (fun h => h.spec.id == id && h.i == i && h.j == j && h.wide == r.one)

theorem regAt_of_namesOneWord {r : Reg} {id : RegId} {i j : Nat} (hn : namesOneWord r id i j = true) :
    ∃ h, regAt r.addr = some h ∧ h.spec.id = id ∧ h.i = i ∧ h.j = j ∧ h.wide = r.one := by
  simp only [namesOneWord, Option.any_eq_true, Bool.and_eq_true, beq_iff_eq] at hn
  obtain ⟨h, hf, ⟨⟨hid, hi⟩, hj⟩, hwide⟩ := hn
  exact ⟨h, hf, hid, hi, hj, hwide⟩

end Sys2Proof.Machine
end

section
/-!
PROOFS. Reads by the masters: what a register word answers, what its read leaves, and what an unmapped address does (R10, R11, R17, R23).
-/

namespace Sys2Proof.Machine

open Sys2Proof

/-! ### Register words -/

theorem regRead_lowest_data {m : BusMaster} {h : RegHit} {s : State} (h0 : h.w = 0) :
    (regRead m h s).1 = regValue h s % 2 ^ 32 := by
  unfold regRead
  rw [if_pos h0]
  dsimp only
  split <;> rfl

theorem regRead_lowest_regs {m : BusMaster} {h : RegHit} {s : State} (h0 : h.w = 0) :
    (regRead m h s).2.regs = (regReadDone h (privOf s m) (counterLook h s)).regs := by
  unfold regRead
  rw [if_pos h0]
  dsimp only
  split <;> rfl

theorem regRead_higher_data {m : BusMaster} {h : RegHit} {s : State} (h0 : h.w ≠ 0) :
    (regRead m h s).1 = ((smGet [] s.shadows (shadowKey m h.base)).getD h.w 0).toNat := by
  unfold regRead
  rw [if_neg h0]

/-- The words of a value as a read captures them (R11). -/
def captureWords (h : RegHit) (v : Nat) : List Word :=
  (List.range h.spec.words).map (fun k => BitVec.ofNat 32 (v / 2 ^ (32 * k)))

theorem captureWords_getD {h : RegHit} {k : Nat} (v : Nat) (hk : k < h.spec.words) :
    ((captureWords h v).getD k 0).toNat = v / 2 ^ (32 * k) % 2 ^ 32 := by
  simp [captureWords, List.getD, hk]

theorem regRead_lowest_shadow {m : BusMaster} {h : RegHit} {s : State} (h0 : h.w = 0) (hw : h.spec.words ≠ 1) :
    smGet [] (regRead m h s).2.shadows (shadowKey m h.base) = captureWords h (regValue h s) := by
  unfold regRead
  rw [if_pos h0]
  dsimp only
  rw [if_neg hw]
  exact smGet_set_same _ _ _ _

/-- Settles O13: the lowest word's read leaves the value's words under the key from which the higher words' reads take theirs. -/
theorem wideValueCapture : Obligations.WideValueCapture := by
  intro m h k s t h0 hk hkw hsh
  refine ⟨regRead_lowest_data h0, ?_⟩
  have hshadow : smGet [] t.shadows (shadowKey m h.base) = captureWords h (regValue h s) := by
    rw [hsh, regRead_lowest_shadow h0 (by omega)]
  calc (regRead m { h with w := k } t).1
      = ((smGet [] t.shadows (shadowKey m h.base)).getD k 0).toNat := regRead_higher_data (Nat.ne_of_gt hk)
    _ = regValue h s / 2 ^ (32 * k) % 2 ^ 32 := by rw [hshadow, captureWords_getD _ hkw]

/-! ### Clear on read -/

/-- What the read of a register without a meaning of its own does: it clears the RC fields, but for an OBSERVE master (R17, R646). -/
theorem regReadDone_plain {h : RegHit} {lvl : Nat} {s : State}
    (hid : h.spec.id ∉ ([.TB_SNAP, .TIU_FIFO, .ECC_LOG, .POOL_LOW_WATER] : List RegId)) :
    regReadDone h lvl s = if lvl = 0 ∨ h.maskAll (fun a => a == .rc) = 0 then s
      else s.putWide h.wide (s.wide h.wide - (s.wide h.wide &&& h.maskAll (fun a => a == .rc))) := by
  simp only [List.mem_cons, List.not_mem_nil, or_false, not_or] at hid
  obtain ⟨hsnap, hfifo, hlog, hlow⟩ := hid
  unfold regReadDone
  split
  · contradiction
  · contradiction
  · contradiction
  · split
    · contradiction
    · rfl

theorem counterLook_none {h : RegHit} {s : State} (hs : s.ecc.injected = []) : counterLook h s = s := by
  simp [counterLook, hs]

theorem State.wide_congr {s t : State} (h : t.regs = s.regs) (w : Wide) : t.wide w = s.wide w :=
  State.wideFrom_congr w _ _ (fun _ _ _ => State.word_congr h _)

/-- Settles O15: a read leaves the registers as `regReadDone` does, which writes back the value without its RC fields. -/
theorem readClearOfRcFields : Obligations.ReadClearOfRcFields := by
  intro m h s h0 hid
  have hregs : (regRead m h s).2.regs = _ := regRead_lowest_regs h0
  rw [regReadDone_plain hid] at hregs
  refine ⟨counterLook_none, fun hp => ?_, fun hp => ?_⟩
  · rw [hregs, if_pos (.inl hp)]
  · by_cases hrc : h.maskAll (fun a => a == .rc) = 0
    · rw [if_pos (.inr hrc)] at hregs
      refine ⟨?_, fun x _ => State.word_congr hregs x⟩
      rw [State.wide_congr hregs, hrc, Nat.and_zero, Nat.sub_zero]
    · rw [if_neg (not_or.2 ⟨hp, hrc⟩)] at hregs
      refine ⟨?_, fun x hx => ?_⟩
      · rw [State.wide_congr hregs, State.wide_putWide]
        exact Nat.mod_eq_of_lt (lt_of_le_of_lt (Nat.sub_le _ _) (State.wide_lt _ _))
      · rw [State.word_congr hregs x, State.word_putWide_other _ _ _ hx]

/-! ### Reads over the bus -/

/-- The state in which a read acts: the events every read counts are counted (R671). -/
def readCounted (m : BusMaster) (a : Nat) (s : State) : State := accCount m a 0x011 (accCount m a 0x010 s)

theorem readCounted_only (m : BusMaster) (a : Nat) (s : State) : OnlyPmc s (readCounted m a s) :=
  (accCount_only m a 0x010 s).trans (accCount_only m a 0x011 _)

theorem busRead_reg {m : BusMaster} {a : Nat} {h : RegHit} {s : State} (hs : served s m = true) (hp : placeOf s a = .reg h) :
    busRead m a s = (0, regRead m h (readCounted m a s)) := by
  simp [busRead, hs, hp, readCounted]

theorem busRead_unmapped {m : BusMaster} {a : Nat} {s : State} (hs : served s m = true) (hp : placeOf s a = .unmapped) :
    busRead m a s = (2, 0, accFlag m GLB_ACC_STATUS_UNMAPPED (readCounted m a s)) := by
  simp [busRead, hs, hp, readCounted]

/-- A read that does not wait sends its data. -/
theorem busGet_now {m : BusMaster} {a x d : Nat} {s t : State} (hs : served s m = true) (hg : s.gated = false)
    (hb : busRead m a s = (x, d, t)) : busGet m a s = t.send (.data m a d) := by
  simp [busGet, hs, accWaits_running hg, hb]

theorem runRead_eq {m : BusMaster} {a : Nat} {s t : State} (hr : s.inReset = false) (ht : busGet m a s = t) :
    runRead m a s = .next (settle s t) := by
  simp [runRead, runElse, hr, ht]

/-- The rows that read a word at an address of their own choice. -/
theorem exec_readRow {m : BusMaster} {a : Word} {c : Instr} {s : State}
    (hc : c ∈ ([.rcFieldRead m a, .wideValueCapture m a] : List Instr)) : exec c s = runRead m a.toNat s := by
  simp only [List.mem_cons, List.not_mem_nil, or_false] at hc
  rcases hc with rfl | rfl <;> rfl

/-- Settles O14: every row of a read is `runRead` at its address, and that is the register's read in the state with the read counted. -/
theorem readsOfRegistersComplete : Obligations.ReadsOfRegistersComplete := by
  intro m a h s hr hs hg hp
  have hread : runRead m a.toNat s = .next (settle s ((regRead m h (readCounted m a.toNat s)).2.send
      (.data m a.toNat (regRead m h (readCounted m a.toNat s)).1))) := runRead_eq hr (busGet_now hs hg (busRead_reg hs hp))
  refine ⟨readCounted m a.toNat s, readCounted_only _ _ _, fun i hi => (exec_readRow hi).trans hread, fun ha => ?_, fun ha => ?_⟩
  · rw [← hread, ha]; rfl
  · rw [← hread, ha]; rfl

end Sys2Proof.Machine
end

section
/-!
PROOFS. Writes by the masters: what is flagged (R21, R23, R24), staged, and committed (R12), and that a write that meets its rules stands
(R17).
-/

namespace Sys2Proof.Machine

open Sys2Proof

/-! ### What a write leaves beside its place's own effect -/

theorem wrapsStand_only (a n : Nat) (s : State) : OnlyPmc s (wrapsStand a n s) := by
  unfold wrapsStand
  split
  · exact OnlyPmc.refl s
  · split
    · exact OnlyPmc.put _ _ _ (by decide)
    · split
      · exact OnlyPmc.putWide _ _ _ (by decide)
      · exact OnlyPmc.refl s

/-- A served write is the write at its place, the overflow bits kept and its outcome counted (R671, R673). -/
theorem busWrite_served {m : BusMaster} {a be : Nat} {v : Word} {s : State} {x : Nat × State} (hs : served s m = true)
    (hx : placeWrite m a be v s (counted m a s) = x) :
    busWrite m a be v s = if x.1 = 0 then (x.1, wrapsStand a (accWraps m a s) x.2)
      else (x.1, if x.1 = 1 then accCount m a 0x014 (accCount m a 0x013 (wrapsStand a (accWraps m a s) x.2))
        else accCount m a 0x013 (wrapsStand a (accWraps m a s) x.2)) := by
  subst hx
  unfold busWrite
  rw [if_neg (by simp [hs])]
  rfl

/-- Only counters differ from what the write at its place leaves. -/
theorem busWrite_only {m : BusMaster} {a be : Nat} {v : Word} {s : State} {x : Nat × State} (hs : served s m = true)
    (hx : placeWrite m a be v s (counted m a s) = x) : OnlyPmc x.2 (busWrite m a be v s).2 := by
  have hw := wrapsStand_only a (accWraps m a s) x.2
  rw [busWrite_served hs hx]
  split
  · exact hw
  · dsimp only
    split
    · exact (hw.trans (accCount_only _ _ _ _)).trans (accCount_only _ _ _ _)
    · exact hw.trans (accCount_only _ _ _ _)

theorem exec_registerWrite {m : BusMaster} {a : Word} {be : Fin 16} {v : Word} {s : State} (hr : s.inReset = false)
    (hg : s.gated = false) : exec (.registerWrite m a be v) s = .next (settle s (busWrite m a.toNat be.val v s).2) :=
  run_eq hr (by simp [busStore, accWaits_running hg])

/-! ### Flagged accesses -/

/-- A flag of GLB_ACC_STATUS is set with the master, and beside that word and the counters no register and no other part of the state
differs (R24). -/
structure FlagNoted (m : BusMaster) (f : Fld) (s u : State) : Prop where
  flag : u.on f = true
  master : u.get GLB_ACC_STATUS_LAST_MASTER = masterCode m
  rest : u = { s with regs := u.regs }
  words : ∀ r : Reg, r.addr < 0x02700000 → r.addr ≠ GLB_ACC_STATUS.addr → u.word r = s.word r

theorem masterCode_lt (m : BusMaster) : masterCode m < 8 := by cases m <;> decide

/-- `accFlag` notes any one-bit flag below LAST_MASTER. -/
theorem accFlag_noted {m : BusMaster} {f : Fld} {s c : State} (hc : OnlyPmc s c) (hf : f.reg = GLB_ACC_STATUS) (hw : f.width = 1)
    (hl : f.lsb < 8) : FlagNoted m f s (accFlag m f c) where
  flag := by
    have hapart : f.Apart GLB_ACC_STATUS_LAST_MASTER := .inr ⟨hf, by omega, .inl (by rw [hw]; exact hl)⟩
    unfold accFlag State.on
    rw [State.get_put_apart _ _ hapart, State.get_ev_same _ _ (by omega) (by omega)]
    rfl
  master := (State.get_put_same _ _ _ (by decide)).trans (Nat.mod_eq_of_lt (masterCode_lt m))
  rest := by
    unfold accFlag
    conv_lhs => rw [hc.1]
    rfl
  words r hr ho := by
    unfold accFlag
    rw [State.word_put_other _ _ ho, State.ev_eq, State.word_put_other _ _ (by rw [hf]; exact ho), hc.2 r hr]

/-- What is noted stays noted while only counters change. -/
theorem FlagNoted.trans {m : BusMaster} {f : Fld} {s u t : State} (h : FlagNoted m f s u) (hf : f.reg.addr < 0x02700000)
    (ht : OnlyPmc u t) : FlagNoted m f s t where
  flag := (ht.on f hf).trans h.flag
  master := (ht.get _ (by decide)).trans h.master
  rest := by rw [ht.1, h.rest]
  words r hr ho := (ht.2 r hr).trans (h.words r hr ho)

/-- A write whose place answers no more than a flag of GLB_ACC_STATUS notes that flag. -/
theorem busWrite_flagged {m : BusMaster} {f : Fld} {a be x : Nat} {v : Word} {s : State} (hs : served s m = true)
    (hx : placeWrite m a be v s (counted m a s) = (x, accFlag m f (counted m a s))) (hf : f.reg = GLB_ACC_STATUS)
    (hw : f.width = 1) (hl : f.lsb < 8) : FlagNoted m f s (busWrite m a be v s).2 :=
  (accFlag_noted (counted_only m a s) hf hw hl).trans (by rw [hf]; decide) (busWrite_only hs hx)

/-- Settles O11: the place of a write or read of nothing, and of part of a word, does no more than set its flag. -/
theorem unmappedAndPartialAccesses : Obligations.UnmappedAndPartialAccesses := by
  refine ⟨fun m a s hr hs hg hp => ⟨fun be v hbe => ?_, fun c hc => ?_⟩, fun m a be v s hr hs hg ha ht hbe => ?_⟩
  · have hplace : placeWrite m a.toNat be.val v s (counted m a.toNat s) =
        (2, accFlag m GLB_ACC_STATUS_UNMAPPED (counted m a.toNat s)) := by
      unfold placeWrite
      rw [if_neg (fun h => h.2.2 (hbe h.1 h.2.1)), hp]
    have hn := busWrite_flagged hs hplace rfl rfl (by decide)
    exact ⟨_, exec_registerWrite hr hg, hn.flag, hn.master, by rw [hn.rest], hn.words⟩
  · have hn : FlagNoted m GLB_ACC_STATUS_UNMAPPED s (accFlag m GLB_ACC_STATUS_UNMAPPED (readCounted m a.toNat s)) :=
      accFlag_noted (readCounted_only m a.toNat s) rfl rfl (by decide)
    refine ⟨_, (exec_readRow hc).trans (runRead_eq hr (busGet_now hs hg (busRead_unmapped hs hp))), hn.flag, hn.master, ?_, ?_, hn.words⟩
    · rw [hn.rest]; rfl
    · rw [hn.rest]; rfl
  · have hplace : placeWrite m a.toNat be.val v s (counted m a.toNat s) =
        (3, accFlag m GLB_ACC_STATUS_PARTIAL (counted m a.toNat s)) := by
      unfold placeWrite
      rw [if_pos ⟨ha, ht, hbe⟩]
    have hn := busWrite_flagged hs hplace rfl rfl (by decide)
    exact ⟨_, exec_registerWrite hr hg, hn.flag, hn.master, by rw [hn.rest], hn.words⟩

/-! ### Staged words -/

/-- The state in which a higher word waits for its commit (R12). -/
def staged (m : BusMaster) (h : RegHit) (v : Word) (s : State) : State :=
  { s with stages := smSet none s.stages (shadowKey m (h.base + 4 * h.w)) (some v) }

theorem staged_read (m : BusMaster) (h : RegHit) (v : Word) (s : State) :
    smGet none (staged m h v s).stages (shadowKey m (h.base + 4 * h.w)) = some v := by
  simp [staged]

theorem OnlyPmc.pairState {s c : State} (hc : OnlyPmc s c) : c.pairState = s.pairState := by
  unfold State.pairState
  rw [hc.get PAIR_STATUS_STATE (by decide)]

theorem placeWrite_reg {m : BusMaster} {a : Nat} {h : RegHit} {v : Word} {s0 s : State} (hp : placeOf s0 a = .reg h) :
    placeWrite m a 15 v s0 s = regAccess m h a v s0 s := by
  unfold placeWrite
  rw [if_neg (by simp), hp]

/-- An ADMIN master outside the loader reaches a register that neither LOADING nor the lock of R649 closes. -/
theorem regAccess_admin {m : BusMaster} {h : RegHit} {a : Nat} {v : Word} {s0 s : State} (hm : m ≠ .loader) (hp : privOf s m = 2)
    (hl : s.dev = .loading → hostOpen a = true) (hk : h.spec.id = .MGT_PRIV → s.on MGT_PRIV_LOCK = false) :
    regAccess m h a v s0 s = regWrite m h v s0 s := by
  unfold regAccess
  rw [hp]
  dsimp only
  rw [if_neg (by simp), if_neg (by simp [hm]), if_neg, if_neg]
  · simp only [Bool.and_eq_true, beq_iff_eq]
    rintro ⟨⟨hid, -⟩, hlock⟩
    exact Bool.false_ne_true ((hk hid).symm.trans hlock)
  · simp only [Bool.and_eq_true, decide_eq_true_eq, Bool.not_eq_true']
    rintro ⟨⟨-, hd⟩, ho⟩
    exact Bool.false_ne_true (ho.symm.trans (hl hd))

/-- A higher word is staged; that of the handover's action only in SOLO. -/
theorem regWrite_higher {m : BusMaster} {h : RegHit} {v : Word} {s0 s : State} (hw : h.w ≠ 0)
    (hho : h.spec.id = .SCH_ACT_TIME → h.i = 63 → s.pairState = .solo) : regWrite m h v s0 s = (0, staged m h v s) := by
  unfold regWrite
  rw [if_neg hw, if_neg]
  · rfl
  · simp only [Bool.and_eq_true, beq_iff_eq, bne_iff_ne]
    rintro ⟨⟨hid, hi⟩, hp⟩
    exact hp (hho hid hi)

/-- A commit of a two-word value takes the word staged, 0 where none is, and leaves none staged. -/
theorem takeStaged_two {m : BusMaster} {h : RegHit} {v : Word} {s : State} (h2 : h.spec.words = 2) :
    (takeStaged m h v s).1.2 = v.toNat + 2 ^ 32 * ((smGet none s.stages (shadowKey m (h.base + 4))).getD 0).toNat ∧
      smGet none (takeStaged m h v s).2.stages (shadowKey m (h.base + 4)) = none := by
  have hr : List.range (h.spec.words - 1) = [0] := by rw [h2]; rfl
  cases hst : smGet none s.stages (shadowKey m (h.base + 4)) with
  | some w =>
    simp only [takeStaged, stagedWords, hr, List.foldl_cons, List.foldl_nil, Nat.zero_add, Nat.mul_one, hst, Option.getD_some,
      smGet_set_same, and_true]
    omega
  | none => simp [takeStaged, stagedWords, hr, hst]

/-! ### Writes that stand -/

/-- The register that a write which meets its rules finds is the one at its place, at its base address. -/
theorem mayWrite_hit {m : BusMaster} {a : Nat} {v : Word} {h : RegHit} {s : State} (hw : mayWrite m a v s = true)
    (hp : placeOf s a = .reg h) : MayWrite m a v s h ∧ h.base = a := by
  obtain ⟨k, hk⟩ := mayWrite_meets hw
  obtain ⟨hpk, h0⟩ := hk.place
  obtain rfl : h = k := Place.reg.inj (hp.symm.trans hpk)
  have hb := (regAt_place (regAt_of_placeOf hp)).1
  exact ⟨hk, by omega⟩

/-- Settles O17: a higher word is staged at its key, and nothing below the counters differs; a commit takes what `takeStaged` gives. -/
theorem stageAndCommitOfWideValues : Obligations.StageAndCommitOfWideValues := by
  refine ⟨fun m a v h s hr hs hm hg hp hw hv hl hho => ?_, fun m a v h s hp h2 hw ha => ?_⟩
  · have hc := counted_only m a.toNat s
    have hunlocked : h.spec.id = .MGT_PRIV → (counted m a.toNat s).on MGT_PRIV_LOCK = false := by
      intro hid
      have hlt := (regAt_place (regAt_of_placeOf hp)).2
      have hone := words_of_control (regAt_of_placeOf hp) (.inl hid)
      omega
    have hplace : placeWrite m a.toNat 15 v s (counted m a.toNat s) = (0, staged m h v (counted m a.toNat s)) := by
      rw [placeWrite_reg hp, regAccess_admin hm ((hc.privOf m).trans hv) (fun hd => hl (hc.dev.symm.trans hd)) hunlocked,
        regWrite_higher hw (fun hid hi => hc.pairState.trans (hho hid hi))]
    have hu := busWrite_only hs hplace
    refine ⟨_, run_eq hr (busPut_now hg), ?_, ?_, fun r hlt => (hu.2 r hlt).trans (hc.2 r hlt)⟩
    · rw [hu.1]
      exact staged_read m h v _
    · rw [hu.1, hc.1]
      rfl
  · obtain ⟨hk, hb⟩ := mayWrite_hit hw hp
    have hend : h.wide.addr + 4 * h.wide.words ≤ 0x02700000 := by
      simp only [RegHit.wide, h2, hb]
      omega
    have htwo : h.spec.id ≠ .LDR_HOST_CTRL := by
      intro hid
      have hone := words_of_control (regAt_of_placeOf hp) (.inr hid)
      omega
    obtain ⟨c, hst, hstages, hput⟩ := write_stands hk (by dsimp only; omega) hend (fun hid => absurd hid htwo)
    obtain ⟨hval, hgone⟩ := takeStaged_two (m := m) (v := v) (s := s) h2
    exact ⟨_, c, hval ▸ hst, hstages ▸ hgone, run_eq hk.out hput⟩

/-- A write of a one-word register that meets its rules stands, and its register acts. -/
theorem mayWrite_stands {m : BusMaster} {a : Nat} {v : Word} {h : RegHit} {s : State} (hw : mayWrite m a v s = true)
    (hp : placeOf s a = .reg h) (h1 : h.spec.words = 1) (ha : a < 0x026FFFFC) (hid : h.spec.id = .LDR_HOST_CTRL → v.toNat % 2 = 0) :
    ∃ R c, Stands m h.spec.id h.i h.j h.wide v.toNat s R c ∧ run (busPut m a v) s = .next (settle s (regEffect R c)) := by
  obtain ⟨hk, hb⟩ := mayWrite_hit hw hp
  have htake := takeStaged_one m h v s h1
  have hend : h.wide.addr + 4 * h.wide.words ≤ 0x02700000 := by
    simp only [RegHit.wide, h1, hb]
    omega
  have heven : h.spec.id = .LDR_HOST_CTRL → (writeSeen m h v s).v % 2 = 0 := by
    intro he
    unfold writeSeen writeAs
    rw [htake]
    exact and_even (hid he)
  obtain ⟨c, hst, -, hput⟩ := write_stands hk (by omega) hend heven
  rw [htake] at hst
  exact ⟨_, c, hst, run_eq hk.out hput⟩

/-- Settles O18: the row is the write of the whole word, which stands. -/
theorem registerWriteStands : Obligations.RegisterWriteStands :=
  fun _ _ _ _ _ hp h1 ha hid hw => mayWrite_stands hw hp h1 ha hid

/-- The same for a row that names its register. -/
theorem Writable.stands {m : BusMaster} {r : Reg} {v : Word} {s : State} {id : RegId} {i j : Nat} (hw : Writable m r v s)
    (hn : namesOneWord r id i j = true) (ha : r.addr < 0x026FFFFC) (hid : id ≠ .LDR_HOST_CTRL) :
    ∃ R c, Stands m id i j r.one v.toNat s R c ∧ run (busPut m r.addr v) s = .next (settle s (regEffect R c)) := by
  obtain ⟨h, hf, rfl, rfl, rfl, hwide⟩ := regAt_of_namesOneWord hn
  obtain ⟨k, hk⟩ := mayWrite_meets hw
  have hp := hk.place.1
  obtain rfl : h = k := Option.some.inj (hf.symm.trans (regAt_of_placeOf hp))
  exact hwide ▸ mayWrite_stands hw hp (congrArg Wide.words hwide) ha (fun he => absurd he hid)

end Sys2Proof.Machine
end

section
/-!
PROOFS. The quad PLLs and the PLL of LM: what a lock, a loss and a timeout make of their records, their status and their lanes (R207 to
R212).
-/

namespace Sys2Proof.Machine

open Sys2Proof

/-! ### Records and fields -/

@[simp] theorem State.put_pllRec (s : State) (f : Fld) (v q : Nat) : (s.put f v).pllRec q = s.pllRec q := rfl

theorem quadStatus_apart (q : Nat) : (LN_QUAD_STATUS_PLL_LOCKED q).Apart (LN_QUAD_STATUS_RELOCKING q) :=
  .inr ⟨rfl, by simp [LN_QUAD_STATUS_PLL_LOCKED], by simp [LN_QUAD_STATUS_PLL_LOCKED, LN_QUAD_STATUS_RELOCKING]⟩

theorem pllLanes_lt {q n : Nat} (hq : q < 17) (hn : n ∈ pllLanes q) : n < 65 := by
  unfold pllLanes at hn
  split at hn
  · simp only [List.mem_singleton] at hn
    omega
  · simp only [List.mem_map, List.mem_range] at hn
    obtain ⟨k, hk, rfl⟩ := hn
    omega

/-! ### Configuration (R209, R255) -/

theorem namesOneWord_quadCfg (q : Fin 16) : namesOneWord (LN_QUAD_CFG q) .LN_QUAD_CFG q 0 = true := by
  revert q
  decide +kernel

theorem regEffect_quadCfg {R : RegWrite} {q : Nat} {c : State} (hid : R.id = .LN_QUAD_CFG) (hi : R.i = q) :
    regEffect R c = if R.changes [LN_QUAD_CFG_RATE q, LN_QUAD_CFG_PLAN q] then quadWritten q c else c := by
  unfold regEffect
  rw [hid, hi]

/-! ### Lock (R70, R80, R211) -/

/-- A PLL is powered, waits for its lock with no plan change before it, and the Capstan is nominal (R73, R211). -/
def pllMayLock (s : State) (q : Nat) : Bool := (s.pllRec q).on && (s.pllRec q).waits && !(s.pllRec q).planDue && s.nominal

/-- The PLL has its lock, with its transmit phase void and to be measured next (R70, R80, R301). -/
def pllReleased (q band : Nat) (s : State) : State :=
  txphLocked q (txphClear q (s.setPll q { s.pllRec q with waits := false, half := s.now + safeTime, band := band }))

/-- The band goes to the plan of a quad, and the quad's status says that its PLL is locked (R80, R253). -/
def quadLocked (q band : Nat) (s : State) : State :=
  (((s.put (SYN_QPLL_PLAN_BAND q (s.get (LN_QUAD_CFG_PLAN q))) band).put (SYN_QPLL_PLAN_VALID q (s.get (LN_QUAD_CFG_PLAN q))) 1).put
    (LN_QUAD_STATUS_PLL_LOCKED q) 1).put (LN_QUAD_STATUS_RELOCKING q) 0

theorem pllLock_of_not_mayLock {q band : Nat} {s : State} (h : pllMayLock s q = false) : pllLock q band s = s := by
  unfold pllLock
  exact if_pos (by simpa [pllMayLock, Bool.and_assoc, or_assoc, imp_iff_not_or] using h)

theorem pllLock_of_mayLock {q band : Nat} {s : State} (h : pllMayLock s q = true) :
    pllLock q band s = forEach (pllLanes q) laneKick
      (if q < 16 then quadLocked q band (pllReleased q (if q = 16 then band else (s.pllRec q).band) s)
      else pllReleased q (if q = 16 then band else (s.pllRec q).band) s) := by
  unfold pllLock
  exact if_neg (by simp_all [pllMayLock])

theorem pllLock_quad {q band : Nat} {s : State} (hq : q < 16) (h : pllMayLock s q = true) :
    pllLock q band s = forEach (pllLanes q) laneKick (quadLocked q band (pllReleased q (s.pllRec q).band s)) := by
  rw [pllLock_of_mayLock h, if_pos hq, if_neg (by omega)]

theorem pllLock_lm {band : Nat} {s : State} (h : pllMayLock s 16 = true) :
    pllLock 16 band s = laneKick 64 (pllReleased 16 band s) := by
  rw [pllLock_of_mayLock h]
  rfl

/-! ### Loss of lock (R71, R212) -/

/-- The PLL that has lost its lock waits, and its quad says so (R211, R253). -/
def pllWaiting (q : Nat) (s : State) : State :=
  let t := s.setPll q { s.pllRec q with waits := true, half := 0 }
  if q < 16 then (t.put (LN_QUAD_STATUS_PLL_LOCKED q) 0).put (LN_QUAD_STATUS_RELOCKING q) 1 else t

theorem pllWaiting_rec (q : Nat) (s : State) : (pllWaiting q s).pllRec q = { s.pllRec q with waits := true, half := 0 } := by
  unfold pllWaiting
  dsimp only
  split <;> simp

theorem pllWaiting_status {q : Nat} {s : State} (hq : q < 16) : (pllWaiting q s).on (LN_QUAD_STATUS_PLL_LOCKED q) = false ∧
    (pllWaiting q s).on (LN_QUAD_STATUS_RELOCKING q) = true := by
  unfold pllWaiting State.on
  dsimp only
  rw [if_pos hq, State.get_put_apart _ _ (quadStatus_apart q), State.get_put_same _ _ _ (by simp [LN_QUAD_STATUS_PLL_LOCKED]),
    State.get_put_same _ _ _ (by simp [LN_QUAD_STATUS_RELOCKING])]
  exact ⟨rfl, rfl⟩

theorem pllWaiting_get_other {q : Nat} {s : State} {f : Fld} (hf : f.reg.addr ≠ (LN_QUAD_STATUS q).addr) :
    (pllWaiting q s).get f = s.get f := by
  unfold pllWaiting
  dsimp only
  split
  · rw [State.get_put_reg _ _ hf, State.get_put_reg _ _ hf, State.setPll_get]
  · exact State.setPll_get _ _ _ _

theorem txphClear_void {q : Nat} {s : State} (h : s.on (PHA_TXPH_VALID q) = false) : txphClear q s = s := by
  simp [txphClear, h]

theorem pllLoss_unchanged {q : Nat} {s : State} (h : (s.pllLocked q && s.nominal) = false) : pllLoss q s = s := by
  unfold pllLoss
  exact if_pos (by simpa [imp_iff_not_or] using h)

theorem pllLoss_of_locked {q : Nat} {s : State} (hl : s.pllLocked q = true) (hn : s.nominal = true) :
    pllLoss q s = forEach (pllLanes q) (fun n s => if laneState s n = 0 ∨ laneState s n = 6 then s
      else laneDetect n (if laneState s n = 5 then laneLost n s else s)) (txphClear q (pllWaiting q s)) := by
  unfold pllLoss
  exact if_neg (by simp [hl, hn])

/-- With every lane OFF and the transmit phase void, only the PLL's record and its quad's status follow a loss. -/
theorem pllLoss_of_lanesOff {q : Nat} {s : State} (hq : q < 17) (hl : s.pllLocked q = true) (hn : s.nominal = true)
    (hoff : ∀ n ∈ pllLanes q, laneState s n = 0) (hv : s.on (PHA_TXPH_VALID q) = false) : pllLoss q s = pllWaiting q s := by
  have hvoid : (pllWaiting q s).on (PHA_TXPH_VALID q) = false := by
    rw [← hv]
    unfold State.on
    rw [pllWaiting_get_other (f := PHA_TXPH_VALID q) (by simp only [PHA_TXPH_VALID, PHA_TXPH, LN_QUAD_STATUS]; omega)]
  rw [pllLoss_of_locked hl hn, txphClear_void hvoid]
  refine forEach_unchanged (fun n hm => if_pos (.inl ?_))
  have hlt := pllLanes_lt hq hm
  unfold laneState
  rw [pllWaiting_get_other (f := LN_STATUS_STATE n) (by simp only [LN_STATUS_STATE, LN_STATUS, LN_QUAD_STATUS]; omega)]
  exact hoff n hm

/-! ### The relock timeout (R212, R253) -/

theorem pllTimeout_unchanged {q : Nat} {s : State}
    (h : (s.pllRec q).on = false ∨ s.pllLocked q = true ∨ ∀ n ∈ pllLanes q, laneState s n = 0) : pllTimeout q s = s := by
  unfold pllTimeout
  refine if_pos ?_
  rcases h with h | h | h
  · simp [h]
  · simp [h]
  · simpa using .inr h

theorem pllTimeout_late {q n : Nat} {s : State} (hon : (s.pllRec q).on = true) (hl : s.pllLocked q = false)
    (hn : n ∈ pllLanes q) (hs : laneState s n ≠ 0) :
    pllTimeout q s = forEach ((pllLanes q).filter (fun n => laneState s n != 0)) (fun n s => if laneState s n = 6 then s else laneFault n s)
      (if q < 16 then s.ev (LN_QUAD_STATUS_PLL_FAIL q) else s) := by
  unfold pllTimeout
  refine if_neg ?_
  simp only [hon, hl, Bool.not_true, Bool.or_false, Bool.false_or, List.isEmpty_iff, List.filter_eq_nil_iff]
  exact fun h => h n hn (by simpa using hs)

/-! ### Power-up (R211) -/

theorem pllUp_powers {q : Nat} {s : State} (hon : (s.pllRec q).on = false) (hp : planOk s q = true) :
    pllUp q s = (let t := s.setPll q { s.pllRec q with on := true, waits := true }
      if q < 16 then t.put (LN_QUAD_STATUS_RELOCKING q) 1 else t) := by
  unfold pllUp
  exact if_neg (by simp [hon, hp])

theorem pllUp_rec {q : Nat} {s : State} (hon : (s.pllRec q).on = false) (hp : planOk s q = true) :
    (pllUp q s).pllRec q = { s.pllRec q with on := true, waits := true } := by
  rw [pllUp_powers hon hp]
  dsimp only
  split <;> simp

theorem pllUp_locked {q : Nat} {s : State} (hq : q < 17) (hon : (s.pllRec q).on = false) (hp : planOk s q = true) :
    (pllUp q s).pllLocked q = (if q < 16 then s.on (LN_QUAD_STATUS_PLL_LOCKED q) else false) := by
  unfold State.pllLocked
  split
  · rename_i hlt
    rw [pllUp_powers hon hp]
    unfold State.on
    dsimp only
    rw [if_pos hlt, State.get_put_apart _ _ (quadStatus_apart q), State.setPll_get]
  · obtain rfl : q = 16 := by omega
    simp [pllUp_rec hon hp]

/-- Settles O34: each row is the engine's own step, by the case its conditions name. -/
theorem quadPllCommands : Obligations.QuadPllCommands := by
  refine ⟨fun m q v s hw => ?_, fun q band s hs h => ?_, fun q band s hs h hq => ?_, fun band s hs h => ?_, fun q s hs h => ?_,
    fun q s hs hl hn hoff hv => ?_, fun q s hs h => ?_, fun q n s hs hn hon hl hm hact => ?_, fun q s hon hp => ?_⟩
  · obtain ⟨R, c, hst, hrun⟩ := hw.stands (namesOneWord_quadCfg q) (by simp only [LN_QUAD_CFG]; omega) (by decide)
    obtain ⟨-, hid, hi, -, -⟩ := hst.who
    exact ⟨R, c, hst, by rw [← regEffect_quadCfg hid hi]; exact hrun⟩
  · exact timed_eq hs (pllLock_of_not_mayLock h)
  · exact timed_eq hs (pllLock_quad hq h)
  · exact timed_eq hs (pllLock_lm h)
  · exact timed_eq hs (pllLoss_unchanged h)
  · refine ⟨pllWaiting q s, timed_eq hs (pllLoss_of_lanesOff q.isLt hl hn hoff hv), ?_, ?_, pllWaiting_status⟩
    · rw [pllWaiting_rec]
    · rw [pllWaiting_rec]
  · exact laneTimed_unchanged hs (h.imp_right pllTimeout_unchanged)
  · exact laneTimed_eq hs hn (pllTimeout_late hon hl hm hact)
  · rw [pllUp_rec hon hp, pllUp_locked q.isLt hon hp]
    exact ⟨rfl, rfl, rfl⟩

end Sys2Proof.Machine
end

section
/-!
PROOFS. The device's reset (R38, R52, R589, R615, R616, R663): what the reset form keeps and what acts on it, and the release.
-/

namespace Sys2Proof.Machine

open Sys2Proof

/-! ### The reset form -/

/-- What the reset form keeps it keeps of itself. -/
theorem resetForm_idem (k : Nat) (s : State) : resetForm k (resetForm k s) = resetForm k s := rfl

theorem resetForm_send (k : Nat) (s : State) (o : Out) : resetForm k (s.send o) = (resetForm k s).send o := rfl

theorem resetForm_pending (k : Nat) (s : State) (l : List Instr) :
    resetForm k { s with pending := l } = { resetForm k s with pending := l } := rfl

theorem resetForm_jtag (k : Nat) (s : State) (i : JtagInstr) :
    resetForm k { s with mgt := { s.mgt with jtag := i } } =
      { resetForm k s with mgt := { (resetForm k s).mgt with jtag := i } } := rfl

/-- What a reset of the balls or of a rail leaves is the reset form of itself. -/
theorem deviceReset_fixed (k : Nat) (s : State) : deviceReset k s = resetForm k (deviceReset k s) := by
  rw [deviceReset_eq, resetForm_idem]

/-! ### The reset form is kept -/

theorem resetHolds_of_running {s : State} (h : s.inReset = false) : ResetHolds s := fun hr =>
  absurd (h.symm.trans hr) Bool.false_ne_true

theorem resetHolds_settle (s u : State) : ResetHolds (settle s u) := resetHolds_of_running rfl

theorem resetHolds_deviceReset {k : Nat} (hk : k = 0 ∨ k = 1) (s : State) : ResetHolds (deviceReset k s) := by
  intro _
  rcases hk with rfl | rfl
  · exact .inl (deviceReset_fixed 0 s)
  · exact .inr (deviceReset_fixed 1 s)

/-- An update that the reset form commutes with, and that leaves the flag of RESET, keeps the reset form. -/
theorem ResetHolds.update {s : State} {f : State → State} (h : ResetHolds s) (hr : (f s).inReset = s.inReset)
    (hf : ∀ k, resetForm k (f s) = f (resetForm k s)) : ResetHolds (f s) := by
  intro hi
  rw [hf, hf]
  exact (h (hr ▸ hi)).imp (congrArg f) (congrArg f)

theorem ResetHolds.send {s : State} (h : ResetHolds s) (o : Out) : ResetHolds (s.send o) :=
  h.update (f := fun s => s.send o) rfl (fun k => resetForm_send k s o)

theorem ResetHolds.pending {s : State} (h : ResetHolds s) (l : List Instr) : ResetHolds { s with pending := l } :=
  h.update (f := fun s => { s with pending := l }) rfl (fun k => resetForm_pending k s l)

theorem ResetHolds.cfgRetry {s : State} (h : ResetHolds s) (q : CfgReq) : ResetHolds (cfgRetry q s) := by
  cases q with
  | vector => exact h
  | _ => exact h.send _

theorem ResetHolds.busUnserved {s : State} (h : ResetHolds s) (m : BusMaster) : ResetHolds (busUnserved m s) := by
  unfold Machine.busUnserved
  split
  · exact h.send _
  · exact h

theorem ResetHolds.jtagTake {s : State} (h : ResetHolds s) (i : JtagInstr) : ResetHolds (jtagTake i s) := by
  unfold Machine.jtagTake
  dsimp only
  split
  · exact resetHolds_deviceReset (.inl rfl) _
  · exact h.update (f := fun s => { s with mgt := { s.mgt with jtag := i } }) rfl (fun k => resetForm_jtag k s i)

theorem resetHolds_resetRelease {s : State} (h : ResetHolds s) (x : Straps) : ResetHolds (resetRelease x s) := by
  unfold resetRelease
  split
  · exact h
  · refine resetHolds_of_running ?_
    dsimp only
    split <;> rfl

theorem ResetHolds.extestExit {s : State} (h : ResetHolds s) : ResetHolds (extestExit s) := by
  unfold Machine.extestExit
  split
  · exact h.jtagTake _
  · exact h

/-! ### Every command keeps it -/

theorem ResetHolds.run {f : State → State} {s t : State} (h : ResetHolds s) (ht : Machine.run f s = .next t) : ResetHolds t := by
  cases hr : s.inReset with
  | true => exact Host.Outcome.next.inj ((run_inReset f s hr).symm.trans ht) ▸ h
  | false => exact Host.Outcome.next.inj ((run_active f s hr).symm.trans ht) ▸ resetHolds_settle s _

theorem ResetHolds.runElse {r f : State → State} {s t : State} (h : ResetHolds (r s)) (ht : Machine.runElse r f s = .next t) :
    ResetHolds t := by
  obtain rfl := Host.Outcome.next.inj ht
  split
  · exact h
  · exact resetHolds_settle s _

theorem exec_keeps_resetHolds {c : Instr} {s t : State} (h : ResetHolds s) (ht : exec c s = .next t) : ResetHolds t := by
  cases hc : actsAlways c with
  | false =>
    obtain ⟨f, hf⟩ := exec_run c hc
    exact h.run ((hf s).symm.trans ht)
  | true =>
    have eq_of : ∀ {u : State}, exec c s = .next u → u = t := fun hu => Host.Outcome.next.inj (hu.symm.trans ht)
    rcases exec_always c hc s with hu | hu | ⟨x, hu⟩ | ⟨q, hu⟩ | ⟨m, a, hu⟩ | ⟨i, hu⟩ | hu | hu
    · exact eq_of hu ▸ resetHolds_deviceReset (.inl rfl) s
    · exact eq_of hu ▸ resetHolds_deviceReset (.inr rfl) s
    · exact eq_of hu ▸ resetHolds_resetRelease h x
    · exact (h.cfgRetry q).runElse (hu.symm.trans ht)
    · exact (h.busUnserved m).runElse (hu.symm.trans ht)
    · exact eq_of hu ▸ h.jtagTake i
    · exact eq_of hu ▸ (h.jtagTake .idcode).send _
    · exact eq_of hu ▸ h.extestExit

/-- Settles O5: a step is a tick, which keeps what a run keeps, or a command on the rest of the queue. -/
theorem resetFormKeptByEveryStep : Obligations.ResetFormKeptByEveryStep := by
  intro s t h ht
  unfold step at ht
  split at ht
  next => exact h.run ht
  next rest _ => exact exec_keeps_resetHolds (h.pending rest) ht

/-- Settles O7: `State.reset` is the moment after the release (log entry 12), so that its reset form is not asked for. -/
theorem resetStateMeetsTheInvariants : Obligations.ResetStateMeetsTheInvariants :=
  ⟨resetHolds_of_running rfl, rfl, rfl, rfl⟩

/-! ### What acts in RESET (R38, R652, R663) -/

/-- The rows that act in RESET, by name. -/
theorem actsAlways_of_named {c : Instr} (h1 : c ≠ .resetAssert) (h2 : ∀ r, c ≠ .railBelowReset r) (h3 : ∀ x, c ≠ .resetRelease x)
    (h4 : ∀ b, c ≠ .pcieConfigurationRequest b) (h5 : ∀ m a, c ≠ .wideValueCapture m a) (h6 : ∀ m a, c ≠ .rcFieldRead m a)
    (h7 : ∀ m, c ≠ .tiuFifoRead m) (h8 : ∀ m, c ≠ .eccLogRead m)
    (h9 : c ∉ ([.bypass, .idcode, .samplePreload, .extest, .extestPulse, .extestTrain, .extestExit] : List Instr)) :
    actsAlways c = false := by
  unfold actsAlways
  split <;> simp_all

/-- A read in RESET is answered as one of a master that is not served. -/
theorem runRead_inReset {m : BusMaster} {a : Nat} {s : State} (h : s.inReset = true) :
    runRead m a s = .next (if m = .pcie then s.send .unsupported else s) := by
  simp [runRead, runElse, h, busUnserved]

/-- Settles O9: a row that does not act in every state runs a meaning, which RESET shuts out; the four reads share `runRead`. -/
theorem inResetOnlyTheResetRowsAct : Obligations.InResetOnlyTheResetRowsAct := by
  refine fun c s hr => ⟨fun h1 h2 h3 h4 h5 h6 h7 h8 h9 => ?_, fun m a hc => ?_⟩
  · obtain ⟨f, hf⟩ := exec_run c (actsAlways_of_named h1 h2 h3 h4 h5 h6 h7 h8 h9)
    exact (hf s).trans (run_inReset f s hr)
  · simp only [List.mem_cons, List.not_mem_nil, or_false] at hc
    rcases hc with rfl | rfl | rfl | rfl
    all_goals exact runRead_inReset hr

/-! ### Entering and leaving RESET (R38, R589, R615) -/

/-- What a reset leaves, whatever it met: the reset form with its cause, the FRAM, the fuses, the wall time and the queue. -/
theorem deviceReset_leaves {k : Nat} (hk : k < 16) (s : State) :
    let t := deviceReset k s
    t.inReset = true ∧ t.dev = .reset ∧ t = resetForm k t ∧ t.fram = s.fram ∧ t.otp = s.otp ∧ t.now = s.now ∧
      t.pending = s.pending ∧ t.get GLB_STATE_ENTRY_CAUSE = k := by
  have hg : (resetForm k { s with out := (ppsSilence s).out }).get GLB_STATE_ENTRY_CAUSE = k := by
    unfold resetForm
    rw [State.get_put_apart _ _ (.inl (by decide)), State.get_put_same _ _ _ (by decide)]
    exact Nat.mod_eq_of_lt hk
  have hf := deviceReset_fixed k s
  rw [deviceReset_eq] at hf ⊢
  exact ⟨rfl, by simp [State.dev, resetForm], hf, rfl, rfl, rfl, rfl, hg⟩

/-- The straps sampled at the release (R616): BOOT_SEL, the preferred unit and the oven's warmth. -/
def strapsSampled (x : Straps) (s : State) : State :=
  let s : State := { s with inReset := false, ldr := { s.ldr with started := s.now } }
  let s := (s.put LDR_STATUS_BOOT_SEL x.bootSel.val).putB PAIR_STATUS_PREFERRED x.mateRole
  (s.putB SYN_STATUS_OCXO_WARM x.ocxoWarm).putB TIU_STATUS_OCXO_WARM x.ocxoWarm

/-- A release samples the straps, and a flash boot asks for the first header besides (R617). -/
theorem resetRelease_inReset (x : Straps) {s : State} (h : s.inReset = true) :
    resetRelease x s = strapsSampled x s ∨ ∃ o, resetRelease x s = (strapsSampled x s).send o := by
  unfold resetRelease
  rw [if_neg (by simp [h])]
  by_cases hb : x.bootSel.val < 2
  · exact .inr ⟨_, if_pos hb⟩
  · exact .inl (if_neg hb)

theorem resetForm_state (k : Nat) (s : State) : (resetForm k s).get GLB_STATE_STATE = 1 := by
  unfold resetForm
  rw [State.get_put_apart _ _ (.inl (by decide)), State.get_put_apart _ _ (.inr (by decide))]
  exact (by decide : State.reset.get GLB_STATE_STATE = 1)

theorem ResetHolds.state {s : State} (h : ResetHolds s) (hr : s.inReset = true) : s.get GLB_STATE_STATE = 1 := by
  rcases h hr with h | h
  all_goals exact h ▸ resetForm_state _ s

theorem strapsSampled_shows (x : Straps) {s : State} (h : s.get GLB_STATE_STATE = 1) :
    (strapsSampled x s).dev = .clockStart ∧ (strapsSampled x s).get LDR_STATUS_BOOT_SEL = x.bootSel.val ∧
      (strapsSampled x s).on PAIR_STATUS_PREFERRED = x.mateRole ∧ (strapsSampled x s).on SYN_STATUS_OCXO_WARM = x.ocxoWarm := by
  have hb : x.bootSel.val % 2 ^ 2 = x.bootSel.val := Nat.mod_eq_of_lt x.bootSel.isLt
  have hstate : (strapsSampled x s).get GLB_STATE_STATE = s.get GLB_STATE_STATE := by
    simp (disch := decide) only [strapsSampled, State.putB_eq, State.get_put_reg]
    rfl
  refine ⟨?_, ?_, ?_, ?_⟩
  · unfold State.dev
    rw [hstate, h]
    rfl
  · simp (disch := decide) only [strapsSampled, State.putB_eq, State.get_put_reg, State.get_put_same]
    exact hb
  · simp (disch := decide) only [strapsSampled, State.on, State.putB_eq, State.get_put_reg, State.get_put_same]
    cases x.mateRole <;> rfl
  · simp (disch := decide) only [strapsSampled, State.on, State.putB_eq, State.get_put_reg, State.get_put_same]
    cases x.ocxoWarm <;> rfl

/-- Settles O10: a reset leaves the reset form, and a release that of the straps. -/
theorem resetAndRelease : Obligations.ResetAndRelease := by
  refine ⟨fun s => ⟨_, rfl, deviceReset_leaves (by decide) s⟩, fun _ s => ⟨_, rfl, deviceReset_leaves (by decide) s⟩,
    fun x s hr h => ⟨_, rfl, ?_⟩, fun x s hr => ?_⟩
  · obtain ⟨hdev, hboot, hpref, hwarm⟩ := strapsSampled_shows x (h.state hr)
    rcases resetRelease_inReset x hr with ht | ⟨o, ht⟩
    all_goals exact ht ▸ ⟨rfl, hdev, hboot, hpref, hwarm, rfl⟩
  · exact congrArg Host.Outcome.next (if_pos (by simp [hr]))

end Sys2Proof.Machine
end

section
/-!
PROOFS. Writes of a one-bit field by the row that names it, with the value the field is left with (R17).
-/

namespace Sys2Proof.Machine

open Sys2Proof

/-- Bit `k` of the register found takes the bit written: of type RW, of no other. -/
def RegHit.plainBit (h : RegHit) (k : Nat) : Bool :=
  (rwMask h).testBit k && (h.maskAll (fun _ => true)).testBit k && !(h.maskAll (fun a => a == .w1s)).testBit k &&
    !(h.maskAll (fun a => a == .rw1c)).testBit k

/-- The register named has such a bit at the field's place. -/
def Fld.plain (f : Fld) : Bool := (regAt f.reg.addr).any (fun h => h.plainBit f.lsb)

theorem writeSeen_testBit {m : BusMaster} {h : RegHit} {w : Word} {s : State} {k : Nat} (h1 : h.spec.words = 1)
    (hk : h.plainBit k = true) (h32 : k < 32) : (writeSeen m h w s).new.testBit k = w.getLsbD k := by
  simp only [RegHit.plainBit, Bool.and_eq_true, Bool.not_eq_true'] at hk
  obtain ⟨⟨⟨hrw, hall⟩, hw1s⟩, hrw1c⟩ := hk
  have hfull : (2 ^ 32 - 1).testBit k = true := by rw [Nat.testBit_two_pow_sub_one]; exact decide_eq_true h32
  change (writtenValue h _ (takeStaged m h w s).1.1 ((takeStaged m h w s).1.2 &&& _ &&& (takeStaged m h w s).1.1)).testBit k = _
  rw [takeStaged_one m h w s h1, writeByTypeOfField]
  simp only [Nat.testBit_and, hfull, hw1s, hrw1c, hrw, hall, Bool.and_true, Bool.false_and, Bool.true_eq_false, if_false,
    if_true, Bool.false_eq_true, BitVec.testBit_toNat]

/-- A one-bit field is left with the value its row names. -/
theorem writeSeen_now {m : BusMaster} {h : RegHit} {f : Fld} {x : Nat} {v : Word} {s : State} (h1 : h.spec.words = 1)
    (hb : h.base = f.reg.addr) (hk : h.plainBit f.lsb = true) (hw : f.width = 1) (hl : f.lsb < 32) :
    (writeSeen m h (withField f x v) s).now f = x % 2 := by
  have haddr : (writeSeen m h (withField f x v) s).addr = f.reg.addr := hb
  unfold RegWrite.now RegWrite.field
  rw [haddr, Nat.sub_self, Nat.mul_zero, Nat.add_zero, hw, pow_one, ← Nat.toNat_testBit, writeSeen_testBit h1 hk hl]
  unfold withField
  rw [getLsbD_insertBits _ _ _ _ _ hl, if_pos ⟨Nat.le_refl _, by omega⟩, Nat.sub_self, Nat.toNat_testBit]
  simp

/-- A row that writes a one-bit field of a one-word register: the write stands, and the register acts on the value named. -/
theorem Writable.stands_field {m : BusMaster} {f : Fld} {x : Nat} {v : Word} {s : State} {id : RegId} {i j : Nat}
    (hw : Writable m f.reg (withField f x v) s) (hn : namesOneWord f.reg id i j = true) (hp : f.plain = true) (h1 : f.width = 1)
    (hl : f.lsb < 32) (ha : f.reg.addr < 0x026FFFFC) (hid : id ≠ .LDR_HOST_CTRL) :
    ∃ R c, Stands m id i j f.reg.one (withField f x v).toNat s R c ∧ R.now f = x % 2 ∧
      run (busSet m f x v) s = .next (settle s (regEffect R c)) := by
  obtain ⟨h, hf, rfl, rfl, rfl, hwide⟩ := regAt_of_namesOneWord hn
  obtain ⟨k, hk⟩ := mayWrite_meets hw
  obtain rfl : h = k := Option.some.inj (hf.symm.trans (regAt_of_placeOf hk.place.1))
  have hwords : h.spec.words = 1 := congrArg Wide.words hwide
  have hbase : h.base = f.reg.addr := congrArg Wide.addr hwide
  have hbit : h.plainBit f.lsb = true := by simpa only [Fld.plain, hf, Option.any_some] using hp
  have hend : h.wide.addr + 4 * h.wide.words ≤ 0x02700000 := by
    simp only [hwide, Reg.one]
    omega
  obtain ⟨c, hst, -, hput⟩ := write_stands hk (by omega) hend (fun he => absurd he hid)
  rw [takeStaged_one m h _ s hwords, hwide] at hst
  exact ⟨_, c, hst, writeSeen_now hwords hbase hbit h1 hl, run_eq hk.out hput⟩

end Sys2Proof.Machine
end
section
/-!
PROOFS. The ports' enables, hold times and flushes, and the end of a verification (R46, R255 to R260, R430, R476).
-/

namespace Sys2Proof.Machine

open Sys2Proof

/-! ### The ports' fields lie apart -/

theorem macStatus_ne_macCfg (p q : Nat) : (MAC_STATUS p).addr ≠ (MAC_CFG q).addr := by
  simp only [MAC_STATUS, MAC_CFG]
  omega

theorem xcStatus_apart (p : Nat) : (XC_PORT_STATUS_VERIFY p).Apart (XC_PORT_STATUS_PREEMPT_ACTIVE p) := by
  refine .inr ⟨rfl, ?_, ?_⟩ <;> simp [XC_PORT_STATUS_VERIFY, XC_PORT_STATUS_PREEMPT_ACTIVE]

theorem xcEvent_ne_xcStatus (p : Nat) : XC_EVENT.addr ≠ (XC_PORT_STATUS p).addr := by
  simp only [XC_EVENT, XC_PORT_STATUS]
  omega

/-- A write of the enable leaves the state of every port. -/
theorem portState_put_enable (s : State) (p q v : Nat) : portState (s.put (MAC_CFG_EN q) v) p = portState s p :=
  State.get_put_reg s v (macStatus_ne_macCfg p q)

@[simp] theorem portState_setPort (s : State) (p q : Nat) (r : PortRec) : portState (s.setPort q r) p = portState s p := rfl

theorem on_put_enable (s : State) (p v : Nat) : (s.put (MAC_CFG_EN p) v).on (MAC_CFG_EN p) = (v % 2 != 0) := by
  unfold State.on
  rw [State.get_put_same _ _ _ (by simp [MAC_CFG_EN])]
  rfl

/-! ### Mode errors (R51) -/

/-- A mode error is recorded in GLB_MODE_ERR alone. -/
theorem modeErr_get_other {kind obj code : Nat} {s : State} {f : Fld} (hf : f.reg.addr ≠ GLB_MODE_ERR.addr) :
    (modeErr kind obj code s).get f = s.get f := by
  unfold modeErr
  split
  · exact State.get_put_reg _ _ hf
  · rw [State.get_put_reg _ _ hf, State.get_put_reg _ _ hf, State.get_put_reg _ _ hf, State.ev_eq, State.get_put_reg _ _ hf]

/-- Once one is offered, GLB_MODE_ERR is valid. -/
theorem modeErr_valid (kind obj code : Nat) (s : State) : (modeErr kind obj code s).on GLB_MODE_ERR_VALID = true := by
  unfold modeErr
  split
  next h =>
    unfold State.on
    rw [State.ev_eq, State.get_put_apart _ _ (.inr (by decide))]
    exact h
  next =>
    unfold State.on
    rw [State.get_put_apart _ _ (.inr (by decide)), State.get_put_apart _ _ (.inr (by decide)),
      State.get_put_apart _ _ (.inr (by decide)), State.get_ev_same _ _ (by decide) (by decide)]
    rfl

theorem modeErrs_get_other {l : List (Nat × Nat × Nat)} {s : State} {f : Fld} (hf : f.reg.addr ≠ GLB_MODE_ERR.addr) :
    (modeErrs l s).get f = s.get f :=
  forEach_keeps (P := fun t => t.get f = s.get f) s rfl (fun _ _ ht => (modeErr_get_other hf).trans ht)

/-- What every element establishes holds after a list with one. -/
theorem forEach_establishes {α : Type} {P : State → Prop} {l : List α} {g : α → State → State} {s : State} (hl : l ≠ [])
    (h : ∀ a t, P (g a t)) : P (forEach l g s) := by
  cases l with
  | nil => exact absurd rfl hl
  | cons a l => exact forEach_keeps (g a s) (h a s) (fun b t _ => h b t)

theorem modeErrs_valid {l : List (Nat × Nat × Nat)} {s : State} (hl : l ≠ []) :
    (modeErrs l s).on GLB_MODE_ERR_VALID = true := by
  refine forEach_establishes (P := fun t => t.on GLB_MODE_ERR_VALID = true) ?_ (fun c t => modeErr_valid c.2.1 c.2.2 c.1 t)
  rcases List.eq_nil_or_concat l with rfl | ⟨_, _, rfl⟩
  · exact absurd rfl hl
  · simp [List.foldl_append]

/-! ### The enable (R255, R259, R260) -/

theorem namesOneWord_macCfg (p : Fin 66) : namesOneWord (MAC_CFG p) .MAC_CFG p 0 = true := by
  revert p
  decide +kernel

theorem plain_macCfgEn (p : Fin 66) : (MAC_CFG_EN p).plain = true := by
  revert p
  decide +kernel

theorem regEffect_macCfg {R : RegWrite} (c : State) (hid : R.id = .MAC_CFG) : regEffect R c = portWritten R c := by
  unfold regEffect
  rw [hid]

/-- The row of a port's enable with a value: the write stands, and the port acts on it. -/
theorem portEnable_stands {m : BusMaster} {p : Fin 66} {x : Nat} {v : Word} {s : State}
    (hw : Writable m (MAC_CFG p) (withField (MAC_CFG_EN p) x v) s) : ∃ R c,
    Stands m .MAC_CFG p 0 (MAC_CFG p).one (withField (MAC_CFG_EN p) x v).toNat s R c ∧ R.now (MAC_CFG_EN p) = x % 2 ∧
      run (busSet m (MAC_CFG_EN p) x v) s = .next (settle s (portWritten R c)) := by
  obtain ⟨R, c, hst, hnow, hrun⟩ := Writable.stands_field (f := MAC_CFG_EN p) hw (namesOneWord_macCfg p) (plain_macCfgEn p) rfl
    (by simp [MAC_CFG_EN]) (by simp only [MAC_CFG_EN, MAC_CFG]; omega) (by decide)
  obtain ⟨-, hid, -, -, -⟩ := hst.who
  exact ⟨R, c, hst, hnow, by rw [← regEffect_macCfg c hid]; exact hrun⟩

/-- During its flush the enable of a DISABLED port is held. -/
theorem portOn_flushing {p : Nat} {s : State} (h0 : portState s p = 0) (hf : s.on (MAC_STATUS_FLUSH_BUSY p) = true) :
    portOn p s = (s.put (MAC_CFG_EN p) 1).setPort p { s.portRec p with heldEnable := true } := by
  unfold portOn
  rw [if_neg (not_not.2 h0), if_pos hf]

/-- With a forbidden combination the enable of a DISABLED port is refused. -/
theorem portOn_refused {p : Nat} {s : State} (h0 : portState s p = 0) (hf : s.on (MAC_STATUS_FLUSH_BUSY p) = false)
    (he : portErrors s p ≠ []) :
    portOn p s = modeErrs ((portErrors s p).map (fun c => (c, 0, p))) (s.put (MAC_CFG_EN p) 0) := by
  unfold portOn portCommit
  rw [if_neg (not_not.2 h0), if_neg (Bool.eq_false_iff.1 hf)]
  split
  next h => exact absurd h he
  next => rfl

theorem portOn_refused_shows {p : Nat} {s : State} (h0 : portState s p = 0) (hf : s.on (MAC_STATUS_FLUSH_BUSY p) = false)
    (he : portErrors s p ≠ []) : (portOn p s).on (MAC_CFG_EN p) = false ∧ portState (portOn p s) p = 0 ∧
      (portOn p s).on GLB_MODE_ERR_VALID = true := by
  rw [portOn_refused h0 hf he]
  refine ⟨?_, ?_, modeErrs_valid (by simpa using he)⟩
  · have hcfg : (MAC_CFG_EN p).reg.addr ≠ GLB_MODE_ERR.addr := by
      simp only [MAC_CFG_EN, MAC_CFG, GLB_MODE_ERR]
      omega
    unfold State.on
    rw [modeErrs_get_other hcfg]
    exact on_put_enable s p 0
  · have hstatus : (MAC_STATUS_STATE p).reg.addr ≠ GLB_MODE_ERR.addr := by
      simp only [MAC_STATUS_STATE, MAC_STATUS, GLB_MODE_ERR]
      omega
    exact (modeErrs_get_other hstatus).trans ((portState_put_enable s p p 0).trans h0)

/-- A DISABLED port that is disabled again holds no enable. -/
theorem portOff_disabled {p : Nat} {s : State} (h0 : portState s p = 0) :
    portOff p s = (s.put (MAC_CFG_EN p) 0).setPort p { s.portRec p with heldEnable := false } := by
  unfold portOff
  exact if_pos ((portState_put_enable s p p 0).trans h0)

/-! ### The hold times (R259, R260) -/

theorem portUpHold_up {p : Nat} {s : State} (h1 : portState s p = 1) (hl : portLinked s p = true) :
    portUpHold p s = portTo p 4 s := if_pos ⟨h1, hl⟩

theorem portUpHold_unchanged {p : Nat} {s : State} (h : portState s p ≠ 1 ∨ portLinked s p = false) : portUpHold p s = s := by
  refine if_neg ?_
  rintro ⟨h1, hl⟩
  rcases h with h | h
  · exact h h1
  · exact Bool.false_ne_true (h.symm.trans hl)

theorem portDownHold_back {p : Nat} {s : State} (h2 : portState s p = 2) (hl : portLinked s p = true) :
    portDownHold p s = portTo p 4 s := (if_pos h2).trans (if_pos hl)

theorem portDownHold_flushes {p : Nat} {s : State} (h2 : portState s p = 2) (hl : portLinked s p = false) :
    portDownHold p s = portFlushStart p (portTo p 3 s) := (if_pos h2).trans (if_neg (Bool.eq_false_iff.1 hl))

theorem portDownHold_unchanged {p : Nat} {s : State} (h2 : portState s p ≠ 2) : portDownHold p s = s := if_neg h2

/-! ### The end of a flush (R259, R260, R430) -/

/-- A flush that has ended and been recorded. -/
abbrev flushRecorded (p : Nat) (s : State) : State := (portFlushEnd p s).ev (MAC_EVENT_FLUSH_DONE p)

theorem portFlushed_unchanged {p : Nat} {s : State} (hf : s.on (MAC_STATUS_FLUSH_BUSY p) = false) : portFlushed p s = s :=
  if_pos (by simp [hf])

theorem portFlushed_down {p : Nat} {s : State} (hf : s.on (MAC_STATUS_FLUSH_BUSY p) = true)
    (h3 : portState (flushRecorded p s) p = 3) : portFlushed p s = portEval p (portTo p 1 (flushRecorded p s)) :=
  (if_neg (by simp [hf])).trans (if_pos h3)

theorem portFlushed_stays {p : Nat} {s : State} (hf : s.on (MAC_STATUS_FLUSH_BUSY p) = true)
    (h : portState (flushRecorded p s) p = 1 ∨ portState (flushRecorded p s) p = 2 ∨ portState (flushRecorded p s) p = 4) :
    portFlushed p s = flushRecorded p s := by
  have h3 : portState (flushRecorded p s) p ≠ 3 := by omega
  have h0 : portState (flushRecorded p s) p ≠ 0 := by omega
  exact (if_neg (by simp [hf])).trans ((if_neg h3).trans (if_neg (fun h => h0 h.1)))

/-! ### Verification (R476) -/

theorem verifyDone_unchanged {p : Nat} {ok : Bool} {s : State} (h : 64 ≤ p ∨ s.get (XC_PORT_STATUS_VERIFY p) ≠ 1) :
    verifyDone p ok s = s := if_pos h

theorem verifyDone_verified {p : Nat} {s : State} (hp : p < 64) (h1 : s.get (XC_PORT_STATUS_VERIFY p) = 1) :
    (verifyDone p true s).get (XC_PORT_STATUS_VERIFY p) = 2 ∧ (verifyDone p true s).on (XC_PORT_STATUS_PREEMPT_ACTIVE p) = true := by
  have hv : verifyDone p true s = ((s.setPort p { s.portRec p with verified := (0, 0) }).put (XC_PORT_STATUS_VERIFY p) 2).put
      (XC_PORT_STATUS_PREEMPT_ACTIVE p) 1 := if_neg (by rintro (h | h); exacts [by omega, h h1])
  rw [hv]
  unfold State.on
  rw [State.get_put_apart _ _ (xcStatus_apart p), State.get_put_same _ _ _ (by simp [XC_PORT_STATUS_VERIFY]),
    State.get_put_same _ _ _ (by simp [XC_PORT_STATUS_PREEMPT_ACTIVE])]
  exact ⟨rfl, rfl⟩

theorem verifyDone_failed {p : Nat} {s : State} (hp : p < 64) (h1 : s.get (XC_PORT_STATUS_VERIFY p) = 1) :
    (verifyDone p false s).get (XC_PORT_STATUS_VERIFY p) = 3 ∧ (verifyDone p false s).on XC_EVENT_VERIFY_FAIL = true := by
  have hv : verifyDone p false s = ((s.setPort p { s.portRec p with verified := (0, 0) }).put (XC_PORT_STATUS_VERIFY p) 3).ev
      XC_EVENT_VERIFY_FAIL := if_neg (by rintro (h | h); exacts [by omega, h h1])
  rw [hv]
  unfold State.on
  rw [State.get_ev_same _ _ (by decide) (by decide), State.ev_eq, State.get_put_reg _ _ (xcEvent_ne_xcStatus p).symm,
    State.get_put_same _ _ _ (by simp [XC_PORT_STATUS_VERIFY])]
  exact ⟨rfl, rfl⟩

/-- Settles O38: each row is the port's own step, by the case its conditions name. -/
theorem portCommands : Obligations.PortCommands := by
  refine ⟨fun m p v s hw => portEnable_stands hw, fun m p v s hw => portEnable_stands hw, fun p s h0 hf => ?_,
    fun p s he h0 hf => portOn_refused_shows h0 hf he, fun p s h0 => ?_, fun p s hs h1 hl => timed_eq hs (portUpHold_up h1 hl),
    fun p s hs h => timed_eq hs (portUpHold_unchanged h), fun p s hs h2 hl => timed_eq hs (portDownHold_back h2 hl),
    fun p s hs h2 hl => timed_eq hs (portDownHold_flushes h2 hl), fun p s hs h2 => timed_eq hs (portDownHold_unchanged h2),
    fun p s hs hf => timed_eq hs (portFlushed_unchanged hf), fun p s hs hf h3 => timed_eq hs (portFlushed_down hf h3),
    fun p s hs hf h => timed_eq hs (portFlushed_stays hf h),
    fun p s hs hp h1 => ⟨_, timed_eq hs rfl, verifyDone_verified hp h1⟩, fun p s hs hp h1 => ⟨_, timed_eq hs rfl, verifyDone_failed hp h1⟩,
    fun p ok s hs h => timed_eq hs (verifyDone_unchanged h)⟩
  · rw [portOn_flushing h0 hf]
    refine ⟨?_, on_put_enable s p 1, (portState_put_enable s p p 1).trans h0⟩
    rw [State.setPort_portRec]
  · rw [portOff_disabled h0]
    refine ⟨on_put_enable s p 0, ?_, (portState_put_enable s p p 0).trans h0⟩
    rw [State.setPort_portRec]

end Sys2Proof.Machine
end

section
/-!
PROOFS. Time that passes: the clock outputs, the lanes and what they bring with them write their own registers alone (R33, R69, R71, R72,
R83 to R90, R221, R240 to R243, R519).
-/

namespace Sys2Proof.Machine

open Sys2Proof

/-! ### Words kept -/

section
variable {lo hi : Nat} {s t : State}

theorem WordsKept.refl (lo hi : Nat) (s : State) : WordsKept lo hi s s := fun _ _ => rfl

theorem WordsKept.get (h : WordsKept lo hi s t) {f : Fld} (hf : f.reg.addr < lo ∨ hi ≤ f.reg.addr) : t.get f = s.get f := by
  unfold State.get
  rw [h f.reg hf]

theorem WordsKept.of_regs (h : WordsKept lo hi s t) {u : State} (hu : u.regs = t.regs) : WordsKept lo hi s u := fun x hx =>
  (State.word_congr hu x).trans (h x hx)

theorem WordsKept.put (h : WordsKept lo hi s t) {f : Fld} {v : Nat} (hl : lo ≤ f.reg.addr) (hh : f.reg.addr < hi) :
    WordsKept lo hi s (t.put f v) := fun x hx =>
  (State.word_put_other t v (by omega)).trans (h x hx)

theorem WordsKept.putWide (h : WordsKept lo hi s t) {w : Wide} {v : Nat} (hl : lo ≤ w.addr) (hh : w.addr + 4 * w.words ≤ hi) :
    WordsKept lo hi s (t.putWide w v) := fun x hx =>
  (State.word_putWide_other t w v (by omega)).trans (h x hx)

/-- What is kept at each element of a list is kept by the list. -/
theorem forEach_keeps_mem {α : Type} {P : State → Prop} {l : List α} {g : α → State → State} {s : State} (h0 : P s)
    (h : ∀ a ∈ l, ∀ t, P t → P (g a t)) : P (forEach l g s) := by
  unfold forEach
  induction l generalizing s with
  | nil => exact h0
  | cons a l ih => exact ih (h a List.mem_cons_self s h0) (fun b hb => h b (List.mem_cons_of_mem a hb))

end

/-! ### The clock outputs (R83 to R90, R98, R519) -/

/-- Only registers from the clock outputs' block to the calibration's differ. -/
abbrev TimeWords (s t : State) : Prop := WordsKept 0x00110000 0x02200000 s t

section
variable {n : Nat} {s t : State}

theorem outFirst_regs (n : Nat) (s : State) : (outFirst n s).regs = s.regs := rfl

theorem outSetCode_regs (n : Nat) (s : State) : (outSetCode n s).regs = s.regs := by
  unfold outSetCode
  split
  · rfl
  · dsimp only
    split
    · exact outFirst_regs n _
    · rfl

theorem outStopped_regs (n : Nat) (s : State) : (outStopped n s).regs = s.regs := by
  unfold outStopped
  split
  · rfl
  · split
    · rfl
    · exact outSetCode_regs n _

theorem outSlew_regs (n : Nat) (s : State) : (outSlew n s).regs = s.regs := by
  unfold outSlew
  split
  · rfl
  · exact outSetCode_regs n _

theorem TimeWords.put_out (h : TimeWords s t) (hn : n < 12) {f : Fld} (hf : f.reg = OUT_STATUS n) (v : Nat) : TimeWords s (t.put f v) := by
  refine h.put ?_ ?_ <;> simp only [hf, OUT_STATUS] <;> omega

theorem TimeWords.calApplied (h : TimeWords s t) {k i : Nat} (hk : k < 6) : TimeWords s (calApplied k i t) := by
  have hc : calClass k < 6 := by
    unfold calClass
    split <;> omega
  unfold Machine.calApplied
  dsimp only
  refine (((h.put ?_ ?_).putWide ?_ ?_).put ?_ ?_).put ?_ ?_
  all_goals
    simp only [CAL_COUNT_V, CAL_COUNT, CAL_LAST, CAL_K_STATUS_TB_INVALID, CAL_K_STATUS_LAST_INST, CAL_K_STATUS]
    omega

theorem TimeWords.outStatus (h : TimeWords s t) (hn : n < 12) : TimeWords s (outStatus n t) :=
  ((h.put_out hn rfl _).put_out hn rfl _).put_out hn rfl _

theorem TimeWords.outRelease (h : TimeWords s t) (hn : n < 12) : TimeWords s (outRelease n t) := by
  have hp : TimeWords s (t.put (OUT_STATUS_STALE n) 0) := h.put_out hn rfl 0
  unfold Machine.outRelease
  dsimp only
  split
  · exact hp.of_regs (outStopped_regs n _)
  · exact hp

theorem TimeWords.outExchange (h : TimeWords s t) (hn : n < 12) : TimeWords s (outExchange n t) := by
  unfold Machine.outExchange
  split
  · exact h
  next l _ =>
    split
    · exact h
    · have ht : TimeWords s (({ t with cal := { t.cal with rotator := smSet [] t.cal.rotator n l } } : State).setOut n
          { t.outRec n with table := none }) := h.of_regs rfl
      exact ((ht.calApplied (by decide)).outRelease hn).of_regs (outSetCode_regs n _)

theorem TimeWords.outIdle (h : TimeWords s t) (hn : n < 12) : TimeWords s (outIdle n t) := by
  unfold Machine.outIdle
  split
  · exact h
  · exact h.outExchange hn

theorem TimeWords.outEvent (h : TimeWords s t) (hn : n < 12) : TimeWords s (outEvent n t) := by
  unfold Machine.outEvent
  dsimp only
  split
  · exact h
  · exact (h.outExchange hn).of_regs rfl
  · exact (h.outExchange hn).of_regs rfl
  · split
    · exact h.of_regs (outSlew_regs n t)
    · exact TimeWords.outIdle (h.of_regs rfl) hn
  · exact h.of_regs rfl

theorem TimeWords.outEvents (hn : n < 12) (fuel : Nat) (h : TimeWords s t) : TimeWords s (outEvents n fuel t) := by
  induction fuel generalizing t with
  | zero => exact h
  | succ fuel ih =>
    unfold Machine.outEvents
    split
    · exact h
    · exact ih (h.outEvent hn)

theorem TimeWords.outFollow (h : TimeWords s t) (hn : n < 12) : TimeWords s (outFollow n t) := by
  have hf : ∀ {u : State}, u.regs = t.regs → TimeWords s (Machine.outStatus n (Machine.outIdle n u)) := fun hu =>
    (TimeWords.outIdle (h.of_regs hu) hn).outStatus hn
  unfold Machine.outFollow
  dsimp only
  refine hf ?_
  split_ifs
  · rfl
  · exact outSetCode_regs n _
  · rfl
  · rfl
  · rfl

theorem TimeWords.outStatusAll (h : TimeWords s t) : TimeWords s (outStatusAll t) :=
  forEach_keeps_mem h (fun _ hn _ hu => hu.outFollow (List.mem_range.1 hn))

theorem TimeWords.outsTick (h : TimeWords s t) (ticked : Bool) (units : Nat) : TimeWords s (outsTick ticked units t) :=
  forEach_keeps_mem (h.of_regs rfl) (fun _ hn _ hu =>
    (TimeWords.outEvents (List.mem_range.1 (List.mem_of_mem_filter hn)) 64 hu).outStatus (List.mem_range.1 (List.mem_of_mem_filter hn)))

/-! ### The lanes (R221, R240 to R243) -/

theorem TimeWords.put_lane (h : TimeWords s t) (hn : n < 65) {f : Fld} (hl : 0x00400000 + 0x1000 * n ≤ f.reg.addr)
    (hh : f.reg.addr < 0x00401000 + 0x1000 * n) (v : Nat) : TimeWords s (t.put f v) := h.put (by omega) (by omega)

theorem TimeWords.prbsErrors (h : TimeWords s t) (hn : n < 65) (k : Nat) : TimeWords s (prbsErrors n k t) := by
  have hp : ∀ v, TimeWords s (t.putWide (LN_PRBS_ERR n) v) := fun v => by
    refine h.putWide ?_ ?_ <;> simp only [LN_PRBS_ERR] <;> omega
  unfold Machine.prbsErrors
  dsimp only
  split
  · refine (hp _).put_lane hn ?_ ?_ _ <;> simp only [LN_PRBS_STATUS_OVF, LN_PRBS_STATUS] <;> omega
  · exact hp _

theorem TimeWords.checkerTake (h : TimeWords s t) (hn : n < 65) (bits : List Bool) : TimeWords s (checkerTake n bits t) := by
  unfold Machine.checkerTake
  split
  · have hp : ∀ r v, TimeWords s ((t.setLane n r).putB (LN_PRBS_STATUS_CHK_LOCK n) v) := fun r v => by
      refine WordsKept.put (h.of_regs rfl) ?_ ?_ <;> simp only [LN_PRBS_STATUS_CHK_LOCK, LN_PRBS_STATUS] <;> omega
    dsimp only
    split
    · exact hp _ _
    · exact (hp _ _).prbsErrors hn _
  · exact h

theorem TimeWords.genTick (h : TimeWords s t) (hn : n < 65) (units : Nat) : TimeWords s (genTick units n t) := by
  unfold Machine.genTick
  split
  · exact h
  · have hdriven : ∀ r o, TimeWords s ((t.setLane n r).send o) := fun _ _ => h.of_regs rfl
    exact iteInduction (motive := TimeWords s) (fun _ => (hdriven _ _).checkerTake hn _) (fun _ => hdriven _ _)

theorem TimeWords.adaptTick (h : TimeWords s t) (hn : n < 65) : TimeWords s (adaptTick n t) := by
  unfold Machine.adaptTick
  dsimp only
  split
  · refine WordsKept.put (h.of_regs rfl) ?_ ?_ <;> simp only [LN_EQ_PEAK_CUR, LN_EQ] <;> omega
  · exact h

theorem TimeWords.lanesTick (h : TimeWords s t) (units : Nat) : TimeWords s (lanesTick units t) :=
  forEach_keeps_mem h (fun _ hn _ hu =>
    (hu.genTick (List.mem_range.1 (List.mem_of_mem_filter hn)) units).adaptTick (List.mem_range.1 (List.mem_of_mem_filter hn)))

end

/-! ### Steps without a command (R33, R72) -/

theorem idle_clocked {s : State} (hr : s.inReset = false) (hc : s.clocked = true) :
    idle s = .next (settle s (ocxoLook (timeTick s))) :=
  run_eq hr (by simp [tick, hr, hc])

theorem idle_held {s : State} (hr : s.inReset = false) (hc : s.clocked = false) :
    idle s = .next (settle s (lanesTick 1 (outsTick false 1 { s with now := s.now + 1 }))) :=
  run_eq hr (by simp [tick, hr, hc])

/-- Settles O2: the step is `idle`; what goes on under gated clocks writes only registers from the outputs' block on. -/
theorem emptyQueueLetsTimePass : Obligations.EmptyQueueLetsTimePass := by
  intro s hq
  have hstep : step s = idle s := by simp [step, hq]
  refine ⟨fun hr => hstep.trans (run_inReset tick s hr), fun hr hc => hstep.trans (idle_clocked hr hc),
    fun hr hc => hstep.trans (idle_held hr hc), fun r hlt => ?_⟩
  have h0 : TimeWords s { s with now := s.now + 1 } := fun _ _ => rfl
  exact (h0.outsTick false 1).lanesTick 1 r (.inl hlt)

end Sys2Proof.Machine
end

section
/-!
PROOFS. The start of the Capstan and the way to LOADING (R38, R52, R53, R58, R63, R537, R618).
-/

namespace Sys2Proof.Machine

open Sys2Proof

/-! ### A lock attempt (R58, R63) -/

/-- The dither generator is never loaded with 0. -/
theorem ditherLoad_lfsr (s : State) : (ditherLoad s).syn.lfsr ≠ 0 := by
  have hlt : s.get SYN_DITHER_SEED_SEED < 2 ^ 23 := State.get_lt s _
  have hseed : (if s.get SYN_DITHER_SEED_SEED = 0 then 1 else s.get SYN_DITHER_SEED_SEED) % 2 ^ 23 ≠ 0 := by
    split_ifs <;> omega
  exact fun h => hseed (congrArg BitVec.toNat h)

theorem ditherLoad_attempt (s : State) : (ditherLoad s).syn.attempt = s.syn.attempt := by
  unfold ditherLoad
  dsimp only
  split <;> rfl

/-- It writes no register but SYN_EVENT, where the seed is 0. -/
theorem ditherLoad_word {s : State} {r : Reg} (hr : r.addr ≠ SYN_EVENT.addr) : (ditherLoad s).word r = s.word r := by
  unfold ditherLoad
  dsimp only
  split
  · exact State.word_put_other s 1 hr
  · rfl

theorem lockStart_word {s : State} {r : Reg} (hs : r.addr ≠ SYN_STATUS.addr) (he : r.addr ≠ SYN_EVENT.addr) :
    (lockStart s).word r = s.word r :=
  (ditherLoad_word he).trans (State.word_put_other _ 0 hs)

/-- An attempt is under way, with no search yet and the dither generator loaded. -/
theorem lockStart_shows (s : State) :
    (lockStart s).syn.attempt = true ∧ (lockStart s).on SYN_STATUS_SEARCHING = false ∧ (lockStart s).syn.lfsr ≠ 0 := by
  refine ⟨ditherLoad_attempt _, ?_, ditherLoad_lfsr _⟩
  unfold lockStart State.on State.get
  rw [ditherLoad_word (by decide)]
  change (State.get (State.put _ SYN_STATUS_SEARCHING 0) SYN_STATUS_SEARCHING != 0) = false
  rw [State.get_put_same _ _ _ (by decide)]
  rfl

/-! ### The declaration (R52, R53) -/

/-- The declaration of the first header that gives one, in the order of BOOT_SEL (R52). -/
def firstDeclared (a b : List Byte) (s : State) : Option Nat :=
  (if s.get LDR_STATUS_BOOT_SEL = 0 then headerDeclares a else none).or
    (if s.get LDR_STATUS_BOOT_SEL < 2 then headerDeclares b else none)

/-- ROOT_DEFAULT as SYN_ROOT shows it, with FROM_OTP set. -/
def rootFromOtp (s : State) : Nat := s.otp.rootDefault % 8 + 8 + 2 ^ 16 * (s.otp.rootDefault / 2 ^ 16)

/-- In CLOCK_START with no attempt made, SYN_ROOT takes the declaration, else ROOT_DEFAULT, and an attempt starts. -/
theorem rootDeclarationRead_starts {a b : List Byte} {s : State} (hd : s.dev = .clockStart) (ha : s.syn.attempt = false)
    (hl : s.on SYN_STATUS_LOCKED = false) : ∃ t : State,
    rootDeclarationRead a b s = lockStart (t.setWord SYN_ROOT (BitVec.ofNat 32 ((firstDeclared a b s).getD (rootFromOtp s)))) := by
  unfold rootDeclarationRead
  rw [if_neg (by simp [hd, ha, hl])]
  refine ⟨_, congrArg (fun v => lockStart (State.setWord _ SYN_ROOT (BitVec.ofNat 32 v))) ?_⟩
  unfold firstDeclared rootFromOtp
  by_cases h0 : s.get LDR_STATUS_BOOT_SEL = 0
  · cases headerDeclares a <;> cases headerDeclares b <;> simp [h0]
  · by_cases h1 : s.get LDR_STATUS_BOOT_SEL = 1
    · cases headerDeclares b <;> simp [h1]
    · have h2 : ¬ s.get LDR_STATUS_BOOT_SEL < 2 := by omega
      simp [h0, h1, h2]

theorem firstDeclared_a {a b : List Byte} {s : State} {x : Nat} (h0 : s.get LDR_STATUS_BOOT_SEL = 0) (hx : headerDeclares a = some x) :
    firstDeclared a b s = some x := by
  simp [firstDeclared, h0, hx]

theorem firstDeclared_b {a b : List Byte} {s : State} {x : Nat} (h1 : s.get LDR_STATUS_BOOT_SEL = 1) (hx : headerDeclares b = some x) :
    firstDeclared a b s = some x := by
  simp [firstDeclared, h1, hx]

theorem firstDeclared_host {a b : List Byte} {s : State} (h2 : 2 ≤ s.get LDR_STATUS_BOOT_SEL) : firstDeclared a b s = none := by
  unfold firstDeclared
  rw [if_neg (by omega), if_neg (by omega)]
  rfl

/-- A word of ROOT_DEFAULT shows FROM_OTP and its FREQ. -/
theorem rootFromOtp_shows {s t : State} (h : t.word SYN_ROOT = BitVec.ofNat 32 (rootFromOtp s)) :
    t.on SYN_ROOT_FROM_OTP = true ∧ t.get SYN_ROOT_FREQ = s.otp.rootDefault % 8 := by
  unfold State.on State.get
  simp only [SYN_ROOT_FROM_OTP, SYN_ROOT_FREQ, h, extractBits, rootFromOtp, BitVec.toNat_ofNat, bne_iff_ne]
  omega

/-- What the declaration leaves (R52, R53, R58, R63). -/
theorem rootDeclarationRead_shows {a b : List Byte} {s : State} (hd : s.dev = .clockStart) (ha : s.syn.attempt = false)
    (hl : s.on SYN_STATUS_LOCKED = false) :
    let u := rootDeclarationRead a b s
    (u.syn.attempt = true ∧ u.on SYN_STATUS_SEARCHING = false ∧ u.syn.lfsr ≠ 0) ∧
      u.word SYN_ROOT = BitVec.ofNat 32 ((firstDeclared a b s).getD (rootFromOtp s)) := by
  obtain ⟨t, ht⟩ := rootDeclarationRead_starts (a := a) (b := b) hd ha hl
  rw [ht]
  exact ⟨lockStart_shows _, (lockStart_word (by decide) (by decide)).trans (State.word_setWord_same _ _ _)⟩

/-! ### The hardware regions (R537, R618) -/

/-- The regions that hold the device's own objects. -/
abbrev hwRegions : List Nat := [1, 2, 7, 10, 11, 12, 13, 14, 15]

/-- A bit put reads as put, another as before. -/
theorem bit_putBit {s : State} {f : Fld} {k j : Nat} {b : Bool} (hf : f.lsb + f.width ≤ 32) (hk : k < f.width) (hj : j < f.width) :
    (s.putBit f k b).bit f j = if j = k then b else s.bit f j := by
  unfold State.bit State.get
  rw [testBit_extractBits, testBit_extractBits, State.putBit_eq]
  change (decide (j < f.width) && (State.word (State.setWord s f.reg (insertBits (s.word f.reg) (f.lsb + k) 1 _)) f.reg).getLsbD _) = _
  rw [State.word_setWord_same, getLsbD_insertBits _ _ _ _ _ (by omega)]
  by_cases h : j = k
  · subst h
    cases b <;> simp [hj]
  · rw [if_neg (by omega), if_neg h]

/-- The bits of a list put one after the other. -/
theorem bit_forEach_putBit {l : List Nat} {s : State} {f : Fld} {k : Nat} (hf : f.lsb + f.width ≤ 32) (hl : ∀ r ∈ l, r < f.width)
    (hk : k < f.width) : (forEach l (fun r s => s.putBit f r true) s).bit f k = (decide (k ∈ l) || s.bit f k) := by
  induction l generalizing s with
  | nil => simp [forEach]
  | cons r l ih =>
    change (forEach l (fun r s => s.putBit f r true) (s.putBit f r true)).bit f k = _
    rw [ih (fun q hq => hl q (List.mem_cons_of_mem r hq)), bit_putBit hf (hl r List.mem_cons_self) hk]
    by_cases h : k = r <;> simp [h]

/-- Only registers of the loader differ. -/
abbrev LoaderWords (s t : State) : Prop := WordsKept 0x02500000 0x02500100 s t

theorem LoaderWords.ldrStop {s t : State} (h : LoaderWords s t) : LoaderWords s (ldrStop t) := by
  refine WordsKept.put (WordsKept.put (WordsKept.put (h.of_regs rfl) ?_ ?_) ?_ ?_) ?_ ?_ <;> decide

theorem LoaderWords.ldrLaunch {s t : State} (h : LoaderWords s t) (left : List Nat) : LoaderWords s (ldrLaunch left t) := by
  have hput : ∀ {u : State}, LoaderWords s u → ∀ v w, LoaderWords s ((ldrPhase v u).put LDR_STATUS_SOURCE w) := fun hu v w =>
    WordsKept.put (WordsKept.put hu (by decide) (by decide)) (by decide) (by decide)
  have hstop : LoaderWords s { Machine.ldrStop t with ldr := { (Machine.ldrStop t).ldr with left := left } } :=
    h.ldrStop.of_regs rfl
  unfold Machine.ldrLaunch
  dsimp only
  split
  · exact (hput (hput hstop 0 3) 6 3).put (by decide) (by decide)
  · exact hput hstop 0 3

/-- The hardware regions written, LOADING entered. -/
def hwRegionsDone (s : State) : State := (forEach hwRegions (fun r s => s.putBit ECC_INIT_DONE_V r true) s).put GLB_STATE_STATE 2

theorem hwRegionInit_acts {s : State} (hd : s.dev = .clockStart) (hl : s.on SYN_STATUS_LOCKED = true) (hn : s.nominal = true) :
    hwRegionInit s = outStatusAll (ldrLaunch (bootOrder ((hwRegionsDone s).get LDR_STATUS_BOOT_SEL)) (hwRegionsDone s)) := by
  unfold hwRegionInit
  exact if_neg (by simp [hd, hl, hn])

/-- After it the outputs and the loader write no register that says so. -/
theorem hwRegionInit_shows {s : State} (hd : s.dev = .clockStart) (hl : s.on SYN_STATUS_LOCKED = true) (hn : s.nominal = true) :
    (hwRegionInit s).get GLB_STATE_STATE = 2 ∧ ∀ r ∈ hwRegions, (hwRegionInit s).bit ECC_INIT_DONE_V r = true := by
  rw [hwRegionInit_acts hd hl hn]
  generalize bootOrder ((hwRegionsDone s).get LDR_STATUS_BOOT_SEL) = left
  have hload : LoaderWords (hwRegionsDone s) (ldrLaunch left (hwRegionsDone s)) := LoaderWords.ldrLaunch (WordsKept.refl _ _ _) left
  have houts : TimeWords (ldrLaunch left (hwRegionsDone s)) (outStatusAll (ldrLaunch left (hwRegionsDone s))) :=
    TimeWords.outStatusAll (WordsKept.refl _ _ _)
  refine ⟨?_, fun r hr => ?_⟩
  · rw [houts.get (.inl (by decide)), hload.get (.inl (by decide))]
    exact State.get_put_same _ _ _ (by decide)
  · have h16 : ∀ q ∈ hwRegions, q < 16 := by decide
    unfold State.bit
    rw [houts.get (.inr (by decide)), hload.get (.inl (by decide))]
    unfold hwRegionsDone
    rw [State.get_put_reg _ _ (by decide)]
    change State.bit _ ECC_INIT_DONE_V r = true
    rw [bit_forEach_putBit (by decide) h16 (h16 r hr), decide_eq_true hr]
    rfl

/-- Settles O21: what each of the three rows leaves, where its conditions hold. -/
theorem capstanStartCommands : Obligations.CapstanStartCommands := by
  refine ⟨fun a b s hr hd ha hl => ?_, fun s hr hd hl => ?_, fun s hr hd hl hn => ⟨_, run_eq hr rfl, hwRegionInit_shows hd hl hn⟩⟩
  · obtain ⟨⟨hatt, hsearch, hlfsr⟩, hroot⟩ := rootDeclarationRead_shows (a := a) (b := b) hd ha hl
    refine ⟨_, run_eq hr rfl, hatt, hsearch, hlfsr, fun h0 x hx => ?_, fun h1 x hx => ?_, fun h2 => ?_⟩
    · rw [hroot, firstDeclared_a h0 hx]
      rfl
    · rw [hroot, firstDeclared_b h1 hx]
      rfl
    · rw [firstDeclared_host h2] at hroot
      exact rootFromOtp_shows hroot
  · have hstart : clockStartRetry s = lockStart s := if_pos ⟨hd, by simp [hl]⟩
    exact ⟨_, run_eq hr hstart, lockStart_shows s⟩

end Sys2Proof.Machine
end

section
/-!
PROOFS. A failed image's undo in a time-preserving reload (R516, R519, R631).
-/

namespace Sys2Proof.Machine

open Sys2Proof

/-- A reload under way in LOADING, while channel 78 sweeps the spare rotator for CLKOUT0, stopped, whose last table still waits (R519). -/
def reloadDuringSweep : State :=
  { ((State.reset.put GLB_STATE_STATE 2).put CAL_STATUS_CH78_BUSY 1).put CAL_STATUS_CH78_CLASS 3 with
    ldr := { active := true, reload := true }, outs := [(0, { table := some [1] })] }

/-- The undo clears the sweep, so that the outputs' follow-up at its end takes the table that waited. -/
theorem ldrFail_reloadDuringSweep_rotator : (ldrFail 1 0 reloadDuringSweep).cal.rotator = [(0, [1])] := by decide +kernel

/-- Refutes O53, by the clause of a failed image: the undo of a reload keeps the outputs' records, and a rotator table that waits in one
is put over the factory's after the calibration has been returned to it. -/
theorem not_imageReadsAndFailures : ¬ Obligations.ImageReadsAndFailures := by
  unfold Obligations.ImageReadsAndFailures
  rintro ⟨-, -, -, -, -, -, -, -, -, -, -, -, -, -, hfail, -⟩
  obtain ⟨-, hactive⟩ := hfail 1 0 reloadDuringSweep
  obtain ⟨-, -, -, -, -, -, -, hcal, -⟩ := hactive rfl
  have hfactory : (ldrFail 1 0 reloadDuringSweep).cal.rotator = [] := by
    rw [hcal]
    rfl
  rw [ldrFail_reloadDuringSweep_rotator] at hfactory
  exact List.cons_ne_nil _ _ hfactory

end Sys2Proof.Machine
end

section
/-!
PROOFS. What no command touches: the queue behind it and what is fused (R53, R60, R629).
-/

namespace Sys2Proof.Machine
open Sys2Proof

/-- The queue and what is fused are the same in both states. -/
def FixedKept (s t : State) : Prop := t.pending = s.pending ∧ t.otp = s.otp

theorem FixedKept.refl (s : State) : FixedKept s s := ⟨rfl, rfl⟩

theorem fixedKept_settle (s u : State) : FixedKept s (settle s u) := ⟨settle_pending s u, settle_otp s u⟩

theorem fixedKept_deviceReset {k : Nat} (hk : k < 16) (s : State) : FixedKept s (deviceReset k s) := by
  obtain ⟨-, -, -, -, hotp, -, hpending, -⟩ := deviceReset_leaves hk s
  exact ⟨hpending, hotp⟩

theorem fixedKept_resetRelease (x : Straps) (s : State) : FixedKept s (resetRelease x s) := by
  cases hr : s.inReset with
  | false =>
    have hstay : resetRelease x s = s := if_pos (by simp [hr])
    rw [hstay]
    exact FixedKept.refl s
  | true =>
    rcases resetRelease_inReset x hr with ht | ⟨o, ht⟩
    all_goals exact ht ▸ ⟨rfl, rfl⟩

theorem fixedKept_jtagTake (i : JtagInstr) (s : State) : FixedKept s (jtagTake i s) := by
  unfold jtagTake
  dsimp only
  split
  · exact fixedKept_deviceReset (by decide) _
  · exact ⟨rfl, rfl⟩

theorem fixedKept_extestExit (s : State) : FixedKept s (extestExit s) := by
  unfold extestExit
  split
  · exact fixedKept_jtagTake _ s
  · exact FixedKept.refl s

theorem fixedKept_cfgRetry (q : CfgReq) (s : State) : FixedKept s (cfgRetry q s) := by
  cases q <;> exact ⟨rfl, rfl⟩

theorem fixedKept_busUnserved (m : BusMaster) (s : State) : FixedKept s (busUnserved m s) := by
  unfold busUnserved
  split <;> exact ⟨rfl, rfl⟩

theorem FixedKept.run {f : State → State} {s t : State} (ht : Machine.run f s = .next t) : FixedKept s t := by
  obtain rfl := Host.Outcome.next.inj ht
  split
  · exact FixedKept.refl s
  · exact fixedKept_settle s _

theorem FixedKept.runElse {r f : State → State} {s t : State} (hr : FixedKept s (r s)) (ht : Machine.runElse r f s = .next t) :
    FixedKept s t := by
  obtain rfl := Host.Outcome.next.inj ht
  split
  · exact hr
  · exact fixedKept_settle s _

/-- Settles O4: the follow-up puts both back, and of the rows that act in every state none writes them. -/
theorem queueAndFusesAreLeftAlone : Obligations.QueueAndFusesAreLeftAlone := by
  intro c s t ht
  change FixedKept s t
  cases hc : actsAlways c with
  | false =>
    obtain ⟨f, hf⟩ := exec_run c hc
    exact FixedKept.run ((hf s).symm.trans ht)
  | true =>
    have kept_of : ∀ {u : State}, exec c s = .next u → FixedKept s u → FixedKept s t := fun hu hk =>
      Host.Outcome.next.inj (hu.symm.trans ht) ▸ hk
    rcases exec_always c hc s with hu | hu | ⟨x, hu⟩ | ⟨q, hu⟩ | ⟨m, a, hu⟩ | ⟨i, hu⟩ | hu | hu
    · exact kept_of hu (fixedKept_deviceReset (by decide) s)
    · exact kept_of hu (fixedKept_deviceReset (by decide) s)
    · exact kept_of hu (fixedKept_resetRelease x s)
    · exact (fixedKept_cfgRetry q s).runElse (hu.symm.trans ht)
    · exact (fixedKept_busUnserved m s).runElse (hu.symm.trans ht)
    · exact kept_of hu (fixedKept_jtagTake i s)
    · exact kept_of hu (fixedKept_jtagTake .idcode s)
    · exact kept_of hu (fixedKept_extestExit s)

end Sys2Proof.Machine
end

section
/-!
PROOFS. What a write of a one-word register holds in its fields, of any width, and what it leaves alone (R17).
-/

namespace Sys2Proof.Machine

open Sys2Proof

/-- The register named carries every bit of the field in a write: none is reserved (R17). -/
def Fld.carried (f : Fld) : Bool :=
  (regAt f.reg.addr).any (fun h => (List.range f.width).all (fun k => (h.maskAll (fun _ => true)).testBit (f.lsb + k)))

/-- The register named takes every bit of the field as it is written: all of type RW. -/
def Fld.taken (f : Fld) : Bool := (regAt f.reg.addr).any (fun h => (List.range f.width).all (fun k => h.plainBit (f.lsb + k)))

/-- What the write `R` of the word `w` holds in the fields of its register: those it carries, and those it leaves as written. -/
def SeesFields (r : Reg) (w : Word) (R : RegWrite) : Prop :=
  ∀ f : Fld, f.reg.addr = r.addr → f.lsb + f.width ≤ 32 →
    (f.carried = true → R.field R.v f = extractBits w f.lsb f.width) ∧ (f.taken = true → R.now f = extractBits w f.lsb f.width)

/-- A field of a value from the value's bits. -/
theorem RegWrite.field_eq {R : RegWrite} {x : Nat} {f : Fld} {w : Word} (ha : f.reg.addr = R.addr)
    (hx : ∀ k < f.width, x.testBit (f.lsb + k) = w.getLsbD (f.lsb + k)) : R.field x f = extractBits w f.lsb f.width := by
  refine Nat.eq_of_testBit_eq fun k => ?_
  unfold RegWrite.field
  rw [testBit_extractBits, ha, Nat.sub_self, Nat.mul_zero, Nat.add_zero, Nat.testBit_mod_two_pow, Nat.testBit_div_two_pow,
    Nat.add_comm k]
  by_cases hk : k < f.width
  · rw [hx k hk]
  · simp [hk]

theorem writeSeen_v_testBit {m : BusMaster} {h : RegHit} {w : Word} {s : State} {k : Nat} (h1 : h.spec.words = 1)
    (hk : (h.maskAll (fun _ => true)).testBit k = true) (h32 : k < 32) : (writeSeen m h w s).v.testBit k = w.getLsbD k := by
  have hfull : (2 ^ 32 - 1).testBit k = true := by rw [Nat.testBit_two_pow_sub_one]; exact decide_eq_true h32
  change ((takeStaged m h w s).1.2 &&& _ &&& (takeStaged m h w s).1.1).testBit k = _
  rw [takeStaged_one m h w s h1]
  simp only [Nat.testBit_and, hfull, hk, Bool.and_true, BitVec.testBit_toNat]

theorem writeSeen_seesFields {m : BusMaster} {r : Reg} {h : RegHit} {w : Word} {s : State} (hr : regAt r.addr = some h)
    (h1 : h.spec.words = 1) (hb : h.base = r.addr) : SeesFields r w (writeSeen m h w s) := by
  intro f hf h32
  have haddr : f.reg.addr = (writeSeen m h w s).addr := hf.trans hb.symm
  refine ⟨fun hc => RegWrite.field_eq haddr fun k hk => writeSeen_v_testBit h1 ?_ (by omega),
    fun ht => RegWrite.field_eq haddr fun k hk => writeSeen_testBit h1 ?_ (by omega)⟩
  · simp only [Fld.carried, hf, hr, Option.any_some, List.all_eq_true, List.mem_range] at hc
    exact hc k hk
  · simp only [Fld.taken, hf, hr, Option.any_some, List.all_eq_true, List.mem_range] at ht
    exact ht k hk

/-- A row that writes a one-word register: the write stands with its fields, and the register acts. -/
theorem Writable.stands_sees {m : BusMaster} {r : Reg} {v : Word} {s : State} {id : RegId} {i j : Nat} (hw : Writable m r v s)
    (hn : namesOneWord r id i j = true) (ha : r.addr < 0x026FFFFC) (hid : id ≠ .LDR_HOST_CTRL) :
    ∃ R c, Stands m id i j r.one v.toNat s R c ∧ SeesFields r v R ∧
      run (busPut m r.addr v) s = .next (settle s (regEffect R c)) := by
  obtain ⟨h, hf, rfl, rfl, rfl, hwide⟩ := regAt_of_namesOneWord hn
  obtain ⟨k, hk⟩ := mayWrite_meets hw
  obtain rfl : h = k := Option.some.inj (hf.symm.trans (regAt_of_placeOf hk.place.1))
  have hwords : h.spec.words = 1 := congrArg Wide.words hwide
  have hend : h.wide.addr + 4 * h.wide.words ≤ 0x02700000 := by
    simp only [hwide, Reg.one]
    omega
  obtain ⟨c, hst, -, hput⟩ := write_stands hk (by omega) hend (fun he => absurd he hid)
  rw [takeStaged_one m h _ s hwords, hwide] at hst
  exact ⟨_, c, hst, writeSeen_seesFields hf hwords (congrArg Wide.addr hwide), run_eq hk.out hput⟩

/-- The word a row writes with a field named holds the value in it. -/
theorem extract_withField {f : Fld} {x : Nat} {v : Word} (h : f.lsb + f.width ≤ 32) :
    extractBits (withField f x v) f.lsb f.width = x % 2 ^ f.width := extract_insert_same v x h

/-! ### What a write that stands leaves alone -/

/-- A field of another register below the counters' block. -/
theorem Stands.get_other {m : BusMaster} {id : RegId} {i j v : Nat} {r : Reg} {s c : State} {R : RegWrite}
    (h : Stands m id i j r.one v s R c) {f : Fld} (hf : f.reg.addr < 0x02700000) (ho : f.reg.addr < r.addr ∨ r.addr + 4 ≤ f.reg.addr) :
    c.get f = s.get f := by
  unfold State.get
  rw [h.others f.reg hf ho]

end Sys2Proof.Machine
end

section
/-!
PROOFS. Pulse outputs: the realign, the settings that wait for a whole second, and the enable (R104, R107 to R109, R114).
-/

namespace Sys2Proof.Machine

open Sys2Proof

/-- Two ways to go through a list agree where they agree on what holds throughout. -/
theorem forEach_congr {α : Type} {P : State → Prop} {l : List α} {f g : α → State → State} {s : State} (h0 : P s)
    (hfg : ∀ a t, P t → f a t = g a t) (hg : ∀ a t, P t → P (g a t)) : forEach l f s = forEach l g s := by
  unfold forEach
  induction l generalizing s with
  | nil => rfl
  | cons a l ih => rw [List.foldl_cons, List.foldl_cons, hfg a s h0, ih (hg a s h0)]

/-- A bit written leaves the fields of other registers. -/
theorem State.get_putBit_reg (s : State) {f g : Fld} {k : Nat} (b : Bool) (h : f.reg.addr ≠ g.reg.addr) :
    (s.putBit g k b).get f = s.get f := State.get_put_reg s _ h

/-! ### The realign (R107, R108) -/

theorem regEffect_ppsRealign {R : RegWrite} (c : State) (hid : R.id = .PPS_REALIGN) :
    regEffect R c = ppsRealign (R.field R.v PPS_REALIGN_REALIGN) c := by
  unfold regEffect
  rw [hid]

/-- The row of a realign: the write stands, and acts on the outputs that its word names. -/
theorem ppsRealign_stands {m : BusMaster} {v : Word} {s : State} (hw : Writable m PPS_REALIGN v s) : ∃ R c,
    Stands m .PPS_REALIGN 0 0 PPS_REALIGN.one v.toNat s R c ∧ R.field R.v PPS_REALIGN_REALIGN = extractBits v 0 4 ∧
      exec (.ppsRealign m v) s = .next (settle s (ppsRealign (R.field R.v PPS_REALIGN_REALIGN) c)) := by
  obtain ⟨R, c, hst, hsees, hrun⟩ := hw.stands_sees (id := .PPS_REALIGN) (i := 0) (j := 0) (by decide +kernel) (by decide) (by decide)
  obtain ⟨-, hid, -, -, -⟩ := hst.who
  exact ⟨R, c, hst, (hsees PPS_REALIGN_REALIGN rfl (by decide)).1 (by decide +kernel), by rw [← regEffect_ppsRealign c hid]; exact hrun⟩

/-- While the time base is INVALID a realign only sets the bit of each output it names. -/
theorem ppsRealign_invalid {m : Nat} {s : State} (h : s.get TB_STATUS_STATE = 0) :
    ppsRealign m s = forEach (bitsOf 4 m) (fun n s => s.putBit PPS_STATUS_REALIGN_REJ n true) s := by
  unfold ppsRealign
  exact forEach_congr (P := fun t => t.get TB_STATUS_STATE = 0) h (fun _ _ ht => if_pos ht)
    (fun _ _ ht => (State.get_putBit_reg _ _ (by decide)).trans ht)

theorem mem_bitsOf {n v k : Nat} : k ∈ bitsOf n v ↔ k < n ∧ v.testBit k = true := by
  simp [bitsOf]

theorem ppsRealign_invalid_shows {m : Nat} {s : State} (h : s.get TB_STATUS_STATE = 0) : (ppsRealign m s).pps = s.pps ∧
    ∀ n < 4, (ppsRealign m s).bit PPS_STATUS_REALIGN_REJ n = (m.testBit n || s.bit PPS_STATUS_REALIGN_REJ n) := by
  rw [ppsRealign_invalid h]
  refine ⟨forEach_keeps (P := fun t => t.pps = s.pps) s rfl (fun _ _ ht => ht), fun n hn => ?_⟩
  rw [bit_forEach_putBit (l := bitsOf 4 m) (f := PPS_STATUS_REALIGN_REJ) (by decide) (fun k hk => (mem_bitsOf.1 hk).1) hn]
  simp [mem_bitsOf, hn]

/-- Settles O59: the write leaves the state of the time base, and an INVALID one rejects each output named. -/
theorem realignWhileInvalidIsRejected : Obligations.RealignWhileInvalidIsRejected := by
  refine ⟨fun m v s hw h0 => ?_, fun k s h0 => ppsRealign_invalid_shows h0⟩
  obtain ⟨R, c, hst, hfield, hrun⟩ := ppsRealign_stands hw
  have hc0 : c.get TB_STATUS_STATE = 0 := (hst.get_other (by decide) (.inr (by decide))).trans h0
  obtain ⟨hpps, hbit⟩ := ppsRealign_invalid_shows (m := R.field R.v PPS_REALIGN_REALIGN) hc0
  refine ⟨_, hrun, hpps.trans (by rw [hst.rest]), fun n hn => ?_⟩
  rw [hbit n hn, hfield, testBit_extractBits, Nat.zero_add, BitVec.testBit_toNat]
  unfold State.bit
  rw [hst.get_other (f := PPS_STATUS_REALIGN_REJ) (by decide) (.inl (by decide))]
  simp [hn]

/-! ### Settings that wait for the second (R109) -/

theorem ppsTakeSettings_rec (n : Nat) (s : State) :
    (ppsTakeSettings n s).ppsRec n = { s.ppsRec n with
      mode := s.get (PPS_OUT_CFG_MODE n), period := s.get (PPS_OUT_PERIOD_V n), width := s.get (PPS_OUT_WIDTH_V n),
      offset := s.geti (PPS_OUT_OFFSET_V n), pattern := s.wide (PPS_OUT_PATTERN n), pend := false } :=
  State.setPps_ppsRec _ _ _

theorem ppsApplyDue_applies {n : Nat} {s : State} (hp : (s.ppsRec n).pend = true) (hok : ppsSetOk s n = true)
    (hsec : (s.ppsRec n).count % sec40 < s.wide TB_INCR % 2 ^ 48) : ppsApplyDue n s = ppsTakeSettings n s := by
  unfold ppsApplyDue ppsApply
  rw [if_pos hsec, hp, hok]
  rfl

theorem ppsApplyDue_unchanged {n : Nat} {s : State}
    (h : ((s.ppsRec n).pend && ppsSetOk s n && decide ((s.ppsRec n).count % sec40 < s.wide TB_INCR % 2 ^ 48)) = false) :
    ppsApplyDue n s = s := by
  unfold ppsApplyDue ppsApply
  split
  next hsec =>
    rw [decide_eq_true hsec, Bool.and_true] at h
    rw [h]
    rfl
  next => rfl

/-! ### The enable (R104, R114) -/

theorem regEffect_ppsOutCfg {R : RegWrite} {n : Nat} (c : State) (hid : R.id = .PPS_OUT_CFG) (hi : R.i = n) :
    regEffect R c = (ppsoutSet (2 ^ n) (R.now (PPS_OUT_CFG_EN n) * 2 ^ n) (ppsWritten n (R.back (PPS_OUT_CFG_EN n) c))).1 := by
  unfold regEffect
  rw [hid, hi]

theorem namesOneWord_ppsOutCfg (n : Fin 4) : namesOneWord (PPS_OUT_CFG n) .PPS_OUT_CFG n 0 = true := by
  revert n
  decide +kernel

theorem plain_ppsOutCfgEn (n : Fin 4) : (PPS_OUT_CFG_EN n).plain = true := by
  revert n
  decide +kernel

/-- Settles O25: the realign acts on the field written, waiting settings on a whole second, the enable on its own bit. -/
theorem pulseOutputCommands : Obligations.PulseOutputCommands := by
  refine ⟨fun m v s hw => ppsRealign_stands hw, fun n s hs hp hok hsec => ?_, fun n s hs h => timed_eq hs (ppsApplyDue_unchanged h),
    fun m n v s hw => ?_⟩
  · refine ⟨_, timed_eq hs (ppsApplyDue_applies hp hok hsec), ?_⟩
    rw [ppsTakeSettings_rec]
    exact ⟨rfl, rfl, rfl, rfl, rfl, rfl⟩
  · obtain ⟨R, c, hst, hnow, hrun⟩ := Writable.stands_field (f := PPS_OUT_CFG_EN n) hw (namesOneWord_ppsOutCfg n) (plain_ppsOutCfgEn n)
      rfl (by simp [PPS_OUT_CFG_EN]) (by simp only [PPS_OUT_CFG_EN, PPS_OUT_CFG]; omega) (by decide)
    obtain ⟨-, hid, hi, -, -⟩ := hst.who
    have heffect := regEffect_ppsOutCfg c hid hi
    rw [hnow, Nat.mod_eq_of_lt (by decide : 1 < 2), Nat.one_mul] at heffect
    exact ⟨R, c, hst, hnow, by rw [← heffect]; exact hrun⟩

end Sys2Proof.Machine
end

section
/-!
PROOFS. What the clock outputs' steps can change: their own records and registers, and the calibration's (R83 to R90, R519).  It says
more than `TimeWords`: which registers of the outputs' block stay, and that no other part of the state differs.
-/

namespace Sys2Proof.Machine

open Sys2Proof

/-- Beside the outputs' own records and registers below OUT_ENABLE, the calibration's and the sources' places, nothing differs. -/
structure OutsOnly (s t : State) : Prop where
  rest : t = { s with regs := t.regs, outs := t.outs, cal := t.cal, syn := { s.syn with vco := t.syn.vco } }
  words : ∀ x : Reg, (x.addr < 0x00110000 ∨ 0x00110400 ≤ x.addr) → (x.addr < 0x02100000 ∨ 0x02200000 ≤ x.addr) → t.word x = s.word x

namespace OutsOnly

variable {s t u : State}

theorem refl (s : State) : OutsOnly s s := ⟨rfl, fun _ _ _ => rfl⟩

theorem trans (h : OutsOnly s t) (h' : OutsOnly t u) : OutsOnly s u where
  rest := by rw [h'.rest, h.rest]
  words x ho hc := (h'.words x ho hc).trans (h.words x ho hc)

/-- Beside the registers only the records differ. -/
theorem of_regs (hr : t = { s with outs := t.outs, cal := t.cal, syn := { s.syn with vco := t.syn.vco } }) : OutsOnly s t where
  rest := by rw [hr]
  words x _ _ := by rw [hr]; rfl

theorem get (h : OutsOnly s t) {f : Fld} (ho : f.reg.addr < 0x00110000 ∨ 0x00110400 ≤ f.reg.addr)
    (hc : f.reg.addr < 0x02100000 ∨ 0x02200000 ≤ f.reg.addr) : t.get f = s.get f := by
  unfold State.get
  rw [h.words f.reg ho hc]

theorem put {f : Fld} (v : Nat) (hf : 0x00110000 ≤ f.reg.addr ∧ f.reg.addr < 0x00110400 ∨ 0x02100000 ≤ f.reg.addr ∧ f.reg.addr < 0x02200000) :
    OutsOnly s (s.put f v) where
  rest := rfl
  words _ _ _ := State.word_put_other s v (by omega)

theorem forEach {α : Type} {l : List α} {g : α → State → State} (h : ∀ a ∈ l, ∀ t, OutsOnly t (g a t)) :
    OutsOnly s (forEach l g s) :=
  forEach_keeps_mem (refl s) (fun a ha t ht => ht.trans (h a ha t))

end OutsOnly

section
variable {n : Nat}

theorem outStatus_put_only (hn : n < 12) {f : Fld} (hf : f.reg = OUT_STATUS n) (v : Nat) (s : State) : OutsOnly s (s.put f v) := by
  refine OutsOnly.put v (.inl ?_)
  simp only [hf, OUT_STATUS]
  omega

theorem setOut_only (n : Nat) (o : OutRec) (s : State) : OutsOnly s (s.setOut n o) := OutsOnly.of_regs rfl

theorem outFirst_only (n : Nat) (s : State) : OutsOnly s (outFirst n s) := setOut_only n _ s

theorem outSetCode_only (n : Nat) (s : State) : OutsOnly s (outSetCode n s) := by
  unfold outSetCode
  dsimp only
  split_ifs
  · exact OutsOnly.refl s
  · exact (setOut_only n _ s).trans (outFirst_only n _)
  · exact setOut_only n _ s

theorem outStopped_only (n : Nat) (s : State) : OutsOnly s (outStopped n s) := by
  unfold outStopped
  split_ifs
  · exact OutsOnly.refl s
  · exact setOut_only n _ s
  · exact (setOut_only n _ s).trans (outSetCode_only n _)

theorem outRelease_only (hn : n < 12) (s : State) : OutsOnly s (outRelease n s) := by
  have hp : OutsOnly s (s.put (OUT_STATUS_STALE n) 0) := outStatus_put_only hn rfl 0 s
  unfold outRelease
  dsimp only
  split
  · exact hp.trans (outStopped_only n _)
  · exact hp

theorem calApplied_only {k i : Nat} (hk : k < 6) (s : State) : OutsOnly s (calApplied k i s) := by
  have hc : calClass k < 6 := by
    unfold calClass
    split <;> omega
  have hput : ∀ (f : Fld) (v : Nat) (t : State), 0x02100000 ≤ f.reg.addr ∧ f.reg.addr < 0x02200000 → OutsOnly t (t.put f v) :=
    fun f v t hf => OutsOnly.put v (.inr hf)
  have hlast : ∀ v t, OutsOnly t (t.putWide (CAL_LAST (calClass k)) v) := fun v t => by
    refine ⟨State.putWideFrom_eq t _ _ _ v, fun x _ hx => State.word_putWide_other t _ v ?_⟩
    simp only [CAL_LAST]
    omega
  refine (((hput _ _ s ?_).trans (hlast _ _)).trans (hput _ _ _ ?_)).trans (hput _ _ _ ?_)
  all_goals
    simp only [CAL_COUNT_V, CAL_COUNT, CAL_K_STATUS_TB_INVALID, CAL_K_STATUS_LAST_INST, CAL_K_STATUS]
    omega

theorem outExchange_only (hn : n < 12) (s : State) : OutsOnly s (outExchange n s) := by
  unfold outExchange
  split
  · exact OutsOnly.refl s
  next l _ =>
    split
    · exact OutsOnly.refl s
    · have ht : OutsOnly s { s with cal := { s.cal with rotator := smSet [] s.cal.rotator n l } } := OutsOnly.of_regs rfl
      exact (((ht.trans (setOut_only n _ _)).trans (calApplied_only (by decide) _)).trans (outRelease_only hn _)).trans
        (outSetCode_only n _)

theorem outIdle_only (hn : n < 12) (s : State) : OutsOnly s (outIdle n s) := by
  unfold outIdle
  split
  · exact OutsOnly.refl s
  · exact outExchange_only hn s

theorem outStatus_only (hn : n < 12) (s : State) : OutsOnly s (outStatus n s) :=
  ((outStatus_put_only hn rfl _ s).trans (outStatus_put_only hn rfl _ _)).trans (outStatus_put_only hn rfl _ _)

theorem outTake_only (n : Nat) (s : State) : OutsOnly s (outTake n s) := setOut_only n _ s

theorem outStart_only (n : Nat) (from_ : Int) (s : State) : OutsOnly s (outStart n from_ s) :=
  (setOut_only n _ s).trans (outFirst_only n _)

/-- An output that follows its enable, source and device state. -/
theorem outFollow_only (hn : n < 12) (s : State) : OutsOnly s (outFollow n s) := by
  have hend : ∀ {u : State}, OutsOnly s u → OutsOnly s (outStatus n (outIdle n u)) := fun hu =>
    (hu.trans (outIdle_only hn _)).trans (outStatus_only hn _)
  unfold outFollow
  dsimp only
  refine hend ?_
  split_ifs
  · exact setOut_only n _ s
  · exact ((outTake_only n s).trans (outSetCode_only n _)).trans (outStart_only n _ _)
  · exact OutsOnly.refl s
  · exact setOut_only n _ s
  · exact OutsOnly.refl s

theorem outStatusAll_only (s : State) : OutsOnly s (outStatusAll s) :=
  OutsOnly.forEach (fun _ hn _ => outFollow_only (List.mem_range.1 hn) _)

/-- The outputs of a source that restart at its release. -/
theorem outRestart_only (src : Nat) (s : State) : OutsOnly s (outRestart src s) := by
  have hv : OutsOnly s { s with syn := { s.syn with vco := smSet 0 s.syn.vco src 0 } } := OutsOnly.of_regs rfl
  refine hv.trans (OutsOnly.forEach (fun n hn t => ?_))
  have hlt : n < 12 := List.mem_range.1 (List.mem_of_mem_filter hn)
  refine ((outSetCode_only n t).trans ?_).trans (outStatus_only hlt _)
  split
  · exact (outTake_only n _).trans (outStart_only n 0 _)
  · exact OutsOnly.refl _

end

end Sys2Proof.Machine
end

section
/-!
PROOFS. Clock outputs: the enable within the frequency limit, the phase, and the zero-delay loops (R82 to R87, R91 to R94).
-/

namespace Sys2Proof.Machine

open Sys2Proof

/-- Going through a list without repetition of which one element acts. -/
theorem foldl_only {α β : Type} {f : β → α → β} {l : List α} {a : α} (hd : l.Nodup) (ha : a ∈ l) (hf : ∀ b ∈ l, b ≠ a → ∀ x, f x b = x)
    (x : β) : l.foldl f x = f x a := by
  induction l generalizing x with
  | nil => cases ha
  | cons b l ih =>
    obtain ⟨hb, hl⟩ := List.nodup_cons.1 hd
    rw [List.foldl_cons]
    by_cases hba : b = a
    · subst hba
      have hrest : ∀ y, ∀ c ∈ l, f y c = y := fun y c hc => hf c (List.mem_cons_of_mem b hc) (fun e => hb (e ▸ hc)) y
      exact (List.foldl_ext f (fun y _ => y) _ hrest).trans (List.foldl_fixed l)
    · rw [hf b List.mem_cons_self hba]
      exact ih hl ((List.mem_cons.1 ha).resolve_left (Ne.symm hba)) (fun c hc => hf c (List.mem_cons_of_mem b hc)) x

/-! ### The enable (R82, R84, R85) -/

theorem namesOneWord_outEnable : namesOneWord OUT_ENABLE .OUT_ENABLE 0 0 = true := by decide +kernel

theorem plain_outEnable (n : Fin 12) : Fld.plain ⟨OUT_ENABLE, n, 1⟩ = true := by
  revert n
  decide +kernel

theorem regEffect_outEnable {R : RegWrite} (c : State) (hid : R.id = .OUT_ENABLE) :
    regEffect R c = (clkoutSet 0xFFF R.new (R.back OUT_ENABLE_EN c)).1 := by
  unfold regEffect
  rw [hid]

/-- The row of an output's enable with a value: the write stands, and acts on every bit of the word it leaves. -/
theorem clkoutWrite_stands {m : BusMaster} {n : Fin 12} {x : Nat} {v : Word} {s : State}
    (hw : Writable m OUT_ENABLE (withField ⟨OUT_ENABLE, n, 1⟩ x v) s) : ∃ R c,
    Stands m .OUT_ENABLE 0 0 OUT_ENABLE.one (withField ⟨OUT_ENABLE, n, 1⟩ x v).toNat s R c ∧ R.new.testBit n = (x % 2 != 0) ∧
      run (busSet m ⟨OUT_ENABLE, n, 1⟩ x v) s = .next (settle s ((clkoutSet 0xFFF R.new (R.back OUT_ENABLE_EN c)).1)) := by
  have hlsb : n.val < 32 := by omega
  obtain ⟨R, c, hst, hnow, hrun⟩ := Writable.stands_field (f := ⟨OUT_ENABLE, n, 1⟩) hw namesOneWord_outEnable (plain_outEnable n) rfl
    hlsb (by simp only [OUT_ENABLE]; omega) (by decide)
  obtain ⟨-, hid, -, -, haddr⟩ := hst.who
  refine ⟨R, c, hst, ?_, by rw [← regEffect_outEnable c hid]; exact hrun⟩
  have hbase : R.addr = OUT_ENABLE.addr := haddr
  simp only [RegWrite.now, RegWrite.field, hbase, Nat.sub_self, Nat.mul_zero, Nat.add_zero, pow_one] at hnow
  rw [← hnow, Nat.testBit_eq_decide_div_mod_eq]
  rcases Nat.mod_two_eq_zero_or_one (R.new / 2 ^ n.val) with h | h <;> rw [h] <;> rfl

/-- The enable of one output that is off: it is set, unless the output would exceed the frequency of its standard. -/
theorem clkoutSet_one {n : Nat} {s : State} (hn : n < 12) (h0 : s.bit OUT_ENABLE_EN n = false) :
    (clkoutSet (2 ^ n) (2 ^ n) s).1 =
      if freqTooHigh s n then s.ev OUT_EVENT_FREQ_LIMIT else outFollow n (s.putBit OUT_ENABLE_EN n true) := by
  unfold clkoutSet
  rw [foldl_only List.nodup_range (List.mem_range.2 hn)]
  · simp only [Nat.testBit_two_pow_self, h0, Bool.not_true, Bool.false_eq_true, if_false, if_true]
    split <;> rfl
  · intro k _ hk r
    exact if_pos (by rw [Nat.testBit_two_pow_of_ne (Ne.symm hk)]; rfl)

theorem clkoutSet_one_bit {n : Nat} {s : State} (hn : n < 12) (h0 : s.bit OUT_ENABLE_EN n = false) :
    (clkoutSet (2 ^ n) (2 ^ n) s).1.bit OUT_ENABLE_EN n = !freqTooHigh s n := by
  rw [clkoutSet_one hn h0]
  split
  next hf =>
    unfold State.bit at h0 ⊢
    rw [State.ev_eq, State.get_put_reg _ _ (by decide), h0, hf]
    rfl
  next hf =>
    unfold State.bit
    rw [(outFollow_only hn _).get (f := OUT_ENABLE_EN) (.inr (by decide)) (.inl (by decide))]
    change State.bit _ OUT_ENABLE_EN n = _
    rw [bit_putBit (by decide) hn hn, if_pos rfl]
    simp [hf]

/-! ### The phase (R87) -/

theorem namesOneWord_outPhase (n : Fin 12) : namesOneWord (OUT_PHASE n) .OUT_PHASE n 0 = true := by
  revert n
  decide +kernel

theorem taken_outPhase (n : Fin 12) : (OUT_PHASE_PHASE n).taken = true := by
  revert n
  decide +kernel

theorem regEffect_outPhase {R : RegWrite} {n : Nat} (c : State) (hid : R.id = .OUT_PHASE) (hi : R.i = n) :
    regEffect R c = outStatus n (outStopped n c) := by
  unfold regEffect
  rw [hid, hi]

/-! ### Zero-delay loops (R91 to R94) -/

/-- A field of OUT_STATUSn that the outputs' follow-up does not write stays, as does any field elsewhere. -/
theorem outStatus_get {n : Nat} {s : State} {f : Fld} (hr : f.Apart (OUT_STATUS_RUNNING n)) (hs : f.Apart (OUT_STATUS_SAFE_RATIO n))
    (hl : f.Apart (OUT_STATUS_SLEWING n)) : (outStatus n s).get f = s.get f := by
  unfold outStatus
  dsimp only
  rw [State.putB_eq, State.get_put_apart _ _ hl, State.putB_eq, State.get_put_apart _ _ hs, State.putB_eq, State.get_put_apart _ _ hr]

theorem outZdb_ne_outStatus (n : Nat) : (OUT_ZDB n).addr ≠ (OUT_STATUS n).addr := by
  simp only [OUT_ZDB, OUT_STATUS]
  omega

theorem fbLost_apart (n : Nat) {b : Nat} (hb : b ≠ 5) : (OUT_STATUS_FB_LOST n).Apart ⟨OUT_STATUS n, b, 1⟩ :=
  .inr ⟨rfl, by simp only [OUT_STATUS_FB_LOST]; omega, by simp only [OUT_STATUS_FB_LOST]; omega⟩

/-- The TRIM that a measurement's error asks for, before it is held within its range; a rotator measured takes no trim (R91, R519). -/
def zdbWant (n : Nat) (err : Int) (s : State) : Int :=
  (s.get (OUT_ZDB_TRIM n) : Int) + (if s.on (OUT_STATUS_STALE n) then 0 else err)

/-- The measurements within the limits that follow one another, with this one (R92). -/
def zdbCount (n : Nat) (err : Int) (s : State) : Nat :=
  if !decide (clampI 0 131071 (zdbWant n err s) ≠ zdbWant n err s) && err.natAbs ≤ 4 then (s.outRec n).zdbGood + 1 else 0

/-- The lock judged by a measurement (R92, R93). -/
def zdbJudged (n cnt : Nat) (out : Bool) (err : Int) (s : State) : State :=
  if out then s.put (OUT_STATUS_ZDB_LOCKED n) 0
  else if 16 ≤ cnt then s.put (OUT_STATUS_ZDB_LOCKED n) 1
  else if 16 < err.natAbs then s.put (OUT_STATUS_ZDB_LOCKED n) 0
  else s

theorem zdbJudged_get {n cnt : Nat} {out : Bool} {err : Int} {s : State} {f : Fld} (hf : f.Apart (OUT_STATUS_ZDB_LOCKED n)) :
    (zdbJudged n cnt out err s).get f = s.get f := by
  unfold zdbJudged
  split_ifs
  · exact State.get_put_apart s _ hf
  · exact State.get_put_apart s _ hf
  · exact State.get_put_apart s _ hf
  · rfl

theorem zdbMeasure_eq {n : Nat} {err : Int} {s : State} (hn : n < 4) (he : s.on (OUT_ZDB_EN n) = true) :
    zdbMeasure n err s = outStatus n (zdbJudged n (zdbCount n err s) (decide (clampI 0 131071 (zdbWant n err s) ≠ zdbWant n err s)) err
      (((s.puti (OUT_ZDB_TRIM n) (clampI 0 131071 (zdbWant n err s))).put (OUT_STATUS_FB_LOST n) 0).setOut n
        { s.outRec n with zdbGood := min (zdbCount n err s) 16 })) := by
  unfold zdbMeasure
  exact if_pos (by simp [hn, he])

/-- A value held within TRIM's range fits the 17 bits of the field. -/
theorem clampI_trim (v : Int) : (((clampI 0 131071 v % 2 ^ 17).toNat % 2 ^ 17 : Nat) : Int) = clampI 0 131071 v := by
  unfold clampI
  split_ifs <;> omega

/-- A measurement with no rotator measured leaves TRIM with the error taken out, within its range, and the feedback there. -/
theorem zdbMeasure_shows {n : Nat} {err : Int} {s : State} (hn : n < 4) (he : s.on (OUT_ZDB_EN n) = true)
    (hs : s.on (OUT_STATUS_STALE n) = false) :
    ((zdbMeasure n err s).get (OUT_ZDB_TRIM n) : Int) = clampI 0 131071 (s.get (OUT_ZDB_TRIM n) + err) ∧
      (zdbMeasure n err s).on (OUT_STATUS_FB_LOST n) = false := by
  have hwant : zdbWant n err s = s.get (OUT_ZDB_TRIM n) + err := by simp [zdbWant, hs]
  have htrim : ∀ {f : Fld}, f.reg = OUT_STATUS n → (OUT_ZDB_TRIM n).Apart f := fun hf => .inl (by rw [hf]; exact outZdb_ne_outStatus n)
  rw [zdbMeasure_eq hn he]
  refine ⟨?_, ?_⟩
  · rw [outStatus_get (htrim rfl) (htrim rfl) (htrim rfl), zdbJudged_get (htrim rfl), State.setOut_get,
      State.get_put_apart _ _ (htrim rfl), State.puti_eq, State.get_put_same _ _ _ (by simp [OUT_ZDB_TRIM]), hwant]
    exact clampI_trim _
  · unfold State.on
    rw [outStatus_get (fbLost_apart n (by decide)) (fbLost_apart n (by decide)) (fbLost_apart n (by decide)),
      zdbJudged_get (fbLost_apart n (by decide)), State.setOut_get, State.get_put_same _ _ _ (by simp [OUT_STATUS_FB_LOST])]
    rfl

theorem fbMeasure_runs {n : Nat} {err : Int} {s : State} (h : chanRuns s (73 + n) = true) : fbMeasure n err s = zdbMeasure n err s :=
  if_pos h

/-- Without its channel, or with the loop off, a measurement is nothing. -/
theorem fbMeasure_unchanged {n : Nat} {err : Int} {s : State} (h : (chanRuns s (73 + n) && s.on (OUT_ZDB_EN n)) = false) :
    fbMeasure n err s = s := by
  unfold fbMeasure
  split
  next hr =>
    unfold zdbMeasure
    rw [hr, Bool.true_and] at h
    exact if_neg (by simp [h])
  next => rfl

theorem fbLost_eq {n : Nat} {s : State} (hn : n < 4) (he : s.on (OUT_ZDB_EN n) = true) :
    fbLost n s = ((s.put (OUT_STATUS_FB_LOST n) 1).put (OUT_STATUS_ZDB_LOCKED n) 0).putBit OUT_EVENT_FB_LOST n true :=
  if_pos (by simp [hn, he])

/-- The loss of the feedback is flagged, the lock gone, and TRIM held. -/
theorem fbLost_shows {n : Nat} {s : State} (hn : n < 4) (he : s.on (OUT_ZDB_EN n) = true) :
    let u := fbLost n s
    u.on (OUT_STATUS_FB_LOST n) = true ∧ u.on (OUT_STATUS_ZDB_LOCKED n) = false ∧ u.bit OUT_EVENT_FB_LOST n = true ∧
      u.get (OUT_ZDB_TRIM n) = s.get (OUT_ZDB_TRIM n) := by
  have hevent : (OUT_STATUS n).addr ≠ OUT_EVENT.addr := by
    simp only [OUT_STATUS, OUT_EVENT]
    omega
  have htrim : (OUT_ZDB n).addr ≠ OUT_EVENT.addr := by
    simp only [OUT_ZDB, OUT_EVENT]
    omega
  dsimp only
  rw [fbLost_eq hn he]
  refine ⟨?_, ?_, ?_, ?_⟩
  · unfold State.on
    rw [State.get_putBit_reg _ _ hevent, State.get_put_apart (g := OUT_STATUS_ZDB_LOCKED n) _ _ (fbLost_apart n (by decide)),
      State.get_put_same _ _ _ (by simp [OUT_STATUS_FB_LOST])]
    rfl
  · unfold State.on
    rw [State.get_putBit_reg _ _ hevent, State.get_put_same _ _ _ (by simp [OUT_STATUS_ZDB_LOCKED])]
    rfl
  · rw [bit_putBit (by decide) hn hn, if_pos rfl]
  · rw [State.get_putBit_reg _ _ htrim, State.get_put_reg _ _ (outZdb_ne_outStatus n), State.get_put_reg _ _ (outZdb_ne_outStatus n)]

/-- Settles O24: each write by the register's effect, the measurement and the loss by the fields they leave. -/
theorem clockOutputCommands : Obligations.ClockOutputCommands := by
  refine ⟨fun m n v s hw => clkoutWrite_stands hw, fun m n v s hw => clkoutWrite_stands hw, fun n s h0 => clkoutSet_one_bit n.isLt h0,
    fun m n v s hw => ?_, fun n err s hs hr hstale he => ?_, fun n err s hs h => timed_eq hs (fbMeasure_unchanged h),
    fun n s hs he => ⟨_, timed_eq hs rfl, fbLost_shows n.isLt he⟩⟩
  · obtain ⟨R, c, hst, hsees, hrun⟩ := hw.stands_sees (namesOneWord_outPhase n) (by simp only [OUT_PHASE]; omega) (by decide)
    obtain ⟨-, hid, hi, -, -⟩ := hst.who
    exact ⟨R, c, hst, (hsees (OUT_PHASE_PHASE n) rfl (by simp [OUT_PHASE_PHASE])).2 (taken_outPhase n),
      by rw [← regEffect_outPhase c hid hi]; exact hrun⟩
  · exact ⟨_, timed_eq hs (fbMeasure_runs hr), zdbMeasure_shows n.isLt he hstale⟩

end Sys2Proof.Machine
end

section
/-!
PROOFS. Dither and the aux synthesisers: the reseed, the hops and their completion, and the loss of lock (R62, R63, R70, R75 to R78).
-/

namespace Sys2Proof.Machine

open Sys2Proof

/-! ### Dither (R63) -/

/-- A register of one word as a wide value holds its word. -/
theorem State.wide_one (s : State) (r : Reg) : s.wide r.one = (s.word r).toNat := by
  have hr : r.one.word 0 = r := by simp [Reg.one, Wide.word]
  change (s.word (r.one.word 0)).toNat + 2 ^ 32 * 0 = _
  rw [hr, Nat.mul_zero, Nat.add_zero]

/-- A write that stands sees what a field held before it. -/
theorem Stands.was_eq {m : BusMaster} {id : RegId} {i j v : Nat} {f : Fld} {s c : State} {R : RegWrite}
    (h : Stands m id i j f.reg.one v s R c) : R.was f = s.get f := by
  obtain ⟨-, -, -, -, haddr⟩ := h.who
  have hbase : R.addr = f.reg.addr := haddr
  simp only [RegWrite.was, RegWrite.field, hbase, Nat.sub_self, Nat.mul_zero, Nat.add_zero, h.was, State.wide_one]
  rfl

theorem regEffect_dither {R : RegWrite} {c : State} (hid : R.id = .SYN_DITHER) (ha : R.acts SYN_DITHER_RESEED = true) :
    regEffect R c = ditherLoad c := by
  unfold regEffect
  rw [hid]
  exact if_pos ha

theorem ditherLoad_seed (s : State) :
    (ditherLoad s).syn.lfsr = BitVec.ofNat 23 (if s.get SYN_DITHER_SEED_SEED = 0 then 1 else s.get SYN_DITHER_SEED_SEED) := rfl

/-- The row of a reseed, where none was asked for before: the generator takes the seed. -/
theorem ditherReseed_loads {m : BusMaster} {v : Word} {s : State} (hw : Writable m SYN_DITHER (withField SYN_DITHER_RESEED 1 v) s)
    (h0 : s.on SYN_DITHER_RESEED = false) : ∃ u, run (busSet m SYN_DITHER_RESEED 1 v) s = .next (settle s u) ∧
      u.syn.lfsr = BitVec.ofNat 23 (if s.get SYN_DITHER_SEED_SEED = 0 then 1 else s.get SYN_DITHER_SEED_SEED) := by
  obtain ⟨R, c, hst, hsees, hrun⟩ := hw.stands_sees (id := .SYN_DITHER) (i := 0) (j := 0) (by decide +kernel) (by decide) (by decide)
  obtain ⟨-, hid, -, -, -⟩ := hst.who
  have hwas : R.was SYN_DITHER_RESEED = 0 := (hst.was_eq (f := SYN_DITHER_RESEED)).trans (by simpa [State.on] using h0)
  have hv : R.field R.v SYN_DITHER_RESEED = 1 :=
    ((hsees SYN_DITHER_RESEED rfl (by decide)).1 (by decide +kernel)).trans (extract_withField (by decide))
  have hacts : R.acts SYN_DITHER_RESEED = true := by
    unfold RegWrite.acts
    rw [hv, hwas]
    rfl
  refine ⟨ditherLoad c, by rw [← regEffect_dither hid hacts]; exact hrun, ?_⟩
  rw [ditherLoad_seed, hst.get_other (f := SYN_DITHER_SEED_SEED) (by decide) (.inr (by decide))]

/-! ### Hops (R77, R78) -/

theorem namesOneWord_auxCfg (n : Fin 2) : namesOneWord (SYN_AUX_CFG n) .SYN_AUX_CFG n 0 = true := by
  revert n
  decide +kernel

theorem regEffect_auxCfg {R : RegWrite} {n : Nat} (c : State) (hid : R.id = .SYN_AUX_CFG) (hi : R.i = n) :
    regEffect R c = auxWritten n (R.was (SYN_AUX_CFG_EN n) != 0) (R.was (SYN_AUX_CFG_PLAN_SEL n)) c := by
  unfold regEffect
  rw [hid, hi]

theorem auxLockedFld_reg (n : Nat) : (auxLockedFld n).reg = SYN_STATUS := by
  unfold auxLockedFld
  split <;> rfl

theorem auxLockedFld_width (n : Nat) : (auxLockedFld n).lsb + (auxLockedFld n).width ≤ 32 ∧ (auxLockedFld n).width = 1 := by
  unfold auxLockedFld
  split <;> exact ⟨by decide, rfl⟩

theorem on_put_auxLocked (n v : Nat) (s : State) : (s.put (auxLockedFld n) v).on (auxLockedFld n) = (v % 2 != 0) := by
  obtain ⟨hfits, hwidth⟩ := auxLockedFld_width n
  unfold State.on
  rw [State.get_put_same _ _ _ hfits, hwidth]
  rfl

/-- The registers of aux `n` before those of the outputs. -/
theorem auxCfg_below (n : Fin 2) : (SYN_AUX_CFG n).addr < 0x00110000 := by
  simp only [SYN_AUX_CFG]
  omega

theorem State.get_of_regs {s t : State} (h : t.regs = s.regs) (f : Fld) : t.get f = s.get f := by
  unfold State.get
  rw [State.word_congr h]

theorem auxCfg_ne_locked (n : Nat) : (SYN_AUX_CFG n).addr ≠ (auxLockedFld n).reg.addr := by
  rw [auxLockedFld_reg]
  simp only [SYN_AUX_CFG, SYN_STATUS]
  omega

theorem planSel_apart (n : Nat) : (SYN_AUX_CFG_PLAN_SEL n).Apart (SYN_AUX_CFG_HOPPING n) := by
  refine .inr ⟨rfl, ?_, ?_⟩ <;> simp [SYN_AUX_CFG_PLAN_SEL, SYN_AUX_CFG_HOPPING]

theorem planBand_apart (n k : Nat) : (SYN_AUX_PLAN_CTL_BAND n k).Apart (SYN_AUX_PLAN_CTL_BAND_VALID n k) := by
  refine .inr ⟨rfl, ?_, ?_⟩ <;> simp [SYN_AUX_PLAN_CTL_BAND, SYN_AUX_PLAN_CTL_BAND_VALID]

/-- Aux `n` has arrived at plan `k` with a band: the plan holds it, the hop is over, and the aux is locked. -/
def auxArrived (n k band : Nat) (s : State) : State :=
  let s := (s.put (SYN_AUX_PLAN_CTL_BAND n k) band).put (SYN_AUX_PLAN_CTL_BAND_VALID n k) 1
  let s : State := { s with syn := { s.syn with auxHop := smSet 0 s.syn.auxHop n 0 } }
  (s.put (SYN_AUX_CFG_HOPPING n) 0).put (auxLockedFld n) 1

/-- So arrived at the plan selected, it is released at half rate for 2 µs. -/
def auxReached (n k band : Nat) (s : State) : State :=
  let s := auxArrived n k band s
  { s with syn := { s.syn with auxSafe := smSet 0 s.syn.auxSafe n (s.now + safeTime) } }

theorem auxComplete_eq (n band : Nat) (s : State) : auxComplete n band s =
    if smGet 0 s.syn.auxHop n = 0 || !s.nominal then s
    else if (auxArrived n (smGet 0 s.syn.auxHop n - 1) band s).get (SYN_AUX_CFG_PLAN_SEL n) = smGet 0 s.syn.auxHop n - 1 then
      outRestart (n + 1) (auxReached n (smGet 0 s.syn.auxHop n - 1) band s)
    else auxHop n (auxArrived n (smGet 0 s.syn.auxHop n - 1) band s) := rfl

theorem auxArrived_planSel {n k band : Nat} {s : State} :
    (auxArrived n k band s).get (SYN_AUX_CFG_PLAN_SEL n) = s.get (SYN_AUX_CFG_PLAN_SEL n) := by
  have hplan : (SYN_AUX_CFG n).addr ≠ (SYN_AUX_PLAN_CTL n k).addr := by
    simp only [SYN_AUX_CFG, SYN_AUX_PLAN_CTL]
    omega
  unfold auxArrived
  dsimp only
  rw [State.get_put_reg _ _ (auxCfg_ne_locked n), State.get_put_apart _ _ (planSel_apart n)]
  refine (State.get_of_regs (s := (s.put (SYN_AUX_PLAN_CTL_BAND n k) band).put (SYN_AUX_PLAN_CTL_BAND_VALID n k) 1) ?_ _).trans ?_
  · rfl
  rw [State.get_put_reg _ _ hplan, State.get_put_reg _ _ hplan]

/-- A hop under way to the plan that is still selected, complete at nominal: the outputs are released with what it leaves. -/
theorem auxComplete_selected {n band : Nat} {s : State} (hh : smGet 0 s.syn.auxHop n = s.get (SYN_AUX_CFG_PLAN_SEL n) + 1)
    (hn : s.nominal = true) : auxComplete n band s = outRestart (n + 1) (auxReached n (s.get (SYN_AUX_CFG_PLAN_SEL n)) band s) := by
  rw [auxComplete_eq, if_neg (by simp [hh, hn]), hh, Nat.add_sub_cancel, if_pos auxArrived_planSel]

theorem auxComplete_shows {n : Fin 2} {band : Fin 256} {s : State}
    (hh : smGet 0 s.syn.auxHop n = s.get (SYN_AUX_CFG_PLAN_SEL n) + 1) (hn : s.nominal = true) :
    let u := auxComplete n band s
    u.get (SYN_AUX_PLAN_CTL_BAND n (s.get (SYN_AUX_CFG_PLAN_SEL n))) = band.val ∧ u.on (SYN_AUX_CFG_HOPPING n) = false ∧
      u.on (auxLockedFld n) = true ∧ smGet 0 u.syn.auxSafe n = s.now + safeTime := by
  have hk : s.get (SYN_AUX_CFG_PLAN_SEL n) < 8 := State.get_lt s _
  dsimp only
  rw [auxComplete_selected hh hn]
  generalize s.get (SYN_AUX_CFG_PLAN_SEL n) = k at hk
  have hframe := outRestart_only (n + 1) (auxReached n k band s)
  have hget : ∀ {f : Fld}, f.reg.addr < 0x00110000 →
      (outRestart (n + 1) (auxReached n k band s)).get f = (auxArrived n k band s).get f := fun hf =>
    hframe.get (.inl hf) (.inl (by omega))
  have hplan : (SYN_AUX_PLAN_CTL n k).addr < 0x00110000 ∧ (SYN_AUX_PLAN_CTL n k).addr ≠ (SYN_AUX_CFG n).addr ∧
      (SYN_AUX_PLAN_CTL n k).addr ≠ SYN_STATUS.addr := by
    simp only [SYN_AUX_PLAN_CTL, SYN_AUX_CFG, SYN_STATUS]
    omega
  obtain ⟨hbelow, hcfg, hstatus⟩ := hplan
  refine ⟨?_, ?_, ?_, ?_⟩
  · rw [hget (f := SYN_AUX_PLAN_CTL_BAND n k) hbelow]
    unfold auxArrived
    dsimp only
    rw [State.get_put_reg _ _ (by rw [auxLockedFld_reg]; exact hstatus), State.get_put_reg _ _ hcfg]
    refine (State.get_of_regs (s := (s.put (SYN_AUX_PLAN_CTL_BAND n k) band).put (SYN_AUX_PLAN_CTL_BAND_VALID n k) 1) ?_ _).trans ?_
    · rfl
    rw [State.get_put_apart _ _ (planBand_apart n k), State.get_put_same _ _ _ (by simp [SYN_AUX_PLAN_CTL_BAND])]
    exact Nat.mod_eq_of_lt band.isLt
  · unfold State.on
    rw [hget (f := SYN_AUX_CFG_HOPPING n) (auxCfg_below n)]
    unfold auxArrived
    dsimp only
    rw [State.get_put_reg _ _ (auxCfg_ne_locked n), State.get_put_same _ _ _ (by simp [SYN_AUX_CFG_HOPPING])]
    rfl
  · unfold State.on
    rw [hget (by rw [auxLockedFld_reg]; decide)]
    exact on_put_auxLocked n 1 _
  · have hsafe : (outRestart (n + 1) (auxReached n k band s)).syn.auxSafe = (auxReached n k band s).syn.auxSafe := by rw [hframe.rest]
    rw [hsafe]
    exact smGet_set_same 0 (auxArrived n k band s).syn.auxSafe n (s.now + safeTime)

/-! ### Loss of lock (R70, R71, R75) -/

/-- The event of a loss of lock of aux `n`. -/
def auxLolFld (n : Nat) : Fld := if n = 0 then SYN_EVENT_AUX0_LOL else SYN_EVENT_AUX1_LOL

theorem auxLoss_locked {n : Nat} {s : State} (hl : s.on (auxLockedFld n) = true) (hn : s.nominal = true) :
    auxLoss n s = outStatusAll (({ s.ev (auxLolFld n) with
      syn := { s.syn with auxHop := smSet 0 s.syn.auxHop n (s.get (SYN_AUX_CFG_PLAN_SEL n) + 1) } } : State).put (auxLockedFld n) 0) := by
  unfold auxLoss
  rw [if_neg (by simp [hl, hn])]
  rfl

theorem auxLoss_unchanged {n : Nat} {s : State} (hn : s.nominal = false) : auxLoss n s = s := by
  unfold auxLoss
  exact if_pos (by simp [hn])

theorem auxLoss_shows {n : Nat} {s : State} (hl : s.on (auxLockedFld n) = true) (hn : s.nominal = true) :
    let u := auxLoss n s
    u.on (auxLockedFld n) = false ∧ u.on (auxLolFld n) = true ∧ smGet 0 u.syn.auxHop n = s.get (SYN_AUX_CFG_PLAN_SEL n) + 1 := by
  have hlol : (auxLolFld n).reg = SYN_EVENT ∧ (auxLolFld n).lsb + (auxLolFld n).width ≤ 32 ∧ (auxLolFld n).width = 1 := by
    unfold auxLolFld
    split <;> exact ⟨rfl, by decide, rfl⟩
  obtain ⟨hreg, hfits, hwidth⟩ := hlol
  dsimp only
  rw [auxLoss_locked hl hn]
  generalize hu : ({ s.ev (auxLolFld n) with
      syn := { s.syn with auxHop := smSet 0 s.syn.auxHop n (s.get (SYN_AUX_CFG_PLAN_SEL n) + 1) } } : State).put (auxLockedFld n) 0 = u
  have hframe := outStatusAll_only u
  refine ⟨?_, ?_, ?_⟩
  · unfold State.on
    rw [hframe.get (.inl (by rw [auxLockedFld_reg]; decide)) (.inl (by rw [auxLockedFld_reg]; decide)), ← hu]
    exact on_put_auxLocked n 0 _
  · unfold State.on
    rw [hframe.get (.inl (by rw [hreg]; decide)) (.inl (by rw [hreg]; decide)), ← hu,
      State.get_put_reg _ _ (by rw [hreg, auxLockedFld_reg]; decide)]
    change (State.get (State.ev s (auxLolFld n)) (auxLolFld n) != 0) = true
    rw [State.get_ev_same _ _ hfits (by omega)]
    rfl
  · have hhop : (outStatusAll u).syn.auxHop = u.syn.auxHop := by rw [hframe.rest]
    rw [hhop, ← hu]
    exact smGet_set_same 0 s.syn.auxHop n (s.get (SYN_AUX_CFG_PLAN_SEL n) + 1)

/-- Settles O23: the writes by their registers' effects, the completion and the loss by what they leave before the outputs follow. -/
theorem auxAndDitherCommands : Obligations.AuxAndDitherCommands := by
  refine ⟨fun m v s _ hw h0 => ditherReseed_loads hw h0, fun m n v s hw => ?_,
    fun n band s hr hh hn => ⟨_, run_eq hr rfl, auxComplete_shows hh hn⟩, fun n s hr hl hn => ⟨_, run_eq hr rfl, ?_⟩,
    fun n s hr hn => run_eq hr (auxLoss_unchanged hn)⟩
  · obtain ⟨R, c, hst, -, hrun⟩ := hw.stands_sees (namesOneWord_auxCfg n) (by simp only [SYN_AUX_CFG]; omega) (by decide)
    obtain ⟨-, hid, hi, -, -⟩ := hst.who
    exact ⟨R, c, hst, by rw [← regEffect_auxCfg c hid hi]; exact hrun⟩
  · have hfld : (if n = 0 then SYN_EVENT_AUX0_LOL else SYN_EVENT_AUX1_LOL) = auxLolFld n := by simp [auxLolFld]
    rw [hfld]
    exact auxLoss_shows hl hn

end Sys2Proof.Machine
end

section
/-!
PROOFS. What buffers, cells, frames and what leaves a port keep of the registers of the device and of synthesis (R71, R282).
-/

namespace Sys2Proof.Machine

open Sys2Proof

/-- The registers below the outputs' block, those of the device and of synthesis, hold what they held, and the same accesses wait. -/
structure SynKept (s t : State) : Prop where
  words : ∀ x : Reg, x.addr < 0x00110000 → t.word x = s.word x
  waiting : t.mgt.waiting = s.mgt.waiting

/-- An address in an array of registers lies above what its first register lies above. -/
theorem above_add {b k : Nat} (h : 0x00110000 ≤ b) : 0x00110000 ≤ b + k := Nat.le_add_right_of_le h

namespace SynKept

variable {s t : State}

theorem refl (s : State) : SynKept s s := ⟨fun _ _ => rfl, rfl⟩

theorem get (h : SynKept s t) {f : Fld} (hf : f.reg.addr < 0x00110000) : t.get f = s.get f := by
  unfold State.get
  rw [h.words f.reg hf]

/-! ### The operations of the state -/

/-- A state may differ in all but the registers and what waits. -/
theorem of_eq (h : SynKept s t) {u : State} (hr : u.regs = t.regs) (hw : u.mgt.waiting = t.mgt.waiting) : SynKept s u where
  words x hx := (State.word_congr hr x).trans (h.words x hx)
  waiting := hw.trans h.waiting

theorem onlyPmc (h : SynKept s t) {u : State} (hu : OnlyPmc t u) : SynKept s u where
  words x hx := (hu.2 x (by omega)).trans (h.words x hx)
  waiting := by
    rw [hu.1]
    exact h.waiting

theorem outsOnly (h : SynKept s t) {u : State} (hu : OutsOnly t u) : SynKept s u where
  words x hx := (hu.words x (.inl hx) (.inl (by omega))).trans (h.words x hx)
  waiting := by
    rw [hu.rest]
    exact h.waiting

theorem ite {c : Prop} [Decidable c] {u : State} (h : SynKept s t) (h' : SynKept s u) : SynKept s (if c then t else u) := by
  split
  · exact h
  · exact h'

theorem forEach {α : Type} {l : List α} {g : α → State → State} (h : SynKept s t) (hg : ∀ a u, SynKept s u → SynKept s (g a u)) :
    SynKept s (forEach l g t) := forEach_keeps (P := SynKept s) t h hg

section
variable {f : Fld} (h : SynKept s t)
include h

theorem put (v : Nat) (hf : 0x00110000 ≤ f.reg.addr) : SynKept s (t.put f v) where
  words x hx := (State.word_put_other t v (by omega)).trans (h.words x hx)
  waiting := h.waiting

theorem ev (hf : 0x00110000 ≤ f.reg.addr) : SynKept s (t.ev f) := h.put 1 hf
theorem count (n : Nat) (hf : 0x00110000 ≤ f.reg.addr) : SynKept s (t.count f n) := h.put _ hf
theorem countSat (n : Nat) (hf : 0x00110000 ≤ f.reg.addr) : SynKept s (t.countSat f n) := h.put _ hf
theorem putB (b : Bool) (hf : 0x00110000 ≤ f.reg.addr) : SynKept s (t.putB f b) := h.put _ hf
theorem puti (v : Int) (hf : 0x00110000 ≤ f.reg.addr) : SynKept s (t.puti f v) := h.put _ hf

theorem putWide {w : Wide} (v : Nat) (hw : 0x00110000 ≤ w.addr) : SynKept s (t.putWide w v) where
  words x hx := (State.word_putWide_other t w v (.inl (by omega))).trans (h.words x hx)
  waiting := by
    unfold State.putWide
    rw [State.putWideFrom_eq]
    exact h.waiting

theorem pmcEvent (code : Nat) (kind : PmcKind) (k : Nat) : SynKept s (pmcEvent code kind k t) := h.onlyPmc (pmcEvent_only _ _ _ _)

theorem send (o : Out) : SynKept s (t.send o) := h.of_eq rfl rfl
theorem setPort (n : Nat) (r : PortRec) : SynKept s (t.setPort n r) := h.of_eq rfl rfl
theorem setFrame (n : Nat) (r : FrameRec) : SynKept s (t.setFrame n r) := h.of_eq rfl rfl
theorem setCopy (n : Nat) (r : CopyRec) : SynKept s (t.setCopy n r) := h.of_eq rfl rfl
theorem setQueue (n : Nat) (r : QRec) : SynKept s (t.setQueue n r) := h.of_eq rfl rfl
theorem setBuf (pool i : Nat) (b : BufRec) : SynKept s (t.setBuf pool i b) := h.of_eq rfl rfl
theorem setPha (n : Nat) (r : PhaRec) : SynKept s (t.setPha n r) := h.of_eq rfl rfl
theorem setLane (n : Nat) (r : LaneRec) : SynKept s (t.setLane n r) := h.of_eq rfl rfl
theorem setEcc (e : EccRec) : SynKept s { t with ecc := e } := h.of_eq rfl rfl
theorem setFlips (r a m : Nat) : SynKept s (t.setFlips r a m) := h.of_eq rfl rfl

/-! ### Buffers, cells and frames -/

theorem poolReject (pool i cls kind : Nat) : SynKept s (poolReject pool i cls kind t) := by
  have hcount : SynKept s (if kind = 1 then (t.count (POOL_CNT0_DOUBLE_FREE pool)).ev POOL_EVENT_DOUBLE_FREE
      else if kind = 2 then (t.count (POOL_CNT1_OWNER_FAULT pool)).ev POOL_EVENT_OWNER_FAULT
      else (t.count (POOL_CNT2_REF_OVF pool)).ev POOL_EVENT_REF_OVF) :=
    ite ((h.count 1 (above_add (by decide))).ev (by decide)) (ite ((h.count 1 (above_add (by decide))).ev (by decide))
      ((h.count 1 (above_add (by decide))).ev (by decide)))
  exact ite (hcount.ev (by decide)) (((((hcount.ev (by decide)).put i (by decide)).put pool (by decide)).put cls
    (by decide)).put kind (by decide))

theorem bufRelease (pool i : Nat) : SynKept s (bufRelease pool i t) := by
  have hfree := (h.setBuf pool i { written := (t.buf pool i).written }).put (f := POOL_FREE_V pool)
    (State.get (t.setBuf pool i { written := (t.buf pool i).written }) (POOL_FREE_V pool) + 1) (above_add (by decide))
  exact ite (h.setBuf pool i _) (ite (hfree.pmcEvent _ _ _) hfree)

theorem poolFree (pool i cls : Nat) : SynKept s (poolFree pool i cls t).2 := by
  unfold Machine.poolFree
  dsimp only
  split_ifs
  · exact h.poolReject pool i cls 1
  · exact h.poolReject pool i cls 2
  · exact h.bufRelease pool i
  · exact h.setBuf pool i _

theorem deferFree (cls i : Nat) : SynKept s (deferFree cls i t) :=
  SynKept.put (t := { t with qm := { t.qm with deferred := t.qm.deferred ++ [(cls, i)] } }) (h.of_eq rfl rfl) 1 (by decide)

theorem freeCellsQ (cls : Nat) (l : List Nat) : SynKept s (freeCellsQ cls l t) :=
  ite (h.forEach (fun i _ hu => hu.poolFree 0 i cls)) (h.forEach (fun i _ hu => hu.deferFree cls i))

theorem poolEmpty (pool : Nat) : SynKept s (poolEmpty pool t) := (h.count 1 (above_add (by decide))).ev (by decide)

theorem poolAlloc (pool cls floor : Nat) : SynKept s (poolAlloc pool cls floor t).2 := by
  unfold Machine.poolAlloc
  dsimp only
  split
  · exact h.poolEmpty pool
  · have hput := ((h.setBuf pool (firstGap (allocated t pool) 0)
      { t.buf pool (firstGap (allocated t pool) 0) with alloc := true, owner := cls, refs := 1, age := t.epoch }).put
        (f := POOL_FREE_V pool) (t.get (POOL_FREE_V pool) - 1) (above_add (by decide))).put (f := POOL_LOW_WATER_V pool)
    exact ite (SynKept.pmcEvent (hput _ (above_add (by decide))) _ _ _) (hput _ (above_add (by decide)))

omit h in
theorem cpuBuffers (h : SynKept s t) (cls n : Nat) : SynKept s (cpuBuffers cls n t).2 := by
  induction n generalizing t with
  | zero => exact h
  | succ n ih =>
    have hone := h.poolAlloc 2 cls 0
    unfold Machine.cpuBuffers
    split
    next u hu =>
      rw [hu] at hone
      exact hone
    next i u hu =>
      rw [hu] at hone
      exact ih hone

theorem frameTidy (f : Nat) : SynKept s (frameTidy f t) := ite (h.setFrame f {}) h

theorem frameUnref (f : Nat) : SynKept s (frameUnref f t) := (h.setFrame f _).frameTidy f

/-! ### Errors in cells -/

theorem eccLogAdd (r addr syn : Nat) (ue scrub tag : Bool) : SynKept s (eccLogAdd r addr syn ue scrub tag t) :=
  ite ((h.setEcc _).ev (by decide)) (((h.setEcc _).setEcc _).put _ (by decide))

theorem eccCe (r addr syn : Nat) (scrub : Bool) : SynKept s (eccCe r addr syn scrub t) :=
  (((h.count 1 (by decide)).ev (by decide)).pmcEvent _ _ _).eccLogAdd r addr syn false scrub false

theorem eccUe : SynKept s (eccUe t) := by
  have hue : SynKept s { t with pair := { t.pair with lastUe := some t.now } } := h.of_eq rfl rfl
  exact (((hue.ev (f := PAIR_EVENT_SELFTEST_FAIL) (by decide)).count 1 (by decide)).ev (by decide)).pmcEvent _ _ _

theorem cellByte (a : Nat) : SynKept s (cellByte a t).2 := by
  unfold Machine.cellByte
  dsimp only
  split_ifs
  · exact h
  · exact (h.setFlips 0 a 0).eccCe _ _ _ _
  · exact h.eccLogAdd _ _ _ _ _ _

theorem cellPoison (i : Nat) : SynKept s (cellPoison i t) := h.forEach (fun f _ hu => hu.setFrame f _)

omit h in
/-- The four bytes of a word of a cell, looked at one after the other. -/
theorem cellWord (h : SynKept s t) (w : Nat) (l : List Nat) (b : Bool) :
    SynKept s (l.foldl (fun (x : Bool × State) k =>
      let y := Machine.cellByte (4 * w + k) x.2
      (x.1 || y.1, y.2)) (b, t)).2 := by
  induction l generalizing b t with
  | nil => exact h
  | cons k l ih => exact ih (h.cellByte (4 * w + k)) _

theorem cellsLook (l : List Nat) : SynKept s (cellsLook l t) :=
  ite h (h.forEach (fun i _ hu => hu.forEach (fun w _ hv =>
    ite ((hv.cellWord w _ false).eccUe.cellPoison i) (hv.cellWord w _ false))))

theorem creditSyncTo (q at_ : Nat) : SynKept s (creditSyncTo q at_ t) :=
  ite h ((h.setQueue q _).puti _ (above_add (by decide)))

/-! ### What leaves a port -/

theorem loopPut (p : Nat) (m : Bool) (b : List Byte) : SynKept s (loopPut p m b t) := ite (h.setPort p _) h

theorem sendMpackets (p : Nat) (l : List (List Byte)) : SynKept s (sendMpackets p l t) :=
  h.forEach (fun b _ hu => (hu.send (.mpacket p b)).loopPut p true b)

theorem c30 (p k n : Nat) : SynKept s (c30 p k n t) := ite h (h.putWide _ (above_add (above_add (by decide))))

theorem countSent (p tc : Nat) (l : List Byte) (stomped : Bool) : SynKept s (countSent p tc l stomped t) := by
  have hsent := (h.c30 p 0 1).c30 p 4 (dataOctets l.length)
  exact ite (((h.count 1 (above_add (by decide))).ev (above_add (by decide))).pmcEvent _ _ _)
    (((ite (hsent.c30 p 7 1) (ite (hsent.c30 p 6 1) hsent)).pmcEvent _ _ _).pmcEvent _ _ _)

theorem stompTail (p : Nat) (stomped : Bool) : SynKept s (stompTail p stomped t) := ite (h.send _) h

theorem sendFrame (p tc : Nat) (l : List Byte) (stomped : Bool) (x : TxRec) : SynKept s (sendFrame p tc l stomped x t) :=
  ((ite (h.sendMpackets p _) ((h.send _).loopPut p false _)).stompTail p stomped).countSent p tc _ stomped

theorem insFlags (p : Nat) (r : Inserted) : SynKept s (insFlags p r t) := by
  have hskip := (h.count (f := MAC_CNT0_INS_SKIP p) 1 (above_add (by decide))).ev (f := MAC_EVENT_INS_SKIP p) (above_add (by decide))
  have hsat := ((ite (c := r.skip = true) hskip h).count (f := MAC_CNT2_CF_SAT p) 1 (above_add (by decide))).ev
    (f := MAC_EVENT_CF_SAT p) (above_add (by decide))
  exact ite hsat (ite hskip h)

theorem loopback (p tc : Nat) (bytes : List Byte) (stamp : Nat) (skip stomped : Bool) :
    SynKept s (loopback p tc bytes stamp skip stomped t) :=
  ite ((h.poolEmpty 2).count 1 (above_add (by decide))) ((h.cpuBuffers clsMacLb ((bytes.length + 255) / 256)).of_eq rfl rfl)

theorem sendCopy (c : Nat) (x : TxRec) : SynKept s (sendCopy c x t) := by
  have hsent := (h.insFlags (t.copyRec c).port (copyOut t c x.cells)).sendFrame (t.copyRec c).port ((t.copyRec c).queue % 8)
    (copyOut t c x.cells).bytes (copyBad t c || x.stomp) x
  have hcut := ite (c := (t.copyRec c).cut = true) (hsent.pmcEvent 0x024 (.frame ((t.copyRec c).queue % 8)) 1) hsent
  exact ite (hcut.loopback _ _ _ _ _ _) hcut

theorem copyEnd (p c at_ : Nat) (x : TxRec) : SynKept s (copyEnd p c at_ x t) :=
  frameUnref (setCopy (freeCellsQ (setQueue (sendCopy (setPort (cellsLook (h.creditSyncTo _ at_) _) p _) c x) _ _) _ _) c {}) _

theorem ferryEnd (p : Nat) (x : TxRec) : SynKept s (ferryEnd p x t) := by
  have hsent : ∀ i r, SynKept s (Machine.sendFrame p 7 (i : Inserted).bytes x.stomp x (Machine.insFlags p i (t.setPort p r))) :=
    fun i r => ((h.setPort p r).insFlags p i).sendFrame p 7 i.bytes x.stomp x
  exact ite ((hsent _ _).of_eq rfl rfl) ((hsent _ _).poolFree 3 _ clsFerryman)

theorem txFinish (p at_ : Nat) (x : TxRec) : SynKept s (txFinish p at_ x t) := by
  unfold Machine.txFinish
  split
  · exact h.copyEnd p _ at_ x
  · exact h.ferryEnd p x

theorem launchFinish (e : Nat) (l : LaunchRec) : SynKept s (launchFinish e l t) :=
  frameUnref (setCopy (setFrame (setPort (sendCopy (ite (ev (count (h.setFrame _ _) 1 (above_add (by decide))) (by decide)) h) l.copy {})
    e _) _ _) l.copy {}) _

omit h in
/-- A transmission that is to be stomped ends, any other stays. -/
theorem stompOut (h : SynKept s t) (p : Nat) (x : Option TxRec) : SynKept s (match x with
    | some x => if x.stomp then Machine.txFinish p t.nowPs { x with stop := none } t else t
    | none => t) := by
  split
  · exact ite (h.txFinish p _ _) h
  · exact h

theorem stompSend (p : Nat) : SynKept s (stompSend p t) :=
  (((h.setPort p _).stompOut p _).stompOut p _).forEach (fun l _ hu => hu.launchFinish p l)

end

end SynKept

end Sys2Proof.Machine
end

section
/-!
PROOFS. What phases, the TIU's measurement and calibration passes given up keep of the registers of the device and of synthesis (R71).
-/

namespace Sys2Proof.Machine

open Sys2Proof

namespace SynKept

variable {s t : State} (h : SynKept s t)
include h

/-! ### Phases (R227, R293, R301, R302) -/

theorem xcRefresh (n : Nat) : SynKept s (xcRefresh n t) := by
  have hcoarse := h.putB (f := XC_STREAM_STATUS_COARSE n) (xcCoarse t n) (above_add (by decide))
  exact ite (hcoarse.put 2 (above_add (by decide))) (ite ((hcoarse.put 1 (above_add (by decide))).ev (by decide))
    (hcoarse.put 1 (above_add (by decide))))

theorem xcRefreshAll : SynKept s (xcRefreshAll t) := h.forEach (fun n _ hu => hu.xcRefresh n)

theorem fineRefresh (p : Nat) : SynKept s (fineRefresh p t) :=
  ite h.xcRefreshAll (((h.putB _ (above_add (by decide))).putB _ (above_add (by decide))).putB _ (above_add (by decide))).xcRefreshAll

theorem chanRestart (c : Nat) : SynKept s (chanRestart c t) := ite ((h.setPha c _).fineRefresh _) (h.setPha c _)

theorem txphClear (q : Nat) : SynKept s (txphClear q t) := by
  have hvoid := h.put (f := PHA_TXPH_VALID q) 0 (above_add (by decide))
  exact ite (ite (hvoid.forEach (fun k _ hu => hu.fineRefresh (4 * q + k))) (hvoid.fineRefresh 65)) h

theorem phaRelease : SynKept s (phaRelease t) := by
  have hgrid : SynKept s { t with syn := { t.syn with release := t.now } } := h.of_eq rfl rfl
  exact (hgrid.forEach (fun c _ hu => hu.chanRestart c)).forEach (fun q _ hu => hu.txphClear q)

/-! ### The TIU (R491, R494) -/

theorem setTiu (r : TiuRec) : SynKept s { t with tiu := r } := h.of_eq rfl rfl

theorem tiuBaseBit : SynKept s (tiuBaseBit t) := h.putB _ (by decide)

theorem tiuNext : SynKept s (tiuNext t) := (h.setTiu _).put _ (by decide)

theorem tiuRelease : SynKept s (tiuRelease t) := ite h.tiuBaseBit.tiuNext h.tiuBaseBit

theorem tiuRecord (value bits start : Nat) : SynKept s (tiuRecord value bits start t) := by
  have hlast : ∀ v r, SynKept s (State.putWide { t with tiu := r } TIU_LAST v) := fun v r => (h.setTiu r).putWide v (by decide)
  exact ite (((hlast _ _).countSat 1 (by decide)).ev (by decide)) (((hlast _ _).setTiu _).put _ (by decide))

theorem tiuVoid (bits : Nat) : SynKept s (tiuVoid bits t) := by
  have hstart : SynKept s (tiuStartTime t).2 := by
    unfold tiuStartTime
    split
    · exact h
    · exact h.of_eq rfl rfl
  have hfresh : SynKept s (tiuStartTime t).2.fresh.2 := hstart.of_eq rfl rfl
  exact hfresh.tiuRecord _ bits _

theorem tiuEnd (code : Nat) : SynKept s (tiuEnd code t) := by
  have hidle := ((h.put (f := TIU_STATUS_STATE) 0 (by decide)).put (f := TIU_CTRL_ARM) 0 (by decide)).put (f := TIU_STATUS_RUN_END) code
    (by decide)
  exact ite (((hidle.setTiu _).ev (by decide)).ev (by decide)) ((hidle.setTiu _).ev (by decide))

theorem tiuAbort : SynKept s (tiuAbort t) := ite (((h.tiuVoid 2).ev (by decide)).tiuEnd 2) h

theorem tiuGated : SynKept s (tiuGated t) := ite h.tiuBaseBit.tiuAbort h.tiuBaseBit

/-! ### Passes given up (R519, R523, R527) -/

theorem setOut (n : Nat) (o : OutRec) : SynKept s (t.setOut n o) := h.of_eq rfl rfl
theorem setCal (r : CalRec) : SynKept s { t with cal := r } := h.of_eq rfl rfl

theorem outRelease (n : Nat) : SynKept s (outRelease n t) := by
  have hput := h.put (f := OUT_STATUS_STALE n) 0 (above_add (by decide))
  exact ite (hput.outsOnly (outStopped_only n _)) hput

theorem calApplied (k i : Nat) : SynKept s (calApplied k i t) :=
  (((h.count 1 (above_add (by decide))).putWide _ (above_add (by decide))).putB _ (above_add (by decide))).put _ (above_add (by decide))

theorem outExchange (n : Nat) : SynKept s (outExchange n t) := by
  unfold Machine.outExchange
  split
  · exact h
  · exact ite h (outsOnly (outRelease (calApplied (setOut (h.setCal _) n _) 3 n) n) (outSetCode_only n _))

theorem outIdle (n : Nat) : SynKept s (outIdle n t) := ite h (h.outExchange n)

theorem outUnstale (n : Nat) : SynKept s (outUnstale n t) := ite (h.outIdle n) (h.outRelease n)

theorem calDrop (k i : Nat) : SynKept s (calDrop k i t) := by
  unfold Machine.calDrop
  split
  · exact ite (h.setTiu _) (h.setTiu _)
  · exact h.setCal _
  · exact ite ((h.setOut i _).outRelease i) h
  · exact h

theorem calFrozen (k i : Nat) : SynKept s (calFrozen k i t) := ite (h.putB _ (above_add (by decide))) h

theorem ch78Follow : SynKept s (ch78Follow t) := by
  have hwas : ∀ (c : Prop) [Decidable c] (n : Nat), SynKept s (if c then Machine.outUnstale n t else t) := fun _ _ n =>
    ite (h.outUnstale n) h
  unfold Machine.ch78Follow
  dsimp only
  split
  · exact ite h (chanRestart ((((hwas _ _).put 0 (by decide)).put 0 (by decide)).put 0 (by decide)) 78)
  · exact ite h ((((ite ((hwas _ _).put 1 (above_add (by decide))) (hwas _ _)).put 1 (by decide)).put _ (by decide)).put _ (by decide))

theorem eyeRelease : SynKept s (eyeRelease t) :=
  h.forEach (fun n _ hu => ite ((hu.setLane n _).put 1 (above_add (by decide))) hu)

theorem calSettle (k : Nat) : SynKept s (calSettle k t) := by
  have hput : ∀ r, SynKept s (State.put { t with cal := r } (CAL_K_STATUS_STATE k) 0) := fun r =>
    (h.setCal r).put 0 (above_add (by decide))
  exact ite (ite (hput _).eyeRelease (hput _)) h

theorem calAbandon (k i : Nat) : SynKept s (calAbandon k i t) :=
  calSettle (ch78Follow (calFrozen (ev (put (setCal (h.calDrop k i) _) 4 (above_add (by decide))) (by decide)) k i)) _

theorem calAbandonAll (p : Nat → Bool) : SynKept s (calAbandonAll p t) := h.forEach (fun e _ hu => hu.calAbandon e.1 e.2)

end SynKept

end Sys2Proof.Machine
end

section
/-!
PROOFS. The lock of the Capstan and the release of the clocks (R35, R56 to R59, R69).
-/

namespace Sys2Proof.Machine

open Sys2Proof

theorem State.get_withSyn (s : State) (r : SynRec) (f : Fld) : State.get { s with syn := r } f = s.get f := rfl

theorem State.on_false {s : State} {f : Fld} : s.on f = false ↔ s.get f = 0 := by simp [State.on]

theorem State.on_true {s : State} {f : Fld} : s.on f = true ↔ s.get f ≠ 0 := by simp [State.on]

/-! ### Lock (R35, R56 to R59, R69) -/

/-- The registers' view of a release at half rate (R69). -/
def clocksReleased (s : State) : State := ((s.put SYN_STATUS_LOCKED 1).put SYN_STATUS_GATED 0).put SYN_STATUS_SAFE_RATIO 1

/-- What a release does beyond it touches neither the synthesis nor what waits. -/
theorem capstanRelease_kept (s : State) : SynKept (clocksReleased s) (capstanRelease s) := by
  have hlost := (SynKept.refl (clocksReleased s)).forEach
    (l := ((clocksReleased s).ports.filter (fun e => e.2.gateRx)).map (fun e => e.1))
    (g := fun p s => (s.setPort p { s.portRec p with gateRx := false }).count (MAC_CNT3_GATE_RX_LOST p))
    (fun p _ hu => (hu.setPort p _).count 1 (above_add (by decide)))
  exact (((hlost.forEach (fun p _ hu => hu.stompSend p)).phaRelease).outsOnly (outRestart_only 0 _)).tiuRelease

/-- Where no access waits, none is made at the release. -/
theorem waitServe_none {s : State} (h : s.mgt.waiting = []) : (waitServe s).regs = s.regs ∧ (waitServe s).syn = s.syn := by
  unfold waitServe
  rw [h]
  split <;> exact ⟨rfl, rfl⟩

/-- The band a lock is in: the stored one tried first, or, after a search, the one found (R58). -/
def lockBand (band : Nat) (s : State) : Nat := if s.on SYN_STATUS_SEARCHING then band else s.syn.tryBand

/-- What a lock in a band shows and stores (R58 to R60). -/
def lockShown (band : Nat) (s : State) : State :=
  let s := if s.on SYN_STATUS_SEARCHING then s.ev SYN_EVENT_SEARCH_USED else s
  let s := (s.put SYN_STATUS_SEARCHING 0).put SYN_STATUS_BAND_CUR band
  if s.on SYN_BAND_STORE_FREEZE then s else s.put SYN_BAND_STORE_BAND band

theorem capstanLock_mismatch {band : Nat} {ppm : Int} {s : State} (ha : s.syn.attempt = true) (hl : s.on SYN_STATUS_LOCKED = false)
    (hp : 5000 < ppm.natAbs) : capstanLock band ppm s =
      (State.put { s with syn := { s.syn with attempt := false } } SYN_STATUS_SEARCHING 0).ev SYN_EVENT_ROOT_MISMATCH := by
  unfold capstanLock
  rw [if_neg (by simp [ha, hl]), if_pos hp]

theorem capstanLock_within {band : Nat} {ppm : Int} {s : State} (ha : s.syn.attempt = true) (hl : s.on SYN_STATUS_LOCKED = false)
    (hp : ppm.natAbs ≤ 5000) : ∃ r, capstanLock band ppm s = capstanRelease { lockShown (lockBand band s) s with syn := r } := by
  unfold capstanLock
  rw [if_neg (by simp [ha, hl]), if_neg (by omega)]
  exact ⟨_, rfl⟩

theorem lockShown_waiting (band : Nat) (s : State) : (lockShown band s).mgt.waiting = s.mgt.waiting := by
  unfold lockShown
  dsimp only
  split_ifs <;> rfl

/-- The fields a lock is seen in, of SYN_STATUS and of the band's store. -/
theorem lockShown_shows (band : Nat) (s : State) :
    (lockShown band s).get SYN_STATUS_BAND_CUR = band % 512 ∧ (lockShown band s).get SYN_STATUS_SEARCHING = 0 ∧
      (s.on SYN_STATUS_SEARCHING = true → (lockShown band s).get SYN_EVENT_SEARCH_USED = 1) ∧
      (s.on SYN_BAND_STORE_FREEZE = false → (lockShown band s).get SYN_BAND_STORE_BAND = band % 512) := by
  have hfreeze : ∀ t : State, t = (if s.on SYN_STATUS_SEARCHING then s.ev SYN_EVENT_SEARCH_USED else s) →
      (((t.put SYN_STATUS_SEARCHING 0).put SYN_STATUS_BAND_CUR band).on SYN_BAND_STORE_FREEZE) = s.on SYN_BAND_STORE_FREEZE := by
    rintro t rfl
    unfold State.on
    rw [State.get_put_reg _ _ (by decide), State.get_put_reg _ _ (by decide)]
    split
    · rw [State.ev_eq, State.get_put_reg _ _ (by decide)]
    · rfl
  unfold lockShown
  dsimp only
  rw [hfreeze _ rfl]
  refine ⟨?_, ?_, fun hsearch => ?_, fun hf => ?_⟩
  · split_ifs <;> simp (disch := decide) only [State.get_put_reg, State.get_put_same] <;> rfl
  · split_ifs <;> simp (disch := decide) only [State.get_put_reg, State.get_put_bits, State.get_put_same] <;> rfl
  · rw [if_pos hsearch]
    split_ifs <;> simp (disch := decide) only [State.get_put_reg, State.get_ev_same]
  · rw [if_neg (by simp [hf]), State.get_put_same _ _ _ (by decide)]
    rfl

/-- A lock within the tolerance, no access waiting. -/
theorem capstanLock_shows {band : Nat} {ppm : Int} {s : State} (hw : s.mgt.waiting = []) (ha : s.syn.attempt = true)
    (hl : s.on SYN_STATUS_LOCKED = false) (hp : ppm.natAbs ≤ 5000) :
    let u := waitServe (capstanLock band ppm s)
    u.on SYN_STATUS_LOCKED = true ∧ u.on SYN_STATUS_GATED = false ∧ u.on SYN_STATUS_SAFE_RATIO = true ∧
      u.get SYN_STATUS_BAND_CUR = lockBand band s % 512 ∧ u.on SYN_STATUS_SEARCHING = false ∧
      (s.on SYN_STATUS_SEARCHING = true → u.on SYN_EVENT_SEARCH_USED = true) ∧
      (s.on SYN_BAND_STORE_FREEZE = false → u.get SYN_BAND_STORE_BAND = lockBand band s % 512) := by
  obtain ⟨r, hlock⟩ := capstanLock_within (band := band) ha hl hp
  obtain ⟨hband, hsearch, hused, hstore⟩ := lockShown_shows (lockBand band s) s
  have hkept := capstanRelease_kept { lockShown (lockBand band s) s with syn := r }
  have hnone : (capstanLock band ppm s).mgt.waiting = [] := by
    rw [hlock, hkept.waiting]
    exact (lockShown_waiting (lockBand band s) s).trans hw
  have hget : ∀ {f : Fld}, f.reg.addr < 0x00110000 → (waitServe (capstanLock band ppm s)).get f =
      (clocksReleased { lockShown (lockBand band s) s with syn := r }).get f := fun hf => by
    rw [State.get_of_regs (waitServe_none hnone).1, hlock, hkept.get hf]
  dsimp only
  simp (disch := decide) only [State.on_false, State.on_true, hget]
  unfold clocksReleased
  refine ⟨?_, ?_, ?_, ?_, ?_, fun h => ?_, fun h => ?_⟩
  · simp (disch := decide) only [State.get_put_bits, State.get_put_same]
    decide
  · simp (disch := decide) only [State.get_put_bits, State.get_put_same]
    decide
  · simp (disch := decide) only [State.get_put_same]
    decide
  · simp (disch := decide) only [State.get_put_bits, State.get_withSyn, hband]
  · simp (disch := decide) only [State.get_put_bits, State.get_withSyn, hsearch]
  · simp (disch := decide) only [State.get_put_reg, State.get_withSyn, hused (State.on_true.2 h)]
    decide
  · simp (disch := decide) only [State.get_put_reg, State.get_withSyn, hstore (State.on_false.2 h)]

theorem capstanLock_mismatch_shows {band : Nat} {ppm : Int} {s : State} (hw : s.mgt.waiting = []) (ha : s.syn.attempt = true)
    (hl : s.on SYN_STATUS_LOCKED = false) (hp : 5000 < ppm.natAbs) :
    let u := waitServe (capstanLock band ppm s)
    u.on SYN_EVENT_ROOT_MISMATCH = true ∧ u.syn.attempt = false ∧ u.on SYN_STATUS_LOCKED = false := by
  have heq := capstanLock_mismatch (band := band) ha hl hp
  have hnone : (capstanLock band ppm s).mgt.waiting = [] := by
    rw [heq]
    exact hw
  obtain ⟨hregs, hsyn⟩ := waitServe_none hnone
  dsimp only
  rw [hsyn]
  simp only [State.on_false, State.on_true, State.get_of_regs hregs] at hl ⊢
  rw [heq]
  refine ⟨?_, rfl, ?_⟩
  · simp (disch := decide) only [State.get_ev_same]
    decide
  · simp (disch := decide) only [State.ev_eq, State.get_put_reg, State.get_put_bits, State.get_withSyn, hl]

end Sys2Proof.Machine
end

section
/-!
PROOFS. The end of the half rate and the trip of the Capstan (R68, R69, R71).
-/

namespace Sys2Proof.Machine

open Sys2Proof

/-! ### The end of the half rate (R69) -/

/-- Where no PLL waits for the Capstan none relocks. -/
theorem quadsRelease_none {s : State} (h : s.plls.all (fun e => !e.2.planDue) = true) : quadsRelease s = s := by
  have hnone : s.plls.filter (fun e => e.2.planDue) = [] := by
    rw [List.filter_eq_nil_iff]
    intro e he
    have := List.all_eq_true.mp h e he
    simpa using this
  unfold quadsRelease
  rw [hnone]
  rfl

theorem windowsRestart_regs (s : State) : (windowsRestart s).regs = s.regs :=
  forEach_keeps (P := fun t => t.regs = s.regs) (h0 := rfl) (h := fun _ _ ht => ht)

/-- A hop of an aux shows in SYN_STATUS by its own lock bit alone. -/
theorem auxHop_get (n : Nat) (s : State) {f : Fld} (hf : f.reg = SYN_STATUS) (hd : f.lsb + f.width ≤ 5) :
    (auxHop n s).get f = s.get f := by
  have hlock : 5 ≤ (auxLockedFld n).lsb := by
    unfold auxLockedFld
    split <;> decide
  have hcfg : f.reg.addr ≠ (SYN_AUX_CFG_HOPPING n).reg.addr := by
    have := auxCfg_ne_locked n
    rw [auxLockedFld_reg] at this
    rw [hf]
    exact this.symm
  unfold auxHop
  rw [(outStatusAll_only _).get (.inl (by rw [hf]; decide)) (.inl (by rw [hf]; decide)),
    State.get_put_bits _ _ (hf.trans (auxLockedFld_reg n).symm) (by omega) (.inl (by omega)), State.get_put_reg _ _ hcfg]
  exact State.get_withSyn _ _ _

/-- The half rate ends, and lock stays as it was. -/
theorem safeRatioEnd_shows {s : State} (hs : s.on SYN_STATUS_SAFE_RATIO = true) (hp : s.plls.all (fun e => !e.2.planDue) = true) :
    (safeRatioEnd s).on SYN_STATUS_SAFE_RATIO = false ∧ (safeRatioEnd s).get SYN_STATUS_LOCKED = s.get SYN_STATUS_LOCKED := by
  have hout := outStatusAll_only (s.put SYN_STATUS_SAFE_RATIO 0)
  have hplls : (outStatusAll (s.put SYN_STATUS_SAFE_RATIO 0)).plls = s.plls := by
    rw [hout.rest]
    rfl
  have hstart : ∀ {f : Fld}, f.reg = SYN_STATUS → (windowsRestart (quadsRelease (outStatusAll (s.put SYN_STATUS_SAFE_RATIO 0)))).get f =
      (s.put SYN_STATUS_SAFE_RATIO 0).get f := fun hf => by
    rw [State.get_of_regs (windowsRestart_regs _), quadsRelease_none (by rw [hplls]; exact hp),
      hout.get (.inl (by rw [hf]; decide)) (.inl (by rw [hf]; decide))]
  rw [State.on_false]
  unfold safeRatioEnd
  rw [if_pos hs]
  refine forEach_keeps (P := fun t => t.get SYN_STATUS_SAFE_RATIO = 0 ∧ t.get SYN_STATUS_LOCKED = s.get SYN_STATUS_LOCKED)
    (h0 := ⟨?_, ?_⟩) (h := fun n t ht => ?_)
  · rw [hstart rfl, State.get_put_same _ _ _ (by decide)]
    rfl
  · rw [hstart rfl, State.get_put_bits _ _ (by decide) (by decide) (by decide)]
  · dsimp only
    split
    · split
      · simp (disch := decide) only [auxHop_get, State.get_withSyn, ht, and_self]
      · exact ht
    · exact ht

/-! ### A trip of the Capstan (R68, R69, R71) -/

/-- With no port nothing is under way. -/
theorem framesGated_idle {s : State} (h : s.ports = []) : framesGated s = s := by
  unfold framesGated
  rw [h]
  rfl

/-- INVALID is entered once. -/
theorem tbEnterInvalid_invalid {s : State} (h : s.tbState = 0) (cause : Nat) : tbEnterInvalid cause s = s := by
  unfold tbEnterInvalid
  exact if_pos h

/-- The registers' view of gating (R69). -/
def clocksGated (s : State) : State := ((s.put SYN_STATUS_LOCKED 0).put SYN_STATUS_GATED 1).put SYN_STATUS_SAFE_RATIO 0

theorem capstanTrip_locked {event : Fld} {s : State} (hl : s.on SYN_STATUS_LOCKED = true) :
    capstanTrip event s =
      let t := tiuGated (calAbandonAll (fun _ => true) (tbEnterInvalid 8 (clocksGated (framesGated (s.ev event)))))
      outStatusAll (lockStart { t with syn := { t.syn with late := false } }) := by
  unfold capstanTrip
  rw [if_neg (by simp [hl])]
  rfl

/-- The load of the dither generator keeps every field but SYN_EVENT.SEED_ZERO. -/
theorem ditherLoad_get {s : State} {f : Fld} (hw : f.lsb + f.width ≤ 32)
    (hd : f.reg.addr ≠ SYN_EVENT.addr ∨ f.reg = SYN_EVENT ∧ (f.lsb + f.width ≤ SYN_EVENT_SEED_ZERO.lsb ∨ SYN_EVENT_SEED_ZERO.lsb + 1 ≤ f.lsb)) :
    (ditherLoad s).get f = s.get f := by
  unfold ditherLoad
  dsimp only
  rw [State.get_withSyn]
  split
  · rw [State.ev_eq]
    rcases hd with hd | ⟨hr, hd⟩
    · exact State.get_put_reg _ _ hd
    · exact State.get_put_bits _ _ hr hw hd
  · rfl

/-- The fields a trip of its event shows, where no frame is under way and the time base is INVALID. -/
theorem capstanTrip_shows {event : Fld} (he : event.reg = SYN_EVENT) (hw : event.width = 1)
    (hd : SYN_EVENT_SEED_ZERO.lsb + 1 ≤ event.lsb ∧ event.lsb < 32 ∨ event.lsb + 1 ≤ SYN_EVENT_SEED_ZERO.lsb)
    {s : State} (hl : s.on SYN_STATUS_LOCKED = true) (hp : s.ports = []) (ht : s.tbState = 0) :
    let u := capstanTrip event s
    u.on SYN_STATUS_LOCKED = false ∧ u.on SYN_STATUS_GATED = true ∧ u.on event = true ∧ u.syn.attempt = true := by
  have hevent : event.lsb + event.width ≤ 32 := by
    have : SYN_EVENT_SEED_ZERO.lsb < 31 := by decide
    omega
  have hidle : framesGated (s.ev event) = s.ev event := framesGated_idle hp
  have hinvalid : (clocksGated (s.ev event)).tbState = 0 := by
    unfold State.tbState clocksGated
    rw [State.ev_eq, State.get_put_reg _ _ (by decide), State.get_put_reg _ _ (by decide), State.get_put_reg _ _ (by decide),
      State.get_put_reg _ _ (by rw [he]; decide)]
    exact ht
  dsimp only
  rw [capstanTrip_locked hl, hidle, tbEnterInvalid_invalid hinvalid]
  dsimp only
  have hkept := ((SynKept.refl (clocksGated (s.ev event))).calAbandonAll (fun _ => true)).tiuGated
  generalize tiuGated (calAbandonAll (fun _ => true) (clocksGated (s.ev event))) = t at hkept ⊢
  have hget : ∀ {f : Fld}, f.reg.addr < 0x00110000 → f.lsb + f.width ≤ 32 → (f.reg = SYN_STATUS ∧ (f.lsb + f.width ≤ 2 ∨ 3 ≤ f.lsb) ∨
      f.reg = SYN_EVENT ∧ (f.lsb + f.width ≤ SYN_EVENT_SEED_ZERO.lsb ∨ SYN_EVENT_SEED_ZERO.lsb + 1 ≤ f.lsb)) →
      (outStatusAll (lockStart { t with syn := { t.syn with late := false } })).get f = (clocksGated (s.ev event)).get f := fun hf hfits h => by
    rw [(outStatusAll_only _).get (.inl hf) (.inl (by omega))]
    unfold lockStart
    rcases h with ⟨hr, h⟩ | ⟨hr, h⟩
    · rw [ditherLoad_get hfits (.inl (by rw [hr]; decide)), State.get_put_bits _ _ hr hfits h, State.get_withSyn, State.get_withSyn, hkept.get hf]
    · rw [ditherLoad_get hfits (.inr ⟨hr, h⟩), State.get_put_reg _ _ (by rw [hr]; decide), State.get_withSyn, State.get_withSyn, hkept.get hf]
  refine ⟨?_, ?_, ?_, ?_⟩
  · rw [State.on_false, hget (by decide) (by decide) (.inl (by decide))]
    unfold clocksGated
    rw [State.get_put_bits _ _ (by decide) (by decide) (by decide), State.get_put_bits _ _ (by decide) (by decide) (by decide),
      State.get_put_same _ _ _ (by decide)]
    rfl
  · rw [State.on_true, hget (by decide) (by decide) (.inl (by decide))]
    unfold clocksGated
    rw [State.get_put_bits _ _ (by decide) (by decide) (by decide), State.get_put_same _ _ _ (by decide)]
    decide
  · rw [State.on_true, hget (by rw [he]; decide) hevent (.inr ⟨he, by omega⟩)]
    unfold clocksGated
    have hother : event.reg.addr ≠ SYN_STATUS.addr := by rw [he]; decide
    rw [State.get_put_reg _ _ hother, State.get_put_reg _ _ hother, State.get_put_reg _ _ hother, State.get_ev_same _ _ hevent (by omega)]
    decide
  · have hsyn : (outStatusAll (lockStart { t with syn := { t.syn with late := false } })).syn.attempt =
        (lockStart { t with syn := { t.syn with late := false } }).syn.attempt := by rw [(outStatusAll_only _).rest]
    rw [hsyn]
    exact (lockStart_shows _).1

end Sys2Proof.Machine
end

section
/-!
PROOFS. The relock that is overdue, the retry and the oven's fall (R55, R72, R576, R602).
-/

namespace Sys2Proof.Machine

open Sys2Proof

/-! ### A relock that is overdue (R72, R576, R602) -/

/-- A unit that demotes itself sends on the towline and changes registers of the time base and the pair alone. -/
structure PairOnly (s t : State) : Prop where
  syn : t.syn = s.syn
  words : ∀ x : Reg, x.addr < 0x00300000 ∨ 0x02400000 ≤ x.addr → t.word x = s.word x

namespace PairOnly

variable {s t : State}

theorem get (h : PairOnly s t) {f : Fld} (hf : f.reg.addr < 0x00300000 ∨ 0x02400000 ≤ f.reg.addr) : t.get f = s.get f := by
  unfold State.get
  rw [h.words f.reg hf]

theorem put (h : PairOnly s t) {f : Fld} (v : Nat) (hf : 0x00300000 ≤ f.reg.addr ∧ f.reg.addr < 0x02400000) : PairOnly s (t.put f v) where
  syn := h.syn
  words x hx := (State.word_put_other t v (by omega)).trans (h.words x hx)

theorem of_eq (h : PairOnly s t) {u : State} (hr : u.regs = t.regs) (hs : u.syn = t.syn) : PairOnly s u where
  syn := hs.trans h.syn
  words x hx := (State.word_congr hr x).trans (h.words x hx)

theorem towlineSend (h : PairOnly s t) (ty : Nat) (b : List Byte) : PairOnly s (towlineSend ty b t) := by
  refine h.of_eq ?_ ?_ <;>
  · unfold Machine.towlineSend
    dsimp only
    split_ifs <;> rfl

theorem ownerChanged (h : PairOnly s t) (was : Bool) : PairOnly s (ownerChanged was t) := by
  unfold Machine.ownerChanged
  split
  · exact h
  · exact (((show PairOnly s (if was then { t with tb := { t.tb with hostStep := none } } else { t with tb := { t.tb with ferryStep := none } }) by
      split <;> exact h.of_eq rfl rfl).put _ (by decide)).put _ (by decide))

theorem selfDemote (h : PairOnly s t) (cause : Nat) : PairOnly s (selfDemote cause t) := by
  unfold Machine.selfDemote
  split
  · exact (((h.towlineSend 6 _).put _ (by decide)).ownerChanged _).put 1 (by decide)
  · exact h

end PairOnly

/-- A major alarm stands from the cycle it is raised in, whatever the pair does. -/
theorem raiseMajor_active {b : Nat} (hb : b < FLT_MAJOR_B.width) (s : State) : (raiseMajor b s).majorActive = true := by
  have hbit : (s.putBit FLT_MAJOR_B b true).get FLT_MAJOR_B ≠ 0 := fun h0 => by
    have hset := bit_putBit (s := s) (b := true) (f := FLT_MAJOR_B) (by decide) hb hb
    rw [State.bit, h0] at hset
    simp at hset
  unfold raiseMajor State.majorActive
  dsimp only
  rw [State.on_true]
  split
  · rw [((PairOnly.mk rfl fun _ _ => rfl).selfDemote 1).get (by decide)]
    exact hbit
  · exact hbit

/-- It keeps the record of the synthesis and its registers. -/
theorem raiseMajor_syn (b : Nat) (s : State) : (raiseMajor b s).syn = s.syn ∧
    ∀ {f : Fld}, f.reg.addr < 0x00300000 → (raiseMajor b s).get f = s.get f := by
  have hput : ∀ {f : Fld}, f.reg.addr < 0x00300000 → (s.putBit FLT_MAJOR_B b true).get f = s.get f := fun hf => by
    refine State.get_putBit_reg s true (fun h => ?_)
    rw [h] at hf
    exact absurd hf (by decide)
  unfold raiseMajor
  dsimp only
  split
  · have h := (PairOnly.mk (s := s.putBit FLT_MAJOR_B b true) rfl fun _ _ => rfl).selfDemote 1
    exact ⟨h.syn, fun hf => (h.get (.inl hf)).trans (hput hf)⟩
  · exact ⟨rfl, hput⟩

theorem relockTimeout_shows {s : State} (hg : s.gated = true) :
    let u := relockTimeout s
    u.syn.late = true ∧ u.syn.attempt = false ∧ u.on SYN_STATUS_SEARCHING = false ∧ u.majorActive = true := by
  unfold relockTimeout
  dsimp only
  rw [if_pos hg]
  obtain ⟨hsyn, hget⟩ := raiseMajor_syn 0 (State.put { s with syn := { s.syn with late := true, attempt := false } } SYN_STATUS_SEARCHING 0)
  rw [hsyn, State.on_false, hget (by decide), State.get_put_same _ _ _ (by decide)]
  exact ⟨rfl, rfl, rfl, raiseMajor_active (by decide) _⟩

theorem capstanRetry_gated {s : State} (hg : s.gated = true) : capstanRetry s = lockStart s := by
  unfold capstanRetry
  rw [if_pos hg]

theorem bandSearch_shows {s : State} (ha : s.syn.attempt = true) (hl : s.on SYN_STATUS_LOCKED = false) :
    (bandSearch s).on SYN_STATUS_SEARCHING = true := by
  unfold bandSearch
  rw [if_pos ⟨ha, by simp [hl]⟩, State.on_true, State.get_put_same _ _ _ (by decide)]
  decide

/-- The oven's fall (R55). -/
theorem ocxoCool_shows (s : State) : (ocxoCool s).on SYN_STATUS_OCXO_WARM = false ∧ (ocxoCool s).on SYN_EVENT_OCXO_COOL = true := by
  have hregs : (ocxoCool s).regs = (((s.put SYN_STATUS_OCXO_WARM 0).ev SYN_EVENT_OCXO_COOL).put TIU_STATUS_OCXO_WARM 0).regs := rfl
  rw [State.on_false, State.on_true, State.get_of_regs hregs, State.get_of_regs hregs, State.get_put_reg _ _ (by decide),
    State.get_put_reg _ _ (by decide), State.get_ev_same _ _ (by decide) (by decide), State.ev_eq, State.get_put_reg _ _ (by decide),
    State.get_put_same _ _ _ (by decide)]
  decide

/-- Settles O22: lock and loss by what the release and the trip keep of the synthesis, the other events by their own writes. -/
theorem capstanLockAndLoss : Obligations.CapstanLockAndLoss := by
  unfold Obligations.CapstanLockAndLoss
  refine ⟨fun band ppm s hr hw ha hl => ⟨waitServe (capstanLock band ppm s), run_eq (f := fun s => waitServe (capstanLock band ppm s)) hr rfl, ?_, ?_⟩,
    fun s hr ha hl => ⟨bandSearch s, run_eq hr rfl, bandSearch_shows ha hl⟩, fun s hr => run_eq hr rfl,
    fun s hr hs hp => ⟨safeRatioEnd s, run_eq hr rfl, safeRatioEnd_shows hs hp⟩,
    fun s hr hl => run_eq hr (capstanTrip_locked hl),
    fun s hr hl hp _ ht _ => ⟨capstanTrip SYN_EVENT_LOL s, run_eq hr rfl, ?_⟩,
    fun s hr hl => run_eq hr (capstanTrip_locked hl),
    fun s hr hl hp _ ht _ => ⟨capstanTrip SYN_EVENT_EXCURSION s, run_eq hr rfl, ?_⟩,
    fun s hr hg => ⟨relockTimeout s, run_eq hr rfl, relockTimeout_shows hg⟩,
    fun s hr hg => ⟨lockStart s, run_eq hr (capstanRetry_gated hg), (lockStart_shows s).1, (lockStart_shows s).2.2⟩,
    fun s hr => ⟨ocxoCool s, run_eq hr rfl, ocxoCool_shows s⟩⟩
  · exact capstanLock_mismatch_shows hw ha hl
  · exact capstanLock_shows hw ha hl
  · exact capstanTrip_shows rfl rfl (by decide) hl hp ht
  · exact capstanTrip_shows rfl rfl (by decide) hl hp ht

end Sys2Proof.Machine
end

section
/-!
PROOFS. The decision on a port that is not UP, whose lanes' elastic buffers still take their steps (R235, R370).
-/

namespace Sys2Proof.Machine

open Sys2Proof

/-- A decision acts on a port of the MAC. -/
theorem exec_frameDecision {p : Fin 66} {s : State} (hr : s.inReset = false) (hp : p.val ≠ 64) (rx : RxWindow) :
    exec (.frameDecision p rx) s = .next (settle s (frameDecision p rx s)) :=
  run_eq (f := onMac p (frameDecision p rx)) hr (if_neg hp)

/-- RUNNING, the Capstan locked, lane 0 LINKED and PLESIOCHRONOUS with its buffer at the fill of 16 it starts from; port 0 is not UP. -/
def linkedPortDown : State :=
  (((State.reset.put GLB_STATE_STATE 3).put SYN_STATUS_LOCKED 1).put (LN_STATUS_STATE 0) 5).put (LN_EB_FILL 0) 16

/-- The first 128 bytes of a frame, before which the partner's clock brings the fill of the port's first lane one block up. -/
def windowBlockUp : RxWindow := ⟨List.replicate 128 0, false, false, ⟨0, 0, 0, 0⟩, [(0, .up)]⟩

/-- The decision of that frame is none, and still the buffer takes its step (R235). -/
theorem frameDecision_notUp_steps : (settle linkedPortDown (frameDecision 0 windowBlockUp linkedPortDown)).get (LN_EB_FILL 0) = 17 := by
  decide +kernel

/-- Left alone, the fill stays. -/
theorem linkedPortDown_settled : (settle linkedPortDown linkedPortDown).get (LN_EB_FILL 0) = 16 := by decide +kernel

/-- Refutes O39: the clause of a port that is not UP says nothing happens whatever its lanes' elastic buffers meet, but a LINKED lane of
such a port takes their steps (R235): LN_EB.FILL goes from 16 to 17. -/
theorem not_frameCommands : ¬ Obligations.FrameCommands := by
  unfold Obligations.FrameCommands
  rintro ⟨-, -, hnotUp, -⟩
  have hlooped : portLooped linkedPortDown 0 = false := by decide +kernel
  have hgated : linkedPortDown.gated = false := by decide +kernel
  have hup : linkedPortDown.portUp 0 = false := by decide +kernel
  have hrun := exec_frameDecision (p := 0) (s := linkedPortDown) rfl (by decide) windowBlockUp
  rw [hnotUp 0 windowBlockUp linkedPortDown rfl hlooped hgated hup] at hrun
  have hfill := congrArg (fun t : State => t.get (LN_EB_FILL 0)) (Host.Outcome.next.inj hrun)
  rw [linkedPortDown_settled] at hfill
  exact absurd (hfill.trans frameDecision_notUp_steps) (by decide)

end Sys2Proof.Machine
end

section
/-!
PROOFS. The state of a candidate slot, and what its checks and its soak make of it (R118, R119, R160).
-/

namespace Sys2Proof.Machine

open Sys2Proof

/-! ### A major alarm and the candidates' records -/

theorem towlineSend_refs (ty : Nat) (body : List Byte) (s : State) : (towlineSend ty body s).refs = s.refs := by
  unfold towlineSend
  dsimp only
  split_ifs <;> rfl

theorem ownerChanged_refs (was : Bool) (s : State) : (ownerChanged was s).refs = s.refs := by
  unfold ownerChanged
  cases was <;> split_ifs <;> rfl

theorem selfDemote_refs (cause : Nat) (s : State) : (selfDemote cause s).refs = s.refs := by
  unfold selfDemote
  split
  · exact (ownerChanged_refs _ _).trans (towlineSend_refs 6 _ s)
  · rfl

theorem raiseMajor_refs (b : Nat) (s : State) : (raiseMajor b s).refs = s.refs := by
  unfold raiseMajor
  dsimp only
  split
  · exact selfDemote_refs 1 _
  · rfl

/-! ### The dispute alarm (R131) -/

theorem disputeAlarm_refs (s : State) : (disputeAlarm s).refs = s.refs := by
  unfold disputeAlarm
  dsimp only
  split
  · exact raiseMajor_refs 2 _
  · rfl

theorem disputeAlarm_get {f : Fld} (hlow : f.reg.addr < 0x00300000) (hf : f.reg.addr ≠ REF_STATUS.addr) (s : State) :
    (disputeAlarm s).get f = s.get f := by
  unfold disputeAlarm
  dsimp only
  split
  · exact ((raiseMajor_syn 2 _).2 hlow).trans (State.get_put_reg s _ hf)
  · exact State.get_put_reg s _ hf

/-! ### A slot takes a state (R118) -/

/-- What is forgotten of a slot that leaves DISPUTED: its pair. -/
def unpaired (n : Nat) (s : State) : State := s.setRef n { s.refRec n with rival := none, against := false, nearSince := none }

theorem slotSet_stays {n st : Nat} {s : State} (h : slotState s n ≠ 3 ∨ st = 3) : slotSet n st s = s.put (REF_SLOT_STATE_STATE n) st :=
  if_neg (fun ⟨h3, hst⟩ => h.elim (fun hs => hs h3) hst)

theorem slotSet_leaves {n st : Nat} {s : State} (h3 : slotState s n = 3) (hst : st ≠ 3) :
    slotSet n st s = disputeAlarm (unpaired n (s.put (REF_SLOT_STATE_STATE n) st)) := if_pos ⟨h3, hst⟩

theorem slotState_put (s : State) (n : Nat) {st : Nat} (hst : st < 8) : slotState (s.put (REF_SLOT_STATE_STATE n) st) n = st :=
  (State.get_put_same s _ st (by simp [REF_SLOT_STATE_STATE])).trans (Nat.mod_eq_of_lt hst)

/-- A slot that takes a state reads it, whether or not it leaves a dispute. -/
theorem slotState_slotSet {n st : Nat} (hn : n < 16) (hst : st < 8) (s : State) : slotState (slotSet n st s) n = st := by
  by_cases h : slotState s n = 3 ∧ st ≠ 3
  · have hkept : slotState (slotSet n st s) n = slotState (unpaired n (s.put (REF_SLOT_STATE_STATE n) st)) n := by
      rw [slotSet_leaves h.1 h.2]
      exact disputeAlarm_get (by simp only [REF_SLOT_STATE_STATE, REF_SLOT_STATE]; omega)
        (by simp only [REF_SLOT_STATE_STATE, REF_SLOT_STATE, REF_STATUS]; omega) _
    exact hkept.trans (slotState_put s n hst)
  · rw [slotSet_stays (by omega)]
    exact slotState_put s n hst

theorem slotSet_rival {n st : Nat} {s : State} (h3 : slotState s n = 3) (hst : st ≠ 3) : ((slotSet n st s).refRec n).rival = none := by
  rw [slotSet_leaves h3 hst]
  unfold State.refRec
  rw [disputeAlarm_refs]
  exact congrArg RefRec.rival (State.setRef_refRec _ n _)

/-! ### The soak, and a check that fails -/

/-- The record of a slot whose soak begins: where it comes from, and the soak's end. -/
def soaking (n : Nat) (s : State) : State :=
  s.setRef n { s.refRec n with fromFailed := slotState s n == 4, timerEnd := s.clk + 250000000 * s.get (REF_SLOT_SOAK_V n) }

theorem soakStart_starts {n : Nat} {s : State} (hon : slotOn s n = true) (hp : checksPass s n = true)
    (h : slotState s n = 0 ∨ slotState s n = 4) : soakStart n s = (soaking n s).put (REF_SLOT_STATE_STATE n) 1 := by
  have hfrom : slotState (soaking n s) n ≠ 3 := fun h3 => by
    have hs : slotState s n = 3 := h3
    omega
  have hstart : soakStart n s = slotSet n 1 (soaking n s) := if_pos (by simpa [hon, hp] using h)
  rw [hstart, slotSet_stays (.inl hfrom)]

theorem checkFail_qualified {n : Nat} {s : State} (h : slotState s n = 2) : checkFail n s = (slotSet n 4 s).ev REF_EVENT_LOSS := by
  simp only [checkFail, h]

/-- Settles O27: `slotSet` writes the state, and only the dispute alarm comes after it. -/
theorem slotStatesAfterTheTimers : Obligations.SlotStatesAfterTheTimers := by
  refine ⟨fun n st s hst => slotState_slotSet n.isLt hst s, fun n s h3 => slotSet_rival h3 (by decide), fun n s hon hp h => ?_,
    fun n s h => ?_⟩
  · rw [soakStart_starts hon hp h]
    exact ⟨slotState_put _ n (by decide), congrArg RefRec.timerEnd (State.setRef_refRec s n _)⟩
  · rw [checkFail_qualified h, State.on_true, State.get_ev_same _ _ (by decide) (by decide)]
    refine ⟨?_, by decide⟩
    have hother : (REF_SLOT_STATE_STATE n).reg.addr ≠ REF_EVENT_LOSS.reg.addr := by
      simp only [REF_SLOT_STATE_STATE, REF_SLOT_STATE, REF_EVENT_LOSS, REF_EVENT]
      omega
    exact (State.get_put_reg _ 1 hother).trans (slotState_slotSet n.isLt (by decide) s)

end Sys2Proof.Machine
end

section
/-!
PROOFS. What the monitor's results make of a candidate: its loss, its gates and samples, and the ends of its timers (R115, R117 to R119,
R129, R130, R150).
-/

namespace Sys2Proof.Machine

open Sys2Proof

section
variable {n : Nat} {s : State}

/-! ### A slot that does not act as enabled -/

theorem refLost_off (h : slotOn s n = false) : refLost n s = s := if_neg (by simp [h])

theorem freqGate_off (h : slotOn s n = false) (f : Int) : freqGate n f s = s := if_pos (by simp [h])

theorem instabUpdate_off (h : slotOn s n = false) (x : Int) : instabUpdate n x s = s := if_pos (by simp [h])

theorem phaseSample_off (h : slotOn s n = false) (p : Int) : phaseSample n p s = s := if_pos (by simp [h])

/-! ### Loss and frequency (R115, R117, R129) -/

/-- The slot with its loss declared, its instability unknown. -/
def lossDeclared (n : Nat) (s : State) : State :=
  (s.setRef n { s.refRec n with lost := true, freqSeen := false, p1 := none, p2 := none, allan := {} }).put (REF_SLOT_INSTAB_V n)
    (2 ^ 32 - 1)

theorem refGone_on (hon : slotOn s n = true) : refGone n s = checkFail n (lossDeclared n s) := if_pos hon

theorem refLost_on (hon : slotOn s n = true) : refLost n s = bwRefresh (refDecide (checkFail n (lossDeclared n s))) := by
  rw [← refGone_on hon]
  exact if_pos hon

theorem freqGate_unfed (hon : slotOn s n = true) (hf : slotFed s n = false) (f : Int) : freqGate n f s = refLost n s := by
  simp [freqGate, hon, hf]

/-- The slot with the frequency a gate measured. -/
def gateMeasured (n : Nat) (f : Int) (s : State) : State :=
  (s.setRef n { s.refRec n with lost := false, freqSeen := true }).puti (REF_SLOT_FREQ_V n) (clampI (-(2 ^ 31)) (2 ^ 31 - 1) f)

theorem freqGate_fed (hon : slotOn s n = true) (hf : slotFed s n = true) (f : Int) :
    freqGate n f s = bwRefresh (refDecide (disputeAlarm (disputeFollow n (disputeTest n
      (if checksPass (gateMeasured n f s) n then soakStart n (gateMeasured n f s) else checkFail n (gateMeasured n f s)))))) := by
  unfold freqGate
  rw [if_neg (by simp [hon]), if_neg (by simp [hf])]
  rfl

/-! ### Instability (R117, R150) -/

/-- The slot with a 16 s mean in its estimator. -/
def meanTaken (n : Nat) (x : Int) (s : State) : State := s.setRef n { s.refRec n with allan := (s.refRec n).allan.add x }

theorem meanTaken_allan (x : Int) : ((meanTaken n x s).refRec n).allan = (s.refRec n).allan.add x :=
  congrArg RefRec.allan (State.setRef_refRec s n _)

theorem instabUpdate_noTerm (hon : slotOn s n = true) {x : Int} (h0 : ((s.refRec n).allan.add x).terms = 0) :
    instabUpdate n x s = meanTaken n x s := by
  unfold instabUpdate
  rw [if_neg (by simp [hon])]
  exact if_pos h0

theorem instabUpdate_term (hon : slotOn s n = true) {x : Int} (h0 : ((s.refRec n).allan.add x).terms ≠ 0) :
    instabUpdate n x s = bwRefresh (refDecide ((meanTaken n x s).put (REF_SLOT_INSTAB_V n) ((s.refRec n).allan.add x).sigma)) := by
  unfold instabUpdate
  rw [if_neg (by simp [hon])]
  exact if_neg h0

/-! ### Phase samples (R117, R118) -/

/-- The slot with an edge seen. -/
def edgeSeen (n : Nat) (s : State) : State := s.setRef n { s.refRec n with lost := false }

theorem slotPhase_channel (h8 : 8 ≤ n) (h12 : n < 12) (hv : s.on (PHA_CH_SAMPLE_VALID (slotChannel s n)) = true) (p : Int) :
    slotPhase n p s = phaseSample n (s.geti (PHA_CH_UNWRAP_V (slotChannel s n))) s :=
  (if_pos ⟨h8, h12⟩).trans (if_pos hv)

theorem slotPhase_own (h : n < 8 ∨ 12 ≤ n) (p : Int) : slotPhase n p s = phaseSample n p s := if_neg (by omega)

theorem slotPhase_off (h : slotOn s n = false) (p : Int) : slotPhase n p s = s := by
  unfold slotPhase
  dsimp only
  split
  · split
    · exact phaseSample_off h _
    · rfl
  · exact phaseSample_off h p

theorem slotFed_refin (h : n < 8) : slotFed s n = true := if_pos h

/-- The phase at a tick on the line through two samples, the newer one `a`. -/
theorem phaseAt_line {r : RefRec} {a b : RefPoint} (h1 : r.p1 = some a) (h2 : r.p2 = some b) (hab : b.at_ < a.at_) (t : Nat) :
    r.phaseAt t = some (a.phase + roundDiv ((a.phase - b.phase) * ((t : Int) - a.at_)) (a.at_ - b.at_)) := by
  unfold RefRec.phaseAt
  rw [h1, h2]
  exact if_neg (Nat.not_le.2 hab)

/-- A sample farther than HIT from the value extrapolated is a hit. -/
theorem phaseSample_hit (hon : slotOn s n = true) (hf : slotFed s n = true) (h12 : n < 12) {b : RefPoint}
    (h2 : (s.refRec n).p2 = some b) {x p : Int} (hx : (s.refRec n).phaseAt s.clk = some x)
    (hhit : s.get (REF_SLOT_HIT_V n) < (p - x).natAbs) : phaseSample n p s = phaseHit n (edgeSeen n s) := by
  unfold phaseSample
  rw [if_neg (by simp [hon]), if_neg (by simp [hf])]
  exact if_pos (by simp [h2, hx, h12, hhit])

/-- Without two samples before it a sample is kept, and the checks and the selector follow. -/
theorem phaseSample_kept (hon : slotOn s n = true) (hf : slotFed s n = true) (h2 : (s.refRec n).p2 = none) (p : Int) :
    phaseSample n p s = bwRefresh (refDecide (soakStart n ((edgeSeen n s).setRef n
      { s.refRec n with lost := false, p1 := some ⟨p, s.clk⟩, p2 := (s.refRec n).p1 }))) := by
  have hseen : (edgeSeen n s).refRec n = { s.refRec n with lost := false } := State.setRef_refRec s n _
  unfold phaseSample
  rw [if_neg (by simp [hon]), if_neg (by simp [hf])]
  refine (if_neg (by simp [h2])).trans ?_
  change bwRefresh (refDecide (soakStart n ((edgeSeen n s).setRef n { (edgeSeen n s).refRec n with p1 := _, p2 := _ }))) = _
  rw [hseen]
  rfl

/-! ### The timers' ends (R118, R119, R130) -/

theorem soakExpire_qualifies (h1 : slotState s n = 1) (h0 : s.get REF_WTR_WTR = 0) :
    soakExpire n s = bwRefresh (refDecide (slotSet n 2 (s.setRef n { s.refRec n with wasQual := true }))) := by
  simp [soakExpire, h1, h0]

theorem soakExpire_waits (h1 : slotState s n = 1) (hw : (s.refRec n).wasQual = true) (h0 : s.get REF_WTR_WTR ≠ 0) :
    soakExpire n s = bwRefresh (refDecide (slotSet n 5
      (s.setRef n { s.refRec n with timerEnd := s.clk + 250000000 * s.get REF_WTR_WTR }))) := by
  simp [soakExpire, h1, hw, h0]

theorem soakExpire_leavesDispute (h3 : slotState s n = 3) (hnear : (s.refRec n).nearSince.isSome = true) :
    soakExpire n s = bwRefresh (refDecide (slotSet n 2 s)) := by
  simp [soakExpire, h3, hnear]

theorem wtrExpire_qualifies (h5 : slotState s n = 5) :
    wtrExpire n s = bwRefresh (refDecide (slotSet n 2 (s.setRef n { s.refRec n with wasQual := true }))) := if_pos h5

theorem wtrExpire_unchanged (h5 : slotState s n ≠ 5) : wtrExpire n s = s := if_neg h5

end

/-- Settles O26: each row is the meaning above on the slot it names, in the case its condition picks. -/
theorem referenceCandidateEvents : Obligations.ReferenceCandidateEvents := by
  refine ⟨fun n s hs hon => timed_eq hs (refLost_on hon), fun n s hs hoff => ?_,
    fun n f s hs hon hf => timed_eq hs (freqGate_fed hon hf f),
    fun n f s hs hon hf => timed_eq hs (freqGate_unfed hon hf f), fun n x s hs hon h0 => ?_,
    fun n x s hs hon h0 => timed_eq hs (instabUpdate_term hon h0), fun n p a b s hs hon h8 h1 h2 hab hhit => ?_,
    fun n p s hs hon hf hn h1 h2 => ?_, fun n p s hs h8 h12 hv => timed_eq hs (slotPhase_channel h8 h12 hv p),
    fun n s hs h1 h0 => timed_eq hs (soakExpire_qualifies h1 h0), fun n s hs h1 hw h0 => timed_eq hs (soakExpire_waits h1 hw h0),
    fun n s hs h3 hnear => timed_eq hs (soakExpire_leavesDispute h3 hnear), fun n s hs h5 => timed_eq hs (wtrExpire_qualifies h5),
    fun n s hs h5 => timed_eq hs (wtrExpire_unchanged h5)⟩
  · exact ⟨timed_eq hs (refLost_off hoff), fun f => timed_eq hs (freqGate_off hoff f), fun x => timed_eq hs (instabUpdate_off hoff x),
      fun p => timed_eq hs (slotPhase_off hoff p)⟩
  · exact ⟨meanTaken n x s, timed_eq hs (instabUpdate_noTerm hon h0), meanTaken_allan x, rfl⟩
  · have hlt : n.val < 8 := h8
    have hline := phaseAt_line h1 h2 hab s.clk
    exact timed_eq hs ((slotPhase_own (.inl hlt) p).trans
      (phaseSample_hit hon (slotFed_refin hlt) (by omega) h2 hline hhit))
  · have hkept := phaseSample_kept hon hf h2 p
    rw [h1] at hkept
    exact timed_eq hs ((slotPhase_own hn p).trans hkept)

end Sys2Proof.Machine
end

section
/-!
PROOFS. Signed values in fields and wide values, and the commit of a value of two words named by its register (R10, R12).
-/

namespace Sys2Proof.Machine

open Sys2Proof

/-! ### Two's complement -/

theorem signed_unsigned {n : Nat} {v : Int} (hlow : -(2 ^ n : Int) ≤ 2 * v) (hhigh : 2 * v < 2 ^ n) : signed n (unsigned n v) = v := by
  have hpow : ((2 ^ n : Nat) : Int) = 2 ^ n := Nat.cast_pow 2 n
  have hpos : 0 < 2 ^ n := Nat.two_pow_pos n
  unfold signed unsigned
  dsimp only
  rw [← hpow] at hlow hhigh ⊢
  generalize 2 ^ n = N at *
  have hval : (((v % (N : Int)).toNat % N : Nat) : Int) = v % N := by
    rw [Int.natCast_mod, Int.toNat_of_nonneg (Int.emod_nonneg v (by omega)), Int.emod_emod]
  by_cases hv : 0 ≤ v
  · rw [Int.emod_eq_of_lt hv (by omega)] at hval
    rw [Int.emod_eq_of_lt hv (by omega), if_pos (by omega), hval]
  · rw [← Int.add_emod_right, Int.emod_eq_of_lt (by omega) (by omega)] at hval ⊢
    rw [if_neg (by omega), hval]
    omega

theorem State.geti_eq_signed (s : State) (f : Fld) : s.geti f = signed f.width (s.get f) := by
  unfold signed
  rw [Nat.mod_eq_of_lt (State.get_lt s f)]
  rfl

/-- A field reads the signed number put into it, where that fits. -/
theorem State.geti_puti_same (s : State) {f : Fld} {v : Int} (hf : f.lsb + f.width ≤ 32) (hlow : -(2 ^ f.width : Int) ≤ 2 * v)
    (hhigh : 2 * v < 2 ^ f.width) : (s.puti f v).geti f = v := by
  have hmod : ∀ k, signed f.width (k % 2 ^ f.width) = signed f.width k := fun k => by
    unfold signed
    rw [Nat.mod_mod]
  rw [State.geti_eq_signed, State.puti_eq, State.get_put_same _ _ _ hf, hmod]
  exact signed_unsigned hlow hhigh

/-- So does a wide value of two words. -/
theorem State.widei_putWidei_same (s : State) {w : Wide} {v : Int} (h2 : w.words = 2) (hlow : -(2 ^ 63 : Int) ≤ v) (hhigh : v < 2 ^ 63) :
    (s.putWidei w v).widei w = v := by
  have hfits : unsigned 64 v < 2 ^ 64 := by
    unfold unsigned
    omega
  unfold State.widei State.putWidei
  rw [State.wide_putWide, h2, Nat.mod_eq_of_lt hfits]
  exact signed_unsigned (by omega) (by omega)

theorem le_clampI {lo hi v : Int} (h : lo ≤ hi) : lo ≤ clampI lo hi v ∧ clampI lo hi v ≤ hi := by
  unfold clampI
  split_ifs <;> omega

/-! ### Wide values outside what changes -/

theorem WordsKept.wide {lo hi : Nat} {s t : State} (h : WordsKept lo hi s t) {w : Wide}
    (hw : w.addr + 4 * w.words ≤ lo ∨ hi ≤ w.addr) : t.wide w = s.wide w :=
  State.wideFrom_congr w _ _ fun j _ hj => h _ (by simp only [Wide.word]; omega)

theorem State.wide_put_other (s : State) {f : Fld} {w : Wide} (v : Nat) (h : w.addr + 4 * w.words ≤ f.reg.addr ∨ f.reg.addr < w.addr) :
    (s.put f v).wide w = s.wide w :=
  ((WordsKept.refl f.reg.addr (f.reg.addr + 1) s).put (Nat.le_refl _) (Nat.lt_succ_self _)).wide h

/-! ### A row that commits a value of two words -/

/-- At the address of `w` the map has this value under this name and indices. -/
def namesWide (w : Wide) (id : RegId) (i j : Nat) : Bool :=
  (regAt w.addr).any (fun h => h.spec.id == id && h.i == i && h.j == j && h.wide == w)

theorem regAt_of_namesWide {w : Wide} {id : RegId} {i j : Nat} (hn : namesWide w id i j = true) :
    ∃ h, regAt w.addr = some h ∧ h.spec.id = id ∧ h.i = i ∧ h.j = j ∧ h.wide = w := by
  simp only [namesWide, Option.any_eq_true, Bool.and_eq_true, beq_iff_eq] at hn
  obtain ⟨h, hf, ⟨⟨hid, hi⟩, hj⟩, hwide⟩ := hn
  exact ⟨h, hf, hid, hi, hj, hwide⟩

/-- The write of its lowest word stands with the value committed, of which the word is the low half, and the register acts. -/
theorem Writable.commit_stands {m : BusMaster} {w : Wide} {v : Word} {s : State} {id : RegId} {i j : Nat}
    (hw : Writable m (w.word 0) v s) (hn : namesWide w id i j = true) (h2 : w.words = 2) (ha : w.addr + 8 ≤ 0x02700000)
    (hid : id ≠ .LDR_HOST_CTRL) : ∃ R c x, Stands m id i j w x s R c ∧ x % 2 ^ 32 = v.toNat ∧
      (id = .DCO_OFFSET → s.on DCO_CTRL_OWNER = true) ∧ run (busPut m w.addr v) s = .next (settle s (regEffect R c)) := by
  obtain ⟨h, hf, rfl, rfl, rfl, hwide⟩ := regAt_of_namesWide hn
  obtain ⟨k, hk⟩ := mayWrite_meets (a := w.addr) hw
  obtain rfl : h = k := Option.some.inj (hf.symm.trans (regAt_of_placeOf hk.place.1))
  have hwords : h.spec.words = 2 := (congrArg Wide.words hwide).trans h2
  obtain ⟨c, hst, -, hput⟩ := write_stands hk (by omega) (by rw [hwide]; omega) (fun he => absurd he hid)
  rw [(takeStaged_two hwords).1, hwide] at hst
  have hlow := v.isLt
  exact ⟨_, c, _, hst, by omega, hk.owner.1, run_eq hk.out hput⟩

end Sys2Proof.Machine
end

section
/-!
PROOFS. The selector's and the DPLL's commands: the writes of slots, mode and owner, the commit of a switch, the update and the lock (R122,
R125 to R128, R132 to R134, R137, R139).
-/

namespace Sys2Proof.Machine

open Sys2Proof

/-! ### Writes (R122, R137) -/

theorem namesOneWord_slotCfg (n : Fin 16) : namesOneWord (REF_SLOT_CFG n) .REF_SLOT_CFG n 0 = true := by
  revert n
  decide +kernel

theorem regEffect_slotCfg {R : RegWrite} (c : State) (hid : R.id = .REF_SLOT_CFG) : regEffect R c = slotWritten R c := by
  unfold regEffect
  rw [hid]

theorem regEffect_refCtrl {R : RegWrite} (c : State) (hid : R.id = .REF_CTRL) :
    regEffect R c = refCtrlWrite R.new (c.setWord REF_CTRL (BitVec.ofNat 32 R.old)) := by
  unfold regEffect
  rw [hid]

theorem regEffect_dcoCtrl {R : RegWrite} (c : State) (hid : R.id = .DCO_CTRL) :
    regEffect R c = ownerChange (R.now DCO_CTRL_OWNER) (R.back DCO_CTRL_OWNER c) := by
  unfold regEffect
  rw [hid]

theorem regEffect_dcoOffset {R : RegWrite} (c : State) (hid : R.id = .DCO_OFFSET) : regEffect R c = dcoExtend DCO_OFFSET c := by
  unfold regEffect
  rw [hid]

theorem slotWrite_stands {m : BusMaster} {n : Fin 16} {v : Word} {s : State} (hw : Writable m (REF_SLOT_CFG n) v s) : ∃ R c,
    Stands m .REF_SLOT_CFG n 0 (REF_SLOT_CFG n).one v.toNat s R c ∧
      run (busPut m (REF_SLOT_CFG n).addr v) s = .next (settle s (slotWritten R c)) := by
  obtain ⟨R, c, hst, hrun⟩ := hw.stands (namesOneWord_slotCfg n) (by simp only [REF_SLOT_CFG]; omega) (by decide)
  obtain ⟨-, hid, -, -, -⟩ := hst.who
  exact ⟨R, c, hst, by rw [← regEffect_slotCfg c hid]; exact hrun⟩

/-- The row of a mode: the write stands with the mode named, and REF_CTRL acts. -/
theorem refMode_stands {m : BusMaster} {x : Nat} {v : Word} {s : State} (hw : Writable m REF_CTRL (withField REF_CTRL_MODE x v) s)
    (hx : x < 8) : ∃ R c,
    Stands m .REF_CTRL 0 0 REF_CTRL.one (withField REF_CTRL_MODE x v).toNat s R c ∧ R.now REF_CTRL_MODE = x ∧
      run (busSet m REF_CTRL_MODE x v) s = .next (settle s (refCtrlWrite R.new (c.setWord REF_CTRL (BitVec.ofNat 32 R.old)))) := by
  obtain ⟨R, c, hst, hsees, hrun⟩ := hw.stands_sees (id := .REF_CTRL) (i := 0) (j := 0) (by decide +kernel) (by decide) (by decide)
  obtain ⟨-, hid, -, -, -⟩ := hst.who
  have hnow : R.now REF_CTRL_MODE = x := by
    rw [(hsees REF_CTRL_MODE rfl (by decide)).2 (by decide +kernel), extract_withField (by decide)]
    exact Nat.mod_eq_of_lt hx
  exact ⟨R, c, hst, hnow, by rw [← regEffect_refCtrl c hid]; exact hrun⟩

theorem dcoOwner_stands {m : BusMaster} {v : Word} {s : State} (hw : Writable m DCO_CTRL v s) : ∃ R c,
    Stands m .DCO_CTRL 0 0 DCO_CTRL.one v.toNat s R c ∧
      run (busPut m DCO_CTRL.addr v) s = .next (settle s (ownerChange (R.now DCO_CTRL_OWNER) (R.back DCO_CTRL_OWNER c))) := by
  obtain ⟨R, c, hst, hrun⟩ := hw.stands (id := .DCO_CTRL) (i := 0) (j := 0) (by decide +kernel) (by decide) (by decide)
  obtain ⟨-, hid, -, -, -⟩ := hst.who
  exact ⟨R, c, hst, by rw [← regEffect_dcoCtrl c hid]; exact hrun⟩

theorem dcoOffset_stands {m : BusMaster} {v : Word} {s : State} (hw : Writable m (DCO_OFFSET.word 0) v s) : ∃ R c x,
    Stands m .DCO_OFFSET 0 0 DCO_OFFSET x s R c ∧ x % 2 ^ 32 = v.toNat ∧ s.on DCO_CTRL_OWNER = true ∧
      run (busPut m DCO_OFFSET.addr v) s = .next (settle s (dcoExtend DCO_OFFSET c)) := by
  obtain ⟨R, c, x, hst, hlow, howner, hrun⟩ :=
    hw.commit_stands (id := .DCO_OFFSET) (i := 0) (j := 0) (by decide +kernel) rfl (by decide) (by decide)
  obtain ⟨-, hid, -, -, -⟩ := hst.who
  exact ⟨R, c, x, hst, hlow, howner rfl, by rw [← regEffect_dcoOffset c hid]; exact hrun⟩

/-! ### The commit of a switch (R125 to R128) -/

/-- The target is the selected reference, tracked less its build-out; no switch is in progress. -/
abbrev switchDone (t : Nat) (s : State) : State :=
  (((State.put { s with sel := { s.sel with target := none, takeUp := false, buildOut := buildOutOf s t } } REF_STATUS_SWITCHING 0).put
    REF_STATUS_SELECTED t).put REF_STATUS_SEL_VALID 1).ev REF_EVENT_SWITCH

theorem switchDone_dpll (t : Nat) (s : State) : (switchDone t s).dpll = s.dpll := by
  have hstatus : ∀ {g : Fld} (u : State) (v : Nat), g.reg = REF_STATUS → (u.put g v).dpll = u.dpll := fun u v hg =>
    State.get_put_reg u v (by rw [hg]; decide)
  exact (State.get_put_reg _ 1 (by decide)).trans (((hstatus _ _ rfl).trans (hstatus _ _ rfl)).trans (hstatus _ _ rfl))

/-- A switch between candidates leaves LOCKED as it is (R134). -/
theorem switchCommit_locked {t : Nat} {s : State} (ht : s.sel.target = some t) (hw : s.sel.ctrlWait = none) (h2 : s.dpll = 2) :
    switchCommit s = bwRefresh (refDecide (switchDone t s)) := by
  have hlocked : (switchDone t s).dpll = 2 := (switchDone_dpll t s).trans h2
  have hwait : (switchDone t s).sel.ctrlWait = none := hw
  have hstays : ¬((switchDone t s).dpll = 0 ∨ (switchDone t s).dpll = 3) := by omega
  simp only [switchCommit, ht]
  rw [if_neg hstays, hwait]

end Sys2Proof.Machine
end

section
/-!
PROOFS. The DPLL's updates and its lock (R125, R132 to R134, R137), and with them the selector's and the DPLL's commands.
-/

namespace Sys2Proof.Machine

open Sys2Proof

/-! ### The DPLL's own registers -/

/-- Only registers of the DPLL (R161, R162) differ. -/
abbrev DpllWords (s t : State) : Prop := WordsKept 0x00200400 0x00200800 s t

section
variable {s t : State}

theorem DpllWords.put (h : DpllWords s t) {f : Fld} (v : Nat) (hf : f.reg = DPLL_STATUS ∨ f.reg = DPLL_PHASE_ERR) :
    DpllWords s (t.put f v) := by
  refine WordsKept.put h ?_ ?_ <;> rcases hf with hf | hf <;> rw [hf] <;> decide

theorem DpllWords.bwRefresh (h : DpllWords s t) : DpllWords s (bwRefresh t) := by
  unfold Machine.bwRefresh
  dsimp only
  split
  · exact (h.put _ (.inl rfl)).put _ (.inl rfl)
  · exact (h.put _ (.inl rfl)).put _ (.inl rfl)

theorem DpllWords.dpllSet (h : DpllWords s t) (st : Nat) : DpllWords s (dpllSet st t) := by
  unfold Machine.dpllSet secCheck
  split
  · exact h.put st (.inl rfl)
  · exact (h.put st (.inl rfl)).of_regs rfl

theorem dpllTakeUp_regs (s : State) : (dpllTakeUp s).regs = s.regs := by
  unfold dpllTakeUp
  split <;> rfl

theorem dpllError_regs (x : Int) (s : State) : (dpllError x s).2.regs = s.regs := by
  unfold dpllError
  dsimp only
  split
  · rfl
  · split <;> rfl

end

/-! ### Updates (R125, R132, R133, R137) -/

section
variable {x : Int} {s : State}

/-- The state with a phase error stored. -/
def errorStored (e : Int) (s : State) : State := s.puti DPLL_PHASE_ERR_V (clampI (-(2 ^ 31)) (2 ^ 31 - 1) e)

/-- While a switch is in progress or the host owns DCO_OFFSET, an update writes registers of the DPLL alone. -/
theorem dpllUpdate_held (h : s.on REF_STATUS_SWITCHING = true ∨ s.dpllOwns = false) : DpllWords s (dpllUpdate x s) := by
  have hhold : (s.on REF_STATUS_SWITCHING || !s.dpllOwns) = true := by simpa using h
  have herr : DpllWords s (errorStored (dpllError x (dpllTakeUp s)).1 (dpllError x (dpllTakeUp s)).2) :=
    DpllWords.put ((WordsKept.refl _ _ s).of_regs ((dpllError_regs x _).trans (dpllTakeUp_regs s))) _ (.inr rfl)
  unfold dpllUpdate
  dsimp only
  rw [hhold]
  split
  · rw [if_pos rfl]
    split
    · exact (herr.dpllSet 1).bwRefresh
    · exact herr
  · exact WordsKept.refl _ _ s

/-- In ACQUIRING the phase error is stored, and the loop takes it. -/
theorem dpllUpdate_acquiring (h1 : s.dpll = 1) (hsw : s.on REF_STATUS_SWITCHING = false) (hown : s.dpllOwns = true)
    (hup : s.sel.takeUp = false) {e : Int} (he : dpllError x s = (e, s)) : dpllUpdate x s = dpllLoop e (errorStored e s) := by
  have htaken : dpllTakeUp s = s := if_neg (by simp [hup])
  have hacq : (errorStored e s).dpll ≠ 2 := by
    have hkept : (errorStored e s).dpll = s.dpll := State.get_put_reg s _ (by decide)
    omega
  unfold dpllUpdate
  dsimp only
  rw [if_pos (.inl h1), htaken, he, if_neg (by simp [hsw, hown])]
  exact congrArg (dpllLoop e) (if_neg (fun h => hacq h.1))

theorem dpllUpdate_holdover (h3 : s.dpll = 3) (hsw : s.on REF_STATUS_SWITCHING = false) (hown : s.dpllOwns = true) :
    dpllUpdate x s = dpllFree s := by
  unfold dpllUpdate
  dsimp only
  rw [if_neg (by omega), if_neg (by simp [hsw, hown])]

theorem dpllError_refin (h8 : s.get REF_STATUS_SELECTED < 8) : dpllError x s = (x - s.sel.buildOut, s) := if_pos h8

theorem dpllError_recovered (h8 : 8 ≤ s.get REF_STATUS_SELECTED) (h12 : s.get REF_STATUS_SELECTED < 12) : dpllError x s =
    (s.geti (PHA_CH_UNWRAP_V (slotChannel s (s.get REF_STATUS_SELECTED))) - s.sel.buildOut, s) :=
  (if_neg (Nat.not_lt.2 h8)).trans (if_pos h12)

theorem putWidei_sel (s : State) (w : Wide) (v : Int) : (s.putWidei w v).sel = s.sel := by
  unfold State.putWidei State.putWide
  rw [State.putWideFrom_eq]

theorem dcoSet_get (v : Int) (s : State) {f : Fld} (hf : f.reg.addr < 0x00200804 ∨ 0x0020080C ≤ f.reg.addr) :
    (dcoSet v s).get f = s.get f := State.get_putWide_other s DCO_OFFSET _ hf

/-- The loop moves the integrator by the integral gain. -/
theorem dpllLoop_integ (e : Int) (s : State) :
    (dpllLoop e s).sel.integ = s.sel.integ + (dpllGain (s.get DPLL_STATUS_BW_APPLIED) ^ 2 : Nat) * e := by
  unfold dpllLoop dcoSet
  rw [putWidei_sel, Nat.pow_two]

/-- In ACQUIRING an update shows the phase error, integrates it, and stays. -/
theorem dpllUpdate_acquiring_shows (h1 : s.dpll = 1) (hsw : s.on REF_STATUS_SWITCHING = false) (hown : s.dpllOwns = true)
    (hup : s.sel.takeUp = false) {e : Int} (he : dpllError x s = (e, s)) :
    (dpllUpdate x s).geti DPLL_PHASE_ERR_V = clampI (-(2 ^ 31)) (2 ^ 31 - 1) e ∧
      (dpllUpdate x s).sel.integ = s.sel.integ + (dpllGain (s.get DPLL_STATUS_BW_APPLIED) ^ 2 : Nat) * e ∧ (dpllUpdate x s).dpll = 1 := by
  rw [dpllUpdate_acquiring h1 hsw hown hup he]
  refine ⟨?_, ?_, ?_⟩
  · obtain ⟨hlow, hhigh⟩ := le_clampI (lo := -(2 ^ 31)) (hi := 2 ^ 31 - 1) (v := e) (by decide)
    have hkept : (dpllLoop e (errorStored e s)).geti DPLL_PHASE_ERR_V = (errorStored e s).geti DPLL_PHASE_ERR_V := by
      rw [State.geti_eq_signed, State.geti_eq_signed]
      exact congrArg (signed _) (dcoSet_get _ _ (.inl (by decide)))
    rw [hkept]
    exact State.geti_puti_same s (by decide) (by simp only [DPLL_PHASE_ERR_V]; omega) (by simp only [DPLL_PHASE_ERR_V]; omega)
  · have hgain : (errorStored e s).get DPLL_STATUS_BW_APPLIED = s.get DPLL_STATUS_BW_APPLIED := State.get_put_reg s _ (by decide)
    rw [dpllLoop_integ, hgain]
    rfl
  · exact (dcoSet_get _ _ (.inl (by decide))).trans ((State.get_put_reg s _ (by decide)).trans h1)

theorem dcoSet_shows (v : Int) (s : State) : (dcoSet v s).widei DCO_OFFSET = dcoClamp v := by
  obtain ⟨hlow, hhigh⟩ := le_clampI (lo := -(2 ^ 33)) (hi := 2 ^ 33 - 1) (v := v) (by decide)
  exact State.widei_putWidei_same s rfl (by unfold dcoClamp; omega) (by unfold dcoClamp; omega)

/-- In FREERUN and HOLDOVER the value of the state is applied. -/
theorem dpllFree_shows (s : State) : (dpllFree s).widei DCO_OFFSET = dcoClamp (freeValue s).1 := by
  refine Eq.trans ?_ (dcoSet_shows (freeValue s).1 s)
  have hseed : (State.ev (dpllPreset (dcoSet (freeValue s).1 s)) REF_EVENT_SEED_USED).wide DCO_OFFSET =
      (dcoSet (freeValue s).1 s).wide DCO_OFFSET := State.wide_put_other _ 1 (.inr (by decide))
  unfold dpllFree State.widei
  dsimp only
  split
  · exact congrArg (signed 64) hseed
  · rfl

theorem freeValue_holdover (h3 : s.dpll = 3) : (freeValue s).1 = s.widei HOLD_VALUE := by
  unfold freeValue
  rw [if_pos h3]

/-! ### The lock (R134) -/

theorem dpllLocked_locks (h1 : s.dpll = 1) (he : (s.geti DPLL_PHASE_ERR_V).natAbs ≤ s.get DPLL_LOCK_PE) :
    dpllLocked s = bwRefresh (dpllSet 2 s) := if_pos ⟨h1, he⟩

theorem dpllLocked_unchanged (h1 : s.dpll ≠ 1) : dpllLocked s = s := if_neg (fun h => h1 h.1)

end

/-- Settles O28: the writes stand and act, a switch commits, and an update is by the DPLL's state and by what holds DCO_OFFSET. -/
theorem selectorAndDpllCommands : Obligations.SelectorAndDpllCommands := by
  refine ⟨fun m n v s hw => slotWrite_stands hw, fun m v s hw => refMode_stands hw (by decide),
    fun m v s hw => refMode_stands hw (by decide), fun m v s hw => refMode_stands hw (by decide),
    fun m v s hw => refMode_stands hw (by decide), fun m v s hw => dcoOwner_stands hw, fun m v s hw => dcoOffset_stands hw,
    fun t s hs ht hw h2 => timed_eq hs (switchCommit_locked ht hw h2), fun x s hs h => ?_, fun x s hs hsw hown h3 => ?_,
    fun x s hs h1 hsw hown hup h8 => ?_, fun x y s hs h1 hsw hown hup h8 h12 hy => ?_,
    fun s hs h1 he => timed_eq hs (dpllLocked_locks h1 he), fun s hs h1 => timed_eq hs (dpllLocked_unchanged h1)⟩
  · exact ⟨_, timed_eq hs rfl, (dpllUpdate_held h).wide (.inr (by decide))⟩
  · refine ⟨_, timed_eq hs (dpllUpdate_holdover h3 hsw hown), ?_⟩
    rw [dpllFree_shows, freeValue_holdover h3]
    rfl
  · exact ⟨_, timed_eq hs rfl, dpllUpdate_acquiring_shows h1 hsw hown hup (dpllError_refin h8)⟩
  · subst hy
    exact ⟨_, timed_eq hs rfl, dpllUpdate_acquiring_shows h1 hsw hown hup (dpllError_recovered h8 h12)⟩

end Sys2Proof.Machine
end

section
/-!
PROOFS. The holdover history and its FRAM: the second's entry, the periodic save, the read-back and the start read (R139, R144, R146).
-/

namespace Sys2Proof.Machine

open Sys2Proof

/-! ### The history (R139) -/

theorem secCheck_eq (s : State) : secCheck s = { s with sel := { s.sel with secBad := (secCheck s).sel.secBad } } := by
  unfold secCheck
  split <;> rfl

/-- What a second writes: the entry in front, the sums afresh. -/
theorem historyWrite_shows (s : State) : ∃ e : HoldEntry, (historyWrite s).sel.hist = e :: s.sel.hist.take 4095 ∧
    (historyWrite s).sel.secs = s.sel.secs + 1 ∧ (historyWrite s).sel.dcoSum = 0 ∧ (historyWrite s).sel.dcoTicks = 0 ∧
    (historyWrite s).regs = s.regs := by
  unfold historyWrite
  dsimp only
  rw [secCheck_eq]
  exact ⟨_, List.take_succ_cons, rfl, rfl, rfl, rfl⟩

/-! ### The periodic save and its read-back (R144) -/

section
variable {s : State} {x : FramSave}

theorem framPeriodic_saves (he : s.on HOLD_FRAM_CFG_EN = true) (hr : s.sel.readDone = true) (hn : 64 ≤ s.sel.sinceSave) :
    framPeriodic s = framSave 64 1 s := if_pos (by simp [he, hr, hn])

theorem framPeriodic_unchanged (h : s.on HOLD_FRAM_CFG_EN = false ∨ s.sel.readDone = false ∨ s.sel.sinceSave < 64) :
    framPeriodic s = s := by
  refine if_neg ?_
  simp only [Bool.and_eq_true, decide_eq_true_eq]
  rintro ⟨⟨he, hr⟩, hn⟩
  rcases h with h | h | h
  · exact Bool.false_ne_true (h.symm.trans he)
  · exact Bool.false_ne_true (h.symm.trans hr)
  · omega

/-- The header of a save is asked for, and no save is due a read-back. -/
def headerAsked (x : FramSave) (s : State) : State :=
  framAsk (if x.slotB then 0x40 else 0) { s with sel := { s.sel with save := none } }

theorem framReadback_same (h : s.sel.save = some x) : framReadback true s =
    { (headerAsked x s).put HOLD_STATUS_FRAM_ERR 0 with sel := { (headerAsked x s).sel with
        newestB := x.slotB, newestSeq := x.seq, newestIdx := x.idx, anyHeader := true } } := by
  simp only [framReadback, h, if_true]
  rfl

theorem framReadback_differs (h : s.sel.save = some x) : framReadback false s =
    raiseMinor 4 (((headerAsked x s).put HOLD_STATUS_FRAM_ERR 1).ev REF_EVENT_FRAM_ERR) := by
  simp only [framReadback, h, Bool.false_eq_true, if_false]
  rfl

theorem framReadback_same_shows (h : s.sel.save = some x) : let u := framReadback true s
    u.on HOLD_STATUS_FRAM_ERR = false ∧ u.sel.anyHeader = true ∧ u.sel.newestB = x.slotB ∧ u.sel.newestSeq = x.seq ∧
      u.sel.newestIdx = x.idx ∧ u.sel.save = none ∧ u.fram = s.fram := by
  dsimp only
  rw [framReadback_same h]
  exact ⟨State.on_false.2 (State.get_put_same _ _ 0 (by decide)), rfl, rfl, rfl, rfl, rfl, rfl⟩

theorem framReadback_differs_shows (h : s.sel.save = some x) : let u := framReadback false s
    u.on HOLD_STATUS_FRAM_ERR = true ∧ u.on REF_EVENT_FRAM_ERR = true ∧ u.sel.anyHeader = s.sel.anyHeader ∧ u.sel.save = none ∧
      u.fram = s.fram := by
  dsimp only
  rw [framReadback_differs h]
  refine ⟨?_, ?_, rfl, rfl, rfl⟩
  · unfold raiseMinor
    rw [State.on_true, State.get_putBit_reg _ _ (by decide), State.ev_eq, State.get_put_reg _ _ (by decide),
      State.get_put_same _ _ _ (by decide)]
    decide
  · unfold raiseMinor
    rw [State.on_true, State.get_putBit_reg _ _ (by decide), State.get_ev_same _ _ (by decide) (by decide)]
    decide

/-! ### The start read (R146) -/

/-- Where neither header is valid, none is the newest. -/
theorem framNewest_none (ha : headerOk (framRead s 0 64) = false) (hb : headerOk (framRead s 0x40 64) = false) :
    framNewest s = ({ framAsk 0x40 (framAsk 0 s) with sel := { s.sel with
      anyHeader := false, newestB := true, newestSeq := 0, newestIdx := 0 } }, none) := by
  have hslot : ∀ a b : Nat, newestSlot (headerOk (framRead (framAsk 0x40 (framAsk 0 s)) 0 64))
      (headerOk (framRead (framAsk 0x40 (framAsk 0 s)) 0x40 64)) a b = none := fun a b => by
    change newestSlot (headerOk (framRead s 0 64)) (headerOk (framRead s 0x40 64)) a b = none
    rw [ha, hb]
    rfl
  simp only [framNewest, hslot]
  rfl

theorem framNewest_keeps (s : State) : (framNewest s).1.sel.sinceSave = s.sel.sinceSave ∧ (framNewest s).1.sel.seed = s.sel.seed ∧
    (framNewest s).1.fram = s.fram ∧ (framNewest s).1.regs = s.regs := by
  unfold framNewest
  dsimp only
  split <;> exact ⟨rfl, rfl, rfl, rfl⟩

theorem lastGaspStart_eq (s : State) : lastGaspStart s = { s with
    out := (lastGaspStart s).out,
    sel := { s.sel with lgSlotB := (lastGaspStart s).sel.lgSlotB, lgSeq := (lastGaspStart s).sel.lgSeq } } := by
  unfold lastGaspStart
  dsimp only
  split <;> rfl

theorem framStart_noHeader (ha : headerOk (framRead s 0 64) = false) (hb : headerOk (framRead s 0x40 64) = false) :
    let u := framStart s
    u.sel.readDone = true ∧ u.sel.readDue = false ∧ u.sel.anyHeader = false ∧ u.fram = s.fram ∧ u.regs = s.regs := by
  dsimp only
  unfold framStart
  rw [framNewest_none ha hb]
  dsimp only
  rw [lastGaspStart_eq]
  exact ⟨rfl, rfl, rfl, rfl, rfl⟩

theorem framStartDue_first (hd : s.sel.readDue = true) (hr : s.sel.readDone = false) : framStartDue s = framStart s := by
  unfold framStartDue
  rw [if_neg (by simp [hd]), if_neg (by simp [hr])]

theorem framStartDue_unchanged (hd : s.sel.readDue = false) : framStartDue s = s := if_pos (by simp [hd])

/-- A later read takes the newest header alone. -/
theorem framStartDue_later (hd : s.sel.readDue = true) (hr : s.sel.readDone = true) :
    framStartDue s = { (framNewest s).1 with sel := { (framNewest s).1.sel with readDue := false } } := by
  unfold framStartDue
  rw [if_neg (by simp [hd]), if_pos hr]

end

end Sys2Proof.Machine
end

section
/-!
PROOFS. The ensemble's enable, updates and returns, and with them the holdover, FRAM and ensemble events (R139, R144, R146, R149 to R152).
-/

namespace Sys2Proof.Machine

open Sys2Proof

/-! ### The enable (R148) -/

theorem regEffect_ensCtrl {R : RegWrite} (c : State) (hid : R.id = .REF_ENS_CTRL) :
    regEffect R c = ensEnable (R.now REF_ENS_CTRL_EN != 0) (R.back REF_ENS_CTRL_EN c) := by
  unfold regEffect
  rw [hid]

theorem ensEnable_stands {m : BusMaster} {v : Word} {s : State} (hw : Writable m REF_ENS_CTRL (withField REF_ENS_CTRL_EN 1 v) s) : ∃ R c,
    Stands m .REF_ENS_CTRL 0 0 REF_ENS_CTRL.one (withField REF_ENS_CTRL_EN 1 v).toNat s R c ∧ R.now REF_ENS_CTRL_EN = 1 ∧
      run (busSet m REF_ENS_CTRL_EN 1 v) s =
        .next (settle s (ensEnable (R.now REF_ENS_CTRL_EN != 0) (R.back REF_ENS_CTRL_EN c))) := by
  obtain ⟨R, c, hst, hnow, hrun⟩ := Writable.stands_field (f := REF_ENS_CTRL_EN) (id := .REF_ENS_CTRL) (i := 0) (j := 0) hw
    (by decide +kernel) (by decide +kernel) rfl (by decide) (by decide) (by decide)
  obtain ⟨-, hid, -, -, -⟩ := hst.who
  exact ⟨R, c, hst, hnow, by rw [← regEffect_ensCtrl c hid]; exact hrun⟩

/-! ### The 16 s update (R149, R150) -/

/-- Going through a list of which one element acts, where the others act on neither the state before nor the one after. -/
theorem forEach_once {α : Type} {l : List α} {f : α → State → State} {a : α} {s : State} (hd : l.Nodup) (ha : a ∈ l)
    (hs : ∀ b ∈ l, b ≠ a → f b s = s ∧ f b (f a s) = f a s) : forEach l f s = f a s := by
  obtain ⟨l₁, l₂, rfl⟩ := List.append_of_mem ha
  obtain ⟨-, hd₂, hdis⟩ := List.nodup_append.1 hd
  have hbefore : forEach l₁ f s = s := forEach_unchanged fun b hb =>
    (hs b (List.mem_append_left _ hb) (hdis b hb a List.mem_cons_self)).1
  have hafter : forEach l₂ f (f a s) = f a s := forEach_unchanged fun b hb =>
    (hs b (List.mem_append_right _ (List.mem_cons_of_mem a hb)) (fun e => (List.nodup_cons.1 hd₂).1 (e ▸ hb))).2
  calc forEach (l₁ ++ a :: l₂) f s
      = forEach l₂ f (f a (forEach l₁ f s)) := by simp only [forEach, List.foldl_append, List.foldl_cons]
    _ = f a s := by rw [hbefore, hafter]

section
variable {s : State}

/-- A member takes the mean of its 16 s, and is FUSED with its eighth second difference. -/
def ensMean (k : Nat) (s : State) : State :=
  let m := s.ensRec k
  if ensState s k = 0 ∨ m.n = 0 then s
  else
    let a := m.allan.add (roundDiv m.sum m.n)
    let diffs := if a.terms = m.allan.terms then m.diffs else m.diffs + 1
    let s := s.setEns k { m with allan := a, diffs := diffs, sum := 0, n := 0 }
    if ensState s k = 1 ∧ 8 ≤ diffs then ensSet k 2 s else s

theorem ensAllan_eq (s : State) : ensAllan s = forEach (List.range 8) ensMean s := rfl

theorem ensMean_unchanged {k : Nat} (h : ensState s k = 0 ∨ (s.ensRec k).n = 0) : ensMean k s = s := if_pos h

/-- A FUSED member with a mean: its record alone changes. -/
theorem ensMean_fused {k : Nat} (h2 : ensState s k = 2) (hn : (s.ensRec k).n ≠ 0) : ∃ d, ensMean k s = s.setEns k
    { s.ensRec k with allan := (s.ensRec k).allan.add (roundDiv (s.ensRec k).sum (s.ensRec k).n), diffs := d, sum := 0, n := 0 } := by
  unfold ensMean
  dsimp only
  rw [if_neg (by omega)]
  refine ⟨_, if_neg (fun h => ?_)⟩
  have h1 : ensState s k = 1 := h.1
  omega

theorem ensAllan_unchanged (h : ∀ k < 8, ensState s k = 0 ∨ (s.ensRec k).n = 0) : ensAllan s = s := by
  rw [ensAllan_eq]
  exact forEach_unchanged fun k hk => ensMean_unchanged (h k (List.mem_range.1 hk))

/-- With all others OFF the update is that of the one member. -/
theorem ensAllan_one {k : Nat} (hk : k < 8) (h2 : ensState s k = 2) (hn : (s.ensRec k).n ≠ 0)
    (hoff : ∀ j < 8, j ≠ k → ensState s j = 0) : ensAllan s = ensMean k s := by
  obtain ⟨d, hmean⟩ := ensMean_fused h2 hn
  have hstays : ∀ j, ensState (ensMean k s) j = ensState s j := fun j => by rw [hmean]; rfl
  rw [ensAllan_eq]
  refine forEach_once List.nodup_range (List.mem_range.2 hk) fun j hj hjk => ?_
  have h0 := hoff j (List.mem_range.1 hj) hjk
  exact ⟨ensMean_unchanged (.inl h0), ensMean_unchanged (.inl ((hstays j).trans h0))⟩

/-! ### The 62.5 ms update and a member's return (R150 to R152) -/

theorem ensUpdate_none (h : (ensFused s).isEmpty = true) : ensUpdate s = s := if_pos h

/-- Where every FUSED member has a variance and the ensemble does not steer, the update drops and shows. -/
theorem ensUpdate_shows (h : (ensFused s).isEmpty = false) (hv : (ensFused s).all (fun k => (s.ensRec k).allan.num != 0) = true)
    (hsrc : (ensShow (ensDrop s)).steerSrc ≠ 4) : ensUpdate s = ensShow (ensDrop s) := by
  have hfree : (ensFused s).any (fun k => (s.ensRec k).allan.num == 0) = false := by simpa using hv
  unfold ensUpdate
  rw [if_neg (by simp [h]), hfree]
  exact if_neg hsrc

theorem ensReturn_returns {k : Nat} (h3 : ensState s k = 3) (hnear : (s.ensRec k).nearSince.isSome = true) :
    ensReturn k s = ensSet k 2 (s.setEns k { s.ensRec k with nearSince := none, beyond := 0 }) := if_pos (by simp [h3, hnear])

theorem ensReturn_unchanged {k : Nat} (h3 : ensState s k ≠ 3) : ensReturn k s = s := if_neg (by simp [h3])

end

/-- Settles O29: each event by the rule of its part, in the case its condition picks. -/
theorem holdoverFramAndEnsembleEvents : Obligations.HoldoverFramAndEnsembleEvents := by
  refine ⟨fun s hs => ?_, fun s hs he hr hn => timed_eq hs (framPeriodic_saves he hr hn),
    fun s hs h => timed_eq hs (framPeriodic_unchanged h),
    fun x s hs h => ⟨_, timed_eq hs rfl, framReadback_same_shows h⟩,
    fun x s hs h => ⟨_, timed_eq hs rfl, framReadback_differs_shows h⟩,
    fun s hs hd hr ha hb => ⟨_, timed_eq hs (framStartDue_first hd hr), framStart_noHeader ha hb⟩,
    fun s hs hd hr => timed_eq hs (framStartDue_first hd hr), fun s hs hd => timed_eq hs (framStartDue_unchanged hd),
    fun s hs hd hr => ?_, fun m v s hw => ensEnable_stands hw, fun s hs h => ⟨s, timed_eq hs (ensAllan_unchanged h), rfl⟩,
    fun k s hs h2 hn hoff => ?_, fun s hs h => timed_eq hs (ensUpdate_none h),
    fun s hs h hv hsrc => timed_eq hs (ensUpdate_shows h hv hsrc),
    fun k s hs h3 hnear => timed_eq hs (ensReturn_returns h3 hnear), fun k s hs h3 => timed_eq hs (ensReturn_unchanged h3)⟩
  · obtain ⟨e, hhist, hsecs, hsum, hticks, hregs⟩ := historyWrite_shows s
    refine ⟨_, timed_eq hs rfl, ?_, hsecs, hsum, hticks, congrArg List.tail hhist, hregs⟩
    rw [hhist, List.length_cons, List.length_take]
    omega
  · obtain ⟨hsince, hseed, hfram, hregs⟩ := framNewest_keeps s
    exact ⟨_, timed_eq hs (framStartDue_later hd hr), rfl, hsince, hseed, hfram, hregs⟩
  · obtain ⟨d, hmean⟩ := ensMean_fused h2 hn
    have hupdate := (ensAllan_one k.isLt h2 hn hoff).trans hmean
    have hrec := State.setEns_ensRec s k
    exact ⟨_, timed_eq hs hupdate, congrArg EnsRec.n (hrec _), congrArg EnsRec.sum (hrec _), congrArg EnsRec.allan (hrec _)⟩

end Sys2Proof.Machine
end

section
/-!
PROOFS. The host's writes of the time base: increment, state, source and owner, step, load and snapshot (R171, R172, R177, R178, R180,
R184, R198).
-/

namespace Sys2Proof.Machine

open Sys2Proof

/-! ### Rules that a write which stands has met -/

/-- The commit of a value of two words stands, and its rules hold of the write as the register sees it. -/
theorem Writable.commit_meets {m : BusMaster} {w : Wide} {v : Word} {s : State} {id : RegId} {i j : Nat}
    (hw : Writable m (w.word 0) v s) (hn : namesWide w id i j = true) (h2 : w.words = 2) (ha : w.addr + 8 ≤ 0x02700000)
    (hid : id ≠ .LDR_HOST_CTRL) : ∃ h c x, MayWrite m w.addr v s h ∧ h.spec.id = id ∧ Stands m id i j w x s (writeSeen m h v s) c ∧
      x % 2 ^ 32 = v.toNat ∧ run (busPut m w.addr v) s = .next (settle s (regEffect (writeSeen m h v s) c)) := by
  obtain ⟨h, hf, rfl, rfl, rfl, hwide⟩ := regAt_of_namesWide hn
  obtain ⟨k, hk⟩ := mayWrite_meets (a := w.addr) hw
  obtain rfl : h = k := Option.some.inj (hf.symm.trans (regAt_of_placeOf hk.place.1))
  have hwords : h.spec.words = 2 := (congrArg Wide.words hwide).trans h2
  obtain ⟨c, hst, -, hput⟩ := write_stands hk (by omega) (by rw [hwide]; omega) (fun he => absurd he hid)
  rw [(takeStaged_two hwords).1, hwide] at hst
  have hlow := v.isLt
  exact ⟨h, c, _, hk, rfl, hst, by omega, run_eq hk.out hput⟩

/-- The values and conditions that a writable register forbids do not hold. -/
theorem Writable.not_bad {m : BusMaster} {r : Reg} {v : Word} {s : State} {id : RegId} {i j : Nat} (hw : Writable m r v s)
    (hn : namesOneWord r id i j = true) : ∃ R : RegWrite, R.id = id ∧ regBad R s = false := by
  obtain ⟨h, hf, rfl, rfl, rfl, -⟩ := regAt_of_namesOneWord hn
  obtain ⟨k, hk⟩ := mayWrite_meets hw
  obtain rfl : h = k := Option.some.inj (hf.symm.trans (regAt_of_placeOf hk.place.1))
  exact ⟨_, rfl, hk.values.2⟩

/-- A row that sets a field: the write stands, carrying the value named. -/
theorem Writable.stands_carried {m : BusMaster} {f : Fld} {x : Nat} {v : Word} {s : State} {id : RegId} {i j : Nat}
    (hw : Writable m f.reg (withField f x v) s) (hn : namesOneWord f.reg id i j = true) (hc : f.carried = true)
    (hl : f.lsb + f.width ≤ 32) (ha : f.reg.addr < 0x026FFFFC) (hid : id ≠ .LDR_HOST_CTRL) :
    ∃ R c, Stands m id i j f.reg.one (withField f x v).toNat s R c ∧ R.field R.v f = x % 2 ^ f.width ∧
      run (busSet m f x v) s = .next (settle s (regEffect R c)) := by
  obtain ⟨R, c, hst, hsees, hrun⟩ := hw.stands_sees hn ha hid
  refine ⟨R, c, hst, ?_, hrun⟩
  rw [(hsees f rfl hl).1 hc, extract_withField hl]

/-- A row that sets bit 0 of its register: the write stands, and its value is odd. -/
theorem Writable.stands_odd {m : BusMaster} {f : Fld} {v : Word} {s : State} {id : RegId}
    (hw : Writable m f.reg (withField f 1 v) s) (hn : namesOneWord f.reg id 0 0 = true) (hc : f.carried = true)
    (hl : f.lsb = 0) (h1 : f.width = 1) (ha : f.reg.addr < 0x026FFFFC) (hid : id ≠ .LDR_HOST_CTRL) :
    ∃ R c, Stands m id 0 0 f.reg.one (withField f 1 v).toNat s R c ∧ R.id = id ∧ R.v % 2 = 1 ∧
      run (busSet m f 1 v) s = .next (settle s (regEffect R c)) := by
  obtain ⟨R, c, hst, hv, hrun⟩ := hw.stands_carried hn hc (by omega) ha hid
  obtain ⟨-, hR, -, -, haddr⟩ := hst.who
  refine ⟨R, c, hst, hR, ?_, hrun⟩
  simpa [RegWrite.field, haddr, Reg.one, hl, h1] using hv

/-- A write that stands leaves the records of the time base. -/
theorem Stands.tb {m : BusMaster} {id : RegId} {i j v : Nat} {w : Wide} {s c : State} {R : RegWrite} (h : Stands m id i j w v s R c) :
    c.tb = s.tb := by
  rw [h.rest]

/-! ### The rows of TB_INCR, TB_HOST_STATE and TB_CTRL (R171, R172, R175, R177, R198) -/

theorem tbIncrWrite_stands {m : BusMaster} {v : Word} {s : State} (hw : Writable m (TB_INCR.word 0) v s) : ∃ R c x,
    Stands m .TB_INCR 0 0 TB_INCR x s R c ∧ x % 2 ^ 32 = v.toNat ∧ s.hostOwns = true ∧ hostIncrOk R.new = true ∧
      run (busPut m TB_INCR.addr v) s = .next (settle s (c.put TB_STATUS_SLEW_CLAMP 0)) := by
  obtain ⟨h, c, x, hk, hid, hst, hlow, hrun⟩ :=
    hw.commit_meets (id := .TB_INCR) (i := 0) (j := 0) (by decide +kernel) rfl (by decide) (by decide)
  obtain ⟨-, hseen, -, -, -⟩ := hst.who
  have howns : s.hostOwns = true := hk.owner.2 hid
  have hok := hk.values.2
  simp only [regBad, hseen, howns, Bool.true_and, Bool.not_eq_false'] at hok
  refine ⟨_, c, x, hst, hlow, howns, hok, ?_⟩
  unfold regEffect at hrun
  simpa only [hseen] using hrun

theorem tbHostStateReq_stands {m : BusMaster} {v : Word} {s : State} (hw : Writable m TB_HOST_STATE v s) : ∃ R c,
    Stands m .TB_HOST_STATE 0 0 TB_HOST_STATE.one v.toNat s R c ∧ s.hostOwns = true ∧ s.tbState ≠ 0 ∧
      run (busPut m TB_HOST_STATE.addr v) s = .next (settle s (tbHostState (R.now TB_HOST_STATE_REQ) c)) := by
  have hn : namesOneWord TB_HOST_STATE .TB_HOST_STATE 0 0 = true := by decide +kernel
  obtain ⟨R', hid', hbad⟩ := hw.not_bad hn
  simp only [regBad, hid', Bool.or_eq_false_iff, Bool.not_eq_false', beq_eq_false_iff_ne] at hbad
  obtain ⟨R, c, hst, hrun⟩ := hw.stands hn (by decide) (by decide)
  obtain ⟨-, hid, -, -, -⟩ := hst.who
  refine ⟨R, c, hst, hbad.1, hbad.2, ?_⟩
  unfold regEffect at hrun
  simpa only [hid] using hrun

theorem tbCtrlWrite_stands {m : BusMaster} {v : Word} {s : State} (hw : Writable m TB_CTRL v s) : ∃ R c,
    Stands m .TB_CTRL 0 0 TB_CTRL.one v.toNat s R c ∧ run (busPut m TB_CTRL.addr v) s = .next (settle s (tbCtrlWritten R c)) := by
  obtain ⟨R, c, hst, hrun⟩ := hw.stands (id := .TB_CTRL) (i := 0) (j := 0) (by decide +kernel) (by decide) (by decide)
  obtain ⟨-, hid, -, -, -⟩ := hst.who
  refine ⟨R, c, hst, ?_⟩
  unfold regEffect at hrun
  simpa only [hid] using hrun

/-! ### The rows that set GO or SW (R180, R184) -/

theorem tbStepGo_stands {m : BusMaster} {v : Word} {s : State} (hw : Writable m TB_STEP_CTRL (withField TB_STEP_CTRL_GO 1 v) s)
    (h0 : s.tb.hostStep = none) : ∃ R c, Stands m .TB_STEP_CTRL 0 0 TB_STEP_CTRL.one (withField TB_STEP_CTRL_GO 1 v).toNat s R c ∧
      run (busSet m TB_STEP_CTRL_GO 1 v) s = .next (settle s (tbStepGo c)) := by
  obtain ⟨R, c, hst, hid, hodd, hrun⟩ := Writable.stands_odd (f := TB_STEP_CTRL_GO) (id := .TB_STEP_CTRL) hw
    (by decide +kernel) (by decide +kernel) rfl rfl (by decide) (by decide)
  have hnone : c.tb.hostStep.isNone = true := by rw [hst.tb, h0]; rfl
  refine ⟨R, c, hst, ?_⟩
  unfold regEffect at hrun
  simpa only [hid, hodd, hnone, and_self, if_true] using hrun

theorem tbLoadGo_stands {m : BusMaster} {v : Word} {s : State} (hw : Writable m TB_LOAD_CTRL (withField TB_LOAD_CTRL_GO 1 v) s)
    (h0 : s.tb.load = none) : ∃ R c, Stands m .TB_LOAD_CTRL 0 0 TB_LOAD_CTRL.one (withField TB_LOAD_CTRL_GO 1 v).toNat s R c ∧
      run (busSet m TB_LOAD_CTRL_GO 1 v) s = .next (settle s (tbLoadGo c)) := by
  obtain ⟨R, c, hst, hid, hodd, hrun⟩ := Writable.stands_odd (f := TB_LOAD_CTRL_GO) (id := .TB_LOAD_CTRL) hw
    (by decide +kernel) (by decide +kernel) rfl rfl (by decide) (by decide)
  have hnone : c.tb.load.isNone = true := by rw [hst.tb, h0]; rfl
  refine ⟨R, c, hst, ?_⟩
  unfold regEffect at hrun
  simpa only [hid, hodd, hnone, and_self, if_true] using hrun

theorem tbSnapSw_stands {m : BusMaster} {v : Word} {s : State} (hw : Writable m TB_SNAP_CTRL (withField TB_SNAP_CTRL_SW 1 v) s) :
    ∃ R c, Stands m .TB_SNAP_CTRL 0 0 TB_SNAP_CTRL.one (withField TB_SNAP_CTRL_SW 1 v).toNat s R c ∧
      run (busSet m TB_SNAP_CTRL_SW 1 v) s = .next (settle s { c with tb := { c.tb with snapDue := true } }) := by
  obtain ⟨R, c, hst, hsw, hrun⟩ := Writable.stands_carried (f := TB_SNAP_CTRL_SW) (id := .TB_SNAP_CTRL) (i := 0) (j := 0) hw
    (by decide +kernel) (by decide +kernel) (by decide) (by decide) (by decide)
  obtain ⟨-, hid, -, -, -⟩ := hst.who
  have hset : R.field R.v TB_SNAP_CTRL_SW ≠ 0 := hsw ▸ (by decide)
  refine ⟨R, c, hst, ?_⟩
  unfold regEffect at hrun
  simpa only [hid, hset, ne_eq, not_false_eq_true, if_true] using hrun

/-! ### Steps, loads and snapshots (R178, R180, R184) -/

/-- STEP_PENDING reads what waits. -/
theorem stepPendingBit_shows (s : State) : (stepPendingBit s).on TB_STATUS_STEP_PENDING =
    (s.tb.ferryStep.isSome || s.tb.hostStep.isSome || s.tb.load.isSome || s.tb.todin.isSome) := by
  unfold stepPendingBit State.on
  rw [State.putB_eq, State.get_put_same _ _ _ (by decide)]
  split <;> simp_all [TB_STATUS_STEP_PENDING]

theorem stepRej_shows (s : State) : (s.ev TB_EVENT_STEP_REJ).on TB_EVENT_STEP_REJ = true := by
  rw [State.on_true, State.get_ev_same _ _ (by decide) (by decide)]
  decide

theorem tbStepGo_holds {s : State} (hown : s.hostOwns = true) (hst : s.tbState ≠ 0)
    (hok : stepPermitted s (sns40 (s.widei TB_STEP)) = true) :
    tbStepGo s = stepPendingBit { s with tb := { s.tb with hostStep := some (sns40 (s.widei TB_STEP)) } } := by
  unfold tbStepGo
  exact if_pos (by simp [hown, hst, hok])

theorem tbStepGo_refused {s : State} (h : s.hostOwns = false ∨ s.tbState = 0 ∨ stepPermitted s (sns40 (s.widei TB_STEP)) = false) :
    tbStepGo s = s.ev TB_EVENT_STEP_REJ := by
  unfold tbStepGo
  refine if_neg ?_
  rcases h with h | h | h <;> simp [h]

theorem tbLoadGo_refused {s : State} (h : s.tbState ≠ 0) : tbLoadGo s = s.ev TB_EVENT_STEP_REJ := by
  unfold tbLoadGo
  exact if_neg (by simp [h])

/-- A snapshot's low 96 bits are its time. -/
theorem snapTake_time (m t : Nat) (s : State) : (snapTake m t s).wide (TB_SNAP m) % 2 ^ 96 = tb96Of t % 2 ^ 96 := by
  unfold snapTake
  dsimp only
  rw [State.wide_putWide, show (TB_SNAP m).words = 4 from rfl]
  split_ifs <;> omega

/-- Settles O30: each write stands and its register acts; a step or a load by its operation's conditions. -/
theorem timeBaseWrites : Obligations.TimeBaseWrites := by
  refine ⟨fun m v s hw => tbIncrWrite_stands hw, fun m v s hw => tbHostStateReq_stands hw, fun m v s hw => tbCtrlWrite_stands hw,
    fun m v s hw => tbCtrlWrite_stands hw, fun m v s hw h0 => tbStepGo_stands hw h0, fun m v s hw h0 => tbLoadGo_stands hw h0,
    fun m v s hw _ => tbSnapSw_stands hw, fun s hown hst hok => ?_, fun s h => ?_, fun s h => ?_, fun m t s => snapTake_time m t s⟩
  · rw [tbStepGo_holds hown hst hok, stepPendingBit_shows]
    exact ⟨rfl, by simp⟩
  · rw [tbStepGo_refused h]
    exact ⟨rfl, stepRej_shows s⟩
  · rw [tbLoadGo_refused h]
    exact ⟨rfl, stepRej_shows s⟩

end Sys2Proof.Machine
end

section
/-!
PROOFS. What follows from a change of the time base's state or count keeps the time base's own registers and records (R103 to R105, R147,
R349, R429, R468).
-/

namespace Sys2Proof.Machine

open Sys2Proof

/-- The registers of the time base's block (from 0x00300000 to 0x00400000) and its records are as they were. -/
structure TbKept (s t : State) : Prop where
  words : ∀ x : Reg, 0x00300000 ≤ x.addr → x.addr < 0x00400000 → t.word x = s.word x
  tb : t.tb = s.tb

@[simp] theorem State.putWide_tb (s : State) (w : Wide) (v : Nat) : (s.putWide w v).tb = s.tb := by
  unfold State.putWide
  rw [State.putWideFrom_eq]

namespace TbKept

variable {s t : State}

theorem refl (s : State) : TbKept s s := ⟨fun _ _ _ => rfl, rfl⟩

/-- A state may differ in all but the registers and the time base's records. -/
theorem of_eq (h : TbKept s t) {u : State} (hr : u.regs = t.regs) (ht : u.tb = t.tb) : TbKept s u where
  words x hl hh := (State.word_congr hr x).trans (h.words x hl hh)
  tb := ht.trans h.tb

theorem get (h : TbKept s t) {f : Fld} (hl : 0x00300000 ≤ f.reg.addr) (hh : f.reg.addr < 0x00400000) : t.get f = s.get f := by
  unfold State.get
  rw [h.words f.reg hl hh]

theorem put (h : TbKept s t) {f : Fld} (v : Nat) (hf : f.reg.addr < 0x00300000 ∨ 0x00400000 ≤ f.reg.addr) : TbKept s (t.put f v) where
  words x hl hh := (State.word_put_other t v (by omega)).trans (h.words x hl hh)
  tb := h.tb

theorem putWide (h : TbKept s t) {w : Wide} (v : Nat) (hw : w.addr + 4 * w.words ≤ 0x00300000 ∨ 0x00400000 ≤ w.addr) :
    TbKept s (t.putWide w v) where
  words x hl hh := (State.word_putWide_other t w v (by omega)).trans (h.words x hl hh)
  tb := (State.putWide_tb t w v).trans h.tb

theorem ite {c : Prop} [Decidable c] {u : State} (h : TbKept s t) (h' : TbKept s u) : TbKept s (if c then t else u) := by
  split
  · exact h
  · exact h'

theorem forEach {α : Type} {l : List α} {g : α → State → State} (h : TbKept s t) (hg : ∀ a u, TbKept s u → TbKept s (g a u)) :
    TbKept s (forEach l g t) := forEach_keeps (P := TbKept s) t h hg

section
variable (h : TbKept s t)
include h

theorem ppsInvalid : TbKept s (ppsInvalid t) :=
  ite (h.forEach fun _ _ hu => ite (hu.put _ (.inl (show PPS_STATUS.addr < 0x00300000 by decide))) hu) h

theorem ppsLeftInvalid : TbKept s (ppsLeftInvalid t) := ite h (h.put _ (.inl (by decide)))

theorem sessForget : TbKept s (sessForget t) := by
  have hlast := h.forEach (l := List.range 4) (g := fun d s => s.putWide (FM_DOM_LAST d) 0)
    fun d _ hu => hu.putWide 0 (.inr (by simp only [FM_DOM_LAST]; omega))
  exact hlast.forEach fun k u hu => (hu.of_eq (u := u.setSess k _) rfl rfl).putWide 0 (.inr (by simp only [FM_SESS_OFFSET]; omega))

theorem gateRefreshAt (p time : Nat) : TbKept s (gateRefreshAt p time t) := by
  have hput : ∀ v v', TbKept s ((t.put (QM_PORT_GATE_OPER_GATES p) v).put (QM_PORT_GATE_CUR_ENTRY p) v') := fun v v' =>
    (h.put v (.inr (by simp only [QM_PORT_GATE_OPER_GATES, QM_PORT_GATE]; omega))).put v'
      (.inr (by simp only [QM_PORT_GATE_CUR_ENTRY, QM_PORT_GATE]; omega))
  exact ite (hput _ _) (hput _ _)

theorem gateRefreshAll : TbKept s (gateRefreshAll t) := h.forEach fun p _ hu => hu.gateRefreshAt p _

theorem xcRefresh (n : Nat) : TbKept s (xcRefresh n t) := by
  have haddr : 0x00400000 ≤ (XC_STREAM_STATUS n).addr := by
    simp only [XC_STREAM_STATUS]
    omega
  have hcoarse := h.put (f := XC_STREAM_STATUS_COARSE n) (if xcCoarse t n then 1 else 0) (.inr haddr)
  exact ite (hcoarse.put 2 (.inr haddr)) (ite ((hcoarse.put 1 (.inr haddr)).put 1 (.inr (by decide))) (hcoarse.put 1 (.inr haddr)))

theorem xcRefreshAll : TbKept s (xcRefreshAll t) := h.forEach fun n _ hu => hu.xcRefresh n

theorem secCheck : TbKept s (secCheck t) := by
  rw [secCheck_eq]
  exact h.of_eq rfl rfl

theorem enterFreerun : TbKept s (enterFreerun t) := by
  have hvoid := h.put (f := REF_STATUS_SEL_VALID) 0 (.inl (by decide))
  exact ite hvoid (put (secCheck (hvoid.put 0 (.inl (by decide)))) 1 (.inl (by decide)))

theorem holdStore (r : HoldRes) : TbKept s (holdStore r t) :=
  (((((h.putWide _ (.inl (by decide))).put _ (.inl (by decide))).put _ (.inl (by decide))).put _ (.inl (by decide)))).of_eq rfl rfl

theorem seedAge : TbKept s (seedAge t) := by
  have haged : TbKept s { t with sel := { t.sel with seedAged := true } } := h.of_eq rfl rfl
  have hrej := (haged.put (f := HOLD_STATUS_SEED) 3 (.inl (by decide))).put (f := REF_EVENT_SEED_REJECTED) 1 (.inl (by decide))
  refine ite (ite (haged.put 2 (.inl (by decide))) (ite ?_ hrej)) h
  split
  · exact hrej.holdStore _
  · exact enterFreerun (hrej.of_eq rfl rfl)

theorem tbLeft : TbKept s (tbLeft t) := h.ppsLeftInvalid.seedAge.gateRefreshAll.xcRefreshAll

theorem ppsStepped (time inc : Nat) : TbKept s (ppsStepped time inc t) :=
  forEach_keeps_mem h fun n hn _ hu => by
    have hlt := List.mem_range.1 hn
    exact (hu.putWide _ (.inl (by simp only [PPS_OUT_DIFF]; omega))).put _ (.inl (show PPS_STATUS.addr < 0x00300000 by decide))

end

end TbKept

end Sys2Proof.Machine
end

section
/-!
PROOFS. The states of the time base, the mismatch of its shadow, and the tick at which a step applies (R174 to R176, R178, R179, R181 to
R183).
-/

namespace Sys2Proof.Machine

open Sys2Proof

/-- A field keeps its value when one that shares no bit with it is written; said for `decide`. -/
theorem State.get_put_away (s : State) {f g : Fld} (v : Nat) (h : f.reg.addr ≠ g.reg.addr ∨
    (f.reg = g.reg ∧ f.lsb + f.width ≤ 32 ∧ (f.lsb + f.width ≤ g.lsb ∨ g.lsb + g.width ≤ f.lsb))) : (s.put g v).get f = s.get f :=
  State.get_put_apart s v h

theorem State.get_withTb (s : State) (r : TbRec) (f : Fld) : State.get { s with tb := r } f = s.get f := rfl

/-! ### The record of a discontinuity (R183) -/

theorem tbRecord_tb (cause : Nat) (size : Int) (s : State) : (tbRecord cause size s).tb = s.tb := by
  unfold tbRecord
  dsimp only
  rw [State.put_tb, State.putWide_tb, State.putWide_tb, State.put_tb, State.count_eq, State.put_tb]

/-- It leaves the state and the events. -/
theorem tbRecord_get (cause : Nat) (size : Int) (s : State) {f : Fld}
    (hf : f = TB_STATUS_STATE ∨ f.reg = TB_EVENT) : (tbRecord cause size s).get f = s.get f := by
  have haddr : f.reg.addr = 0x00300004 ∨ f.reg.addr = 0x00300008 := by
    rcases hf with rfl | hr
    · exact .inl rfl
    · exact .inr (congrArg Reg.addr hr)
  have hdiscont : ∀ t : State, (t.put TB_STATUS_DISCONT 1).get f = t.get f := fun t => by
    rcases hf with rfl | hr
    · exact State.get_put_away t 1 (by decide)
    · exact State.get_put_reg t 1 (by rw [hr]; decide)
  unfold tbRecord
  dsimp only
  rw [State.get_put_reg _ _ (by simp only [TB_LAST_CAUSE_V, TB_LAST_CAUSE]; omega),
    State.get_putWide_other _ _ _ (.inl (by simp only [TB_LAST_SIZE]; omega)),
    State.get_putWide_other _ _ _ (.inl (by simp only [TB_LAST_TIME]; omega)), hdiscont, State.count_eq,
    State.get_put_reg _ _ (by simp only [TB_EPOCH_V, TB_EPOCH]; omega)]

/-! ### INVALID (R174, R175, R182) -/

/-- The registers' view of an entry to INVALID, with every step and load that waits dropped. -/
def tbInvalidated (cause : Nat) (s : State) : State :=
  let s := { s with tb := { s.tb with
    ferryStep := none, hostStep := none, load := none, todin := none, actSteps := [], fineCount := 0, autoDue := true } }
  tbRecord cause 0 (stepPendingBit ((s.put TB_STATUS_STATE 0).ev TB_EVENT_INVALID))

/-- What follows from the entry keeps it. -/
theorem tbEnterInvalid_kept {s : State} (h : s.tbState ≠ 0) (cause : Nat) :
    TbKept (tbInvalidated cause s) (tbEnterInvalid cause s) := by
  unfold tbEnterInvalid
  rw [if_neg h]
  exact (TbKept.refl (tbInvalidated cause s)).sessForget.ppsInvalid.gateRefreshAll.xcRefreshAll

theorem tbInvalidated_get (cause : Nat) (s : State) {f : Fld} (hf : f = TB_STATUS_STATE ∨ f.reg = TB_EVENT) :
    (tbInvalidated cause s).get f = ((s.put TB_STATUS_STATE 0).ev TB_EVENT_INVALID).get f := by
  have hpending : ∀ (t : State) (b : Bool), (t.putB TB_STATUS_STEP_PENDING b).get f = t.get f := fun t b => by
    rcases hf with rfl | hr
    · exact State.get_put_away t _ (by decide)
    · exact State.get_put_reg t _ (by rw [hr]; decide)
  unfold tbInvalidated
  rw [tbRecord_get cause 0 _ hf]
  exact hpending _ _

theorem tbInvalidated_shows (cause : Nat) (s : State) : let u := tbInvalidated cause s
    u.tbState = 0 ∧ u.on TB_EVENT_INVALID = true ∧ u.get TB_EVENT_DIVERGE = s.get TB_EVENT_DIVERGE := by
  dsimp only
  unfold State.tbState State.on
  rw [tbInvalidated_get cause s (.inl rfl), tbInvalidated_get cause s (.inr rfl), tbInvalidated_get cause s (.inr rfl),
    State.get_ev_same _ _ (by decide) (by decide), State.ev_eq, State.get_put_away _ _ (by decide),
    State.get_put_same _ _ _ (by decide), State.get_put_away _ _ (by decide), State.get_put_away _ _ (by decide)]
  exact ⟨rfl, rfl, rfl⟩

/-- The fields an entry to INVALID shows. -/
theorem tbEnterInvalid_shows {s : State} (h : s.tbState ≠ 0) (cause : Nat) : let u := tbEnterInvalid cause s
    u.tb.hostStep = none ∧ u.tb.ferryStep = none ∧ u.tb.load = none ∧ u.tb.todin = none ∧ u.tb.count = s.tb.count ∧
      u.get TB_EVENT_DIVERGE = s.get TB_EVENT_DIVERGE ∧ u.on TB_EVENT_INVALID = true ∧ u.tbState = 0 := by
  have hkept := tbEnterInvalid_kept h cause
  obtain ⟨hstate, hinvalid, hdiverge⟩ := tbInvalidated_shows cause s
  have htb := hkept.tb.trans (tbRecord_tb cause 0 _)
  dsimp only
  rw [htb]
  refine ⟨rfl, rfl, rfl, rfl, rfl, (hkept.get (by decide) (by decide)).trans hdiverge, ?_, (hkept.get (by decide) (by decide)).trans hstate⟩
  unfold State.on at hinvalid ⊢
  rw [hkept.get (by decide) (by decide)]
  exact hinvalid

/-- A major alarm beside a mate that shows one too sets its bit alone. -/
theorem raiseMajor_mateAlarmed {s : State} (h : mateClear s = false) (b : Nat) : raiseMajor b s = s.putBit FLT_MAJOR_B b true := by
  have hmate : mateClear (s.putBit FLT_MAJOR_B b true) = mateClear s := by
    unfold mateClear
    rw [State.putBit_eq, State.word_put_other s _ (show (PAIR_MATE_REPORT.word 7).addr ≠ FLT_MAJOR.addr by decide)]
  unfold raiseMajor
  dsimp only
  rw [hmate, h]
  rfl

/-- A mismatch drops what waits, and records DIVERGE and INVALID. -/
theorem shadowMismatch_shows {s : State} (h : s.tbState ≠ 0) (hm : mateClear s = false) : let u := shadowMismatch s
    u.tb.hostStep = none ∧ u.tb.ferryStep = none ∧ u.tb.load = none ∧ u.tb.todin = none ∧ u.tb.count = s.tb.count ∧
      u.on TB_EVENT_DIVERGE = true ∧ u.on TB_EVENT_INVALID = true ∧ u.tbState = 0 := by
  have hmate : mateClear (s.ev TB_EVENT_DIVERGE) = false := by
    unfold mateClear at hm ⊢
    rw [State.ev_eq, State.word_put_other _ _ (by decide)]
    exact hm
  have hvalid : ((s.ev TB_EVENT_DIVERGE).putBit FLT_MAJOR_B 1 true).tbState ≠ 0 := by
    unfold State.tbState at h ⊢
    rw [State.putBit_eq, State.get_put_reg _ _ (by decide), State.ev_eq, State.get_put_reg _ _ (by decide)]
    exact h
  obtain ⟨hhost, hferry, hload, htod, hcount, hdiverge, hinvalid, hstate⟩ := tbEnterInvalid_shows hvalid 9
  dsimp only
  unfold shadowMismatch
  rw [raiseMajor_mateAlarmed hmate]
  refine ⟨hhost, hferry, hload, htod, hcount, ?_, hinvalid, hstate⟩
  rw [State.on_true, hdiverge, State.putBit_eq, State.get_put_reg _ _ (by decide), State.get_ev_same _ _ (by decide) (by decide)]
  decide

/-! ### COARSE and HOLDOVER (R175, R176) -/

theorem tbEnterCoarse_valid {s : State} (h : s.tbState ≠ 0) :
    tbEnterCoarse s = { s.put TB_STATUS_STATE 1 with tb := { s.tb with fineCount := 0 } } := by
  unfold tbEnterCoarse
  exact if_neg h

theorem tbEnterCoarse_tb (s : State) : (tbEnterCoarse s).tb = { s.tb with fineCount := 0 } := by
  by_cases h : s.tbState = 0
  · unfold tbEnterCoarse
    rw [if_pos h, (TbKept.refl _).tbLeft.tb]
  · rw [tbEnterCoarse_valid h]

theorem State.hostOwns_putState (s : State) (v : Nat) : (s.put TB_STATUS_STATE v).hostOwns = s.hostOwns := by
  unfold State.hostOwns State.pairState State.on
  rw [State.get_put_reg _ _ (by decide), State.get_put_reg _ _ (by decide)]

theorem holdMean_putState (s : State) (v : Nat) : holdMean (s.put TB_STATUS_STATE v) = holdMean s := by
  unfold holdMean State.incr
  rw [State.wide_put_other s v (by decide)]
  rfl

/-- HOLDOVER shows its state; TB_INCR and TB_HOLD_INCR hold the mean under the Ferryman, and TB_INCR stays under the host. -/
theorem tbEnterHoldover_shows (s : State) : (tbEnterHoldover s).tbState = 3 ∧ (tbEnterHoldover s).tb.fineCount = 0 ∧
    (s.hostOwns = false → (tbEnterHoldover s).wide TB_INCR = holdMean s % 2 ^ 64 ∧
      (tbEnterHoldover s).wide TB_HOLD_INCR = holdMean s % 2 ^ 64) ∧
    (s.hostOwns = true → (tbEnterHoldover s).wide TB_INCR = s.wide TB_INCR) := by
  have hown : ∀ r : TbRec, State.hostOwns { s.put TB_STATUS_STATE 3 with tb := r } = s.hostOwns := fun _ => State.hostOwns_putState s 3
  have hmean : holdMean { s.put TB_STATUS_STATE 3 with tb := { s.tb with fineCount := 0 } } = holdMean s := holdMean_putState s 3
  have hstate : (s.put TB_STATUS_STATE 3).get TB_STATUS_STATE = 3 := State.get_put_same _ _ _ (by decide)
  unfold tbEnterHoldover State.tbState
  dsimp only
  cases ho : s.hostOwns with
  | true =>
    rw [if_pos ((hown _).trans ho)]
    exact ⟨hstate, rfl, nofun, fun _ => State.wide_put_other (f := TB_STATUS_STATE) (w := TB_INCR) s 3 (by decide)⟩
  | false =>
    rw [if_neg (by rw [hown, ho]; decide), hmean]
    refine ⟨?_, by simp, fun _ => ⟨?_, ?_⟩, nofun⟩
    · rw [State.get_put_away _ _ (by decide), State.get_putWide_other _ _ _ (by decide), State.get_putWide_other _ _ _ (by decide)]
      exact hstate
    · rw [State.wide_put_other _ _ (by decide)]
      exact State.wide_putWide _ _ _
    · rw [State.wide_put_other _ _ (by decide),
        ((WordsKept.refl TB_INCR.addr 0x00300028 _).putWide (Nat.le_refl _) (by decide)).wide (by decide)]
      exact State.wide_putWide _ _ _

/-! ### Steps (R178, R179, R181) -/

theorem stepApplyDue_due {s : State} (hc : s.clocked = true) (h : stepDue s = true) : stepApplyDue s = timeTick s := by
  unfold stepApplyDue
  exact if_pos (by simp [hc, h])

theorem stepApplyDue_unchanged {s : State} (h : stepDue s = false) : stepApplyDue s = s := by
  unfold stepApplyDue
  exact if_neg (by simp [h])

/-- A step that applies leaves the counted value plus the step in the counter and its shadow. -/
theorem stepApply_counts (c : Nat) (d : DueStep) (s : State) :
    (stepApply c d s).tb.count = ((c : Int) + d.e).toNat ∧ (stepApply c d s).tb.shadow = ((c : Int) + d.e).toNat := by
  have hgain : ∀ {t u : State}, TbKept t u → TbKept t (forEach (List.range 4) (fun k s =>
      s.setDom k { s.domRec k with gain := (s.domRec k).gain + d.e * 10 ^ 18 }) u) := fun hu =>
    hu.forEach fun k v hv => hv.of_eq (u := v.setDom k _) rfl rfl
  unfold stepApply
  dsimp only
  rw [tbEnterCoarse_tb, ((hgain (TbKept.refl _)).ppsStepped _ _).gateRefreshAll.tb, State.ev_eq, State.put_tb, tbRecord_tb]
  exact ⟨rfl, rfl⟩

/-- Settles O31: the mismatch by the entry to INVALID, the due step by its tick, a step and the other entries by the fields they leave. -/
theorem timeBaseStatesAndSteps : Obligations.TimeBaseStatesAndSteps := by
  refine ⟨fun s hs => timed_eq hs rfl, fun s hs h hm => ⟨_, timed_eq hs rfl, shadowMismatch_shows h hm⟩,
    fun s hs h => timed_eq hs (stepApplyDue_due hs.2 h), fun s hs h => timed_eq hs (stepApplyDue_unchanged h), stepApply_counts,
    fun s h => ?_, tbEnterHoldover_shows⟩
  rw [tbEnterCoarse_valid h]
  exact ⟨State.get_put_same s _ _ (by decide), rfl⟩

end Sys2Proof.Machine
end

section
/-!
PROOFS. Edges on PPSIN, and the time-of-day messages in and out (R184, R185, R187 to R189).
-/

namespace Sys2Proof.Machine

open Sys2Proof

section
variable {s : State}

/-! ### Edges that are captured (R184, R185) -/

theorem ppsinEdge_on {n k : Nat} {falling : Bool} (h : ppsinOn s n falling = true) :
    ppsinEdge n falling k s = snapTake (n + 1) (ppsinTime s k) s := if_pos h

theorem ppsinEdge_off {n k : Nat} {falling : Bool} (h : ppsinOn s n falling = false) : ppsinEdge n falling k s = s :=
  if_neg (by simp [h])

theorem snapTake_tb (m t : Nat) (s : State) : (snapTake m t s).tb = s.tb := State.putWide_tb s _ _

/-! ### Messages received (R187, R189) -/

theorem todIn_off (h : s.on TB_TOD_CFG_IN_EN = false) (l : List Byte) : todIn l s = s := if_pos (by simp [h])

theorem todIn_bad (h : s.on TB_TOD_CFG_IN_EN = true) {l : List Byte} (hl : todParse l = none) : todIn l s = todBad s := by
  unfold todIn
  rw [if_neg (by simp [h]), hl]

theorem todIn_good (h : s.on TB_TOD_CFG_IN_EN = true) {l : List Byte} {x : Nat} (hl : todParse l = some x) :
    todIn l s = { s with tb := { s.tb with tod := s.tb.tod ++ [x] } } := by
  unfold todIn
  rw [if_neg (by simp [h]), hl]

/-- A message discarded counts in BAD, up to its end, and sets TOD_ERR. -/
theorem todBad_shows (s : State) : (todBad s).on TB_EVENT_TOD_ERR = true ∧ (todBad s).tb = s.tb ∧
    (todBad s).get TB_TOD_IN_STATUS_BAD = min (s.get TB_TOD_IN_STATUS_BAD + 1) (2 ^ TB_TOD_IN_STATUS_BAD.width - 1) := by
  have hwidth : TB_TOD_IN_STATUS_BAD.width = 8 := rfl
  unfold todBad
  rw [State.on_true, State.get_ev_same _ _ (by decide) (by decide), State.ev_eq, State.get_put_reg _ _ (by decide), State.countSat_eq,
    State.get_put_same _ _ _ (by decide)]
  exact ⟨by decide, rfl, Nat.mod_eq_of_lt (by rw [hwidth]; omega)⟩

/-! ### The edge of the message that waits longest (R189) -/

theorem todinEdge_selected {n : Nat} (k : Nat) (h : n = s.get TB_TOD_CFG_IN_SEL) : todinEdge n false k s = todEdge k s :=
  if_pos (by simp [h])

theorem todEdge_none (h : s.tb.tod = []) (k : Nat) : todEdge k s = s := by
  unfold todEdge
  rw [h]

theorem todinEdge_unchanged {n : Nat} {falling : Bool} (k : Nat)
    (h : falling = true ∨ n ≠ s.get TB_TOD_CFG_IN_SEL ∨ s.tb.tod = []) : todinEdge n falling k s = s := by
  unfold todinEdge
  split
  next hsel =>
    rcases h with h | h | h
    · simp [h] at hsel
    · simp [h] at hsel
    · exact todEdge_none h k
  next => rfl

/-- The message has found its edge: it waits no more, and counts in GOOD (log entry 162). -/
def todFound (rest : List Nat) (s : State) : State := State.count { s with tb := { s.tb with tod := rest } } TB_TOD_IN_STATUS_GOOD

/-- The message's second less the time of the edge (R189). -/
def todError (m k : Nat) (s : State) : Int := (m * sec40 : Nat) - (ppsinTime s k : Int)

/-- It loads the time base where that is INVALID and IN_LOAD asks for it. -/
def todLoads (s : State) : Bool := s.tbState = 0 && s.on TB_TOD_CFG_IN_LOAD

theorem todLoads_found (rest : List Nat) (s : State) : todLoads (todFound rest s) = todLoads s := by
  have hother : ∀ {f : Fld}, f.reg.addr ≠ TB_TOD_IN_STATUS.addr → (todFound rest s).get f = s.get f := fun hf =>
    (State.get_put_reg _ _ hf).trans (State.get_withTb s _ _)
  unfold todLoads State.tbState State.on
  rw [hother (by decide), hother (by decide)]

theorem todEdge_some {m : Nat} {rest : List Nat} (h : s.tb.tod = m :: rest) (k : Nat) : todEdge k s =
    if todLoads s && stepPermitted (todFound rest s) (todError m k s) then
      stepPendingBit { todFound rest s with tb := { (todFound rest s).tb with todin := some (todError m k s) } }
    else (if todLoads s then (todFound rest s).ev TB_EVENT_STEP_REJ else todFound rest s).putWide TB_TOD_IN_DIFF (snsOf (todError m k s)) := by
  rw [← todLoads_found rest s]
  unfold todEdge
  rw [h]
  rfl

/-- Whatever becomes of it, the message leaves the list and has counted in GOOD. -/
theorem todEdge_counts {m : Nat} {rest : List Nat} (h : s.tb.tod = m :: rest) (k : Nat) : (todEdge k s).tb.tod = rest ∧
    (todEdge k s).get TB_TOD_IN_STATUS_GOOD = (s.get TB_TOD_IN_STATUS_GOOD + 1) % 2 ^ TB_TOD_IN_STATUS_GOOD.width := by
  have hgood : (todFound rest s).get TB_TOD_IN_STATUS_GOOD = (s.get TB_TOD_IN_STATUS_GOOD + 1) % 2 ^ TB_TOD_IN_STATUS_GOOD.width :=
    State.get_count_same _ _ 1 (by decide)
  rw [todEdge_some h, ← hgood]
  split
  · exact ⟨rfl, State.get_put_reg (f := TB_TOD_IN_STATUS_GOOD) (g := TB_STATUS_STEP_PENDING) _ _ (by decide)⟩
  · rw [State.putWide_tb, State.get_putWide_other _ _ _ (by decide)]
    split
    · exact ⟨rfl, State.get_put_reg (g := TB_EVENT_STEP_REJ) _ _ (by decide)⟩
    · exact ⟨rfl, rfl⟩

/-- Where it loads nothing, the difference is shown. -/
theorem todEdge_compares {m : Nat} {rest : List Nat} (h : s.tb.tod = m :: rest) (hl : s.tbState ≠ 0 ∨ s.on TB_TOD_CFG_IN_LOAD = false)
    (k : Nat) : (todEdge k s).tb.load = s.tb.load ∧ (todEdge k s).tb.todin = s.tb.todin ∧
      (todEdge k s).wide TB_TOD_IN_DIFF = snsOf (todError m k s) % 2 ^ 64 := by
  have hnot : todLoads s = false := by
    unfold todLoads
    rcases hl with hl | hl <;> simp [hl]
  rw [todEdge_some h, hnot, if_neg (by simp), if_neg (by simp), State.putWide_tb, State.wide_putWide]
  exact ⟨rfl, rfl, rfl⟩

theorem todTimeout_none (h : s.tb.tod = []) : todTimeout s = s := by
  unfold todTimeout
  rw [h]

theorem todTimeout_some {m : Nat} {rest : List Nat} (h : s.tb.tod = m :: rest) :
    todTimeout s = todBad { s with tb := { s.tb with tod := rest } } := by
  unfold todTimeout
  rw [h]

/-! ### Messages sent (R188) -/

theorem todSend_sends {n : Nat} (hn : n = s.get TB_TOD_CFG_OUT_SRC) (hen : s.on TB_TOD_CFG_OUT_EN = true)
    (hout : s.on (PPS_OUT_CFG_EN n) = true) (hmode : (s.ppsRec n).mode = 0) (hgave : (s.ppsRec n).gave = true) :
    todSend s = s.send (.tod (todMessage s n ((s.ppsRec n).edgeSec + 1))) := by
  subst hn
  exact if_pos (by simp [hen, hout, hmode, hgave])

theorem todSend_off (h : s.on TB_TOD_CFG_OUT_EN = false) : todSend s = s := if_neg (by simp [h])

end

/-- Settles O32: an edge by its snapshot, a message by its form, its edge by what it counts and shows, and what is sent by its conditions. -/
theorem pulsesInAndTimeOfDay : Obligations.PulsesInAndTimeOfDay := by
  refine ⟨fun n falling k s hs h => ⟨_, timed_eq hs (ppsinEdge_on h), snapTake_time _ _ s, snapTake_tb _ _ s⟩,
    fun n falling k s hs h => timed_eq hs (ppsinEdge_off h), fun l s hs h => timed_eq hs (todIn_off h l),
    fun l s hs h hl => ⟨_, timed_eq hs (todIn_bad h hl), todBad_shows s⟩,
    fun l x s hs h hl => ⟨_, timed_eq hs (todIn_good h hl), rfl, rfl⟩,
    fun n k x l s hs hn h => ?_, fun n falling k s hs h => timed_eq hs (todinEdge_unchanged k h),
    fun x l s hs h => ?_, fun s hs h => timed_eq hs (todTimeout_none h),
    fun n s hs hn hen hout hmode hgave => ⟨_, timed_eq hs (todSend_sends hn hen hout hmode hgave), rfl, rfl⟩,
    fun s hs h => timed_eq hs (todSend_off h)⟩
  · obtain ⟨htod, hgood⟩ := todEdge_counts h k
    refine ⟨_, timed_eq hs (todinEdge_selected k hn), htod, hgood, fun hl => ?_⟩
    obtain ⟨hload, htodin, hdiff⟩ := todEdge_compares h hl k
    refine ⟨hload, htodin, ?_⟩
    rw [hdiff]
    push_cast
    rfl
  · obtain ⟨herr, htb, -⟩ := todBad_shows { s with tb := { s.tb with tod := l } }
    exact ⟨_, timed_eq hs (todTimeout_some h), congrArg TbRec.tod htb, herr⟩

end Sys2Proof.Machine
end

section
/-!
PROOFS. Scheduled actions: arming, disarming, and the tick at which an action is evaluated (R190 to R192, R194, R196, R206).
-/

namespace Sys2Proof.Machine

open Sys2Proof

/-! ### The fields of an action -/

theorem actCtrl_ne_actStatus (n m : Nat) : (SCH_ACT_CTRL n).addr ≠ (SCH_ACT_STATUS m).addr := by
  simp only [SCH_ACT_CTRL, SCH_ACT_STATUS]
  omega

/-- The end of an action disarms it and shows its result. -/
theorem actEnd_shows {n result : Nat} (h : result < 8) (s : State) :
    (actEnd n result s).on (SCH_ACT_CTRL_ARM n) = false ∧ (actEnd n result s).get (SCH_ACT_STATUS_RESULT n) = result := by
  refine ⟨?_, (State.get_put_same _ _ _ (by simp [SCH_ACT_STATUS_RESULT])).trans (Nat.mod_eq_of_lt h)⟩
  unfold actEnd
  rw [State.on_false, State.get_put_reg _ _ (actCtrl_ne_actStatus n n), State.get_put_same _ _ _ (by simp [SCH_ACT_CTRL_ARM])]
  rfl

/-! ### Arming (R190, R191) -/

/-- The action is armed, with no run yet. -/
def actArmed (n : Nat) (s : State) : State :=
  ((s.put (SCH_ACT_CTRL_ARM n) 1).put (SCH_ACT_STATUS_RUNS n) 0).put (SCH_ACT_STATUS_RESULT n) 1

theorem actArmed_shows (n : Nat) (s : State) : (actArmed n s).on (SCH_ACT_CTRL_ARM n) = true ∧
    (actArmed n s).get (SCH_ACT_STATUS_RESULT n) = 1 ∧ (actArmed n s).get (SCH_ACT_STATUS_RUNS n) = 0 := by
  have hruns : (SCH_ACT_STATUS_RUNS n).Apart (SCH_ACT_STATUS_RESULT n) :=
    .inr ⟨rfl, by simp [SCH_ACT_STATUS_RUNS], by simp [SCH_ACT_STATUS_RUNS, SCH_ACT_STATUS_RESULT]⟩
  unfold actArmed
  refine ⟨?_, State.get_put_same _ _ _ (by simp [SCH_ACT_STATUS_RESULT]), ?_⟩
  · rw [State.on_true, State.get_put_reg _ _ (actCtrl_ne_actStatus n n), State.get_put_reg _ _ (actCtrl_ne_actStatus n n),
      State.get_put_same _ _ _ (by simp [SCH_ACT_CTRL_ARM])]
    simp [SCH_ACT_CTRL_ARM]
  · rw [State.get_put_apart _ _ hruns, State.get_put_same _ _ _ (by simp [SCH_ACT_STATUS_RUNS])]
    rfl

/-- Its settings are as they were: the other fields of its CTRL, and the other registers. -/
theorem actArmed_get {n : Nat} {f : Fld} (hs : f.reg.addr ≠ (SCH_ACT_STATUS n).addr)
    (hc : f.reg.addr ≠ (SCH_ACT_CTRL n).addr ∨ f.reg = SCH_ACT_CTRL n ∧ f.lsb + f.width ≤ 31) (s : State) :
    (actArmed n s).get f = s.get f := by
  have harm : f.Apart (SCH_ACT_CTRL_ARM n) := hc.imp id fun ⟨hr, hl⟩ => ⟨hr, by omega, .inl hl⟩
  unfold actArmed
  rw [State.get_put_reg _ _ hs, State.get_put_reg _ _ hs, State.get_put_apart _ _ harm]

theorem actArmed_type (n : Nat) (s : State) : (actArmed n s).get (SCH_ACT_CTRL_TYPE n) = s.get (SCH_ACT_CTRL_TYPE n) :=
  actArmed_get (actCtrl_ne_actStatus n n) (.inr ⟨rfl, by simp [SCH_ACT_CTRL_TYPE]⟩) s

theorem actArmed_latePolicy (n : Nat) (s : State) : (actArmed n s).on (SCH_ACT_CTRL_LATE_POLICY n) = s.on (SCH_ACT_CTRL_LATE_POLICY n) := by
  unfold State.on
  rw [actArmed_get (actCtrl_ne_actStatus n n) (.inr ⟨rfl, by simp [SCH_ACT_CTRL_LATE_POLICY]⟩)]

theorem actArmed_periodOk (n : Nat) (s : State) : actPeriodOk (actArmed n s) n = actPeriodOk s n := by
  have hperiod : (actArmed n s).get (SCH_ACT_PERIOD_V n) = s.get (SCH_ACT_PERIOD_V n) := by
    refine actArmed_get ?_ (.inl ?_) s <;> simp [SCH_ACT_PERIOD_V, SCH_ACT_PERIOD, SCH_ACT_STATUS, SCH_ACT_CTRL]
  unfold actPeriodOk
  rw [actArmed_type, hperiod]

theorem actArmed_time (n : Nat) (s : State) : actTime (actArmed n s) n = actTime s n := by
  have hother : ∀ {f : Fld} (v : Nat) (t : State), f.reg = SCH_ACT_CTRL n ∨ f.reg = SCH_ACT_STATUS n →
      (t.put f v).wide (SCH_ACT_TIME n) = t.wide (SCH_ACT_TIME n) := fun v t h => by
    refine State.wide_put_other t v (.inl ?_)
    rcases h with h | h <;> simp only [h, SCH_ACT_TIME, SCH_ACT_CTRL, SCH_ACT_STATUS] <;> omega
  unfold actTime actArmed
  rw [hother 1 _ (.inr rfl), hother 0 _ (.inr rfl), hother 1 _ (.inl rfl)]

/-- What arming makes of the armed action (R190, R191). -/
theorem actArm_eq (n tc : Nat) (s : State) : actArm n tc s =
    let u := actArmed n s
    if u.get (SCH_ACT_CTRL_TYPE n) = 0 ∨ !actPeriodOk u n ∨
        (u.on (SCH_ACT_CTRL_LATE_POLICY n) ∧ u.get (SCH_ACT_PERIOD_V n) = 0 ∧ u.get (SCH_ACT_CTRL_TYPE n) ≠ 5) then actEnd n 4 u
    else if tc < actTime u n then u
    else actLate n tc u := rfl

/-- An action of no type, or of a period that its type forbids, is rejected (R190). -/
theorem actArm_rejected {n tc : Nat} {s : State} (h : s.get (SCH_ACT_CTRL_TYPE n) = 0 ∨ actPeriodOk s n = false) :
    actArm n tc s = actEnd n 4 (actArmed n s) := by
  rw [actArm_eq]
  dsimp only
  rw [actArmed_type, actArmed_periodOk]
  refine if_pos (h.imp id fun hp => .inl ?_)
  rw [hp]
  rfl

/-- One whose time lies ahead of the next tick is armed (R191). -/
theorem actArm_ahead {n tc : Nat} {s : State} (hty : s.get (SCH_ACT_CTRL_TYPE n) ≠ 0) (hp : actPeriodOk s n = true)
    (hl : s.on (SCH_ACT_CTRL_LATE_POLICY n) = false) (ht : tc < actTime s n) : actArm n tc s = actArmed n s := by
  rw [actArm_eq]
  dsimp only
  rw [actArmed_type, actArmed_periodOk, actArmed_latePolicy, actArmed_time, if_neg (by simp [hty, hp, hl]), if_pos ht]

/-! ### The rows that write SCH_ACTn_CTRL (R191, R196, R206) -/

theorem namesOneWord_actCtrl (n : Fin 64) : namesOneWord (SCH_ACT_CTRL n) .SCH_ACT_CTRL n 0 = true := by
  revert n
  decide +kernel

theorem carried_actArm (n : Fin 64) : (SCH_ACT_CTRL_ARM n).carried = true := by
  revert n
  decide +kernel

theorem carried_actDisarm (n : Fin 64) : (SCH_ACT_CTRL_DISARM n).carried = true := by
  revert n
  decide +kernel

theorem regEffect_actCtrl {R : RegWrite} (c : State) (hid : R.id = .SCH_ACT_CTRL) : regEffect R c = actWritten R c := by
  unfold regEffect
  rw [hid]

theorem actWritten_arms {R : RegWrite} {n : Nat} (hi : R.i = n) (hd : R.field R.v (SCH_ACT_CTRL_DISARM n) = 0)
    (ha : R.acts (SCH_ACT_CTRL_ARM n) = true) (c : State) : actWritten R c = actArm n c.nextCount c := by
  subst hi
  unfold actWritten
  dsimp only
  rw [if_neg (not_not.2 hd), if_pos ha]

theorem actWritten_disarms {R : RegWrite} {n : Nat} (hi : R.i = n) (hd : R.field R.v (SCH_ACT_CTRL_DISARM n) ≠ 0) (c : State) :
    actWritten R c = actDisarm n (if R.was (SCH_ACT_CTRL_ARM n) ≠ 0 then
      R.back (SCH_ACT_CTRL_TYPE n) (R.back (SCH_ACT_CTRL_LATE_POLICY n) c) else c) := by
  subst hi
  unfold actWritten
  exact if_pos hd

theorem schArm_stands {m : BusMaster} {n : Fin 64} {v : Word} {s : State}
    (hw : Writable m (SCH_ACT_CTRL n) (withField (SCH_ACT_CTRL_DISARM n) 0 (withField (SCH_ACT_CTRL_ARM n) 1 v)) s)
    (h0 : s.on (SCH_ACT_CTRL_ARM n) = false) : ∃ R c, Stands m .SCH_ACT_CTRL n 0 (SCH_ACT_CTRL n).one
      (withField (SCH_ACT_CTRL_DISARM n) 0 (withField (SCH_ACT_CTRL_ARM n) 1 v)).toNat s R c ∧
      run (busSet2 m (SCH_ACT_CTRL_ARM n) 1 (SCH_ACT_CTRL_DISARM n) 0 v) s = .next (settle s (actArm n c.nextCount c)) := by
  obtain ⟨R, c, hst, hsees, hrun⟩ := hw.stands_sees (namesOneWord_actCtrl n) (by simp only [SCH_ACT_CTRL]; omega) (by decide)
  obtain ⟨-, hid, hi, -, -⟩ := hst.who
  have hdisarm : R.field R.v (SCH_ACT_CTRL_DISARM n) = 0 := by
    rw [(hsees (SCH_ACT_CTRL_DISARM n) rfl (by simp [SCH_ACT_CTRL_DISARM])).1 (carried_actDisarm n),
      extract_withField (by simp [SCH_ACT_CTRL_DISARM])]
    exact Nat.zero_mod _
  have harm : R.field R.v (SCH_ACT_CTRL_ARM n) = 1 := by
    rw [(hsees (SCH_ACT_CTRL_ARM n) rfl (by simp [SCH_ACT_CTRL_ARM])).1 (carried_actArm n)]
    unfold withField
    rw [extract_insert_other _ _ (by simp [SCH_ACT_CTRL_ARM]) (by simp [SCH_ACT_CTRL_ARM, SCH_ACT_CTRL_DISARM]),
      extract_insert_same _ _ (by simp [SCH_ACT_CTRL_ARM])]
    rfl
  have hwas : R.was (SCH_ACT_CTRL_ARM n) = 0 := (hst.was_eq (f := SCH_ACT_CTRL_ARM n)).trans (State.on_false.1 h0)
  have hacts : R.acts (SCH_ACT_CTRL_ARM n) = true := by
    unfold RegWrite.acts
    rw [harm, hwas]
    rfl
  rw [regEffect_actCtrl c hid, actWritten_arms hi hdisarm hacts] at hrun
  exact ⟨R, c, hst, hrun⟩

theorem schDisarm_stands {m : BusMaster} {n : Fin 64} {v : Word} {s : State}
    (hw : Writable m (SCH_ACT_CTRL n) (withField (SCH_ACT_CTRL_DISARM n) 1 v) s) : ∃ R c,
    Stands m .SCH_ACT_CTRL n 0 (SCH_ACT_CTRL n).one (withField (SCH_ACT_CTRL_DISARM n) 1 v).toNat s R c ∧
      run (busSet m (SCH_ACT_CTRL_DISARM n) 1 v) s = .next (settle s (actDisarm n (if s.on (SCH_ACT_CTRL_ARM n) then
        R.back (SCH_ACT_CTRL_TYPE n) (R.back (SCH_ACT_CTRL_LATE_POLICY n) c) else c))) := by
  obtain ⟨R, c, hst, hd, hrun⟩ := Writable.stands_carried (f := SCH_ACT_CTRL_DISARM n) hw (namesOneWord_actCtrl n) (carried_actDisarm n)
    (by simp [SCH_ACT_CTRL_DISARM]) (by simp only [SCH_ACT_CTRL_DISARM, SCH_ACT_CTRL]; omega) (by decide)
  obtain ⟨-, hid, hi, -, -⟩ := hst.who
  have hset : R.field R.v (SCH_ACT_CTRL_DISARM n) ≠ 0 := by
    rw [hd]
    simp [SCH_ACT_CTRL_DISARM]
  have hwas : R.was (SCH_ACT_CTRL_ARM n) = s.get (SCH_ACT_CTRL_ARM n) := hst.was_eq (f := SCH_ACT_CTRL_ARM n)
  rw [regEffect_actCtrl c hid, actWritten_disarms hi hset, hwas] at hrun
  simp only [← State.on_true] at hrun
  exact ⟨R, c, hst, hrun⟩

/-! ### The tick of an action (R192, R194) -/

section
variable {n : Nat} {s : State}

theorem actDue_clocked (h : s.clocked = true) : actDue n s = actEval s.tb.count s.nextCount n s := if_pos h

/-- An action not armed, or under an INVALID time base, is not evaluated. -/
theorem actEval_idle {p c : Nat} (h : s.on (SCH_ACT_CTRL_ARM n) = false ∨ s.tbState = 0) : actEval p c n s = s := by
  unfold actEval
  refine if_pos ?_
  rcases h with h | h <;> simp [h]

/-- While the action is armed the handover goes on. -/
theorem actHandover_armed (h : s.on (SCH_ACT_CTRL_ARM n) = true) : actHandover n s = s := by
  unfold actHandover
  refine if_neg ?_
  rintro ⟨rfl, -, -, hn⟩
  simp [h] at hn

theorem actEval_ahead {p c : Nat} (h : s.on (SCH_ACT_CTRL_ARM n) = true) (hp : p < actTime s n) (hc : c < actTime s n) :
    actEval p c n s = s := by
  by_cases hv : s.tbState = 0
  · exact actEval_idle (.inr hv)
  · unfold actEval
    rw [if_neg (by simp [h, hv]), if_neg (Nat.not_le.2 hp)]
    dsimp only
    rw [if_neg (fun hx => Nat.not_le.2 hc hx.2), actHandover_armed h]

theorem actEval_executes {p c : Nat} (h : s.on (SCH_ACT_CTRL_ARM n) = true) (hv : s.tbState ≠ 0) (hp : p < actTime s n)
    (hc : actTime s n ≤ c) : actEval p c n s = actHandover n (actExecute n s) := by
  unfold actEval
  rw [if_neg (by simp [h, hv]), if_neg (Nat.not_le.2 hp)]
  dsimp only
  rw [if_pos ⟨h, hc⟩]

/-- An action that is late without a policy ends LATE, and shows in SCH_LATE. -/
theorem actLate_rejects (h : s.on (SCH_ACT_CTRL_LATE_POLICY n) = false) (t : Nat) : actLate n t s = actEnd n 3
    (s.setWord (SCH_LATE.word (n / 32)) (s.word (SCH_LATE.word (n / 32)) ||| BitVec.ofNat 32 (2 ^ (n % 32)))) := by
  unfold actLate
  exact if_neg (by simp [h])

theorem actEval_late {p c : Nat} (h : s.on (SCH_ACT_CTRL_ARM n) = true) (hv : s.tbState ≠ 0) (hp : actTime s n ≤ p)
    (hl : s.on (SCH_ACT_CTRL_LATE_POLICY n) = false) : actEval p c n s = actHandover n (actEnd n 3
      (s.setWord (SCH_LATE.word (n / 32)) (s.word (SCH_LATE.word (n / 32)) ||| BitVec.ofNat 32 (2 ^ (n % 32))))) := by
  unfold actEval
  rw [if_neg (by simp [h, hv]), if_pos hp, actLate_rejects hl]
  dsimp only
  rw [if_neg (fun hx => Bool.false_ne_true ((actEnd_shows (by decide) _).1.symm.trans hx.1))]

end

/-- Settles O33: the writes stand and act, an action by its type and its time, and the tick by the case its conditions name. -/
theorem scheduledActions : Obligations.ScheduledActions := by
  refine ⟨fun m n v s hw h0 => schArm_stands hw h0, fun m n v s hw => schDisarm_stands hw, fun n tc s hty => ?_,
    fun n tc s hty hp hl ht => ?_, fun n s => actEnd_shows (by decide) s,
    fun n s hs h => timed_eq hs ((actDue_clocked hs.2).trans (actEval_idle h)),
    fun n s hs h hp hc => timed_eq hs ((actDue_clocked hs.2).trans (actEval_ahead h hp hc)),
    fun n s hs h hv hp hc => timed_eq hs ((actDue_clocked hs.2).trans (actEval_executes h hv hp hc)),
    fun n s hs h hv hp hl => timed_eq hs ((actDue_clocked hs.2).trans (actEval_late h hv hp hl))⟩
  · rw [actArm_rejected (.inl hty)]
    exact actEnd_shows (by decide) _
  · rw [actArm_ahead hty hp hl ht]
    exact actArmed_shows n s

end Sys2Proof.Machine
end

section
/-!
PROOFS. What the follow-up of a command keeps of the calibration where nothing waits for it, and the loss of an aux whose output, in its low
phase, has a linearity table waiting (R71, R75, R519).
-/

namespace Sys2Proof.Machine

open Sys2Proof

/-! ### What a follow-up writes -/

/-- `t` is `s` but for the parts that the synthesis and the follow-up write; the registers of the references, of stored data and of the
pair's control and status are as they were. -/
structure FollowKept (s t : State) : Prop where
  rest : t = { s with regs := t.regs, syn := t.syn, outs := t.outs, pair := t.pair, tb := t.tb, fm := t.fm }
  words : ∀ x : Reg, (0x00200000 ≤ x.addr ∧ x.addr < 0x00300000 ∨ 0x02200000 ≤ x.addr ∧ x.addr < 0x02300008) → t.word x = s.word x

/-- Nothing waits for a follow-up: no session, no pass of a calibration, no injected error, no ensemble, no escalation. -/
structure Quiet (s : State) : Prop where
  sess : s.sess = []
  cal : s.cal.queue = [] ∧ s.cal.thresh = [] ∧ s.cal.owed = []
  ecc : s.ecc.injected = [] ∧ s.ecc.track = [] ∧ s.on ECC_INJ_ARM = false
  ens : s.on REF_ENS_CTRL_EN = false ∧ ∀ k < 8, ensState s k = 0
  esc : s.escDue = 0

namespace FollowKept

variable {s t : State}

theorem get (h : FollowKept s t) {f : Fld} (hf : 0x00200000 ≤ f.reg.addr ∧ f.reg.addr < 0x00300000 ∨
    0x02200000 ≤ f.reg.addr ∧ f.reg.addr < 0x02300008) : t.get f = s.get f := by
  unfold State.get
  rw [h.words f.reg hf]

theorem on (h : FollowKept s t) {f : Fld} (hf : 0x00200000 ≤ f.reg.addr ∧ f.reg.addr < 0x00300000 ∨
    0x02200000 ≤ f.reg.addr ∧ f.reg.addr < 0x02300008) : t.on f = s.on f := by
  unfold State.on
  rw [h.get hf]

theorem ite {c : Prop} [Decidable c] {u : State} (h : FollowKept s t) (h' : FollowKept s u) : FollowKept s (if c then t else u) := by
  split
  · exact h
  · exact h'

theorem forEach {α : Type} {l : List α} {g : α → State → State} (h : FollowKept s t) (hg : ∀ a u, FollowKept s u → FollowKept s (g a u)) :
    FollowKept s (forEach l g t) := forEach_keeps (P := FollowKept s) t h hg

section
variable (h : FollowKept s t)
include h

theorem setPair (r : PairRec) : FollowKept s { t with pair := r } := ⟨by rw [h.rest], h.words⟩
theorem setTb (r : TbRec) : FollowKept s { t with tb := r } := ⟨by rw [h.rest], h.words⟩
theorem setFm (r : FmRec) : FollowKept s { t with fm := r } := ⟨by rw [h.rest], h.words⟩

theorem put {f : Fld} (v : Nat) (hf : 0x00300000 ≤ f.reg.addr ∧ f.reg.addr < 0x02200000 ∨ 0x02300008 ≤ f.reg.addr) :
    FollowKept s (t.put f v) where
  rest := by
    unfold State.put State.setWord
    rw [h.rest]
  words x hx := (State.word_put_other t v (by omega)).trans (h.words x hx)

theorem putWide {w : Wide} (v : Nat) (hw : 0x00300000 ≤ w.addr ∧ w.addr + 4 * w.words ≤ 0x02200000) : FollowKept s (t.putWide w v) where
  rest := by
    unfold State.putWide
    rw [State.putWideFrom_eq, h.rest]
  words x hx := (State.word_putWide_other t w v (by omega)).trans (h.words x hx)

/-! ### The steps that write (R198, R338, R566, R579) -/

theorem pairFollowUp : FollowKept s (pairFollowUp t) := by
  have hloop : ∀ {u : State}, FollowKept s u → FollowKept s (loopFollow u) := fun hu =>
    ite (ite hu (hu.put _ (by decide))) (ite hu (ite hu (hu.put _ (by decide))))
  exact hloop (h.setPair _)

theorem tbEnterHoldover : FollowKept s (tbEnterHoldover t) := by
  have hstate : FollowKept s { t.put TB_STATUS_STATE 3 with tb := { t.tb with fineCount := 0 } } := (h.put 3 (by decide)).setTb _
  exact ite hstate (((hstate.putWide _ (by decide)).putWide _ (by decide)).put 0 (by decide))

theorem srcVoidRefresh : FollowKept s (srcVoidRefresh t) := by
  have hvoid := h.put (f := TB_STATUS_SRC_VOID) (if srcVoid t then 1 else 0) (by decide)
  have hlost : ∀ {u : State}, FollowKept s u → FollowKept s (tbSrcLost u) := fun hu => ite hu.tbEnterHoldover hu
  exact ite (hlost (ite (hvoid.put 1 (by decide)) hvoid)) hvoid

theorem decisionsNote (old : State) : FollowKept s (decisionsNote old t) := ite h (h.setFm _)

theorem timerFollow (kind : TimerKind) (k : Nat) : FollowKept s (timerFollow kind k t) :=
  ite (ite ((h.setFm _).setFm _) ((h.setFm _).setFm _)) h

theorem timersFollow : FollowKept s (timersFollow t) :=
  ((h.setFm _).forEach fun k _ hu => hu.forEach fun kind _ hv => hv.timerFollow kind k).forEach
    fun d _ hu => hu.timerFollow .decision d

end

/-! ### The steps without effect (R118, R148, R527, R547, R572) -/

theorem pairChange_eq (h : FollowKept s t) : pairChange s t = t :=
  if_pos ⟨(h.words PAIR_STATUS (by decide)).symm, (h.words PAIR_CTRL (by decide)).symm⟩

theorem sessRefresh_eq (h : FollowKept s t) (hq : Quiet s) : Machine.forEach (committed t) sessRefresh t = t := by
  have hsess : t.sess = [] := by rw [h.rest, hq.sess]
  have hnone : committed t = [] := by
    unfold committed
    rw [hsess]
    rfl
  rw [hnone]
  rfl

theorem ensFollowAll_eq (h : FollowKept s t) (hq : Quiet s) : ensFollowAll t = t := by
  refine forEach_unchanged fun k hk => ?_
  have hlt := List.mem_range.1 hk
  have hoff : ensReceives t k = false := by
    unfold ensReceives
    rw [h.on (by decide), hq.ens.1]
    rfl
  have hstate : ensState t k = 0 :=
    (h.get (by simp only [REF_ENS_MSTAT_STATE, REF_ENS_MSTAT]; omega)).trans (hq.ens.2 k hlt)
  unfold ensFollow
  simp [hoff, hstate]

theorem mateMasked_eq (h : FollowKept s t) (n : Nat) : mateMasked t n = mateMasked s n := by
  unfold mateMasked State.pairFollows State.pairState
  rw [h.on (by decide), h.on (by decide), h.get (by decide), h.get (by decide)]

theorem selectorFollow_eq (h : FollowKept s t) : selectorFollow s t = t := by
  refine if_neg ?_
  simp only [List.any_eq_true, List.mem_range, not_exists, not_and]
  intro n hn
  have hstate : slotState t n = slotState s n := h.get (by simp only [REF_SLOT_STATE_STATE, REF_SLOT_STATE]; omega)
  have hon : slotOn t n = slotOn s n := by
    unfold slotOn
    rw [h.mateMasked_eq, h.on (by simp only [REF_SLOT_CFG_EN, REF_SLOT_CFG]; omega)]
  simp [hstate, hon]

theorem cal_eq (h : FollowKept s t) : t.cal = s.cal := by rw [h.rest]

theorem calFollow_eq (h : FollowKept s t) (hq : Quiet s) : calFollow t = t := by
  obtain ⟨hqueue, hthresh, howed⟩ := hq.cal
  rw [← h.cal_eq] at hqueue hthresh howed
  simp [calFollow, hqueue, hthresh, howed, Machine.forEach]

theorem hwAccess_eq (h : FollowKept s t) (hq : Quiet s) : hwAccess s t = t := by
  obtain ⟨hinjected, htrack, harm⟩ := hq.ecc
  have hecc : t.ecc = s.ecc := by rw [h.rest]
  rw [← hecc] at hinjected htrack
  rw [← h.on (by decide)] at harm
  simp [hwAccess, hinjected, htrack, harm, Machine.forEach]

end FollowKept

theorem msixRaise_cal (old s : State) : (msixRaise old s).cal = s.cal := by
  unfold msixRaise
  split
  · rfl
  · refine forEach_keeps (P := fun t => t.cal = s.cal) s rfl fun v t ht => ?_
    unfold msixFire
    split_ifs <;> exact ht

/-- The follow-up of a quiet state keeps the calibration. -/
theorem settle_cal {s u : State} (h : FollowKept s u) (hq : Quiet s) : (settle s u).cal = s.cal := by
  have h1 := h.pairFollowUp.srcVoidRefresh
  have h2 := (h1.decisionsNote s).timersFollow
  have hesc : (timersFollow (decisionsNote s (srcVoidRefresh (pairFollowUp u)))).escDue = 0 := by rw [h2.rest, hq.esc]
  change (finish s u).cal = s.cal
  unfold finish
  dsimp only
  rw [h.pairFollowUp.pairChange_eq, h1.sessRefresh_eq hq, h2.ensFollowAll_eq hq, h2.selectorFollow_eq, h2.calFollow_eq hq, h2.hwAccess_eq hq,
    msixRaise_cal]
  split_ifs
  · rw [hesc]
    exact h2.cal_eq
  · rw [hesc]
    exact h2.cal_eq

/-! ### The loss of an aux under a low phase (R71, R75, R519) -/

/-- RUNNING, the Capstan and aux 0 locked; CLKOUT0, enabled on aux 0, is in a low phase and has a table waiting for its next rising edge. -/
def auxOutputLow : State :=
  { ((((((State.reset.put GLB_STATE_STATE 3).put SYN_STATUS_LOCKED 1).put (SYN_AUX_CFG_EN 0) 1).put SYN_STATUS_AUX0_LOCKED 1).put
      (OUT_CFG_SRC 0) 1).putBit OUT_ENABLE_EN 0 true) with outs := [(0, { phase := .low, src := 1, table := some [1] })] }

theorem quiet_auxOutputLow : Quiet auxOutputLow := by
  refine ⟨rfl, ⟨rfl, rfl, rfl⟩, ⟨rfl, rfl, ?_⟩, ⟨?_, ?_⟩, rfl⟩ <;> decide +kernel

/-- The loss stops the output, which takes the table at once: the calibration holds it. -/
theorem auxLoss_auxOutputLow_rotator : (settle auxOutputLow (auxLoss 0 auxOutputLow)).cal.rotator = [(0, [1])] := by decide +kernel

/-- Refutes O60, by the clause of an aux's loss of lock: an output on that aux which the loss stops in its low phase takes the linearity
table that waits for it, and the calibration, outside the block, changes with it (R519). -/
theorem not_framesOfTheBlocks : ¬ Obligations.FramesOfTheBlocks := by
  unfold Obligations.FramesOfTheBlocks
  rintro ⟨-, -, -, -, -, -, -, -, -, hclocks, -⟩
  have hserved : Served auxOutputLow := by
    unfold Served
    decide +kernel
  obtain ⟨u, hexec, hrest, hwords⟩ := hclocks 0 0 auxOutputLow hserved (.auxLossOfLock 0) (by simp)
  have hkept : FollowKept auxOutputLow u := ⟨by rw [hrest], fun x hx => hwords x (by omega)⟩
  have hrun : exec (.auxLossOfLock 0) auxOutputLow = .next (settle auxOutputLow (auxLoss 0 auxOutputLow)) := run_eq hserved.1 rfl
  have hsame := Host.Outcome.next.inj (hexec.symm.trans hrun)
  have hrotator := settle_cal hkept quiet_auxOutputLow
  rw [hsame] at hrotator
  exact List.cons_ne_nil _ _ (auxLoss_auxOutputLow_rotator.symm.trans (congrArg CalRec.rotator hrotator))

end Sys2Proof.Machine
end

section
/-!
PROOFS. The registers of a lane: each of its fields has one place in the lane's own registers, so that two of them that share no bit on lane
0 share none on any; and what the geometry of the lanes reads (R207, R250).
-/

namespace Sys2Proof.Machine

open Sys2Proof

/-! ### Fields of one lane -/

/-- The field of lane `n` at the place that a field of lane 0 has. -/
def Fld.ofLane (f : Fld) (n : Nat) : Fld := ⟨⟨f.reg.addr + 0x1000 * n, f.reg.reset⟩, f.lsb, f.width⟩

/-- `Fld.Apart`, to be evaluated. -/
def Fld.apart (f g : Fld) : Bool :=
  f.reg.addr != g.reg.addr ||
    (f.reg == g.reg && decide (f.lsb + f.width ≤ 32) && (decide (f.lsb + f.width ≤ g.lsb) || decide (g.lsb + g.width ≤ f.lsb)))

theorem Fld.apart_iff {f g : Fld} : f.apart g = true ↔ f.Apart g := by
  simp [Fld.apart, Fld.Apart, and_assoc]

/-- Two fields that every lane has, each at one place of the lane's registers, share no bit. -/
structure LanesApart (f g : Nat → Fld) : Prop where
  left : ∀ n, f n = (f 0).ofLane n
  right : ∀ n, g n = (g 0).ofLane n
  apart : (f 0).apart (g 0) = true

theorem LanesApart.apart_at {f g : Nat → Fld} (h : LanesApart f g) (n : Nat) : (f n).Apart (g n) := by
  rw [h.left n, h.right n]
  rcases Fld.apart_iff.1 h.apart with ha | ⟨hr, hb⟩
  · exact .inl fun e => ha (Nat.add_right_cancel e)
  · exact .inr ⟨by rw [Fld.ofLane, Fld.ofLane, hr], hb⟩

/-- A lane's field keeps its value when another one of the lane is written. -/
theorem State.get_put_lane (s : State) {f g : Nat → Fld} (n v : Nat) (h : LanesApart f g) :
    (s.put (g n) v).get (f n) = s.get (f n) := State.get_put_apart s v (h.apart_at n)

theorem State.on_put_lane (s : State) {f g : Nat → Fld} (n v : Nat) (h : LanesApart f g) :
    (s.put (g n) v).on (f n) = s.on (f n) := by
  unfold State.on
  rw [State.get_put_lane s n v h]

/-- A field of 32 bits at most reads what it holds of the value put. -/
theorem State.get_put_fits (s : State) {f : Fld} {v : Nat} (hf : f.lsb + f.width ≤ 32) (hv : v < 2 ^ f.width) : (s.put f v).get f = v := by
  rw [State.get_put_same s f v hf, Nat.mod_eq_of_lt hv]

theorem State.on_put_same (s : State) {f : Fld} {v : Nat} (hf : f.lsb + f.width ≤ 32) (hv : v < 2 ^ f.width) :
    (s.put f v).on f = (v != 0) := by
  unfold State.on
  rw [State.get_put_fits s hf hv]

/-- An event bit that is set is on. -/
theorem State.on_ev_same (s : State) {f : Fld} (hf : f.lsb + f.width ≤ 32) (hw : 0 < f.width) : (s.ev f).on f = true := by
  unfold State.on
  rw [State.get_ev_same s f hf hw]
  rfl

/-! ### Records beside the registers -/

theorem State.on_of_regs {s t : State} (h : t.regs = s.regs) (f : Fld) : t.on f = s.on f := by
  unfold State.on
  rw [State.get_of_regs h]

theorem State.laneRec_of_lanes {s t : State} (h : t.lanes = s.lanes) (n : Nat) : t.laneRec n = s.laneRec n := by
  unfold State.laneRec
  rw [h]

theorem State.get_setLane (s : State) (n : Nat) (r : LaneRec) (f : Fld) : (s.setLane n r).get f = s.get f := State.get_of_regs rfl f

theorem State.on_setLane (s : State) (n : Nat) (r : LaneRec) (f : Fld) : (s.setLane n r).on f = s.on f := State.on_of_regs rfl f

theorem State.laneRec_put (s : State) (f : Fld) (v n : Nat) : (s.put f v).laneRec n = s.laneRec n := State.laneRec_of_lanes rfl n

/-! ### Geometry (R207) -/

/-- The rates stand in the quads' registers, which lie above those of the lanes. -/
theorem State.rate_put (s : State) {f : Fld} (v n : Nat) (hf : f.reg.addr < 0x00450000) : (s.put f v).rate n = s.rate n := by
  unfold State.rate
  rw [State.get_put_reg s (f := LN_QUAD_CFG_RATE (n / 4)) v (by simp only [LN_QUAD_CFG_RATE, LN_QUAD_CFG]; omega)]

end Sys2Proof.Machine
end

section
/-!
PROOFS. The states of a lane: what the writes of LN_CTRL, the receiver's events and the lane's timers make of it (R212 to R225).
-/

namespace Sys2Proof.Machine

open Sys2Proof

/-! ### The enable (R211, R212) -/

theorem namesOneWord_laneCtrl (n : Fin 65) : namesOneWord (LN_CTRL n) .LN_CTRL n 0 = true := by
  revert n
  decide +kernel

theorem plain_laneCtrlEn (n : Fin 65) : (LN_CTRL_EN n).plain = true := by
  revert n
  decide +kernel

theorem regEffect_laneCtrl {R : RegWrite} (c : State) (hid : R.id = .LN_CTRL) : regEffect R c = laneWritten R c := by
  unfold regEffect
  rw [hid]

theorem laneCtrl_below (n : Fin 65) : (LN_CTRL n).addr < 0x026FFFFC := by
  simp only [LN_CTRL]
  omega

/-- A row that writes EN: the write stands with that value, and the lane acts. -/
theorem laneEn_stands {m : BusMaster} {n : Fin 65} {x : Nat} {v : Word} {s : State}
    (hw : Writable m (LN_CTRL n) (withField (LN_CTRL_EN n) x v) s) : ∃ R c,
    Stands m .LN_CTRL n 0 (LN_CTRL n).one (withField (LN_CTRL_EN n) x v).toNat s R c ∧ R.now (LN_CTRL_EN n) = x % 2 ∧
      run (busSet m (LN_CTRL_EN n) x v) s = .next (settle s (laneWritten R c)) := by
  obtain ⟨R, c, hst, hnow, hrun⟩ := Writable.stands_field (f := LN_CTRL_EN n) hw (namesOneWord_laneCtrl n) (plain_laneCtrlEn n) rfl
    (Nat.le_of_ble_eq_true rfl) (laneCtrl_below n) (by decide)
  obtain ⟨-, hid, -, -, -⟩ := hst.who
  exact ⟨R, c, hst, hnow, by rw [← regEffect_laneCtrl c hid]; exact hrun⟩

/-! ### A lane that takes a state (R212) -/

theorem laneState_put (s : State) {g : Nat → Fld} (n v : Nat) (h : LanesApart LN_STATUS_STATE g) :
    laneState (s.put (g n) v) n = laneState s n := State.get_put_lane s n v h

theorem laneState_setLane (s : State) (n k : Nat) (r : LaneRec) : laneState (s.setLane k r) n = laneState s n := State.get_setLane s k r _

theorem laneState_put_same (s : State) (n : Nat) {st : Nat} (h : st < 8) : laneState (s.put (LN_STATUS_STATE n) st) n = st :=
  State.get_put_fits s (Nat.le_of_ble_eq_true rfl) h

/-- A lane that was not LINKED takes one of the states in which its receiver goes on with the signal. -/
theorem laneSet_onward {n st : Nat} {s : State} (h5 : laneState s n ≠ 5) (h : st ≠ 0 ∧ st ≠ 1 ∧ st ≠ 6) :
    laneSet n st s = s.put (LN_STATUS_STATE n) st := by
  simp [laneSet, h5, h]

/-- One that was not LINKED and has no CDR lock to lose takes any state alone. -/
theorem laneSet_unlocked {n st : Nat} {s : State} (h5 : laneState s n ≠ 5) (hc : s.cdrLock n = false) :
    laneSet n st s = s.put (LN_STATUS_STATE n) st := by
  have hcdr : (s.put (LN_STATUS_STATE n) st).cdrLock n = false := by
    rw [← hc]
    exact State.on_put_lane s n st ⟨fun _ => rfl, fun _ => rfl, rfl⟩
  simp [laneSet, h5, cdrSet, hcdr]

/-! ### Taps (R224) -/

theorem lanePreset_eq (n : Nat) (s : State) :
    lanePreset n s = tapsPut n (s.get (LN_TX_PRESET_PRE n)) (s.get (LN_TX_PRESET_MAIN n)) (s.get (LN_TX_PRESET_POST n)) s := rfl

theorem tapsPut_laneRec (n pre main post k : Nat) (s : State) : (tapsPut n pre main post s).laneRec k = s.laneRec k :=
  State.laneRec_of_lanes rfl k

/-- The taps read what fits their fields. -/
theorem tapsPut_shows {n pre main post : Nat} (s : State) (hpre : pre < 32) (hmain : main < 64) (hpost : post < 32) :
    (tapsPut n pre main post s).get (LN_TX_CUR_PRE n) = pre ∧ (tapsPut n pre main post s).get (LN_TX_CUR_MAIN n) = main ∧
      (tapsPut n pre main post s).get (LN_TX_CUR_POST n) = post := by
  unfold tapsPut
  refine ⟨?_, ?_, State.get_put_fits _ (Nat.le_of_ble_eq_true rfl) hpost⟩
  · rw [State.get_put_lane (f := LN_TX_CUR_PRE) _ n _ ⟨fun _ => rfl, fun _ => rfl, rfl⟩,
      State.get_put_lane (f := LN_TX_CUR_PRE) _ n _ ⟨fun _ => rfl, fun _ => rfl, rfl⟩]
    exact State.get_put_fits _ (Nat.le_of_ble_eq_true rfl) hpre
  · rw [State.get_put_lane (f := LN_TX_CUR_MAIN) _ n _ ⟨fun _ => rfl, fun _ => rfl, rfl⟩]
    exact State.get_put_fits _ (Nat.le_of_ble_eq_true rfl) hmain

theorem lanePreset_shows (n : Nat) (s : State) : (lanePreset n s).get (LN_TX_CUR_PRE n) = s.get (LN_TX_PRESET_PRE n) ∧
    (lanePreset n s).get (LN_TX_CUR_MAIN n) = s.get (LN_TX_PRESET_MAIN n) ∧
      (lanePreset n s).get (LN_TX_CUR_POST n) = s.get (LN_TX_PRESET_POST n) :=
  tapsPut_shows s (s.get_lt (LN_TX_PRESET_PRE n)) (s.get_lt (LN_TX_PRESET_MAIN n)) (s.get_lt (LN_TX_PRESET_POST n))

/-! ### Signal and CDR lock (R212, R216, R221) -/

/-- The signal is there: LOS clears, the peaking starts at its configured value, and the attempt trains where it is to (R221, R222). -/
def signalTaken (n : Nat) (s : State) : State :=
  let t := (s.put (LN_STATUS_LOS n) 0).put (LN_EQ_PEAK_CUR n) (s.get (LN_EQ_PEAK n))
  t.setLane n { t.laneRec n with train := t.on (LN_CTRL_TRAIN_EN n) && laneRate t n != 0, gaveUp := false }

theorem signalTaken_state (n : Nat) (s : State) : laneState (signalTaken n s) n = laneState s n := by
  unfold signalTaken
  rw [laneState_setLane, laneState_put _ n _ ⟨fun _ => rfl, fun _ => rfl, rfl⟩, laneState_put _ n _ ⟨fun _ => rfl, fun _ => rfl, rfl⟩]

theorem laneRate_put (s : State) {f : Fld} (v n : Nat) (hf : f.reg.addr < 0x00450000) : laneRate (s.put f v) n = laneRate s n := by
  unfold laneRate
  rw [State.rate_put s v n hf]

theorem signalTaken_train {n : Nat} (hn : n < 65) (s : State) :
    ((signalTaken n s).laneRec n).train = (s.on (LN_CTRL_TRAIN_EN n) && laneRate s n != 0) := by
  unfold signalTaken
  rw [State.setLane_laneRec]
  dsimp only
  rw [State.on_put_lane (f := LN_CTRL_TRAIN_EN) _ n _ ⟨fun _ => rfl, fun _ => rfl, rfl⟩,
    State.on_put_lane (f := LN_CTRL_TRAIN_EN) _ n _ ⟨fun _ => rfl, fun _ => rfl, rfl⟩,
    laneRate_put _ _ _ (by simp only [LN_EQ_PEAK_CUR, LN_EQ]; omega), laneRate_put _ _ _ (by simp only [LN_STATUS_LOS, LN_STATUS]; omega)]

theorem laneSignal_detected {n : Nat} {s : State} (h1 : laneState s n = 1) (hl : (laneLooped s n && laneIdle s n) = false) :
    laneSignal n s = (signalTaken n s).put (LN_STATUS_STATE n) 2 := by
  rw [← laneSet_onward (by rw [signalTaken_state, h1]; decide) (by decide)]
  unfold laneSignal
  exact if_neg (by simpa [h1] using hl)

theorem laneSignal_shows {n : Nat} (hn : n < 65) (s : State) : let u := (signalTaken n s).put (LN_STATUS_STATE n) 2
    laneState u n = 2 ∧ u.on (LN_STATUS_LOS n) = false ∧ u.get (LN_EQ_PEAK_CUR n) = s.get (LN_EQ_PEAK n) ∧
      (u.laneRec n).train = (s.on (LN_CTRL_TRAIN_EN n) && laneRate s n != 0) ∧ (u.laneRec n).gaveUp = false := by
  dsimp only
  rw [State.laneRec_put, signalTaken_train hn, State.on_put_lane (f := LN_STATUS_LOS) _ n _ ⟨fun _ => rfl, fun _ => rfl, rfl⟩,
    State.get_put_lane (f := LN_EQ_PEAK_CUR) _ n _ ⟨fun _ => rfl, fun _ => rfl, rfl⟩]
  unfold signalTaken
  rw [State.on_setLane, State.get_setLane, State.setLane_laneRec,
    State.on_put_lane (f := LN_STATUS_LOS) _ n _ ⟨fun _ => rfl, fun _ => rfl, rfl⟩]
  exact ⟨laneState_put_same _ n (by decide), State.on_put_same _ (Nat.le_of_ble_eq_true rfl) (by decide : 0 < 2),
    State.get_put_fits _ (Nat.le_of_ble_eq_true rfl) (s.get_lt (LN_EQ_PEAK n)), rfl, rfl⟩

theorem laneCdr_locked {n : Nat} {s : State} (h2 : laneState s n = 2) :
    laneCdr n s = laneSet n (if (s.laneRec n).train then 4 else 3) (cdrSet n true (s.put (LN_STATUS_LOS n) 0)) :=
  if_neg (by simp [h2])

/-! ### Failures (R212, R214) -/

/-- A failure below the eighth in a row is counted, and the back-off doubles (R214). -/
def backedOff (n : Nat) (s : State) : State :=
  (s.setLane n { s.laneRec n with fails := (s.laneRec n).fails + 1 }).put (LN_STATUS_BACKOFF n)
    (if s.get (LN_STATUS_BACKOFF n) = 0 then 10 else min (2 * s.get (LN_STATUS_BACKOFF n)) 1000)

theorem laneFail_below {n : Nat} {s : State} (h : (s.laneRec n).fails < 7) : laneFail n s = laneDetect n (backedOff n s) :=
  if_pos (by omega)

theorem backedOff_fits (n : Nat) (s : State) :
    (backedOff n s).get (LN_STATUS_BACKOFF n) =
      (if s.get (LN_STATUS_BACKOFF n) = 0 then 10 else min (2 * s.get (LN_STATUS_BACKOFF n)) 1000) :=
  State.get_put_fits _ (Nat.le_of_ble_eq_true rfl) (show _ < 1024 by split <;> omega)

/-- A timeout of the CDR below the eighth failure: SIGNAL_DETECT again, with the failure shown (R212, R214). -/
theorem laneCdrTimeout_fails {n : Nat} {s : State} (h2 : laneState s n = 2) (hc : s.cdrLock n = false) (hf : (s.laneRec n).fails < 7) :
    laneCdrTimeout n s = lanePreset n ((backedOff n (s.ev (LN_EVENT_CDR_TIMEOUT n))).put (LN_STATUS_STATE n) 1) := by
  have hst : laneState (backedOff n (s.ev (LN_EVENT_CDR_TIMEOUT n))) n = 2 := by
    unfold backedOff
    rw [laneState_put _ n _ ⟨fun _ => rfl, fun _ => rfl, rfl⟩, laneState_setLane, State.ev_eq,
      laneState_put _ n _ ⟨fun _ => rfl, fun _ => rfl, rfl⟩, h2]
  have hcdr : (backedOff n (s.ev (LN_EVENT_CDR_TIMEOUT n))).cdrLock n = false := by
    rw [← hc]
    unfold backedOff State.cdrLock
    rw [State.on_put_lane (f := LN_STATUS_CDR_LOCKED) _ n _ ⟨fun _ => rfl, fun _ => rfl, rfl⟩, State.on_setLane, State.ev_eq,
      State.on_put_lane (f := LN_STATUS_CDR_LOCKED) _ n _ ⟨fun _ => rfl, fun _ => rfl, rfl⟩]
  rw [← laneSet_unlocked (by rw [hst]; decide) hcdr]
  unfold laneCdrTimeout
  rw [if_neg (by simp [h2])]
  exact laneFail_below hf

theorem laneCdrTimeout_shows (n : Nat) (s : State) :
    let u := lanePreset n ((backedOff n (s.ev (LN_EVENT_CDR_TIMEOUT n))).put (LN_STATUS_STATE n) 1)
    laneState u n = 1 ∧ u.on (LN_EVENT_CDR_TIMEOUT n) = true ∧ (u.laneRec n).fails = (s.laneRec n).fails + 1 ∧
      u.get (LN_STATUS_BACKOFF n) = (if s.get (LN_STATUS_BACKOFF n) = 0 then 10 else min (2 * s.get (LN_STATUS_BACKOFF n)) 1000) ∧
      u.get (LN_TX_CUR_MAIN n) = s.get (LN_TX_PRESET_MAIN n) := by
  have hback := backedOff_fits n (s.ev (LN_EVENT_CDR_TIMEOUT n))
  refine ⟨?_, ?_, ?_, ?_, (lanePreset_shows n _).2.1.trans ?_⟩
  · refine Eq.trans ?_ (laneState_put_same (backedOff n (s.ev (LN_EVENT_CDR_TIMEOUT n))) n (st := 1) (by decide))
    simp (disch := exact ⟨fun _ => rfl, fun _ => rfl, rfl⟩) only [lanePreset, laneState_put]
  · refine Eq.trans ?_ (State.on_ev_same s (f := LN_EVENT_CDR_TIMEOUT n) (Nat.le_of_ble_eq_true rfl) Nat.one_pos)
    simp (disch := exact ⟨fun _ => rfl, fun _ => rfl, rfl⟩) only [lanePreset, backedOff, State.ev_eq, State.on_put_lane, State.on_setLane]
  · rw [lanePreset_eq, tapsPut_laneRec, State.laneRec_put, backedOff, State.laneRec_put, State.setLane_laneRec, State.ev_eq,
      State.laneRec_put]
  · simp (disch := exact ⟨fun _ => rfl, fun _ => rfl, rfl⟩) only [lanePreset, State.ev_eq, State.get_put_lane] at hback ⊢
    exact hback
  · simp (disch := exact ⟨fun _ => rfl, fun _ => rfl, rfl⟩) only [backedOff, State.ev_eq, State.get_put_lane, State.get_setLane]

theorem laneCdrTimeout_late {n : Nat} {s : State} (h2 : laneState s n = 2) :
    laneCdrTimeout n s = laneFail n (s.ev (LN_EVENT_CDR_TIMEOUT n)) := if_neg (by simp [h2])

theorem laneAlignTimeout_late {n : Nat} {s : State} (h3 : laneState s n = 3) :
    laneAlignTimeout n s = laneFail n (s.ev (LN_EVENT_ALIGN_TIMEOUT n)) := if_neg (by simp [h3])

/-! ### Training (R222 to R225) -/

theorem trainFrame_eq (n : Nat) (t : TrainFrame) (s : State) : let x := (tapsAsked s n t (Config.trainInit s.freeNo)).1
    (trainFrame n t s).regs = (tapsPut n x.1 x.2.1 x.2.2 s).regs := rfl

/-- A frame's taps, as far as they fit their fields. -/
theorem trainFrame_shows {n pre main post : Nat} {t : TrainFrame} {s : State}
    (h : (tapsAsked s n t (Config.trainInit s.freeNo)).1 = (pre, main, post)) (hpre : pre < 32) (hmain : main < 64) (hpost : post < 32) :
    (trainFrame n t s).get (LN_TX_CUR_PRE n) = pre ∧ (trainFrame n t s).get (LN_TX_CUR_MAIN n) = main ∧
      (trainFrame n t s).get (LN_TX_CUR_POST n) = post := by
  have hregs : (trainFrame n t s).regs = (tapsPut n pre main post s).regs := by
    rw [trainFrame_eq, h]
  rw [State.get_of_regs hregs, State.get_of_regs hregs, State.get_of_regs hregs]
  exact tapsPut_shows s hpre hmain hpost

theorem tapsAsked_preset {n : Nat} {t : TrainFrame} (s : State) (h : t.preset = true) (init : Nat) :
    (tapsAsked s n t init).1 = (0, 63, 0) := by
  simp [tapsAsked, h]

theorem tapsAsked_mainDown {n : Nat} {t : TrainFrame} (s : State) (hp : t.preset = false) (hi : t.initial = false)
    (hpre : t.pre = .hold) (hpost : t.post = .hold) (hmain : t.main = .decrement) (init : Nat) :
    (tapsAsked s n t init).1 = (s.get (LN_TX_CUR_PRE n), s.get (LN_TX_CUR_MAIN n) - 1, s.get (LN_TX_CUR_POST n)) := by
  have hdown : (mainMove (decide (s.get (LN_TX_CUR_PRE n) + s.get (LN_TX_CUR_MAIN n) + s.get (LN_TX_CUR_POST n) < 63))
      (s.get (LN_TX_CUR_MAIN n)) .decrement).1 = s.get (LN_TX_CUR_MAIN n) - 1 := by
    unfold mainMove
    dsimp only
    split
    · omega
    · rfl
  simp [tapsAsked, hp, hi, hpre, hpost, hmain, sideMove, hdown]

/-- A frame moves the lane's taps alone, so that a lane in loop-back stays in it. -/
theorem trainFrame_looped (n : Nat) (t : TrainFrame) (s : State) : laneLooped (trainFrame n t s) n = laneLooped s n := by
  have hkept : (trainFrame n t s).get (LN_CTRL_LOOPBACK n) = s.get (LN_CTRL_LOOPBACK n) := by
    rw [State.get_of_regs (trainFrame_eq n t s)]
    simp (disch := exact ⟨fun _ => rfl, fun _ => rfl, rfl⟩) only [tapsPut, State.get_put_lane]
  unfold laneLooped
  rw [hkept]

theorem ownTrain_looped (n : Nat) (ready : Bool) (s : State) : laneLooped (ownTrain n ready s) n = laneLooped s n := by
  unfold ownTrain
  rw [trainFrame_looped]
  rfl

theorem laneTrained_ends {n : Nat} {l : List TrainFrame} {t : TrainFrame} {s : State} (h4 : laneState s n = 4) (hl : l.getLast? = some t) :
    laneTrained n l s = (let u := forEach l (fun t s => if laneLooped s n then ownTrain n t.ready s else trainFrame n t s) s
      if t.ready then laneSet n 3 u else u) := by
  unfold laneTrained
  rw [if_neg (by simp [h4]), hl]

theorem framesTaken_line {n : Nat} {l : List TrainFrame} {s : State} (h : laneLooped s n = false) :
    forEach l (fun t s => if laneLooped s n then ownTrain n t.ready s else trainFrame n t s) s = forEach l (trainFrame n) s :=
  forEach_congr (P := fun s => laneLooped s n = false) h (fun _ _ hu => if_neg (by simp [hu]))
    (fun t u hu => (trainFrame_looped n t u).trans hu)

theorem framesTaken_own {n : Nat} {l : List TrainFrame} {s : State} (h : laneLooped s n = true) :
    forEach l (fun t s => if laneLooped s n then ownTrain n t.ready s else trainFrame n t s) s =
      forEach l (fun x => ownTrain n x.ready) s :=
  forEach_congr (P := fun s => laneLooped s n = true) h (fun _ _ hu => if_pos hu) (fun t u hu => (ownTrain_looped n t.ready u).trans hu)

/-- Training is given up, with its event and its count (R225). -/
def trainingGivenUp (n : Nat) (s : State) : State :=
  let t := (s.ev (LN_EVENT_TRAIN_FALLBACK n)).count (LN_CNT0_TRAIN_FALLBACK n)
  t.setLane n { t.laneRec n with gaveUp := true }

theorem trainingGivenUp_presets (n : Nat) (s : State) : (trainingGivenUp n s).get (LN_TX_PRESET_PRE n) = s.get (LN_TX_PRESET_PRE n) ∧
    (trainingGivenUp n s).get (LN_TX_PRESET_MAIN n) = s.get (LN_TX_PRESET_MAIN n) ∧
      (trainingGivenUp n s).get (LN_TX_PRESET_POST n) = s.get (LN_TX_PRESET_POST n) := by
  simp (disch := exact ⟨fun _ => rfl, fun _ => rfl, rfl⟩) only [trainingGivenUp, State.ev_eq, State.count_eq, State.get_put_lane,
    State.get_setLane, and_self]

theorem laneTrainFallback_falls {n : Nat} {s : State} (h4 : laneState s n = 4) :
    laneTrainFallback n s = (lanePreset n (trainingGivenUp n s)).put (LN_STATUS_STATE n) 3 := by
  have hst : laneState (lanePreset n (trainingGivenUp n s)) n = 4 := by
    rw [← h4]
    simp (disch := exact ⟨fun _ => rfl, fun _ => rfl, rfl⟩) only [lanePreset, trainingGivenUp, State.ev_eq, State.count_eq, laneState_put,
      laneState_setLane]
  rw [← laneSet_onward (by rw [hst]; decide) (by decide)]
  exact if_neg (by simp [h4])

theorem laneTrainFallback_shows (n : Nat) (s : State) : let u := (lanePreset n (trainingGivenUp n s)).put (LN_STATUS_STATE n) 3
    laneState u n = 3 ∧ u.on (LN_EVENT_TRAIN_FALLBACK n) = true ∧ u.get (LN_TX_CUR_PRE n) = s.get (LN_TX_PRESET_PRE n) ∧
      u.get (LN_TX_CUR_MAIN n) = s.get (LN_TX_PRESET_MAIN n) ∧ u.get (LN_TX_CUR_POST n) = s.get (LN_TX_PRESET_POST n) ∧
      (u.laneRec n).gaveUp = true := by
  obtain ⟨hpre, hmain, hpost⟩ := lanePreset_shows n (trainingGivenUp n s)
  obtain ⟨hpre', hmain', hpost'⟩ := trainingGivenUp_presets n s
  refine ⟨laneState_put_same _ n (by decide), ?_, ?_, ?_, ?_, ?_⟩
  · refine Eq.trans ?_ (State.on_ev_same s (f := LN_EVENT_TRAIN_FALLBACK n) (Nat.le_of_ble_eq_true rfl) Nat.one_pos)
    simp (disch := exact ⟨fun _ => rfl, fun _ => rfl, rfl⟩) only [lanePreset, trainingGivenUp, State.ev_eq, State.count_eq,
      State.on_put_lane, State.on_setLane]
  · rw [State.get_put_lane (f := LN_TX_CUR_PRE) _ n _ ⟨fun _ => rfl, fun _ => rfl, rfl⟩, hpre, hpre']
  · rw [State.get_put_lane (f := LN_TX_CUR_MAIN) _ n _ ⟨fun _ => rfl, fun _ => rfl, rfl⟩, hmain, hmain']
  · rw [State.get_put_lane (f := LN_TX_CUR_POST) _ n _ ⟨fun _ => rfl, fun _ => rfl, rfl⟩, hpost, hpost']
  · rw [State.laneRec_put, lanePreset_eq, tapsPut_laneRec, trainingGivenUp, State.setLane_laneRec]

/-! ### Losses (R212, R244) -/

theorem laneLoss_looped {n : Nat} {s : State} (h : (laneLooped s n && !laneIdle s n) = true) : laneLoss n .signal s = s :=
  if_pos (by simpa using h)

/-- A signal that is lost outside OFF shows as LOS. -/
def signalMissed (n : Nat) (c : LossCause) (s : State) : State :=
  if c = .signal ∧ laneState s n ≠ 0 then s.put (LN_STATUS_LOS n) 1 else s

theorem signalMissed_state (n : Nat) (c : LossCause) (s : State) : laneState (signalMissed n c s) n = laneState s n := by
  unfold signalMissed
  split
  · exact laneState_put s n 1 ⟨fun _ => rfl, fun _ => rfl, rfl⟩
  · rfl

theorem laneLoss_taken {n : Nat} {c : LossCause} {s : State} (h : c = .signal → (laneLooped s n && !laneIdle s n) = false) :
    laneLoss n c s = (let t := signalMissed n c s
      if laneState s n = 4 ∧ c = .signal then laneFail n (t.ev (LN_EVENT_TRAIN_LOS n))
      else if laneState s n = 5 then laneDetect n (laneLost n t) else t) := by
  unfold laneLoss
  rw [if_neg (by rintro ⟨hl, hc, hi⟩; simpa [hl, hi] using h hc)]
  change (let t := signalMissed n c s
    if laneState t n = 4 ∧ c = .signal then laneFail n (t.ev (LN_EVENT_TRAIN_LOS n))
    else if laneState t n = 5 then laneDetect n (laneLost n t) else t) = _
  dsimp only
  rw [signalMissed_state]

theorem laneLoss_training {n : Nat} {s : State} (hl : (laneLooped s n && !laneIdle s n) = false) (h4 : laneState s n = 4) :
    laneLoss n .signal s = laneFail n ((s.put (LN_STATUS_LOS n) 1).ev (LN_EVENT_TRAIN_LOS n)) := by
  rw [laneLoss_taken fun _ => hl]
  simp [signalMissed, h4]

theorem laneLoss_linked {n : Nat} {c : LossCause} {s : State} (hl : c = .signal → (laneLooped s n && !laneIdle s n) = false)
    (h5 : laneState s n = 5) : laneLoss n c s = laneDetect n (laneLost n (signalMissed n c s)) := by
  rw [laneLoss_taken hl]
  simp [h5]

/-- In the other states a loss shows LOS alone, if anything. -/
theorem laneLoss_unlinked {n : Nat} {c : LossCause} {s : State} (hl : c = .signal → (laneLooped s n && !laneIdle s n) = false)
    (h4 : laneState s n ≠ 4) (h5 : laneState s n ≠ 5) : laneLoss n c s = signalMissed n c s := by
  rw [laneLoss_taken hl]
  simp [h4, h5]

theorem laneLoss_unlinked_shows {n : Nat} {c : LossCause} {s : State} (h4 : laneState s n ≠ 4) (h5 : laneState s n ≠ 5) :
    laneState (laneLoss n c s) n = laneState s n ∧ (laneLoss n c s).lanes = s.lanes ∧
      (c = .signal → laneState s n ≠ 0 → (laneLooped s n && !laneIdle s n) = false → (laneLoss n c s).on (LN_STATUS_LOS n) = true) := by
  by_cases hl : c = .signal → (laneLooped s n && !laneIdle s n) = false
  · rw [laneLoss_unlinked hl h4 h5]
    refine ⟨signalMissed_state n c s, ?_, fun hc h0 _ => ?_⟩
    · unfold signalMissed
      split
      · exact State.put_lanes s _ _
      · rfl
    · rw [signalMissed, if_pos ⟨hc, h0⟩]
      exact State.on_put_same s (Nat.le_of_ble_eq_true rfl) (by decide : 1 < 2)
  · obtain ⟨rfl, hlooped⟩ := Classical.not_imp.1 hl
    rw [laneLoss_looped (by simpa using hlooped)]
    exact ⟨rfl, rfl, fun _ _ h => absurd h hlooped⟩

/-! ### Alignment (R217, R219, R220, R237) -/

theorem laneAligned_unchanged {n : Nat} {lat : List LaneLat} {s : State}
    (h : lat.length ≠ (laneGroup s n).length ∨ ∃ k ∈ laneGroup s n, laneState s k ≠ 3) : laneAligned n lat s = s := by
  refine if_pos ?_
  rcases h with h | ⟨k, hk, h3⟩
  · simp [h]
  · have hall : (laneGroup s n).all (fun m => laneState s m == 3) = false :=
      List.all_eq_false.2 ⟨k, hk, by simpa using h3⟩
    simp [hall]

theorem laneAligned_links {n : Nat} {lat : List LaneLat} {s : State} (hlen : lat.length = (laneGroup s n).length)
    (h3 : ∀ k ∈ laneGroup s n, laneState s k = 3) (hsk : ∀ l ∈ lat, l.deskew.val ≤ 4800) :
    laneAligned n lat s = (let t := forEach ((laneGroup s n).zip lat) (fun e s => laneLink e.1 e.2 s) s
      portEval (laneOwner t n) t) := by
  have hall : (laneGroup s n).all (fun m => laneState s m == 3) = true := List.all_eq_true.2 fun k hk => by simp [h3 k hk]
  have hany : lat.any (fun l => decide (4800 < l.deskew.val)) = false :=
    List.any_eq_false.2 fun l hl => by simpa using hsk l hl
  refine if_neg ?_
  simp [hlen, hall, hany]

/-- A lane enters LINKED with its signal, its elastic buffer in the middle, and its clocking not yet judged (R225, R226, R228, R235). -/
def linkEntered (n : Nat) (s : State) : State :=
  let t := (((s.put (LN_STATUS_LOS n) 0).put (LN_STATUS_STATE n) 5).putB (LN_STATUS_UNTRAINED n) (s.laneRec n).gaveUp).put (LN_EB_FILL n) 16
  let u := (t.put (LN_STATUS_SYNT_OK n) 0).put (LN_STATUS_CLOCK_EFF n) 0
  u.setLane n { s.laneRec n with fails := 0, fellBack := false, passRun := 0, failRun := 0, winFrom := u.clk }

theorem laneLink_eq (n : Nat) (l : LaneLat) (s : State) : laneLink n l s = laneRecord n l (linkEntered n s) := rfl

theorem laneRecord_laneRec (n k : Nat) (l : LaneLat) (s : State) : (laneRecord n l s).laneRec k = s.laneRec k :=
  State.laneRec_of_lanes rfl k

theorem laneLink_shows (n : Nat) (l : LaneLat) (s : State) : laneState (laneLink n l s) n = 5 ∧ ((laneLink n l s).laneRec n).fails = 0 ∧
    (laneLink n l s).on (LN_LAT_VALID n) = true ∧ (laneLink n l s).get (LN_EB_FILL n) = 16 := by
  rw [laneLink_eq]
  refine ⟨?_, ?_, ?_, ?_⟩
  · refine Eq.trans ?_ (laneState_put_same (s.put (LN_STATUS_LOS n) 0) n (st := 5) (by decide))
    simp (disch := exact ⟨fun _ => rfl, fun _ => rfl, rfl⟩) only [laneRecord, linkEntered, State.count_eq, State.puti_eq, State.putB_eq,
      laneState_put, laneState_setLane]
  · rw [laneRecord_laneRec, linkEntered, State.setLane_laneRec]
  · unfold laneRecord
    dsimp only
    rw [State.count_eq, State.on_put_lane (f := LN_LAT_VALID) _ n _ ⟨fun _ => rfl, fun _ => rfl, rfl⟩]
    exact State.on_put_same _ (Nat.le_of_ble_eq_true rfl) (by decide : 1 < 2)
  · refine Eq.trans ?_ (State.get_put_fits (((s.put (LN_STATUS_LOS n) 0).put (LN_STATUS_STATE n) 5).putB (LN_STATUS_UNTRAINED n)
      (s.laneRec n).gaveUp) (f := LN_EB_FILL n) (Nat.le_of_ble_eq_true rfl) (by decide : 16 < 64))
    simp (disch := exact ⟨fun _ => rfl, fun _ => rfl, rfl⟩) only [laneRecord, linkEntered, State.count_eq, State.puti_eq,
      State.get_put_lane, State.get_setLane]

/-! ### The back-off (R214) -/

theorem laneBackoffReset_linked {n : Nat} {s : State} (h5 : laneState s n = 5) :
    laneBackoffReset n s = s.put (LN_STATUS_BACKOFF n) 0 := if_pos h5

/-! ### What an event does not find -/

/-- Outside its state an event of a lane does nothing. -/
theorem laneEvents_unchanged (n : Nat) (t : List TrainFrame) (s : State) :
    (laneState s n ≠ 1 → laneSignal n s = s) ∧ (laneState s n ≠ 2 → laneCdr n s = s ∧ laneCdrTimeout n s = s) ∧
      (laneState s n ≠ 4 → laneTrained n t s = s ∧ laneTrainFallback n s = s) ∧ (laneState s n ≠ 3 → laneAlignTimeout n s = s) ∧
      (laneState s n ≠ 5 → laneBackoffReset n s = s) :=
  ⟨fun h => if_pos (.inl h), fun h => ⟨if_pos h, if_pos h⟩, fun h => ⟨if_pos h, if_pos h⟩, fun h => if_pos h, fun h => if_neg h⟩

/-- Settles O35: each event by the operation of its state, whose fields are then read one by one. -/
theorem laneStateCommands : Obligations.LaneStateCommands := by
  refine ⟨fun m n v s hw => laneEn_stands hw, fun m n v s hw => laneEn_stands hw, fun n s hs hn hl h1 => ?_, fun n s hs h2 => ?_,
    fun n s hs hn h2 hc hf => ?_, fun n s hs hn h2 => ?_, fun n l t s hs h4 hl ht hr => ?_, fun n l t s hs h4 hl ht hr => ?_,
    fun n l t s hs h4 hl ht hr => ?_, fun n t s => ⟨fun hp => ?_, fun hp hi hpre hpost hmain => ?_⟩, fun n s hs hn h4 => ?_,
    fun n s hs hl => ?_, fun n s hs hn hl h4 => ?_, fun n x s hs hn hx h5 => ?_, fun n s hs hn hl h5 => ?_,
    fun n x s hs hn h4 h5 => ?_, fun n lat s hs h => ?_, fun n lat s hs hlen h3 hsk => ?_, fun n s hs hn h3 => ?_,
    fun n s hs hn h5 => ?_, fun n t lat x s hs => ?_, fun n l s => laneLink_shows n l s⟩
  · exact ⟨_, laneTimed_eq hs hn (laneSignal_detected h1 hl), laneSignal_shows n.isLt s⟩
  · exact timed_eq hs (laneCdr_locked h2)
  · exact ⟨_, laneTimed_eq hs hn (laneCdrTimeout_fails h2 hc hf), laneCdrTimeout_shows n s⟩
  · exact laneTimed_eq hs hn (laneCdrTimeout_late h2)
  · exact timed_eq hs (by rw [laneTrained_ends h4 ht, framesTaken_line hl]; exact if_pos hr)
  · exact timed_eq hs (by rw [laneTrained_ends h4 ht, framesTaken_line hl]; exact if_neg (by simp [hr]))
  · exact timed_eq hs (by rw [laneTrained_ends h4 ht, framesTaken_own hl]; exact if_pos hr)
  · exact trainFrame_shows (tapsAsked_preset s hp _) (by decide) (by decide) (by decide)
  · have hm : s.get (LN_TX_CUR_MAIN n) < 64 := s.get_lt (LN_TX_CUR_MAIN n)
    exact trainFrame_shows (tapsAsked_mainDown s hp hi hpre hpost hmain _) (s.get_lt (LN_TX_CUR_PRE n)) (by omega)
      (s.get_lt (LN_TX_CUR_POST n))
  · exact ⟨_, laneTimed_eq hs hn (laneTrainFallback_falls h4), laneTrainFallback_shows n s⟩
  · exact laneTimed_unchanged hs (.inr (laneLoss_looped hl))
  · exact laneTimed_eq hs hn (laneLoss_training hl h4)
  · refine laneTimed_eq hs hn ((laneLoss_linked (fun h => absurd h hx) h5).trans ?_)
    rw [signalMissed, if_neg fun h => hx h.1]
  · refine laneTimed_eq hs hn ((laneLoss_linked (fun _ => hl) h5).trans ?_)
    rw [signalMissed, if_pos ⟨rfl, by rw [h5]; decide⟩]
  · exact ⟨_, laneTimed_eq hs hn rfl, laneLoss_unlinked_shows h4 h5⟩
  · exact timed_eq hs (laneAligned_unchanged h)
  · exact timed_eq hs (laneAligned_links hlen h3 hsk)
  · exact laneTimed_eq hs hn (laneAlignTimeout_late h3)
  · refine ⟨_, laneTimed_eq hs hn (laneBackoffReset_linked h5), State.get_put_fits s (Nat.le_of_ble_eq_true rfl) (by decide : 0 < 1024), ?_⟩
    rw [laneState_put s n 0 ⟨fun _ => rfl, fun _ => rfl, rfl⟩, h5]
  · obtain ⟨h1, h2, h4, h3, h5⟩ := laneEvents_unchanged n t s
    refine ⟨fun hn i hi => ?_, fun h => laneTimed_unchanged hs (.inr (h1 h)),
      fun h => ⟨timed_eq hs (h2 h).1, laneTimed_unchanged hs (.inr (h2 h).2)⟩,
      fun h => ⟨timed_eq hs (h4 h).1, laneTimed_unchanged hs (.inr (h4 h).2)⟩, fun h => laneTimed_unchanged hs (.inr (h3 h)),
      fun h => laneTimed_unchanged hs (.inr (h5 h))⟩
    simp only [List.mem_cons, List.not_mem_nil, or_false] at hi
    rcases hi with rfl | rfl | rfl | rfl | rfl | rfl | rfl <;> exact laneTimed_unchanged hs (.inl hn)

end Sys2Proof.Machine
end

section
/-!
PROOFS. The clocking of a lane: what its estimates and its crossing ask for, and what a switch makes of the lanes of a group (R226 to R237);
the recovered-clock selectors (R238, R239).
-/

namespace Sys2Proof.Machine

open Sys2Proof

/-! ### The request for a clocking mode (R230) -/

theorem laneCtrl_stands {m : BusMaster} {n : Fin 65} {v : Word} {s : State} (hw : Writable m (LN_CTRL n) v s) : ∃ R c,
    Stands m .LN_CTRL n 0 (LN_CTRL n).one v.toNat s R c ∧
      run (busPut m (LN_CTRL n).addr v) s = .next (settle s (laneWritten R c)) := by
  obtain ⟨R, c, hst, hrun⟩ := hw.stands (namesOneWord_laneCtrl n) (laneCtrl_below n) (by decide)
  obtain ⟨-, hid, -, -, -⟩ := hst.who
  exact ⟨R, c, hst, by rw [← regEffect_laneCtrl c hid]; exact hrun⟩

/-! ### Requests of a switch (R229, R230, R232) -/

/-- A request for a switch is kept at the head of the lane's group. -/
theorem switchAsk_switch {n : Nat} {synt forced counted : Bool} (s : State) :
    ((switchAsk n synt forced counted s).laneRec (laneHead s n)).switch = some synt := by
  unfold switchAsk
  rw [State.setLane_laneRec]

/-- What a request leaves of the lanes' runs of estimates, and of the registers. -/
structure RunsKept (s t : State) : Prop where
  regs : t.regs = s.regs
  passRun : ∀ n, (t.laneRec n).passRun = (s.laneRec n).passRun
  failRun : ∀ n, (t.laneRec n).failRun = (s.laneRec n).failRun

theorem RunsKept.refl (s : State) : RunsKept s s := ⟨rfl, fun _ => rfl, fun _ => rfl⟩

theorem switchAsk_kept (n : Nat) (synt forced counted : Bool) (s : State) : RunsKept s (switchAsk n synt forced counted s) := by
  have hrec : ∀ k, ((switchAsk n synt forced counted s).laneRec k).passRun = (s.laneRec k).passRun ∧
      ((switchAsk n synt forced counted s).laneRec k).failRun = (s.laneRec k).failRun := fun k => by
    unfold switchAsk
    by_cases hk : k = laneHead s n
    · rw [hk, State.setLane_laneRec]
      exact ⟨rfl, rfl⟩
    · rw [State.setLane_laneRec_other _ _ _ hk]
      exact ⟨rfl, rfl⟩
  exact ⟨rfl, fun k => (hrec k).1, fun k => (hrec k).2⟩

theorem syntAsk_kept (n : Nat) (s : State) : RunsKept s (syntAsk n s) := by
  unfold syntAsk
  split
  · exact switchAsk_kept n _ _ _ s
  · exact RunsKept.refl s

theorem fallbackAsk_kept (n : Nat) (forced counted : Bool) (s : State) : RunsKept s (fallbackAsk n forced counted s) := by
  unfold fallbackAsk
  split
  · exact RunsKept.refl s
  · exact switchAsk_kept n _ _ _ s

/-- A trigger on a SYNTONOUS lane has its group fall back, whichever trigger came first. -/
theorem fallbackAsk_switch {n : Nat} {forced counted : Bool} {s : State} (he : s.on (LN_STATUS_CLOCK_EFF n) = true) :
    ((fallbackAsk n forced counted s).laneRec (laneHead s n)).switch = some false := by
  unfold fallbackAsk
  split
  · rename_i h
    exact h.resolve_left (by simp [he])
  · exact switchAsk_switch s

theorem fallbackAsk_plesiochronous {n : Nat} {forced counted : Bool} {s : State} (he : s.on (LN_STATUS_CLOCK_EFF n) = false) :
    fallbackAsk n forced counted s = s := if_pos (.inl (by simp [he]))

/-! ### The estimate (R228 to R230, R303) -/

/-- Beats that a row brings leave CLK_TIME where it is. -/
theorem laneBeats_clk (n every : Nat) (l : List Beat) (s : State) : (laneBeats n every l s).clk = s.clk := by
  induction l generalizing s with
  | nil => rfl
  | cons b l ih => exact ih _

theorem syntEstimate_unchanged {n : Nat} {s : State}
    (h : laneState s n ≠ 5 ∨ s.nominal = false ∨ s.clk < (s.laneRec n).winFrom + winTicks) : syntEstimate n s = s := by
  unfold syntEstimate
  exact if_pos (by simpa [or_assoc] using h)

/-- The estimate is shown and counted in its lane's run (R228, R250). -/
def estimateCounted (n : Nat) (ok : Bool) (s : State) : State :=
  let t := s.putB (LN_STATUS_SYNT_OK n) ok
  t.setLane n { s.laneRec n with
    passRun := if ok then (s.laneRec n).passRun + 1 else 0, failRun := if ok then 0 else (s.laneRec n).failRun + 1 }

/-- What the estimate then asks for: a SYNTONOUS lane with the third failing in a row falls back, another one may go to SYNTONOUS. -/
def estimateActs (n : Nat) (s : State) : State :=
  if s.on (LN_STATUS_CLOCK_EFF n) then (if 3 ≤ (s.laneRec n).failRun then fallbackAsk n false true s else s) else syntAsk n s

theorem syntEstimate_made {n : Nat} {s : State} (h5 : laneState s n = 5) (hn : s.nominal = true)
    (hw : (s.laneRec n).winFrom + winTicks ≤ s.clk) :
    syntEstimate n s = estimateActs n (estimateCounted n (estimateOk s n (estimateWindow s n)) s) :=
  if_neg (by simp [h5, hn, hw])

theorem estimateActs_kept (n : Nat) (s : State) : RunsKept s (estimateActs n s) := by
  unfold estimateActs
  split
  · split
    · exact fallbackAsk_kept n _ _ s
    · exact RunsKept.refl s
  · exact syntAsk_kept n s

theorem estimateCounted_laneRec (n : Nat) (ok : Bool) (s : State) : (estimateCounted n ok s).laneRec n = { s.laneRec n with
    passRun := if ok then (s.laneRec n).passRun + 1 else 0, failRun := if ok then 0 else (s.laneRec n).failRun + 1 } := by
  unfold estimateCounted
  exact State.setLane_laneRec _ _ _

theorem estimateCounted_shows (n : Nat) (ok : Bool) (s : State) : (estimateCounted n ok s).on (LN_STATUS_SYNT_OK n) = ok := by
  unfold estimateCounted
  dsimp only
  rw [State.on_setLane, State.putB_eq, State.on_put_same _ (Nat.le_of_ble_eq_true rfl) (show _ < 2 by split <;> decide)]
  cases ok <;> rfl

theorem estimateCounted_clocking (n : Nat) (ok : Bool) (s : State) :
    (estimateCounted n ok s).on (LN_STATUS_CLOCK_EFF n) = s.on (LN_STATUS_CLOCK_EFF n) := by
  unfold estimateCounted
  dsimp only
  rw [State.on_setLane, State.putB_eq, State.on_put_lane (f := LN_STATUS_CLOCK_EFF) _ n _ ⟨fun _ => rfl, fun _ => rfl, rfl⟩]

theorem estimateCounted_head {n : Nat} (hn : n < 65) (ok : Bool) (s : State) : laneHead (estimateCounted n ok s) n = laneHead s n := by
  have hrate : (estimateCounted n ok s).rate n = s.rate n :=
    State.rate_put s (f := LN_STATUS_SYNT_OK n) _ n (by simp only [LN_STATUS_SYNT_OK, LN_STATUS]; omega)
  unfold laneHead
  rw [hrate]

theorem estimate_shows {n : Nat} (hn : n < 65) (ok : Bool) (s : State) : let u := estimateActs n (estimateCounted n ok s)
    u.on (LN_STATUS_SYNT_OK n) = ok ∧ (u.laneRec n).passRun = (if ok then (s.laneRec n).passRun + 1 else 0) ∧
      (u.laneRec n).failRun = (if ok then 0 else (s.laneRec n).failRun + 1) ∧
      (s.on (LN_STATUS_CLOCK_EFF n) = true → 2 ≤ (s.laneRec n).failRun → ok = false →
        (u.laneRec (laneHead s n)).switch = some false) := by
  have hkept := estimateActs_kept n (estimateCounted n ok s)
  dsimp only
  rw [State.on_of_regs hkept.regs, hkept.passRun, hkept.failRun, estimateCounted_shows, estimateCounted_laneRec]
  refine ⟨rfl, rfl, rfl, fun he h2 hbad => ?_⟩
  rw [← estimateCounted_clocking n ok s] at he
  have h3 : 3 ≤ ((estimateCounted n ok s).laneRec n).failRun := by
    rw [estimateCounted_laneRec, hbad]
    exact Nat.succ_le_succ h2
  rw [estimateActs, if_pos he, if_pos h3, ← estimateCounted_head hn ok s]
  exact fallbackAsk_switch he

/-! ### The crossing's margin (R230) -/

theorem crossingMargin_shows {n : Nat} {s : State} (h5 : laneState s n = 5) (he : s.on (LN_STATUS_CLOCK_EFF n) = true) :
    ((crossingMargin n s).laneRec (laneHead s n)).switch = some false ∧ (crossingMargin n s).regs = s.regs := by
  rw [crossingMargin, if_pos h5]
  exact ⟨fallbackAsk_switch he, (fallbackAsk_kept n true true s).regs⟩

theorem crossingMargin_unchanged {n : Nat} {s : State} (h : laneState s n ≠ 5 ∨ s.on (LN_STATUS_CLOCK_EFF n) = false) :
    crossingMargin n s = s := by
  unfold crossingMargin
  split
  · rename_i h5
    exact fallbackAsk_plesiochronous (h.resolve_left (fun hne => hne h5))
  · rfl

/-! ### The switch (R231, R232) -/

theorem clockSwitch_unchanged {n : Nat} {lat : List LaneLat} {s : State} (force : Bool)
    (h : (s.laneRec (laneHead s n)).switch = none ∨ lat.length ≠ (laneGroup s n).length ∨ laneState s (laneHead s n) ≠ 5) :
    clockSwitch n lat force s = s := by
  unfold clockSwitch
  dsimp only
  split
  · rfl
  · rename_i synt hsome
    exact if_pos (h.resolve_left (by simp [hsome]))

/-- The lanes of a group have switched, with their port's stamps, latencies and streams following (R237, R286, R462). -/
def groupSwitched (n : Nat) (lat : List LaneLat) (synt : Bool) (s : State) : State :=
  xcRefreshAll (latRefresh (laneOwner s n) (fineRefresh (laneOwner s n)
    (forEach ((laneGroup s n).zip lat) (fun e x => laneSwitch synt (s.laneRec (laneHead s n)).counted e.1 e.2 x) s)))

/-- A requested switch takes place; a forced one too, where no frame is in progress to be lost with it. -/
theorem clockSwitch_takes {n : Nat} {lat : List LaneLat} {synt force : Bool} {s : State}
    (hsw : (s.laneRec (laneHead s n)).switch = some synt) (hlen : lat.length = (laneGroup s n).length) (h5 : laneState s (laneHead s n) = 5)
    (hrx : force = true → (s.portRec (laneOwner s n)).rx = none) : clockSwitch n lat force s = groupSwitched n lat synt s := by
  have hframe : ¬(force = true ∧ (s.portRec (laneOwner s n)).rx.isSome = true) := fun h => by simp [hrx h.1] at h
  unfold clockSwitch
  dsimp only
  rw [hsw]
  dsimp only
  rw [if_neg (by simp [hlen, h5]), if_neg hframe]
  rfl

/-- A switch is noted: the return of a lane that had fallen back, and every fallback, counted where its trigger says so (R229, R230). -/
def clockingNoted (synt counted : Bool) (n : Nat) (s : State) : State :=
  if synt then (if (s.laneRec n).fellBack then s.ev (LN_EVENT_SYNT_RETURN n) else s)
  else if counted then (s.ev (LN_EVENT_SYNT_FALLBACK n)).count (LN_CNT1_SYNT_FALLBACK n) else s.ev (LN_EVENT_SYNT_FALLBACK n)

/-- The clocking in effect is then the one asked for, with the elastic buffer void or in the middle (R235). -/
def clockingTaken (synt counted : Bool) (n : Nat) (s : State) : State :=
  ((clockingNoted synt counted n s).put (LN_STATUS_CLOCK_EFF n) (if synt then 1 else 0)).put (LN_EB_FILL n) (if synt then 0 else 16)

/-- A switch leaves in these fields what `clockingTaken` does: the latency values it records stand elsewhere. -/
theorem laneSwitch_get (synt counted : Bool) (n : Nat) (l : LaneLat) (s : State) :
    (laneSwitch synt counted n l s).on (LN_STATUS_CLOCK_EFF n) = (clockingTaken synt counted n s).on (LN_STATUS_CLOCK_EFF n) ∧
      (laneSwitch synt counted n l s).get (LN_EB_FILL n) = (clockingTaken synt counted n s).get (LN_EB_FILL n) ∧
      (laneSwitch synt counted n l s).on (LN_EVENT_SYNT_FALLBACK n) = (clockingTaken synt counted n s).on (LN_EVENT_SYNT_FALLBACK n) := by
  have heq : laneSwitch synt counted n l s = laneRecord n l ((clockingTaken synt counted n s).setLane n { s.laneRec n with
      switch := none, forced := false, counted := false, fellBack := !synt, failRun := 0, cross := 0 }) := by
    cases synt <;> cases counted <;> simp only [laneSwitch, clockingTaken, clockingNoted, if_true, if_false, Bool.false_eq_true]
  rw [heq]
  simp (disch := exact ⟨fun _ => rfl, fun _ => rfl, rfl⟩) only [laneRecord, State.count_eq, State.puti_eq, State.get_put_lane,
    State.on_put_lane, State.get_setLane, State.on_setLane, and_self]

theorem clockingTaken_shows (synt counted : Bool) (n : Nat) (s : State) :
    (clockingTaken synt counted n s).on (LN_STATUS_CLOCK_EFF n) = synt ∧
      (clockingTaken synt counted n s).get (LN_EB_FILL n) = (if synt then 0 else 16) ∧
      (synt = false → (clockingTaken synt counted n s).on (LN_EVENT_SYNT_FALLBACK n) = true) := by
  unfold clockingTaken
  refine ⟨?_, State.get_put_fits _ (Nat.le_of_ble_eq_true rfl) (show _ < 64 by split <;> decide), fun hf => ?_⟩
  · rw [State.on_put_lane (f := LN_STATUS_CLOCK_EFF) _ n _ ⟨fun _ => rfl, fun _ => rfl, rfl⟩,
      State.on_put_same _ (Nat.le_of_ble_eq_true rfl) (show _ < 2 by split <;> decide)]
    cases synt <;> rfl
  · rw [← State.on_ev_same s (f := LN_EVENT_SYNT_FALLBACK n) (Nat.le_of_ble_eq_true rfl) Nat.one_pos, hf]
    cases counted <;>
      simp (disch := exact ⟨fun _ => rfl, fun _ => rfl, rfl⟩) only [clockingNoted, Bool.false_eq_true, if_true, if_false,
        State.count_eq, State.on_put_lane]

/-- One lane's clocking in effect and elastic buffer after a switch, and the event of a fallback. -/
theorem laneSwitch_shows (n : Nat) (counted : Bool) (l : LaneLat) (s : State) :
    (laneSwitch true counted n l s).on (LN_STATUS_CLOCK_EFF n) = true ∧ (laneSwitch true counted n l s).get (LN_EB_FILL n) = 0 ∧
      (laneSwitch false counted n l s).on (LN_STATUS_CLOCK_EFF n) = false ∧ (laneSwitch false counted n l s).get (LN_EB_FILL n) = 16 ∧
      (laneSwitch false counted n l s).on (LN_EVENT_SYNT_FALLBACK n) = true := by
  obtain ⟨hon, hempty, -⟩ := laneSwitch_get true counted n l s
  obtain ⟨hoff, hmiddle, hevent⟩ := laneSwitch_get false counted n l s
  obtain ⟨h1, h2, -⟩ := clockingTaken_shows true counted n s
  obtain ⟨h3, h4, h5⟩ := clockingTaken_shows false counted n s
  exact ⟨hon.trans h1, hempty.trans h2, hoff.trans h3, hmiddle.trans h4, hevent.trans (h5 rfl)⟩

/-! ### Recovered-clock selectors (R238, R239) -/

theorem namesOneWord_rcsCfg (k : Fin 4) : namesOneWord (LN_RCS_CFG k) .LN_RCS_CFG k 0 = true := by
  revert k
  decide +kernel

theorem regEffect_rcsCfg {R : RegWrite} {k : Nat} (c : State) (hid : R.id = .LN_RCS_CFG) (hi : R.i = k) :
    regEffect R c = rcsWritten k (R.was (LN_RCS_CFG_LANE k)) (R.was (LN_RCS_CFG_EN k) != 0) c := by
  unfold regEffect
  rw [hid, hi]

theorem rcsCfg_stands {m : BusMaster} {k : Fin 4} {v : Word} {s : State} (hw : Writable m (LN_RCS_CFG k) v s) : ∃ R c,
    Stands m .LN_RCS_CFG k 0 (LN_RCS_CFG k).one v.toNat s R c ∧ run (busPut m (LN_RCS_CFG k).addr v) s =
      .next (settle s (rcsWritten k (R.was (LN_RCS_CFG_LANE k)) (R.was (LN_RCS_CFG_EN k) != 0) c)) := by
  obtain ⟨R, c, hst, hrun⟩ := hw.stands (namesOneWord_rcsCfg k) (by simp only [LN_RCS_CFG]; omega) (by decide)
  obtain ⟨-, hid, hi, -, -⟩ := hst.who
  exact ⟨R, c, hst, by rw [← regEffect_rcsCfg c hid hi]; exact hrun⟩

/-- A selector that is enabled, not held, and on a lane with CDR lock gives its clock. -/
theorem rcsRefresh_active {k : Nat} {s : State} (he : s.on (LN_RCS_CFG_EN k) = true) (hh : smGet false s.rcsHeld k = false)
    (hc : s.cdrLock (s.get (LN_RCS_CFG_LANE k)) = true) : (rcsRefresh k s).on (LN_RCS_CFG_ACTIVE k) = true := by
  have hruns : rcsRefresh k s = s.put (LN_RCS_CFG_ACTIVE k) 1 := by simp [rcsRefresh, he, hh, hc, State.putB_eq]
  rw [hruns]
  exact State.on_put_same s (f := LN_RCS_CFG_ACTIVE k) (Nat.le_of_ble_eq_true rfl) (by decide : 1 < 2)

/-- Settles O36: an estimate by what it counts and asks for, a switch by its request, and the writes by their registers' effects. -/
theorem laneClockingCommands : Obligations.LaneClockingCommands := by
  refine ⟨fun m n v s hw => laneCtrl_stands hw, fun n l e s hs => timed_served (fun s => syntEstimate n (laneBeats n e l s)) s hs,
    fun n l e s => laneBeats_clk n e l s,
    fun n e s hs h => timed_eq hs (syntEstimate_unchanged h), fun n e s hs h5 hn hw => ?_, fun n s hs h5 he => ?_,
    fun n s hs h => timed_eq hs (crossingMargin_unchanged h), fun n lat s hs h => ?_, fun n lat synt s hs hsw hlen h5 => ?_,
    fun n counted l s => laneSwitch_shows n counted l s, fun m k v s hw => rcsCfg_stands hw,
    fun k s hs hn => laneTimed_unchanged hs (.inl hn),
    fun k s hs hn => laneTimed_eq hs hn rfl, fun k s he hh hc => rcsRefresh_active he hh hc⟩
  · exact ⟨_, timed_eq hs (syntEstimate_made h5 hn hw), estimate_shows n.isLt _ s⟩
  · exact ⟨_, timed_served (crossingMargin n) s hs, crossingMargin_shows h5 he⟩
  · exact ⟨timed_eq hs (clockSwitch_unchanged false h), laneTimed_unchanged hs (.inr (clockSwitch_unchanged true h))⟩
  · refine ⟨_, rfl, timed_eq hs (clockSwitch_takes hsw hlen h5 (by simp)), fun hn hrx => ?_⟩
    exact laneTimed_eq hs hn (clockSwitch_takes hsw hlen h5 fun _ => hrx)

end Sys2Proof.Machine
end

section
/-!
PROOFS. Pattern generators and checkers, and eye scans: what a write starts, what a checker takes a bit for, and how a scan ends (R240 to
R247).
-/

namespace Sys2Proof.Machine

open Sys2Proof

/-! ### Writes of LN_PRBS_CTRL (R241, R243) -/

theorem namesOneWord_prbsCtrl (n : Fin 65) : namesOneWord (LN_PRBS_CTRL n) .LN_PRBS_CTRL n 0 = true := by
  revert n
  decide +kernel

theorem plain_prbsGenEn (n : Fin 65) : (LN_PRBS_CTRL_GEN_EN n).plain = true := by
  revert n
  decide +kernel

theorem carried_injSingle (n : Fin 65) : (LN_PRBS_CTRL_INJ_SINGLE n).carried = true := by
  revert n
  decide +kernel

theorem prbsCtrl_below (n : Fin 65) : (LN_PRBS_CTRL n).addr < 0x026FFFFC := by
  simp only [LN_PRBS_CTRL]
  omega

theorem regEffect_prbsCtrl {R : RegWrite} (c : State) (hid : R.id = .LN_PRBS_CTRL) : regEffect R c = prbsWritten R c := by
  unfold regEffect
  rw [hid]

theorem prbsGenEn_stands {m : BusMaster} {n : Fin 65} {v : Word} {s : State}
    (hw : Writable m (LN_PRBS_CTRL n) (withField (LN_PRBS_CTRL_GEN_EN n) 1 v) s) : ∃ R c,
    Stands m .LN_PRBS_CTRL n 0 (LN_PRBS_CTRL n).one (withField (LN_PRBS_CTRL_GEN_EN n) 1 v).toNat s R c ∧
      R.now (LN_PRBS_CTRL_GEN_EN n) = 1 ∧ run (busSet m (LN_PRBS_CTRL_GEN_EN n) 1 v) s = .next (settle s (prbsWritten R c)) := by
  obtain ⟨R, c, hst, hnow, hrun⟩ := Writable.stands_field (f := LN_PRBS_CTRL_GEN_EN n) hw (namesOneWord_prbsCtrl n) (plain_prbsGenEn n) rfl
    (Nat.le_of_ble_eq_true rfl) (prbsCtrl_below n) (by decide)
  obtain ⟨-, hid, -, -, -⟩ := hst.who
  exact ⟨R, c, hst, hnow, by rw [← regEffect_prbsCtrl c hid]; exact hrun⟩

theorem injSingle_stands {m : BusMaster} {n : Fin 65} {v : Word} {s : State}
    (hw : Writable m (LN_PRBS_CTRL n) (withField (LN_PRBS_CTRL_INJ_SINGLE n) 1 v) s) : ∃ R c,
    Stands m .LN_PRBS_CTRL n 0 (LN_PRBS_CTRL n).one (withField (LN_PRBS_CTRL_INJ_SINGLE n) 1 v).toNat s R c ∧
      R.field R.v (LN_PRBS_CTRL_INJ_SINGLE n) ≠ 0 ∧
      run (busSet m (LN_PRBS_CTRL_INJ_SINGLE n) 1 v) s = .next (settle s (prbsWritten R c)) := by
  obtain ⟨R, c, hst, hv, hrun⟩ := Writable.stands_carried (f := LN_PRBS_CTRL_INJ_SINGLE n) hw (namesOneWord_prbsCtrl n)
    (carried_injSingle n) (Nat.le_of_ble_eq_true rfl) (prbsCtrl_below n) (by decide)
  obtain ⟨-, hid, -, -, -⟩ := hst.who
  exact ⟨R, c, hst, by rw [hv]; exact Nat.one_ne_zero, by rw [← regEffect_prbsCtrl c hid]; exact hrun⟩

/-! ### A single injection (R243) -/

theorem injectBit_waits {n : Nat} {s : State} (he : s.on (LN_PRBS_CTRL_GEN_EN n) = true) (hst : s.stage = 0) :
    ((injectBit n s).laneRec n).gen.inj = true := by
  rw [injectBit, if_pos ⟨he, hst⟩, State.setLane_laneRec]

/-- The injection inverts the next bit, and is then spent. -/
theorem genBit_inverts (c : PatCfg) (g : GenRec) :
    (genBit c none { g with inj := true }).1 = !(genBit c none { g with inj := false }).1 ∧ (genBit c none g).2.inj = false :=
  ⟨by simp [genBit], rfl⟩

/-! ### One bit at the checker (R242) -/

/-- While locked a bit is an error where it differs from the checker's own pattern, and the sixteenth of the last 64 unlocks. -/
theorem chkBit_locked (c : PatCfg) (b : Bool) (k : ChkRec) (n : Nat) :
    (chkBit c b (k, true, n)).2.2 = n + ((b != c.invert) != c.bit k.st).toNat ∧
      (chkBit c b (k, true, n)).2.1 = decide (((((b != c.invert) != c.bit k.st) :: k.errs).take 64).count true < 16) := by
  unfold chkBit
  dsimp only
  rw [if_pos rfl]
  split
  · rename_i h
    exact ⟨rfl, (decide_eq_false (Nat.not_lt.2 h)).symm⟩
  · rename_i h
    exact ⟨rfl, (decide_eq_true (Nat.lt_of_not_le h)).symm⟩

/-- While unlocked it locks on 64 bits that are a stretch of the pattern, and counts nothing. -/
theorem chkBit_unlocked (c : PatCfg) (b : Bool) (k : ChkRec) (n : Nat) :
    (chkBit c b (k, false, n)).2.2 = n ∧
      (chkBit c b (k, false, n)).2.1 = (decide ((((b != c.invert) :: k.last).take 64).length = 64) &&
        (c.lock (((b != c.invert) :: k.last).take 64).reverse).isSome) := by
  have hlock : (if (((b != c.invert) :: k.last).take 64).length = 64 then c.lock (((b != c.invert) :: k.last).take 64).reverse
      else none).isSome = (decide ((((b != c.invert) :: k.last).take 64).length = 64) &&
        (c.lock (((b != c.invert) :: k.last).take 64).reverse).isSome) := by
    split <;> simp_all
  rw [← hlock]
  unfold chkBit
  dsimp only
  rw [if_neg Bool.false_ne_true]
  split
  · rename_i st h
    exact ⟨rfl, by rw [h]; rfl⟩
  · rename_i h
    exact ⟨rfl, by rw [h]; rfl⟩

/-! ### The checker of a lane (R242, R244, R247) -/

theorem prbsErrors_on {n k : Nat} {s : State} : (prbsErrors n k s).on (LN_PRBS_STATUS_CHK_LOCK n) = s.on (LN_PRBS_STATUS_CHK_LOCK n) := by
  have hwide : ∀ v, (s.putWide (LN_PRBS_ERR n) v).on (LN_PRBS_STATUS_CHK_LOCK n) = s.on (LN_PRBS_STATUS_CHK_LOCK n) := fun v => by
    unfold State.on
    rw [State.get_putWide_other s (LN_PRBS_ERR n) v (.inl (by simp only [LN_PRBS_STATUS_CHK_LOCK, LN_PRBS_STATUS, LN_PRBS_ERR]; omega))]
  unfold prbsErrors
  dsimp only
  split
  · rw [State.ev_eq, State.on_put_lane (f := LN_PRBS_STATUS_CHK_LOCK) _ n _ ⟨fun _ => rfl, fun _ => rfl, rfl⟩, hwide]
  · exact hwide _

theorem prbsErrors_shows (n k : Nat) (s : State) :
    (prbsErrors n k s).wide (LN_PRBS_ERR n) = min (s.wide (LN_PRBS_ERR n) % 2 ^ 48 + k) (2 ^ 48 - 1) ∧
      (2 ^ 48 ≤ s.wide (LN_PRBS_ERR n) % 2 ^ 48 + k → (prbsErrors n k s).on (LN_PRBS_STATUS_OVF n) = true) := by
  have hcount : (s.putWide (LN_PRBS_ERR n) (min (s.wide (LN_PRBS_ERR n) % 2 ^ 48 + k) (2 ^ 48 - 1))).wide (LN_PRBS_ERR n) =
      min (s.wide (LN_PRBS_ERR n) % 2 ^ 48 + k) (2 ^ 48 - 1) := by
    rw [State.wide_putWide]
    exact Nat.mod_eq_of_lt (Nat.lt_of_le_of_lt (Nat.min_le_right _ _) (show 2 ^ 48 - 1 < 2 ^ 64 by decide))
  unfold prbsErrors
  dsimp only
  split
  · refine ⟨?_, fun _ => State.on_ev_same _ (Nat.le_of_ble_eq_true rfl) Nat.one_pos⟩
    rw [State.ev_eq, State.wide_put_other _ _ (.inr (by simp only [LN_PRBS_STATUS_OVF, LN_PRBS_STATUS, LN_PRBS_ERR]; omega)), hcount]
  · rename_i h
    exact ⟨hcount, fun hk => absurd hk h⟩

theorem checkerLine_unchanged {n : Nat} {l : List Bool} {s : State}
    (h : laneLooped s n = true ∨ s.on (LN_PRBS_CTRL_CHK_EN n) = false ∨ s.stage ≠ 0) : checkerLine n l s = s := by
  unfold checkerLine
  split
  · rfl
  · rename_i hl
    exact if_neg fun hc => h.elim hl fun h => h.elim (fun he => by simp [he] at hc) (fun hst => hst hc.2)

theorem checkerLine_takes {n : Nat} {l : List Bool} {s : State} (h : laneLooped s n = false) : checkerLine n l s = checkerTake n l s :=
  if_neg (by simp [h])

/-- The lock of a checker that takes bits is that of its last one. -/
theorem checkerTake_lock {n : Nat} {l : List Bool} {s : State} (he : s.on (LN_PRBS_CTRL_CHK_EN n) = true) (hst : s.stage = 0) :
    (checkerTake n l s).on (LN_PRBS_STATUS_CHK_LOCK n) =
      (l.foldl (fun x b => chkBit (lanePattern s n) (b != s.on (LN_CTRL_RX_POL_INV n)) x)
        ((s.laneRec n).chk, s.on (LN_PRBS_STATUS_CHK_LOCK n), 0)).2.1 := by
  have hshown : ∀ (r : LaneRec) (b : Bool), ((s.setLane n r).putB (LN_PRBS_STATUS_CHK_LOCK n) b).on (LN_PRBS_STATUS_CHK_LOCK n) = b :=
    fun r b => by
      rw [State.putB_eq, State.on_put_same _ (Nat.le_of_ble_eq_true rfl) (show _ < 2 by split <;> decide)]
      cases b <;> rfl
  unfold checkerTake
  rw [if_pos ⟨he, hst⟩]
  dsimp only
  split
  · exact hshown _ _
  · rw [prbsErrors_on]
    exact hshown _ _

/-! ### Eye scans (R245, R246) -/

theorem namesOneWord_eyeCtrl (n : Fin 65) : namesOneWord (LN_EYE_CTRL n) .LN_EYE_CTRL n 0 = true := by
  revert n
  decide +kernel

theorem carried_eyeStart (n : Fin 65) : (LN_EYE_CTRL_START n).carried = true := by
  revert n
  decide +kernel

theorem regEffect_eyeCtrl {R : RegWrite} {n : Nat} (c : State) (hid : R.id = .LN_EYE_CTRL) (hi : R.i = n)
    (hv : R.field R.v (LN_EYE_CTRL_START n) ≠ 0) (heye : (c.laneRec n).eye = 0) : regEffect R c = eyeStart n c := by
  unfold regEffect
  rw [hid, hi]
  exact if_pos ⟨hv, heye⟩

/-- START on a lane without a scan under way: the write stands, and the scan starts. -/
theorem eyeStart_stands {m : BusMaster} {n : Fin 65} {v : Word} {s : State}
    (hw : Writable m (LN_EYE_CTRL n) (withField (LN_EYE_CTRL_START n) 1 v) s) (heye : (s.laneRec n).eye = 0) : ∃ R c,
    Stands m .LN_EYE_CTRL n 0 (LN_EYE_CTRL n).one (withField (LN_EYE_CTRL_START n) 1 v).toNat s R c ∧
      run (busSet m (LN_EYE_CTRL_START n) 1 v) s = .next (settle s (eyeStart n c)) := by
  obtain ⟨R, c, hst, hv, hrun⟩ := Writable.stands_carried (f := LN_EYE_CTRL_START n) hw (namesOneWord_eyeCtrl n) (carried_eyeStart n)
    (Nat.le_of_ble_eq_true rfl) (by simp only [LN_EYE_CTRL_START, LN_EYE_CTRL]; omega) (by decide)
  obtain ⟨-, hid, hi, -, -⟩ := hst.who
  have hlanes : c.lanes = s.lanes := by rw [hst.rest]
  have hidle : (c.laneRec n).eye = 0 := by rw [State.laneRec_of_lanes hlanes, heye]
  exact ⟨R, c, hst, by rw [← regEffect_eyeCtrl c hid hi (by rw [hv]; exact Nat.one_ne_zero) hidle]; exact hrun⟩

theorem eyeResult_put {n r : Nat} (s : State) (h : r < 4) :
    (s.put (LN_EYE_STATUS_RESULT n) r).get (LN_EYE_STATUS_RESULT n) = r ∧ (s.put (LN_EYE_STATUS_RESULT n) r).lanes = s.lanes :=
  ⟨State.get_put_fits s (Nat.le_of_ble_eq_true rfl) h, State.put_lanes s _ _⟩

theorem eyeStart_noLock {n : Nat} {s : State} (hc : s.cdrLock n = false) : eyeStart n s = s.put (LN_EYE_STATUS_RESULT n) 3 :=
  if_pos (by simp [hc])

theorem eyeStart_shed {n : Nat} {s : State} (hc : s.cdrLock n = true) (hst : s.stage ≠ 0) :
    eyeStart n s = s.put (LN_EYE_STATUS_RESULT n) 2 := by
  rw [eyeStart, if_neg (by simp [hc]), if_pos hst]

/-- A scan starts with no result and no errors (R245). -/
def eyeCleared (n : Nat) (s : State) : State := (s.put (LN_EYE_STATUS_RESULT n) 0).put (LN_EYE_ERR_V n) 0

theorem eyeStart_starts {n : Nat} (hn : n < 65) {s : State} (hc : s.cdrLock n = true) (hst : s.stage = 0) :
    eyeStart n s = (let t := eyeCleared n s
      if offsetsBusy s then t.setLane n { t.laneRec n with eye := 2 }
      else (t.setLane n { t.laneRec n with eye := 1 }).put (LN_EQ_FROZEN n) 1) := by
  have hbusy : offsetsBusy (eyeCleared n s) = offsetsBusy s := by
    unfold offsetsBusy eyeCleared
    rw [State.get_put_reg _ (f := CAL_K_STATUS_STATE 4) _
        (by simp only [CAL_K_STATUS_STATE, CAL_K_STATUS, LN_EYE_ERR_V, LN_EYE_ERR]; omega),
      State.get_put_reg _ (f := CAL_K_STATUS_STATE 4) _
        (by simp only [CAL_K_STATUS_STATE, CAL_K_STATUS, LN_EYE_STATUS_RESULT, LN_EYE_STATUS]; omega)]
  rw [eyeStart, if_neg (by simp [hc]), if_neg (by simp [hst]), ← hbusy]
  rfl

theorem eyeCleared_shows (n : Nat) (s : State) :
    (eyeCleared n s).get (LN_EYE_STATUS_RESULT n) = 0 ∧ (eyeCleared n s).get (LN_EYE_ERR_V n) = 0 := by
  unfold eyeCleared
  rw [State.get_put_lane (f := LN_EYE_STATUS_RESULT) _ n _ ⟨fun _ => rfl, fun _ => rfl, rfl⟩]
  exact ⟨(eyeResult_put s (by decide)).1, State.get_put_fits _ (Nat.le_of_ble_eq_true rfl) (by decide : 0 < 2 ^ 32)⟩

theorem eyeStart_starts_shows {n : Nat} (hn : n < 65) {s : State} (hc : s.cdrLock n = true) (hst : s.stage = 0) :
    ((eyeStart n s).laneRec n).eye = (if offsetsBusy s then 2 else 1) ∧ (eyeStart n s).get (LN_EYE_STATUS_RESULT n) = 0 ∧
      (eyeStart n s).get (LN_EYE_ERR_V n) = 0 := by
  obtain ⟨hres, herr⟩ := eyeCleared_shows n s
  rw [eyeStart_starts hn hc hst]
  dsimp only
  split
  · rw [State.setLane_laneRec, State.get_setLane, State.get_setLane]
    exact ⟨rfl, hres, herr⟩
  · rw [State.laneRec_put, State.setLane_laneRec, State.get_put_lane (f := LN_EYE_STATUS_RESULT) _ n _ ⟨fun _ => rfl, fun _ => rfl, rfl⟩,
      State.get_put_lane (f := LN_EYE_ERR_V) _ n _ ⟨fun _ => rfl, fun _ => rfl, rfl⟩, State.get_setLane, State.get_setLane]
    exact ⟨rfl, hres, herr⟩

/-- A scan that ends has its result, and releases the equaliser (R246). -/
theorem eyeEnd_ends {n result : Nat} {s : State} (h : (s.laneRec n).eye ≠ 0) : eyeEnd n result s =
    ((s.setLane n { s.laneRec n with eye := 0 }).put (LN_EYE_STATUS_RESULT n) result).put (LN_EQ_FROZEN n) 0 := if_neg h

theorem eyeDone_unchanged {n errs : Nat} {s : State} (h : (s.laneRec n).eye ≠ 1) : eyeDone n errs s = s := if_neg h

theorem eyeDone_shows {n errs : Nat} {s : State} (h : (s.laneRec n).eye = 1) :
    (eyeDone n errs s).get (LN_EYE_ERR_V n) = min errs (2 ^ 32 - 1) ∧ (eyeDone n errs s).get (LN_EYE_STATUS_RESULT n) = 1 ∧
      (eyeDone n errs s).on (LN_EQ_FROZEN n) = false ∧ ((eyeDone n errs s).laneRec n).eye = 0 := by
  rw [eyeDone, if_pos h, eyeEnd_ends (by rw [State.laneRec_put, h]; decide)]
  refine ⟨?_, ?_, State.on_put_same _ (Nat.le_of_ble_eq_true rfl) (by decide : 0 < 2), ?_⟩
  · refine Eq.trans ?_ (State.get_put_fits s (f := LN_EYE_ERR_V n) (Nat.le_of_ble_eq_true rfl)
      (show min errs (2 ^ 32 - 1) < 2 ^ 32 by omega))
    simp (disch := exact ⟨fun _ => rfl, fun _ => rfl, rfl⟩) only [State.get_put_lane, State.get_setLane]
  · rw [State.get_put_lane (f := LN_EYE_STATUS_RESULT) _ n _ ⟨fun _ => rfl, fun _ => rfl, rfl⟩]
    exact (eyeResult_put _ (by decide)).1
  · rw [State.laneRec_put, State.laneRec_put, State.setLane_laneRec]

/-- Settles O37: the writes stand and act, a bit by the checker's lock, and a scan by what it finds at its start and at its end. -/
theorem patternAndEyeCommands : Obligations.PatternAndEyeCommands := by
  refine ⟨fun m n v s hw => prbsGenEn_stands hw, fun m n v s hw => injSingle_stands hw, fun n s he hst => injectBit_waits he hst,
    genBit_inverts, fun c b k n => ?_, fun n l s hs => ⟨fun i hi h => ?_, fun hl he hst => ?_⟩, fun n k s => prbsErrors_shows n k s,
    fun m n v s hw heye => eyeStart_stands hw heye, fun n s => ⟨fun hc => ?_, fun hc hst => ?_, fun hc hst => ?_⟩,
    fun n errs s hs h => ?_, fun n errs s hs h => timed_eq hs (eyeDone_unchanged h)⟩
  · obtain ⟨hcount, hlock⟩ := chkBit_locked c b k n
    exact ⟨hcount, hlock, chkBit_unlocked c b k n⟩
  · simp only [List.mem_cons, List.not_mem_nil, or_false] at hi
    rcases hi with rfl | rfl
    · exact timed_eq hs (checkerLine_unchanged h)
    · exact timed_eq hs (checkerLine_unchanged h)
  · exact ⟨timed_eq hs (checkerLine_takes hl), timed_eq hs (checkerLine_takes hl), checkerTake_lock he hst⟩
  · rw [eyeStart_noLock hc]
    exact eyeResult_put s (by decide)
  · rw [eyeStart_shed hc hst]
    exact eyeResult_put s (by decide)
  · exact eyeStart_starts_shows n.isLt hc hst
  · exact ⟨_, timed_served (eyeDone n errs) s hs, eyeDone_shows h⟩

end Sys2Proof.Machine
end

section
/-!
PROOFS. A sample discarded on a lane whose crossing stands at its margin (R230, R305).
-/

namespace Sys2Proof.Machine

open Sys2Proof

/-- RUNNING, the Capstan locked; lane 0, LINKED and SYNTONOUS, has lost CDR lock in this cycle, yet still shows a valid sample and keeps it
among its recent ones; its crossing has moved by 32 words, and no switch is asked for. -/
def lostAtMargin : State :=
  { ((((State.reset.put GLB_STATE_STATE 3).put SYN_STATUS_LOCKED 1).put (LN_STATUS_STATE 0) 5).put (LN_STATUS_CLOCK_EFF 0) 1).put
      (PHA_CH_SAMPLE_VALID 0) 1 with
    pha := [(0, { lostAt := some 0, recent := [(0, 0)] })], lanes := [(0, { cross := 32 * crossWord 0 })] }

/-- The phase sample is discarded, but the crossing is held against its margin all the same: the lane is to fall back (R230). -/
theorem laneSample_lostAtMargin_switch :
    ((settle lostAtMargin (laneSample 0 .absent lostAtMargin)).laneRec 0).switch = some false := by decide +kernel

/-- Left alone, the lane has no switch to make. -/
theorem lostAtMargin_settled_switch : ((settle lostAtMargin lostAtMargin).laneRec 0).switch = none := by decide +kernel

/-- Refutes O40, by the clause of a sample in the cycle its lane leaves CDR lock: it says nothing happens in every such state, also in one
where the loss has not yet taken the valid sample shown (as `sampleLost` does), and there the crossing at its margin asks for a fallback. -/
theorem not_phaseCommands : ¬ Obligations.PhaseCommands := by
  unfold Obligations.PhaseCommands
  rintro ⟨-, -, -, hdiscarded, -⟩
  have hserved : Served lostAtMargin := by
    unfold Served
    decide +kernel
  have hlost : (lostAtMargin.phaRec 0).lostAt = some lostAtMargin.clk := by decide +kernel
  have hrun : exec (.phaSample 0 .absent) lostAtMargin = .next (settle lostAtMargin (laneSample 0 .absent lostAtMargin)) :=
    timed_served (laneSample 0 .absent) lostAtMargin hserved
  have hsame := Host.Outcome.next.inj ((hdiscarded 0 .absent lostAtMargin hserved hlost).symm.trans hrun)
  have hswitch := congrArg (fun t : State => (t.laneRec 0).switch) hsame
  exact absurd (lostAtMargin_settled_switch.symm.trans (hswitch.trans laneSample_lostAtMargin_switch)) (by decide)

end Sys2Proof.Machine
end

section
/-!
PROOFS. What buffers, counters and alarms keep of the Ferryman: the registers of the ports and its own, its queues and its sessions'
records (R335, R337, R439, R602).
-/

namespace Sys2Proof.Machine

open Sys2Proof

/-- The registers of the ports and of the Ferryman (from 0x00800000 to 0x00E00000), its queues and its sessions' records are as they were. -/
structure FmKept (s t : State) : Prop where
  words : ∀ x : Reg, 0x00800000 ≤ x.addr → x.addr < 0x00E00000 → t.word x = s.word x
  fm : t.fm = s.fm
  sess : t.sess = s.sess

namespace FmKept

variable {s t : State}

theorem refl (s : State) : FmKept s s := ⟨fun _ _ _ => rfl, rfl, rfl⟩

/-- A state may differ in all but the registers, the Ferryman's queues and the sessions. -/
theorem of_eq (h : FmKept s t) {u : State} (hr : u.regs = t.regs) (hf : u.fm = t.fm) (hs : u.sess = t.sess) : FmKept s u where
  words x hl hh := (State.word_congr hr x).trans (h.words x hl hh)
  fm := hf.trans h.fm
  sess := hs.trans h.sess

theorem get (h : FmKept s t) {f : Fld} (hl : 0x00800000 ≤ f.reg.addr) (hh : f.reg.addr < 0x00E00000) : t.get f = s.get f := by
  unfold State.get
  rw [h.words f.reg hl hh]

theorem on (h : FmKept s t) {f : Fld} (hl : 0x00800000 ≤ f.reg.addr) (hh : f.reg.addr < 0x00E00000) : t.on f = s.on f := by
  unfold State.on
  rw [h.get hl hh]

theorem sessRec (h : FmKept s t) (k : Nat) : t.sessRec k = s.sessRec k := by
  unfold State.sessRec
  rw [h.sess]

theorem put (h : FmKept s t) {f : Fld} (v : Nat) (hf : f.reg.addr < 0x00800000 ∨ 0x00E00000 ≤ f.reg.addr) : FmKept s (t.put f v) where
  words x hl hh := (State.word_put_other t v (by omega)).trans (h.words x hl hh)
  fm := h.fm
  sess := h.sess

theorem onlyPmc (h : FmKept s t) {u : State} (hu : OnlyPmc t u) : FmKept s u where
  words x hl hh := (hu.2 x (by omega)).trans (h.words x hl hh)
  fm := by
    rw [hu.1]
    exact h.fm
  sess := by
    rw [hu.1]
    exact h.sess

theorem ite {c : Prop} [Decidable c] {u : State} (h : FmKept s t) (h' : FmKept s u) : FmKept s (if c then t else u) := by
  split
  · exact h
  · exact h'

/-- A field of an array of registers that lies above the Ferryman's. -/
theorem put_above (h : FmKept s t) {f : Fld} {b k : Nat} (v : Nat) (hf : f.reg.addr = b + k) (hb : 0x00E00000 ≤ b) : FmKept s (t.put f v) :=
  h.put v (.inr (by omega))

section
variable (h : FmKept s t)
include h

theorem pmcEvent (code : Nat) (kind : PmcKind) (k : Nat) : FmKept s (pmcEvent code kind k t) := h.onlyPmc (pmcEvent_only _ _ _ _)

theorem setBuf (pool i : Nat) (b : BufRec) : FmKept s (t.setBuf pool i b) := h.of_eq rfl rfl rfl

/-! ### Buffers (R437 to R440) -/

theorem poolReject (pool i cls kind : Nat) : FmKept s (poolReject pool i cls kind t) := by
  have hcount : FmKept s (if kind = 1 then (t.count (POOL_CNT0_DOUBLE_FREE pool)).ev POOL_EVENT_DOUBLE_FREE
      else if kind = 2 then (t.count (POOL_CNT1_OWNER_FAULT pool)).ev POOL_EVENT_OWNER_FAULT
      else (t.count (POOL_CNT2_REF_OVF pool)).ev POOL_EVENT_REF_OVF) :=
    ite ((h.put_above (f := POOL_CNT0_DOUBLE_FREE pool) _ rfl (by decide)).put 1 (by decide))
      (ite ((h.put_above (f := POOL_CNT1_OWNER_FAULT pool) _ rfl (by decide)).put 1 (by decide))
        ((h.put_above (f := POOL_CNT2_REF_OVF pool) _ rfl (by decide)).put 1 (by decide)))
  exact ite (hcount.put 1 (by decide)) (((((hcount.put 1 (by decide)).put i (by decide)).put pool (by decide)).put cls
    (by decide)).put kind (by decide))

theorem bufRelease (pool i : Nat) : FmKept s (bufRelease pool i t) := by
  have hfree := (h.setBuf pool i { written := (t.buf pool i).written }).put_above (f := POOL_FREE_V pool)
    (State.get (t.setBuf pool i { written := (t.buf pool i).written }) (POOL_FREE_V pool) + 1) rfl (by decide)
  exact ite (h.setBuf pool i _) (ite (hfree.pmcEvent _ _ _) hfree)

theorem poolFree (pool i cls : Nat) : FmKept s (poolFree pool i cls t).2 := by
  unfold Machine.poolFree
  dsimp only
  split_ifs
  · exact h.poolReject pool i cls 1
  · exact h.poolReject pool i cls 2
  · exact h.bufRelease pool i
  · exact h.setBuf pool i _

theorem poolEmpty (pool : Nat) : FmKept s (poolEmpty pool t) :=
  (h.put_above (f := POOL_CNT0_EMPTY_FAIL pool) _ rfl (by decide)).put 1 (by decide)

theorem poolAlloc (pool cls floor : Nat) : FmKept s (poolAlloc pool cls floor t).2 := by
  unfold Machine.poolAlloc
  dsimp only
  split
  · exact h.poolEmpty pool
  · have hput := ((h.setBuf pool (firstGap (allocated t pool) 0)
      { t.buf pool (firstGap (allocated t pool) 0) with alloc := true, owner := cls, refs := 1, age := t.epoch }).put_above
        (f := POOL_FREE_V pool) (t.get (POOL_FREE_V pool) - 1) rfl (by decide))
    exact ite (FmKept.pmcEvent (hput.put_above (f := POOL_LOW_WATER_V pool) _ rfl (by decide)) _ _ _)
      (hput.put_above (f := POOL_LOW_WATER_V pool) _ rfl (by decide))

/-! ### A major alarm (R576, R602) -/

theorem towlineSend (ty : Nat) (b : List Byte) : FmKept s (towlineSend ty b t) := by
  unfold Machine.towlineSend
  dsimp only
  split_ifs <;> exact h.of_eq rfl rfl rfl

theorem ownerChanged (was : Bool) : FmKept s (ownerChanged was t) := by
  have hsteps : FmKept s (if was then { t with tb := { t.tb with hostStep := none } } else { t with tb := { t.tb with ferryStep := none } }) :=
    ite (h.of_eq rfl rfl rfl) (h.of_eq rfl rfl rfl)
  exact ite h ((hsteps.put _ (by decide)).put _ (by decide))

theorem selfDemote (cause : Nat) : FmKept s (selfDemote cause t) :=
  ite ((((h.towlineSend 6 _).put _ (by decide)).ownerChanged _).put 1 (by decide)) h

theorem raiseMajor (b : Nat) : FmKept s (raiseMajor b t) := by
  have hbit : FmKept s (t.putBit FLT_MAJOR_B b true) := h.put (f := ⟨FLT_MAJOR_B.reg, FLT_MAJOR_B.lsb + b, 1⟩) _ (by simp only; decide)
  exact ite (hbit.selfDemote 1) hbit

end

end FmKept

end Sys2Proof.Machine
end

section
/-!
PROOFS. An expiry that has the turn: the timer it names is found and taken, its meaning acts unless a waiting message forestalls it, and a
periodic timer falls due again (R335, R338, R357, R358).
-/

namespace Sys2Proof.Machine

open Sys2Proof

variable {kind : TimerKind} {k : Nat} {f : State → State} {s : State}

/-- The timer found is the one named. -/
theorem timerFound_is (kind : TimerKind) (k : Nat) (s : State) : (timerFound kind k s).kind = kind ∧ (timerFound kind k s).who = k := by
  unfold timerFound
  cases hfind : s.fm.wheel.find? (fun t => t.kind == kind && t.who == k) with
  | none => exact ⟨rfl, rfl⟩
  | some t => simpa using List.find?_some hfind

/-- In its turn an expiry is served at the front of the timer queue. -/
theorem expire_turn (h : TimerTurn s) : expire kind k f s = timerServe (timerFound kind k s) []
    f { timerStop kind k s with fm := { (timerStop kind k s).fm with timerq := [timerFound kind k s] } } := by
  obtain ⟨hq, hreset, hturn⟩ := h
  obtain ⟨hkind, hwho⟩ := timerFound_is kind k s
  have hstop : (timerStop kind k s).fm.timerq = [] := by
    simp [timerStop, hq]
  have hfree : (!s.fm.timersTurn && !s.fm.rxq.isEmpty) = false := by
    rcases hturn with ht | hr
    · simp [ht]
    · simp [hr]
  unfold expire
  dsimp only
  rw [if_neg (by simp [hq]), hstop]
  change (if (!((timerFound kind k s).kind == kind && (timerFound kind k s).who == k) || s.on FM_STATUS_RESETTING ||
    (!s.fm.timersTurn && !s.fm.rxq.isEmpty)) = true then _ else timerServe (timerFound kind k s) [] f _) = _
  rw [hkind, hwho, hreset, hfree, if_neg (by simp)]
  rfl

/-- An expiry that a waiting message forestalls is gone, and has no other effect (R358). -/
theorem expire_forestalled (h : TimerTurn s) (hw : restartWaits (timerTaken kind k s) (timerFound kind k s) = true) :
    expire kind k f s = timerTaken kind k s := by
  rw [expire_turn h]
  exact if_pos hw

/-- Else its meaning acts, and a periodic timer that still runs is set again. -/
theorem expire_acts (h : TimerTurn s) (hw : restartWaits (timerTaken kind k s) (timerFound kind k s) = false) :
    expire kind k f s = if periodic kind then timerAgain kind k (timerFound kind k s).due (f (timerTaken kind k s))
      else f (timerTaken kind k s) := by
  obtain ⟨hkind, hwho⟩ := timerFound_is kind k s
  rw [expire_turn h]
  refine (if_neg (ne_true_of_eq_false hw)).trans ?_
  rw [hkind, hwho]
  cases periodic kind with
  | true => rfl
  | false => rfl

/-- Messages restart the receipt timers alone. -/
theorem restartWaits_receipt {t : FmTimer} (h : t.kind ≠ .annReceipt ∧ t.kind ≠ .syncReceipt ∧ t.kind ≠ .l1Receipt) :
    restartWaits s t = false := by
  obtain ⟨hann, hsync, hl1⟩ := h
  unfold restartWaits
  refine List.any_eq_false.2 fun m _ => ?_
  split
  · exact absurd ‹_› hann
  · exact absurd ‹_› hsync
  · exact absurd ‹_› hl1
  · simp

/-- No message forestalls a timer of another kind, and one that is not periodic acts once. -/
theorem expire_once (h : TimerTurn s) (hk : kind ≠ .annReceipt ∧ kind ≠ .syncReceipt ∧ kind ≠ .l1Receipt) (hp : periodic kind = false) :
    expire kind k f s = f (timerTaken kind k s) := by
  rw [expire_acts h (restartWaits_receipt (by rw [(timerFound_is kind k s).1]; exact hk)), hp]
  rfl

/-- A periodic one acts, and is set again. -/
theorem expire_periodic (h : TimerTurn s) (hp : periodic kind = true) :
    expire kind k f s = timerAgain kind k (timerFound kind k s).due (f (timerTaken kind k s)) := by
  have hk : kind ≠ .annReceipt ∧ kind ≠ .syncReceipt ∧ kind ≠ .l1Receipt := by
    refine ⟨?_, ?_, ?_⟩ <;> rintro rfl <;> exact absurd hp (by decide)
  rw [expire_acts h (restartWaits_receipt (by rw [(timerFound_is kind k s).1]; exact hk)), hp]
  rfl

end Sys2Proof.Machine
end

section
/-!
PROOFS. The Ferryman's enables and resets: the writes of its block, its domains and its sessions, the block reset, and the stalls (R327,
R329, R333, R355 to R357).
-/

namespace Sys2Proof.Machine

open Sys2Proof

/-! ### The writes of the block (R329, R357) -/

theorem namesOneWord_ferryCtrl : namesOneWord FM_CTRL .FM_CTRL 0 0 = true := by decide +kernel

theorem plain_ferryEn : FM_CTRL_EN.plain = true := by decide +kernel

theorem carried_ferryReset : FM_CTRL_RESET.carried = true := by decide +kernel

theorem regEffect_ferryCtrl {R : RegWrite} (c : State) (hid : R.id = .FM_CTRL) : regEffect R c = ferryWritten R c := by
  unfold regEffect
  rw [hid]

/-- A row that writes the block's EN: the write stands with that value, and the Ferryman acts. -/
theorem ferryEn_stands {m : BusMaster} {x : Nat} {v : Word} {s : State} (hw : Writable m FM_CTRL (withField FM_CTRL_EN x v) s) : ∃ R c,
    Stands m .FM_CTRL 0 0 FM_CTRL.one (withField FM_CTRL_EN x v).toNat s R c ∧ R.now FM_CTRL_EN = x % 2 ∧
      run (busSet m FM_CTRL_EN x v) s = .next (settle s (ferryWritten R c)) := by
  obtain ⟨R, c, hst, hnow, hrun⟩ := Writable.stands_field (f := FM_CTRL_EN) hw namesOneWord_ferryCtrl plain_ferryEn rfl (by decide)
    (by decide) (by decide)
  obtain ⟨-, hid, -, -, -⟩ := hst.who
  exact ⟨R, c, hst, hnow, by rw [← regEffect_ferryCtrl c hid]; exact hrun⟩

theorem ferryReset_stands {m : BusMaster} {v : Word} {s : State} (hw : Writable m FM_CTRL (withField FM_CTRL_RESET 1 v) s) : ∃ R c,
    Stands m .FM_CTRL 0 0 FM_CTRL.one (withField FM_CTRL_RESET 1 v).toNat s R c ∧ R.field R.v FM_CTRL_RESET = 1 ∧
      run (busSet m FM_CTRL_RESET 1 v) s = .next (settle s (ferryWritten R c)) := by
  obtain ⟨R, c, hst, hv, hrun⟩ := Writable.stands_carried (f := FM_CTRL_RESET) hw namesOneWord_ferryCtrl carried_ferryReset (by decide)
    (by decide) (by decide)
  obtain ⟨-, hid, -, -, -⟩ := hst.who
  exact ⟨R, c, hst, hv, by rw [← regEffect_ferryCtrl c hid]; exact hrun⟩

/-! ### The writes of a domain and of a session (R327, R329, R333) -/

theorem namesOneWord_domCfg (d : Fin 4) : namesOneWord (FM_DOM_CFG d) .FM_DOM_CFG d 0 = true := by
  revert d
  decide +kernel

theorem plain_domEn (d : Fin 4) : (FM_DOM_CFG_EN d).plain = true := by
  revert d
  decide +kernel

theorem regEffect_domCfg {R : RegWrite} (c : State) (hid : R.id = .FM_DOM_CFG) : regEffect R c = domWritten R c := by
  unfold regEffect
  rw [hid]

theorem domEn_stands {m : BusMaster} {d : Fin 4} {x : Nat} {v : Word} {s : State}
    (hw : Writable m (FM_DOM_CFG d) (withField (FM_DOM_CFG_EN d) x v) s) : ∃ R c,
    Stands m .FM_DOM_CFG d 0 (FM_DOM_CFG d).one (withField (FM_DOM_CFG_EN d) x v).toNat s R c ∧ R.now (FM_DOM_CFG_EN d) = x % 2 ∧
      run (busSet m (FM_DOM_CFG_EN d) x v) s = .next (settle s (domWritten R c)) := by
  obtain ⟨R, c, hst, hnow, hrun⟩ := Writable.stands_field (f := FM_DOM_CFG_EN d) hw (namesOneWord_domCfg d) (plain_domEn d) rfl
    (Nat.le_of_ble_eq_true rfl) (by simp only [FM_DOM_CFG_EN, FM_DOM_CFG]; omega) (by decide)
  obtain ⟨-, hid, -, -, -⟩ := hst.who
  exact ⟨R, c, hst, hnow, by rw [← regEffect_domCfg c hid]; exact hrun⟩

theorem namesOneWord_sessCfg (k : Fin 512) : namesOneWord (FM_SESS_CFG k) .FM_SESS_CFG k 0 = true := by
  revert k
  decide +kernel

theorem plain_sessEn (k : Fin 512) : (FM_SESS_CFG_EN k).plain = true := by
  revert k
  decide +kernel

theorem regEffect_sessCfg {R : RegWrite} (c : State) (hid : R.id = .FM_SESS_CFG) : regEffect R c = sessWritten R c := by
  unfold regEffect
  rw [hid]

theorem sessEn_stands {m : BusMaster} {k : Fin 512} {x : Nat} {v : Word} {s : State}
    (hw : Writable m (FM_SESS_CFG k) (withField (FM_SESS_CFG_EN k) x v) s) : ∃ R c,
    Stands m .FM_SESS_CFG k 0 (FM_SESS_CFG k).one (withField (FM_SESS_CFG_EN k) x v).toNat s R c ∧ R.now (FM_SESS_CFG_EN k) = x % 2 ∧
      run (busSet m (FM_SESS_CFG_EN k) x v) s = .next (settle s (sessWritten R c)) := by
  obtain ⟨R, c, hst, hnow, hrun⟩ := Writable.stands_field (f := FM_SESS_CFG_EN k) hw (namesOneWord_sessCfg k) (plain_sessEn k) rfl
    (Nat.le_of_ble_eq_true rfl) (by simp only [FM_SESS_CFG_EN, FM_SESS_CFG]; omega) (by decide)
  obtain ⟨-, hid, -, -, -⟩ := hst.who
  exact ⟨R, c, hst, hnow, by rw [← regEffect_sessCfg c hid]; exact hrun⟩

/-! ### The block reset (R355, R357) -/

/-- Both queues are empty after a block reset, and the block shows that it is under way, whatever alarm it raises. -/
theorem blockReset_shows (s : State) :
    (blockReset s).fm.rxq = [] ∧ (blockReset s).fm.timerq = [] ∧ (blockReset s).on FM_STATUS_RESETTING = true := by
  have hset : ∀ u : State, (u.put FM_STATUS_RESETTING 1).on FM_STATUS_RESETTING = true :=
    fun u => State.on_put_same u (by decide) (by decide)
  unfold blockReset
  dsimp only
  split
  · rw [((FmKept.refl _).raiseMajor 5).fm, ((FmKept.refl _).raiseMajor 5).on (by decide) (by decide)]
    exact ⟨rfl, rfl, hset _⟩
  · exact ⟨rfl, rfl, hset _⟩

theorem blockResetDone_ends {s : State} (h : s.on FM_STATUS_RESETTING = true) :
    (blockResetDone s).on FM_STATUS_RESETTING = false ∧ (blockResetDone s).on FM_EVENT_BLOCK_RESET = true ∧
      (blockResetDone s).fm = s.fm := by
  rw [blockResetDone, if_pos h]
  refine ⟨?_, State.on_ev_same _ (by decide) (by decide), rfl⟩
  rw [State.on_false, State.ev_eq, State.get_put_reg _ _ (by decide), State.get_put_fits _ (by decide) (by decide)]

theorem blockResetDone_unchanged {s : State} (h : s.on FM_STATUS_RESETTING = false) : blockResetDone s = s :=
  if_neg (ne_true_of_eq_false h)

theorem engineStall_resets {s : State} (h : s.on FM_STATUS_RESETTING = false) : engineStall s = blockReset s :=
  if_neg (ne_true_of_eq_false h)

theorem engineStall_unchanged {s : State} (h : s.on FM_STATUS_RESETTING = true) : engineStall s = s := if_pos h

/-! ### The reset and the commitment of a session (R329, R333, R355) -/

theorem sessionStall_unchanged {k : Nat} {s : State} (h : sessState s k = 3 ∨ sessState s k = 2 ∨ (s.sessRec k).committed = false) :
    sessionStall k s = s := by
  unfold sessionStall
  split
  · rfl
  next h3 => exact if_pos (h.resolve_left h3 |>.symm.imp_left fun hc => by rw [hc]; rfl)

theorem sessionStall_resets {k : Nat} {s : State} (h3 : sessState s k ≠ 3) : sessionStall k s = sessReset true k s := if_neg h3

theorem sessRefusal_lt (s : State) (k : Nat) : sessRefusal s k < 16 := by
  unfold sessRefusal
  dsimp only
  split_ifs <;> decide

/-- A session that may not commit stays as it was, with the cause shown. -/
theorem sessCommit_refused {k : Nat} {s : State} (hr : sessRefusal s k ≠ 0) (hw : sessWanted s k = true)
    (hc : (s.sessRec k).committed = false) (hs : s.on (FM_SESS_STATUS_SUSPENDED k) = false) :
    sessCommit k s = s.put (FM_SESS_STATUS_REFUSED k) (sessRefusal s k) := by
  unfold sessCommit
  rw [if_neg (by simp [hw, hc, hs])]
  exact if_pos hr

/-- Settles O41: each write stands and acts, and the resets and the refusal by the case their conditions name. -/
theorem ferrymanEnablesAndResets : Obligations.FerrymanEnablesAndResets := by
  refine ⟨fun m v s hw => ferryEn_stands hw, fun m v s hw => ferryEn_stands hw, fun m v s hw => ferryReset_stands hw,
    fun m d v s hw => domEn_stands hw, fun m d v s hw => domEn_stands hw, fun m k v s hw => sessEn_stands hw,
    fun m k v s hw => sessEn_stands hw, fun s hs h => ⟨_, timed_served blockResetDone s hs, blockResetDone_ends h⟩,
    fun s hs h => timed_eq hs (blockResetDone_unchanged h), blockReset_shows, fun s hs h => timed_eq hs (engineStall_resets h),
    fun s hs h => timed_eq hs (engineStall_unchanged h), fun k s hs h => timed_eq hs (sessionStall_unchanged h),
    fun k s hs h3 h2 hc => timed_eq hs (sessionStall_resets h3), fun k s hr hw hc hs => ?_⟩
  rw [sessCommit_refused hr hw hc hs]
  exact ⟨hc, State.get_put_fits s (Nat.le_of_ble_eq_true rfl) (sessRefusal_lt s k)⟩

end Sys2Proof.Machine
end

section
/-!
PROOFS. The receive queue: when its front is served, and what each message acts on (R335, R337, R340, R343, R344, R346, R348).
-/

namespace Sys2Proof.Machine

open Sys2Proof

/-! ### Service (R335) -/

section
variable {ty : Nat} {f : PtpMsg → State → State} {m : PtpMsg} {l : List PtpMsg} {s : State}

theorem serve_empty (h : s.fm.rxq = []) : serve ty f s = s := by
  unfold serve
  rw [h]

theorem serve_waits (h : s.fm.rxq = m :: l)
    (hw : m.ty ≠ ty ∨ s.on FM_STATUS_RESETTING = true ∨ (s.fm.timersTurn = true ∧ s.fm.timerq ≠ [])) : serve ty f s = s := by
  unfold serve
  rw [h]
  exact if_pos hw

/-- The front has left the queue, and its buffer is released. -/
def rxTaken (m : PtpMsg) (l : List PtpMsg) (s : State) : State :=
  (poolFree 3 m.buf clsFerryman { s with fm := { s.fm with rxq := l, timersTurn := true } }).2

theorem rxTaken_kept (m : PtpMsg) (l : List PtpMsg) (s : State) :
    FmKept { s with fm := { s.fm with rxq := l, timersTurn := true } } (rxTaken m l s) := (FmKept.refl _).poolFree 3 m.buf clsFerryman

theorem serve_acts (h : s.fm.rxq = m :: l) (hty : m.ty = ty) (hr : s.on FM_STATUS_RESETTING = false)
    (ht : s.fm.timersTurn = false ∨ s.fm.timerq = []) :
    serve ty f s = if (s.sessRec m.sess).committed then f m ((rxTaken m l s).count (FM_SESS_CNT0_RX m.sess))
      else (rxTaken m l s).count FM_CNT1_NO_SESSION := by
  have hturn : ¬ (m.ty ≠ ty ∨ s.on FM_STATUS_RESETTING = true ∨ (s.fm.timersTurn = true ∧ s.fm.timerq ≠ [])) := by
    rcases ht with ht | ht <;> simp [hty, hr, ht]
  have hrec : (rxTaken m l s).sessRec m.sess = s.sessRec m.sess := (rxTaken_kept m l s).sessRec m.sess
  rw [← hrec]
  unfold serve
  rw [h]
  exact if_neg hturn

/-- A row of the receive queue has no effect on an empty queue, on another type, in a block reset or in the timers' turn; else it takes
the front, and the message acts for a committed session. -/
theorem serve_rows (hs : Served s) :
    (s.fm.rxq = [] → timed (serve ty f) s = .next (settle s s)) ∧
    (∀ m l, s.fm.rxq = m :: l → (m.ty ≠ ty ∨ s.on FM_STATUS_RESETTING = true ∨ (s.fm.timersTurn = true ∧ s.fm.timerq ≠ [])) →
      timed (serve ty f) s = .next (settle s s)) ∧
    (∀ m l, s.fm.rxq = m :: l → m.ty = ty → s.on FM_STATUS_RESETTING = false → (s.fm.timersTurn = false ∨ s.fm.timerq = []) →
      ∃ c : State, c = (poolFree 3 m.buf clsFerryman { s with fm := { s.fm with rxq := l, timersTurn := true } }).2 ∧ c.fm.rxq = l ∧
      ((s.sessRec m.sess).committed = true → timed (serve ty f) s = .next (settle s (f m (c.count (FM_SESS_CNT0_RX m.sess))))) ∧
      ((s.sessRec m.sess).committed = false → timed (serve ty f) s = .next (settle s (c.count FM_CNT1_NO_SESSION)))) := by
  refine ⟨fun h => timed_eq hs (serve_empty h), fun m l h hw => timed_eq hs (serve_waits h hw), fun m l h hty hr ht =>
    ⟨rxTaken m l s, rfl, congrArg FmRec.rxq (rxTaken_kept m l s).fm, fun hc => timed_eq hs ?_, fun hc => timed_eq hs ?_⟩⟩
  · rw [serve_acts h hty hr ht, if_pos hc]
  · rw [serve_acts h hty hr ht, if_neg (ne_true_of_eq_false hc)]

end

/-! ### Messages without effect (R340, R343, R344, R346, R348) -/

section
variable {m : PtpMsg} {s : State}

theorem syncRx_unchanged (h : takesSync s m.sess = false ∨ fromParent s m = false) : syncRx m s = s :=
  if_pos (by rcases h with h | h <;> simp [h])

theorem delayReqRx_unchanged (h : sessState s m.sess ≠ 6 ∨ s.tbState = 0 ∨ s.on (FM_SESS_CFG_DELAY m.sess) = true) :
    delayReqRx m s = s :=
  if_neg (by rcases h with h | h | h <;> simp [h])

theorem pdelayReqRx_unchanged (h : s.on (FM_SESS_CFG_DELAY m.sess) = false) : pdelayReqRx m s = s := if_neg (by simp [h])

theorem announceRx_unchanged (h : 255 ≤ (announceRead s m).steps) : announceRx m s = s := if_pos (by simp [h])

theorem followUpRx_unawaited (h : (s.sessRec m.sess).waitFu = none) : followUpRx m s = s := by
  unfold followUpRx
  dsimp only
  rw [h]

theorem followUpRx_other {y : SyncRec} (h : (s.sessRec m.sess).waitFu = some y) (hy : y.seq ≠ m.seq) : followUpRx m s = s := by
  unfold followUpRx
  dsimp only
  rw [h]
  exact if_neg fun hm => hy hm.1

theorem delayRespRx_unasked (h : (s.sessRec m.sess).exch = none) : delayRespRx m s = s := by
  unfold delayRespRx
  dsimp only
  rw [h]

theorem delayRespRx_other {x : ExchRec} (h : (s.sessRec m.sess).exch = some x) (hx : x.seq ≠ m.seq) : delayRespRx m s = s := by
  unfold delayRespRx
  dsimp only
  rw [h]
  exact if_neg (by simp [hx])

theorem pdelayRespRx_unasked (h : (s.sessRec m.sess).pexch = none) : pdelayRespRx m s = s := by
  unfold pdelayRespRx
  dsimp only
  rw [h]

theorem pdelayFuRx_unasked (h : (s.sessRec m.sess).pexch = none) : pdelayFuRx m s = s := by
  unfold pdelayFuRx
  dsimp only
  rw [h]

theorem signalingRx_idle (h : l1State s m.sess = 0) : signalingRx m s = s := by
  unfold signalingRx
  split
  · rfl
  · exact if_pos h

end

/-- Settles O42: each row serves the front of the queue by its type, and a message without what it needs leaves the state. -/
theorem ferrymanMessagesReceived : Obligations.FerrymanMessagesReceived := by
  refine ⟨fun e he s hs => ?_, fun m s => ⟨syncRx_unchanged, delayReqRx_unchanged, followUpRx_unawaited, fun y => followUpRx_other,
    delayRespRx_unasked, fun x => delayRespRx_other, fun h => ⟨pdelayRespRx_unasked h, pdelayFuRx_unasked h⟩, pdelayReqRx_unchanged,
    announceRx_unchanged, signalingRx_idle⟩⟩
  simp only [List.mem_cons, List.not_mem_nil, or_false] at he
  rcases he with rfl | rfl | rfl | rfl | rfl | rfl | rfl | rfl | rfl
  all_goals exact serve_rows hs

end Sys2Proof.Machine
end

section
/-!
PROOFS. The state a session takes, the reference of its domain, and what ends its exchanges (R333, R346, R351, R355).
-/

namespace Sys2Proof.Machine

open Sys2Proof

variable {k : Nat} {s : State}

theorem sessDom_lt (s : State) (k : Nat) : sessDom s k < 4 := State.get_lt s (FM_SESS_CFG_DOMAIN k)

theorem sessPort_lt (s : State) (k : Nat) : sessPort s k < 128 := State.get_lt s (FM_SESS_CFG_PORT k)

/-- The domains' status lies below the sessions' registers. -/
theorem domStatus_lt {d : Nat} (hd : d < 4) : (FM_DOM_STATUS d).addr < 0x00D10000 := by
  simp only [FM_DOM_STATUS]
  omega

theorem State.sessRec_put (s : State) (f : Fld) (v k : Nat) : (s.put f v).sessRec k = s.sessRec k := rfl

/-! ### What follows a session's state (R334, R351) -/

theorem sessRefresh_word {x : Reg} (hx : x.addr ≠ (FM_SESS_STATUS k).addr) : (sessRefresh k s).word x = s.word x := by
  unfold sessRefresh
  dsimp only
  rw [State.putB_eq, State.word_put_other _ (f := FM_SESS_STATUS_DEGRADED k) _ hx,
    State.word_put_other _ (f := FM_SESS_STATUS_L1SYNC k) _ hx, State.putB_eq,
    State.word_put_other _ (f := FM_SESS_STATUS_RECEIVING k) _ hx]

/-- The state stands in the low four bits of its register. -/
theorem sessState_put (s : State) {f : Fld} (v : Nat) (hr : FM_SESS_STATUS k = f.reg) (hl : 4 ≤ f.lsb) :
    sessState (s.put f v) k = sessState s k :=
  State.get_put_bits s (f := FM_SESS_STATUS_STATE k) v hr (Nat.le_of_ble_eq_true rfl) (.inl hl)

theorem sessRefresh_state (k : Nat) (s : State) : sessState (sessRefresh k s) k = sessState s k := by
  unfold sessRefresh
  dsimp only
  rw [State.putB_eq, sessState_put _ (f := FM_SESS_STATUS_DEGRADED k) _ rfl (Nat.le_of_ble_eq_true rfl),
    sessState_put _ (f := FM_SESS_STATUS_L1SYNC k) _ rfl (Nat.le_of_ble_eq_true rfl), State.putB_eq,
    sessState_put _ (f := FM_SESS_STATUS_RECEIVING k) _ rfl (Nat.le_of_ble_eq_true rfl)]

theorem sessRefresh_sess (k : Nat) (s : State) : (sessRefresh k s).sess = s.sess := rfl

/-- The SLAVE session of a domain and the validity of its reference, as they are shown. -/
def trefShown (d : Nat) (s : State) : State :=
  ((s.put (FM_DOM_STATUS_SLAVE_SESS d) ((slaveOf s d).getD 0)).putB (FM_DOM_STATUS_SLAVE_VALID d) (slaveOf s d).isSome).putB
    (FM_DOM_STATUS_TREF_VALID d) (match slaveOf s d with
      | some k => (s.sessRec k).syncGood
      | none => false)

/-- A reference that was not valid is not lost. -/
theorem trefRefresh_void {d : Nat} (h : s.on (FM_DOM_STATUS_TREF_VALID d) = false) : trefRefresh d s = trefShown d s :=
  if_neg (by simp [h])

theorem trefShown_word {d : Nat} {x : Reg} (hx : x.addr ≠ (FM_DOM_STATUS d).addr) : (trefShown d s).word x = s.word x := by
  unfold trefShown
  rw [State.putB_eq, State.word_put_other _ (f := FM_DOM_STATUS_TREF_VALID d) _ hx, State.putB_eq,
    State.word_put_other _ (f := FM_DOM_STATUS_SLAVE_VALID d) _ hx, State.word_put_other _ (f := FM_DOM_STATUS_SLAVE_SESS d) _ hx]

theorem trefShown_get {d : Nat} {f : Fld} (hd : d < 4) (hf : 0x00D10000 ≤ f.reg.addr) : (trefShown d s).get f = s.get f := by
  unfold State.get
  rw [trefShown_word (by have := domStatus_lt hd; omega)]

theorem trefShown_sessRec (d k : Nat) (s : State) : (trefShown d s).sessRec k = s.sessRec k := rfl

/-! ### A session takes a state (R333) -/

/-- At entry to LISTENING the Announce receipt timer's expiry is still to come. -/
def sessListens (k st : Nat) (s : State) : State :=
  if st = 4 ∧ sessState s k ≠ 4 then s.setSess k { s.sessRec k with annDone := false } else s

theorem sessListens_regs (k st : Nat) (s : State) : (sessListens k st s).regs = s.regs := by
  unfold sessListens
  split <;> rfl

theorem sessListens_annDone (st : Nat) (h : (s.sessRec k).annDone = false) : ((sessListens k st s).sessRec k).annDone = false := by
  unfold sessListens
  split
  · rw [State.setSess_sessRec]
  · exact h

/-- While its domain's reference is not valid a session takes a state and nothing is lost. -/
theorem sessSet_void (st : Nat) (ht : s.on (FM_DOM_STATUS_TREF_VALID (sessDom s k)) = false) :
    sessSet k st s = trefShown (sessDom s k) (sessRefresh k ((sessListens k st s).put (FM_SESS_STATUS_STATE k) st)) := by
  have hd : sessDom (sessListens k st s) k = sessDom s k := State.get_of_regs (sessListens_regs k st s) _
  have hlt := domStatus_lt (sessDom_lt s k)
  have hne : (FM_DOM_STATUS_TREF_VALID (sessDom s k)).reg.addr ≠ (FM_SESS_STATUS k).addr := by
    have hk : 0x00D10000 ≤ (FM_SESS_STATUS k).addr := Nat.le_add_right_of_le (by decide)
    have hr : (FM_DOM_STATUS_TREF_VALID (sessDom s k)).reg = FM_DOM_STATUS (sessDom s k) := rfl
    rw [hr]
    omega
  have hvoid : (sessRefresh k ((sessListens k st s).put (FM_SESS_STATUS_STATE k) st)).on (FM_DOM_STATUS_TREF_VALID (sessDom s k)) = false := by
    rw [← ht]
    unfold State.on State.get
    rw [sessRefresh_word hne, State.word_put_other _ (f := FM_SESS_STATUS_STATE k) _ hne, State.word_congr (sessListens_regs k st s)]
  rw [← trefRefresh_void hvoid, ← hd]
  rfl

theorem sessSet_void_state {st : Nat} (hst : st < 16) (ht : s.on (FM_DOM_STATUS_TREF_VALID (sessDom s k)) = false) :
    sessState (sessSet k st s) k = st := by
  rw [sessSet_void st ht]
  refine (trefShown_get (sessDom_lt s k) (Nat.le_add_right_of_le (by decide))).trans ((sessRefresh_state k _).trans ?_)
  exact State.get_put_fits _ (Nat.le_of_ble_eq_true rfl) hst

theorem sessSet_void_annDone (st : Nat) (ht : s.on (FM_DOM_STATUS_TREF_VALID (sessDom s k)) = false)
    (h : (s.sessRec k).annDone = false) : ((sessSet k st s).sessRec k).annDone = false := by
  rw [sessSet_void st ht]
  exact sessListens_annDone st h

/-! ### Exchanges (R346, R355) -/

theorem delayComplete_unasked (h : (s.sessRec k).exch = none) : delayComplete k s = s := by
  unfold delayComplete
  dsimp only
  rw [h]

/-- What the end of an exchange may change: the session's two exchanges, its losses in a row, their count and NO_DELAY. -/
structure ExchOnly (k : Nat) (s t : State) : Prop where
  words : ∀ x : Reg, x.addr ≠ (FM_SESS_CNT1 k).addr → x.addr ≠ (FM_SESS_STATUS k).addr → t.word x = s.word x
  ports : t.ports = s.ports
  record : t.sessRec k = { s.sessRec k with exch := (t.sessRec k).exch, pexch := (t.sessRec k).pexch, lost := (t.sessRec k).lost }

theorem ExchOnly.trans {s t u : State} (h : ExchOnly k s t) (h' : ExchOnly k t u) : ExchOnly k s u where
  words x h1 h2 := (h'.words x h1 h2).trans (h.words x h1 h2)
  ports := h'.ports.trans h.ports
  record := by
    rw [h'.record, h.record]

theorem exchOnly_setSess (x p : Option ExchRec) (s : State) : ExchOnly k s (s.setSess k { s.sessRec k with exch := x, pexch := p }) where
  words _ _ _ := rfl
  ports := rfl
  record := by rw [State.setSess_sessRec]

/-- One more exchange is lost in a row. -/
theorem responseLost_rec (k : Nat) (s : State) : (responseLost k s).sessRec k = { s.sessRec k with lost := (s.sessRec k).lost + 1 } := by
  have hrec := State.setSess_sessRec (s.count (FM_SESS_CNT1_LOST_RESP k)) k { s.sessRec k with lost := (s.sessRec k).lost + 1 }
  unfold responseLost
  dsimp only
  rw [State.count_eq, State.sessRec_put]
  split
  · rw [State.sessRec_put]
    exact hrec
  · exact hrec

theorem responseLost_word {x : Reg} (h1 : x.addr ≠ (FM_SESS_CNT1 k).addr) (h2 : x.addr ≠ (FM_SESS_STATUS k).addr) :
    (responseLost k s).word x = s.word x := by
  have hcount : (s.count (FM_SESS_CNT1_LOST_RESP k)).word x = s.word x := State.word_put_other s _ h1
  unfold responseLost
  dsimp only
  split
  · exact (State.word_put_other _ (f := FM_SESS_STATUS_NO_DELAY k) _ h2).trans hcount
  · exact hcount

theorem responseLost_only (k : Nat) (s : State) : ExchOnly k s (responseLost k s) where
  words _ h1 h2 := responseLost_word h1 h2
  ports := by
    unfold responseLost
    dsimp only
    split <;> rfl
  record := by rw [responseLost_rec]

/-- It counts, and as many in a row as LOST_RESP says show NO_DELAY. -/
theorem responseLost_shows (k : Nat) (s : State) :
    (responseLost k s).get (FM_SESS_CNT1_LOST_RESP k) = (s.get (FM_SESS_CNT1_LOST_RESP k) + 1) % 2 ^ (FM_SESS_CNT1_LOST_RESP k).width ∧
      (s.get (FM_SESS_VLAN_LOST_RESP k) ≤ (s.sessRec k).lost + 1 → (responseLost k s).on (FM_SESS_STATUS_NO_DELAY k) = true) := by
  have hcount := State.get_count_same s (FM_SESS_CNT1_LOST_RESP k) 1 (Nat.le_of_ble_eq_true rfl)
  have hlimit : (s.count (FM_SESS_CNT1_LOST_RESP k)).get (FM_SESS_VLAN_LOST_RESP k) = s.get (FM_SESS_VLAN_LOST_RESP k) :=
    State.get_put_reg s _ (by simp only [FM_SESS_VLAN_LOST_RESP, FM_SESS_VLAN, FM_SESS_CNT1_LOST_RESP, FM_SESS_CNT1]; omega)
  unfold responseLost
  dsimp only
  rw [State.setSess_get, hlimit]
  split
  · refine ⟨?_, fun _ => State.on_put_same _ (Nat.le_of_ble_eq_true rfl) Nat.one_lt_two⟩
    rw [State.get_put_reg _ _ (by simp only [FM_SESS_CNT1_LOST_RESP, FM_SESS_CNT1, FM_SESS_STATUS_NO_DELAY, FM_SESS_STATUS]; omega)]
    exact hcount
  next h => exact ⟨hcount, fun hn => absurd hn h⟩

/-- The response timer ends the delay request's exchange, lost where it is unanswered. -/
def requestEnded (k : Nat) (s : State) : State :=
  match (s.sessRec k).exch with
  | some x => if x.answered then s.setSess k { s.sessRec k with exch := none }
    else responseLost k (s.setSess k { s.sessRec k with exch := none })
  | none => s

/-- It ends the peer-delay exchange. -/
def peerEnded (k : Nat) (s : State) : State :=
  match (s.sessRec k).pexch with
  | some x => if x.answered && !x.needFu then s.setSess k { s.sessRec k with pexch := none }
    else responseLost k (s.setSess k { s.sessRec k with pexch := none })
  | none => s

theorem responseTimeout_eq (k : Nat) (s : State) : responseTimeout k s = peerEnded k (requestEnded k s) := rfl

theorem requestEnded_only (k : Nat) (s : State) : ExchOnly k s (requestEnded k s) ∧ ((requestEnded k s).sessRec k).exch = none := by
  have hend := exchOnly_setSess (k := k) none (s.sessRec k).pexch s
  have hnone : ((s.setSess k { s.sessRec k with exch := none }).sessRec k).exch = none := by rw [State.setSess_sessRec]
  unfold requestEnded
  split
  · split
    · exact ⟨hend, hnone⟩
    · exact ⟨hend.trans (responseLost_only k _), by rw [responseLost_rec]; exact hnone⟩
  next h => exact ⟨⟨fun _ _ _ => rfl, rfl, rfl⟩, h⟩

theorem peerEnded_only (k : Nat) (s : State) : ExchOnly k s (peerEnded k s) ∧ ((peerEnded k s).sessRec k).pexch = none ∧
    ((peerEnded k s).sessRec k).exch = (s.sessRec k).exch := by
  have hend := exchOnly_setSess (k := k) (s.sessRec k).exch none s
  have hrec : (s.setSess k { s.sessRec k with pexch := none }).sessRec k = { s.sessRec k with pexch := none } := State.setSess_sessRec s k _
  unfold peerEnded
  split
  · split
    · exact ⟨hend, by rw [hrec], by rw [hrec]⟩
    · exact ⟨hend.trans (responseLost_only k _), by rw [responseLost_rec, hrec], by rw [responseLost_rec, hrec]⟩
  next h => exact ⟨⟨fun _ _ _ => rfl, rfl, rfl⟩, h, rfl⟩

theorem responseTimeout_only (k : Nat) (s : State) : ExchOnly k s (responseTimeout k s) :=
  (requestEnded_only k s).1.trans (peerEnded_only k _).1

/-- No exchange is left. -/
theorem responseTimeout_ends (k : Nat) (s : State) :
    ((responseTimeout k s).sessRec k).exch = none ∧ ((responseTimeout k s).sessRec k).pexch = none := by
  obtain ⟨-, hpexch, hexch⟩ := peerEnded_only k (requestEnded k s)
  rw [responseTimeout_eq]
  exact ⟨hexch.trans (requestEnded_only k s).2, hpexch⟩

/-- A delay request left without an answer is lost. -/
theorem responseTimeout_loses {x : ExchRec} (hx : (s.sessRec k).exch = some x) (ha : x.answered = false) (hp : (s.sessRec k).pexch = none) :
    responseTimeout k s = responseLost k (s.setSess k { s.sessRec k with exch := none }) := by
  have hreq : requestEnded k s = responseLost k (s.setSess k { s.sessRec k with exch := none }) := by
    unfold requestEnded
    rw [hx]
    exact if_neg (ne_true_of_eq_false ha)
  rw [responseTimeout_eq, hreq]
  unfold peerEnded
  rw [responseLost_rec, State.setSess_sessRec]
  dsimp only
  rw [hp]

theorem responseTimeout_loses_shows {x : ExchRec} (hx : (s.sessRec k).exch = some x) (ha : x.answered = false)
    (hp : (s.sessRec k).pexch = none) : ∃ u, u = responseTimeout k s ∧ (u.sessRec k).lost = (s.sessRec k).lost + 1 ∧
      u.get (FM_SESS_CNT1_LOST_RESP k) = (s.get (FM_SESS_CNT1_LOST_RESP k) + 1) % 2 ^ (FM_SESS_CNT1_LOST_RESP k).width ∧
      (s.get (FM_SESS_VLAN_LOST_RESP k) ≤ (s.sessRec k).lost + 1 → u.on (FM_SESS_STATUS_NO_DELAY k) = true) := by
  have hrec := State.setSess_sessRec s k { s.sessRec k with exch := none }
  obtain ⟨hcount, hshown⟩ := responseLost_shows k (s.setSess k { s.sessRec k with exch := none })
  rw [hrec] at hshown
  refine ⟨_, rfl, ?_⟩
  rw [responseTimeout_loses hx ha hp, responseLost_rec, hrec]
  exact ⟨rfl, hcount, hshown⟩

end Sys2Proof.Machine
end

section
/-!
PROOFS. State decisions, initialisation, qualification and the receipt timers of the sessions (R333, R334, R340, R348, R351, R355, R360).
-/

namespace Sys2Proof.Machine

open Sys2Proof

variable {d k : Nat} {s : State}

/-! ### Decisions (R340, R342, R360) -/

theorem stateDecision_unchanged (h : domTc s d = true ∨ s.on (FM_DOM_CFG_EN d) = false ∨ s.on FM_CTRL_EN = false) :
    stateDecision d s = s :=
  if_pos (by rcases h with h | h | h <;> simp [h])

/-- Without a session the domain is its own grandmaster. -/
theorem stateDecision_alone (ht : domTc s d = false) (he : s.on (FM_DOM_CFG_EN d) = true) (hf : s.on FM_CTRL_EN = true)
    (hc : committed s = []) : stateDecision d s = parentSet d none s := by
  have hsess : domSess s d = [] := by rw [domSess, hc, List.filter_nil]
  have hks : deciding s d = [] := by rw [deciding, hsess, List.filter_nil]
  unfold stateDecision
  rw [if_neg (by simp [ht, he, hf]), hks]
  change (if (true && (domSess s d).any _) = true then s else parentSet d none s) = _
  rw [hsess]
  rfl

theorem State.domRec_putWide (s : State) (w : Wide) (v n : Nat) : (s.putWide w v).domRec n = s.domRec n := by
  unfold State.putWide
  rw [State.putWideFrom_eq]
  rfl

theorem State.domRec_put (s : State) (f : Fld) (v n : Nat) : (s.put f v).domRec n = s.domRec n := rfl

/-- The domain has no parent, and shows its own identity as the grandmaster's. -/
def ownGrandmaster (d : Nat) (s : State) : State :=
  let s := s.setDom d { s.domRec d with parent := none }
  let s := ((s.putWide (FM_DOM_PARENT d) 0).put (FM_DOM_PARENT_PORT_PORT d) 0).put (FM_DOM_PARENT_PORT_GM_CLASS d) 255
  ((s.putWide (FM_DOM_GM d) (domClockId s d)).put (FM_DOM_STATUS_GM d) 1).put (FM_DOM_STATUS_STEPS_REMOVED d) 0

/-- A change of parent sets its event besides. -/
theorem parentSet_none (d : Nat) (s : State) :
    parentSet d none s = ownGrandmaster d s ∨ parentSet d none s = (ownGrandmaster d s).ev FM_EVENT_PARENT := by
  unfold parentSet
  dsimp only
  split
  · exact .inl rfl
  · exact .inr rfl

/-- The last two fields written are in one register, and both stand. -/
theorem grandmaster_put_shows (d : Nat) (s : State) :
    ((s.put (FM_DOM_STATUS_GM d) 1).put (FM_DOM_STATUS_STEPS_REMOVED d) 0).get (FM_DOM_STATUS_GM d) = 1 ∧
      ((s.put (FM_DOM_STATUS_GM d) 1).put (FM_DOM_STATUS_STEPS_REMOVED d) 0).get (FM_DOM_STATUS_STEPS_REMOVED d) = 0 := by
  refine ⟨?_, State.get_put_fits _ (Nat.le_of_ble_eq_true rfl) (Nat.two_pow_pos 8)⟩
  rw [State.get_put_bits _ (f := FM_DOM_STATUS_GM d) (g := FM_DOM_STATUS_STEPS_REMOVED d) _ rfl (Nat.le_of_ble_eq_true rfl)
    (.inl (Nat.le_of_ble_eq_true rfl))]
  exact State.get_put_fits _ (Nat.le_of_ble_eq_true rfl) Nat.one_lt_two

theorem ownGrandmaster_shows (d : Nat) (s : State) : ((ownGrandmaster d s).domRec d).parent = none ∧
    (ownGrandmaster d s).get (FM_DOM_STATUS_GM d) = 1 ∧ (ownGrandmaster d s).get (FM_DOM_STATUS_STEPS_REMOVED d) = 0 := by
  unfold ownGrandmaster
  dsimp only
  refine ⟨?_, grandmaster_put_shows d _⟩
  simp only [State.domRec_put, State.domRec_putWide, State.setDom_domRec]

theorem parentSet_own (d : Nat) (s : State) : ((parentSet d none s).domRec d).parent = none ∧
    (parentSet d none s).on (FM_DOM_STATUS_GM d) = true ∧ (parentSet d none s).get (FM_DOM_STATUS_STEPS_REMOVED d) = 0 := by
  have hev : (FM_DOM_STATUS d).addr ≠ FM_EVENT_PARENT.reg.addr := by
    simp only [FM_DOM_STATUS, FM_EVENT_PARENT, FM_EVENT]
    omega
  obtain ⟨hparent, hgm, hsteps⟩ := ownGrandmaster_shows d s
  rw [State.on_true]
  rcases parentSet_none d s with h | h
  · rw [h, hgm]
    exact ⟨hparent, Nat.one_ne_zero, hsteps⟩
  · rw [h, State.ev_eq, State.domRec_put, State.get_put_reg _ (f := FM_DOM_STATUS_GM d) _ hev,
      State.get_put_reg _ (f := FM_DOM_STATUS_STEPS_REMOVED d) _ hev, hgm]
    exact ⟨hparent, Nat.one_ne_zero, hsteps⟩

/-! ### Initialisation and qualification (R333) -/

theorem initComplete_listens (h : sessState s k = 1) :
    initComplete k s = sessSet k 4 (s.setSess k { s.sessRec k with annDone := false }) := if_pos h

theorem initComplete_shows (h : sessState s k = 1) (ht : s.on (FM_DOM_STATUS_TREF_VALID (sessDom s k)) = false) :
    sessState (initComplete k s) k = 4 ∧ ((initComplete k s).sessRec k).annDone = false := by
  rw [initComplete_listens h]
  exact ⟨sessSet_void_state (by decide) ht, sessSet_void_annDone 4 ht (by rw [State.setSess_sessRec])⟩

theorem initComplete_unchanged (h : sessState s k ≠ 1) : initComplete k s = s := if_neg h

theorem qualificationTimeout_master (h : sessState s k = 5) (ht : s.on (FM_DOM_STATUS_TREF_VALID (sessDom s k)) = false) :
    sessState (qualificationTimeout k s) k = 6 := by
  rw [qualificationTimeout, if_pos h]
  exact sessSet_void_state (by decide) ht

theorem qualificationTimeout_unchanged (h : sessState s k ≠ 5) : qualificationTimeout k s = s := if_neg h

/-! ### Receipt timers (R334, R340, R348, R351, R355) -/

theorem announceTimeout_decides (h : sessState s k ∈ ([4, 7, 8, 9] : List Nat)) (ht : domTc s (sessDom s k) = false) :
    announceTimeout k s = stateDecision (sessDom s k)
      ((s.setSess k { s.sessRec k with foreign := [], annDone := true }).count (FM_SESS_CNT2_ANN_TO k)) :=
  if_pos (by simpa [ht] using h)

theorem announceTimeout_unchanged (h : sessState s k ∉ ([4, 7, 8, 9] : List Nat) ∨ domTc s (sessDom s k) = true) :
    announceTimeout k s = s :=
  if_neg (by rcases h with h | h <;> simp_all)

theorem syncTimeout_unchanged (h : takesSync s k = false) : syncTimeout k s = s := if_neg (ne_true_of_eq_false h)

/-- Offsets from Sync end, and the expiry counts; a Sync that waits goes on waiting. -/
theorem syncTimeout_shows (h : takesSync s k = true) (ht : s.on (FM_DOM_STATUS_TREF_VALID (sessDom s k)) = false) :
    ((syncTimeout k s).sessRec k).syncGood = false ∧ ((syncTimeout k s).sessRec k).syncOut = true ∧
      ((syncTimeout k s).sessRec k).waitFu = (s.sessRec k).waitFu ∧
      (syncTimeout k s).get (FM_SESS_CNT2_SYNC_TO k) = (s.get (FM_SESS_CNT2_SYNC_TO k) + 1) % 2 ^ (FM_SESS_CNT2_SYNC_TO k).width := by
  have hrec := State.setSess_sessRec s k { s.sessRec k with syncGood := false, syncOut := true }
  have heq : syncTimeout k s = trefShown (sessDom s k)
      ((s.setSess k { s.sessRec k with syncGood := false, syncOut := true }).count (FM_SESS_CNT2_SYNC_TO k)) := by
    rw [syncTimeout, if_pos h]
    have hlt := domStatus_lt (sessDom_lt s k)
    have hne : (FM_DOM_STATUS (sessDom s k)).addr ≠ (FM_SESS_CNT2 k).addr :=
      Nat.ne_of_lt (Nat.lt_of_lt_of_le hlt (Nat.le_add_right_of_le (by decide)))
    refine trefRefresh_void ?_
    unfold State.on at ht ⊢
    rw [State.count_eq, State.get_put_reg _ (g := FM_SESS_CNT2_SYNC_TO k) _ hne]
    exact ht
  rw [heq, trefShown_sessRec, State.count_eq, State.sessRec_put, hrec]
  refine ⟨rfl, rfl, rfl, (trefShown_get (sessDom_lt s k) (Nat.le_add_right_of_le (by decide))).trans ?_⟩
  exact State.get_put_same _ _ _ (Nat.le_of_ble_eq_true rfl)

theorem followUpTimeout_unchanged (h : (s.sessRec k).waitFu = none) : followUpTimeout k s = s := if_neg (by simp [h])

theorem followUpTimeout_discards (hw : (s.sessRec k).waitFu ≠ none) (hx : (s.sessRec k).exch = none) :
    followUpTimeout k s = sessDiscard k (s.setSess k { s.sessRec k with waitFu := none }) := by
  have hrec : (sessDiscard k (s.setSess k { s.sessRec k with waitFu := none })).sessRec k = { s.sessRec k with waitFu := none } :=
    State.setSess_sessRec s k _
  rw [followUpTimeout, if_pos (Option.isSome_iff_ne_none.2 hw)]
  exact delayComplete_unasked (by rw [hrec]; exact hx)

theorem followUpTimeout_shows (hw : (s.sessRec k).waitFu ≠ none) (hx : (s.sessRec k).exch = none) :
    ((followUpTimeout k s).sessRec k).waitFu = none ∧
      (followUpTimeout k s).get (FM_SESS_CNT3_DISCARD k) = (s.get (FM_SESS_CNT3_DISCARD k) + 1) % 2 ^ (FM_SESS_CNT3_DISCARD k).width := by
  rw [followUpTimeout_discards hw hx]
  refine ⟨?_, State.get_count_same _ _ 1 (Nat.le_of_ble_eq_true rfl)⟩
  rw [sessDiscard, State.count_eq, State.sessRec_put, State.setSess_sessRec]

theorem l1Timeout_idle (h : l1State s k ≠ 0) : l1Timeout k s = sessRefresh k (s.setSess k { s.sessRec k with l1Peer := none }) := if_neg h

theorem l1Timeout_unchanged (h : l1State s k = 0) : l1Timeout k s = s := if_pos h

/-- Settles O44: an expiry by its turn and by what forestalls it, and each timer's meaning by the case its conditions name. -/
theorem ferrymanTimersAndDecisions : Obligations.FerrymanTimersAndDecisions := by
  exact ⟨fun d s hs ht => timed_eq hs (expire_periodic ht rfl), fun d s h => stateDecision_unchanged h,
    fun d s ht he hf hc => stateDecision_alone ht he hf hc, fun d s => parentSet_own d s,
    fun k s hs h ht => ⟨_, timed_served (initComplete k) s hs, initComplete_shows h ht⟩,
    fun k s hs h => timed_eq hs (initComplete_listens h), fun k s hs h => timed_eq hs (initComplete_unchanged h),
    fun k s hs ht => timed_eq hs (expire_once ht (by decide) rfl), fun k s h ht => qualificationTimeout_master h ht,
    fun k s h => qualificationTimeout_unchanged h,
    fun k s hs ht hw => timed_eq hs (expire_acts ht hw), fun k s hs ht hw => timed_eq hs (expire_forestalled ht hw),
    fun k s h ht => announceTimeout_decides h ht, fun k s h => announceTimeout_unchanged h,
    fun k s hs ht hw => timed_eq hs (expire_acts ht hw), fun k s hs ht hw => timed_eq hs (expire_forestalled ht hw),
    fun k s h ht => ⟨_, rfl, syncTimeout_shows h ht⟩, fun k s h => syncTimeout_unchanged h,
    fun k s hs ht => timed_eq hs (expire_once ht (by decide) rfl), fun k s hw hx => followUpTimeout_shows hw hx,
    fun k s h => followUpTimeout_unchanged h,
    fun k s hs ht => timed_eq hs (expire_once ht (by decide) rfl), fun k s => responseTimeout_ends k s,
    fun k x s hx ha hp => responseTimeout_loses_shows hx ha hp,
    fun k s hs ht hw => timed_eq hs (expire_acts ht hw), fun k s hs ht hw => timed_eq hs (expire_forestalled ht hw),
    fun k s h => l1Timeout_idle h, fun k s h => l1Timeout_unchanged h⟩

end Sys2Proof.Machine
end

section
/-!
PROOFS. A message sent: its buffer of pool 3, its count, and the egress of its port (R337, R339, R343).
-/

namespace Sys2Proof.Machine

open Sys2Proof

/-! ### The buffer (R437, R438) -/

section
variable {pool cls : Nat} {s : State}

theorem poolAlloc_grants (hfree : 0 < s.get (POOL_FREE_V pool)) (hen : s.on (POOL_CFG_EN pool) = true) :
    ∃ b u, poolAlloc pool cls 0 s = (some b, u) := by
  unfold poolAlloc
  dsimp only
  rw [if_neg (by simp [hen]; omega)]
  exact ⟨_, _, rfl⟩

theorem poolAlloc_empty (hfree : s.get (POOL_FREE_V pool) = 0) : poolAlloc pool cls 0 s = (none, poolEmpty pool s) :=
  if_pos (.inl (Nat.le_of_eq hfree))

theorem pmcEvent_ports (code : Nat) (kind : PmcKind) (n : Nat) (s : State) : (pmcEvent code kind n s).ports = s.ports := by
  rw [(pmcEvent_only code kind n s).1]

theorem poolAlloc_ports (pool cls floor : Nat) (s : State) : (poolAlloc pool cls floor s).2.ports = s.ports := by
  unfold poolAlloc
  dsimp only
  split
  · rfl
  · dsimp only
    split
    · exact pmcEvent_ports _ _ _ _
    · rfl

end

/-! ### The count and the egress (R337, R339) -/

section
variable {k : Nat} {s t : State}

/-- The ports' status lies below the sessions' registers. -/
theorem macStatus_lt {p : Nat} (hp : p < 128) : (MAC_STATUS p).addr < 0x00D10000 := by
  simp only [MAC_STATUS]
  omega

theorem State.portUp_of_word {p : Nat} (h : t.word (MAC_STATUS p) = s.word (MAC_STATUS p)) : t.portUp p = s.portUp p := by
  unfold State.portUp State.get
  rw [show (MAC_STATUS_STATE p).reg = MAC_STATUS p from rfl, h]

theorem State.portRec_of_ports (h : t.ports = s.ports) (p : Nat) : t.portRec p = s.portRec p := by
  unfold State.portRec
  rw [h]

/-- A message of the session is counted; the registers of the ports and of the Ferryman are otherwise as they were, and so are the sessions'
and the ports' records. -/
structure TxCounted (k : Nat) (s t : State) : Prop where
  tx : t.get (FM_SESS_CNT0_TX k) = (s.get (FM_SESS_CNT0_TX k) + 1) % 2 ^ (FM_SESS_CNT0_TX k).width
  words : ∀ x : Reg, 0x00800000 ≤ x.addr → x.addr < 0x00E00000 → x.addr ≠ (FM_SESS_CNT0 k).addr → t.word x = s.word x
  sess : t.sess = s.sess
  ports : t.ports = s.ports

/-- The session's counters lie in the Ferryman's block. -/
theorem sessCnt0_within (hk : k < 512) : 0x00D10000 ≤ (FM_SESS_CNT0 k).addr ∧ (FM_SESS_CNT0 k).addr < 0x00E00000 := by
  simp only [FM_SESS_CNT0]
  omega

/-- The state in which a message with its buffer is handed over. -/
def txCounted (k : Nat) (s : State) : State := pmcEvent 0x041 .plain 1 ((poolAlloc 3 clsFerryman 0 s).2.count (FM_SESS_CNT0_TX k))

theorem txCounted_counts (hk : k < 512) (s : State) : TxCounted k s (txCounted k s) := by
  obtain ⟨hlo, hhi⟩ := sessCnt0_within hk
  have halloc := (FmKept.refl s).poolAlloc 3 clsFerryman 0
  have hpmc := pmcEvent_only 0x041 .plain 1 ((poolAlloc 3 clsFerryman 0 s).2.count (FM_SESS_CNT0_TX k))
  refine ⟨?_, fun x hl hh hx => ?_, ?_, ?_⟩
  · have hbefore : (poolAlloc 3 clsFerryman 0 s).2.get (FM_SESS_CNT0_TX k) = s.get (FM_SESS_CNT0_TX k) :=
      halloc.get (f := FM_SESS_CNT0_TX k) (Nat.le_trans (by decide) hlo) hhi
    rw [← hbefore]
    exact (hpmc.get (FM_SESS_CNT0_TX k) (Nat.lt_trans hhi (by decide))).trans (State.get_count_same _ _ 1 (Nat.le_of_ble_eq_true rfl))
  · exact (hpmc.2 x (Nat.lt_trans hh (by decide))).trans ((State.word_put_other _ (f := FM_SESS_CNT0_TX k) _ hx).trans (halloc.words x hl hh))
  · exact ((FmKept.refl _).onlyPmc hpmc).sess.trans halloc.sess
  · exact (pmcEvent_ports _ _ _ _).trans (poolAlloc_ports _ _ _ _)

/-- The registers a port's state and a session's port are read from stay. -/
theorem TxCounted.portUp (h : TxCounted k s t) (hk : k < 512) {p : Nat} (hp : p < 128) : t.portUp p = s.portUp p := by
  obtain ⟨hlo, -⟩ := sessCnt0_within hk
  have haddr := macStatus_lt hp
  exact State.portUp_of_word (h.words (MAC_STATUS p) (Nat.le_add_right_of_le (by decide)) (Nat.lt_trans haddr (by decide))
    (Nat.ne_of_lt (Nat.lt_of_lt_of_le haddr hlo)))

theorem TxCounted.sessPort (h : TxCounted k s t) (hk : k < 512) : Machine.sessPort t k = Machine.sessPort s k := by
  unfold Machine.sessPort State.get
  rw [h.words (FM_SESS_CFG_PORT k).reg (Nat.le_add_right_of_le (by decide)) (by simp only [FM_SESS_CFG_PORT, FM_SESS_CFG]; omega)
    (by simp only [FM_SESS_CFG_PORT, FM_SESS_CFG, FM_SESS_CNT0]; omega)]

/-- A message goes to the egress of the session's port, or is dropped where that is not UP. -/
def ferryPut (k : Nat) (o : OrigMsg) (s : State) : State :=
  if s.portUp (sessPort s k) then
    s.setPort (sessPort s k) { s.portRec (sessPort s k) with ferry := (s.portRec (sessPort s k)).ferry ++ [o] }
  else ferryDrop (sessPort s k) o s

theorem fmSend_granted {ty flags seq op kind base : Nat} {corr logInt : Int} {body : List Byte} (hfree : 0 < s.get (POOL_FREE_V 3))
    (hen : s.on (POOL_CFG_EN 3) = true) :
    ∃ o, fmSend k ty flags corr seq logInt body op kind base s = (true, ferryPut k o (txCounted k s)) := by
  obtain ⟨b, u, hb⟩ := poolAlloc_grants (cls := clsFerryman) hfree hen
  unfold fmSend txCounted ferryPut
  rw [hb]
  dsimp only
  split
  · exact ⟨_, rfl⟩
  · exact ⟨_, rfl⟩

theorem fmSend_empty {ty flags seq op kind base : Nat} {corr logInt : Int} {body : List Byte} (hfree : s.get (POOL_FREE_V 3) = 0) :
    fmSend k ty flags corr seq logInt body op kind base s =
      (false, ((poolEmpty 3 s).count FM_CNT0_POOL_EMPTY).ev FM_EVENT_POOL_EMPTY) := by
  unfold fmSend
  rw [poolAlloc_empty hfree]

/-- A message dropped at the egress leaves the Ferryman's registers. -/
theorem ferryDrop_get {p : Nat} {o : OrigMsg} {f : Fld} (hp : p < 128) (hl : 0x00D10000 ≤ f.reg.addr) (hh : f.reg.addr < 0x00E00000) :
    (ferryDrop p o s).get f = s.get f := by
  have hdropped : (MAC_CNT1 p).addr < 0x00D10000 := by
    simp only [MAC_CNT1]
    omega
  have hcount : (pmcEvent 0x022 (.frame 7) 1 ((poolFree 3 o.buf clsFerryman s).2.count (MAC_CNT1_DROPPED p))).get f = s.get f := by
    rw [(pmcEvent_only _ _ _ _).get f (Nat.lt_trans hh (by decide)), State.count_eq,
      State.get_put_reg _ (g := MAC_CNT1_DROPPED p) _ (Nat.ne_of_gt (Nat.lt_of_lt_of_le hdropped hl))]
    exact ((FmKept.refl s).poolFree 3 o.buf clsFerryman).get (Nat.le_trans (by decide) hl) hh
  unfold ferryDrop
  dsimp only
  split <;> exact hcount

/-- A message is sent: it counts, and the egress of a port that is UP holds it. -/
structure Sent (k : Nat) (s t : State) : Prop where
  tx : t.get (FM_SESS_CNT0_TX k) = (s.get (FM_SESS_CNT0_TX k) + 1) % 2 ^ (FM_SESS_CNT0_TX k).width
  held : s.portUp (sessPort s k) = true →
    (t.portRec (sessPort s k)).ferry.length = (s.portRec (sessPort s k)).ferry.length + 1

theorem Sent.setSess (h : Sent k s t) (n : Nat) (r : SessRec) : Sent k s (t.setSess n r) := ⟨h.tx, h.held⟩

theorem ferryPut_sent (h : TxCounted k s t) (hk : k < 512) (o : OrigMsg) :
    Sent k s (ferryPut k o t) ∧ (s.portUp (sessPort s k) = true → (ferryPut k o t).sess = s.sess) := by
  have hup := h.portUp hk (sessPort_lt s k)
  have hrec := State.portRec_of_ports h.ports (sessPort s k)
  obtain ⟨hlo, hhi⟩ := sessCnt0_within hk
  unfold ferryPut
  rw [h.sessPort hk, hup, hrec]
  split
  · refine ⟨⟨h.tx, fun _ => ?_⟩, fun _ => h.sess⟩
    rw [State.setPort_portRec, List.length_append]
    rfl
  next hdown =>
    exact ⟨⟨(ferryDrop_get (f := FM_SESS_CNT0_TX k) (sessPort_lt s k) hlo hhi).trans h.tx, fun h => absurd h hdown⟩,
      fun h => absurd h hdown⟩

section
variable {ty flags seq op kind base : Nat} {corr logInt : Int} {body : List Byte} (hfree : 0 < s.get (POOL_FREE_V 3))
  (hen : s.on (POOL_CFG_EN 3) = true)
include hfree hen

theorem fmSend_made : (fmSend k ty flags corr seq logInt body op kind base s).1 = true := by
  obtain ⟨o, ho⟩ := fmSend_granted (k := k) hfree hen
  rw [ho]

theorem fmSend_sent (hk : k < 512) : Sent k s (fmSend k ty flags corr seq logInt body op kind base s).2 := by
  obtain ⟨o, ho⟩ := fmSend_granted (k := k) hfree hen
  rw [ho]
  exact (ferryPut_sent (txCounted_counts hk s) hk o).1

/-- While the port is UP the sessions' records stay. -/
theorem fmSend_sess (hk : k < 512) (hup : s.portUp (sessPort s k) = true) :
    (fmSend k ty flags corr seq logInt body op kind base s).2.sess = s.sess := by
  obtain ⟨o, ho⟩ := fmSend_granted (k := k) hfree hen
  rw [ho]
  exact (ferryPut_sent (txCounted_counts hk s) hk o).2 hup

end

end

/-! ### The messages that fall due (R334, R338, R342 to R345, R351) -/

section
variable {k : Nat} {s : State}

theorem syncSend_unchanged (h : sessState s k ≠ 6 ∨ s.tbState = 0) : syncSend k s = s := if_neg (by rcases h with h | h <;> simp [h])

theorem announceSend_unchanged (h : sessState s k ≠ 6 ∨ s.tbState = 0) : announceSend k s = s :=
  if_neg (by rcases h with h | h <;> simp [h])

theorem delayReqSend_unchanged (h : takesSync s k = false ∨ s.on (FM_SESS_CFG_DELAY k) = true ∨ domTc s (sessDom s k) = true) :
    delayReqSend k s = s := if_neg (by rcases h with h | h | h <;> simp [h])

theorem pdelayReqSend_unchanged (h : sessLive s k = false ∨ s.on (FM_SESS_CFG_DELAY k) = false) : pdelayReqSend k s = s :=
  if_neg (by rcases h with h | h <;> simp [h])

theorem l1Send_unchanged (h : sessLive s k = false ∨ l1State s k = 0) : l1Send k s = s :=
  if_neg (by rcases h with h | h <;> simp [h])

theorem syncSend_sent (hk : k < 512) (hm : sessState s k = 6) (ht : s.tbState ≠ 0) (hfree : 0 < s.get (POOL_FREE_V 3))
    (hen : s.on (POOL_CFG_EN 3) = true) :
    Sent k s (syncSend k s) ∧ ((syncSend k s).sessRec k).syncSeq = ((s.sessRec k).syncSeq + 1) % 65536 := by
  unfold syncSend
  rw [if_pos ⟨hm, ht⟩]
  dsimp only
  rw [if_pos (fmSend_made hfree hen)]
  exact ⟨(fmSend_sent hfree hen hk).setSess _ _, by rw [State.setSess_sessRec]⟩

/-- Without a buffer no number is used. -/
theorem syncSend_empty (hm : sessState s k = 6) (ht : s.tbState ≠ 0) (hfree : s.get (POOL_FREE_V 3) = 0) :
    syncSend k s = ((poolEmpty 3 s).count FM_CNT0_POOL_EMPTY).ev FM_EVENT_POOL_EMPTY := by
  unfold syncSend
  rw [if_pos ⟨hm, ht⟩]
  dsimp only
  rw [fmSend_empty hfree]
  exact if_neg Bool.false_ne_true

theorem announceSend_sent (hk : k < 512) (hm : sessState s k = 6) (ht : s.tbState ≠ 0) (hfree : 0 < s.get (POOL_FREE_V 3))
    (hen : s.on (POOL_CFG_EN 3) = true) :
    Sent k s (announceSend k s) ∧ ((announceSend k s).sessRec k).annSeq = ((s.sessRec k).annSeq + 1) % 65536 := by
  unfold announceSend
  rw [if_pos ⟨hm, ht⟩]
  dsimp only
  rw [if_pos (fmSend_made hfree hen)]
  exact ⟨(fmSend_sent hfree hen hk).setSess _ _, by rw [State.setSess_sessRec]⟩

theorem l1Send_sent (hk : k < 512) (hl : sessLive s k = true) (h1 : l1State s k ≠ 0) (hfree : 0 < s.get (POOL_FREE_V 3))
    (hen : s.on (POOL_CFG_EN 3) = true) :
    Sent k s (l1Send k s) ∧ ((l1Send k s).sessRec k).sigSeq = ((s.sessRec k).sigSeq + 1) % 65536 := by
  unfold l1Send
  rw [if_pos (by simp [hl, h1])]
  dsimp only
  rw [if_pos (fmSend_made hfree hen)]
  exact ⟨(fmSend_sent hfree hen hk).setSess _ _, by rw [State.setSess_sessRec]⟩

/-! ### The requests, before which an exchange still open ends (R343, R355) -/

/-- The end of an exchange leaves what a message is sent by. -/
theorem ExchOnly.get {t : State} (h : ExchOnly k s t) {f : Fld} (h1 : f.reg.addr ≠ (FM_SESS_CNT1 k).addr)
    (h2 : f.reg.addr ≠ (FM_SESS_STATUS k).addr) : t.get f = s.get f := by
  unfold State.get
  rw [h.words f.reg h1 h2]

theorem ExchOnly.get_above {t : State} (h : ExchOnly k s t) (hk : k < 512) {f : Fld} (hf : 0x01800000 ≤ f.reg.addr) : t.get f = s.get f :=
  h.get (by simp only [FM_SESS_CNT1]; omega) (by simp only [FM_SESS_STATUS]; omega)

theorem ExchOnly.sessPort {t : State} (h : ExchOnly k s t) : Machine.sessPort t k = Machine.sessPort s k :=
  h.get (by simp only [FM_SESS_CFG_PORT, FM_SESS_CFG, FM_SESS_CNT1]; omega) (by simp only [FM_SESS_CFG_PORT, FM_SESS_CFG, FM_SESS_STATUS]; omega)

theorem ExchOnly.portUp {t : State} (h : ExchOnly k s t) {p : Nat} (hp : p < 128) : t.portUp p = s.portUp p := by
  have hstatus := macStatus_lt hp
  exact State.portUp_of_word (h.words (MAC_STATUS p) (Nat.ne_of_lt (Nat.lt_of_lt_of_le hstatus (Nat.le_add_right_of_le (by decide))))
    (Nat.ne_of_lt (Nat.lt_of_lt_of_le hstatus (Nat.le_add_right_of_le (by decide)))))

theorem ExchOnly.sent {t u : State} (h : ExchOnly k s t) (h' : Sent k t u) : Sent k s u := by
  have hrec := State.portRec_of_ports h.ports (Machine.sessPort s k)
  obtain ⟨htx, hheld⟩ := h'
  rw [h.sessPort, h.portUp (sessPort_lt s k), hrec] at hheld
  rw [h.get (by simp only [FM_SESS_CNT0_TX, FM_SESS_CNT0, FM_SESS_CNT1]; omega)
    (by simp only [FM_SESS_CNT0_TX, FM_SESS_CNT0, FM_SESS_STATUS]; omega)] at htx
  exact ⟨htx, hheld⟩

/-- A new exchange of the delay mechanism is open, of the next sequence number. -/
def delayAsked (k : Nat) (s : State) : State :=
  (responseTimeout k s).setSess k { (responseTimeout k s).sessRec k with exch := some { seq := ((responseTimeout k s).sessRec k).delaySeq } }

/-- A new exchange of peer delay is open. -/
def peerAsked (k : Nat) (s : State) : State :=
  (responseTimeout k s).setSess k { (responseTimeout k s).sessRec k with pexch := some { seq := ((responseTimeout k s).sessRec k).pdelaySeq } }

theorem delayAsked_only (k : Nat) (s : State) : ExchOnly k s (delayAsked k s) :=
  (responseTimeout_only k s).trans (exchOnly_setSess _ ((responseTimeout k s).sessRec k).pexch _)

theorem peerAsked_only (k : Nat) (s : State) : ExchOnly k s (peerAsked k s) :=
  (responseTimeout_only k s).trans (exchOnly_setSess ((responseTimeout k s).sessRec k).exch _ _)

theorem responseTimeout_seqs (k : Nat) (s : State) : ((responseTimeout k s).sessRec k).delaySeq = (s.sessRec k).delaySeq ∧
    ((responseTimeout k s).sessRec k).pdelaySeq = (s.sessRec k).pdelaySeq :=
  ⟨(congrArg SessRec.delaySeq (responseTimeout_only k s).record).trans rfl,
    (congrArg SessRec.pdelaySeq (responseTimeout_only k s).record).trans rfl⟩

section
variable {ty flags seq op kind base : Nat} {corr logInt : Int} {body : List Byte} {t : State} (h : ExchOnly k s t) (hk : k < 512)
  (hfree : 0 < s.get (POOL_FREE_V 3)) (hen : s.on (POOL_CFG_EN 3) = true)
include h hk hfree hen

/-- With a buffer before the exchanges changed there is one after. -/
theorem ExchOnly.buffer : 0 < t.get (POOL_FREE_V 3) ∧ t.on (POOL_CFG_EN 3) = true := by
  unfold State.on at hen ⊢
  rw [h.get_above hk (f := POOL_FREE_V 3) (by decide), h.get_above hk (f := POOL_CFG_EN 3) (by decide)]
  exact ⟨hfree, hen⟩

theorem ExchOnly.fmSend_made : (fmSend k ty flags corr seq logInt body op kind base t).1 = true := by
  obtain ⟨hfree, hen⟩ := h.buffer hk hfree hen
  exact Machine.fmSend_made hfree hen

theorem ExchOnly.fmSend_sent : Sent k s (fmSend k ty flags corr seq logInt body op kind base t).2 := by
  obtain ⟨hfree, hen⟩ := h.buffer hk hfree hen
  exact h.sent (Machine.fmSend_sent hfree hen hk)

theorem ExchOnly.fmSend_rec (hup : s.portUp (Machine.sessPort s k) = true) :
    (fmSend k ty flags corr seq logInt body op kind base t).2.sessRec k = t.sessRec k := by
  obtain ⟨hfree, hen⟩ := h.buffer hk hfree hen
  rw [← h.portUp (sessPort_lt s k), ← h.sessPort] at hup
  unfold State.sessRec
  rw [fmSend_sess hfree hen hk hup]

end

theorem delayReqSend_sent (hk : k < 512) (ht : takesSync s k = true) (hd : s.on (FM_SESS_CFG_DELAY k) = false)
    (htc : domTc s (sessDom s k) = false) (hfree : 0 < s.get (POOL_FREE_V 3)) (hen : s.on (POOL_CFG_EN 3) = true) :
    Sent k s (delayReqSend k s) ∧ ((delayReqSend k s).sessRec k).delaySeq = ((s.sessRec k).delaySeq + 1) % 65536 ∧
      (s.portUp (sessPort s k) = true → ((delayReqSend k s).sessRec k).exch = some { seq := (s.sessRec k).delaySeq }) := by
  have hask := delayAsked_only k s
  obtain ⟨hseq, -⟩ := responseTimeout_seqs k s
  have hopen : ((delayAsked k s).sessRec k).exch = some { seq := (s.sessRec k).delaySeq } := by
    rw [delayAsked, State.setSess_sessRec, hseq]
  unfold delayReqSend
  rw [if_pos (by simp [ht, hd, htc])]
  dsimp only
  rw [← delayAsked, if_pos (hask.fmSend_made hk hfree hen), State.setSess_sessRec, hseq]
  exact ⟨(hask.fmSend_sent hk hfree hen).setSess _ _, rfl,
    fun hup => (congrArg SessRec.exch (hask.fmSend_rec hk hfree hen hup)).trans hopen⟩

theorem pdelayReqSend_sent (hk : k < 512) (hl : sessLive s k = true) (hd : s.on (FM_SESS_CFG_DELAY k) = true)
    (hfree : 0 < s.get (POOL_FREE_V 3)) (hen : s.on (POOL_CFG_EN 3) = true) :
    Sent k s (pdelayReqSend k s) ∧ ((pdelayReqSend k s).sessRec k).pdelaySeq = ((s.sessRec k).pdelaySeq + 1) % 65536 ∧
      (s.portUp (sessPort s k) = true → ((pdelayReqSend k s).sessRec k).pexch = some { seq := (s.sessRec k).pdelaySeq }) := by
  have hask := peerAsked_only k s
  obtain ⟨-, hseq⟩ := responseTimeout_seqs k s
  have hopen : ((peerAsked k s).sessRec k).pexch = some { seq := (s.sessRec k).pdelaySeq } := by
    rw [peerAsked, State.setSess_sessRec, hseq]
  unfold pdelayReqSend
  rw [if_pos (by simp [hl, hd])]
  dsimp only
  rw [← peerAsked, if_pos (hask.fmSend_made hk hfree hen), State.setSess_sessRec, hseq]
  exact ⟨(hask.fmSend_sent hk hfree hen).setSess _ _, rfl,
    fun hup => (congrArg SessRec.pexch (hask.fmSend_rec hk hfree hen hup)).trans hopen⟩

end

/-! ### Stamps that come back (R339, R343) -/

section
variable {t : StampRet} {l : List StampRet} {s : State}

theorem stampReturn_none (h : s.fm.stamps = []) : stampReturn s = s := by
  unfold stampReturn
  rw [h]

/-- The first stamp has come back, and its message's buffer is released. -/
def stampTaken (t : StampRet) (l : List StampRet) (s : State) : State :=
  (poolFree 3 t.buf clsFerryman { s with fm := { s.fm with stamps := l } }).2

theorem stampTaken_kept (t : StampRet) (l : List StampRet) (s : State) : FmKept { s with fm := { s.fm with stamps := l } } (stampTaken t l s) :=
  (FmKept.refl _).poolFree 3 t.buf clsFerryman

theorem stampTaken_sessRec (t : StampRet) (l : List StampRet) (s : State) (k : Nat) : (stampTaken t l s).sessRec k = s.sessRec k :=
  (stampTaken_kept t l s).sessRec k

theorem stampReturn_uncommitted (h : s.fm.stamps = t :: l) (hc : (s.sessRec t.sess).committed = false) :
    stampReturn s = stampTaken t l s := by
  rw [← stampTaken_sessRec t l s] at hc
  unfold stampReturn
  rw [h]
  exact if_pos (by rw [← stampTaken, hc]; rfl)

/-- The stamp of a Sync sends its Follow_Up, unless it is lost or the session is one-step. -/
theorem stampReturn_sync (h : s.fm.stamps = t :: l) (hc : (s.sessRec t.sess).committed = true) (hk : t.kind = 0) :
    stampReturn s = if t.lost || (stampTaken t l s).on (FM_SESS_CFG_STEP t.sess) then stampTaken t l s
      else followUpSend t.sess t.seq t.stamp (stampTaken t l s) := by
  rw [← stampTaken_sessRec t l s] at hc
  unfold stampReturn
  rw [h]
  refine (if_neg (by rw [← stampTaken, hc]; decide)).trans ?_
  rw [hk]
  rfl

end

/-- Settles O43: an expiry in its turn, a message by its session's state and by the buffer it finds, and a stamp by its kind. -/
theorem ferrymanMessagesSent : Obligations.FerrymanMessagesSent := by
  refine ⟨fun k s hs ht => timed_eq hs (expire_periodic ht rfl), fun k s hs ht => timed_eq hs (expire_periodic ht rfl),
    fun k s hs ht => timed_eq hs (expire_periodic ht rfl), fun k s hs ht => timed_eq hs (expire_periodic ht rfl),
    fun k s hs ht => timed_eq hs (expire_periodic ht rfl), fun k s hm ht hfree hen => ?_, fun k s hm ht hfree => ?_,
    fun k s h => ⟨syncSend_unchanged h, announceSend_unchanged h⟩, fun k s hm ht hfree hen => ?_,
    fun k s ht hd htc hfree hen => ?_, fun k s h => delayReqSend_unchanged h, fun k s hl hd hfree hen => ?_,
    fun k s h => pdelayReqSend_unchanged h, fun k s hl h1 hfree hen => ?_, fun k s h => l1Send_unchanged h,
    fun s hs h => timed_eq hs (stampReturn_none h), fun t l s hs h => ?_⟩
  · obtain ⟨⟨htx, hheld⟩, hseq⟩ := syncSend_sent k.isLt hm ht hfree hen
    exact ⟨_, rfl, hseq, htx, hheld⟩
  · rw [syncSend_empty hm ht hfree]
    exact ⟨_, rfl, rfl, State.on_ev_same _ (by decide) (by decide), rfl⟩
  · obtain ⟨⟨htx, hheld⟩, hseq⟩ := announceSend_sent k.isLt hm ht hfree hen
    exact ⟨_, rfl, hseq, htx, hheld⟩
  · obtain ⟨⟨htx, hheld⟩, hseq, hopen⟩ := delayReqSend_sent k.isLt ht hd htc hfree hen
    exact ⟨_, rfl, hseq, htx, hheld, hopen⟩
  · obtain ⟨⟨htx, hheld⟩, hseq, hopen⟩ := pdelayReqSend_sent k.isLt hl hd hfree hen
    exact ⟨_, rfl, hseq, htx, hheld, hopen⟩
  · obtain ⟨⟨htx, hheld⟩, hseq⟩ := l1Send_sent k.isLt hl h1 hfree hen
    exact ⟨_, rfl, hseq, htx, hheld⟩
  · refine ⟨stampTaken t l s, rfl, congrArg FmRec.stamps (stampTaken_kept t l s).fm, fun hc => timed_eq hs (stampReturn_uncommitted h hc),
      fun hc hk hlost hstep => timed_eq hs ?_, fun hc hk hor => timed_eq hs ?_⟩
    · rw [stampReturn_sync h hc hk]
      exact if_neg (by simp [hlost, hstep])
    · rw [stampReturn_sync h hc hk]
      exact if_pos (by simpa using hor)

end Sys2Proof.Machine
end

section
/-!
PROOFS. Table words: what is read after a write of bytes, of a part of a word, and of a whole word under byte enables (R20, R22, R545).
-/

namespace Sys2Proof.Machine

open Sys2Proof

/-! ### Bytes read together -/

theorem State.bytesLE_of_mem {s t : State} (h : t.mem = s.mem) (a n : Nat) : t.bytesLE a n = s.bytesLE a n :=
  State.bytesLE_congr a n fun x _ _ => State.byte_congr h x

theorem State.tword_of_mem {s t : State} (h : t.mem = s.mem) (a : Nat) : t.tword a = s.tword a := State.bytesLE_of_mem h a 4

theorem State.tbits_of_mem {s t : State} (h : t.mem = s.mem) (a lsb width : Nat) : t.tbits a lsb width = s.tbits a lsb width := by
  unfold State.tbits
  rw [State.tword_of_mem h]

/-- A bit of a number of bytes is that of the byte it falls in. -/
theorem State.testBit_bytesLE (s : State) (a n j : Nat) :
    (s.bytesLE a n).testBit j = (decide (j < 8 * n) && (s.byte (a + j / 8)).getLsbD (j % 8)) := by
  induction n generalizing a j with
  | zero => simp [State.bytesLE]
  | succ n ih =>
    have hlow : (s.byte a).toNat < 2 ^ 8 := (s.byte a).isLt
    rw [State.bytesLE, Nat.add_comm, show (256 : Nat) = 2 ^ 8 from rfl, Nat.testBit_two_pow_mul_add _ hlow]
    split
    next hj =>
      rw [Nat.div_eq_of_lt hj, Nat.mod_eq_of_lt hj, BitVec.testBit_toNat, decide_eq_true (by omega)]
      simp
    next hj =>
      have hdiv : a + 1 + (j - 8) / 8 = a + j / 8 := by omega
      have hmod : (j - 8) % 8 = j % 8 := by omega
      rw [ih, hdiv, hmod]
      congr 1
      simp only [decide_eq_decide]
      omega

theorem State.testBit_tword (s : State) {a j : Nat} (hj : j < 32) :
    (s.tword a).testBit j = (s.byte (a + j / 8)).getLsbD (j % 8) := by
  rw [State.tword, State.testBit_bytesLE, decide_eq_true (by omega), Bool.true_and]

theorem State.tword_lt (s : State) (a : Nat) : s.tword a < 2 ^ 32 := by
  refine Nat.lt_pow_two_of_testBit _ fun j hj => ?_
  rw [State.tword, State.testBit_bytesLE, decide_eq_false (by omega), Bool.false_and]

/-! ### A write where no entry is retired (R545) -/

/-- The byte at an address lies in no retired entry. -/
def State.takesWrite (s : State) (a : Nat) : Prop := ∀ r o, eccPlace a = some (r, o) → entryRetired s r o = false

theorem State.takesWrite_of_none {s : State} (h : s.ecc.retired = []) (a : Nat) : s.takesWrite a := fun r o _ => by
  simp [entryRetired, h]

theorem entryRetired_congr {s t : State} (h : t.ecc.retired = s.ecc.retired) (r o : Nat) : entryRetired t r o = entryRetired s r o := by
  unfold entryRetired
  rw [h]

theorem State.takesWrite_congr {s t : State} (h : t.ecc.retired = s.ecc.retired) {a : Nat} (ha : s.takesWrite a) : t.takesWrite a :=
  fun r o hp => (entryRetired_congr h r o).trans (ha r o hp)

/-- What the records of stored data but for retirements, and the end of an injection, keep, new check bits keep. -/
theorem eccWritten_keeps {P : State → Prop} {s : State} (h : P s)
    (hecc : ∀ (e : EccRec) (t : State), e.retired = t.ecc.retired → P t → P { t with ecc := e })
    (harm : ∀ t : State, P t → P (t.put ECC_INJ_ARM 0)) (r a n : Nat) : P (eccWritten r a n s) := by
  have hbits : P (if s.ecc.flips.isEmpty then s
      else (List.range n).foldl (fun (t : State) k => t.setFlips r (a + k) 0) s) := by
    split
    · exact h
    · exact forEach_keeps (g := fun k t => t.setFlips r (a + k) 0) s h fun _ t ht => hecc _ t rfl ht
  unfold eccWritten
  dsimp only
  generalize (if s.ecc.flips.isEmpty then s
    else (List.range n).foldl (fun (t : State) k => t.setFlips r (a + k) 0) s) = u at hbits ⊢
  split
  · exact harm _ (hecc _ _ rfl (hecc _ u rfl hbits))
  · exact hecc _ u rfl hbits

/-- A write of bytes keeps it where the bytes stored do. -/
theorem State.setBytesLE_keeps {P : State → Prop} {s : State} (h : P s) (hbyte : ∀ a b (t : State), P t → P (t.setByte a b))
    (hecc : ∀ (e : EccRec) (t : State), e.retired = t.ecc.retired → P t → P { t with ecc := e })
    (harm : ∀ t : State, P t → P (t.put ECC_INJ_ARM 0)) (a n v : Nat) : P (s.setBytesLE a n v) := by
  have hstore : P (s.storeLE a n v) := by
    clear hecc harm
    induction n generalizing s a v with
    | zero => exact h
    | succ n ih => exact ih (hbyte _ _ s h) _ _
  unfold State.setBytesLE
  split
  · exact hstore
  · split
    · exact h
    · exact eccWritten_keeps hstore hecc harm _ _ _

/-- A write retires no entry. -/
@[simp] theorem State.setBytesLE_retired (s : State) (a n v : Nat) : (s.setBytesLE a n v).ecc.retired = s.ecc.retired :=
  State.setBytesLE_keeps (P := fun t => t.ecc.retired = s.ecc.retired) rfl (fun _ _ _ h => h) (fun _ _ he h => he.trans h)
    (fun _ h => h) a n v

theorem State.setBytesLE_mem {s : State} {a : Nat} (h : s.takesWrite a) (n v : Nat) :
    (s.setBytesLE a n v).mem = (s.storeLE a n v).mem := by
  unfold State.setBytesLE
  split
  next => rfl
  next r o hp => rw [h r o hp, if_neg Bool.false_ne_true, eccWritten_mem]

/-- The bytes written read as the number, in their width. -/
theorem State.bytesLE_setBytesLE {s : State} {a : Nat} (h : s.takesWrite a) (n v : Nat) :
    (s.setBytesLE a n v).bytesLE a n = v % 256 ^ n := by
  rw [State.bytesLE_of_mem (s.setBytesLE_mem h n v), State.bytesLE_storeLE]

/-- Bytes apart from those written read as before. -/
theorem State.bytesLE_setBytesLE_other (s : State) {a n b k : Nat} (v : Nat) (h : b + k ≤ a ∨ a + n ≤ b) :
    (s.setBytesLE a n v).bytesLE b k = s.bytesLE b k :=
  State.bytesLE_congr b k fun _ _ _ => s.byte_setBytesLE_other a n v (by omega)

/-! ### A part of a word -/

/-- A part of a word reads what was put into it. -/
theorem State.tbits_setTbits_same {s : State} {a lsb width : Nat} (h : s.takesWrite a) (v : Nat) (hw : lsb + width ≤ 32) :
    (s.setTbits a lsb width v).tbits a lsb width = v % 2 ^ width := by
  unfold State.tbits State.setTbits State.setTword State.tword
  rw [State.bytesLE_setBytesLE h, show 256 ^ 4 = 2 ^ 32 from rfl, Nat.mod_eq_of_lt (BitVec.isLt _)]
  exact extract_insert_same _ _ hw

/-- A word apart from the one written reads as before. -/
theorem State.tword_setTbits_other (s : State) {a b lsb width : Nat} (v : Nat) (h : b + 4 ≤ a ∨ a + 4 ≤ b) :
    (s.setTbits a lsb width v).tword b = s.tword b := State.bytesLE_setBytesLE_other s _ h

@[simp] theorem State.setTbits_retired (s : State) (a lsb width v : Nat) : (s.setTbits a lsb width v).ecc.retired = s.ecc.retired :=
  State.setBytesLE_retired s a 4 _

/-! ### A word under byte enables -/

/-- A bit of a number made of the indices that satisfy `p`. -/
theorem testBit_bitsWhere (n : Nat) (p : Nat → Bool) (k : Nat) : (bitsWhere n p).testBit k = (decide (k < n) && p k) := by
  induction n generalizing k with
  | zero => simp [bitsWhere]
  | succ n ih =>
    have hsucc : bitsWhere (n + 1) p = if p n then bitsWhere n p + 2 ^ n else bitsWhere n p := by
      simp [bitsWhere, List.range_succ]
    have hlast : (k < n + 1) = (k < n ∨ k = n) := propext (by omega)
    rw [hsucc]
    by_cases hp : p n = true
    · have hapart : ∀ j, (bitsWhere n p).testBit j = true → (2 ^ n).testBit j = false := fun j hj => by
        rw [ih, Bool.and_eq_true, decide_eq_true_eq] at hj
        exact Nat.testBit_two_pow_of_ne (by omega)
      rw [if_pos hp, testBit_add_disjoint hapart, ih, Nat.testBit_two_pow]
      by_cases hk : k = n
      · simp [hk, hp]
      · simp [hlast, hk, Ne.symm hk]
    · rw [if_neg hp, ih]
      by_cases hk : k = n
      · simp [hk, hp]
      · simp [hlast, hk]

/-- The bits of the bytes that a byte-enable mask selects. -/
theorem testBit_byteBits {be j : Nat} (hj : j < 32) : (byteBits be).testBit j = be.testBit (j / 8) := by
  have hall : ∀ b0 b1 b2 b3 : Bool, ∀ j < 32, ((if b0 then 255 else 0) + ((if b1 then 65280 else 0) +
      ((if b2 then 16711680 else 0) + (if b3 then 4278190080 else 0)))).testBit j = [b0, b1, b2, b3].getD (j / 8) false := by decide
  have hbytes := hall (be.testBit 0) (be.testBit 1) (be.testBit 2) (be.testBit 3) j hj
  have hk : j / 8 < 4 := by omega
  unfold byteBits
  simp only [show List.range 4 = [0, 1, 2, 3] from rfl, List.map_cons, List.map_nil, List.sum_cons, List.sum_nil, Nat.add_zero]
  refine hbytes.trans ?_
  interval_cases j / 8 <;> rfl

/-- The bytes that a mask reaches hold its bits. -/
theorem testBit_maskBytes {m j : Nat} (hj : j < 32) (hm : m.testBit j = true) : (15 &&& maskBytes m).testBit (j / 8) = true := by
  have hk : j / 8 < 4 := by omega
  have hbyte : (m / 256 ^ (j / 8) % 256).testBit (j % 8) = true := by
    rw [show (256 : Nat) = 2 ^ 8 from rfl, ← pow_mul, Nat.testBit_mod_two_pow, Nat.testBit_div_two_pow,
      decide_eq_true (Nat.mod_lt j (by decide)), Bool.true_and, Nat.mod_add_div, hm]
  have hne : m / 256 ^ (j / 8) % 256 ≠ 0 := fun h0 => by simp [h0] at hbyte
  rw [Nat.testBit_and, maskBytes, testBit_bitsWhere, decide_eq_true hk, show (15 : Nat) = 2 ^ 4 - 1 from rfl, Nat.testBit_two_pow_sub_one,
    decide_eq_true hk]
  simpa using hne

/-- The bytes a byte-enable mask selects of the word at `a` take their part of `v`: those with their index in `l`. -/
def bytesTaken (a be v : Nat) (l : List Nat) (s : State) : State :=
  l.foldl (fun (s : State) k => if be.testBit k then s.setBytesLE (a + k) 1 (v / 256 ^ k) else s) s

theorem tableStore_stream {a be v : Nat} {s : State} (h : 0x03040000 ≤ a ∧ a < 0x03060000 ∧ a % 32 = 0) :
    tableStore a be v s = (bytesTaken a be v (List.range 4) s).setTbits (a + 12) 0 1 1 := if_pos h

theorem tableStore_meter {a be v : Nat} {s : State} (h : 0x03060000 ≤ a ∧ a < 0x030A0000 ∧ a % 32 < 20) :
    tableStore a be v s = meterReset ((a - 0x03060000) / 32) (bytesTaken a be v (List.range 4) s) :=
  (if_neg (by omega)).trans (if_pos h)

@[simp] theorem bytesTaken_retired (a be v : Nat) (l : List Nat) (s : State) : (bytesTaken a be v l s).ecc.retired = s.ecc.retired := by
  induction l generalizing s with
  | nil => rfl
  | cons k l ih =>
    refine (ih _).trans ?_
    dsimp only
    split
    · exact State.setBytesLE_retired s _ _ _
    · rfl

/-- A byte that `l` does not name stays. -/
theorem bytesTaken_byte_other (a be v : Nat) {l : List Nat} (s : State) {x : Nat} (hx : ∀ k ∈ l, x ≠ a + k) :
    (bytesTaken a be v l s).byte x = s.byte x := by
  induction l generalizing s with
  | nil => rfl
  | cons k l ih =>
    have hk := hx k List.mem_cons_self
    refine (ih _ fun j hj => hx j (List.mem_cons_of_mem k hj)).trans ?_
    dsimp only
    split
    · exact s.byte_setBytesLE_other _ _ _ (by omega)
    · rfl

/-- A byte named and selected takes its part of `v`. -/
theorem bytesTaken_byte {a be v : Nat} {l : List Nat} {s : State} (h : ∀ k ∈ l, s.takesWrite (a + k)) {k : Nat} (hk : k ∈ l)
    (hbe : be.testBit k = true) : (bytesTaken a be v l s).byte (a + k) = BitVec.ofNat 8 (v / 256 ^ k) := by
  induction l generalizing s with
  | nil => cases hk
  | cons j l ih =>
    by_cases hl : k ∈ l
    · refine ih (fun i hi => State.takesWrite_congr ?_ (h i (List.mem_cons_of_mem j hi))) hl
      dsimp only
      split
      · exact State.setBytesLE_retired s _ _ _
      · rfl
    · obtain rfl : k = j := (List.mem_cons.1 hk).resolve_right hl
      refine (bytesTaken_byte_other (l := l) a be v _ fun i hi he => hl (by rwa [show k = i by omega])).trans ?_
      dsimp only
      have hone : (s.setBytesLE (a + k) 1 (v / 256 ^ k)).byte (a + k) = BitVec.ofNat 8 (v / 256 ^ k) := by
        rw [State.byte_congr (s.setBytesLE_mem (h k List.mem_cons_self) _ _)]
        exact State.byte_setByte_same _ _ _
      rw [if_pos hbe, hone]

/-- A bit of a byte written is that of the number. -/
theorem bytesTaken_testBit {a be v j : Nat} {s : State} (h : ∀ k < 4, s.takesWrite (a + k)) (hj : j < 32)
    (hbe : be.testBit (j / 8) = true) : ((bytesTaken a be v (List.range 4) s).tword a).testBit j = v.testBit j := by
  have hin : j / 8 ∈ List.range 4 := List.mem_range.2 (by omega)
  rw [State.testBit_tword _ hj, bytesTaken_byte (fun k hk => h k (List.mem_range.1 hk)) hin hbe, BitVec.getLsbD_ofNat,
    show (256 : Nat) = 2 ^ 8 from rfl, ← pow_mul, Nat.testBit_div_two_pow, decide_eq_true (Nat.mod_lt j (by decide)), Bool.true_and,
    Nat.mod_add_div]

end Sys2Proof.Machine
end

section
/-!
PROOFS. Table entries: the write of a whole word by a master, stream and meter entries, and the reset of a stream by its timeout (R20, R22,
R390, R393, R396, R402).
-/

namespace Sys2Proof.Machine

open Sys2Proof

/-! ### The word a write leaves (R20) -/

/-- The bytes that a write of the whole word writes. -/
def wholeBytes (r o : Nat) : Nat := 15 &&& maskBytes (tableMask r o)

/-- The word it would leave. -/
def wholeWord (r o a : Nat) (v : Word) (s : State) : Nat := tableMerge r o (wholeBytes r o) (s.tword a) v.toNat

theorem tableMask_lt (r o : Nat) : tableMask r o < 2 ^ 32 := by
  unfold tableMask
  dsimp only
  split_ifs <;> decide

/-- A defined bit lies in the word, and in a byte that is written. -/
theorem lt_of_tableMask {r o j : Nat} (hm : (tableMask r o).testBit j = true) : j < 32 := by
  by_contra hge
  have hpow : (2 : Nat) ^ 32 ≤ 2 ^ j := Nat.pow_le_pow_right (by decide) (Nat.not_lt.1 hge)
  exact Bool.false_ne_true ((Nat.testBit_lt_two_pow (Nat.lt_of_lt_of_le (tableMask_lt r o) hpow)).symm.trans hm)

theorem testBit_wholeBytes {r o j : Nat} (hm : (tableMask r o).testBit j = true) : (wholeBytes r o).testBit (j / 8) = true :=
  testBit_maskBytes (lt_of_tableMask hm) hm

theorem wholeWord_testBit {r o j : Nat} (a : Nat) (v : Word) (s : State) (hm : (tableMask r o).testBit j = true) :
    (wholeWord r o a v s).testBit j = v.toNat.testBit j := by
  unfold wholeWord tableMerge
  dsimp only
  rw [testBit_replace, Nat.testBit_and, hm, testBit_byteBits (lt_of_tableMask hm), testBit_wholeBytes hm]
  rfl

/-- A field that no reserved bit lies in takes its part of the word written. -/
theorem wholeWord_field {r o lsb width : Nat} (a : Nat) (v : Word) (s : State)
    (h : ∀ k < width, (tableMask r o).testBit (lsb + k) = true) :
    wholeWord r o a v s / 2 ^ lsb % 2 ^ width = v.toNat / 2 ^ lsb % 2 ^ width := by
  refine Nat.eq_of_testBit_eq fun k => ?_
  rw [Nat.testBit_mod_two_pow, Nat.testBit_mod_two_pow, Nat.testBit_div_two_pow, Nat.testBit_div_two_pow, Nat.add_comm k]
  by_cases hk : k < width
  · rw [wholeWord_testBit a v s (h k hk)]
  · simp [hk]

theorem wholeWord_lt (r o a : Nat) (v : Word) (s : State) : wholeWord r o a v s < 2 ^ 32 := by
  refine Nat.lt_pow_two_of_testBit _ fun j hj => ?_
  have hpow : (2 : Nat) ^ 32 ≤ 2 ^ j := Nat.pow_le_pow_right (by decide) hj
  have hold := Nat.testBit_lt_two_pow (Nat.lt_of_lt_of_le (s.tword_lt a) hpow)
  have hv := Nat.testBit_lt_two_pow (Nat.lt_of_lt_of_le v.isLt hpow)
  unfold wholeWord tableMerge
  dsimp only
  rw [testBit_replace, hold, hv, ite_self]

/-- A word without reserved bits is the one written. -/
theorem wholeWord_eq {r o : Nat} (a : Nat) (v : Word) (s : State) (h : tableMask r o = 0xFFFFFFFF) : wholeWord r o a v s = v.toNat := by
  have hv := v.isLt
  have hlt := wholeWord_lt r o a v s
  have hall := wholeWord_field (lsb := 0) (width := 32) a v s (fun k hk => (congrArg (·.testBit (0 + k)) h).trans (by revert k; decide))
  omega

theorem wholeWord_congr {s t : State} (h : t.mem = s.mem) (r o a : Nat) (v : Word) : wholeWord r o a v t = wholeWord r o a v s := by
  unfold wholeWord
  rw [State.tword_of_mem h]

/-- Where no entry written is retired, the word reads as written in its defined bits. -/
theorem bytesTaken_whole {r o a : Nat} (v : Word) {s : State} (h : ∀ k < 4, s.takesWrite (a + k)) :
    (bytesTaken a (wholeBytes r o) (wholeWord r o a v s) (List.range 4) s).tword a &&& tableMask r o = v.toNat &&& tableMask r o := by
  refine Nat.eq_of_testBit_eq fun j => ?_
  rw [Nat.testBit_and, Nat.testBit_and]
  cases hm : (tableMask r o).testBit j with
  | false => simp
  | true =>
    rw [bytesTaken_testBit h (lt_of_tableMask hm) (testBit_wholeBytes hm), wholeWord_testBit a v s hm]

/-! ### A write that stands (R22, R396, R545) -/

theorem placeOf_table {s : State} {a r o : Nat} (h4 : a % 4 = 0) (ha : 0x03000000 ≤ a) (hp : eccPlace a = some (r, o)) :
    placeOf s a = .table r o := by
  unfold placeOf
  rw [if_neg (not_not.2 h4), if_pos ha, hp]

theorem tableBad_congr {s t : State} (h : t.mem = s.mem) (m : BusMaster) (r o a be x : Nat) :
    tableBad m r o a be x t = tableBad m r o a be x s := by
  unfold tableBad
  rw [State.tword_of_mem h, State.tword_of_mem h]

/-- A whole word, not of the MAC table nor of a gate list, whose value is no reserved one, is stored. -/
theorem tableWrite_stores {m : BusMaster} {r o a : Nat} {v : Word} {s : State} (hm : m ≠ .loader) (h7 : r ≠ 7) (h9 : r ≠ 9)
    (hbytes : wholeBytes r o ≠ 0) (hret : entryRetired s r o = false) (hload : s.on (ECC_REG_RELOADING r) = false)
    (hbad : tableBad m r o a (wholeBytes r o) (wholeWord r o a v s) s = false) :
    tableWrite m r o a 15 v s = (0, tableStore a (wholeBytes r o) (wholeWord r o a v s) (s.put (ECC_REG_BACKED r) 0)) := by
  have hl : (m == BusMaster.loader) = false := beq_eq_false_iff_ne.2 hm
  unfold tableWrite
  rw [if_neg h7]
  dsimp only
  change (if tableBad m r o a (wholeBytes r o) (wholeWord r o a v s) s = true then _ else _) = _
  rw [hbad, if_neg Bool.false_ne_true, if_neg (fun h => h9 h.1), hret, if_neg Bool.false_ne_true, hload, Bool.and_false,
    if_neg Bool.false_ne_true, hl, if_neg Bool.false_ne_true]
  change ((0, if wholeBytes r o = 0 then _ else _) : Nat × State) = _
  rw [if_neg hbytes]
  rfl

/-- A master whose access the table is open to stores the word: in a state `t` with the tables and the retirements of `s`, and beside that
only counters differ. -/
theorem busWrite_stores {m : BusMaster} {r o a : Nat} {v : Word} {s : State} (hopen : TableOpen m r o s) (h4 : a % 4 = 0)
    (ha : 0x03000000 ≤ a) (hp : eccPlace a = some (r, o)) (hr : r < 7) (hbytes : wholeBytes r o ≠ 0)
    (hbad : tableBad m r o a (wholeBytes r o) (wholeWord r o a v s) s = false) : ∃ t : State, t.mem = s.mem ∧
      t.ecc.retired = s.ecc.retired ∧
      (busWrite m a 15 v s).2.mem = (tableStore a (wholeBytes r o) (wholeWord r o a v t) t).mem := by
  obtain ⟨-, -, hm, hs, hpriv, hdev, hret, hload⟩ := hopen
  have hc := counted_only m a s
  have hmem : (counted m a s).mem = s.mem := by rw [hc.1]
  have hecc : (counted m a s).ecc = s.ecc := by rw [hc.1]
  have hwrite : tableWrite m r o a 15 v (counted m a s) = _ := tableWrite_stores hm (by omega) (by omega) hbytes
    ((entryRetired_congr (congrArg EccRec.retired hecc) r o).trans hret)
    ((hc.on _ (by simp only [ECC_REG_RELOADING, ECC_REG, Wide.word]; omega)).trans hload)
    (by rw [tableBad_congr hmem, wholeWord_congr hmem, hbad])
  have hplace : placeWrite m a 15 v s (counted m a s) = tableWrite m r o a 15 v (counted m a s) := by
    unfold placeWrite
    rw [if_neg (by omega), placeOf_table h4 ha hp]
    dsimp only
    unfold tableAccess
    rw [hc.privOf m, if_neg hpriv, if_neg (by simp [hc.dev, hdev])]
  have hu := busWrite_only hs (hplace.trans hwrite)
  refine ⟨(counted m a s).put (ECC_REG_BACKED r) 0, hmem, congrArg EccRec.retired hecc, ?_⟩
  rw [hu.1]
  rfl

/-- A byte of an entry that is not retired. -/
theorem takesWrite_entry {s : State} {a r o o' : Nat} (hret : entryRetired s r o = false) (hp : eccPlace a = some (r, o'))
    (he : o' / eccSize r = o / eccSize r) : s.takesWrite a := by
  rintro _ _ h
  obtain ⟨rfl, rfl⟩ := Prod.mk.inj (Option.some.inj (hp.symm.trans h))
  unfold entryRetired at hret ⊢
  rw [he, hret]

/-! ### Stream entries (R393, R396) -/

theorem eccPlace_stream {n k : Nat} (hn : n < 4096) (hk : k < 0x20) : eccPlace (streamAddr n + k) = some (5, 0x20 * n + k) := by
  unfold eccPlace streamAddr
  iterate 4 rw [if_neg (by omega)]
  rw [if_pos (by omega), Nat.add_assoc, Nat.add_sub_cancel_left]

theorem takesWrite_stream {s : State} {n k : Nat} (hret : entryRetired s 5 (0x20 * n) = false) (hn : n < 4096) (hk : k < 0x20) :
    s.takesWrite (streamAddr n + k) :=
  takesWrite_entry hret (eccPlace_stream hn hk) (by change (0x20 * n + k) / 0x20 = 0x20 * n / 0x20; omega)

/-- The defined bits of a stream's first word: MODE to PRIO, HIST and RESET_MS. -/
theorem tableMask_stream (n : Nat) : tableMask 5 (0x20 * n) = 0xFFFF3F3F := by
  have hw : 0x20 * n % 32 / 4 = 0 := by omega
  simp only [tableMask, hw]
  rfl

/-- HIST from 1 to 32 and a RESET_MS other than 0 are no reserved values. -/
theorem tableBad_stream {m : BusMaster} {n be x : Nat} {s : State} (hlo : 1 ≤ x / 2 ^ 8 % 64) (hhi : x / 2 ^ 8 % 64 ≤ 32)
    (hms : 1 ≤ x / 2 ^ 16) : tableBad m 5 (0x20 * n) (streamAddr n) be x s = false := by
  have h0 : (x / 2 ^ 8 % 64 == 0) = false := beq_eq_false_iff_ne.2 (by omega)
  have h32 : decide (32 < x / 2 ^ 8 % 64) = false := decide_eq_false (by omega)
  have hms0 : (x / 2 ^ 16 == 0) = false := beq_eq_false_iff_ne.2 (by omega)
  unfold tableBad
  dsimp only
  rw [if_pos rfl, h0, h32, hms0]
  simp

/-- The write of a stream's first word: its defined bits read as written, and TAKE_ANY is set. -/
theorem busWrite_stream {m : BusMaster} {n : Nat} {v : Word} {s : State} (hn : n < 4096) (hopen : TableOpen m 5 (0x20 * n) s)
    (hlo : 1 ≤ v.toNat / 2 ^ 8 % 64) (hhi : v.toNat / 2 ^ 8 % 64 ≤ 32) (hms : 1 ≤ v.toNat / 2 ^ 16) :
    (busWrite m (streamAddr n) 15 v s).2.tword (streamAddr n) &&& 0xFFFF3F3F = v.toNat &&& 0xFFFF3F3F ∧
      (busWrite m (streamAddr n) 15 v s).2.tbits (streamAddr n + 12) 0 1 = 1 := by
  have hmask := tableMask_stream n
  have hv := v.isLt
  have hlt := wholeWord_lt 5 (0x20 * n) (streamAddr n) v s
  have hhist := wholeWord_field (lsb := 8) (width := 6) (streamAddr n) v s
    (fun k hk => (congrArg (·.testBit (8 + k)) hmask).trans (by revert k; decide))
  have hreset := wholeWord_field (lsb := 16) (width := 16) (streamAddr n) v s
    (fun k hk => (congrArg (·.testBit (16 + k)) hmask).trans (by revert k; decide))
  have hplace : eccPlace (streamAddr n) = some (5, 0x20 * n) := eccPlace_stream hn (k := 0) (by decide)
  obtain ⟨t, hmem, hret, hu⟩ := busWrite_stores hopen (a := streamAddr n) (v := v) (by unfold streamAddr; omega)
    (by unfold streamAddr; omega) hplace (by decide) (by unfold wholeBytes; rw [hmask]; decide)
    (tableBad_stream (by omega) (by omega) (by omega))
  obtain ⟨-, -, -, -, -, -, hentry, -⟩ := hopen
  have htake : ∀ k < 0x20, t.takesWrite (streamAddr n + k) := fun k hk =>
    takesWrite_stream ((entryRetired_congr hret _ _).trans hentry) hn hk
  rw [State.tword_of_mem hu, State.tbits_of_mem hu, tableStore_stream (by unfold streamAddr; omega)]
  refine ⟨?_, State.tbits_setTbits_same (State.takesWrite_congr (bytesTaken_retired _ _ _ _ _) (htake 12 (by decide))) 1 (by decide)⟩
  rw [State.tword_setTbits_other _ _ (.inl (by omega)), ← hmask]
  exact bytesTaken_whole v fun k hk => htake k (by omega)

theorem exec_streamEntryWrite {m : BusMaster} {n : Fin 4096} {be : Fin 16} {v : Word} {s : State} (hr : s.inReset = false)
    (hg : s.gated = false) : exec (.streamEntryWrite m n be v) s = .next (settle s (busWrite m (streamAddr n) be v s).2) :=
  run_eq hr (by simp [busStore, accWaits_running hg])

/-! ### Meter entries (R402) -/

theorem eccPlace_meter {n k : Nat} (hn : n < 8192) (hk : k < 0x20) : eccPlace (meterAddr n + k) = some (6, 0x20 * n + k) := by
  unfold eccPlace meterAddr
  iterate 5 rw [if_neg (by omega)]
  rw [if_pos (by omega), Nat.add_assoc, Nat.add_sub_cancel_left]

theorem takesWrite_meter {s : State} {n j k : Nat} (hret : entryRetired s 6 (0x20 * n + j) = false) (hn : n < 8192) (hj : j + k < 0x20) :
    s.takesWrite (meterAddr n + j + k) :=
  takesWrite_entry hret (by rw [Nat.add_assoc]; exact eccPlace_meter hn hj)
    (by change (0x20 * n + (j + k)) / 0x20 = (0x20 * n + j) / 0x20; omega)

/-- A meter's buckets are filled in its record: its entry stays. -/
theorem meterReset_mem (n : Nat) (s : State) : (meterReset n s).mem = s.mem := State.setMeter_mem s _ _

/-- The defined bits of a meter's words: CIR and PIR, CBS and EBS, and the last word's fields. -/
theorem tableMask_meter {n w : Nat} (hw : w < 5) :
    tableMask 6 (0x20 * n + 4 * w) = if w < 2 then 0xFFFFFFFF else if w < 4 then 0xFFFFFF else 0x1F07 := by
  have hword : (0x20 * n + 4 * w) % 32 / 4 = w := by omega
  simp only [tableMask, hword]
  interval_cases w <;> rfl

/-- A meter's word is no reserved value where CIR stays at most PIR and the last word's exponent is at most 24. -/
theorem tableBad_meter {m : BusMaster} {n w be x : Nat} {s : State} (hw : w < 5) (hcir : w = 0 → x ≤ s.tword (meterAddr n + 4))
    (hpir : w = 1 → s.tword (meterAddr n) ≤ x) (hexp : w = 4 → x / 2 ^ 8 % 32 ≤ 24) :
    tableBad m 6 (0x20 * n + 4 * w) (meterAddr n + 4 * w) be x s = false := by
  have hword : (0x20 * n + 4 * w) % 32 / 4 = w := by omega
  simp only [tableBad, hword]
  interval_cases w
  · simp [hcir rfl]
  · simp [hpir rfl]
  · simp
  · simp
  · simpa using fun _ => hexp rfl

/-- The write of a meter's word: its defined bits read as written. -/
theorem busWrite_meter {m : BusMaster} {n w : Nat} {v : Word} {s : State} (hn : n < 8192) (hw : w < 5)
    (hopen : TableOpen m 6 (0x20 * n + 4 * w) s) (hcir : w = 0 → v.toNat ≤ s.tword (meterAddr n + 4))
    (hpir : w = 1 → s.tword (meterAddr n) ≤ v.toNat) (hexp : w = 4 → v.toNat / 2 ^ 8 % 32 ≤ 24) :
    (busWrite m (meterAddr n + 4 * w) 15 v s).2.tword (meterAddr n + 4 * w) &&& tableMask 6 (0x20 * n + 4 * w) =
      v.toNat &&& tableMask 6 (0x20 * n + 4 * w) := by
  have hmask := tableMask_meter (n := n) hw
  have hrate : w < 2 → wholeWord 6 (0x20 * n + 4 * w) (meterAddr n + 4 * w) v s = v.toNat := fun h2 =>
    wholeWord_eq _ v s (hmask.trans (if_pos h2))
  have hlen : w = 4 → wholeWord 6 (0x20 * n + 4 * w) (meterAddr n + 4 * w) v s / 2 ^ 8 % 2 ^ 5 = v.toNat / 2 ^ 8 % 2 ^ 5 := by
    rintro rfl
    exact wholeWord_field _ v s (fun k hk => (congrArg (·.testBit (8 + k)) hmask).trans (by revert k; decide))
  have hbytes : wholeBytes 6 (0x20 * n + 4 * w) ≠ 0 := by
    unfold wholeBytes
    rw [hmask]
    split_ifs <;> decide
  obtain ⟨t, hmem, hret, hu⟩ := busWrite_stores hopen (v := v) (by unfold meterAddr; omega) (by unfold meterAddr; omega)
    (eccPlace_meter hn (by omega)) (by decide) hbytes (tableBad_meter hw (fun h => (hrate (by omega)).trans_le (hcir h))
      (fun h => (hpir h).trans_eq (hrate (by omega)).symm) (fun h => (hlen h).trans_le (hexp h)))
  obtain ⟨-, -, -, -, -, -, hentry, -⟩ := hopen
  rw [State.tword_of_mem hu, tableStore_meter (by unfold meterAddr; omega), State.tword_of_mem (meterReset_mem _ _)]
  exact bytesTaken_whole v fun k hk => takesWrite_meter ((entryRetired_congr hret _ _).trans hentry) hn (by omega)

theorem exec_meterEntryWrite {m : BusMaster} {n : Fin 8192} {w : Fin 5} {be : Fin 16} {v : Word} {s : State} (hr : s.inReset = false)
    (hg : s.gated = false) :
    exec (.meterEntryWrite m n w be v) s = .next (settle s (busWrite m (meterAddr n + 4 * w.val) be v s).2) :=
  run_eq hr (by simp [busStore, accWaits_running hg])

/-! ### The reset of a stream by its timeout (R393) -/

theorem frerTimeout_resets {n : Nat} {s : State} (hret : s.ecc.retired = []) (h : s.tbits (streamAddr n) 1 1 = 1) :
    (frerTimeout n s).tbits (streamAddr n + 12) 0 1 = 1 ∧ (frerTimeout n s).on FWD_EVENT_FRER_RESET = true := by
  have hreset : frerTimeout n s = ((s.setTbits (streamAddr n + 12) 0 1 1).tcount (streamAddr n + 28) 0 16 1).ev FWD_EVENT_FRER_RESET :=
    if_pos h
  rw [hreset]
  refine ⟨?_, State.on_ev_same _ (by decide) (by decide)⟩
  refine (State.tbits_of_mem (State.put_mem _ _ _) _ _ _).trans ?_
  unfold State.tcount State.tbits
  rw [State.tword_setTbits_other _ _ (.inl (by omega))]
  exact State.tbits_setTbits_same (State.takesWrite_of_none hret _) 1 (by decide)

theorem frerTimeout_unchanged {n : Nat} {s : State} (h : s.tbits (streamAddr n) 1 1 ≠ 1) : frerTimeout n s = s := if_neg h

end Sys2Proof.Machine
end

section
/-!
PROOFS. The commands of the MAC table: the rows that write FWD_MAC_CMD, insertion, deletion and lookup by the key (R376, R379, R398, R399).
-/

namespace Sys2Proof.Machine

open Sys2Proof

/-! ### The end of a command (R398, R399) -/

section
variable (r : Nat) (s : State)

/-- What holds with RESULT and DONE written, and is kept by a FAIL, holds at a command's end. -/
theorem macDone_of {P : State → Prop} (hdone : P ((s.put FWD_MAC_CMD_RESULT r).ev FWD_EVENT_MAC_CMD_DONE))
    (hfail : ∀ t : State, P t → P (t.ev FWD_EVENT_MAC_CMD_FAIL)) : P (macDone r s) := by
  unfold macDone
  dsimp only
  split
  · exact hdone
  · exact hfail _ hdone

theorem macDone_mem : (macDone r s).mem = s.mem := macDone_of r s (P := fun t => t.mem = s.mem) rfl fun _ h => h

theorem macDone_fwd : (macDone r s).fwd = s.fwd := macDone_of r s (P := fun t => t.fwd = s.fwd) rfl fun _ h => h

/-- The command's GO bit stays. -/
theorem macDone_go : (macDone r s).get FWD_MAC_CMD_GO = s.get FWD_MAC_CMD_GO :=
  macDone_of r s (P := fun t => t.get FWD_MAC_CMD_GO = s.get FWD_MAC_CMD_GO)
    ((State.get_put_reg _ 1 (by decide)).trans (State.get_put_bits s r rfl (by decide) (by decide)))
    fun t ht => (State.get_put_reg t 1 (by decide)).trans ht

theorem macDone_word_other {x : Reg} (hc : x.addr ≠ FWD_MAC_CMD.addr) (he : x.addr ≠ FWD_EVENT.addr) :
    (macDone r s).word x = s.word x :=
  macDone_of r s (P := fun t => t.word x = s.word x) ((State.word_put_other _ 1 he).trans (State.word_put_other s r hc))
    fun t ht => (State.word_put_other t 1 he).trans ht

theorem macDone_result : (macDone r s).get FWD_MAC_CMD_RESULT = r % 8 :=
  macDone_of r s (P := fun t => t.get FWD_MAC_CMD_RESULT = r % 8)
    ((State.get_put_reg _ 1 (by decide)).trans (State.get_put_same s _ r (by decide)))
    fun t ht => (State.get_put_reg t 1 (by decide)).trans ht

theorem macDone_done : (macDone r s).on FWD_EVENT_MAC_CMD_DONE = true :=
  macDone_of r s (P := fun t => t.on FWD_EVENT_MAC_CMD_DONE = true) (State.on_ev_same _ (by decide) (by decide)) fun t ht => by
    have hsame : (t.ev FWD_EVENT_MAC_CMD_FAIL).get FWD_EVENT_MAC_CMD_DONE = t.get FWD_EVENT_MAC_CMD_DONE :=
      State.get_put_bits t 1 rfl (by decide) (by decide)
    unfold State.on at ht ⊢
    rw [hsame, ht]

theorem macDone_fail {r : Nat} (h : r ≠ 0) : (macDone r s).on FWD_EVENT_MAC_CMD_FAIL = true := by
  unfold macDone
  dsimp only
  rw [if_neg h]
  exact State.on_ev_same _ (by decide) (by decide)

end

/-! ### The table's entries (R376) -/

theorem macFind_congr {s t : State} (h : t.mem = s.mem) (b mac vid : Nat) : macFind t b mac vid = macFind s b mac vid := by
  unfold macFind macWord2
  simp only [State.bytesLE_of_mem h, State.tword_of_mem h]

theorem macFind_lt {s : State} {b mac vid w : Nat} (h : macFind s b mac vid = some w) : w < 4 :=
  List.mem_range.1 (List.mem_of_find?_eq_some h)

theorem macFree_lt {s : State} {b w : Nat} (h : macFree s b = some w) : w < 4 := List.mem_range.1 (List.mem_of_find?_eq_some h)

/-- A valid way that holds the key is found, or one before it. -/
theorem macFind_isSome {s : State} {b mac vid w : Nat} (hw : w < 4) (hvalid : (macWord2 s b w).testBit 31 = true)
    (hkey : s.bytesLE (macAddr b w) 8 = macKeyOf mac vid) : (macFind s b mac vid).isSome = true := by
  unfold macFind
  rw [List.find?_isSome]
  exact ⟨w, List.mem_range.2 hw, by simp [hvalid, hkey]⟩

theorem macKeyOf_lt (mac vid : Nat) : macKeyOf mac vid < 256 ^ 8 := by
  unfold macKeyOf
  omega

section
variable {s : State} (hret : s.ecc.retired = []) (b w mac vid w2 : Nat)
include hret

/-- An entry written holds its key. -/
theorem macPut_key : (macPut b w mac vid w2 s).bytesLE (macAddr b w) 8 = macKeyOf mac vid := by
  refine (State.bytesLE_setBytesLE_other _ _ (.inl (Nat.le_refl _))).trans ?_
  rw [State.bytesLE_setBytesLE (State.takesWrite_of_none hret _), Nat.mod_eq_of_lt (macKeyOf_lt mac vid)]

/-- An entry written holds its word 2. -/
theorem macPut_word2 : macWord2 (macPut b w mac vid w2 s) b w = w2 % 2 ^ 32 :=
  State.bytesLE_setBytesLE (State.takesWrite_of_none ((State.setBytesLE_retired s _ _ _).trans hret) _) 4 w2

end

/-! ### Commands by their key (R379) -/

/-- Where no stored bit is inverted, a lookup meets nothing (R547). -/
theorem eccLook_clean {s : State} (h : s.ecc.flips = []) (a n : Nat) : eccLook a n s = s := if_pos (by simp [h])

section
variable {b mac vid : Nat} {s : State} (hflips : s.ecc.flips = []) (hmac : mac = s.wide FWD_MAC_KEY % 2 ^ 48)
  (hvid : vid = s.wide FWD_MAC_KEY / 2 ^ 48 % 4096) (hb : b = macBucket vid mac)
include hflips hmac hvid hb

/-- A deletion or a lookup that does not find its key ends NOT_FOUND. -/
theorem macCommand_notFound (hop : s.get FWD_MAC_CMD_OP = 2 ∨ s.get FWD_MAC_CMD_OP = 3) (hnone : macFind s b mac vid = none) :
    macCommand s = macDone 1 s := by
  unfold macCommand
  dsimp only
  rw [← hmac, ← hvid, ← hb, eccLook_clean hflips, hnone]
  rcases hop with hop | hop
  · rw [hop]
    rfl
  · rw [hop]
    rfl

/-- A lookup returns word 2 of the entry it finds. -/
theorem macCommand_lookup (hop : s.get FWD_MAC_CMD_OP = 3) {w : Nat} (hsome : macFind s b mac vid = some w) :
    macCommand s = macDone 0 (s.setWord FWD_MAC_DATA (BitVec.ofNat 32 (macWord2 s b w))) := by
  unfold macCommand
  dsimp only
  rw [← hmac, ← hvid, ← hb, eccLook_clean hflips, hop, hsome]
  rfl

/-- An insertion writes the key's entry, or else a free one of its bucket, or ends FULL. -/
theorem macCommand_insert (hop : s.get FWD_MAC_CMD_OP = 1) :
    (∃ w < 4, macCommand s = macDone 0 (macPut b w mac vid (s.word FWD_MAC_DATA).toNat s)) ∨ macCommand s = macDone 2 s := by
  unfold macCommand
  dsimp only
  rw [← hmac, ← hvid, ← hb, eccLook_clean hflips, hop]
  cases hfind : macFind s b mac vid with
  | some w => exact .inl ⟨w, macFind_lt hfind, rfl⟩
  | none =>
    cases hfree : macFree s b with
    | some w => exact .inl ⟨w, macFree_lt hfree, rfl⟩
    | none => exact .inr rfl

/-- After an insertion that succeeds the key is in its bucket; where its entry is valid, it is found. -/
theorem macCommand_inserted (hop : s.get FWD_MAC_CMD_OP = 1) (hret : s.ecc.retired = [])
    (hok : (macCommand s).get FWD_MAC_CMD_RESULT = 0) :
    (∃ w < 4, (macCommand s).bytesLE (macAddr b w) 8 = macKeyOf mac vid) ∧
      ((s.word FWD_MAC_DATA).getLsbD 31 = true → (macFind (macCommand s) b mac vid).isSome = true) := by
  rcases macCommand_insert hflips hmac hvid hb hop with ⟨w, hw, hcmd⟩ | hfull
  · have hmem : (macCommand s).mem = (macPut b w mac vid (s.word FWD_MAC_DATA).toNat s).mem := by rw [hcmd, macDone_mem]
    have hkey := macPut_key hret b w mac vid (s.word FWD_MAC_DATA).toNat
    refine ⟨⟨w, hw, (State.bytesLE_of_mem hmem _ _).trans hkey⟩, fun hvalid => ?_⟩
    rw [macFind_congr hmem]
    refine macFind_isSome hw ?_ hkey
    rw [macPut_word2 hret, Nat.mod_eq_of_lt (BitVec.isLt _), BitVec.testBit_toNat, hvalid]
  · rw [hfull, macDone_result] at hok
    cases hok

end

/-! ### The rows that write FWD_MAC_CMD (R379, R399) -/

/-- A row that names OP and sets GO, where no command runs: the write stands with that OP, and its command starts. -/
theorem macCmd_stands {m : BusMaster} {op : Nat} {v : Word} {s : State} (hop : op < 8)
    (hw : Writable m FWD_MAC_CMD (withField FWD_MAC_CMD_GO 1 (withField FWD_MAC_CMD_OP op v)) s) (h0 : s.on FWD_MAC_CMD_GO = false) :
    ∃ R c, Stands m .FWD_MAC_CMD 0 0 FWD_MAC_CMD.one (withField FWD_MAC_CMD_GO 1 (withField FWD_MAC_CMD_OP op v)).toNat s R c ∧
      R.now FWD_MAC_CMD_OP = op ∧ run (busSet2 m FWD_MAC_CMD_OP op FWD_MAC_CMD_GO 1 v) s =
        .next (settle s (if op = 4 then flushDynamicGo c else macCommand c)) := by
  obtain ⟨R, c, hst, hsees, hrun⟩ := hw.stands_sees (id := .FWD_MAC_CMD) (i := 0) (j := 0) (by decide +kernel) (by decide) (by decide)
  obtain ⟨-, hid, -, -, -⟩ := hst.who
  have hwas : R.was FWD_MAC_CMD_GO = 0 := (hst.was_eq (f := FWD_MAC_CMD_GO)).trans (State.on_false.1 h0)
  have hgo : R.field R.v FWD_MAC_CMD_GO = 1 :=
    ((hsees FWD_MAC_CMD_GO rfl (by decide)).1 (by decide +kernel)).trans (extract_withField (by decide))
  have hnow : R.now FWD_MAC_CMD_OP = op := by
    rw [(hsees FWD_MAC_CMD_OP rfl (by decide)).2 (by decide +kernel)]
    refine (extract_insert_other _ _ (by decide) (by decide)).trans ((extract_withField (by decide)).trans ?_)
    exact Nat.mod_eq_of_lt hop
  have hacts : R.acts FWD_MAC_CMD_GO = true := by
    unfold RegWrite.acts
    rw [hgo, hwas]
    rfl
  have heffect : regEffect R c = if op = 4 then flushDynamicGo c else macCommand c := by
    unfold regEffect
    rw [hid]
    exact (if_pos hacts).trans (by rw [hnow])
  exact ⟨R, c, hst, hnow, by rw [← heffect]; exact hrun⟩

end Sys2Proof.Machine
end

section
/-!
PROOFS. FLUSH_DYNAMIC: its start, its passage through the table, which keeps the command's register, and its end (R379, R399, R549).
-/

namespace Sys2Proof.Machine

open Sys2Proof

/-- FWD_MAC_CMD and the flush under way are as they were. -/
structure FlushKept (s t : State) : Prop where
  word : t.word FWD_MAC_CMD = s.word FWD_MAC_CMD
  fwd : t.fwd = s.fwd

namespace FlushKept

variable {s t : State}

theorem get (h : FlushKept s t) {f : Fld} (hf : f.reg = FWD_MAC_CMD) : t.get f = s.get f := by
  unfold State.get
  rw [hf, h.word]

theorem ite {c : Prop} [Decidable c] {u : State} (h : FlushKept s t) (h' : FlushKept s u) : FlushKept s (if c then t else u) := by
  split
  · exact h
  · exact h'

theorem forEach {α : Type} {l : List α} {g : α → State → State} (h : FlushKept s t)
    (hg : ∀ a u, FlushKept s u → FlushKept s (g a u)) : FlushKept s (forEach l g t) := forEach_keeps (P := FlushKept s) t h hg

section
variable (h : FlushKept s t)
include h

/-- A state may differ in all but the registers and the flush. -/
theorem of_eq {u : State} (hr : u.regs = t.regs) (hf : u.fwd = t.fwd) : FlushKept s u :=
  ⟨(State.word_congr hr _).trans h.word, hf.trans h.fwd⟩

theorem setEcc (e : EccRec) : FlushKept s { t with ecc := e } := h.of_eq rfl rfl

theorem put {f : Fld} (v : Nat) (hf : FWD_MAC_CMD.addr ≠ f.reg.addr) : FlushKept s (t.put f v) :=
  ⟨(State.word_put_other t v hf).trans h.word, h.fwd⟩

theorem pmcEvent (code : Nat) (kind : PmcKind) (k : Nat) : FlushKept s (pmcEvent code kind k t) := by
  have hp := pmcEvent_only code kind k t
  exact ⟨(hp.2 _ (by decide)).trans h.word, (congrArg State.fwd hp.1).trans h.fwd⟩

theorem setBytesLE (a n v : Nat) : FlushKept s (t.setBytesLE a n v) :=
  State.setBytesLE_keeps (P := FlushKept s) h (fun _ _ _ hu => hu.of_eq rfl rfl) (fun _ _ _ hu => hu.of_eq rfl rfl)
    (fun _ hu => hu.put 0 (by decide)) a n v

/-! ### Errors that the passage meets (R537, R541, R546) -/

theorem eccLogAdd (r addr syn : Nat) (ue scrub tag : Bool) : FlushKept s (eccLogAdd r addr syn ue scrub tag t) :=
  ite ((h.setEcc _).put 1 (by decide)) (((h.setEcc _).setEcc _).put _ (by decide))

theorem eccCe (r addr syn : Nat) (scrub : Bool) : FlushKept s (eccCe r addr syn scrub t) :=
  (((h.put _ (by decide)).put 1 (by decide)).pmcEvent _ _ _).eccLogAdd r addr syn false scrub false

theorem eccUe : FlushKept s (eccUe t) := by
  have hue : FlushKept s { t with pair := { t.pair with lastUe := some t.now } } := h.of_eq rfl rfl
  exact (((hue.put (f := PAIR_EVENT_SELFTEST_FAIL) 1 (by decide)).put _ (by decide)).put 1 (by decide)).pmcEvent _ _ _

theorem eccRewrite (r a : Nat) (b : Byte) : FlushKept s (eccRewrite r a b t) := h.of_eq rfl rfl

theorem towlineSend (ty : Nat) (b : List Byte) : FlushKept s (towlineSend ty b t) := by
  unfold Machine.towlineSend
  dsimp only
  split_ifs <;> exact h.of_eq rfl rfl

theorem ownerChanged (was : Bool) : FlushKept s (ownerChanged was t) := by
  have hsteps : FlushKept s (if was then { t with tb := { t.tb with hostStep := none } }
      else { t with tb := { t.tb with ferryStep := none } }) :=
    ite (h.of_eq rfl rfl) (h.of_eq rfl rfl)
  exact ite h ((hsteps.put _ (by decide)).put _ (by decide))

theorem raiseMajor (k : Nat) : FlushKept s (raiseMajor k t) := by
  have hbit : FlushKept s (t.putBit FLT_MAJOR_B k true) := h.put (f := ⟨FLT_MAJOR_B.reg, FLT_MAJOR_B.lsb + k, 1⟩) _
    (by simp only; decide)
  exact ite (ite ((((hbit.towlineSend 6 _).put _ (by decide)).ownerChanged _).put 1 (by decide)) hbit) hbit

theorem reloadRead (r : Nat) : FlushKept s (reloadRead r t) := h.forEach fun _ _ hu => hu.of_eq rfl rfl

theorem byteCheck (r a : Nat) (scrub : Bool) : FlushKept s (byteCheck r a scrub t).2 := by
  unfold Machine.byteCheck
  dsimp only
  split_ifs
  · exact h
  · exact (h.eccRewrite r a _).eccCe _ _ _ _
  · exact h.eccLogAdd _ _ _ _ _ _

/-- An uncorrectable word of the MAC table invalidates its entry, and has the table reloaded or raises an alarm. -/
theorem tableUe_mac (a : Nat) : FlushKept s (tableUe 7 a t) := by
  have hvoid : FlushKept s (tableVoid 7 a t) := h.eccRewrite 7 _ _
  unfold tableUe
  dsimp only
  split_ifs
  · exact hvoid
  · exact (hvoid.put 0 (by decide)).raiseMajor 8
  · exact ((hvoid.setEcc _).reloadRead 7).put 1 (by decide)
  · exact (hvoid.setEcc _).put 1 (by decide)
  · exact hvoid.raiseMajor 8

omit h in
/-- The bytes of a word are checked one after the other. -/
theorem bytesChecked (h : FlushKept s t) (r w : Nat) (scrub b : Bool) (l : List Nat) :
    FlushKept s (l.foldl (fun (x : Bool × State) k =>
      let y := Machine.byteCheck r (4 * w + k) scrub x.2
      (x.1 || y.1, y.2)) (b, t)).2 := by
  induction l generalizing b t with
  | nil => exact h
  | cons k l ih => exact ih (h.byteCheck r (4 * w + k) scrub) _

theorem wordCheck_mac (w : Nat) (scrub : Bool) : FlushKept s (wordCheck 7 w scrub t) :=
  ite ((h.bytesChecked 7 w scrub false _).eccUe.tableUe_mac _) (h.bytesChecked 7 w scrub false _)

theorem macLook : FlushKept s (macLook t) :=
  ite h (ite (h.forEach fun w _ hu => hu.wordCheck_mac w false) h)

/-- A flush empties entries of the table. -/
theorem macFlush (only : Option Nat) : FlushKept s (macFlush only t) :=
  h.macLook.forEach fun _ _ hu => ite (hu.setBytesLE _ 12 0) hu

end

end FlushKept

theorem FlushKept.refl (s : State) : FlushKept s s := ⟨rfl, rfl⟩

/-! ### The start and the end of a flush (R379, R399) -/

theorem flushDynamicGo_busy (s : State) : (flushDynamicGo s).on FWD_MAC_CMD_GO = true ∧ (flushDynamicGo s).fwd.flush ≠ none :=
  ⟨(State.on_put_same s (f := FWD_MAC_CMD_GO) (v := 1) (by decide) (by decide) : (s.put FWD_MAC_CMD_GO 1).on FWD_MAC_CMD_GO = true),
    Option.some_ne_none _⟩

/-- The state in which a flush passes through the table: it is no longer under way, and its command has ended. -/
def flushEnding (s : State) : State := { s with fwd := {} }.put FWD_MAC_CMD_GO 0

theorem flushDynamicDone_ends {only : Option Nat} {s : State} (h : s.fwd.flush = some only) :
    flushDynamicDone s = macDone 0 (macFlush only (flushEnding s)) := by
  unfold flushDynamicDone
  rw [h]
  rfl

theorem flushDynamicDone_none {s : State} (h : s.fwd.flush = none) : flushDynamicDone s = s := by
  unfold flushDynamicDone
  rw [h]

/-- The end of a flush: nothing is under way, GO reads 0, and the result 0 is recorded. -/
theorem flushEnded (only : Option Nat) (s : State) :
    (macDone 0 (macFlush only (flushEnding s))).fwd.flush = none ∧
      (macDone 0 (macFlush only (flushEnding s))).on FWD_MAC_CMD_GO = false ∧
      (macDone 0 (macFlush only (flushEnding s))).get FWD_MAC_CMD_RESULT = 0 ∧
      (macDone 0 (macFlush only (flushEnding s))).on FWD_EVENT_MAC_CMD_DONE = true := by
  have hkept := (FlushKept.refl (flushEnding s)).macFlush only
  refine ⟨?_, ?_, macDone_result 0 _, macDone_done 0 _⟩
  · rw [macDone_fwd, hkept.fwd]
    rfl
  · rw [State.on_false, macDone_go, hkept.get rfl]
    exact State.get_put_same _ _ 0 (by decide)

/-! ### Ageing (R378) -/

theorem macAge_off {s : State} (h : s.get FWD_CTRL_AGE_TIME = 0) : macAge s = s := if_pos h

end Sys2Proof.Machine
end

section
/-!
PROOFS. Forwarding: the commands of the MAC table, ageing, table entries and the stream's reset (chapter 9).
-/

namespace Sys2Proof.Machine

open Sys2Proof

/-- Settles O45: the rows stand and act, a command by its key, a flush and the entries by what they leave. -/
theorem forwardingCommands : Obligations.ForwardingCommands := by
  refine ⟨fun m v s hw h0 => macCmd_stands (by decide) hw h0, fun m v s hw h0 => macCmd_stands (by decide) hw h0,
    fun m v s hw h0 => macCmd_stands (by decide) hw h0, fun m v s hw h0 => macCmd_stands (by decide) hw h0,
    fun b mac vid s hf hmac hvid hb => ⟨fun hop hnone => ?_, fun hop w hsome => ?_,
      fun hop hret hok => macCommand_inserted hf hmac hvid hb hop hret hok⟩,
    flushDynamicGo_busy, fun only s hs h => ⟨_, timed_eq hs (flushDynamicDone_ends h), flushEnded only s⟩,
    fun s hs h => timed_eq hs (flushDynamicDone_none h), fun s hs h => timed_eq hs (macAge_off h),
    fun s hs h => timed_eq hs (if_neg h), fun m n v s hopen hlo hhi hms => ?_, fun m n w v s hopen hcir hpir hexp => ?_,
    fun m n w be v s hr hg => exec_meterEntryWrite hr hg, fun m n be v s hr hg => exec_streamEntryWrite hr hg,
    fun n s hs hret h => ⟨_, timed_eq hs rfl, frerTimeout_resets hret h⟩, fun n s hs h => timed_eq hs (frerTimeout_unchanged h)⟩
  · rw [macCommand_notFound hf hmac hvid hb hop hnone]
    exact ⟨macDone_result 1 s, macDone_fail s (by decide), macDone_mem 1 s⟩
  · rw [macCommand_lookup hf hmac hvid hb hop hsome]
    exact ⟨macDone_result 0 _, (macDone_word_other 0 _ (by decide) (by decide)).trans (State.word_setWord_same s _ _)⟩
  · have ⟨hr, hg, _⟩ := hopen
    exact ⟨_, exec_streamEntryWrite (be := 15) hr hg, busWrite_stream n.isLt hopen hlo hhi hms⟩
  · have ⟨hr, hg, hm, _⟩ := hopen
    exact ⟨_, exec_meterEntryWrite (be := 15) hr hg,
      busWrite_meter n.isLt w.isLt hopen (fun h => (hcir h).resolve_left hm) hpir hexp⟩

end Sys2Proof.Machine
end

section
/-!
PROOFS. Writes that clear a bit or start a command, and what the fields of a register read once its write stands (R17).
-/

namespace Sys2Proof.Machine

open Sys2Proof

/-- Bit `k` of the register found clears where a 1 is written: of type RW1C, of no other. -/
def RegHit.clearsBit (h : RegHit) (k : Nat) : Bool :=
  (h.maskAll (fun a => a == .rw1c)).testBit k && (h.maskAll (fun _ => true)).testBit k && !(h.maskAll (fun a => a == .w1s)).testBit k

/-- Bit `k` of the register found is left alone by every write. -/
def RegHit.holdsBit (h : RegHit) (k : Nat) : Bool :=
  !(rwMask h).testBit k && !(h.maskAll (fun a => a == .rw1c)).testBit k && !(h.maskAll (fun a => a == .w1s)).testBit k

/-- The register named clears the field's bits where a 1 is written. -/
def Fld.clears (f : Fld) : Bool := (regAt f.reg.addr).any (fun h => (List.range f.width).all (fun k => h.clearsBit (f.lsb + k)))

/-- The register named holds the field against every write. -/
def Fld.holds (f : Fld) : Bool := (regAt f.reg.addr).any (fun h => (List.range f.width).all (fun k => h.holdsBit (f.lsb + k)))

theorem writeSeen_clearsBit {m : BusMaster} {h : RegHit} {w : Word} {s : State} {k : Nat} (h1 : h.spec.words = 1) (h32 : k < 32)
    (hk : h.clearsBit k = true) (hw : w.getLsbD k = true) : (writeSeen m h w s).new.testBit k = false := by
  simp only [RegHit.clearsBit, Bool.and_eq_true, Bool.not_eq_true'] at hk
  obtain ⟨⟨hrw1c, hall⟩, hw1s⟩ := hk
  have hfull : (2 ^ 32 - 1).testBit k = true := by rw [Nat.testBit_two_pow_sub_one]; exact decide_eq_true h32
  change (writtenValue h _ (takeStaged m h w s).1.1 ((takeStaged m h w s).1.2 &&& _ &&& (takeStaged m h w s).1.1)).testBit k = _
  rw [takeStaged_one m h w s h1, writeByTypeOfField]
  simp only [Nat.testBit_and, BitVec.testBit_toNat, hw, hfull, hall, hw1s, hrw1c, Bool.and_true, Bool.true_eq_false,
    Bool.false_eq_true, if_false, if_true]

theorem writeSeen_holdsBit {m : BusMaster} {h : RegHit} {w : Word} {s : State} {k : Nat} (hk : h.holdsBit k = true) :
    (writeSeen m h w s).new.testBit k = (writeSeen m h w s).old.testBit k := by
  simp only [RegHit.holdsBit, Bool.and_eq_true, Bool.not_eq_true'] at hk
  obtain ⟨⟨hrw, hrw1c⟩, hw1s⟩ := hk
  change (writtenValue h (writeSeen m h w s).old _ _).testBit k = _
  rw [writeByTypeOfField]
  simp [hrw, hrw1c, hw1s]

/-- Two values that agree in a field's bits hold the same in it. -/
theorem RegWrite.field_congr {R : RegWrite} {x y : Nat} {f : Fld} (ha : f.reg.addr = R.addr)
    (hxy : ∀ k < f.width, x.testBit (f.lsb + k) = y.testBit (f.lsb + k)) : R.field x f = R.field y f := by
  refine Nat.eq_of_testBit_eq fun k => ?_
  unfold RegWrite.field
  rw [ha, Nat.sub_self, Nat.mul_zero, Nat.add_zero, Nat.testBit_mod_two_pow, Nat.testBit_mod_two_pow, Nat.testBit_div_two_pow,
    Nat.testBit_div_two_pow, Nat.add_comm k]
  by_cases hk : k < f.width
  · rw [hxy k hk]
  · simp [hk]

/-- What the write `R` of the word `w` leaves in the fields of its register that it cannot set: 0 where they are cleared, else what they
held. -/
def LeavesFields (r : Reg) (w : Word) (R : RegWrite) : Prop :=
  ∀ f : Fld, f.reg.addr = r.addr → f.lsb + f.width ≤ 32 →
    (f.clears = true → (∀ k < f.width, w.getLsbD (f.lsb + k) = true) → R.now f = 0) ∧ (f.holds = true → R.now f = R.was f)

theorem writeSeen_leavesFields {m : BusMaster} {r : Reg} {h : RegHit} {w : Word} {s : State} (hr : regAt r.addr = some h)
    (h1 : h.spec.words = 1) (hb : h.base = r.addr) : LeavesFields r w (writeSeen m h w s) := by
  intro f hf h32
  have haddr : f.reg.addr = (writeSeen m h w s).addr := hf.trans hb.symm
  refine ⟨fun hc hw => ?_, fun hh => RegWrite.field_congr haddr fun k hk => writeSeen_holdsBit ?_⟩
  · simp only [Fld.clears, hf, hr, Option.any_some, List.all_eq_true, List.mem_range] at hc
    have hzero : (writeSeen m h w s).now f = (writeSeen m h w s).field 0 f := RegWrite.field_congr haddr fun k hk => by
      rw [writeSeen_clearsBit h1 (by omega) (hc k hk) (hw k hk), Nat.zero_testBit]
    rw [hzero, RegWrite.field, Nat.zero_div, Nat.zero_mod]
  · simp only [Fld.holds, hf, hr, Option.any_some, List.all_eq_true, List.mem_range] at hh
    exact hh k hk

/-- A row that writes a one-word register: the write stands as the register found at its address sees it, and the register acts. -/
theorem Writable.stands_seen {m : BusMaster} {r : Reg} {v : Word} {s : State} {id : RegId} {i j : Nat} (hw : Writable m r v s)
    (hn : namesOneWord r id i j = true) (ha : r.addr < 0x026FFFFC) (hid : id ≠ .LDR_HOST_CTRL) :
    ∃ h c, regAt r.addr = some h ∧ h.wide = r.one ∧ Stands m id i j r.one v.toNat s (writeSeen m h v s) c ∧
      run (busPut m r.addr v) s = .next (settle s (regEffect (writeSeen m h v s) c)) := by
  obtain ⟨h, hf, rfl, rfl, rfl, hwide⟩ := regAt_of_namesOneWord hn
  obtain ⟨k, hk⟩ := mayWrite_meets hw
  obtain rfl : h = k := Option.some.inj (hf.symm.trans (regAt_of_placeOf hk.place.1))
  have hend : h.wide.addr + 4 * h.wide.words ≤ 0x02700000 := by
    simp only [hwide, Reg.one]
    omega
  obtain ⟨c, hst, -, hput⟩ := write_stands hk (by omega) hend (fun he => absurd he hid)
  rw [takeStaged_one m h _ s (congrArg Wide.words hwide), hwide] at hst
  exact ⟨h, c, hf, hwide, hst, run_eq hk.out hput⟩

/-- The write leaves the fields that it cannot set. -/
theorem Writable.stands_leaves {m : BusMaster} {r : Reg} {v : Word} {s : State} {id : RegId} {i j : Nat} (hw : Writable m r v s)
    (hn : namesOneWord r id i j = true) (ha : r.addr < 0x026FFFFC) (hid : id ≠ .LDR_HOST_CTRL) :
    ∃ R c, Stands m id i j r.one v.toNat s R c ∧ LeavesFields r v R ∧
      run (busPut m r.addr v) s = .next (settle s (regEffect R c)) := by
  obtain ⟨h, c, hf, hwide, hst, hrun⟩ := hw.stands_seen hn ha hid
  exact ⟨_, c, hst, writeSeen_leavesFields hf (congrArg Wide.words hwide) (congrArg Wide.addr hwide), hrun⟩

/-- A field of the register reads what the write leaves in it. -/
theorem Stands.get_now {m : BusMaster} {id : RegId} {i j v : Nat} {f : Fld} {s c : State} {R : RegWrite}
    (h : Stands m id i j f.reg.one v s R c) (hf : f.lsb + f.width ≤ 32) : c.get f = R.now f := by
  obtain ⟨-, -, -, -, haddr⟩ := h.who
  have hbase : f.reg.addr = R.addr := haddr.symm
  have hword : (c.word f.reg).toNat = R.new % 2 ^ 32 := (State.wide_one c f.reg).symm.trans h.kept
  have hfield : c.get f = R.field (R.new % 2 ^ 32) f := by
    simp only [State.get, extractBits, RegWrite.field, hword, hbase, Nat.sub_self, Nat.mul_zero, Nat.add_zero]
  refine hfield.trans (RegWrite.field_congr hbase fun k hk => ?_)
  rw [Nat.testBit_mod_two_pow, decide_eq_true (by omega : f.lsb + k < 32), Bool.true_and]

/-- A row that names a command's operation and sets the bit that starts it, where none runs: the write stands with that operation, and it
starts. -/
theorem Writable.stands_command {m : BusMaster} {op go : Fld} {x : Nat} {v : Word} {s : State} {id : RegId} {i j : Nat}
    (hw : Writable m op.reg (withField go 1 (withField op x v)) s) (hn : namesOneWord op.reg id i j = true) (hreg : go.reg = op.reg)
    (htaken : op.taken = true) (hcarried : go.carried = true) (hx : x < 2 ^ op.width) (hbelow : op.lsb + op.width ≤ go.lsb)
    (h1 : go.width = 1) (hlsb : go.lsb < 32) (ha : op.reg.addr < 0x026FFFFC) (hid : id ≠ .LDR_HOST_CTRL) (h0 : s.on go = false) :
    ∃ R c, Stands m id i j op.reg.one (withField go 1 (withField op x v)).toNat s R c ∧ R.now op = x ∧ R.acts go = true ∧
      run (busSet2 m op x go 1 v) s = .next (settle s (regEffect R c)) := by
  obtain ⟨R, c, hst, hsees, hrun⟩ := hw.stands_sees hn ha hid
  have hnow : R.now op = x := by
    rw [(hsees op rfl (by omega)).2 htaken]
    refine (extract_insert_other _ _ (by omega) (.inl hbelow)).trans ((extract_withField (by omega)).trans ?_)
    exact Nat.mod_eq_of_lt hx
  have hwas : R.was go = 0 := (Stands.was_eq (f := go) (hreg ▸ hst)).trans (State.on_false.1 h0)
  have hgo : R.field R.v go = 1 := by
    rw [(hsees go (congrArg Reg.addr hreg) (by omega)).1 hcarried, extract_withField (by omega), h1]
    rfl
  refine ⟨R, c, hst, hnow, ?_, hrun⟩
  unfold RegWrite.acts
  rw [hgo, hwas]
  rfl

end Sys2Proof.Machine
end

section
/-!
PROOFS. Buffer pools: what an allocation, a free and a reclaim leave of the queues, and the state an allocation leads to (R437 to R441).
-/

namespace Sys2Proof.Machine

open Sys2Proof

/-- The queues' records and the age epoch are as they were. -/
structure QueuesKept (s t : State) : Prop where
  queues : t.queues = s.queues
  epoch : t.epoch = s.epoch

namespace QueuesKept

variable {s t : State}

theorem refl (s : State) : QueuesKept s s := ⟨rfl, rfl⟩

theorem queueRec (h : QueuesKept s t) (q : Nat) : t.queueRec q = s.queueRec q := by
  unfold State.queueRec
  rw [h.queues]

theorem ite {c : Prop} [Decidable c] {u : State} (h : QueuesKept s t) (h' : QueuesKept s u) : QueuesKept s (if c then t else u) := by
  split
  · exact h
  · exact h'

theorem forEach {α : Type} {l : List α} {g : α → State → State} (h : QueuesKept s t)
    (hg : ∀ a u, QueuesKept s u → QueuesKept s (g a u)) : QueuesKept s (forEach l g t) := forEach_keeps (P := QueuesKept s) t h hg

section
variable (h : QueuesKept s t)
include h

theorem put (f : Fld) (v : Nat) : QueuesKept s (t.put f v) := ⟨h.queues, h.epoch⟩

theorem ev (f : Fld) : QueuesKept s (t.ev f) := h.put f 1

theorem count (f : Fld) (n : Nat) : QueuesKept s (t.count f n) := h.put f _

theorem setBuf (pool i : Nat) (b : BufRec) : QueuesKept s (t.setBuf pool i b) := ⟨h.queues, h.epoch⟩

theorem pmcEvent (code : Nat) (kind : PmcKind) (k : Nat) : QueuesKept s (pmcEvent code kind k t) := by
  have hp := (pmcEvent_only code kind k t).1
  exact ⟨(congrArg State.queues hp).trans h.queues, (congrArg State.epoch hp).trans h.epoch⟩

/-! ### Frees and reclaims (R430, R437 to R441) -/

theorem poolReject (pool i cls kind : Nat) : QueuesKept s (poolReject pool i cls kind t) := by
  have hcount : QueuesKept s (if kind = 1 then (t.count (POOL_CNT0_DOUBLE_FREE pool)).ev POOL_EVENT_DOUBLE_FREE
      else if kind = 2 then (t.count (POOL_CNT1_OWNER_FAULT pool)).ev POOL_EVENT_OWNER_FAULT
      else (t.count (POOL_CNT2_REF_OVF pool)).ev POOL_EVENT_REF_OVF) :=
    ite ((h.count _ 1).ev _) (ite ((h.count _ 1).ev _) ((h.count _ 1).ev _))
  exact ite (hcount.ev _) (((((hcount.ev _).put _ i).put _ pool).put _ cls).put _ kind)

theorem bufRelease (pool i : Nat) : QueuesKept s (bufRelease pool i t) := by
  have hfree := (h.setBuf pool i { written := (t.buf pool i).written }).put (POOL_FREE_V pool)
    (State.get (t.setBuf pool i { written := (t.buf pool i).written }) (POOL_FREE_V pool) + 1)
  exact ite (h.setBuf pool i _) (ite (hfree.pmcEvent _ _ _) hfree)

theorem poolFree (pool i cls : Nat) : QueuesKept s (poolFree pool i cls t).2 := by
  unfold Machine.poolFree
  dsimp only
  split_ifs
  · exact h.poolReject pool i cls 1
  · exact h.poolReject pool i cls 2
  · exact h.bufRelease pool i
  · exact h.setBuf pool i _

theorem deferFree (cls i : Nat) : QueuesKept s (deferFree cls i t) := ⟨h.queues, h.epoch⟩

theorem freeCellsQ (cls : Nat) (l : List Nat) : QueuesKept s (freeCellsQ cls l t) :=
  ite (h.forEach fun i _ hu => hu.poolFree 0 i cls) (h.forEach fun i _ hu => hu.deferFree cls i)

theorem bufReclaim (pool i : Nat) : QueuesKept s (bufReclaim pool i t) := ite (h.deferFree clsReclaim i) (h.bufRelease pool i)

/-- A sweep reclaims buffers, and counts them. -/
theorem poolSweep (pool : Nat) : QueuesKept s (poolSweep pool t) :=
  h.forEach fun i _ hu => ite (((hu.bufReclaim pool i).count _ 1).ev _) hu

end

end QueuesKept

/-! ### An allocation (R437, R438) -/

section
variable (pool cls : Nat) (s : State)

/-- The record of a buffer that a class takes. -/
def bufTaken : BufRec :=
  { s.buf pool (firstGap (allocated s pool) 0) with alloc := true, owner := cls, refs := 1, age := s.epoch }

/-- The lowest-numbered free buffer is taken, and one fewer is free. -/
def bufGone : State :=
  (s.setBuf pool (firstGap (allocated s pool) 0) (bufTaken pool cls s)).put (POOL_FREE_V pool) (s.get (POOL_FREE_V pool) - 1)

/-- A buffer is taken from a pool for a class: the low-water mark follows, and an allocation of pool 0 is counted. -/
def poolTaken : State :=
  let t := (bufGone pool cls s).put (POOL_LOW_WATER_V pool)
    (min ((bufGone pool cls s).get (POOL_LOW_WATER_V pool)) (s.get (POOL_FREE_V pool) - 1))
  if pool = 0 then pmcEvent 0x030 .plain 1 t else t

variable {pool s} in
theorem poolAlloc_taken {floor : Nat} (hfree : floor < s.get (POOL_FREE_V pool)) (hen : s.on (POOL_CFG_EN pool) = true) :
    poolAlloc pool cls floor s = (some (firstGap (allocated s pool) 0), poolTaken pool cls s) := by
  unfold poolAlloc
  dsimp only
  rw [if_neg (by simp [hen]; omega)]
  rfl

variable {pool cls s} in
theorem QueuesKept.poolTaken {t : State} (h : QueuesKept s t) : QueuesKept s (poolTaken pool cls t) := by
  have hmark := ((h.setBuf pool (firstGap (allocated t pool) 0) (bufTaken pool cls t)).put (POOL_FREE_V pool)
    (t.get (POOL_FREE_V pool) - 1)).put (POOL_LOW_WATER_V pool)
      (min ((bufGone pool cls t).get (POOL_LOW_WATER_V pool)) (t.get (POOL_FREE_V pool) - 1))
  exact ite (hmark.pmcEvent _ _ _) hmark

variable {pool cls s} in
theorem QueuesKept.poolAlloc {t : State} {floor : Nat} (h : QueuesKept s t) : QueuesKept s (poolAlloc pool cls floor t).2 := by
  by_cases hc : t.get (POOL_FREE_V pool) ≤ floor ∨ (!t.on (POOL_CFG_EN pool)) = true
  · have hnone : Machine.poolAlloc pool cls floor t = (none, poolEmpty pool t) := if_pos hc
    rw [hnone]
    exact (h.count _ 1).ev _
  · simp only [Bool.not_eq_true', not_or, Nat.not_le, Bool.not_eq_false] at hc
    obtain ⟨hfree, hen⟩ := hc
    rw [poolAlloc_taken cls hfree hen]
    exact h.poolTaken

section
variable {pool} (hp : pool ≠ 0)
include hp

/-- One buffer fewer is free. -/
theorem poolTaken_free : (poolTaken pool cls s).get (POOL_FREE_V pool) = s.get (POOL_FREE_V pool) - 1 := by
  have hfits : s.get (POOL_FREE_V pool) - 1 < 2 ^ (POOL_FREE_V pool).width :=
    Nat.lt_of_le_of_lt (Nat.sub_le _ _) (State.get_lt s (POOL_FREE_V pool))
  unfold poolTaken
  dsimp only
  rw [if_neg hp, State.get_put_reg _ _ (by simp only [POOL_FREE_V, POOL_FREE, POOL_LOW_WATER_V, POOL_LOW_WATER]; omega)]
  exact State.get_put_fits _ (f := POOL_FREE_V pool) (Nat.le_of_ble_eq_true rfl) hfits

/-- The buffer taken is allocated. -/
theorem poolTaken_alloc : ((poolTaken pool cls s).buf pool (firstGap (allocated s pool) 0)).alloc = true := by
  have hbuf : (poolTaken pool cls s).buf pool (firstGap (allocated s pool) 0) = bufTaken pool cls s := by
    unfold poolTaken
    dsimp only
    rw [if_neg hp]
    exact smGet_set_same ({} : BufRec) s.bufs (bufKey pool (firstGap (allocated s pool) 0)) (bufTaken pool cls s)
  rw [hbuf]
  rfl

end

end

/-! ### The epoch (R441) -/

/-- Marking and sweeping leave the epoch that has come. -/
theorem ageEpoch_epoch (s : State) : (ageEpoch s).epoch = (s.epoch + 1) % 16 := by
  have hkept : QueuesKept { s with epoch := (s.epoch + 1) % 16 } (ageEpoch s) :=
    .forEach (.ite (.forEach (.refl _) fun x _ hu => hu.setBuf 0 x.buf _)
      (.forEach (.forEach (.refl _) fun x _ hu => hu.setBuf 0 x.buf _) fun i _ hu => hu.setBuf 1 i _))
      fun n _ hu => .ite (hu.poolSweep n) hu
  exact hkept.epoch

end Sys2Proof.Machine
end

section
/-!
PROOFS. The commands of POOL_CMD and the enable of a pool (R442, R443, R454, R455).
-/

namespace Sys2Proof.Machine

open Sys2Proof

/-- A query shows the state of a buffer in POOL_CMD_STATE. -/
def bufShown (b : BufRec) (s : State) : State :=
  (((s.putB POOL_CMD_STATE_ALLOCATED b.alloc).put POOL_CMD_STATE_OWNER b.owner).put POOL_CMD_STATE_REFCOUNT b.refs).put
    POOL_CMD_STATE_AGE b.age

/-! ### The end of a command (R442, R454) -/

/-- A command ends with a result code, and its end is recorded. -/
def poolDone (code : Nat) (s : State) : State := (s.put POOL_CMD_RESULT code).ev POOL_EVENT_CMD_DONE

section
variable (code : Nat) (s : State)

theorem poolDone_result : (poolDone code s).get POOL_CMD_RESULT = code % 8 :=
  (State.get_put_reg _ 1 (by decide)).trans (State.get_put_same s POOL_CMD_RESULT code (by decide))

theorem poolDone_done : (poolDone code s).on POOL_EVENT_CMD_DONE = true := State.on_ev_same _ (by decide) (by decide)

/-- The registers but those of the command and of the events keep their fields, and the events theirs but CMD_DONE. -/
theorem poolDone_get_other {f : Fld} (hc : f.reg.addr ≠ POOL_CMD.addr) (he : f.Apart POOL_EVENT_CMD_DONE) :
    (poolDone code s).get f = s.get f :=
  (State.get_put_apart _ 1 he).trans (State.get_put_reg s (g := POOL_CMD_RESULT) code hc)

theorem poolDone_on_other {f : Fld} (hc : f.reg.addr ≠ POOL_CMD.addr) (he : f.Apart POOL_EVENT_CMD_DONE) :
    (poolDone code s).on f = s.on f := by
  unfold State.on
  rw [poolDone_get_other code s hc he]

end

/-! ### The commands of class MGMT (R436, R438, R439, R442) -/

section
variable {p : Nat} {s : State} (hp : p = s.get POOL_CMD_POOL)

include hp in
theorem poolCmd_disabled (hen : s.on (POOL_CFG_EN p) = false) : poolCmd s = poolDone 5 s := by
  subst hp
  exact if_pos (by simp [hen])

variable (hen : s.on (POOL_CFG_EN p) = true)
include hp hen

/-- An allocation with a buffer free takes one. -/
theorem poolCmd_granted (hop : s.get POOL_CMD_OP = 1) (h0 : p ≠ 0) (hfree : 0 < s.get (POOL_FREE_V p)) :
    poolCmd s = poolDone 0 ((poolTaken p clsMgmt s).put POOL_CMD_INDEX_V (firstGap (allocated s p) 0)) := by
  subst hp
  unfold poolCmd
  dsimp only
  rw [if_neg (by simp [hen]), if_pos hop, if_neg h0, poolAlloc_taken clsMgmt hfree hen]
  rfl

/-- Without one it takes none. -/
theorem poolCmd_empty (hop : s.get POOL_CMD_OP = 1) (h0 : p ≠ 0) (hfree : s.get (POOL_FREE_V p) = 0) :
    poolCmd s = poolDone 1 (poolEmpty p s) := by
  subst hp
  unfold poolCmd
  dsimp only
  rw [if_neg (by simp [hen]), if_pos hop, if_neg h0, poolAlloc_empty hfree]
  rfl

omit hen in
/-- A buffer beyond the pool's size is refused to every command but an allocation. -/
theorem poolCmd_beyond (hop : s.get POOL_CMD_OP ≠ 1) (hi : s.get (POOL_SIZE_V p) ≤ s.get POOL_CMD_INDEX_V) :
    poolCmd s = poolDone 5 s := by
  by_cases hen : s.on (POOL_CFG_EN p) = true
  · subst hp
    unfold poolCmd
    dsimp only
    rw [if_neg (by simp [hen]), if_neg hop, if_pos hi]
    rfl
  · exact poolCmd_disabled hp (Bool.eq_false_iff.2 hen)

variable (hi : s.get POOL_CMD_INDEX_V < s.get (POOL_SIZE_V p))
include hi

/-- A free of a buffer that is not allocated is rejected. -/
theorem poolCmd_doubleFree (hop : s.get POOL_CMD_OP = 2) (hb : (s.buf p (s.get POOL_CMD_INDEX_V)).alloc = false) :
    poolCmd s = poolDone 2 (poolReject p (s.get POOL_CMD_INDEX_V) clsMgmt 1 s) := by
  have hfree : poolFree p (s.get POOL_CMD_INDEX_V) clsMgmt s = (1, poolReject p (s.get POOL_CMD_INDEX_V) clsMgmt 1 s) :=
    if_pos (by simp [hb])
  subst hp
  unfold poolCmd
  dsimp only
  rw [if_neg (by simp [hen]), if_neg (by simp [hop]), if_neg (Nat.not_le.2 hi), if_pos hop, hfree]
  rfl

/-- A query shows the buffer's state. -/
theorem poolCmd_query (hop : s.get POOL_CMD_OP = 4) : poolCmd s = poolDone 0 (bufShown (s.buf p (s.get POOL_CMD_INDEX_V)) s) := by
  subst hp
  unfold poolCmd
  dsimp only
  rw [if_neg (by simp [hen]), if_neg (by simp [hop]), if_neg (Nat.not_le.2 hi), if_neg (by simp [hop]), if_neg (by simp [hop]), if_pos hop]
  rfl

end

/-! ### What the commands leave -/

section
variable {p : Nat} {s : State}

/-- A command that is refused its arguments ends BAD_ARG, and no buffer changes. -/
theorem poolDone_badArg (h : poolCmd s = poolDone 5 s) : (poolCmd s).get POOL_CMD_RESULT = 5 ∧
    (poolCmd s).on POOL_EVENT_CMD_DONE = true ∧ (poolCmd s).bufs = s.bufs := by
  rw [h]
  exact ⟨poolDone_result 5 s, poolDone_done 5 s, rfl⟩

/-- The pools' free counts lie apart from the command's registers and the events. -/
theorem poolFree_apart (p : Nat) : (POOL_FREE_V p).reg.addr ≠ POOL_CMD.addr ∧ (POOL_FREE_V p).reg.addr ≠ POOL_CMD_INDEX.addr ∧
    (POOL_FREE_V p).Apart POOL_EVENT_CMD_DONE := by
  refine ⟨?_, ?_, .inl ?_⟩
  all_goals
    simp only [POOL_FREE_V, POOL_FREE, POOL_CMD, POOL_CMD_INDEX, POOL_EVENT_CMD_DONE, POOL_EVENT]
    omega

theorem poolGranted_shows (h0 : p ≠ 0) (hfree : 0 < s.get (POOL_FREE_V p))
    (h : poolCmd s = poolDone 0 ((poolTaken p clsMgmt s).put POOL_CMD_INDEX_V (firstGap (allocated s p) 0))) :
    (poolCmd s).get POOL_CMD_RESULT = 0 ∧ (poolCmd s).get (POOL_FREE_V p) + 1 = s.get (POOL_FREE_V p) ∧
      ((poolCmd s).buf p (firstGap (allocated s p) 0)).alloc = true := by
  obtain ⟨hcmd, hindex, hevent⟩ := poolFree_apart p
  rw [h]
  refine ⟨poolDone_result 0 _, ?_, poolTaken_alloc clsMgmt s h0⟩
  rw [poolDone_get_other 0 _ hcmd hevent, State.get_put_reg _ (g := POOL_CMD_INDEX_V) _ hindex, poolTaken_free clsMgmt s h0]
  omega

theorem poolEmpty_shows (h : poolCmd s = poolDone 1 (poolEmpty p s)) : (poolCmd s).get POOL_CMD_RESULT = 1 ∧
    (poolCmd s).on POOL_EVENT_EMPTY = true ∧ (poolCmd s).bufs = s.bufs := by
  rw [h]
  refine ⟨poolDone_result 1 _, ?_, rfl⟩
  rw [poolDone_on_other 1 _ (by decide) (.inr (by decide))]
  exact State.on_ev_same _ (by decide) (by decide)

/-- A rejection is recorded in the log, whose registers are not those of the events, and changes no buffer. -/
theorem poolReject_double (i cls : Nat) : (poolReject p i cls 1 s).on POOL_EVENT_DOUBLE_FREE = true ∧
    (poolReject p i cls 1 s).bufs = s.bufs := by
  have hflag : State.on ((s.count (POOL_CNT0_DOUBLE_FREE p)).ev POOL_EVENT_DOUBLE_FREE) POOL_EVENT_DOUBLE_FREE = true :=
    State.on_ev_same _ (by decide) (by decide)
  have hlog : ∀ (t : State) (f : Fld) (v : Nat), POOL_EVENT.addr ≠ f.reg.addr →
      (t.put f v).on POOL_EVENT_DOUBLE_FREE = t.on POOL_EVENT_DOUBLE_FREE := fun t f v hf => by
    unfold State.on
    rw [State.get_put_reg t (f := POOL_EVENT_DOUBLE_FREE) v hf]
  unfold poolReject
  dsimp only
  rw [if_pos rfl]
  split_ifs
  · exact ⟨(hlog _ _ 1 (by decide)).trans hflag, rfl⟩
  · refine ⟨?_, rfl⟩
    rw [hlog _ _ _ (by decide), hlog _ _ _ (by decide), hlog _ _ _ (by decide), hlog _ _ _ (by decide)]
    exact (hlog _ _ 1 (by decide)).trans hflag

theorem poolDouble_shows {i : Nat} (h : poolCmd s = poolDone 2 (poolReject p i clsMgmt 1 s)) : (poolCmd s).get POOL_CMD_RESULT = 2 ∧
    (poolCmd s).on POOL_EVENT_DOUBLE_FREE = true ∧ (poolCmd s).bufs = s.bufs := by
  obtain ⟨hflag, hbufs⟩ := poolReject_double (p := p) (s := s) i clsMgmt
  rw [h]
  exact ⟨poolDone_result 2 _, (poolDone_on_other 2 _ (by decide) (.inr (by decide))).trans hflag, hbufs⟩

theorem poolQuery_shows {b : BufRec} (h : poolCmd s = poolDone 0 (bufShown b s)) : (poolCmd s).get POOL_CMD_RESULT = 0 ∧
    (poolCmd s).on POOL_CMD_STATE_ALLOCATED = b.alloc ∧ (poolCmd s).get POOL_CMD_STATE_REFCOUNT = b.refs % 256 ∧
      (poolCmd s).bufs = s.bufs := by
  rw [h]
  refine ⟨poolDone_result 0 _, ?_, ?_, rfl⟩
  · rw [poolDone_on_other 0 _ (by decide) (.inl (by decide))]
    unfold bufShown State.on
    rw [State.get_put_apart _ _ (.inr (by decide)), State.get_put_apart _ _ (.inr (by decide)),
      State.get_put_apart _ _ (.inr (by decide)), State.putB_eq, State.get_put_same _ _ _ (by decide)]
    cases b.alloc <;> rfl
  · rw [poolDone_get_other 0 _ (by decide) (.inl (by decide))]
    unfold bufShown
    rw [State.get_put_apart _ _ (.inr (by decide))]
    exact State.get_put_same _ _ _ (by decide)

end

/-! ### The rows that write POOL_CMD (R442) -/

/-- A row that names OP and sets GO, where no command runs: the write stands with that OP, and its command runs. -/
theorem poolCmd_stands {m : BusMaster} {op : Nat} {v : Word} {s : State} (hop : op < 8)
    (hw : Writable m POOL_CMD (withField POOL_CMD_GO 1 (withField POOL_CMD_OP op v)) s) (h0 : s.on POOL_CMD_GO = false) :
    ∃ R c, Stands m .POOL_CMD 0 0 POOL_CMD.one (withField POOL_CMD_GO 1 (withField POOL_CMD_OP op v)).toNat s R c ∧
      R.now POOL_CMD_OP = op ∧ run (busSet2 m POOL_CMD_OP op POOL_CMD_GO 1 v) s = .next (settle s (poolCmd c)) := by
  obtain ⟨R, c, hst, hnow, hacts, hrun⟩ := Writable.stands_command (op := POOL_CMD_OP) (go := POOL_CMD_GO) (id := .POOL_CMD) (i := 0) (j := 0)
    hw (by decide +kernel) rfl (by decide +kernel) (by decide +kernel) hop (by decide) rfl (by decide) (by decide) (by decide) h0
  obtain ⟨-, hid, -, -, -⟩ := hst.who
  have heffect : regEffect R c = poolCmd c := by
    unfold regEffect
    rw [hid]
    exact if_pos hacts
  exact ⟨R, c, hst, hnow, by rw [← heffect]; exact hrun⟩

/-! ### The enable of a pool (R443) -/

theorem namesOneWord_poolCfg (n : Fin 16) : namesOneWord (POOL_CFG n) .POOL_CFG n 0 = true := by
  revert n
  decide +kernel

theorem carried_poolEn (n : Fin 16) : (POOL_CFG_EN n).carried = true := by
  revert n
  decide +kernel

theorem taken_poolEn (n : Fin 16) (hn : 4 ≤ n.val) : (POOL_CFG_EN n).taken = true := by
  revert n
  decide +kernel

/-- The row of a pool's enable: the write stands; a pool beyond the first four takes it, and is enabled. -/
theorem poolEnable_stands {m : BusMaster} {n : Fin 16} {v : Word} {s : State}
    (hw : Writable m (POOL_CFG n) (withField (POOL_CFG_EN n) 1 v) s) : ∃ R c,
    Stands m .POOL_CFG n 0 (POOL_CFG n).one (withField (POOL_CFG_EN n) 1 v).toNat s R c ∧ (4 ≤ n.val → R.now (POOL_CFG_EN n) = 1) ∧
      run (busSet m (POOL_CFG_EN n) 1 v) s = .next (settle s (if 4 ≤ n.val then poolEnable n c else c)) := by
  obtain ⟨R, c, hst, hsees, hrun⟩ := hw.stands_sees (namesOneWord_poolCfg n) (by simp only [POOL_CFG]; omega) (by decide)
  obtain ⟨-, hid, hi, -, -⟩ := hst.who
  have hwritten : extractBits (withField (POOL_CFG_EN n) 1 v) (POOL_CFG_EN n).lsb (POOL_CFG_EN n).width = 1 :=
    extract_withField (Nat.le_of_ble_eq_true rfl)
  obtain ⟨hcarried, htaken⟩ := hsees (POOL_CFG_EN n) rfl (Nat.le_of_ble_eq_true rfl)
  have hv : R.field R.v (POOL_CFG_EN n) = 1 := (hcarried (carried_poolEn n)).trans hwritten
  have heffect : regEffect R c = if 4 ≤ n.val then poolEnable n c else c := by
    unfold regEffect
    rw [hid]
    simp [hi, hv]
  exact ⟨R, c, hst, fun hn => (htaken (taken_poolEn n hn)).trans hwritten, by rw [← heffect]; exact hrun⟩

/-- A pool that is enabled is on, with every buffer free. -/
theorem poolEnable_shows (n : Nat) (s : State) : (poolEnable n s).on (POOL_CFG_EN n) = true ∧
    (poolEnable n s).get (POOL_FREE_V n) = s.get (POOL_SIZE_V n) ∧ (poolEnable n s).get (POOL_LOW_WATER_V n) = s.get (POOL_SIZE_V n) := by
  have hregs : (forEach (allocated s n) (fun i t => t.setBuf n i {}) s).regs = s.regs :=
    forEach_keeps (P := fun t => t.regs = s.regs) s rfl fun _ _ ht => ht
  have hsize : (State.put (forEach (allocated s n) (fun i t => t.setBuf n i {}) s) (POOL_CFG_EN n) 1).get (POOL_SIZE_V n) =
      s.get (POOL_SIZE_V n) := by
    rw [State.get_put_reg _ _ (by simp only [POOL_SIZE_V, POOL_SIZE, POOL_CFG_EN, POOL_CFG]; omega), State.get_of_regs hregs]
  have hfits : s.get (POOL_SIZE_V n) < 2 ^ 25 := State.get_lt s (POOL_SIZE_V n)
  unfold poolEnable
  dsimp only
  rw [hsize]
  refine ⟨?_, ?_, State.get_put_fits _ (f := POOL_LOW_WATER_V n) (Nat.le_of_ble_eq_true rfl) hfits⟩
  · unfold State.on
    rw [State.get_put_reg _ _ (by simp only [POOL_LOW_WATER_V, POOL_LOW_WATER, POOL_CFG_EN, POOL_CFG]; omega),
      State.get_put_reg _ _ (by simp only [POOL_FREE_V, POOL_FREE, POOL_CFG_EN, POOL_CFG]; omega),
      State.get_put_same _ (POOL_CFG_EN n) 1 (Nat.le_of_ble_eq_true rfl)]
    rfl
  · rw [State.get_put_reg _ _ (by simp only [POOL_FREE_V, POOL_FREE, POOL_LOW_WATER_V, POOL_LOW_WATER]; omega)]
    exact State.get_put_fits _ (f := POOL_FREE_V n) (Nat.le_of_ble_eq_true rfl) hfits

end Sys2Proof.Machine
end

section
/-!
PROOFS. Express streams: the writes of their enable, an installation refused and an uninstallation (R456, R457, R459); and the settling of
the statement on pools and express streams.
-/

namespace Sys2Proof.Machine

open Sys2Proof

/-! ### The rows that write XC_STREAMs_CFG (R456, R457) -/

theorem namesOneWord_streamCfg (n : Fin 1024) : namesOneWord (XC_STREAM_CFG n) .XC_STREAM_CFG n 0 = true := by
  revert n
  decide +kernel

theorem plain_streamEn (n : Fin 1024) : (XC_STREAM_CFG_EN n).plain = true := by
  revert n
  decide +kernel

theorem regEffect_streamCfg {R : RegWrite} (c : State) (hid : R.id = .XC_STREAM_CFG) : regEffect R c = streamWritten R c := by
  unfold regEffect
  rw [hid]

/-- A row that writes a stream's EN: the write stands with that value, and the stream acts on it. -/
theorem streamEn_stands {m : BusMaster} {n : Fin 1024} {x : Nat} {v : Word} {s : State}
    (hw : Writable m (XC_STREAM_CFG n) (withField (XC_STREAM_CFG_EN n) x v) s) : ∃ R c,
    Stands m .XC_STREAM_CFG n 0 (XC_STREAM_CFG n).one (withField (XC_STREAM_CFG_EN n) x v).toNat s R c ∧
      R.now (XC_STREAM_CFG_EN n) = x % 2 ∧ run (busSet m (XC_STREAM_CFG_EN n) x v) s = .next (settle s (streamWritten R c)) := by
  obtain ⟨R, c, hst, hnow, hrun⟩ := Writable.stands_field (f := XC_STREAM_CFG_EN n) hw (namesOneWord_streamCfg n) (plain_streamEn n) rfl
    (Nat.le_of_ble_eq_true rfl) (by simp only [XC_STREAM_CFG_EN, XC_STREAM_CFG]; omega) (by decide)
  obtain ⟨-, hid, -, -, -⟩ := hst.who
  exact ⟨R, c, hst, hnow, by rw [← regEffect_streamCfg c hid]; exact hrun⟩

/-! ### A stream that is uninstalled, and one that is refused (R457, R459) -/

/-- A class that leaves a port is written in the port's status alone. -/
theorem xcDropClass_get_other {p tc : Nat} {s : State} {f : Fld} (hf : f.reg.addr ≠ (XC_PORT_STATUS p).addr) :
    (xcDropClass p tc s).get f = s.get f := by
  unfold xcDropClass
  split_ifs
  · rfl
  · rw [State.get_put_reg _ (g := XC_PORT_STATUS_CLASS0_TC p) _ hf, State.get_put_reg _ (g := XC_PORT_STATUS_CLASS0_VALID p) _ hf]
  · rw [State.get_put_reg _ (g := XC_PORT_STATUS_CLASS1_TC p) _ hf, State.get_put_reg _ (g := XC_PORT_STATUS_CLASS1_VALID p) _ hf]
  · rfl

theorem streamCoarse_apart (n : Nat) : (XC_STREAM_STATUS_STATE n).Apart (XC_STREAM_STATUS_COARSE n) :=
  .inr ⟨rfl, by simp [XC_STREAM_STATUS_STATE], by simp [XC_STREAM_STATUS_STATE, XC_STREAM_STATUS_COARSE]⟩

/-- The streams' registers and the ports' lie apart. -/
theorem streams_ne_xcStatus (n p : Nat) : (XC_STREAM_CFG n).addr ≠ (XC_PORT_STATUS p).addr ∧
    (XC_STREAM_STATUS n).addr ≠ (XC_PORT_STATUS p).addr := by
  simp only [XC_STREAM_CFG, XC_STREAM_STATUS, XC_PORT_STATUS]
  omega

/-- A stream that is uninstalled is IDLE, and its EN reads 0. -/
theorem xcUninstall_shows (n : Nat) (s : State) :
    (xcUninstall n s).on (XC_STREAM_CFG_EN n) = false ∧ (xcUninstall n s).get (XC_STREAM_STATUS_STATE n) = 0 := by
  have hreg : (XC_STREAM_CFG n).addr ≠ (XC_STREAM_STATUS n).addr := by
    simp only [XC_STREAM_CFG, XC_STREAM_STATUS]
    omega
  unfold xcUninstall
  dsimp only
  constructor
  · rw [State.on_false, xcDropClass_get_other (f := XC_STREAM_CFG_EN n) (streams_ne_xcStatus n _).1,
      State.get_put_reg _ (g := XC_STREAM_STATUS_COARSE n) _ hreg, State.get_put_reg _ (g := XC_STREAM_STATUS_STATE n) _ hreg]
    exact State.get_put_same s (XC_STREAM_CFG_EN n) 0 (Nat.le_of_ble_eq_true rfl)
  · rw [xcDropClass_get_other (f := XC_STREAM_STATUS_STATE n) (streams_ne_xcStatus n _).2,
      State.get_put_apart _ _ (streamCoarse_apart n)]
    exact State.get_put_same _ (XC_STREAM_STATUS_STATE n) 0 (Nat.le_of_ble_eq_true rfl)

/-- A stream that meets a forbidden combination is not installed: the combinations are recorded. -/
theorem xcInstall_refused {n : Nat} {s : State} (he : xcErrors s (s.get (XC_STREAM_CFG_TC n)) (s.get (XC_STREAM_CFG_INGRESS n))
      (s.get (XC_STREAM_CFG_EGRESS n)) ≠ []) :
    xcInstall n s = modeErrs ((xcErrors s (s.get (XC_STREAM_CFG_TC n)) (s.get (XC_STREAM_CFG_INGRESS n))
      (s.get (XC_STREAM_CFG_EGRESS n))).map (fun c => (c, 4, n))) s := by
  unfold xcInstall
  dsimp only
  split
  next h => exact absurd h he
  next => rfl

theorem xcInstall_refused_shows {n : Nat} {s : State} (he : xcErrors s (s.get (XC_STREAM_CFG_TC n)) (s.get (XC_STREAM_CFG_INGRESS n))
      (s.get (XC_STREAM_CFG_EGRESS n)) ≠ []) :
    (xcInstall n s).get (XC_STREAM_CFG_EN n) = s.get (XC_STREAM_CFG_EN n) ∧ (xcInstall n s).on GLB_MODE_ERR_VALID = true := by
  rw [xcInstall_refused he]
  refine ⟨modeErrs_get_other ?_, modeErrs_valid (by simpa using he)⟩
  simp only [XC_STREAM_CFG_EN, XC_STREAM_CFG, GLB_MODE_ERR]
  omega

/-- Settles O47: each row's write stands and its register acts, each command by the case its conditions name. -/
theorem poolAndStreamCommands : Obligations.PoolAndStreamCommands := by
  refine ⟨fun m v s hw h0 => poolCmd_stands (by decide) hw h0, fun m v s hw h0 => poolCmd_stands (by decide) hw h0,
    fun m v s hw h0 => poolCmd_stands (by decide) hw h0, fun m v s hw h0 => poolCmd_stands (by decide) hw h0, fun s h => ?_,
    fun k s hk hen hop h0 => ?_, fun k s hk hen hop hi hb => poolDouble_shows (poolCmd_doubleFree hk hen hi hop hb),
    fun k s hk hen hop hi => poolQuery_shows (poolCmd_query hk hen hi hop), fun s hs => ⟨_, timed_eq hs rfl, ageEpoch_epoch s⟩,
    fun m n v s hw hn => ?_, fun m n v s hw hn => ?_, fun n s => poolEnable_shows n s, fun m n v s hw => streamEn_stands hw,
    fun m n v s hw => streamEn_stands hw, fun n s => ?_⟩
  · rcases h with hoff | ⟨hop, hi⟩
    · exact poolDone_badArg (poolCmd_disabled rfl hoff)
    · exact poolDone_badArg (poolCmd_beyond rfl hop hi)
  · have hpool : k.val ≠ 0 := fun h => h0 (Fin.ext h)
    exact ⟨fun hfree => poolGranted_shows hpool hfree (poolCmd_granted hk hen hop hpool hfree),
      fun hfree => poolEmpty_shows (poolCmd_empty hk hen hop hpool hfree)⟩
  · obtain ⟨R, c, hst, hnow, hrun⟩ := poolEnable_stands hw
    rw [if_pos hn] at hrun
    exact ⟨R, c, hst, hnow hn, hrun⟩
  · obtain ⟨R, c, hst, -, hrun⟩ := poolEnable_stands hw
    rw [if_neg (Nat.not_le.2 hn)] at hrun
    exact ⟨R, c, hst, hrun⟩
  · obtain ⟨hoff, hidle⟩ := xcUninstall_shows n s
    exact ⟨hoff, hidle, fun he => xcInstall_refused_shows he⟩

end Sys2Proof.Machine
end

section
/-!
PROOFS. The spill DRAM: its enable and initialisation, pages written out, read back and retried (R413, R414, R417, R420, R446).
-/

namespace Sys2Proof.Machine

open Sys2Proof

/-! ### The enable (R413) -/

theorem regEffect_spillCfg {R : RegWrite} (c : State) (hid : R.id = .QM_SPILL_CFG) :
    regEffect R c = if R.changes [QM_SPILL_CFG_EN] then spillEnabled (R.now QM_SPILL_CFG_EN != 0) c else c := by
  unfold regEffect
  rw [hid]

/-- The row of the spill DRAM's enable: the write stands, and initialisation starts where EN read 0. -/
theorem spillEnable_stands {m : BusMaster} {v : Word} {s : State} (hw : Writable m QM_SPILL_CFG (withField QM_SPILL_CFG_EN 1 v) s) :
    ∃ R c, Stands m .QM_SPILL_CFG 0 0 QM_SPILL_CFG.one (withField QM_SPILL_CFG_EN 1 v).toNat s R c ∧ R.now QM_SPILL_CFG_EN = 1 ∧
      run (busSet m QM_SPILL_CFG_EN 1 v) s =
        .next (settle s (if s.get QM_SPILL_CFG_EN ≠ 1 then spillEnabled true c else c)) := by
  obtain ⟨R, c, hst, hnow, hrun⟩ := Writable.stands_field (f := QM_SPILL_CFG_EN) (id := .QM_SPILL_CFG) (i := 0) (j := 0) hw
    (by decide +kernel) (by decide +kernel) rfl (by decide) (by decide) (by decide)
  obtain ⟨-, hid, -, -, -⟩ := hst.who
  have hwas : R.was QM_SPILL_CFG_EN = s.get QM_SPILL_CFG_EN := hst.was_eq (f := QM_SPILL_CFG_EN)
  have heffect : regEffect R c = if s.get QM_SPILL_CFG_EN ≠ 1 then spillEnabled true c else c := by
    rw [regEffect_spillCfg c hid, hnow]
    simp [RegWrite.changes, hwas, hnow]
  exact ⟨R, c, hst, hnow, by rw [← heffect]; exact hrun⟩

theorem spillEnabled_shows (s : State) : (spillEnabled true s).get QM_SPILL_STATUS_STATE = 1 ∧
    (spillEnabled true s).get QM_SPILL_STATUS_CAUSE = 0 :=
  ⟨State.get_put_same _ QM_SPILL_STATUS_STATE 1 (by decide),
    (State.get_put_apart _ 1 (.inr (by decide))).trans (State.get_put_same s QM_SPILL_STATUS_CAUSE 0 (by decide))⟩

/-! ### Initialisation (R413) -/

/-- Pool 1 set to a size has every page of it free, and only the pools' registers differ. -/
theorem pool1Set_shows (pages : Nat) (s : State) : (pool1Set pages s).get (POOL_FREE_V 1) = (pool1Set pages s).get (POOL_SIZE_V 1) ∧
    ∀ f : Fld, f.reg.addr < 0x01800000 → (pool1Set pages s).get f = s.get f := by
  have hregs : (forEach (allocated s 1) (fun i t => t.setBuf 1 i {}) s).regs = s.regs :=
    forEach_keeps (P := fun t => t.regs = s.regs) s rfl fun _ _ ht => ht
  unfold pool1Set
  dsimp only
  refine ⟨?_, fun f hf => ?_⟩
  · rw [State.get_put_reg _ _ (by decide), State.get_put_same _ _ _ (by decide), State.get_put_reg _ _ (by decide),
      State.get_put_reg _ _ (by decide), State.get_put_same _ _ _ (by decide)]
    rfl
  · have hother : ∀ g : Fld, 0x01800000 ≤ g.reg.addr → f.reg.addr ≠ g.reg.addr := fun g hg => by omega
    rw [State.get_put_reg _ _ (hother _ (by decide)), State.get_put_reg _ _ (hother _ (by decide)),
      State.get_put_reg _ _ (hother _ (by decide)), State.putB_eq, State.get_put_reg _ _ (hother _ (by decide)), State.get_of_regs hregs]

theorem spillServing_lt (s : State) : spillServing s < 8 := by
  unfold spillServing
  split_ifs <;> decide

/-- Initialisation that succeeds leaves the state of the supply stage, and every page free. -/
theorem spillInitDone_shows {s : State} (h : s.get QM_SPILL_STATUS_STATE = 1) :
    (spillInitDone s).get QM_SPILL_STATUS_STATE = spillServing s ∧
      (spillInitDone s).get (POOL_FREE_V 1) = (spillInitDone s).get (POOL_SIZE_V 1) := by
  have hdone : spillInitDone s =
      pool1Set (spillPages (s.get QM_SPILL_CFG_SIZE)) (s.put QM_SPILL_STATUS_STATE (spillServing s)) := if_pos h
  rw [hdone]
  obtain ⟨hfree, hkept⟩ := pool1Set_shows (spillPages (s.get QM_SPILL_CFG_SIZE)) (s.put QM_SPILL_STATUS_STATE (spillServing s))
  exact ⟨(hkept _ (by decide)).trans (State.get_put_fits s (by decide) (spillServing_lt s)), hfree⟩

/-! ### Pages written out (R414) -/

section
variable {q : Nat} {s : State}

theorem queuePut_queueRec (r : QRec) : (queuePut q r s).queueRec q = r := State.setQueue_queueRec s q r

theorem spillWrite_unchanged (h : queueMode s q = 0 ∨ s.stage ≠ 0 ∨ spillReady s = false ∨ (s.queueRec q).staging.length < 16) :
    spillWrite q s = s := by
  refine if_pos ?_
  rcases h with h | h | h | h <;> simp [h]

/-- The oldest 16 cells of the staging segment are one page more. -/
theorem spillWrite_writes (hmode : queueMode s q ≠ 0) (hstage : s.stage = 0) (hready : spillReady s = true)
    (hcells : 16 ≤ (s.queueRec q).staging.length) (hfree : 0 < s.get (POOL_FREE_V 1)) (hen : s.on (POOL_CFG_EN 1) = true) :
    (spillWrite q s).queueRec q = { s.queueRec q with
      staging := (s.queueRec q).staging.drop 16
      pages := (s.queueRec q).pages ++ [⟨firstGap (allocated s 1) 0, (s.queueRec q).staging.take 16⟩] } := by
  unfold spillWrite
  dsimp only
  rw [if_neg (by simp [hmode, hstage, hready]; omega), poolAlloc_taken clsSpill hfree hen]
  exact (QueuesKept.queueRec (.pmcEvent (.freeCellsQ (.refl _) _ _) _ _ _) q).trans (queuePut_queueRec _)

/-! ### Pages read (R417, R438) -/

theorem refillRead_unchanged (h : refillDue s q = false) : refillRead q s = s := if_pos (by simp [h])

/-- The cells of the page that is read next. -/
def nextPageCells (s : State) (q : Nat) : Nat :=
  ((s.queueRec q).pages.getD (s.queueRec q).reads ⟨0, []⟩).cells.length

/-- Without cells in reserve for it a read is counted. -/
theorem refillRead_refused (hdue : refillDue s q = true) (hfew : s.get (POOL_FREE_V 0) < s.get QM_RESERVE_V + nextPageCells s q) :
    (refillRead q s).get QM_CNT0_REFILL_NOBUF = (s.get QM_CNT0_REFILL_NOBUF + 1) % 2 ^ QM_CNT0_REFILL_NOBUF.width ∧
      (refillRead q s).on POOL_EVENT_EMPTY = true ∧ (refillRead q s).queues = s.queues := by
  have hread : refillRead q s = poolEmpty 0 (s.count QM_CNT0_REFILL_NOBUF) := (if_neg (by simp [hdue])).trans (if_pos hfew)
  rw [hread]
  refine ⟨?_, State.on_ev_same _ (by decide) (by decide), rfl⟩
  unfold poolEmpty
  rw [State.ev_eq, State.get_put_reg _ _ (by decide), State.count_eq, State.get_put_reg _ _ (by decide)]
  exact State.get_count_same s _ 1 (by decide)

theorem QueuesKept.refillTake {t : State} (h : QueuesKept s t) (n : Nat) : QueuesKept s (refillTake n t).2 := by
  induction n generalizing t with
  | zero => exact h
  | succ n ih =>
    have hone := h.poolAlloc (pool := 0) (cls := clsRefill) (floor := t.get QM_RESERVE_V)
    unfold Machine.refillTake
    split
    next b u hu =>
      rw [hu] at hone
      exact ih hone
    next u hu =>
      rw [hu] at hone
      exact hone

/-- With cells in reserve one read more is under way, and the pages stay. -/
theorem refillRead_starts (hdue : refillDue s q = true) (hroom : s.get QM_RESERVE_V + nextPageCells s q ≤ s.get (POOL_FREE_V 0)) :
    (refillRead q s).queueRec q = { s.queueRec q with
      reads := (s.queueRec q).reads + 1
      taken := (s.queueRec q).taken ++ [(refillTake (nextPageCells s q) s).1]
      refilling := true } := by
  have htake := (QueuesKept.refl s).refillTake (nextPageCells s q)
  have hread : refillRead q s = pmcEvent 0x033 .plain 1 ((refillTake (nextPageCells s q) s).2.setQueue q
      { (refillTake (nextPageCells s q) s).2.queueRec q with
        reads := (s.queueRec q).reads + 1
        taken := (s.queueRec q).taken ++ [(refillTake (nextPageCells s q) s).1]
        refilling := true }) := (if_neg (by simp [hdue])).trans (if_neg (Nat.not_lt.2 hroom))
  rw [hread, ((QueuesKept.refl _).pmcEvent _ _ _).queueRec q, State.setQueue_queueRec, htake.queueRec q]

theorem refillDone_idle {x : PageCheck} (h : (s.queueRec q).reads = 0) : refillDone q x s = s := if_pos h

/-- A page in which no codeword was bad joins the queue. -/
theorem refillDone_joins (h : (s.queueRec q).reads ≠ 0) (hp : (s.queueRec q).pages ≠ []) :
    refillDone q ⟨[]⟩ s = pageJoin q (readGood q s) := by
  unfold refillDone
  dsimp only
  rw [if_neg h]
  split
  next hnone => exact absurd hnone hp
  next => rfl

/-! ### Reads that are not complete in time (R420) -/

theorem readRetry_unchanged (h : (s.queueRec q).reads = 0 ∨ (spillReady s = false ∧ s.get QM_SPILL_STATUS_STATE ≠ 3)) :
    readRetry q s = s := by
  refine if_pos ?_
  rcases h with h | ⟨hr, h3⟩
  · exact .inl h
  · exact .inr (by simp [hr, h3])

section
variable (hreads : (s.queueRec q).reads ≠ 0) (hready : spillReady s = true)
include hreads hready

/-- The first two on a channel are counted, to be retried. -/
theorem readRetry_counts (hfew : smGet 0 s.qm.timeouts (pageChannel s q) < 2) :
    smGet 0 (readRetry q s).qm.timeouts (pageChannel s q) = smGet 0 s.qm.timeouts (pageChannel s q) + 1 ∧
      (readRetry q s).get QM_CNT0_READ_RETRY = (s.get QM_CNT0_READ_RETRY + 1) % 2 ^ QM_CNT0_READ_RETRY.width := by
  have hretry : readRetry q s = { s.count QM_CNT0_READ_RETRY with qm := { s.qm with
      timeouts := smSet 0 s.qm.timeouts (pageChannel s q) (smGet 0 s.qm.timeouts (pageChannel s q) + 1) } } :=
    (if_neg (by simp [hreads, hready])).trans (if_pos (by omega))
  rw [hretry]
  exact ⟨smGet_set_same 0 s.qm.timeouts (pageChannel s q) (smGet 0 s.qm.timeouts (pageChannel s q) + 1),
    State.get_count_same s QM_CNT0_READ_RETRY 1 (by decide)⟩

/-- The third in a row fails the spill DRAM. -/
theorem readRetry_fails (hmany : 2 ≤ smGet 0 s.qm.timeouts (pageChannel s q)) :
    readRetry q s = spillFail 2 { s with qm := { s.qm with timeouts := [] } } :=
  (if_neg (by simp [hreads, hready])).trans (if_neg (by omega))

end

end

end Sys2Proof.Machine
end

section
/-!
PROOFS. Gates, stuck queues, residence and resumption (R425, R429, R432 to R434); and the settling of the statement on the spill DRAM and
the queues.
-/

namespace Sys2Proof.Machine

open Sys2Proof

section
variable {p q : Nat} {s : State}

theorem gateEvent_idle (h : gatesRun s p = false) : gateEvent p s = s := if_pos (by simp [h])

/-- At a boundary the credits are brought up to it, and the gates follow; no word of the list is bad. -/
theorem gateEvent_follows (h : gatesRun s p = true) (hflips : s.ecc.flips = []) :
    gateEvent p s = gateRefresh p (creditSyncPort p s) := by
  unfold gateEvent
  rw [if_neg (by simp [h]), eccLook_clean hflips]

theorem queueStuckTimeout_idle (h : stuckRuns s q = false) : queueStuckTimeout q s = s := if_neg (by simp [h])

theorem queueStuckTimeout_flushes (h : stuckRuns s q = true) : queueStuckTimeout q s = stuckFlush q s := if_pos h

/-- Where no queue holds a copy the sweep finds nothing. -/
theorem residenceSweep_empty (h : ∀ e ∈ s.queues, e.2.copies = []) : residenceSweep s = s := by
  have hnone : s.queues.filter (fun e => !e.2.copies.isEmpty) = [] := List.filter_eq_nil_iff.2 fun e he => by simp [h e he]
  unfold residenceSweep busyQueues
  rw [hnone]
  rfl

end

/-! ### Resumption (R434) -/

theorem namesOneWord_queueStatus (q : Fin 528) : namesOneWord (QM_Q_STATUS q) .QM_Q_STATUS q 0 = true := by
  revert q
  decide +kernel

theorem clears_queueSuspended (q : Fin 528) : (QM_Q_STATUS_SUSPENDED q).clears = true := by
  revert q
  decide +kernel

theorem holds_queueMode (q : Fin 528) : (QM_Q_STATUS_MODE q).holds = true := by
  revert q
  decide +kernel

/-- The row that writes 1 to SUSPENDED: the write stands, which clears it, leaves the mode, and does nothing else. -/
theorem queueResume_stands {m : BusMaster} {q : Nat} {v : Word} {s : State} (hq : q < 528)
    (hw : Writable m (QM_Q_STATUS q) (withField (QM_Q_STATUS_SUSPENDED q) 1 v) s) : ∃ R c,
    Stands m .QM_Q_STATUS q 0 (QM_Q_STATUS q).one (withField (QM_Q_STATUS_SUSPENDED q) 1 v).toNat s R c ∧
      c.on (QM_Q_STATUS_SUSPENDED q) = false ∧ c.get (QM_Q_STATUS_MODE q) = s.get (QM_Q_STATUS_MODE q) ∧
      run (busSet m (QM_Q_STATUS_SUSPENDED q) 1 v) s = .next (settle s c) := by
  obtain ⟨R, c, hst, hleaves, hrun⟩ := hw.stands_leaves (namesOneWord_queueStatus ⟨q, hq⟩) (by simp only [QM_Q_STATUS]; omega) (by decide)
  obtain ⟨-, hid, -, -, -⟩ := hst.who
  have hone : (withField (QM_Q_STATUS_SUSPENDED q) 1 v).getLsbD 2 = true :=
    (getLsbD_insertBits v 2 1 1 2 (by decide)).trans (if_pos (by decide))
  have hcleared : R.now (QM_Q_STATUS_SUSPENDED q) = 0 :=
    (hleaves (QM_Q_STATUS_SUSPENDED q) rfl (Nat.le_of_ble_eq_true rfl)).1 (clears_queueSuspended ⟨q, hq⟩) fun k hk => by
      obtain rfl : k = 0 := Nat.lt_one_iff.1 hk
      exact hone
  have hheld : R.now (QM_Q_STATUS_MODE q) = R.was (QM_Q_STATUS_MODE q) :=
    (hleaves (QM_Q_STATUS_MODE q) rfl (Nat.le_of_ble_eq_true rfl)).2 (holds_queueMode ⟨q, hq⟩)
  have heffect : regEffect R c = c := by
    unfold regEffect
    rw [hid]
  refine ⟨R, c, hst, ?_, ?_, ?_⟩
  · rw [State.on_false, Stands.get_now (f := QM_Q_STATUS_SUSPENDED q) hst (Nat.le_of_ble_eq_true rfl), hcleared]
  · rw [Stands.get_now (f := QM_Q_STATUS_MODE q) hst (Nat.le_of_ble_eq_true rfl), hheld]
    exact hst.was_eq (f := QM_Q_STATUS_MODE q)
  · rw [heffect] at hrun
    exact hrun

/-- Settles O46: each row is the engine's own step, by the case its conditions name; the writes stand. -/
theorem spillAndQueueCommands : Obligations.SpillAndQueueCommands := by
  refine ⟨fun m v s hw h0 => ?_, fun m v s hw h1 => ?_, spillEnabled_shows, fun s hs h1 => ⟨_, timed_eq hs rfl, spillInitDone_shows h1⟩,
    fun s hs h1 => timed_eq hs (if_pos h1), fun s hs h1 => ⟨timed_eq hs (if_neg h1), timed_eq hs (if_neg h1)⟩,
    fun p t s hs h => timed_eq hs (spillWrite_unchanged h), fun p t s hs hmode hstage hready hcells hfree hen => ?_,
    fun p t s hs h => timed_eq hs (refillRead_unchanged h), fun p t k s hs hdue hk hfew => ?_, fun p t k s hs hdue hk hroom => ?_,
    fun p t x s hs h => timed_eq hs (refillDone_idle h), fun p t s hs h hp => timed_eq hs (refillDone_joins h hp),
    fun p t s hs h => timed_eq hs (readRetry_unchanged h),
    fun p t s hs hreads hready hfew => ⟨_, timed_eq hs rfl, readRetry_counts hreads hready hfew⟩,
    fun p t s hs hreads hready hmany => timed_eq hs (readRetry_fails hreads hready hmany), fun p s hs h => timed_eq hs (gateEvent_idle h),
    fun p s hs h hflips => timed_eq hs (gateEvent_follows h hflips), fun p t s hs h => timed_eq hs (queueStuckTimeout_idle h),
    fun p t s hs h => timed_eq hs (queueStuckTimeout_flushes h), fun s hs h => timed_eq hs (residenceSweep_empty h),
    fun s hs => timed_eq hs rfl, fun m p t v s hw => queueResume_stands (by omega) hw⟩
  · obtain ⟨R, c, hst, hnow, hrun⟩ := spillEnable_stands hw
    rw [if_pos (by rw [State.on_false.1 h0]; decide)] at hrun
    exact ⟨R, c, hst, hnow, hrun⟩
  · obtain ⟨R, c, hst, -, hrun⟩ := spillEnable_stands hw
    have hen := State.on_true.1 h1
    have hlt : s.get QM_SPILL_CFG_EN < 2 := State.get_lt s QM_SPILL_CFG_EN
    rw [if_neg (by omega)] at hrun
    exact ⟨R, c, hst, hrun⟩
  · have hrec := spillWrite_writes hmode hstage hready hcells hfree hen
    refine ⟨_, timed_eq hs rfl, ?_, ?_, ?_⟩
    · rw [hrec]
    · rw [hrec, List.length_append]
      rfl
    · rw [hrec]
  · subst hk
    exact ⟨_, timed_eq hs rfl, refillRead_refused hdue hfew⟩
  · subst hk
    have hrec := refillRead_starts hdue hroom
    refine ⟨_, timed_eq hs rfl, ?_, ?_, ?_⟩
    · rw [hrec]
    · rw [hrec]
    · rw [hrec]

end Sys2Proof.Machine
end

section
/-!
PROOFS. The TIU's shared operations: the end of a run, the next measurement, results and statistics, and what each leaves in the registers
(R491, R494, R498 to R504, R510 to R515).
-/

namespace Sys2Proof.Machine

open Sys2Proof

theorem State.putWide_tiu (s : State) (w : Wide) (v : Nat) : (s.putWide w v).tiu = s.tiu := by
  unfold State.putWide
  rw [State.putWideFrom_eq]

/-! ### The selected base (R491, R494) -/

/-- The fields by which the selected base is locked. -/
def tiuLockFlds : List Fld := [TIU_CFG_BASE, SYN_STATUS_LOCKED, SYN_STATUS_GATED, TIU_STATUS_REF_PRESENT]

theorem tiuLocked_congr {s t : State} (h : ∀ f ∈ tiuLockFlds, t.get f = s.get f) (hm : t.tiu.multLocked = s.tiu.multLocked) :
    tiuLocked t = tiuLocked s := by
  simp only [tiuLockFlds, List.forall_mem_cons] at h
  obtain ⟨hbase, hlocked, hgated, href, -⟩ := h
  unfold tiuLocked State.gated State.on
  rw [hbase, hlocked, hgated, href, hm]

theorem tiuLocked_put (s : State) {g : Fld} (v : Nat) (h : ∀ f ∈ tiuLockFlds, f.Apart g) : tiuLocked (s.put g v) = tiuLocked s :=
  tiuLocked_congr (fun f hf => State.get_put_apart s v (h f hf)) rfl

section
variable {s : State}

theorem tiuBaseBit_get {f : Fld} (h : f.Apart TIU_STATUS_BASE_LOCKED) : (tiuBaseBit s).get f = s.get f := State.get_put_apart s _ h

theorem tiuLocked_tiuBaseBit : tiuLocked (tiuBaseBit s) = tiuLocked s := tiuLocked_put s _ (by unfold Fld.Apart; decide)

/-- BASE_LOCKED reads whether the base is locked. -/
theorem tiuBaseBit_shows : (tiuBaseBit s).on TIU_STATUS_BASE_LOCKED = tiuLocked s := by
  unfold tiuBaseBit
  rw [State.putB_eq, State.on_put_same s (by decide) (by split <;> decide)]
  cases tiuLocked s <;> rfl

theorem tiuState_tiuBaseBit : tiuState (tiuBaseBit s) = tiuState s := tiuBaseBit_get (.inr (by decide))

end

/-! ### The next measurement (R494, R495) -/

section
variable {s : State}

theorem tiuNext_get {f : Fld} (h : f.Apart TIU_STATUS_STATE) : (tiuNext s).get f = s.get f := State.get_put_apart _ _ h

theorem tiuNext_wide {w : Wide} (h : w.addr + 4 * w.words ≤ TIU_STATUS.addr ∨ TIU_STATUS.addr < w.addr) :
    (tiuNext s).wide w = s.wide w := (State.wide_put_other _ _ h).trans (State.wide_congr (by rfl) w)

theorem tiuNext_state : tiuState (tiuNext s) = if tiuLocked s then 2 else 1 := State.get_put_fits _ (by decide) (by split <;> decide)

end

/-! ### The end of a run (R500, R503, R510) -/

/-- The run is over, with its end in RUN_END. -/
def tiuStopped (code : Nat) (s : State) : State := ((tiuSet 0 s).put TIU_CTRL_ARM 0).put TIU_STATUS_RUN_END code

/-- The fields that the end of a run writes. -/
def tiuEndFlds : List Fld := [TIU_STATUS_STATE, TIU_CTRL_ARM, TIU_STATUS_RUN_END, TIU_EVENT_RUN_DONE, TIU_EVENT_NO_REF]

section
variable {s : State} {code : Nat}

theorem tiuStopped_shows (hc : code < 8) : tiuState (tiuStopped code s) = 0 ∧ (tiuStopped code s).get TIU_STATUS_RUN_END = code ∧
    (tiuStopped code s).on TIU_CTRL_ARM = false := by
  unfold tiuStopped
  refine ⟨?_, State.get_put_fits _ (by decide) hc, ?_⟩
  · unfold tiuState
    rw [State.get_put_away _ _ (by decide), State.get_put_reg _ _ (by decide)]
    exact State.get_put_same s _ 0 (by decide)
  · rw [State.on_false, State.get_put_reg _ _ (by decide), State.get_put_same _ _ _ (by decide)]
    rfl

theorem tiuStopped_get {f : Fld} (h : ∀ g ∈ tiuEndFlds, f.Apart g) : (tiuStopped code s).get f = s.get f := by
  unfold tiuStopped tiuSet
  rw [State.get_put_apart _ _ (h _ (by decide)), State.get_put_apart _ _ (h _ (by decide)), State.get_put_apart _ _ (h _ (by decide))]

/-- The registers that the end of a run leaves: RUN_DONE is set, and by a missing reference NO_REF. -/
theorem tiuEnd_regs : (tiuEnd code s).regs =
    (if code = 4 then ((tiuStopped code s).ev TIU_EVENT_RUN_DONE).ev TIU_EVENT_NO_REF
      else (tiuStopped code s).ev TIU_EVENT_RUN_DONE).regs := by
  change State.regs (if code = 4 then _ else _) = _
  by_cases h : code = 4
  · rw [if_pos h, if_pos h]
    rfl
  · rw [if_neg h, if_neg h]
    rfl

/-- Beside the TIU's events they are those of the run that is over. -/
theorem tiuEnd_get {f : Fld} (h : f.reg.addr ≠ TIU_EVENT.addr) : (tiuEnd code s).get f = (tiuStopped code s).get f := by
  rw [State.get_of_regs tiuEnd_regs]
  split
  · rw [State.ev_eq, State.get_put_reg _ _ h, State.ev_eq, State.get_put_reg _ _ h]
  · rw [State.ev_eq, State.get_put_reg _ _ h]

theorem tiuEnd_shows (hc : code < 8) : tiuState (tiuEnd code s) = 0 ∧ (tiuEnd code s).get TIU_STATUS_RUN_END = code ∧
    (tiuEnd code s).on TIU_CTRL_ARM = false := by
  obtain ⟨hstate, hend, harm⟩ := tiuStopped_shows (s := s) hc
  refine ⟨(tiuEnd_get (by decide)).trans hstate, (tiuEnd_get (by decide)).trans hend, ?_⟩
  rw [State.on_false] at harm ⊢
  exact (tiuEnd_get (by decide)).trans harm

theorem tiuEnd_other {f : Fld} (h : ∀ g ∈ tiuEndFlds, f.Apart g) : (tiuEnd code s).get f = s.get f := by
  rw [State.get_of_regs tiuEnd_regs]
  split
  · rw [State.ev_eq, State.get_put_apart _ _ (h _ (by decide)), State.ev_eq, State.get_put_apart _ _ (h _ (by decide)), tiuStopped_get h]
  · rw [State.ev_eq, State.get_put_apart _ _ (h _ (by decide)), tiuStopped_get h]

theorem tiuEnd_runDone : (tiuEnd code s).on TIU_EVENT_RUN_DONE = true := by
  rw [State.on_of_regs tiuEnd_regs]
  split
  · rw [State.on_true, State.ev_eq, State.get_put_away _ _ (by decide)]
    exact State.on_true.1 (State.on_ev_same _ (by decide) (by decide))
  · exact State.on_ev_same _ (by decide) (by decide)

theorem tiuEnd_noRef : (tiuEnd 4 s).on TIU_EVENT_NO_REF = true := by
  rw [State.on_of_regs tiuEnd_regs]
  exact State.on_ev_same _ (by decide) (by decide)

end

/-! ### A measurement is complete (R500) -/

section
variable {s : State}

theorem tiuDone_other {f : Fld} (h : ∀ g ∈ TIU_STATUS_MEAS :: tiuEndFlds, f.Apart g) : (tiuDone s).get f = s.get f := by
  obtain ⟨hmeas, hend⟩ := List.forall_mem_cons.1 h
  unfold tiuDone
  dsimp only
  split
  · rw [tiuEnd_other hend, State.get_put_apart s _ hmeas]
  · rw [tiuNext_get (hend _ (by decide)), State.get_put_apart s _ hmeas]

/-- It counts, whether the run ends by it or goes on. -/
theorem tiuDone_counts : (tiuDone s).get TIU_STATUS_MEAS = (s.get TIU_STATUS_MEAS + 1) % 2 ^ TIU_STATUS_MEAS.width := by
  unfold tiuDone
  dsimp only
  split
  · rw [tiuEnd_other (by unfold Fld.Apart; decide), State.get_put_same s _ _ (by decide)]
  · rw [tiuNext_get (.inr (by decide)), State.get_put_same s _ _ (by decide)]

theorem tiuDone_seq : (tiuDone s).tiu.seq = s.tiu.seq := by
  unfold tiuDone tiuEnd
  dsimp only
  split
  · rfl
  · rfl

end

/-! ### Results (R498, R499, R501, R502, R513 to R515) -/

/-- The next number is taken, and the result goes to TIU_LAST. -/
def tiuNumbered (x : Nat) (s : State) : State :=
  State.putWide { s with tiu := { s.tiu with seq := (s.tiu.seq + 1) % 65536, startInvalid := false } } TIU_LAST x

/-- It goes to the FIFO. -/
def tiuQueued (e : Nat × Nat) (s : State) : State :=
  State.put { s with tiu := { s.tiu with fifo := s.tiu.fifo ++ [e] } } TIU_FIFO_LEVEL_LEVEL (s.tiu.fifo ++ [e]).length

section
variable {s : State} {value bits start : Nat}

/-- A result is numbered and lost to a full FIFO, or numbered and queued. -/
theorem tiuRecord_cases : ∃ x e, tiuRecord value bits start s = ((tiuNumbered x s).countSat TIU_FIFO_LEVEL_OVF).ev TIU_EVENT_FIFO_OVF ∨
    tiuRecord value bits start s = tiuQueued e (tiuNumbered x s) := ⟨_, _, ite_eq_or_eq _ _ _⟩

/-- Beside the events, TIU_LAST and the FIFO's level every field keeps its value. -/
theorem tiuRecord_get {f : Fld} (h : f.reg.addr < 0x0200001C ∨ 0x02000038 ≤ f.reg.addr ∧ f.reg.addr < 0x02000090) :
    (tiuRecord value bits start s).get f = s.get f := by
  have hfifo : f.reg.addr ≠ TIU_FIFO_LEVEL.addr := by simp only [TIU_FIFO_LEVEL]; omega
  have hevent : f.reg.addr ≠ TIU_EVENT.addr := by simp only [TIU_EVENT]; omega
  have hlast : ∀ x, (tiuNumbered x s).get f = s.get f := fun x =>
    State.get_putWide_other _ TIU_LAST x (by simp only [TIU_LAST]; omega)
  obtain ⟨x, e, hr | hr⟩ := tiuRecord_cases (s := s) (value := value) (bits := bits) (start := start)
  · rw [hr, State.ev_eq, State.get_put_reg _ _ hevent, State.countSat_eq, State.get_put_reg _ _ hfifo, hlast]
  · rw [hr]
    exact (State.get_put_reg _ _ hfifo).trans (hlast x)

/-- Each result has the next number. -/
theorem tiuRecord_seq : (tiuRecord value bits start s).tiu.seq = (s.tiu.seq + 1) % 65536 := by
  have hnumbered : ∀ x, (tiuNumbered x s).tiu.seq = (s.tiu.seq + 1) % 65536 := fun x => congrArg TiuRec.seq (State.putWide_tiu _ TIU_LAST x)
  obtain ⟨x, e, hr | hr⟩ := tiuRecord_cases (s := s) (value := value) (bits := bits) (start := start)
  · rw [hr]
    exact hnumbered x
  · rw [hr]
    exact hnumbered x

theorem tiuStartTime_regs : (tiuStartTime s).2.regs = s.regs := by
  unfold tiuStartTime
  split
  · rfl
  · rfl

theorem tiuVoid_get {f : Fld} (h : f.reg.addr < 0x0200001C ∨ 0x02000038 ≤ f.reg.addr ∧ f.reg.addr < 0x02000090) :
    (tiuVoid bits s).get f = s.get f := (tiuRecord_get h).trans (State.get_of_regs tiuStartTime_regs f)

/-- Of a valid result the statistics' registers alone know, and COUNT counts it. -/
theorem tiuStat_words (x : Int) : WordsKept 0x02000040 0x02000068 s (tiuStat x s) := by
  have hstart : WordsKept 0x02000040 0x02000068 s
      { s with tiu := { s.tiu with sum := s.tiu.sum + x, sum2 := s.tiu.sum2 + (x * x).toNat } } := (WordsKept.refl _ _ s).of_regs rfl
  have hkeep : ∀ {c : Prop} [Decidable c] {t : State} {w : Wide} {v : Int}, WordsKept 0x02000040 0x02000068 s t → 0x02000040 ≤ w.addr →
      w.addr + 4 * w.words ≤ 0x02000068 → WordsKept 0x02000040 0x02000068 s (if c then t.putWidei w v else t) := by
    intro c _ t w v ht hl hh
    split
    · exact ht.putWide hl hh
    · exact ht
  exact ((((hkeep (hkeep hstart (by decide) (by decide)) (by decide) (by decide)).putWide (by decide) (by decide)).putWide
    (by decide) (by decide)).put (by decide) (by decide))

theorem tiuStat_counts (x : Int) : (tiuStat x s).get TIU_STAT_COUNT = (s.get TIU_STAT_COUNT + 1) % 2 ^ 16 :=
  State.get_put_same _ TIU_STAT_COUNT _ (by decide)

theorem tiuAccept_shows (v : Int × Int) : (tiuAccept v s).get TIU_STAT_COUNT = (s.get TIU_STAT_COUNT + 1) % 2 ^ 16 ∧
    (tiuAccept v s).get TIU_STATUS_MEAS = (s.get TIU_STATUS_MEAS + 1) % 2 ^ TIU_STATUS_MEAS.width := by
  unfold tiuAccept
  constructor
  · rw [tiuDone_other (by unfold Fld.Apart; decide), tiuStat_counts, tiuRecord_get (by decide)]
  · rw [tiuDone_counts, (tiuStat_words _).get (.inl (by decide)), tiuRecord_get (by decide)]

theorem tiuNoStop_shows : (tiuNoStop s).get TIU_STAT_NO_STOP = (s.get TIU_STAT_NO_STOP + 1) % 2 ^ 16 ∧
    (tiuNoStop s).get TIU_STATUS_MEAS = (s.get TIU_STATUS_MEAS + 1) % 2 ^ TIU_STATUS_MEAS.width := by
  unfold tiuNoStop
  constructor
  · rw [tiuDone_other (by unfold Fld.Apart; decide), State.get_count_same _ _ _ (by decide), tiuRecord_get (by decide)]
    rfl
  · rw [tiuDone_counts, State.count_eq, State.get_put_reg _ _ (by decide), tiuRecord_get (by decide)]

theorem tiuNoStop_seq : (tiuNoStop s).tiu.seq = (s.tiu.seq + 1) % 65536 := tiuDone_seq.trans tiuRecord_seq

end

/-! ### The cycle of the DISARM (R504) -/

/-- No run was ended by DISARM in this cycle. -/
def State.noDisarm (s : State) : Prop := ∀ w, s.tiu.was = some w → w.at_ ≠ s.now

/-- The measurement as it stood when DISARM ended its run. -/
def tiuBack (w : TiuWas) (s : State) : State :=
  tiuSet w.st { s with tiu := { s.tiu with start := w.start, held := w.held, startInvalid := w.startInvalid } }

/-- The run that DISARM ended stays DISARMED after its last result. -/
def tiuClosed (t : State) : State :=
  tiuStopped 5 { t with tiu := { t.tiu with start := none, held := none, was := none, doneAt := none } }

section
variable {s : State} {f : State → State}

theorem tiuLast_eq (h : s.noDisarm) : tiuLast f s = f s := by
  unfold tiuLast
  split
  next w hw => exact if_neg (h w hw)
  next => rfl

theorem tiuLast_closes {w : TiuWas} (hw : s.tiu.was = some w) (hat : w.at_ = s.now) (hseq : (f (tiuBack w s)).tiu.seq ≠ s.tiu.seq) :
    tiuLast f s = tiuClosed (f (tiuBack w s)) := by
  unfold tiuLast
  rw [hw]
  dsimp only
  rw [if_pos hat]
  exact if_neg hseq

end

end Sys2Proof.Machine
end

section
/-!
PROOFS. The TIU's arming and DISARM: the rows that write TIU_CTRL, and what a run armed or refused leaves (R493, R495, R503).
-/

namespace Sys2Proof.Machine

open Sys2Proof

/-! ### The rows that write TIU_CTRL -/

theorem regEffect_tiuCtrl {R : RegWrite} (c : State) (hid : R.id = .TIU_CTRL) : regEffect R c =
    if R.field R.v TIU_CTRL_DISARM ≠ 0 then tiuDisarm c else if R.field R.v TIU_CTRL_ARM ≠ 0 then tiuArmWrite c else c := by
  unfold regEffect
  rw [hid]

theorem tiuArm_stands {m : BusMaster} {v : Word} {s : State}
    (hw : Writable m TIU_CTRL (withField TIU_CTRL_DISARM 0 (withField TIU_CTRL_ARM 1 v)) s) : ∃ R c,
    Stands m .TIU_CTRL 0 0 TIU_CTRL.one (withField TIU_CTRL_DISARM 0 (withField TIU_CTRL_ARM 1 v)).toNat s R c ∧
      run (busSet2 m TIU_CTRL_ARM 1 TIU_CTRL_DISARM 0 v) s = .next (settle s (tiuArmWrite c)) := by
  obtain ⟨R, c, hst, hsees, hrun⟩ := hw.stands_sees (id := .TIU_CTRL) (i := 0) (j := 0) (by decide +kernel) (by decide) (by decide)
  obtain ⟨-, hid, -, -, -⟩ := hst.who
  have hdisarm : R.field R.v TIU_CTRL_DISARM = 0 := by
    rw [(hsees TIU_CTRL_DISARM rfl (by decide)).1 (by decide +kernel), extract_withField (by decide)]
    rfl
  have harm : R.field R.v TIU_CTRL_ARM ≠ 0 := by
    rw [(hsees TIU_CTRL_ARM rfl (by decide)).1 (by decide +kernel)]
    unfold withField
    rw [extract_insert_other _ _ (by decide) (by decide), extract_insert_same _ _ (by decide)]
    decide
  rw [regEffect_tiuCtrl c hid, if_neg (not_not.2 hdisarm), if_pos harm] at hrun
  exact ⟨R, c, hst, hrun⟩

theorem tiuDisarm_stands {m : BusMaster} {v : Word} {s : State} (hw : Writable m TIU_CTRL (withField TIU_CTRL_DISARM 1 v) s) : ∃ R c,
    Stands m .TIU_CTRL 0 0 TIU_CTRL.one (withField TIU_CTRL_DISARM 1 v).toNat s R c ∧
      run (busSet m TIU_CTRL_DISARM 1 v) s = .next (settle s (tiuDisarm c)) := by
  obtain ⟨R, c, hst, hd, hrun⟩ := Writable.stands_carried (f := TIU_CTRL_DISARM) (id := .TIU_CTRL) (i := 0) (j := 0) hw
    (by decide +kernel) (by decide +kernel) (by decide) (by decide) (by decide)
  obtain ⟨-, hid, -, -, -⟩ := hst.who
  rw [regEffect_tiuCtrl c hid, if_pos (by rw [hd]; decide)] at hrun
  exact ⟨R, c, hst, hrun⟩

/-! ### Arming (R493, R495, R503) -/

/-- The registers of the statistics are cleared. -/
def tiuStatZeroed (s : State) : State :=
  let s := (((s.putWide TIU_STAT_MEAN 0).putWide TIU_STAT_SD 0).putWide TIU_STAT_MIN 0).putWide TIU_STAT_MAX 0
  ((s.put TIU_STAT_COUNT 0).put TIU_STAT_NO_STOP 0).put TIU_STAT_REJECTED 0

/-- With their sums, and with what is kept of the run before. -/
def tiuStatCleared (s : State) : State :=
  let s := tiuStatZeroed s
  { s with tiu := { s.tiu with sum := 0, sum2 := 0, was := none, doneAt := none } }

/-- So are the run's count and its end. -/
def tiuRunCleared (s : State) : State := ((tiuStatCleared s).put TIU_STATUS_MEAS 0).put TIU_STATUS_RUN_END 0

section
variable {s : State}

/-- The cases of arming, over the state that a run finds. -/
theorem tiuArm_eq : tiuArm s =
    if s.on TIU_CTRL_ARM then (s, true)
    else if s.geti TIU_WIN_CLOSE_V < s.geti TIU_WIN_OPEN_V then (s.put TIU_STATUS_RUN_END 6, true)
    else if (tiuRunCleared s).get TIU_CFG_BASE = 1 ∧ !(tiuRunCleared s).on TIU_STATUS_REF_PRESENT then (tiuEnd 4 (tiuRunCleared s), false)
    else (tiuNext ((tiuRunCleared s).put TIU_CTRL_ARM 1), false) := rfl

/-- The mean is cleared first, and none of the writes after it reaches its two words. -/
theorem tiuStatZeroed_words : WordsKept 0x02000048 0x02000068 (s.putWide TIU_STAT_MEAN 0) (tiuStatZeroed s) := by
  have hwide := (((WordsKept.refl 0x02000048 0x02000068 (s.putWide TIU_STAT_MEAN 0)).putWide
    (w := TIU_STAT_SD) (v := 0) (by decide) (by decide)).putWide (w := TIU_STAT_MIN) (v := 0) (by decide) (by decide)).putWide
    (w := TIU_STAT_MAX) (v := 0) (by decide) (by decide)
  exact ((hwide.put (f := TIU_STAT_COUNT) (v := 0) (by decide) (by decide)).put (f := TIU_STAT_NO_STOP) (v := 0) (by decide)
    (by decide)).put (f := TIU_STAT_REJECTED) (v := 0) (by decide) (by decide)

theorem tiuStatZeroed_mean : (tiuStatZeroed s).wide TIU_STAT_MEAN = 0 := by
  rw [tiuStatZeroed_words.wide (.inl (by decide)), State.wide_putWide]
  rfl

theorem tiuStatZeroed_count : (tiuStatZeroed s).get TIU_STAT_COUNT = 0 := by
  unfold tiuStatZeroed
  rw [State.get_put_reg _ _ (by decide), State.get_put_away _ _ (by decide), State.get_put_same _ _ _ (by decide)]
  rfl

theorem tiuStatZeroed_get {f : Fld} (h : f.reg.addr < 0x02000040 ∨ 0x02000068 ≤ f.reg.addr) : (tiuStatZeroed s).get f = s.get f := by
  rw [tiuStatZeroed_words.get (by omega), State.get_putWide_other s TIU_STAT_MEAN 0 (by simp only [TIU_STAT_MEAN]; omega)]

theorem tiuStatZeroed_tiu : (tiuStatZeroed s).tiu = s.tiu := by
  unfold tiuStatZeroed
  simp only [State.put_tiu, State.putWide_tiu]

theorem tiuStatCleared_regs : (tiuStatCleared s).regs = (tiuStatZeroed s).regs := rfl

/-- Outside the statistics and the run's two fields nothing shows the clearing. -/
theorem tiuRunCleared_get {f : Fld} (h : f.reg.addr < 0x02000040 ∨ 0x02000068 ≤ f.reg.addr) (hm : f.Apart TIU_STATUS_MEAS)
    (he : f.Apart TIU_STATUS_RUN_END) : (tiuRunCleared s).get f = s.get f := by
  unfold tiuRunCleared
  rw [State.get_put_apart _ _ he, State.get_put_apart _ _ hm, State.get_of_regs tiuStatCleared_regs, tiuStatZeroed_get h]

theorem tiuRunCleared_locked : tiuLocked (tiuRunCleared s) = tiuLocked s := by
  unfold tiuRunCleared
  rw [tiuLocked_put _ _ (by unfold Fld.Apart; decide), tiuLocked_put _ _ (by unfold Fld.Apart; decide)]
  refine tiuLocked_congr (fun f hf => ?_) (congrArg TiuRec.multLocked (tiuStatZeroed_tiu (s := s)) :)
  rw [State.get_of_regs tiuStatCleared_regs, tiuStatZeroed_get (by revert f; decide)]

theorem tiuRunCleared_meas : (tiuRunCleared s).get TIU_STATUS_MEAS = 0 :=
  (State.get_put_away _ _ (by decide)).trans (State.get_put_same _ _ _ (by decide))

theorem tiuRunCleared_count : (tiuRunCleared s).get TIU_STAT_COUNT = 0 := by
  unfold tiuRunCleared
  rw [State.get_put_reg _ _ (by decide), State.get_put_reg _ _ (by decide), State.get_of_regs tiuStatCleared_regs, tiuStatZeroed_count]

theorem tiuRunCleared_mean : (tiuRunCleared s).wide TIU_STAT_MEAN = 0 := by
  unfold tiuRunCleared
  rw [State.wide_put_other _ _ (.inr (by decide)), State.wide_put_other _ _ (.inr (by decide)), State.wide_congr tiuStatCleared_regs,
    tiuStatZeroed_mean]

/-- A run whose window closes before it opens ends at once. -/
theorem tiuArm_badWindow (ha : s.on TIU_CTRL_ARM = false) (hw : s.geti TIU_WIN_CLOSE_V < s.geti TIU_WIN_OPEN_V) :
    (tiuArm s).1.get TIU_STATUS_RUN_END = 6 ∧ (tiuArm s).1.on TIU_CTRL_ARM = false ∧ tiuState (tiuArm s).1 = tiuState s := by
  rw [tiuArm_eq, if_neg (by simp [ha]), if_pos hw]
  refine ⟨State.get_put_fits s (by decide) (by decide), ?_, State.get_put_away s _ (by decide)⟩
  rw [State.on_false, State.get_put_reg s _ (by decide)]
  exact State.on_false.1 ha

/-- One that needs TIU_REF where it is not present ends at once too. -/
theorem tiuArm_noRef (ha : s.on TIU_CTRL_ARM = false) (hw : s.geti TIU_WIN_OPEN_V ≤ s.geti TIU_WIN_CLOSE_V) (hb : s.get TIU_CFG_BASE = 1)
    (hr : s.on TIU_STATUS_REF_PRESENT = false) : (tiuArm s).1.get TIU_STATUS_RUN_END = 4 ∧ (tiuArm s).1.on TIU_EVENT_NO_REF = true ∧
    tiuState (tiuArm s).1 = 0 := by
  have hbase : (tiuRunCleared s).get TIU_CFG_BASE = 1 := (tiuRunCleared_get (by decide) (.inl (by decide)) (.inl (by decide))).trans hb
  have href : (tiuRunCleared s).on TIU_STATUS_REF_PRESENT = false := by
    rw [State.on_false] at hr ⊢
    exact (tiuRunCleared_get (by decide) (.inr (by decide)) (.inr (by decide))).trans hr
  obtain ⟨hstate, hend, -⟩ := tiuEnd_shows (s := tiuRunCleared s) (code := 4) (by decide)
  rw [tiuArm_eq, if_neg (by simp [ha]), if_neg (not_lt.2 hw), if_pos (by simp [hbase, href])]
  exact ⟨hend, tiuEnd_noRef, hstate⟩

/-- Every other run is armed, and its first measurement begins. -/
theorem tiuArm_arms (ha : s.on TIU_CTRL_ARM = false) (hw : s.geti TIU_WIN_OPEN_V ≤ s.geti TIU_WIN_CLOSE_V)
    (hb : s.get TIU_CFG_BASE ≠ 1 ∨ s.on TIU_STATUS_REF_PRESENT = true) : (tiuArm s).1.on TIU_CTRL_ARM = true ∧
    tiuState (tiuArm s).1 = (if tiuLocked s then 2 else 1) ∧ (tiuArm s).1.get TIU_STATUS_MEAS = 0 ∧
    (tiuArm s).1.get TIU_STAT_COUNT = 0 ∧ (tiuArm s).1.wide TIU_STAT_MEAN = 0 := by
  have hbase : (tiuRunCleared s).get TIU_CFG_BASE = s.get TIU_CFG_BASE :=
    tiuRunCleared_get (by decide) (.inl (by decide)) (.inl (by decide))
  have href : (tiuRunCleared s).on TIU_STATUS_REF_PRESENT = s.on TIU_STATUS_REF_PRESENT := by
    unfold State.on
    rw [tiuRunCleared_get (by decide) (.inr (by decide)) (.inr (by decide))]
  have hgoes : ¬((tiuRunCleared s).get TIU_CFG_BASE = 1 ∧ !(tiuRunCleared s).on TIU_STATUS_REF_PRESENT) := by
    rw [hbase, href]
    rintro ⟨h1, hn⟩
    rcases hb with hb | hb
    · exact hb h1
    · simp [hb] at hn
  rw [tiuArm_eq, if_neg (by simp [ha]), if_neg (not_lt.2 hw), if_neg hgoes]
  dsimp only
  refine ⟨?_, ?_, ?_, ?_, ?_⟩
  · rw [State.on_true, tiuNext_get (.inl (by decide)), State.get_put_fits _ (by decide) (by decide)]
    decide
  · rw [tiuNext_state, tiuLocked_put _ _ (by unfold Fld.Apart; decide), tiuRunCleared_locked]
  · rw [tiuNext_get (.inr (by decide)), State.get_put_reg _ _ (by decide), tiuRunCleared_meas]
  · rw [tiuNext_get (.inl (by decide)), State.get_put_reg _ _ (by decide), tiuRunCleared_count]
  · rw [tiuNext_wide (.inr (by decide)), State.wide_put_other _ _ (.inr (by decide)), tiuRunCleared_mean]

/-- A write of ARM adds to the arming its time, and is refused without effect where a run is armed. -/
theorem tiuArmWrite_shows : (tiuArmWrite s).regs = (tiuArm s).1.regs ∧ (s.on TIU_CTRL_ARM = true → tiuArmWrite s = s) := by
  refine ⟨?_, fun ha => ?_⟩
  · unfold tiuArmWrite
    dsimp only
    split
    · rfl
    · rfl
  · unfold tiuArmWrite
    rw [tiuArm_eq, if_pos ha]
    rfl

theorem tiuDisarm_shows (ha : s.on TIU_CTRL_ARM = true) : tiuState (tiuDisarm s) = 0 ∧ (tiuDisarm s).get TIU_STATUS_RUN_END = 5 ∧
    (tiuDisarm s).on TIU_CTRL_ARM = false ∧ (tiuDisarm s).on TIU_EVENT_RUN_DONE = true := by
  obtain ⟨hstate, hend, harm⟩ := tiuEnd_shows (s := s) (code := 5) (by decide)
  unfold tiuDisarm
  rw [if_pos ha]
  exact ⟨hstate, hend, harm, tiuEnd_runDone⟩

end

end Sys2Proof.Machine
end

section
/-!
PROOFS. The TIU's events: the base, the calibration, the edges and the window (R485, R487, R491 to R500); and the settling of the
statement on the TIU.
-/

namespace Sys2Proof.Machine

open Sys2Proof

/-! ### The base locks and is lost (R491, R493 to R495) -/

section
variable {s : State}

/-- The multiplier has locked, where the selected base needs it and can drive it. -/
def tiuMultTaken (s : State) : State :=
  if (s.get TIU_CFG_BASE == 1 && s.on TIU_STATUS_REF_PRESENT) || (s.get TIU_CFG_BASE == 2 && (s.dev != .reset && s.dev != .clockStart)) then
    { s with tiu := { s.tiu with multLocked := true } }
  else s

theorem tiuMultTaken_regs : (tiuMultTaken s).regs = s.regs := by
  unfold tiuMultTaken
  split
  · rfl
  · rfl

theorem tiuState_tiuMultTaken : tiuState (tiuMultTaken s) = tiuState s := State.get_of_regs tiuMultTaken_regs _

theorem tiuMultTaken_root (hb : s.get TIU_CFG_BASE = 2) (hr : s.dev ≠ .reset) (hc : s.dev ≠ .clockStart) :
    tiuLocked (tiuMultTaken s) = true := by
  have hlocked : (tiuMultTaken s).tiu.multLocked = true := by
    unfold tiuMultTaken
    rw [if_pos (by simp [hb, hr, hc])]
  unfold tiuLocked
  rw [State.get_of_regs tiuMultTaken_regs, hb, hlocked]
  rfl

theorem tiuBaseLocked_eq : tiuBaseLocked s =
    if tiuState (tiuBaseBit (tiuMultTaken s)) = 1 ∧ tiuLocked (tiuBaseBit (tiuMultTaken s)) then tiuNext (tiuBaseBit (tiuMultTaken s))
    else tiuBaseBit (tiuMultTaken s) := rfl

/-- A run that waits for the base calibrates. -/
theorem tiuBaseLocked_calibrates (hb : s.get TIU_CFG_BASE = 2) (hr : s.dev ≠ .reset) (hc : s.dev ≠ .clockStart) (h1 : tiuState s = 1) :
    tiuState (tiuBaseLocked s) = 2 ∧ (tiuBaseLocked s).on TIU_STATUS_BASE_LOCKED = true := by
  have hlocked : tiuLocked (tiuBaseBit (tiuMultTaken s)) = true := tiuLocked_tiuBaseBit.trans (tiuMultTaken_root hb hr hc)
  have hstate : tiuState (tiuBaseBit (tiuMultTaken s)) = 1 := (tiuState_tiuBaseBit.trans tiuState_tiuMultTaken).trans h1
  have hbit : (tiuBaseBit (tiuMultTaken s)).on TIU_STATUS_BASE_LOCKED = true := tiuBaseBit_shows.trans (tiuMultTaken_root hb hr hc)
  rw [tiuBaseLocked_eq, if_pos ⟨hstate, hlocked⟩]
  refine ⟨by rw [tiuNext_state, hlocked]; rfl, ?_⟩
  rw [State.on_true] at hbit ⊢
  rw [tiuNext_get (.inr (by decide))]
  exact hbit

/-- In every other state BASE_LOCKED alone follows. -/
theorem tiuBaseLocked_stays (h1 : tiuState s ≠ 1) : tiuState (tiuBaseLocked s) = tiuState s ∧
    (tiuBaseLocked s).on TIU_STATUS_BASE_LOCKED = tiuLocked (tiuBaseLocked s) := by
  have hstate : tiuState (tiuBaseBit (tiuMultTaken s)) = tiuState s := tiuState_tiuBaseBit.trans tiuState_tiuMultTaken
  rw [tiuBaseLocked_eq, if_neg fun h => h1 (hstate.symm.trans h.1), tiuLocked_tiuBaseBit]
  exact ⟨hstate, tiuBaseBit_shows⟩

theorem tiuAbort_idle (h : tiuState s < 2) : tiuAbort s = s := if_neg (Nat.not_le.2 h)

/-- A measurement in progress is aborted with its run. -/
theorem tiuAbort_shows (h : 2 ≤ tiuState s) : (tiuAbort s).on TIU_EVENT_ABORT = true ∧ tiuState (tiuAbort s) = 0 ∧
    (tiuAbort s).get TIU_STATUS_RUN_END = 2 ∧ (tiuAbort s).on TIU_CTRL_ARM = false := by
  have hend : tiuAbort s = tiuEnd 2 ((tiuVoid 2 s).ev TIU_EVENT_ABORT) := if_pos h
  rw [hend]
  refine ⟨?_, tiuEnd_shows (by decide)⟩
  rw [State.on_true, tiuEnd_other (by unfold Fld.Apart; decide)]
  exact State.on_true.1 (State.on_ev_same _ (by decide) (by decide))

/-- Whether TIU_REF is present stays as it was. -/
theorem tiuAbort_refPresent : (tiuAbort s).get TIU_STATUS_REF_PRESENT = s.get TIU_STATUS_REF_PRESENT := by
  unfold tiuAbort
  split
  · rw [tiuEnd_other (by unfold Fld.Apart; decide), State.ev_eq, State.get_put_reg _ _ (by decide), tiuVoid_get (by decide)]
  · rfl

theorem tiuRefPresent_shows : (tiuRefPresent s).on TIU_STATUS_REF_PRESENT = true ∧
    (tiuRefPresent s).on TIU_STATUS_BASE_LOCKED = tiuLocked (tiuRefPresent s) ∧ tiuState (tiuRefPresent s) = tiuState s := by
  unfold tiuRefPresent
  refine ⟨?_, tiuBaseBit_shows.trans tiuLocked_tiuBaseBit.symm, tiuState_tiuBaseBit.trans (State.get_put_away s _ (by decide))⟩
  rw [State.on_true, tiuBaseBit_get (.inr (by decide)), State.get_put_fits s (by decide) (by decide)]
  decide

theorem tiuRefLost_otherBase (hb : s.get TIU_CFG_BASE ≠ 1) : (tiuRefLost s).on TIU_STATUS_REF_PRESENT = false ∧
    tiuState (tiuRefLost s) = tiuState s := by
  have hlost : tiuRefLost s = tiuBaseBit (s.put TIU_STATUS_REF_PRESENT 0) :=
    if_neg (by rw [State.get_put_reg s _ (by decide)]; exact hb)
  rw [hlost]
  refine ⟨?_, tiuState_tiuBaseBit.trans (State.get_put_away s _ (by decide))⟩
  rw [State.on_false, tiuBaseBit_get (.inr (by decide)), State.get_put_fits s (by decide) (by decide)]

/-- The multiplier is no longer locked. -/
def tiuMultLost (s : State) : State := { s with tiu := { s.tiu with multLocked := false } }

theorem tiuRefLost_aborts (hb : s.get TIU_CFG_BASE = 1) (h : 2 ≤ tiuState s) : (tiuRefLost s).on TIU_STATUS_REF_PRESENT = false ∧
    (tiuRefLost s).on TIU_EVENT_ABORT = true ∧ tiuState (tiuRefLost s) = 0 ∧ (tiuRefLost s).get TIU_STATUS_RUN_END = 2 ∧
    (tiuRefLost s).on TIU_CTRL_ARM = false := by
  have hlost : tiuRefLost s = tiuAbort (tiuBaseBit (tiuMultLost (s.put TIU_STATUS_REF_PRESENT 0))) :=
    if_pos ((State.get_put_reg s _ (by decide)).trans hb)
  have hstate : tiuState (tiuBaseBit (tiuMultLost (s.put TIU_STATUS_REF_PRESENT 0))) = tiuState s :=
    tiuState_tiuBaseBit.trans (State.get_put_away s 0 (by decide))
  rw [hlost]
  refine ⟨?_, tiuAbort_shows (hstate ▸ h)⟩
  rw [State.on_false, tiuAbort_refPresent, tiuBaseBit_get (.inr (by decide))]
  exact State.get_put_fits s (by decide) (by decide)

theorem tiuMultLoss_eq : tiuMultLoss s =
    if (tiuBaseBit (tiuMultLost s)).get TIU_CFG_BASE = 2 then tiuAbort (tiuBaseBit (tiuMultLost s)) else tiuBaseBit (tiuMultLost s) := rfl

theorem tiuMultLost_base : (tiuBaseBit (tiuMultLost s)).get TIU_CFG_BASE = s.get TIU_CFG_BASE := tiuBaseBit_get (.inl (by decide))

theorem tiuMultLost_state : tiuState (tiuBaseBit (tiuMultLost s)) = tiuState s := tiuState_tiuBaseBit

theorem tiuMultLoss_aborts (hb : s.get TIU_CFG_BASE = 2) (h : 2 ≤ tiuState s) : (tiuMultLoss s).on TIU_EVENT_ABORT = true ∧
    tiuState (tiuMultLoss s) = 0 ∧ (tiuMultLoss s).get TIU_STATUS_RUN_END = 2 ∧ (tiuMultLoss s).on TIU_CTRL_ARM = false := by
  rw [tiuMultLoss_eq, if_pos (tiuMultLost_base.trans hb)]
  exact tiuAbort_shows (h.trans_eq tiuMultLost_state.symm)

theorem tiuMultLoss_keepsRun (h : s.get TIU_CFG_BASE ≠ 2 ∨ tiuState s < 2) : (tiuMultLoss s).tiu.multLocked = false ∧
    tiuState (tiuMultLoss s) = tiuState s := by
  have hlost : tiuMultLoss s = tiuBaseBit (tiuMultLost s) := by
    rw [tiuMultLoss_eq]
    split
    next hb => exact tiuAbort_idle (tiuMultLost_state.trans_lt (h.resolve_left (not_not.2 (tiuMultLost_base.symm.trans hb))))
    next => rfl
  rw [hlost]
  exact ⟨rfl, tiuMultLost_state⟩

end

/-! ### Calibration (R487, R488, R490) -/

section
variable {c : TiuCodes} {s : State}

/-- The means lie in the limits of R488. -/
def tiuCalOk (k : TiuCal) : Bool :=
  (decide (k.startK1 + 1792 ≤ k.startK2) && decide (k.startK2 ≤ k.startK1 + 2304)) &&
    (decide (k.stopK1 + 1792 ≤ k.stopK2) && decide (k.stopK2 ≤ k.stopK1 + 2304))

/-- The bin tables that wait are counted as applied. -/
def tiuBinsCounted (s : State) : State :=
  let t := s.tiu
  let s := if t.nextA.isSome then calApplied 0 0 s else s
  if t.nextB.isSome then calApplied 0 1 s else s

/-- The calibration's means and the tables that wait are in force. -/
def tiuCalTaken (c : TiuCodes) (s : State) : State :=
  { tiuBinsCounted s with tiu := { s.tiu with
    cal := tiuMeans c, calOk := tiuCalOk (tiuMeans c), binsA := s.tiu.nextA.getD s.tiu.binsA, binsB := s.tiu.nextB.getD s.tiu.binsB,
    nextA := none, nextB := none } }

theorem calApplied_words (i : Nat) : WordsKept 0x02100000 0x02200000 s (calApplied 0 i s) :=
  ((((WordsKept.refl _ _ s).put (f := CAL_COUNT_V 0) (by decide) (by decide)).putWide (w := CAL_LAST 0) (by decide) (by decide)).put
    (f := CAL_K_STATUS_TB_INVALID 0) (by decide) (by decide)).put (f := CAL_K_STATUS_LAST_INST 0) (by decide) (by decide)

/-- The TIU's registers do not show it. -/
theorem tiuCalTaken_get {f : Fld} (h : f.reg.addr < 0x02100000) : (tiuCalTaken c s).get f = s.get f := by
  have happlied : ∀ (b : Bool) (i : Nat) (t : State), State.get (if b then calApplied 0 i t else t) f = t.get f := fun b i t => by
    split
    · exact (calApplied_words i).get (.inl h)
    · rfl
  exact (State.get_of_regs rfl f).trans ((happlied s.tiu.nextB.isSome 1 _).trans (happlied s.tiu.nextA.isSome 0 s))

theorem tiuCalDone_eq (hd : s.noDisarm) : tiuCalDone c s =
    if tiuState s ≠ 2 then s
    else if tiuCalOk (tiuMeans c) then tiuSet 3 (tiuCalTaken c s)
    else tiuDone ((tiuVoid 4 (tiuCalTaken c s)).ev TIU_EVENT_CAL_FAIL) := tiuLast_eq hd

theorem tiuCalDone_idle (hd : s.noDisarm) (h : tiuState s ≠ 2) : tiuCalDone c s = s := (tiuCalDone_eq hd).trans (if_pos h)

/-- In its limits a calibration leads to the wait for a start. -/
theorem tiuCalDone_waits (hd : s.noDisarm) (h : tiuState s = 2) (hok : tiuCalOk (tiuMeans c) = true) :
    tiuState (tiuCalDone c s) = 3 ∧ (tiuCalDone c s).tiu.cal = tiuMeans c := by
  rw [tiuCalDone_eq hd, if_neg (not_not.2 h), if_pos hok]
  exact ⟨State.get_put_fits _ (by decide) (by decide), rfl⟩

/-- Out of them the measurement is complete with CAL_FAIL. -/
theorem tiuCalDone_fails (hd : s.noDisarm) (h : tiuState s = 2) (hok : tiuCalOk (tiuMeans c) = false) :
    (tiuCalDone c s).on TIU_EVENT_CAL_FAIL = true ∧
      (tiuCalDone c s).get TIU_STATUS_MEAS = (s.get TIU_STATUS_MEAS + 1) % 2 ^ TIU_STATUS_MEAS.width := by
  rw [tiuCalDone_eq hd, if_neg (not_not.2 h), if_neg (by simp [hok])]
  constructor
  · rw [State.on_true, tiuDone_other (by unfold Fld.Apart; decide)]
    exact State.on_true.1 (State.on_ev_same _ (by decide) (by decide))
  · rw [tiuDone_counts, State.ev_eq, State.get_put_reg _ _ (by decide), tiuVoid_get (by decide), tiuCalTaken_get (by decide)]

theorem roundDiv_mul_self {b : Nat} (hb : 0 < b) (a : Int) : roundDiv (b * a) b = a := by
  have hb' : (b : Int) ≠ 0 := by omega
  unfold roundDiv
  rw [if_neg (by omega)]
  dsimp only
  rw [Int.mul_ediv_cancel_left a hb', Int.mul_emod_right, if_pos (by omega)]

/-- The mean of eight raw codes in 1/8 code is their sum. -/
theorem codesMean_eight {l : List (Fin 512)} (h : l.length = 8) : codesMean l = (l.map (fun c => c.val)).sum := by
  unfold codesMean
  rw [h, Nat.cast_mul, roundDiv_mul_self (by decide), Int.toNat_natCast]

end

/-! ### Candidate stops (R489, R497, R498) -/

section
variable {st e : TiuEdge} {h : Bool} {v x : Int × Int} {s : State}

theorem tiuInterval_of_span (hv : tiuSpan s true false st e = some v) (hx : x = (v.1 * 2 ^ 40 - tiuTrim s * v.2, v.2 * 2 ^ 40)) :
    tiuInterval st e s = (x, s) := by
  unfold tiuInterval
  rw [hv, hx]

/-- An interval of 6.25 ps at least is judged by its own place against the window. -/
theorem tiuJudge_eq (hv : tiuSpan s true false st e = some v) (hx : x = (v.1 * 2 ^ 40 - tiuTrim s * v.2, v.2 * 2 ^ 40))
    (hz : nearZero (tiuResult x) = false) : tiuJudge st e h s =
    if x.1 < s.geti TIU_WIN_OPEN_V * x.2 then s.countSat TIU_STAT_REJECTED
    else if x.1 ≤ s.geti TIU_WIN_CLOSE_V * x.2 then tiuAccept x s
    else if h then tiuNoStop s
    else s := by
  unfold tiuJudge
  rw [tiuInterval_of_span hv hx]
  dsimp only
  rw [hz, if_neg (c := (false : Bool) = true) (by decide)]

/-- Before the window a stop is rejected, in it accepted, and after it ignored. -/
theorem tiuJudge_shows (hv : tiuSpan s true false st e = some v) (hx : x = (v.1 * 2 ^ 40 - tiuTrim s * v.2, v.2 * 2 ^ 40))
    (hz : nearZero (tiuResult x) = false) :
    (x.1 < s.geti TIU_WIN_OPEN_V * x.2 → tiuJudge st e h s = s.countSat TIU_STAT_REJECTED) ∧
    (s.geti TIU_WIN_OPEN_V * x.2 ≤ x.1 → x.1 ≤ s.geti TIU_WIN_CLOSE_V * x.2 →
      (tiuJudge st e h s).get TIU_STAT_COUNT = (s.get TIU_STAT_COUNT + 1) % 2 ^ 16 ∧
      (tiuJudge st e h s).get TIU_STATUS_MEAS = (s.get TIU_STATUS_MEAS + 1) % 2 ^ TIU_STATUS_MEAS.width) ∧
    (s.geti TIU_WIN_OPEN_V * x.2 ≤ x.1 → s.geti TIU_WIN_CLOSE_V * x.2 < x.1 → tiuJudge st e false s = s) := by
  rw [tiuJudge_eq hv hx hz, tiuJudge_eq hv hx hz]
  refine ⟨fun hlow => if_pos hlow, fun hopen hclose => ?_, fun hopen hclose => ?_⟩
  · rw [if_neg (not_lt.2 hopen), if_pos hclose]
    exact tiuAccept_shows x
  · rw [if_neg (not_lt.2 hopen), if_neg (not_le.2 hclose)]
    rfl

end

/-! ### Edges at the channels (R485, R496, R497) -/

section
variable {e : TiuEdge} {ago : Nat} {s : State}

theorem tiuStartEdge_ignored (h : tiuState s < 3 ∨ tooSoon s true s.tiu.lastA e = true) : tiuStartEdge e ago s = s :=
  if_pos (by rcases h with h | h <;> simp [h])

/-- During a measurement an edge of the start's channel is taken, and starts none. -/
theorem tiuStartEdge_taken (h4 : tiuState s = 4) (hs : tooSoon s true s.tiu.lastA e = false) : tiuStartEdge e ago s = tiuTakeA e s := by
  unfold tiuStartEdge
  rw [if_neg (by simp [h4, hs]), h4]
  rfl

/-- The measurement has started with the edge. -/
def tiuStarted (e : TiuEdge) (ago : Nat) (s : State) : State :=
  tiuSet 4 { tiuTakeA e s with tiu := { (tiuTakeA e s).tiu with
    start := some e, startAt := tb96OfSns (gridStamp (tiuTakeA e s) (-(ago : Int)) 0), startInvalid := decide ((tiuTakeA e s).tbState = 0) } }

theorem tiuStartEdge_starts (h3 : tiuState s = 3) (hs : tooSoon s true s.tiu.lastA e = false) : tiuStartEdge e ago s =
    match s.tiu.held with
    | some h => tiuJudge e h true (tiuStarted e ago s)
    | none => tiuStarted e ago s := by
  unfold tiuStartEdge
  rw [if_neg (by simp [h3, hs]), h3]
  rfl

theorem tiuStarted_shows : tiuState (tiuStarted e ago s) = 4 ∧ (tiuStarted e ago s).tiu.start = some e ∧
    (tiuStarted e ago s).tiu.lastA = some e ∧ (tiuStarted e ago s).tiu.startInvalid = decide (s.tbState = 0) :=
  ⟨State.get_put_fits _ (by decide) (by decide), rfl, rfl, rfl⟩

/-- No edge of the start's channel shows in a register but the one that starts a measurement. -/
theorem tiuStartEdge_regs (h3 : tiuState s ≠ 3) : (tiuStartEdge e ago s).regs = s.regs := by
  by_cases h : tiuState s < 3 ∨ tooSoon s true s.tiu.lastA e = true
  · rw [tiuStartEdge_ignored h]
  · obtain ⟨hge, hs⟩ := not_or.1 h
    unfold tiuStartEdge
    rw [if_neg (by simp [hge, hs]), if_pos (by simpa using h3)]
    rfl

theorem tiuStopEdge_ignored (h : tiuState s < 3 ∨ tooSoon s false s.tiu.lastB e = true) : tiuStopEdge e s = s :=
  if_pos (by rcases h with h | h <;> simp [h])

/-- Before the start a stop is held. -/
theorem tiuStopEdge_held (h3 : 3 ≤ tiuState s) (hs : tooSoon s false s.tiu.lastB e = false) (h0 : s.tiu.start = none) :
    (tiuStopEdge e s).tiu.held = some e ∧ (tiuStopEdge e s).regs = s.regs := by
  have hstart : (tiuTakeB e s).tiu.start = none := h0
  unfold tiuStopEdge
  rw [if_neg (by simp [hs]; omega)]
  dsimp only
  rw [hstart]
  exact ⟨rfl, rfl⟩

theorem tiuStopEdge_judged {st : TiuEdge} (h3 : 3 ≤ tiuState s) (hs : tooSoon s false s.tiu.lastB e = false) (h1 : s.tiu.start = some st) :
    tiuStopEdge e s = tiuJudge st e (decide (e.coarse ≤ st.coarse)) (tiuTakeB e s) := by
  have hstart : (tiuTakeB e s).tiu.start = some st := h1
  unfold tiuStopEdge
  rw [if_neg (by simp [hs]; omega)]
  dsimp only
  rw [hstart]

theorem tiuStopEdge_regs (h0 : s.tiu.start = none) : (tiuStopEdge e s).regs = s.regs := by
  by_cases h : tiuState s < 3 ∨ tooSoon s false s.tiu.lastB e = true
  · rw [tiuStopEdge_ignored h]
  · obtain ⟨hge, hs⟩ := not_or.1 h
    exact (tiuStopEdge_held (Nat.not_lt.1 hge) (Bool.not_eq_true _ ▸ hs) h0).2

end

/-! ### Edges of a source (R484 to R486, R504) -/

section
variable {src : Nat} {falling : Bool} {start stop : TiuEdge} {ago : Nat} {s t : State}

theorem tiuStartSel_of_regs (h : t.regs = s.regs) : tiuStartSel t src falling = tiuStartSel s src falling := by
  unfold tiuStartSel
  rw [State.get_of_regs h, State.on_of_regs h]

theorem tiuStopSel_of_regs (h : t.regs = s.regs) : tiuStopSel t src falling = tiuStopSel s src falling := by
  unfold tiuStopSel
  rw [State.get_of_regs h, State.on_of_regs h]

/-- A source's edge at the start's channel, and at the stop's. -/
def tiuOfferA (src : Nat) (falling : Bool) (e : TiuEdge) (ago : Nat) (s : State) : State :=
  if tiuStartSel s src falling then tiuStartEdge e ago s else s

def tiuOfferB (src : Nat) (falling : Bool) (e : TiuEdge) (s : State) : State :=
  if tiuStopSel s src falling then tiuStopEdge e s else s

theorem tiuOfferA_selected (h : tiuStartSel s src falling = true) : tiuOfferA src falling start ago s = tiuStartEdge start ago s := if_pos h

theorem tiuOfferA_other (h : tiuStartSel s src falling = false) : tiuOfferA src falling start ago s = s := if_neg (by simp [h])

theorem tiuOfferB_selected (h : tiuStopSel s src falling = true) : tiuOfferB src falling stop s = tiuStopEdge stop s := if_pos h

theorem tiuOfferB_other (h : tiuStopSel s src falling = false) : tiuOfferB src falling stop s = s := if_neg (by simp [h])

theorem tiuEdges_eq (hd : s.noDisarm) : tiuEdges src falling start stop ago s =
    if tiuState s = 3 then tiuOfferA src falling start ago (tiuOfferB src falling stop s)
    else tiuOfferB src falling stop (tiuOfferA src falling start ago s) := by
  unfold tiuEdges
  rw [tiuLast_eq hd]
  rfl

theorem tiuEdges_startOnly (hd : s.noDisarm) (ha : tiuStartSel s src falling = true) (hb : tiuStopSel s src falling = false) :
    tiuEdges src falling start stop ago s = tiuStartEdge start ago s := by
  rw [tiuEdges_eq hd]
  split
  next => rw [tiuOfferB_other hb, tiuOfferA_selected ha]
  next h3 => rw [tiuOfferA_selected ha, tiuOfferB_other ((tiuStopSel_of_regs (tiuStartEdge_regs h3)).trans hb)]

theorem tiuEdges_stopOnly (hd : s.noDisarm) (ha : tiuStartSel s src falling = false) (hb : tiuStopSel s src falling = true)
    (h0 : tiuState s = 3 → s.tiu.start = none) : tiuEdges src falling start stop ago s = tiuStopEdge stop s := by
  rw [tiuEdges_eq hd]
  split
  next h3 => rw [tiuOfferB_selected hb, tiuOfferA_other ((tiuStartSel_of_regs (tiuStopEdge_regs (h0 h3))).trans ha)]
  next => rw [tiuOfferA_other ha, tiuOfferB_selected hb]

/-- An edge that may start a measurement is its own held stop. -/
theorem tiuEdges_both_waiting (hd : s.noDisarm) (ha : tiuStartSel s src falling = true) (hb : tiuStopSel s src falling = true)
    (h3 : tiuState s = 3) (h0 : s.tiu.start = none) :
    tiuEdges src falling start stop ago s = tiuStartEdge start ago (tiuStopEdge stop s) := by
  rw [tiuEdges_eq hd, if_pos h3, tiuOfferB_selected hb, tiuOfferA_selected ((tiuStartSel_of_regs (tiuStopEdge_regs h0)).trans ha)]

/-- During a measurement it reaches the start's channel first. -/
theorem tiuEdges_both_started (hd : s.noDisarm) (ha : tiuStartSel s src falling = true) (hb : tiuStopSel s src falling = true)
    (h4 : tiuState s = 4) : tiuEdges src falling start stop ago s = tiuStopEdge stop (tiuStartEdge start ago s) := by
  have h3 : tiuState s ≠ 3 := by omega
  rw [tiuEdges_eq hd, if_neg h3, tiuOfferA_selected ha, tiuOfferB_selected ((tiuStopSel_of_regs (tiuStartEdge_regs h3)).trans hb)]

theorem tiuStartIn_ignored {e : TiuInput} (h : tiuOwn e.src = true ∨ tiuStartSel s e.src e.falling = false) :
    tiuStartIn e stop ago s = s := if_pos (by rcases h with h | h <;> simp [h])

theorem tiuStartIn_offered {e : TiuInput} (ho : tiuOwn e.src = false) (ha : tiuStartSel s e.src e.falling = true) :
    tiuStartIn e stop ago s = tiuEdges e.src e.falling e.edge stop ago s := if_neg (by simp [ho, ha])

theorem tiuStopIn_ignored {e : TiuStop} (h : tiuOwn e.src = true ∨ tiuStopSel s e.src e.falling = false) :
    tiuStopIn e s = s := if_pos (by rcases h with h | h <;> simp [h])

theorem tiuStopIn_offered {e : TiuStop} (ho : tiuOwn e.src = false) (hb : tiuStopSel s e.src e.falling = true) :
    tiuStopIn e s = tiuEdges e.src e.falling e.start e.edge e.ago s := if_neg (by simp [ho, hb])

end

/-! ### The window and the timeout (R495, R497, R499, R504) -/

section
variable {s : State}

theorem tiuWindowClose_eq (hd : s.noDisarm) : tiuWindowClose s = if tiuState s = 4 then tiuNoStop s else s := tiuLast_eq hd

/-- In the cycle of the DISARM that ends its run the window's NO_STOP is counted still. -/
theorem tiuWindowClose_closes {w : TiuWas} (hw : s.tiu.was = some w) (hat : w.at_ = s.now) (h4 : w.st = 4) :
    tiuState (tiuWindowClose s) = 0 ∧ (tiuWindowClose s).get TIU_STATUS_RUN_END = 5 ∧ (tiuWindowClose s).on TIU_CTRL_ARM = false ∧
      (tiuWindowClose s).get TIU_STAT_NO_STOP = (s.get TIU_STAT_NO_STOP + 1) % 2 ^ 16 := by
  have hback : tiuState (tiuBack w s) = 4 := (State.get_put_same _ TIU_STATUS_STATE w.st (by decide)).trans (by rw [h4]; rfl)
  have hnone : (if tiuState (tiuBack w s) = 4 then tiuNoStop (tiuBack w s) else tiuBack w s) = tiuNoStop (tiuBack w s) := if_pos hback
  have hseq : (tiuNoStop (tiuBack w s)).tiu.seq ≠ s.tiu.seq := by
    have hnext : (tiuNoStop (tiuBack w s)).tiu.seq = (s.tiu.seq + 1) % 65536 := tiuNoStop_seq
    omega
  have hclosed : tiuWindowClose s = tiuClosed (tiuNoStop (tiuBack w s)) :=
    (tiuLast_closes hw hat (by rw [hnone]; exact hseq)).trans (congrArg tiuClosed hnone)
  obtain ⟨hstate, hend, harm⟩ := tiuStopped_shows (code := 5) (by decide)
  rw [hclosed]
  refine ⟨hstate, hend, harm, (tiuStopped_get (by unfold Fld.Apart; decide)).trans (tiuNoStop_shows.1.trans ?_)⟩
  rw [show (tiuBack w s).get TIU_STAT_NO_STOP = s.get TIU_STAT_NO_STOP from State.get_put_reg _ _ (by decide)]

theorem tiuStartTimeout_ends (h3 : tiuState s = 3) (h0 : s.get TIU_START_TO_V ≠ 0) : tiuState (tiuStartTimeout s) = 0 ∧
    (tiuStartTimeout s).on TIU_CTRL_ARM = false ∧ (tiuStartTimeout s).get TIU_STATUS_RUN_END = 3 := by
  obtain ⟨hstate, hend, harm⟩ := tiuEnd_shows (s := s) (code := 3) (by decide)
  have hends : tiuStartTimeout s = tiuEnd 3 s := if_pos ⟨h3, h0⟩
  rw [hends]
  exact ⟨hstate, harm, hend⟩

theorem tiuStartTimeout_idle (h : tiuState s ≠ 3 ∨ s.get TIU_START_TO_V = 0) : tiuStartTimeout s = s :=
  if_neg fun ⟨h3, h0⟩ => h.elim (· h3) h0

end

/-- Settles O48: the writes of ARM and DISARM stand and act; every event acts on the run by its state, and a result still comes in the
cycle of the DISARM. -/
theorem tiuCommands : Obligations.TiuCommands := by
  refine ⟨fun m v s hw => tiuArm_stands hw, fun m v s hw => tiuDisarm_stands hw, fun s ha hw => tiuArm_badWindow ha hw,
    fun s ha hw hb => tiuArm_arms ha hw hb, fun s ha hw hb hr => tiuArm_noRef ha hw hb hr, fun s => tiuArmWrite_shows,
    fun s ha => tiuDisarm_shows ha, fun s hs hb hr hc h1 => ⟨_, run_eq hs rfl, tiuBaseLocked_calibrates hb hr hc h1⟩,
    fun s hs h1 => ⟨_, run_eq hs rfl, tiuBaseLocked_stays h1⟩, fun c s hs hd h2 => run_eq hs (tiuCalDone_idle hd h2),
    fun c k s hs hd h2 hk ha hb hc he => ?_, fun c k s hs hd h2 hk hout => ?_, fun a1 a2 b1 b2 ha hb hc he => ?_,
    fun e stop ago s hs h => run_eq hs (tiuStartIn_ignored h),
    fun e stop ago s hs ho ha hb hd => run_eq hs ((tiuStartIn_offered ho ha).trans (tiuEdges_startOnly hd ha hb)),
    fun e stop ago s hs ho ha hb hd h3 h0 => run_eq hs ((tiuStartIn_offered ho ha).trans (tiuEdges_both_waiting hd ha hb h3 h0)),
    fun e stop ago s hs ho ha hb hd h4 => run_eq hs ((tiuStartIn_offered ho ha).trans (tiuEdges_both_started hd ha hb h4)),
    fun e s hs h => run_eq hs (tiuStopIn_ignored h),
    fun e s hs ho hb ha hd h0 => run_eq hs ((tiuStopIn_offered ho hb).trans (tiuEdges_stopOnly hd ha hb h0)),
    fun e s hs ho hb ha hd h3 h0 => run_eq hs ((tiuStopIn_offered ho hb).trans (tiuEdges_both_waiting hd ha hb h3 h0)),
    fun e s hs ho hb ha hd h4 => run_eq hs ((tiuStopIn_offered ho hb).trans (tiuEdges_both_started hd ha hb h4)),
    fun e ago s => ⟨tiuStartEdge_ignored, tiuStartEdge_taken, fun h3 hsoon hheld => ?_, fun h h3 hsoon hheld => ?_⟩,
    fun e s => ⟨tiuStopEdge_ignored, tiuStopEdge_held, fun st => tiuStopEdge_judged⟩, fun st e h v x s hv hx hz => tiuJudge_shows hv hx hz,
    fun w s hs hw hat h4 => ⟨_, run_eq hs rfl, tiuWindowClose_closes hw hat h4⟩,
    fun s hs hd h4 => ⟨_, run_eq hs ((tiuWindowClose_eq hd).trans (if_pos h4)), tiuNoStop_shows⟩,
    fun s hs hd h4 => run_eq hs ((tiuWindowClose_eq hd).trans (if_neg h4)),
    fun s hs h3 h0 => ⟨_, run_eq hs rfl, tiuStartTimeout_ends h3 h0⟩, fun s hs h => run_eq hs (tiuStartTimeout_idle h),
    fun s hs => ⟨_, run_eq hs rfl, tiuRefPresent_shows⟩, fun s hs hb => ⟨_, run_eq hs rfl, tiuRefLost_otherBase hb⟩,
    fun s hs hb h => ⟨_, run_eq hs rfl, tiuRefLost_aborts hb h⟩, fun s hs hb h => ⟨_, run_eq hs rfl, tiuMultLoss_aborts hb h⟩,
    fun s hs h => ⟨_, run_eq hs rfl, tiuMultLoss_keepsRun h⟩⟩
  · subst hk
    exact ⟨_, run_eq hs rfl, tiuCalDone_waits hd h2 (by simp [tiuCalOk, ha, hb, hc, he])⟩
  · subst hk
    refine ⟨_, run_eq hs rfl, tiuCalDone_fails hd h2 ?_⟩
    rcases hout with h | h <;> simp [tiuCalOk, Nat.not_le.2 h]
  · unfold tiuMeans
    rw [codesMean_eight ha, codesMean_eight hb, codesMean_eight hc, codesMean_eight he]
  · have hstarts : tiuStartEdge e ago s = tiuStarted e ago s := (tiuStartEdge_starts h3 hsoon).trans (by rw [hheld])
    rw [hstarts]
    exact tiuStarted_shows
  · exact (tiuStartEdge_starts h3 hsoon).trans (by rw [hheld]; rfl)

end Sys2Proof.Machine
end

section
/-!
PROOFS. What holds of every step and of the state after reset: a command at the front of the queue acts on the rest (log entry 1), no
escalation stays due (R604, R639), and every register and table byte reads its reset value (R689, log entry 2).
-/

namespace Sys2Proof.Machine

open Sys2Proof

/-! ### The step -/

/-- Settles O1: the queue's front is what `step` looks at. -/
theorem queueFrontRuns : Obligations.QueueFrontRuns := by
  intro s c rest hq
  unfold step
  rw [hq]

/-! ### Escalations due (R604, R639) -/

theorem settle_noEscalation (s u : State) : (settle s u).escDue = 0 := rfl

theorem deviceReset_noEscalation (k : Nat) (s : State) : (deviceReset k s).escDue = 0 := by
  rw [deviceReset_eq]
  rfl

theorem resetRelease_escDue (x : Straps) (s : State) : (resetRelease x s).escDue = s.escDue := by
  unfold resetRelease
  split
  · rfl
  · dsimp only
    split <;> rfl

theorem cfgRetry_escDue (q : CfgReq) (s : State) : (cfgRetry q s).escDue = s.escDue := by
  cases q <;> rfl

theorem busUnserved_escDue (m : BusMaster) (s : State) : (busUnserved m s).escDue = s.escDue := by
  unfold busUnserved
  split <;> rfl

theorem jtagTake_noEscalation {s : State} (h : s.escDue = 0) (i : JtagInstr) : (jtagTake i s).escDue = 0 := by
  unfold jtagTake
  dsimp only
  split
  · exact deviceReset_noEscalation 0 _
  · exact h

theorem extestExit_noEscalation {s : State} (h : s.escDue = 0) : (extestExit s).escDue = 0 := by
  unfold extestExit
  split
  · exact jtagTake_noEscalation h .idcode
  · exact h

/-- What a command leaves out of RESET is followed up; in RESET the state stays. -/
theorem run_noEscalation {f : State → State} {s t : State} (h : s.escDue = 0) (ht : run f s = .next t) : t.escDue = 0 := by
  obtain rfl := Host.Outcome.next.inj ht
  split
  · exact h
  · exact settle_noEscalation _ _

theorem runElse_noEscalation {r f : State → State} {s t : State} (h : (r s).escDue = 0) (ht : runElse r f s = .next t) :
    t.escDue = 0 := by
  obtain rfl := Host.Outcome.next.inj ht
  split
  · exact h
  · exact settle_noEscalation _ _

theorem exec_noEscalation {c : Instr} {s t : State} (h : s.escDue = 0) (ht : exec c s = .next t) : t.escDue = 0 := by
  cases hc : actsAlways c with
  | false =>
    obtain ⟨f, hf⟩ := exec_run c hc
    exact run_noEscalation h ((hf s).symm.trans ht)
  | true =>
    rcases exec_always c hc s with he | he | ⟨x, he⟩ | ⟨q, he⟩ | ⟨m, a, he⟩ | ⟨i, he⟩ | he | he <;> rw [he] at ht
    · obtain rfl := Host.Outcome.next.inj ht
      exact deviceReset_noEscalation 0 s
    · obtain rfl := Host.Outcome.next.inj ht
      exact deviceReset_noEscalation 1 s
    · obtain rfl := Host.Outcome.next.inj ht
      exact (resetRelease_escDue x s).trans h
    · exact runElse_noEscalation ((cfgRetry_escDue q s).trans h) ht
    · exact runElse_noEscalation ((busUnserved_escDue m s).trans h) ht
    · obtain rfl := Host.Outcome.next.inj ht
      exact jtagTake_noEscalation h i
    · obtain rfl := Host.Outcome.next.inj ht
      exact jtagTake_noEscalation h .idcode
    · obtain rfl := Host.Outcome.next.inj ht
      exact extestExit_noEscalation h

/-- Settles O6: with a command or without, what a step leaves out of RESET is a follow-up, and the rows of RESET leave none due. -/
theorem noEscalationLeftDueByAnyStep : Obligations.NoEscalationLeftDueByAnyStep := by
  intro s t h ht
  unfold step at ht
  split at ht
  next => exact run_noEscalation h ht
  next rest _ => exact exec_noEscalation (s := { s with pending := rest }) h ht

/-! ### The state after reset (R689) -/

/-- Settles O8: nothing is listed among the registers or the table bytes, so each reads what an unlisted one does. -/
theorem resetValuesOfRegisters : Obligations.ResetValuesOfRegisters := by
  have hslot : extractBits (BitVec.ofNat 32 0) 0 3 = 0 := by decide
  have hsess : extractBits (BitVec.ofNat 32 3) 0 4 = 3 := by decide
  exact ⟨fun _ => rfl, fun _ => rfl, rfl, rfl, fun _ => hslot, fun _ => hsess, rfl, rfl⟩

end Sys2Proof.Machine
end

section
/-!
PROOFS. Accesses that leave the registers of the blocks and the tables as they are: the writes of an OBSERVE master (R646, R647) and an
access that has waited ACC_TO (R650); and the frame of a table write (R690).
-/

namespace Sys2Proof.Machine

open Sys2Proof

/-! ### Words of the blocks below the management block -/

/-- A state that differs from `s` in its registers from the management block on, and in no table byte. -/
structure BlocksKept (s t : State) : Prop where
  mem : t.mem = s.mem
  words : ∀ r : Reg, r.addr < 0x02600000 → t.word r = s.word r

theorem OnlyPmc.blocksKept {s t : State} (h : OnlyPmc s t) : BlocksKept s t where
  mem := by rw [h.1]
  words r hr := h.2 r (by omega)

theorem BlocksKept.trans {s t u : State} (h : BlocksKept s t) (h' : BlocksKept t u) : BlocksKept s u where
  mem := h'.mem.trans h.mem
  words r hr := (h'.words r hr).trans (h.words r hr)

theorem BlocksKept.put {s t : State} (h : BlocksKept s t) {f : Fld} (v : Nat) (hf : 0x02600000 ≤ f.reg.addr) : BlocksKept s (t.put f v) where
  mem := h.mem
  words r hr := (State.word_put_other t v (by omega)).trans (h.words r hr)

/-! ### A write of an OBSERVE master (R646, R647) -/

/-- A refused write is logged where the log is free, and noted in MGT_EVENT in any case. -/
theorem privLog_kept (m : BusMaster) (a : Nat) (s : State) : BlocksKept s (privLog m a s) := by
  have h : BlocksKept s (s.ev MGT_EVENT_PRIV) := BlocksKept.put ⟨rfl, fun _ _ => rfl⟩ 1 (by decide)
  unfold privLog
  dsimp only
  split
  · exact h.put 1 (by decide)
  · exact (((h.put _ (by decide)).put _ (by decide)).put _ (by decide)).put 1 (by decide)

theorem privLog_event (m : BusMaster) (a : Nat) (s : State) : (privLog m a s).on MGT_EVENT_PRIV = true := by
  have h : (s.ev MGT_EVENT_PRIV).get MGT_EVENT_PRIV = 1 := State.get_ev_same s _ (by decide) (by decide)
  have hother : ∀ (t : State) (f : Fld) (v : Nat), MGT_EVENT_PRIV.reg.addr ≠ f.reg.addr → (t.put f v).get MGT_EVENT_PRIV = t.get MGT_EVENT_PRIV :=
    fun t f v hf => State.get_put_reg t v hf
  rw [State.on_true]
  unfold privLog
  dsimp only
  split
  · rw [State.ev_eq _ MGT_PRIV_LOG_OVERFLOW, hother _ _ _ (by decide), h]
    decide
  · rw [State.ev_eq _ MGT_PRIV_LOG_VALID, hother _ _ _ (by decide), hother _ _ _ (by decide), hother _ _ _ (by decide),
      hother _ _ _ (by decide), h]
    decide

theorem masterCode_fits (m : BusMaster) : masterCode m < 2 ^ MGT_PRIV_LOG_MASTER.width := by cases m <;> decide

/-- A free log takes the access (R647). -/
theorem privLog_free {m : BusMaster} {a : Nat} {s : State} (hfree : s.on MGT_PRIV_LOG_VALID = false) (ha : a < 2 ^ 32) (h0 : privOf s m = 0) :
    let u := privLog m a s
    u.on MGT_PRIV_LOG_VALID = true ∧ u.get MGT_PRIV_LOG_ADDR = a ∧ u.get MGT_PRIV_LOG_MASTER = masterCode m ∧ u.get MGT_PRIV_LOG_LEVEL = 0 := by
  have hfree' : (s.ev MGT_EVENT_PRIV).on MGT_PRIV_LOG_VALID = false := by
    rw [State.on_false, State.ev_eq, State.get_put_reg s 1 (by decide), State.on_false.1 hfree]
  have hlevel : ∀ t : State, (∀ f : Fld, f.reg = MGT_PRIV → t.get f = s.get f) → privOf t m = 0 := by
    intro t ht
    cases m with
    | loader => exact h0
    | pcie => exact (ht _ rfl).trans h0
    | spi => exact (ht _ rfl).trans h0
    | mmp => exact (ht _ rfl).trans h0
  unfold privLog
  dsimp only
  rw [if_neg (by simp [hfree'])]
  refine ⟨State.on_ev_same _ (by decide) (by decide), ?_, ?_, ?_⟩
  · rw [State.ev_eq, State.get_put_reg _ _ (by decide), State.get_put_reg _ _ (by decide), State.get_put_reg _ _ (by decide)]
    exact State.get_put_fits _ (by decide) ha
  · rw [State.ev_eq, State.get_put_apart _ _ (.inr (by decide)), State.get_put_apart _ _ (.inr (by decide))]
    exact State.get_put_fits _ (by decide) (masterCode_fits m)
  · rw [State.ev_eq, State.get_put_apart _ _ (.inr (by decide)), State.get_put_same _ _ _ (by decide), hlevel]
    · rfl
    · intro f hf
      rw [State.ev_eq, State.get_put_reg _ _ (by rw [hf]; decide)]

/-- The place of a whole-word write by an OBSERVE master logs it and does nothing else. -/
theorem placeWrite_observe {m : BusMaster} {a : Nat} {v : Word} {s0 s : State} (h0 : privOf s m = 0) (hp : placeOf s0 a ≠ .unmapped) :
    placeWrite m a 15 v s0 s = (1, privLog m a s) := by
  unfold placeWrite
  rw [if_neg (by simp)]
  split
  next h => exact absurd h hp
  next => exact if_pos h0
  next => exact if_pos (.inl h0)
  next => exact if_pos h0
  next => exact if_pos h0

/-- Settles O12: whatever lies at the address, the write is logged there; the counters of R671 alone change beside that. -/
theorem observeMasterWritesNothing : Obligations.ObserveMasterWritesNothing := by
  intro m a v s hr hs hg h0 hp
  have hc := counted_only m a.toNat s
  have h0' : privOf (counted m a.toNat s) m = 0 := (hc.privOf m).trans h0
  have hu := busWrite_only hs (placeWrite_observe (v := v) h0' hp)
  have hk := (hc.blocksKept.trans (privLog_kept m a.toNat _)).trans hu.blocksKept
  refine ⟨_, exec_registerWrite hr hg, (hu.on _ (by decide)).trans (privLog_event _ _ _), hk.mem, fun hfree => ?_, hk.words⟩
  obtain ⟨hv, ha, hm, hl⟩ := privLog_free ((hc.on _ (by decide)).trans hfree) a.isLt h0'
  exact ⟨(hu.on _ (by decide)).trans hv, (hu.get _ (by decide)).trans ha, (hu.get _ (by decide)).trans hm, (hu.get _ (by decide)).trans hl⟩

/-! ### An access that has waited ACC_TO (R650) -/

theorem spiMark_kept (v : Nat) (s : State) : BlocksKept s (spiMark v s) := ⟨rfl, fun _ _ => rfl⟩

theorem busTimeout_running {m : BusMaster} {a : Nat} {w : Bool} {s : State} (hg : s.gated = false) : accessTimeout m a w s = s := by
  simp [accessTimeout, busTimeout, accWaits_running hg]

/-- The state in which a timed-out access is answered: the access waits no more, and ACC_TO is set. -/
def waitedOut (m : BusMaster) (a : Nat) (w : Bool) (s : State) : State :=
  (accCount m a 0x010 { s with mgt := { s.mgt with waiting := waitTake m a w s.mgt.waiting } }).ev MGT_EVENT_ACC_TO

theorem waitedOut_kept (m : BusMaster) (a : Nat) (w : Bool) (s : State) : BlocksKept s (waitedOut m a w s) := by
  have htaken : BlocksKept s { s with mgt := { s.mgt with waiting := waitTake m a w s.mgt.waiting } } := ⟨rfl, fun _ _ => rfl⟩
  exact (htaken.trans (accCount_only m a 0x010 _).blocksKept).put 1 (by decide)

theorem waitedOut_event (m : BusMaster) (a : Nat) (w : Bool) (s : State) : (waitedOut m a w s).on MGT_EVENT_ACC_TO = true :=
  State.on_ev_same _ (by decide) (by decide)

theorem waitedOut_out (m : BusMaster) (a : Nat) (w : Bool) (s : State) : (waitedOut m a w s).out = s.out := by
  have h : (accCount m a 0x010 { s with mgt := { s.mgt with waiting := waitTake m a w s.mgt.waiting } }).out = s.out := by
    rw [(accCount_only m a 0x010 _).1]
  exact h

/-- A read answers 0; both leave nothing but counts. -/
theorem busTimeout_waits {m : BusMaster} {a : Nat} {w : Bool} {s : State} (hw : accWaits s m = true) : ∃ t : State, OnlyPmc (waitedOut m a w s) t ∧
    busTimeout m a w s = if w then t else t.send (.data m a 0) := by
  cases w with
  | true => exact ⟨_, (accCount_only m a 0x012 _).trans (accCount_only m a 0x013 _), by simp [busTimeout, hw, waitedOut]⟩
  | false => exact ⟨_, accCount_only m a 0x011 _, by simp [busTimeout, hw, waitedOut]⟩

theorem busTimeout_shows {m : BusMaster} {a : Nat} {w : Bool} {s : State} (hw : accWaits s m = true) : let u := busTimeout m a w s
    BlocksKept s u ∧ u.on MGT_EVENT_ACC_TO = true ∧ (w = false → u.out = s.out ++ [.data m a 0]) := by
  obtain ⟨t, ht, he⟩ := busTimeout_waits (a := a) (w := w) hw
  have hk := (waitedOut_kept m a w s).trans ht.blocksKept
  have hev : t.on MGT_EVENT_ACC_TO = true := (ht.on _ (by decide)).trans (waitedOut_event m a w s)
  have hout : t.out = s.out := by rw [ht.1]; exact waitedOut_out m a w s
  dsimp only
  rw [he]
  cases w with
  | true => exact ⟨hk, hev, fun h => absurd h (by decide)⟩
  | false => exact ⟨⟨hk.mem, hk.words⟩, hev, fun _ => by rw [← hout]; rfl⟩

/-- Settles O19: while the clocks are gated the access of a served master is one that waits; while they run none does. -/
theorem accessTimeoutWhileGated : Obligations.AccessTimeoutWhileGated := by
  intro m a w s hr hs
  refine ⟨fun hg => ?_, fun hg => run_eq hr (busTimeout_running hg)⟩
  have hw : accWaits s m = true := by simp [accWaits, hs, hg]
  obtain ⟨hk, hev, hout⟩ := busTimeout_shows (a := a.toNat) (w := w) hw
  refine ⟨_, run_eq hr rfl, ?_⟩
  unfold accessTimeout
  dsimp only
  split
  · have hm := hk.trans (spiMark_kept (if w then 5 else 4) _)
    exact ⟨hev, hm.mem, hout, hm.words⟩
  · exact ⟨hev, hk.mem, hout, hk.words⟩

/-! ### The frame of a table write (R690, R22, R402) -/

/-- What a write inside one aligned block of 32 bytes leaves of the table memory: its canonical form, and every byte outside the block. -/
structure BlockWritten (a : Nat) (s t : State) : Prop where
  wf : Memory.wf s.mem = true → Memory.wf t.mem = true
  others : ∀ x : Nat, x / 32 ≠ a / 32 → t.byte x = s.byte x

namespace BlockWritten

variable {a : Nat} {s t : State}

theorem of_mem (h : t.mem = s.mem) : BlockWritten a s t := ⟨fun hw => by rw [h]; exact hw, fun x _ => State.byte_congr h x⟩

theorem trans {u : State} (h : BlockWritten a s t) (h' : BlockWritten a t u) : BlockWritten a s u :=
  ⟨fun hw => h'.wf (h.wf hw), fun x hx => (h'.others x hx).trans (h.others x hx)⟩

/-- Bytes inside the block are written. -/
theorem setBytesLE {b n : Nat} (v : Nat) (hlow : b / 32 = a / 32) (hhigh : b % 32 + n ≤ 32) : BlockWritten a s (s.setBytesLE b n v) :=
  ⟨Memory.wf_setBytesLE s b n v, fun x hx => State.byte_setBytesLE_other s b n v (by omega)⟩

theorem bytesTaken {l : List Nat} (be v : Nat) (ha : a % 4 = 0) (hl : ∀ k ∈ l, k < 4) (s : State) : BlockWritten a s (bytesTaken a be v l s) := by
  induction l generalizing s with
  | nil => exact of_mem rfl
  | cons k l ih =>
    have hk := hl k List.mem_cons_self
    refine trans ?_ (ih (fun j hj => hl j (List.mem_cons_of_mem k hj)) _)
    dsimp only
    split
    · exact setBytesLE _ (by omega) (by omega)
    · exact of_mem rfl

/-- The entry's own counters and state that follow a write of its configuration lie in its block. -/
theorem tableStore (be v : Nat) (ha : a % 4 = 0) (s : State) : BlockWritten a s (tableStore a be v s) := by
  have hb : BlockWritten a s (Machine.bytesTaken a be v (List.range 4) s) := bytesTaken be v ha (fun k hk => List.mem_range.1 hk) s
  unfold Machine.tableStore
  dsimp only
  split
  · exact hb.trans (setBytesLE (n := 4) _ (by omega) (by omega))
  · split
    · exact hb.trans (of_mem (meterReset_mem _ _))
    · exact hb

end BlockWritten

theorem cfgErr_mem (a : Nat) (s : State) : (cfgErr a s).mem = s.mem := by
  simp only [cfgErr, apply_ite State.mem, State.ev_eq, State.put_mem, ite_self]

theorem cfgBusy_mem (a : Nat) (s : State) : (cfgBusy a s).mem = s.mem := by
  simp only [cfgBusy, apply_ite State.mem, State.ev_eq, State.put_mem, ite_self]

theorem tableWrite_block {a : Nat} (ha : a % 4 = 0) (m : BusMaster) (r o be : Nat) (v : Word) (s : State) :
    BlockWritten a s (tableWrite m r o a be v s).2 := by
  unfold tableWrite
  split
  · exact .of_mem (cfgErr_mem a s)
  dsimp only
  split
  · exact .of_mem (cfgErr_mem a s)
  split
  · exact .of_mem (cfgBusy_mem a s)
  split
  · exact .of_mem rfl
  split
  · exact .of_mem rfl
  dsimp only
  split
  · split <;> exact .of_mem rfl
  · refine .trans (.of_mem ?_) (.tableStore _ _ ha _)
    split <;> rfl

theorem tableAccess_block {a : Nat} (ha : a % 4 = 0) (m : BusMaster) (r o be : Nat) (v : Word) (s : State) :
    BlockWritten a s (tableAccess m r o a be v s).2 := by
  unfold tableAccess
  split
  · exact .of_mem (privLog_kept m a s).mem
  split
  · exact .of_mem rfl
  · exact tableWrite_block ha m r o be v s

/-- From 0x03000000 on lies a table, a ring slot, or nothing. -/
theorem placeWrite_block {a : Nat} (ht : 0x03000000 ≤ a) (m : BusMaster) (be : Nat) (v : Word) (s0 s : State) :
    BlockWritten a s (placeWrite m a be v s0 s).2 := by
  unfold placeWrite placeOf
  rw [if_neg (by omega)]
  by_cases ha : a % 4 = 0
  · rw [if_neg (by omega), if_pos ht]
    cases eccPlace a with
    | some x => exact tableAccess_block ha m x.1 x.2 be v s
    | none =>
      by_cases hring : 0x03F00000 ≤ a ∧ a < 0x03F0FF00
      · simp only [if_pos hring]
        split
        · exact .of_mem (privLog_kept m a s).mem
        · exact .of_mem (cfgErr_mem a s)
      · simp only [if_neg hring]
        exact .of_mem rfl
  · rw [if_pos ha]
    exact .of_mem rfl

/-- Settles O20: around the write at its place only counters change. -/
theorem tableWriteKeepsEveryOtherByte : Obligations.TableWriteKeepsEveryOtherByte := by
  intro m a be v s ht
  have hb : BlockWritten a s (busWrite m a be v s).2 := by
    cases hs : served s m with
    | false => simp [busWrite, hs, BlockWritten.of_mem]
    | true =>
      have hc : BlockWritten a s (counted m a s) := .of_mem (counted_only m a s).blocksKept.mem
      exact (hc.trans (placeWrite_block ht m be v s _)).trans (.of_mem (busWrite_only hs rfl).blocksKept.mem)
  exact ⟨hb.wf, hb.others⟩

end Sys2Proof.Machine
end

section
/-!
PROOFS. The fields a step leaves as they were; for the pair's state and the alarms: what a state taken by the pair, a towline frame, a unit
that demotes itself and a major alarm leave (R172, R565, R569, R576, R602).
-/

namespace Sys2Proof.Machine

open Sys2Proof

/-! ### Fields kept -/

/-- A field shares no bit with any of a list of fields. -/
def Fld.clearOf (f : Fld) (ws : List Fld) : Bool :=
  ws.all (fun g => f.reg.addr != g.reg.addr || f.reg == g.reg && decide (f.lsb + f.width ≤ 32) &&
    (decide (f.lsb + f.width ≤ g.lsb) || decide (g.lsb + g.width ≤ f.lsb)))

theorem Fld.apart_of_clearOf {f g : Fld} {ws : List Fld} (h : f.clearOf ws = true) (hg : g ∈ ws) : f.Apart g := by
  have hapart := List.all_eq_true.1 h g hg
  simp only [Bool.or_eq_true, Bool.and_eq_true, bne_iff_ne, beq_iff_eq, decide_eq_true_eq, and_assoc] at hapart
  exact hapart

/-- `t` reads as `s` in every field apart from those of a list. -/
def FieldsKept (ws : List Fld) (s t : State) : Prop := ∀ f : Fld, f.clearOf ws = true → t.get f = s.get f

theorem FieldsKept.refl (ws : List Fld) (s : State) : FieldsKept ws s s := fun _ _ => rfl

namespace FieldsKept

variable {ws : List Fld} {s t u : State}

theorem get (h : FieldsKept ws s t) {f : Fld} (hf : f.clearOf ws = true) : t.get f = s.get f := h f hf

theorem on (h : FieldsKept ws s t) {f : Fld} (hf : f.clearOf ws = true) : t.on f = s.on f := by
  unfold State.on
  rw [h f hf]

theorem trans (h : FieldsKept ws s t) (h' : FieldsKept ws t u) : FieldsKept ws s u := fun f hf => (h' f hf).trans (h f hf)

theorem mono (h : FieldsKept ws s t) {vs : List Fld} (hs : ∀ g ∈ ws, g ∈ vs) : FieldsKept vs s t := fun f hf =>
  h f (List.all_eq_true.2 fun g hg => List.all_eq_true.1 hf g (hs g hg))

theorem of_regs (h : FieldsKept ws s t) (hu : u.regs = t.regs) : FieldsKept ws s u := fun f hf => (State.get_of_regs hu f).trans (h f hf)

theorem put (h : FieldsKept ws s t) {g : Fld} (hg : g ∈ ws) (v : Nat) : FieldsKept ws s (t.put g v) := fun f hf =>
  (State.get_put_apart t v (Fld.apart_of_clearOf hf hg)).trans (h f hf)

/-- A field of a register of which the list has the whole word. -/
theorem put_word (h : FieldsKept ws s t) {g : Fld} (hg : ⟨g.reg, 0, 32⟩ ∈ ws) (v : Nat) : FieldsKept ws s (t.put g v) :=
  fun f hf => by
    rcases Fld.apart_of_clearOf hf hg with ha | ⟨hr, hfit, hd⟩
    · exact (State.get_put_reg (g := g) t v ha).trans (h f hf)
    · have hzero : f.width = 0 := by simp only at hd; omega
      refine Eq.trans ?_ (h f hf)
      simp only [State.get, extractBits, hzero, pow_zero, Nat.mod_one]

theorem word (h : FieldsKept ws s t) {r : Reg} (hr : Fld.clearOf ⟨r, 0, 32⟩ ws = true) : t.word r = s.word r := by
  have hget := h ⟨r, 0, 32⟩ hr
  simp only [State.get, extractBits, pow_zero, Nat.div_one, Nat.mod_eq_of_lt (BitVec.isLt _)] at hget
  exact BitVec.eq_of_toNat_eq hget

theorem wide (h : FieldsKept ws s t) {w : Wide} (hw : ∀ k < w.words, Fld.clearOf ⟨w.word k, 0, 32⟩ ws = true) : t.wide w = s.wide w :=
  State.wideFrom_congr w _ 0 fun k _ hk => h.word (hw k (by omega))

theorem ite {c : Prop} [Decidable c] (h : FieldsKept ws s t) (h' : FieldsKept ws s u) : FieldsKept ws s (if c then t else u) := by
  split
  · exact h
  · exact h'

theorem forEach {α : Type} {l : List α} {g : α → State → State} (h : FieldsKept ws s t)
    (hg : ∀ a u, FieldsKept ws s u → FieldsKept ws s (g a u)) : FieldsKept ws s (forEach l g t) := forEach_keeps (P := FieldsKept ws s) t h hg

end FieldsKept

theorem State.pairState_congr {s t : State} (h : t.get PAIR_STATUS_STATE = s.get PAIR_STATUS_STATE) : t.pairState = s.pairState := by
  unfold State.pairState
  rw [h]

/-! ### The pair takes a state (R172, R569) -/

/-- The fields that follow the pair's state. -/
abbrev roleFields : List Fld := [TB_STATUS_STEP_PENDING, TB_STATUS_EFF_OWNER, PAIR_STATUS_STATE, PAIR_STATUS_HO_FROM_ACTIVE]

theorem ownerChanged_fields (was : Bool) (s : State) : FieldsKept [TB_STATUS_STEP_PENDING, TB_STATUS_EFF_OWNER] s (ownerChanged was s) := by
  have hsteps : FieldsKept [TB_STATUS_STEP_PENDING, TB_STATUS_EFF_OWNER] s
      (if was then { s with tb := { s.tb with hostStep := none } } else { s with tb := { s.tb with ferryStep := none } }) :=
    .ite ((FieldsKept.refl _ s).of_regs rfl) ((FieldsKept.refl _ s).of_regs rfl)
  exact .ite (FieldsKept.refl _ s) ((hsteps.put (by decide) _).put (by decide) _)

theorem ownerChanged_rest (was : Bool) (s : State) : ownerChanged was s =
    { s with regs := (ownerChanged was s).regs, tb := (ownerChanged was s).tb } := by
  unfold ownerChanged
  split
  · rfl
  · cases was <;> rfl

theorem pairSet_fields (p : PairState) (s : State) : FieldsKept roleFields s (pairSet p s) :=
  ((FieldsKept.refl _ s).put (by decide) _).trans ((ownerChanged_fields _ _).mono (by decide))

theorem pairSet_rest (p : PairState) (s : State) : pairSet p s = { s with regs := (pairSet p s).regs, tb := (pairSet p s).tb } := by
  unfold pairSet
  rw [ownerChanged_rest]
  rfl

theorem pairSet_code (p : PairState) (s : State) : (pairSet p s).get PAIR_STATUS_STATE = p.code := by
  unfold pairSet
  rw [(ownerChanged_fields _ _).get (by decide)]
  exact State.get_put_fits s (by decide) (by cases p <;> decide)

theorem pairSet_pairState (p : PairState) (s : State) : (pairSet p s).pairState = p := by
  unfold State.pairState
  rw [pairSet_code]
  cases p <;> rfl

theorem pairTo_fields (p : PairState) (s : State) : FieldsKept roleFields s (pairTo p s) :=
  (((FieldsKept.refl _ s).put (by decide) 0).trans (pairSet_fields p _)).of_regs rfl

theorem pairTo_pairState (p : PairState) (s : State) : (pairTo p s).pairState = p := pairSet_pairState p _

theorem pairTo_rest (p : PairState) (s : State) : pairTo p s = { s with regs := (pairTo p s).regs, tb := (pairTo p s).tb, pair :=
    { s.pair with hoT := none, hoAsked := false, hoWritten := false } } := by
  unfold pairTo
  dsimp only
  rw [pairSet_rest]
  rfl

/-! ### Towline frames (R565) -/

theorem towlineSend_rest (ty : Nat) (b : List Byte) (s : State) : towlineSend ty b s =
    { s with pair := { s.pair with txSeq := (s.pair.txSeq + 1) % 2 ^ 32 }, ports := (towlineSend ty b s).ports,
             out := (towlineSend ty b s).out } := by
  unfold towlineSend
  dsimp only
  split_ifs <;> rfl

theorem towlineSend_regs (ty : Nat) (b : List Byte) (s : State) : (towlineSend ty b s).regs = s.regs := by rw [towlineSend_rest]

/-- The frame goes out while P65 is UP, and only then. -/
theorem towlineSend_out (ty : Nat) (b : List Byte) (s : State) : (towlineSend ty b s).out =
    if s.portUp 65 then s.out ++ [.towline (towlineFrame s ty s.pair.txSeq b)] else s.out := by
  have hport : State.portUp { s with pair := { s.pair with txSeq := (s.pair.txSeq + 1) % 2 ^ 32 } } 65 = s.portUp 65 := rfl
  unfold towlineSend
  dsimp only
  rw [hport]
  cases s.portUp 65 with
  | true => simp only [Bool.not_true, Bool.false_eq_true, if_false, if_true]; split <;> rfl
  | false => rfl

/-! ### Demotion and major alarms (R576, R602) -/

/-- The fields that a unit's demotion of itself writes. -/
abbrev demoteFields : List Fld := PAIR_EVENT_DEMOTE :: roleFields

theorem selfDemote_fields (cause : Nat) (s : State) : FieldsKept demoteFields s (selfDemote cause s) := by
  have hsent : FieldsKept demoteFields s (towlineSend 6 [BitVec.ofNat 8 cause] s) := (FieldsKept.refl _ s).of_regs (towlineSend_regs _ _ _)
  exact .ite ((hsent.trans ((pairSet_fields _ _).mono (by decide))).put (by decide) 1) (FieldsKept.refl _ s)

theorem selfDemote_rest (cause : Nat) (s : State) : selfDemote cause s = { s with
    regs := (selfDemote cause s).regs, tb := (selfDemote cause s).tb, pair := (selfDemote cause s).pair, ports := (selfDemote cause s).ports,
    out := (selfDemote cause s).out } := by
  unfold selfDemote
  split
  · rw [pairSet_rest, towlineSend_rest]
    rfl
  · rfl

/-- An ACTIVE unit is STANDBY then, and notes it; any other stays as it is. -/
theorem selfDemote_active {cause : Nat} {s : State} (h : s.pairState = .active) :
    (selfDemote cause s).pairState = .standby ∧ (selfDemote cause s).on PAIR_EVENT_DEMOTE = true := by
  unfold selfDemote
  rw [if_pos h]
  exact ⟨(State.pairState_congr (State.get_put_reg _ _ (by decide))).trans (pairSet_pairState _ _), State.on_ev_same _ (by decide) (by decide)⟩

theorem selfDemote_other {cause : Nat} {s : State} (h : s.pairState ≠ .active) : selfDemote cause s = s := if_neg h

/-- The fields that a major alarm writes. -/
abbrev alarmFields : List Fld := ⟨FLT_MAJOR, 0, 32⟩ :: demoteFields

theorem raiseMajor_fields (b : Nat) (s : State) : FieldsKept alarmFields s (raiseMajor b s) := by
  have hbit : FieldsKept alarmFields s (s.putBit FLT_MAJOR_B b true) :=
    (FieldsKept.refl _ s).put_word (g := ⟨FLT_MAJOR_B.reg, FLT_MAJOR_B.lsb + b, 1⟩) List.mem_cons_self _
  exact .ite (hbit.trans ((selfDemote_fields _ _).mono (by decide))) hbit

theorem raiseMajor_rest (b : Nat) (s : State) : raiseMajor b s = { s with
    regs := (raiseMajor b s).regs, tb := (raiseMajor b s).tb, pair := (raiseMajor b s).pair, ports := (raiseMajor b s).ports,
    out := (raiseMajor b s).out } := by
  unfold raiseMajor
  dsimp only
  split
  · rw [selfDemote_rest]
    rfl
  · rfl

/-- A unit that is not ACTIVE raises the alarm and does nothing else. -/
theorem raiseMajor_other {b : Nat} {s : State} (h : s.pairState ≠ .active) : raiseMajor b s = s.putBit FLT_MAJOR_B b true := by
  have hstate : (s.putBit FLT_MAJOR_B b true).pairState = s.pairState := State.pairState_congr (State.get_putBit_reg s true (by decide))
  unfold raiseMajor
  dsimp only
  split
  · exact selfDemote_other (hstate ▸ h)
  · rfl

end Sys2Proof.Machine
end

section
/-!
PROOFS. Calibration passes: what a pass's bookkeeping leaves of the queue and the coefficients, starts that run, wait or are deferred, and
results (R516, R521, R523, R526, R527; that a pass asked for is not asked for again while it runs or is owed is log entry 92).
-/

namespace Sys2Proof.Machine

open Sys2Proof

/-! ### What follows the queue leaves it (R90, R519, R522, R523) -/

/-- The queue, the samplers' offsets and the failures in a row are as they were. -/
structure PassKept (s t : State) : Prop where
  queue : t.cal.queue = s.cal.queue
  offset : t.cal.offset = s.cal.offset
  fails : t.cal.fails = s.cal.fails

theorem PassKept.refl (s : State) : PassKept s s := ⟨rfl, rfl, rfl⟩

theorem outSetCode_cal (n : Nat) (s : State) : (outSetCode n s).cal = s.cal := by
  unfold outSetCode
  dsimp only
  split_ifs <;> rfl

theorem outRelease_cal (n : Nat) (s : State) : (outRelease n s).cal = s.cal := by
  unfold outRelease outStopped
  dsimp only
  split_ifs
  · rfl
  · rfl
  · exact outSetCode_cal n _
  · rfl

theorem State.putWide_cal (s : State) (w : Wide) (v : Nat) : (s.putWide w v).cal = s.cal := by
  unfold State.putWide
  rw [State.putWideFrom_eq]

theorem calApplied_cal (k i : Nat) (s : State) : (calApplied k i s).cal = s.cal := by
  unfold calApplied
  dsimp only
  rw [State.put_cal, State.putB_eq, State.put_cal, State.putWide_cal, State.count_eq, State.put_cal]

theorem eyeRelease_cal (s : State) : (eyeRelease s).cal = s.cal :=
  forEach_keeps (P := fun t => t.cal = s.cal) s rfl fun n t ht => by
    dsimp only
    split
    · exact ht
    · exact ht

namespace PassKept

variable {s t : State} (h : PassKept s t)
include h

theorem of_cal {u : State} (hu : u.cal = t.cal) : PassKept s u := ⟨hu ▸ h.queue, hu ▸ h.offset, hu ▸ h.fails⟩

theorem put (f : Fld) (v : Nat) : PassKept s (t.put f v) := h.of_cal rfl
theorem ev (f : Fld) : PassKept s (t.ev f) := h.of_cal rfl
theorem count (f : Fld) : PassKept s (t.count f) := h.of_cal rfl

omit h in
theorem ite {c : Prop} [Decidable c] {u : State} (h : PassKept s t) (h' : PassKept s u) : PassKept s (if c then t else u) := by
  split
  · exact h
  · exact h'

/-- A table that goes live is the rotator's. -/
theorem outExchange (n : Nat) : PassKept s (outExchange n t) := by
  unfold Machine.outExchange
  split
  · exact h
  next l _ =>
    have hkept : PassKept s { t with cal := { t.cal with rotator := smSet [] t.cal.rotator n l } } := ⟨h.queue, h.offset, h.fails⟩
    exact ite h (hkept.of_cal ((outSetCode_cal n _).trans ((outRelease_cal n _).trans (calApplied_cal 3 n _))))

theorem outUnstale (n : Nat) : PassKept s (outUnstale n t) :=
  ite (ite h (h.outExchange n)) (h.of_cal (outRelease_cal n t))

theorem chanRestart_spare : PassKept s (chanRestart 78 t) := by
  unfold Machine.chanRestart
  dsimp only
  rw [if_neg (by decide)]
  exact h.of_cal rfl

theorem ch78Follow : PassKept s (ch78Follow t) := by
  have hwas : ∀ (c : Prop) [Decidable c] (n : Nat), PassKept s (if c then Machine.outUnstale n t else t) := fun _ _ n =>
    ite (h.outUnstale n) h
  unfold Machine.ch78Follow
  dsimp only
  split
  · exact ite h ((((hwas _ _).put _ 0).put _ 0).put _ 0).chanRestart_spare
  · exact ite h ((((ite ((hwas _ _).put _ 1) (hwas _ _)).put _ 1).put _ _).put _ _)

theorem calFrozen (k i : Nat) : PassKept s (calFrozen k i t) := ite (h.put _ _) h

theorem calSettle (k : Nat) : PassKept s (calSettle k t) := by
  have hput : ∀ l, PassKept s (State.put { t with cal := { t.cal with asked := l } } (CAL_K_STATUS_STATE k) 0) := fun _ =>
    ⟨h.queue, h.offset, h.fails⟩
  exact ite (ite ((hput _).of_cal (eyeRelease_cal _)) (hput _)) h

end PassKept

/-! ### Starts (R521, R523, R527) -/

section
variable {k : Nat} {s : State}

theorem startClass_class (hk : k < 6) : startClass k = k := if_pos (by omega)

theorem served_running (h : Served s) : s.gated = false := by
  have hc := h.2
  simp only [State.clocked, Bool.and_eq_true, Bool.not_eq_true'] at hc
  exact hc.2

theorem calServed_eq (hg : s.gated = false) : calServed s k = s.on (CAL_CFG_EN k) := by
  simp [calServed, hg]

/-- Starts of a class that is disabled, or while the clocks stand, do nothing. -/
theorem calStart_unserved (hk : k < 6) (h : calServed s k = false) : calStart k s = s := by
  unfold calStart
  rw [startClass_class hk]
  exact if_pos (by simp [h])

theorem calStart_begins (hk : k < 6) (h : calServed s k = true) (hw : calWaits s k = false) : calStart k s = calBegin k [k] s := by
  unfold calStart
  rw [startClass_class hk]
  simp only [h, hw, Bool.not_true, Bool.false_eq_true, if_false]

/-- A start that has to wait is owed, once. -/
theorem calStart_waits (hk : k < 6) (h : calServed s k = true) (hw : calWaits s k = true) : calStart k s =
    if k ∈ s.cal.owed then s else { s with cal := { s.cal with owed := s.cal.owed ++ [k] } } := by
  unfold calStart
  rw [startClass_class hk]
  simp only [h, hw, Bool.not_true, Bool.false_eq_true, if_false, if_true, List.contains_iff_mem]

theorem calBegin_deferred (h : s.stage ≠ 0) :
    calBegin k [k] s = calLater [k] ((s.put (CAL_K_STATUS_STATE k) 2).ev CAL_EVENT_DEFERRED) := if_pos h

/-- The eligible instances join the queue. -/
theorem calBegin_queue (hk : k < 6) (h : s.stage = 0) :
    (calBegin k [k] s).cal.queue = s.cal.queue ++ (calInstances s k).map (fun i => (k, i)) := by
  have hes : (([k] : List Nat).map (startTakes s)).flatten = (calInstances s k).map (fun i => (k, i)) := by
    simp [startTakes, show k < 100 by omega]
  unfold calBegin
  rw [if_neg (not_not.2 h), hes]
  dsimp only
  have hfrozen : ∀ (l : List (Nat × Nat)) (t : State), PassKept t (forEach l (fun e s => calFrozen e.1 e.2 s) t) := fun l t =>
    forEach_keeps (P := PassKept t) t (PassKept.refl t) fun e u hu => hu.calFrozen e.1 e.2
  exact (((hfrozen _ _).put _ 1).ch78Follow.calSettle k).queue

theorem calLater_mem : k ∈ (calLater [k] s).cal.later := by
  by_cases h : k ∈ s.cal.later <;> simp [calLater, h]

/-! ### CAL_RUN (R521, log entry 92) -/

/-- It has no effect while a pass it asked for runs or is owed, and where starts are not served. -/
theorem calAsk_unchanged (h : k ∈ s.cal.asked ∨ k ∈ s.cal.askedOwed ∨ s.on (CAL_CFG_EN k) = false ∨ s.gated = true) : calAsk k s = s := by
  refine if_pos ?_
  simp only [calServed, Bool.or_eq_true, List.contains_iff_mem, Bool.not_eq_true', Bool.and_eq_false_iff, Bool.not_eq_false']
  tauto

theorem calAsk_owed (hk : k < 6) (ha : k ∉ s.cal.asked) (ho : k ∉ s.cal.askedOwed) (he : s.on (CAL_CFG_EN k) = true) (hg : s.gated = false)
    (hw : calWaits s k = true) : k ∈ (calAsk k s).cal.owed ∧ k ∈ (calAsk k s).cal.askedOwed ∧ (calAsk k s).regs = s.regs := by
  have hserved : calServed s k = true := (calServed_eq hg).trans he
  have hask : calAsk k s = calStart k { s with cal := { s.cal with askedOwed := s.cal.askedOwed ++ [k] } } := by
    unfold calAsk
    rw [if_neg (by simp [ha, ho, hserved]), if_pos hw]
  have hstart := calStart_waits (s := { s with cal := { s.cal with askedOwed := s.cal.askedOwed ++ [k] } }) hk hserved hw
  rw [hask, hstart]
  split
  next hmem => exact ⟨hmem, by simp, rfl⟩
  next => exact ⟨by simp, by simp, rfl⟩

theorem namesOneWord_calRun (k : Fin 6) : namesOneWord (CAL_RUN k) .CAL_RUN k 0 = true := by
  revert k
  decide +kernel

theorem carried_calRun (k : Fin 6) : (CAL_RUN_V k).carried = true := by
  revert k
  decide +kernel

theorem calRun_stands {m : BusMaster} {k : Fin 6} {v : Word} {s : State} (hw : Writable m (CAL_RUN k) (withField (CAL_RUN_V k) 1 v) s) :
    ∃ R c, Stands m .CAL_RUN k 0 (CAL_RUN k).one (withField (CAL_RUN_V k) 1 v).toNat s R c ∧
      run (busSet m (CAL_RUN_V k) 1 v) s = .next (settle s (calAsk k c)) := by
  obtain ⟨R, c, hst, hv, hrun⟩ := Writable.stands_carried (f := CAL_RUN_V k) hw (namesOneWord_calRun k) (carried_calRun k)
    (by simp [CAL_RUN_V]) (by simp only [CAL_RUN_V, CAL_RUN]; omega) (by decide)
  obtain ⟨-, hid, hi, -, haddr⟩ := hst.who
  have hodd : R.v % 2 = 1 := by simpa [RegWrite.field, haddr, Reg.one, CAL_RUN_V] using hv
  refine ⟨R, c, hst, ?_⟩
  unfold regEffect at hrun
  simpa only [hid, hi, hodd, if_true] using hrun

end

/-! ### Results (R516, R526) -/

section
variable {k i : Nat} {s : State}

/-- A result of another kind, or for an object that is not being measured, takes nothing. -/
theorem calApply_unmeasured {r : CalResult} (h : calKind k r = false ∨ calEntry k i r ∉ s.cal.queue) : calApply k i r s = s := by
  refine if_pos ?_
  simp only [Bool.or_eq_true, Bool.not_eq_true', List.contains_eq_mem, decide_eq_false_iff_not]
  tauto

/-- A sampler's offset within its 32 steps is applied. -/
theorem calApply_offset {v : Int} (hg : s.gated = false) (hq : (4, i) ∈ s.cal.queue) : calApply 4 i (.offset v) s =
    if 32 < v.natAbs then calResult 4 i false s
    else calResult 4 i true (calApplied 4 i { s with cal := { s.cal with offset := smSet 0 s.cal.offset i v } }) := by
  refine if_neg ?_
  simp [calKind, calEntry, hq, hg]

/-- The state in which an object's result has been booked: the object is out of the queue, its failures in a row counted. -/
def resultBooked (k i : Nat) (ok : Bool) (s : State) : State :=
  { s with cal := { s.cal with fails := smSet 0 s.cal.fails (calKey k i) (if ok then 0 else smGet 0 s.cal.fails (calKey k i) + 1),
                               queue := s.cal.queue.filter (fun e => !(e.1 == k && e.2 == i)) } }

theorem calResult_booked (k i : Nat) (ok : Bool) (s : State) : PassKept (resultBooked k i ok s) (calResult k i ok s) := by
  have h := PassKept.refl (resultBooked k i ok s)
  have hfail := ((h.put (CAL_K_STATUS_LAST_RESULT (calClass k)) 2).count (CAL_FAILS_V (calClass k))).ev CAL_EVENT_FAIL
  exact ((PassKept.ite (h.put _ 1) (.ite ((hfail.ev CAL_EVENT_PERSIST).put _ _) hfail)).calFrozen k i).ch78Follow.calSettle _

theorem calResult_shows (k i : Nat) (ok : Bool) (s : State) : (calResult k i ok s).cal.offset = s.cal.offset ∧
    (k, i) ∉ (calResult k i ok s).cal.queue ∧
    smGet 0 (calResult k i ok s).cal.fails (calKey k i) = if ok then 0 else smGet 0 s.cal.fails (calKey k i) + 1 := by
  obtain ⟨hqueue, hoffset, hfails⟩ := calResult_booked k i ok s
  rw [hqueue, hoffset, hfails]
  exact ⟨rfl, by simp [resultBooked], smGet_set_same _ _ _ _⟩

end

end Sys2Proof.Machine
end

section
/-!
PROOFS. Stored data: a clean word scrubbed, the end of a table reload, the sweep of the configuration registers, and the injection's arming
(R546, R552, R553, R554, R558; that ARM acts where it was 0 is log entry 95).
-/

namespace Sys2Proof.Machine

open Sys2Proof

/-! ### A row that sets a field that stood at 0 -/

/-- The write stands, and sets the field. -/
theorem Writable.stands_acts {m : BusMaster} {f : Fld} {v : Word} {s : State} {id : RegId} {i j : Nat}
    (hw : Writable m f.reg (withField f 1 v) s) (hn : namesOneWord f.reg id i j = true) (hc : f.carried = true) (h1 : f.width = 1)
    (hl : f.lsb < 32) (ha : f.reg.addr < 0x026FFFFC) (hid : id ≠ .LDR_HOST_CTRL) (h0 : s.on f = false) :
    ∃ R c, Stands m id i j f.reg.one (withField f 1 v).toNat s R c ∧ R.acts f = true ∧
      run (busSet m f 1 v) s = .next (settle s (regEffect R c)) := by
  obtain ⟨R, c, hst, hv, hrun⟩ := hw.stands_carried hn hc (by omega) ha hid
  have hwas : R.was f = 0 := hst.was_eq.trans (State.on_false.1 h0)
  refine ⟨R, c, hst, ?_, hrun⟩
  unfold RegWrite.acts
  rw [hv, hwas, h1]
  rfl

theorem eccInjArm_stands {m : BusMaster} {v : Word} {s : State} (hw : Writable m ECC_INJ (withField ECC_INJ_ARM 1 v) s)
    (h0 : s.on ECC_INJ_ARM = false) : ∃ R c, Stands m .ECC_INJ 0 0 ECC_INJ.one (withField ECC_INJ_ARM 1 v).toNat s R c ∧
      run (busSet m ECC_INJ_ARM 1 v) s = .next (settle s (c.put ECC_INJ_ARM 1)) := by
  obtain ⟨R, c, hst, hacts, hrun⟩ := Writable.stands_acts (f := ECC_INJ_ARM) (id := .ECC_INJ) (i := 0) (j := 0) hw
    (by decide +kernel) (by decide +kernel) rfl (by decide) (by decide) (by decide) h0
  obtain ⟨-, hid, -, -, -⟩ := hst.who
  refine ⟨R, c, hst, ?_⟩
  unfold regEffect at hrun
  simpa only [hid, hacts, if_true] using hrun

/-! ### The scrubber (R552) -/

section
variable {r a : Nat} {s : State}

theorem scrubWord_off {l : List Flip} {last : Bool} (h : s.on ECC_CTRL_SCRUB_EN = false) : scrubWord r a l last s = s :=
  if_pos (by simp [h])

theorem scrubWord_reads {l : List Flip} {last : Bool} (h : s.on ECC_CTRL_SCRUB_EN = true) (hg : s.gated = false) (hr : eccReady s r = true)
    (hw : r = 0 → (s.buf 0 (a / 256)).written = true) : scrubWord r a l last s = scrubRead r a l last s := by
  unfold scrubWord
  rw [if_neg (by simp [h, hg]), if_neg]
  simp only [hr, Bool.not_true, Bool.false_or, Bool.and_eq_true, beq_iff_eq, Bool.not_eq_true']
  rintro ⟨h0, hnot⟩
  exact Bool.false_ne_true (hnot.symm.trans (hw h0))

/-- Clean bytes are passed over. -/
theorem scrubBytes_clean {l : List Nat} (h : ∀ k ∈ l, s.flipsAt r (a + k) = 0) (b : Bool × Bool) :
    l.foldl (fun (x : (Bool × Bool) × State) k =>
      let y := scrubByte r (a + k) x.2
      ((x.1.1 || y.1.1, x.1.2 || y.1.2), y.2)) (b, s) = (b, s) := by
  induction l with
  | nil => rfl
  | cons k l ih =>
    have hclean : scrubByte r (a + k) s = ((false, false), s) := by
      unfold scrubByte
      rw [h k List.mem_cons_self]
      exact if_pos (by decide)
    simp only [List.foldl_cons, hclean, Bool.or_false]
    exact ih fun j hj => h j (List.mem_cons_of_mem k hj)

/-- A clean word has no more than its run of corrections ended. -/
theorem scrubRead_clean (h0 : r ≠ 0) (hinj : inTables r = true ∨ s.ecc.injected = []) (h : ∀ k < 4, s.flipsAt r (a + k) = 0) :
    scrubRead r a [] false s = { s with ecc := { s.ecc with track := s.ecc.track.filter (fun t => !(t.region == r && t.addr == a)) } } := by
  have hmine : (if r = 0 ∨ inTables r then [] else s.ecc.injected.filter (fun e => e.1 == r && e.2.1 == hwObject r a)) = [] := by
    rcases hinj with hin | hnone
    · rw [if_pos (.inr hin)]
    · rw [hnone]
      exact ite_self _
  have hall : s.ecc.injected.filter (fun e => !([] : List (Nat × Nat × Nat)).contains e) = s.ecc.injected := by simp
  have hfour : (List.range 4 ++ ([] : List Flip).map (fun f => f.byte)).eraseDups = [0, 1, 2, 3] := by decide
  have hbytes := scrubBytes_clean (l := [0, 1, 2, 3]) (fun k hk => h k (by simp at hk; omega)) (false, false)
  unfold scrubRead
  simp only [hmine, hall, hfour, forEach, List.foldl_nil, hbytes, Bool.false_eq_true, if_false, if_neg h0]

end

/-! ### Table reloads (R546) -/

/-- The regions that wait for a reload and the writes held are as they were, and of the registers the armed injection alone differs. -/
structure ReloadKept (s t : State) : Prop where
  reloads : t.ecc.reloads = s.ecc.reloads
  held : t.ecc.held = s.ecc.held

theorem ReloadKept.refl (s : State) : ReloadKept s s := ⟨rfl, rfl⟩

namespace ReloadKept

variable {s t : State} (h : ReloadKept s t)
include h

theorem of_ecc {u : State} (hu : u.ecc = t.ecc) : ReloadKept s u := ⟨hu ▸ h.reloads, hu ▸ h.held⟩

theorem setFlips (r a m : Nat) : ReloadKept s (t.setFlips r a m) := ⟨h.reloads, h.held⟩

theorem storeLE (a n v : Nat) : ReloadKept s (t.storeLE a n v) := by
  induction n generalizing t a v with
  | zero => exact h
  | succ n ih =>
    unfold State.storeLE
    exact ih (t := t.setByte a (BitVec.ofNat 8 v)) (h.of_ecc rfl) _ _

theorem eccWritten (r a n : Nat) : ReloadKept s (eccWritten r a n t) := by
  have hbits : ReloadKept s (if t.ecc.flips.isEmpty then t
      else (List.range n).foldl (fun (u : State) k => u.setFlips r (a + k) 0) t) := by
    split
    · exact h
    · exact forEach_keeps (P := ReloadKept s) (g := fun k u => u.setFlips r (a + k) 0) t h fun _ _ hu => hu.setFlips _ _ _
  unfold Machine.eccWritten
  dsimp only
  generalize (if t.ecc.flips.isEmpty then t
    else (List.range n).foldl (fun (u : State) k => u.setFlips r (a + k) 0) t) = u at hbits ⊢
  split
  · exact ⟨hbits.reloads, hbits.held⟩
  · exact ⟨hbits.reloads, hbits.held⟩

theorem setBytesLE (a n v : Nat) : ReloadKept s (t.setBytesLE a n v) := by
  unfold State.setBytesLE
  split
  · exact h.storeLE a n v
  · split
    · exact h
    · exact (h.storeLE a n v).eccWritten _ _ _

theorem bytesTaken (a be v : Nat) (l : List Nat) : ReloadKept s (bytesTaken a be v l t) :=
  forEach_keeps (P := ReloadKept s) (g := fun k u => if be.testBit k then u.setBytesLE (a + k) 1 (v / 256 ^ k) else u) t h fun k u hu => by
    split
    · exact hu.setBytesLE _ _ _
    · exact hu

theorem tableStore (a be v : Nat) : ReloadKept s (tableStore a be v t) := by
  have hb : ReloadKept s (Machine.bytesTaken a be v (List.range 4) t) := h.bytesTaken a be v _
  unfold Machine.tableStore
  dsimp only
  split
  · exact hb.setBytesLE _ 4 _
  · split
    · exact hb.of_ecc (State.setMeter_ecc _ _ _)
    · exact hb

theorem tableLoad (a v : Nat) : ReloadKept s (tableLoad a v t) := by
  unfold Machine.tableLoad
  split
  · exact h
  · dsimp only
    split
    · exact h
    · exact h.tableStore _ _ _

theorem tableRecords (n : Nat) (b : List Byte) : ReloadKept s (tableRecords n b t) := by
  induction n generalizing t b with
  | zero => exact h
  | succ n ih =>
    unfold Machine.tableRecords
    dsimp only
    split
    · exact h
    · exact ih (forEach_keeps (P := ReloadKept s) t h fun x u hu => hu.tableLoad _ _) _

theorem sectionsReload (l : List SecRec) (bs : List (List Byte)) : ReloadKept s (sectionsReload l bs t).2 := by
  induction l generalizing t bs with
  | nil => exact h
  | cons x l ih =>
    cases bs with
    | nil => exact h
    | cons b bs =>
      unfold Machine.sectionsReload
      split
      · exact h
      · exact ih (h.tableRecords _ _) bs

end ReloadKept

/-- A section of another length than its record's, or whose CRC does not match, ends the reload. -/
theorem sectionsReload_bad {x : SecRec} {l : List SecRec} {b : List Byte} {bs : List (List Byte)} {s : State}
    (h : b.length ≠ x.length ∨ (crc32 b).toNat ≠ x.crc) : sectionsReload (x :: l) (b :: bs) s = (false, s) := if_pos h

theorem raiseMajor_ecc (b : Nat) (s : State) : (raiseMajor b s).ecc = s.ecc := by rw [raiseMajor_rest]

theorem heldApply_none {r : Nat} {s : State} (h : s.ecc.held = []) : heldApply r s = s := by
  have hecc : { s.ecc with held := [] } = s.ecc := by rw [← h]
  simp [heldApply, h, forEach, hecc]

/-- The sections of the region that waits longest are read again. -/
def sectionsRead (r : Nat) (l : List (List Byte)) (s : State) : Bool × State :=
  sectionsReload (smGet [] s.ecc.dir r) l { s with ecc := { s.ecc with reloads := [] } }

/-- The end of a reload where no other waits and no write is held. -/
def reloadEnded (r : Nat) (l : List (List Byte)) (s : State) : State :=
  let u := (sectionsRead r l s).2.put (ECC_REG_RELOADING r) 0
  if (sectionsRead r l s).1 then u.ev ECC_EVENT_RELOAD else raiseMajor 8 ((u.ev ECC_EVENT_RELOAD_FAIL).put (ECC_REG_BACKED r) 0)

theorem reloadEnded_kept {r : Nat} {l : List (List Byte)} {s : State} :
    ReloadKept { s with ecc := { s.ecc with reloads := [] } } (reloadEnded r l s) := by
  have hread := (ReloadKept.refl { s with ecc := { s.ecc with reloads := [] } }).sectionsReload (smGet [] s.ecc.dir r) l
  unfold reloadEnded
  dsimp only
  split
  · exact hread.of_ecc rfl
  · exact hread.of_ecc (raiseMajor_ecc 8 _)

theorem tableReloadDone_one {r : Nat} {l : List (List Byte)} {s : State} (hr : s.ecc.reloads = [r]) (hh : s.ecc.held = []) :
    tableReloadDone l s = reloadEnded r l s := by
  have hheld : heldApply r (reloadEnded r l s) = reloadEnded r l s := heldApply_none (reloadEnded_kept.held.trans hh)
  refine Eq.trans ?_ hheld
  unfold tableReloadDone
  rw [hr]
  rfl

/-- RELOADING clears, and the outcome is noted. -/
theorem reloadEnded_shows (r : Fin 16) (l : List (List Byte)) (s : State) : (reloadEnded r l s).on (ECC_REG_RELOADING r) = false ∧
    (reloadEnded r l s).on (if (sectionsRead r l s).1 then ECC_EVENT_RELOAD else ECC_EVENT_RELOAD_FAIL) = true := by
  have hfree : (ECC_REG_RELOADING r).clearOf [ECC_EVENT_RELOAD, ECC_EVENT_RELOAD_FAIL, ECC_REG_BACKED r] = true ∧
      (ECC_REG_RELOADING r).clearOf alarmFields = true ∧ ECC_EVENT_RELOAD_FAIL.clearOf [ECC_REG_BACKED r] = true := by
    revert r
    decide
  obtain ⟨hnote, halarm, hbacked⟩ := hfree
  have hoff : ((sectionsRead r l s).2.put (ECC_REG_RELOADING r) 0).on (ECC_REG_RELOADING r) = false :=
    State.on_put_same _ (by simp [ECC_REG_RELOADING]) (by simp [ECC_REG_RELOADING])
  unfold reloadEnded
  dsimp only
  generalize (sectionsRead r l s).2.put (ECC_REG_RELOADING r) 0 = u at hoff ⊢
  have hkept := FieldsKept.refl [ECC_EVENT_RELOAD, ECC_EVENT_RELOAD_FAIL, ECC_REG_BACKED r] u
  cases (sectionsRead r l s).1 with
  | true => exact ⟨((hkept.put (g := ECC_EVENT_RELOAD) (by simp) 1).on hnote).trans hoff, State.on_ev_same _ (by decide) (by decide)⟩
  | false =>
    have hput := (hkept.put (g := ECC_EVENT_RELOAD_FAIL) (by simp) 1).put (g := ECC_REG_BACKED r) (by simp) 0
    refine ⟨((raiseMajor_fields 8 _).on halarm).trans ((hput.on hnote).trans hoff), ((raiseMajor_fields 8 _).on (by decide)).trans ?_⟩
    exact (((FieldsKept.refl [ECC_REG_BACKED r] _).put (by simp) 0).on hbacked).trans (State.on_ev_same _ (by decide) (by decide))

/-! ### The sweep of the configuration registers (R553, R554) -/

section
variable {s : State}

theorem cfgSweep_nothing (hu : s.ecc.upsets = []) (hs : s.ecc.shadow = []) : cfgSweep [] s = s := by
  have hnone : upsetBlocks s = [] := by
    unfold upsetBlocks
    rw [hu, hs]
    rfl
  unfold cfgSweep
  simp only [forEach, List.foldl_nil, hnone, ite_self]

theorem cfgSweep_unchecked {l : List CfgUpset} (h : (forEach l upsetTake s).on ECC_CTRL_CFG_CHECK_EN = false) :
    cfgSweep l s = forEach l upsetTake s := if_pos (by simp [h])

theorem cfgSweep_checked {l : List CfgUpset} (h : (forEach l upsetTake s).on ECC_CTRL_CFG_CHECK_EN = true)
    (hg : (forEach l upsetTake s).gated = false) :
    cfgSweep l s = forEach (upsetBlocks (forEach l upsetTake s)) cfgMismatch (forEach l upsetTake s) := if_neg (by simp [h, hg])

/-- A block that does not match is recorded: first what stands recorded in any case. -/
def mismatchNoted (b : Nat) (s : State) : State :=
  let u := ((s.ev ECC_EVENT_CFG_UPSET).put ECC_CFG_STATUS_BASE b).ev ECC_CFG_STATUS_VALID
  State.ev { u with pair := { u.pair with lastUpset := some u.now } } PAIR_EVENT_SELFTEST_FAIL

/-- The fields it is recorded in. -/
abbrev mismatchFields : List Fld := [ECC_EVENT_CFG_UPSET, ECC_CFG_STATUS_BASE, ECC_CFG_STATUS_VALID, PAIR_EVENT_SELFTEST_FAIL]

theorem mismatchNoted_fields (b : Nat) (s : State) : FieldsKept mismatchFields s (mismatchNoted b s) :=
  (((((FieldsKept.refl _ s).put (by decide) 1).put (by decide) b).put (by decide) 1).of_regs rfl).put (by decide) 1

theorem mismatchNoted_shows (b : Fin 4096) (s : State) : (mismatchNoted b s).on ECC_EVENT_CFG_UPSET = true ∧
    (mismatchNoted b s).get ECC_CFG_STATUS_BASE = b ∧ (mismatchNoted b s).on ECC_CFG_STATUS_VALID = true := by
  have hnoted : FieldsKept [PAIR_EVENT_SELFTEST_FAIL] (((s.ev ECC_EVENT_CFG_UPSET).put ECC_CFG_STATUS_BASE b).ev ECC_CFG_STATUS_VALID)
      (mismatchNoted b s) := ((FieldsKept.refl _ _).of_regs rfl).put (by decide) 1
  have hvalid := (FieldsKept.refl [ECC_CFG_STATUS_VALID] ((s.ev ECC_EVENT_CFG_UPSET).put ECC_CFG_STATUS_BASE b)).put
    (g := ECC_CFG_STATUS_VALID) (by decide) 1
  have hbase := (FieldsKept.refl [ECC_CFG_STATUS_BASE] (s.ev ECC_EVENT_CFG_UPSET)).put (g := ECC_CFG_STATUS_BASE) (by decide) b
  refine ⟨?_, ?_, ?_⟩
  · exact (hnoted.on (by decide)).trans ((hvalid.on (by decide)).trans ((hbase.on (by decide)).trans
      (State.on_ev_same _ (by decide) (by decide))))
  · exact (hnoted.get (by decide)).trans ((hvalid.get (by decide)).trans (State.get_put_fits _ (by decide) b.isLt))
  · exact (hnoted.on (by decide)).trans (State.on_ev_same _ (by decide) (by decide))

/-- With CFG_RELOAD = 0 it raises a major alarm; else an escalation is due, but in a block already met in the reload under way. -/
theorem cfgMismatch_eq (b : Nat) (s : State) : cfgMismatch b s =
    if s.on ECC_CTRL_CFG_RELOAD = false then raiseMajor 9 (mismatchNoted b s)
    else if s.ldr.reload = true ∧ b ∈ s.ecc.met then mismatchNoted b s
    else { mismatchNoted b s with ecc := { s.ecc with met := b :: s.ecc.met.filter (fun x => x != b) }, escDue := s.escDue + 1 } := by
  have hon : (mismatchNoted b s).on ECC_CTRL_CFG_RELOAD = s.on ECC_CTRL_CFG_RELOAD := (mismatchNoted_fields b s).on (by decide)
  unfold cfgMismatch
  change (if (!(mismatchNoted b s).on ECC_CTRL_CFG_RELOAD) = true then _ else if (s.ldr.reload && s.ecc.met.contains b) = true then _ else _) = _
  simp only [hon, Bool.not_eq_true', Bool.and_eq_true, List.contains_iff_mem]
  rfl

theorem cfgMismatch_shows (b : Fin 4096) (s : State) : (cfgMismatch b s).on ECC_EVENT_CFG_UPSET = true ∧
    (cfgMismatch b s).get ECC_CFG_STATUS_BASE = b ∧ (cfgMismatch b s).on ECC_CFG_STATUS_VALID = true ∧
    (s.on ECC_CTRL_CFG_RELOAD = true → (s.ldr.reload = false ∨ b.val ∉ s.ecc.met) →
      (cfgMismatch b s).escDue = s.escDue + 1 ∧ b.val ∈ (cfgMismatch b s).ecc.met) := by
  obtain ⟨hev, hbase, hvalid⟩ := mismatchNoted_shows b s
  have halarm := raiseMajor_fields 9 (mismatchNoted b s)
  rw [cfgMismatch_eq]
  split
  next hoff =>
    exact ⟨(halarm.on (by decide)).trans hev, (halarm.get (by decide)).trans hbase, (halarm.on (by decide)).trans hvalid,
      fun hon => absurd (hoff.symm.trans hon) Bool.false_ne_true⟩
  · split
    next hmet =>
      refine ⟨hev, hbase, hvalid, fun _ h => ?_⟩
      rcases h with h | h
      · exact absurd (h.symm.trans hmet.1) Bool.false_ne_true
      · exact absurd hmet.2 h
    next => exact ⟨hev, hbase, hvalid, fun _ _ => ⟨rfl, List.mem_cons_self⟩⟩

end

/-- Settles O49: each row is the block's own step, by the case its conditions name. -/
theorem calibrationAndStoredDataCommands : Obligations.CalibrationAndStoredDataCommands := by
  refine ⟨fun k s hs he => timed_eq hs (calStart_unserved k.isLt ((calServed_eq (served_running hs)).trans he)),
    fun k s hs he hw hst => timed_eq hs ((calStart_begins k.isLt ((calServed_eq (served_running hs)).trans he) hw).trans (calBegin_deferred hst)),
    fun k s => ⟨calLater_mem, rfl, rfl⟩,
    fun k s hs he hw _ => timed_eq hs (calStart_begins k.isLt ((calServed_eq (served_running hs)).trans he) hw),
    fun k s hst => calBegin_queue k.isLt hst,
    fun k s hs he hw ho => timed_eq hs ((calStart_waits k.isLt ((calServed_eq (served_running hs)).trans he) hw).trans (if_neg ho)),
    fun k s hs he hw ho => timed_eq hs ((calStart_waits k.isLt ((calServed_eq (served_running hs)).trans he) hw).trans (if_pos ho)),
    fun m k v s hw => calRun_stands hw, fun k s h => calAsk_unchanged h,
    fun k s ha ho he hg hw => calAsk_owed k.isLt ha ho he hg hw,
    fun k i r s hs h => timed_eq hs (calApply_unmeasured h),
    fun i v s hs hq hv => timed_eq hs ((calApply_offset (served_running hs) hq).trans (if_neg (by omega))),
    fun i v s hs hq hv => timed_eq hs ((calApply_offset (served_running hs) hq).trans (if_pos hv)),
    fun k i ok s => calResult_shows k i ok s,
    fun r a l last s hs he => timed_eq hs (scrubWord_off he),
    fun r a l last s hs he hr hw => timed_eq hs (scrubWord_reads he (served_running hs) hr fun h0 => hw (Fin.ext h0)),
    fun r a s h0 hinj h => ?_,
    fun l s hs hr => timed_eq hs ?_,
    fun l s hs => timed_eq hs rfl, fun l r s hr hh => ?_,
    fun x t b bs s h => ⟨congrArg Prod.fst (sectionsReload_bad h), sectionsReload_bad h⟩,
    fun s hs hu hsh => run_eq hs.1 (cfgSweep_nothing hu hsh),
    fun l s hs h => run_eq hs.1 (cfgSweep_unchecked h), fun l s hs h hg => run_eq hs.1 (cfgSweep_checked h hg),
    fun b s => cfgMismatch_shows b s, fun m v s hw h0 => eccInjArm_stands hw h0⟩
  · rw [scrubRead_clean (fun h => h0 (Fin.ext h)) hinj h]
    exact ⟨rfl, rfl, rfl⟩
  · unfold tableReloadDone
    rw [hr]
  · rw [tableReloadDone_one hr hh]
    exact ⟨reloadEnded_kept.reloads, reloadEnded_shows r l s⟩

end Sys2Proof.Machine
end

section
/-!
PROOFS. The pair: commitment, mate failure and the takeover, health reports and DEMOTE (R562 to R569, R576, R577; which reports count as bad and
which as missed is log entry 97).
-/

namespace Sys2Proof.Machine

open Sys2Proof

/-! ### The takeover (R577, R578) -/

/-- Of the registers the armed injection alone differs, and of the pair's record what waits for numbers. -/
structure NumberKept (s t : State) : Prop where
  fields : FieldsKept [ECC_INJ_ARM] s t
  pair : t.pair = { s.pair with waits := t.pair.waits, got := t.pair.got, closing := t.pair.closing }

theorem NumberKept.refl (s : State) : NumberKept s s := ⟨FieldsKept.refl _ s, rfl⟩

namespace NumberKept

variable {s t : State} (h : NumberKept s t)
include h

theorem of_eq {u : State} (hr : u.regs = t.regs) (hp : u.pair = { t.pair with waits := u.pair.waits, got := u.pair.got, closing := u.pair.closing }) :
    NumberKept s u := ⟨h.fields.of_regs hr, by rw [hp, h.pair]⟩

theorem setTbits (a lsb width v : Nat) : NumberKept s (t.setTbits a lsb width v) :=
  State.setBytesLE_keeps (P := NumberKept s) h (fun _ _ _ hu => hu.of_eq rfl rfl) (fun _ _ _ hu => hu.of_eq rfl rfl)
    (fun _ hu => ⟨hu.fields.put List.mem_cons_self 0, hu.pair⟩) a 4 _

theorem numberWaiting (n : Nat) : NumberKept s (numberWaiting n t) :=
  forEach_keeps (P := NumberKept s) t h fun _ _ hu => (hu.setTbits _ _ _ _).of_eq rfl rfl

theorem takeOver : NumberKept s (takeOver t) :=
  (forEach_keeps (P := NumberKept s) t h fun n _ hu => (hu.setTbits _ _ _ _).numberWaiting n).of_eq rfl rfl

end NumberKept

/-! ### Mate failure (R568, R569) -/

/-- The fields of the handover's action that its end writes. -/
abbrev actionFields : List Fld := [SCH_ACT_CTRL_ARM 63, SCH_ACT_STATUS_RESULT 63]

theorem disarm63_fields (s : State) : FieldsKept actionFields s (disarm63 s) :=
  .ite (((FieldsKept.refl _ s).put (by decide) 0).put (by decide) 0) (FieldsKept.refl _ s)

theorem disarm63_pair (s : State) : (disarm63 s).pair = s.pair := by
  unfold disarm63
  split <;> rfl

theorem fail63_fields (s : State) : FieldsKept actionFields s (fail63 s) :=
  .ite ((disarm63_fields s).put (by decide) 5) (disarm63_fields s)

theorem fail63_pair (s : State) : (fail63 s).pair = s.pair := by
  unfold fail63
  dsimp only
  split <;> exact disarm63_pair s

/-- What mate failure does before the state is taken: its action ends, and a unit that did not carry takes over. -/
def failTaken (was : PairState) (s : State) : State :=
  let u := if was = .handover then fail63 s else s
  if was = .active then u else takeOver u

theorem failTaken_kept (was : PairState) (s : State) : FieldsKept (ECC_INJ_ARM :: actionFields) s (failTaken was s) ∧
    (failTaken was s).pair = { s.pair with
      waits := (failTaken was s).pair.waits, got := (failTaken was s).pair.got, closing := (failTaken was s).pair.closing } := by
  have hfail : FieldsKept (ECC_INJ_ARM :: actionFields) s (if was = .handover then fail63 s else s) :=
    .ite ((fail63_fields s).mono (by decide)) (FieldsKept.refl _ s)
  have hpair : (if was = .handover then fail63 s else s).pair = s.pair := by
    split
    · exact fail63_pair s
    · rfl
  unfold failTaken
  dsimp only
  generalize (if was = .handover then fail63 s else s) = u at hfail hpair ⊢
  split
  · exact ⟨hfail, by rw [hpair]⟩
  · have ht := (NumberKept.refl u).takeOver
    refine ⟨hfail.trans (ht.fields.mono (by decide)), ?_⟩
    rw [← hpair]
    exact ht.pair

theorem enterMateFailed_eq (s : State) :
    enterMateFailed s = pairTo .mateFailed (failTaken s.pairState ((s.count PAIR_CNT3_TAKEOVERS).ev PAIR_EVENT_MATE_FAIL)) := rfl

/-- The fields that entry to MATE_FAILED writes. -/
abbrev failureFields : List Fld := PAIR_CNT3_TAKEOVERS :: PAIR_EVENT_MATE_FAIL :: ECC_INJ_ARM :: (actionFields ++ roleFields)

theorem enterMateFailed_fields (s : State) : FieldsKept failureFields s (enterMateFailed s) := by
  have hnoted : FieldsKept failureFields s ((s.count PAIR_CNT3_TAKEOVERS).ev PAIR_EVENT_MATE_FAIL) :=
    ((FieldsKept.refl _ s).put (by decide) _).put (by decide) 1
  exact (hnoted.trans ((failTaken_kept _ _).1.mono (by decide))).trans ((pairTo_fields _ _).mono (by decide))

/-- It counts as a takeover. -/
theorem enterMateFailed_shows (s : State) : (enterMateFailed s).pairState = .mateFailed ∧ (enterMateFailed s).on PAIR_EVENT_MATE_FAIL = true ∧
    (enterMateFailed s).get PAIR_CNT3_TAKEOVERS = (s.get PAIR_CNT3_TAKEOVERS + 1) % 2 ^ 16 ∧
    (enterMateFailed s).pair.failed = s.pair.failed ∧ (enterMateFailed s).pair.missed = s.pair.missed := by
  obtain ⟨htaken, hpair⟩ := failTaken_kept s.pairState ((s.count PAIR_CNT3_TAKEOVERS).ev PAIR_EVENT_MATE_FAIL)
  rw [enterMateFailed_eq]
  generalize hu : failTaken s.pairState ((s.count PAIR_CNT3_TAKEOVERS).ev PAIR_EVENT_MATE_FAIL) = u at htaken hpair ⊢
  have hto := pairTo_fields .mateFailed u
  refine ⟨pairTo_pairState _ u, ?_, ?_, ?_, ?_⟩
  · exact (hto.on (by decide)).trans ((htaken.on (by decide)).trans (State.on_ev_same _ (by decide) (by decide)))
  · exact (hto.get (by decide)).trans ((htaken.get (by decide)).trans
      ((State.get_put_reg _ _ (by decide)).trans (State.get_count_same s _ 1 (by decide))))
  · rw [pairTo_rest, hpair]
    rfl
  · rw [pairTo_rest, hpair]
    rfl

theorem mateFailure_unchanged {s : State} (h : s.pair.failed = true ∨ s.pairState = .solo) : mateFailure s = s := by
  refine if_pos ?_
  simpa using h

/-- Mate failure is declared once: the pair is MATE_FAILED then. -/
theorem mateFailure_declared {s : State} (hf : s.pair.failed = false) (h0 : s.pairState ≠ .solo) :
    mateFailure s = if s.pairState = .mateFailed then { s with pair := { s.pair with failed := true } }
      else enterMateFailed { s with pair := { s.pair with failed := true } } := by
  unfold mateFailure
  rw [if_neg (by simp [hf, h0])]
  rfl

/-! ### MATE_ALIVE_IN (R564, R568) -/

section
variable {s : State}

theorem mateAlive_pairState (v : Nat) (s : State) : (s.put PAIR_STATUS_MATE_ALIVE v).pairState = s.pairState :=
  State.pairState_congr (State.get_put_apart s v (.inr (by decide)))

theorem mateAliveLost_known (h : s.pair.failed = true ∨ s.pairState = .solo) : mateAliveLost s = s.put PAIR_STATUS_MATE_ALIVE 0 :=
  mateFailure_unchanged (h.imp id fun h0 => (mateAlive_pairState 0 s).trans h0)

theorem mateAliveLost_shows (hf : s.pair.failed = false) (h0 : s.pairState ≠ .solo) (h4 : s.pairState ≠ .mateFailed) :
    (mateAliveLost s).on PAIR_STATUS_MATE_ALIVE = false ∧ (mateAliveLost s).pairState = .mateFailed ∧
      (mateAliveLost s).on PAIR_EVENT_MATE_FAIL = true ∧
      (mateAliveLost s).get PAIR_CNT3_TAKEOVERS = (s.get PAIR_CNT3_TAKEOVERS + 1) % 2 ^ 16 ∧ (mateAliveLost s).pair.failed = true := by
  have hstate := mateAlive_pairState 0 s
  have hlost : mateAliveLost s = enterMateFailed { s.put PAIR_STATUS_MATE_ALIVE 0 with pair := { s.pair with failed := true } } :=
    (mateFailure_declared (s := s.put PAIR_STATUS_MATE_ALIVE 0) hf (hstate ▸ h0)).trans (if_neg (hstate ▸ h4))
  obtain ⟨hfailed, hev, hcount, hpair, -⟩ := enterMateFailed_shows { s.put PAIR_STATUS_MATE_ALIVE 0 with pair := { s.pair with failed := true } }
  rw [hlost]
  refine ⟨((enterMateFailed_fields _).on (by decide)).trans ?_, hfailed, hev, hcount.trans ?_, hpair⟩
  · exact State.on_put_same s (f := PAIR_STATUS_MATE_ALIVE) (v := 0) (by decide) (by decide)
  · have hkept : State.get { s.put PAIR_STATUS_MATE_ALIVE 0 with pair := { s.pair with failed := true } } PAIR_CNT3_TAKEOVERS =
        s.get PAIR_CNT3_TAKEOVERS := State.get_put_reg (g := PAIR_STATUS_MATE_ALIVE) s 0 (by decide)
    rw [hkept]

end

/-! ### Commitment (R562, R569) -/

theorem namesOneWord_pairCtrl : namesOneWord PAIR_CTRL .PAIR_CTRL 0 0 = true := by decide +kernel

theorem plain_pairCtrlEn : PAIR_CTRL_EN.plain = true := by decide +kernel

theorem pairWritten_stands {m : BusMaster} {x : Nat} {v : Word} {s : State} (hw : Writable m PAIR_CTRL (withField PAIR_CTRL_EN x v) s) :
    ∃ R c, Stands m .PAIR_CTRL 0 0 PAIR_CTRL.one (withField PAIR_CTRL_EN x v).toNat s R c ∧ R.now PAIR_CTRL_EN = x % 2 ∧
      run (busSet m PAIR_CTRL_EN x v) s = .next (settle s (pairWritten R c)) := by
  obtain ⟨R, c, hst, hnow, hrun⟩ := Writable.stands_field (f := PAIR_CTRL_EN) (id := .PAIR_CTRL) hw namesOneWord_pairCtrl plain_pairCtrlEn rfl
    (by decide) (by decide) (by decide)
  obtain ⟨-, hid, -, -, -⟩ := hst.who
  refine ⟨R, c, hst, hnow, ?_⟩
  unfold regEffect at hrun
  simpa only [hid] using hrun

section
variable {s : State}

/-- The causes of R562 fit REFUSED. -/
theorem pairRefusal_lt (s : State) : (pairRefusal s).1 < 2 ^ 4 := by
  unfold pairRefusal
  dsimp only
  split_ifs <;> decide

theorem pairEnable_refused (h0 : s.pairState = .solo) (hr : (pairRefusal s).1 ≠ 0) : pairEnable s =
    ((modeErrs ((pairRefusal s).2.map (fun c => (c, 6, 0))) s).put PAIR_CTRL_EN 0).put PAIR_STATUS_REFUSED (pairRefusal s).1 := by
  unfold pairEnable
  rw [if_neg (not_not.2 h0)]
  exact if_neg hr

theorem pairEnable_refused_shows (h0 : s.pairState = .solo) (hr : (pairRefusal s).1 ≠ 0) : (pairEnable s).pairState = .solo ∧
    (pairEnable s).on PAIR_CTRL_EN = false ∧ (pairEnable s).get PAIR_STATUS_REFUSED = (pairRefusal s).1 := by
  rw [pairEnable_refused h0 hr]
  refine ⟨(State.pairState_congr ?_).trans h0, ?_, State.get_put_fits _ (by decide) (pairRefusal_lt s)⟩
  · rw [State.get_put_apart _ _ (.inr (by decide)), State.get_put_reg _ _ (by decide), modeErrs_get_other (by decide)]
  · rw [State.on_false, State.get_put_reg _ _ (by decide), ← State.on_false]
    exact State.on_put_same _ (by decide) (by decide)

theorem pairEnable_committed (h0 : s.pairState = .solo) (hr : (pairRefusal s).1 = 0) : (pairEnable s).pairState = .standby ∧
    (pairEnable s).on PAIR_CTRL_EN = true ∧ (pairEnable s).get PAIR_STATUS_REFUSED = 0 ∧ (pairEnable s).pair.lastValid = none := by
  have hto : ∃ t : State, pairEnable s = pairTo .standby ((t.put PAIR_CTRL_EN 1).put PAIR_STATUS_REFUSED 0) ∧ t.pair.lastValid = none := by
    refine ⟨{ s with pair := { s.pair with lastValid := none, failed := false, missed := 0, clash := false } }, ?_, rfl⟩
    unfold pairEnable
    rw [if_neg (not_not.2 h0)]
    exact if_pos hr
  obtain ⟨t, he, hlast⟩ := hto
  have hkept := pairTo_fields .standby ((t.put PAIR_CTRL_EN 1).put PAIR_STATUS_REFUSED 0)
  rw [he]
  refine ⟨pairTo_pairState _ _, (hkept.on (by decide)).trans ?_, (hkept.get (by decide)).trans (State.get_put_same _ _ _ (by decide)), ?_⟩
  · rw [State.on_true, State.get_put_reg _ _ (by decide), State.get_put_same _ _ _ (by decide)]
    decide
  · rw [pairTo_rest]
    exact hlast

theorem pairDisable_shows (s : State) : (pairDisable s).pairState = .solo ∧ (pairDisable s).on PAIR_CTRL_EN = false := by
  have hoff : (s.put PAIR_CTRL_EN 0).on PAIR_CTRL_EN = false := State.on_put_same s (by decide) (by decide)
  unfold pairDisable
  dsimp only
  generalize s.put PAIR_CTRL_EN 0 = u at hoff ⊢
  split
  next h0 => exact ⟨h0, hoff⟩
  next =>
    have hkept : FieldsKept actionFields u (if u.pairState = .handover then disarm63 u else u) :=
      .ite (disarm63_fields u) (FieldsKept.refl _ u)
    exact ⟨pairTo_pairState _ _, ((pairTo_fields _ _).on (by decide)).trans ((hkept.on (by decide)).trans hoff)⟩

end

end Sys2Proof.Machine
end

section
/-!
PROOFS. Health reports, their absence, and DEMOTE (R565 to R569; log entry 97).
-/

namespace Sys2Proof.Machine

open Sys2Proof

/-! ### Bytes of numbers -/

theorem length_leBytes (n v : Nat) : (leBytes n v).length = n := by
  induction n generalizing v with
  | zero => rfl
  | succ n ih => exact congrArg (· + 1) (ih _)

theorem natLE_lt (l : List Byte) : natLE l < 2 ^ (8 * l.length) := by
  induction l with
  | nil => decide
  | cons b t ih =>
    have hb := b.isLt
    have hpow : 2 ^ (8 * (b :: t).length) = 256 * 2 ^ (8 * t.length) := by
      rw [List.length_cons, Nat.mul_add, Nat.mul_one, Nat.pow_add, Nat.mul_comm]
    simp only [natLE]
    omega

/-! ### Reports sent (R566) -/

theorem healthReport_length (s : State) : (healthReport s).length = 64 := by
  unfold healthReport
  simp only [List.length_append, length_leBytes]

theorem healthSend_solo {s : State} (h : s.pairState = .solo) : healthSend s = s := if_pos h

theorem healthSend_shows {s : State} (h : s.pairState ≠ .solo) : (healthSend s).pair.repSeq = (s.pair.repSeq + 1) % 2 ^ 32 ∧
    (healthSend s).pair.worstDev = 0 ∧ (healthSend s).regs = s.regs ∧
    (s.portUp 65 = true → (healthSend s).out = s.out ++ [.towline (towlineFrame s 1 s.pair.txSeq (healthReport s))]) ∧
    (s.portUp 65 = false → (healthSend s).out = s.out) := by
  have hsend : healthSend s = towlineSend 1 (healthReport s)
      { s with pair := { s.pair with repSeq := (s.pair.repSeq + 1) % 2 ^ 32, worstDev := 0 } } := if_neg h
  have hout := towlineSend_out 1 (healthReport s) { s with pair := { s.pair with repSeq := (s.pair.repSeq + 1) % 2 ^ 32, worstDev := 0 } }
  rw [hsend]
  refine ⟨by rw [towlineSend_rest], by rw [towlineSend_rest], towlineSend_regs _ _ _, fun hup => hout.trans (if_pos hup),
    fun hup => hout.trans (if_neg (by rw [← Bool.not_eq_true] at hup; exact hup))⟩

/-! ### Reports received (R565, R566, R569) -/

section
variable {s : State}

theorem healthRx_misfit {b : List Byte} (h : b.length ≠ 64) : healthRx b s = s.count PAIR_CNT1_REPORTS_BAD := if_pos h

theorem healthRx_crc {b : List Byte} (h : b.length = 64) (hc : natLE (b.drop 60) ≠ (crc32 (b.take 60)).toNat) :
    (healthRx b s).pairState = s.pairState ∧
    (healthRx b s).get PAIR_CNT1_REPORTS_BAD = (s.get PAIR_CNT1_REPORTS_BAD + 1) % 2 ^ 16 ∧
    (healthRx b s).get PAIR_CNT1_REPORTS_MISSED = (s.get PAIR_CNT1_REPORTS_MISSED + 1) % 2 ^ 16 := by
  have hrx : healthRx b s = (State.count { s with pair := { s.pair with missed := min 3 (s.pair.missed + 1) } } PAIR_CNT1_REPORTS_BAD).count
      PAIR_CNT1_REPORTS_MISSED := (if_neg (not_not.2 h)).trans (if_pos hc)
  rw [hrx]
  generalize hu : ({ s with pair := { s.pair with missed := min 3 (s.pair.missed + 1) } } : State) = u
  have hget : ∀ f : Fld, u.get f = s.get f := fun f => by rw [← hu]; rfl
  rw [← hget PAIR_CNT1_REPORTS_BAD, ← hget PAIR_CNT1_REPORTS_MISSED]
  refine ⟨State.pairState_congr ?_, ?_, ?_⟩
  · rw [State.count_eq, State.get_put_reg _ _ (by decide), State.count_eq, State.get_put_reg _ _ (by decide), hget]
  · rw [State.count_eq _ PAIR_CNT1_REPORTS_MISSED, State.get_put_apart _ _ (.inr (by decide))]
    exact State.get_count_same _ _ 1 (by decide)
  · rw [State.get_count_same _ _ 1 (by decide), State.count_eq, State.get_put_apart _ _ (.inr (by decide))]
    rfl

/-- A unit that is not ACTIVE any more notes the clash and raises the alarm. -/
def clashNoted (s : State) : State :=
  (State.ev { s with pair := { s.pair with clash := true } } PAIR_EVENT_ID_CLASH).putBit FLT_MAJOR_B 10 true

/-- Where neither unit wins, the unit is STANDBY. -/
theorem idClash_eq (s : State) : idClash s = clashNoted (if s.pairState = .standby then s else pairTo .standby s) := by
  have hstate : (if s.pairState = .standby then s else pairTo .standby s).pairState = .standby := by
    split
    · assumption
    · exact pairTo_pairState _ _
  refine raiseMajor_other ?_
  generalize (if s.pairState = .standby then s else pairTo .standby s) = u at hstate ⊢
  rw [State.pairState_congr (t := State.ev { u with pair := { u.pair with clash := true } } PAIR_EVENT_ID_CLASH) (s := u)
    (State.get_put_reg (g := PAIR_EVENT_ID_CLASH) { u with pair := { u.pair with clash := true } } 1 (by decide)), hstate]
  decide

/-- The fields that a valid report's effect on the pair writes. -/
abbrev reportFields : List Fld := PAIR_EVENT_DUAL_ACTIVE :: PAIR_EVENT_ID_CLASH :: ⟨FLT_MAJOR, 0, 32⟩ :: roleFields

/-- The pair may take another state, with what stands recorded of it; what is known of the mate's reports stays. -/
structure MateKept (s t : State) : Prop where
  fields : FieldsKept reportFields s t
  lastValid : t.pair.lastValid = s.pair.lastValid
  missed : t.pair.missed = s.pair.missed

theorem MateKept.refl (s : State) : MateKept s s := ⟨FieldsKept.refl _ s, rfl, rfl⟩

theorem MateKept.pairTo {t : State} (h : MateKept s t) (p : PairState) : MateKept s (pairTo p t) :=
  ⟨h.fields.trans ((pairTo_fields p t).mono (by decide)), by rw [pairTo_rest]; exact h.lastValid, by rw [pairTo_rest]; exact h.missed⟩

theorem MateKept.ev {t : State} (h : MateKept s t) {f : Fld} (hf : f ∈ reportFields) : MateKept s (t.ev f) :=
  ⟨h.fields.put hf 1, h.lastValid, h.missed⟩

theorem MateKept.clashNoted {t : State} (h : MateKept s t) : MateKept s (clashNoted t) :=
  ⟨((h.fields.of_regs (u := { t with pair := { t.pair with clash := true } }) rfl).put (g := PAIR_EVENT_ID_CLASH) (by decide) 1).put_word
    (g := ⟨FLT_MAJOR_B.reg, FLT_MAJOR_B.lsb + 10, 1⟩) (by decide) _, h.lastValid, h.missed⟩

theorem MateKept.idClash {t : State} (h : MateKept s t) : MateKept s (idClash t) := by
  rw [idClash_eq]
  split
  · exact h.clashNoted
  · exact (h.pairTo _).clashNoted

theorem MateKept.ite {c : Prop} [Decidable c] {t u : State} (h : MateKept s t) (h' : MateKept s u) : MateKept s (if c then t else u) := by
  split
  · exact h
  · exact h'

/-- By who wins, then by the pair's state. -/
theorem mateReport_kept (m : Nat) (w : Option Bool) (s : State) : MateKept s (mateReport m w s) := by
  have h : MateKept s { s with pair := { s.pair with clash := false } } := ⟨(FieldsKept.refl _ s).of_regs rfl, rfl, rfl⟩
  unfold mateReport
  dsimp only
  generalize ({ s with pair := { s.pair with clash := false } } : State) = u at h ⊢
  rcases w with _ | _ | _
  · split
    exacts [.ite h.idClash h, .ite h.idClash h, .ite (h.pairTo _) (.ite h.idClash h), h]
  · have hback := (h.pairTo .standby).ev (f := PAIR_EVENT_DUAL_ACTIVE) (by decide)
    split
    exacts [.ite h h, .ite hback h, .ite (h.pairTo _) (.ite hback h), h]
  · split
    exacts [.ite (h.pairTo _) h, .ite h h, .ite (h.pairTo _) (.ite h h), h]

/-- The state in which a report of the mate's state acts: no clash is known. -/
abbrev clashForgotten (s : State) : State := { s with pair := { s.pair with clash := false } }

theorem mateReport_standby (h : s.pairState = .standby) (w : Option Bool) : mateReport 1 w s = match w with
    | some true => pairTo .active (clashForgotten s)
    | some false => clashForgotten s
    | none => clashNoted (clashForgotten s) := by
  have hstate : (clashForgotten s).pairState = .standby := h
  unfold mateReport
  dsimp only
  rw [hstate]
  rcases w with _ | _ | _
  · exact (idClash_eq _).trans (congrArg clashNoted (if_pos hstate))
  · rfl
  · rfl

theorem mateReport_mateFailed (h : s.pairState = .mateFailed) (w : Option Bool) : mateReport 1 w s = pairTo .active (clashForgotten s) := by
  have hstate : (clashForgotten s).pairState = .mateFailed := h
  unfold mateReport
  dsimp only
  rw [hstate]
  rfl

/-- Two units that carry: the one that does not win is STANDBY. -/
theorem mateReport_dual {m : Nat} (h : s.pairState = .active ∨ s.pairState = .mateFailed) (hm : m = 2 ∨ m = 4) (win : Bool) :
    mateReport m (some win) s = if win then clashForgotten s else (pairTo .standby (clashForgotten s)).ev PAIR_EVENT_DUAL_ACTIVE := by
  have h1 : m ≠ 1 := by omega
  unfold mateReport
  dsimp only
  rcases h with h | h
  · rw [show (clashForgotten s).pairState = .active from h]
    exact (if_pos hm).trans (by cases win <;> rfl)
  · rw [show (clashForgotten s).pairState = .mateFailed from h]
    exact (if_neg h1).trans ((if_pos hm).trans (by cases win <;> rfl))

theorem clashNoted_shows (s : State) : (clashNoted s).pairState = s.pairState ∧ (clashNoted s).on PAIR_EVENT_ID_CLASH = true ∧
    (clashNoted s).bit FLT_MAJOR_B 10 = true := by
  have hnoted : State.on (State.ev { s with pair := { s.pair with clash := true } } PAIR_EVENT_ID_CLASH) PAIR_EVENT_ID_CLASH = true :=
    State.on_ev_same _ (by decide) (by decide)
  unfold clashNoted
  refine ⟨State.pairState_congr ?_, ?_, (bit_putBit (by decide) (by decide) (by decide)).trans (if_pos rfl)⟩
  · rw [State.get_putBit_reg _ _ (by decide), State.ev_eq, State.get_put_reg _ _ (by decide)]
    rfl
  · rw [State.on_true, State.get_putBit_reg _ _ (by decide), ← State.on_true]
    exact hnoted

theorem mateReport_shows (w : Option Bool) (m : Nat) (s : State) :
    (s.pairState = .standby → (mateReport 1 (some true) s).pairState = .active ∧ (mateReport 1 (some false) s).pairState = .standby) ∧
    (s.pairState = .mateFailed → (mateReport 1 w s).pairState = .active) ∧
    ((s.pairState = .active ∨ s.pairState = .mateFailed) → (m = 2 ∨ m = 4) →
      (mateReport m (some false) s).pairState = .standby ∧ (mateReport m (some false) s).on PAIR_EVENT_DUAL_ACTIVE = true ∧
      (mateReport m (some true) s).pairState = s.pairState) ∧
    (s.pairState = .standby → (mateReport 1 none s).pairState = .standby ∧ (mateReport 1 none s).on PAIR_EVENT_ID_CLASH = true ∧
      (mateReport 1 none s).bit FLT_MAJOR_B 10 = true) := by
  refine ⟨fun h => ?_, fun h => ?_, fun h hm => ?_, fun h => ?_⟩
  · rw [mateReport_standby h, mateReport_standby h]
    exact ⟨pairTo_pairState _ _, h⟩
  · rw [mateReport_mateFailed h]
    exact pairTo_pairState _ _
  · rw [mateReport_dual h hm, mateReport_dual h hm]
    exact ⟨(State.pairState_congr (State.get_put_reg _ _ (by decide))).trans (pairTo_pairState .standby (clashForgotten s)),
      State.on_ev_same _ (by decide) (by decide), rfl⟩
  · rw [mateReport_standby h]
    obtain ⟨hstate, hclash, hmajor⟩ := clashNoted_shows (clashForgotten s)
    exact ⟨hstate.trans h, hclash, hmajor⟩

/-- A report is the mate's last valid one. -/
def reportSeen (s : State) : State :=
  { s with pair := { s.pair with lastValid := some s.now, missed := 0, failed := s.pair.failed && !s.on PAIR_STATUS_MATE_ALIVE } }

theorem reportSeen_regs (s : State) : (reportSeen s).regs = s.regs := rfl

/-- A report that fits, with a good CRC, as it is held. -/
def reportHeld (b : List Byte) (s : State) : State :=
  reportSeen ((s.putWide PAIR_MATE_REPORT (natLE b)).put PAIR_STATUS_MATE_STATE (byteAt b 0x18 % 8))

theorem putWide_now (s : State) (w : Wide) (v : Nat) : (s.putWide w v).now = s.now := by
  unfold State.putWide
  rw [State.putWideFrom_eq]

theorem reportHeld_shows {b : List Byte} (h : b.length = 64) (s : State) : (reportHeld b s).wide PAIR_MATE_REPORT = natLE b ∧
    (reportHeld b s).get PAIR_STATUS_MATE_STATE = byteAt b 0x18 % 8 ∧ (reportHeld b s).pair.lastValid = some s.now ∧
    (reportHeld b s).pair.missed = 0 := by
  have hbits : 32 * PAIR_MATE_REPORT.words = 8 * b.length := by rw [h]; rfl
  have hwide : ((s.putWide PAIR_MATE_REPORT (natLE b)).put PAIR_STATUS_MATE_STATE (byteAt b 0x18 % 8)).wide PAIR_MATE_REPORT = natLE b := by
    rw [State.wide_put_other _ _ (.inr (by decide)), State.wide_putWide, hbits]
    exact Nat.mod_eq_of_lt (natLE_lt b)
  have hnow : ((s.putWide PAIR_MATE_REPORT (natLE b)).put PAIR_STATUS_MATE_STATE (byteAt b 0x18 % 8)).now = s.now := by
    rw [State.put_now, putWide_now]
  have hmate : ((s.putWide PAIR_MATE_REPORT (natLE b)).put PAIR_STATUS_MATE_STATE (byteAt b 0x18 % 8)).get PAIR_STATUS_MATE_STATE =
      byteAt b 0x18 % 8 := State.get_put_fits _ (by decide) (Nat.mod_lt _ (by decide))
  unfold reportHeld
  generalize (s.putWide PAIR_MATE_REPORT (natLE b)).put PAIR_STATUS_MATE_STATE (byteAt b 0x18 % 8) = u at hwide hnow hmate ⊢
  rw [← hnow]
  exact ⟨(State.wide_congr (reportSeen_regs u) _).trans hwide, hmate, rfl, rfl⟩

theorem healthRx_valid {b : List Byte} (h : b.length = 64) (hc : natLE (b.drop 60) = (crc32 (b.take 60)).toNat) :
    (healthRx b s).wide PAIR_MATE_REPORT = natLE b ∧ (healthRx b s).get PAIR_STATUS_MATE_STATE = byteAt b 0x18 % 8 ∧
    (healthRx b s).pair.lastValid = some s.now ∧ (healthRx b s).pair.missed = 0 := by
  obtain ⟨hreport, hmate, hlast, hmissed⟩ := reportHeld_shows h s
  have hrx : ∃ (m : Nat) (w : Option Bool) (t : State), healthRx b s = mateReport m w t ∧
      FieldsKept [PAIR_EVENT_IMAGE_DIFF] (reportHeld b s) t ∧ t.pair = (reportHeld b s).pair := by
    refine ⟨_, _, _, (if_neg (not_not.2 h)).trans (if_neg (not_not.2 hc)), ?_, ?_⟩
    · exact .ite ((FieldsKept.refl _ (reportHeld b s)).put (g := PAIR_EVENT_IMAGE_DIFF) (by decide) 1) (FieldsKept.refl _ _)
    · dsimp only
      split <;> rfl
  obtain ⟨m, w, t, he, hdiff, hpair⟩ := hrx
  obtain ⟨hkept, hvalid, hzero⟩ := mateReport_kept m w t
  rw [he]
  refine ⟨(hkept.wide (by decide)).trans ((hdiff.wide (by decide)).trans hreport), (hkept.get (by decide)).trans ((hdiff.get (by decide)).trans hmate),
    hvalid.trans ((congrArg PairRec.lastValid hpair).trans hlast), hzero.trans ((congrArg PairRec.missed hpair).trans hmissed)⟩

/-! ### No report (R568, R569) -/

theorem reportTimeout_solo (h : s.pairState = .solo) : reportTimeout s = s := if_pos h

theorem reportTimeout_shows (h : s.pairState ≠ .solo) :
    (reportTimeout s).get PAIR_CNT1_REPORTS_MISSED = (s.get PAIR_CNT1_REPORTS_MISSED + (3 - s.pair.missed)) % 2 ^ 16 ∧
    (reportTimeout s).pair.missed = 0 ∧ (reportTimeout s).pair.failed = true ∧
    (s.pair.failed = false → (reportTimeout s).pairState = .mateFailed) := by
  have htimeout : ∃ t : State, reportTimeout s = mateFailure t ∧ t.pairState = s.pairState ∧ t.pair.failed = s.pair.failed ∧ t.pair.missed = 0 ∧
      t.get PAIR_CNT1_REPORTS_MISSED = (s.get PAIR_CNT1_REPORTS_MISSED + (3 - s.pair.missed)) % 2 ^ 16 :=
    ⟨_, if_neg h, State.pairState_congr (s := s) (State.get_put_reg (g := PAIR_CNT1_REPORTS_MISSED) s _ (by decide)), rfl, rfl,
      State.get_count_same s PAIR_CNT1_REPORTS_MISSED _ (by decide)⟩
  obtain ⟨t, he, hstate, hfailed, hmissed, hcount⟩ := htimeout
  rw [he, ← hcount]
  cases hf : s.pair.failed with
  | true =>
    rw [mateFailure_unchanged (.inl (hfailed.trans hf))]
    exact ⟨rfl, hmissed, hfailed.trans hf, fun hn => absurd hn (by decide)⟩
  | false =>
    rw [mateFailure_declared (hfailed.trans hf) (hstate ▸ h)]
    split
    next h4 => exact ⟨rfl, hmissed, rfl, fun _ => h4⟩
    next =>
      have hentered := enterMateFailed_fields { t with pair := { t.pair with failed := true } }
      obtain ⟨h4, -, -, hfail, hmiss⟩ := enterMateFailed_shows { t with pair := { t.pair with failed := true } }
      exact ⟨hentered.get (by decide), hmiss.trans hmissed, hfail, fun _ => h4⟩

theorem firstReportTimeout_unchanged (h : s.pairState ≠ .standby ∨ s.pair.lastValid ≠ none) : firstReportTimeout s = s := by
  refine if_neg ?_
  tauto

theorem firstReportTimeout_shows (h : s.pairState = .standby) (hn : s.pair.lastValid = none) : (firstReportTimeout s).pairState = .mateFailed ∧
    (firstReportTimeout s).on PAIR_EVENT_MATE_FAIL = true ∧
    (firstReportTimeout s).get PAIR_CNT3_TAKEOVERS = (s.get PAIR_CNT3_TAKEOVERS + 1) % 2 ^ 16 ∧ (firstReportTimeout s).pair.failed = true := by
  have hentered : firstReportTimeout s = enterMateFailed { s with pair := { s.pair with failed := true } } := if_pos ⟨h, hn⟩
  obtain ⟨h4, hev, hcount, hfail, -⟩ := enterMateFailed_shows { s with pair := { s.pair with failed := true } }
  rw [hentered]
  exact ⟨h4, hev, hcount, hfail⟩

/-! ### DEMOTE (R565, R569) -/

theorem demoteRx_misfit {b : List Byte} (h : b.length ≠ 1) : demoteRx b s = s.count PAIR_CNT1_REPORTS_BAD := if_pos h

theorem demoteRx_solo {b : List Byte} (h : b.length = 1) (h0 : s.pairState = .solo) : demoteRx b s = s :=
  (if_neg (not_not.2 h)).trans (if_pos h0)

theorem demoteRx_notes {b : List Byte} (h : b.length = 1) (h0 : s.pairState ≠ .solo) : demoteRx b s =
    if s.pairState = .standby then pairTo .active (s.ev PAIR_EVENT_DEMOTE) else s.ev PAIR_EVENT_DEMOTE := by
  have hstate : (s.ev PAIR_EVENT_DEMOTE).pairState = s.pairState := State.pairState_congr (State.get_put_reg _ _ (by decide))
  refine (if_neg (not_not.2 h)).trans ((if_neg h0).trans ?_)
  dsimp only
  rw [hstate]

theorem demoteRx_standby {b : List Byte} (h : b.length = 1) (h1 : s.pairState = .standby) :
    (demoteRx b s).pairState = .active ∧ (demoteRx b s).on PAIR_EVENT_DEMOTE = true := by
  rw [demoteRx_notes h (by rw [h1]; decide), if_pos h1]
  exact ⟨pairTo_pairState _ _, ((pairTo_fields _ _).on (by decide)).trans (State.on_ev_same _ (by decide) (by decide))⟩

end

/-- Settles O50: each row is the pair's own step, by the case its conditions name. -/
theorem pairCommands : Obligations.PairCommands :=
  ⟨fun _ _ _ hw => pairWritten_stands hw, fun _ _ _ hw => pairWritten_stands hw, fun _ h0 hr => pairEnable_refused_shows h0 hr,
    fun _ h0 hr => pairEnable_committed h0 hr, pairDisable_shows, fun _ hs h => timed_eq hs (mateAliveLost_known h),
    fun _ hs hf h0 h4 => ⟨_, timed_eq hs rfl, mateAliveLost_shows hf h0 h4⟩,
    fun s hs => ⟨_, timed_eq hs rfl, State.on_put_same s (f := PAIR_STATUS_MATE_ALIVE) (v := 1) (by decide) (by decide), mateAlive_pairState 1 s, rfl⟩,
    fun _ hs h => timed_eq hs (healthSend_solo h), fun _ hs h => ⟨_, timed_eq hs rfl, healthSend_shows h⟩, healthReport_length,
    fun _ _ hs h => timed_eq hs (healthRx_misfit h), fun _ _ hs h hc => ⟨_, timed_eq hs rfl, healthRx_crc h hc⟩,
    fun _ _ hs h hc => ⟨_, timed_eq hs rfl, healthRx_valid h hc⟩, mateReport_shows, fun _ hs h => timed_eq hs (reportTimeout_solo h),
    fun _ hs h => ⟨_, timed_eq hs rfl, reportTimeout_shows h⟩, fun _ hs h => timed_eq hs (firstReportTimeout_unchanged h),
    fun _ hs h hn => ⟨_, timed_eq hs rfl, firstReportTimeout_shows h hn⟩, fun _ _ hs h => timed_eq hs (demoteRx_misfit h),
    fun _ _ hs h h0 => timed_eq hs (demoteRx_solo h h0), fun _ _ hs h h1 => ⟨_, timed_eq hs rfl, demoteRx_standby h h1⟩,
    fun _ _ hs h h0 h1 => timed_eq hs ((demoteRx_notes h h0).trans (if_neg h1))⟩

end Sys2Proof.Machine
end

section
/-!
PROOFS. Sequence records, the handover and the self-tests of a pair (R565, R575, R577 to R579, R581, R582; the order of records and what goes at
a timeout are log entries 98 and 99, the handover's answers log entry 100).
-/

namespace Sys2Proof.Machine

open Sys2Proof

section
variable {s : State}

/-! ### Sequence records (R575, R578) -/

theorem seqRx_misfit {b : List Byte} (h : b.length % 8 ≠ 0 ∨ b.length = 0 ∨ 512 < b.length) : seqRx b s = s.count PAIR_CNT1_REPORTS_BAD := by
  refine if_pos ?_
  omega

theorem seqRx_records {b : List Byte} (h8 : b.length % 8 = 0) (h0 : b.length ≠ 0) (hmax : b.length ≤ 512) :
    seqRx b s = forEach (records (b.length / 8) b) (fun b s => recordRx (recordOf s b) s) s := by
  refine if_neg ?_
  omega

/-- A record without a frame to match waits. -/
theorem recordRx_waits {r : SeqRec} (hf : s.pairFollows = true) (hk : r.kind = 0) (hw : waitingOf s r.stream = []) :
    (recordRx r s).pair.got = s.pair.got ++ [r] := by
  unfold recordRx
  rw [if_neg (by simp [hf]), if_neg (by omega), if_pos hk, hw]
  rfl

theorem seqSend_none (h : s.pair.toSend = []) : seqSend s = s := by
  unfold seqSend
  rw [h]

theorem seqSend_sends (h : s.pair.toSend ≠ []) : seqSend s =
    towlineSend 2 ((s.pair.toSend.take 64).map recordBytes).flatten { s with pair := { s.pair with toSend := s.pair.toSend.drop 64 } } := by
  unfold seqSend
  split
  next h0 => exact absurd h0 h
  next => rfl

/-- Up to 64 records leave, while P65 is UP in a frame. -/
theorem seqSend_shows (h : s.pair.toSend ≠ []) : (seqSend s).pair.toSend = s.pair.toSend.drop 64 ∧ (seqSend s).regs = s.regs ∧
    (seqSend s).out = if s.portUp 65 then
      s.out ++ [.towline (towlineFrame s 2 s.pair.txSeq ((s.pair.toSend.take 64).map recordBytes).flatten)] else s.out := by
  rw [seqSend_sends h]
  exact ⟨by rw [towlineSend_rest], towlineSend_regs _ _ _, towlineSend_out _ _ _⟩

/-! ### The end of the wait (R575, R578) -/

variable {n : Nat}

theorem seqTimeout_closes (h : s.pair.closing.contains n = true) : seqTimeout n s = closeStream n none s := if_pos h

/-- The frame that has waited longest goes, unless a record has waited longer. -/
theorem seqTimeout_frame {w : Nat × Nat} {l : List (Nat × Nat)} (h : s.pair.closing.contains n = false)
    (hw : s.pair.waits.filter (fun w => (waitingOf s n).contains w.1) = w :: l) (hr : ∀ r ∈ s.pair.got, r.stream = n → w.2 ≤ r.at_) :
    seqTimeout n s = frameMiss w.1 s := by
  unfold seqTimeout
  rw [if_neg (by rw [h]; decide)]
  dsimp only
  rw [hw]
  cases hg : s.pair.got.filter (fun r => r.stream == n) with
  | nil => rfl
  | cons r t =>
    obtain ⟨hmem, hstream⟩ := List.mem_filter.1 (hg ▸ List.mem_cons_self)
    exact if_pos (hr r hmem (beq_iff_eq.1 hstream))

theorem seqTimeout_record {r : SeqRec} {l : List SeqRec} (h : s.pair.closing.contains n = false)
    (hr : s.pair.got.filter (fun r => r.stream == n) = r :: l) (hw : ∀ w ∈ s.pair.waits, w.1 ∈ waitingOf s n → r.at_ < w.2) :
    seqTimeout n s = recordOrphan r s := by
  unfold seqTimeout
  rw [if_neg (by rw [h]; decide)]
  dsimp only
  rw [hr]
  cases hg : s.pair.waits.filter (fun w => (waitingOf s n).contains w.1) with
  | nil => rfl
  | cons w t =>
    obtain ⟨hmem, hwait⟩ := List.mem_filter.1 (hg ▸ List.mem_cons_self)
    have hlater := hw w hmem (List.contains_iff_mem.1 hwait)
    exact if_neg (by omega)

theorem seqTimeout_nothing (h : s.pair.closing.contains n = false)
    (hw : s.pair.waits.filter (fun w => (waitingOf s n).contains w.1) = []) (hr : s.pair.got.filter (fun r => r.stream == n) = []) :
    seqTimeout n s = s := by
  unfold seqTimeout
  rw [if_neg (by rw [h]; decide)]
  dsimp only
  rw [hw, hr]

theorem recordOrphan_shows (r : SeqRec) (s : State) : (recordOrphan r s).pair.got = s.pair.got.erase r ∧
    (recordOrphan r s).get PAIR_CNT0_SEQ_ORPHAN = (s.get PAIR_CNT0_SEQ_ORPHAN + 1) % 2 ^ 16 :=
  ⟨rfl, State.get_count_same { s with pair := { s.pair with got := s.pair.got.erase r } } PAIR_CNT0_SEQ_ORPHAN 1 (by decide)⟩

/-! ### The handover is asked for and agreed (R581) -/

theorem hoReq_stands {m : BusMaster} {v : Word} (hw : Writable m PAIR_CTRL (withField PAIR_CTRL_HO_REQ 1 v) s) : ∃ R c,
    Stands m .PAIR_CTRL 0 0 PAIR_CTRL.one (withField PAIR_CTRL_HO_REQ 1 v).toNat s R c ∧
      run (busSet m PAIR_CTRL_HO_REQ 1 v) s = .next (settle s (pairWritten R c)) := by
  obtain ⟨R, c, hst, hrun⟩ := hw.stands namesOneWord_pairCtrl (by decide) (by decide)
  obtain ⟨-, hid, -, -, -⟩ := hst.who
  refine ⟨R, c, hst, ?_⟩
  unfold regEffect at hrun
  simp only [hid] at hrun
  exact hrun

theorem hoAsk_unchanged (h : s.pairState ≠ .standby ∨ pairTlock s = false ∨ s.pair.hoAsked = true ∨ s.now < s.pair.noAskUntil) :
    hoAsk s = s := by
  refine if_pos ?_
  simpa using h

/-- In STANDBY with TLOCK the unit asks, for a time it has chosen. -/
theorem hoAsk_asks (h1 : s.pairState = .standby) (ht : pairTlock s = true) (ha : s.pair.hoAsked = false) (hu : s.pair.noAskUntil ≤ s.now) :
    (hoAsk s).pair.hoAsked = true ∧ (hoAsk s).regs = s.regs ∧ ∃ t, (hoAsk s).pair.hoT = some t ∧
      (s.portUp 65 = true → (hoAsk s).out = s.out ++ [.towline (towlineFrame s 3 s.pair.txSeq (tbBytes t))]) := by
  have hask : ∃ t, hoAsk s = towlineSend 3 (tbBytes t) { s with pair := { s.pair with hoT := some t, hoAsked := true } } := by
    refine ⟨_, if_neg ?_⟩
    simp [h1, ht, ha, hu]
  obtain ⟨t, he⟩ := hask
  rw [he]
  exact ⟨by rw [towlineSend_rest], towlineSend_regs _ _ _, t, by rw [towlineSend_rest], fun hup =>
    (towlineSend_out 3 (tbBytes t) { s with pair := { s.pair with hoT := some t, hoAsked := true } }).trans (if_pos hup)⟩

theorem hoRevertive_asks (hp : s.on PAIR_STATUS_PREFERRED = true) (hr : s.on PAIR_CTRL_REVERTIVE = true)
    (hw : s.get PAIR_TIMING_WTR ≤ pairHealthyS s) : hoRevertive s = hoAsk s := if_pos ⟨hp, hr, hw⟩

theorem hoRevertive_unchanged (h : s.on PAIR_STATUS_PREFERRED = false ∨ s.on PAIR_CTRL_REVERTIVE = false ∨
    pairHealthyS s < s.get PAIR_TIMING_WTR) : hoRevertive s = s := by
  refine if_neg ?_
  rintro ⟨hp, hr, hw⟩
  simp only [hp, hr, Bool.true_eq_false, false_or] at h
  omega

theorem hoReqRx_active {b : List Byte} (h : b.length = 12) (h2 : s.pairState = .active) :
    hoReqRx b s = handoverArm (tb96Time (natLE b)) true (towlineSend 4 b s) := (if_neg (not_not.2 h)).trans (if_pos h2)

theorem hoReqRx_other {b : List Byte} (h : b.length = 12) (h2 : s.pairState ≠ .active) : hoReqRx b s = towlineSend 5 (b ++ [1]) s :=
  (if_neg (not_not.2 h)).trans (if_neg h2)

theorem hoAckRx_arms {b : List Byte} (h : b.length = 12) (h1 : s.pairState = .standby) (ha : s.pair.hoAsked = true)
    (ht : s.pair.hoT = some (tb96Time (natLE b))) : hoAckRx b s = handoverArm (tb96Time (natLE b)) false s :=
  (if_neg (not_not.2 h)).trans (if_pos ⟨h1, ha, ht⟩)

theorem hoAckRx_unchanged {b : List Byte} (h : b.length = 12)
    (hn : s.pairState ≠ .standby ∨ s.pair.hoAsked = false ∨ s.pair.hoT ≠ some (tb96Time (natLE b))) : hoAckRx b s = s := by
  refine (if_neg (not_not.2 h)).trans (if_neg ?_)
  rintro ⟨h1, ha, ht⟩
  simp [h1, ha, ht] at hn

/-! ### The handover is aborted (R582) -/

theorem hoAbortRx_aborts {b : List Byte} (h : b.length = 13) (ha : s.pairState = .handover ∨ s.pair.hoAsked = true) :
    hoAbortRx b s = hoAbort (byteAt b 12) true s := (if_neg (not_not.2 h)).trans (if_pos ha)

theorem hoAbortRx_unchanged {b : List Byte} (h : b.length = 13) (h3 : s.pairState ≠ .handover) (ha : s.pair.hoAsked = false) :
    hoAbortRx b s = s := (if_neg (not_not.2 h)).trans (if_neg (by simp [h3, ha]))

theorem hoAckTimeout_aborts (ha : s.pair.hoAsked = true) (h3 : s.pairState ≠ .handover) : hoAckTimeout s = hoAbort 2 true s :=
  if_pos ⟨ha, h3⟩

theorem hoAckTimeout_unchanged (h : s.pair.hoAsked = false ∨ s.pairState = .handover) : hoAckTimeout s = s := by
  refine if_neg ?_
  rintro ⟨ha, h3⟩
  rcases h with h | h
  · exact Bool.false_ne_true (h.symm.trans ha)
  · exact h3 h

/-- An abort before the unit is back in its role: its action is disarmed, the mate told, the abort counted. -/
def abortTold (cause : Nat) (tell : Bool) (s : State) : State :=
  let u := if s.pairState = .handover then disarm63 s else s
  let u := if tell then towlineSend 5 (tbBytes (s.pair.hoT.getD 0) ++ [BitVec.ofNat 8 cause]) u else u
  (u.count PAIR_CNT2_HO_ABORTS).ev PAIR_EVENT_HO_ABORT

/-- The role a unit in HANDOVER goes back to. -/
def roleBefore (s : State) : PairState := if s.on PAIR_STATUS_HO_FROM_ACTIVE then .active else .standby

theorem hoAbort_eq (cause : Nat) (tell : Bool) (s : State) : hoAbort cause tell s =
    let u := if s.pairState = .handover then pairTo (roleBefore s) (abortTold cause tell s) else abortTold cause tell s
    { u with pair := { u.pair with hoT := none, hoAsked := false, hoWritten := false, noAskUntil := u.now + wallSec 10 } } := by
  unfold hoAbort abortTold roleBefore
  simp only

theorem disarm63_off (s : State) : (disarm63 s).on (SCH_ACT_CTRL_ARM 63) = false := by
  unfold disarm63
  split
  · rw [State.on_false, State.get_put_reg _ _ (by decide), State.get_put_same _ _ _ (by decide)]
    rfl
  next h => simpa using h

theorem disarm63_now (s : State) : (disarm63 s).now = s.now := by
  unfold disarm63
  split <;> rfl

theorem abortTold_now (cause : Nat) (tell : Bool) (s : State) : (abortTold cause tell s).now = s.now := by
  have hdisarmed : (if s.pairState = .handover then disarm63 s else s).now = s.now := by
    split
    · exact disarm63_now s
    · rfl
  unfold abortTold
  dsimp only
  rw [State.ev_eq, State.put_now, State.count_eq, State.put_now]
  split
  · rw [towlineSend_rest]
    exact hdisarmed
  · exact hdisarmed

/-- What is told leaves the registers, but for the action disarmed, the count and the event. -/
theorem abortTold_shows (cause : Nat) (tell : Bool) (s : State) :
    FieldsKept (PAIR_CNT2_HO_ABORTS :: PAIR_EVENT_HO_ABORT :: actionFields) s (abortTold cause tell s) ∧
    (abortTold cause tell s).on PAIR_EVENT_HO_ABORT = true ∧
    (abortTold cause tell s).get PAIR_CNT2_HO_ABORTS = (s.get PAIR_CNT2_HO_ABORTS + 1) % 2 ^ 16 ∧
    (s.pairState = .handover → (abortTold cause tell s).on (SCH_ACT_CTRL_ARM 63) = false) := by
  have hdisarmed : FieldsKept actionFields s (if s.pairState = .handover then disarm63 s else s) :=
    .ite (disarm63_fields s) (FieldsKept.refl _ s)
  have hoff : s.pairState = .handover → (if s.pairState = .handover then disarm63 s else s).on (SCH_ACT_CTRL_ARM 63) = false := fun h => by
    rw [if_pos h]
    exact disarm63_off s
  unfold abortTold
  dsimp only
  generalize (if s.pairState = .handover then disarm63 s else s) = u at hdisarmed hoff ⊢
  have hregs : (if tell then towlineSend 5 (tbBytes (s.pair.hoT.getD 0) ++ [BitVec.ofNat 8 cause]) u else u).regs = u.regs := by
    split
    · exact towlineSend_regs _ _ _
    · rfl
  generalize (if tell then towlineSend 5 (tbBytes (s.pair.hoT.getD 0) ++ [BitVec.ofNat 8 cause]) u else u) = t at hregs ⊢
  have ht := hdisarmed.of_regs hregs
  have hnoted := ((FieldsKept.refl [PAIR_CNT2_HO_ABORTS, PAIR_EVENT_HO_ABORT] t).put (g := PAIR_CNT2_HO_ABORTS) (by decide)
    (t.get PAIR_CNT2_HO_ABORTS + 1)).put (g := PAIR_EVENT_HO_ABORT) (by decide) 1
  refine ⟨(ht.mono (by decide)).trans (hnoted.mono (by decide)), State.on_ev_same _ (by decide) (by decide), ?_, fun h => ?_⟩
  · rw [State.ev_eq, State.get_put_reg _ _ (by decide), State.get_count_same _ _ 1 (by decide), ht.get (by decide)]
    rfl
  · exact (hnoted.on (by decide)).trans ((State.on_of_regs hregs _).trans (hoff h))

theorem hoAbort_shows (cause : Nat) (tell : Bool) (s : State) : (hoAbort cause tell s).pair.hoAsked = false ∧ (hoAbort cause tell s).pair.hoT = none ∧
    (hoAbort cause tell s).pair.noAskUntil = s.now + 2500000000 ∧ (hoAbort cause tell s).on PAIR_EVENT_HO_ABORT = true ∧
    (hoAbort cause tell s).get PAIR_CNT2_HO_ABORTS = (s.get PAIR_CNT2_HO_ABORTS + 1) % 2 ^ 16 ∧
    (s.pairState = .handover → (hoAbort cause tell s).on (SCH_ACT_CTRL_ARM 63) = false ∧
      (hoAbort cause tell s).pairState = (if s.on PAIR_STATUS_HO_FROM_ACTIVE then .active else .standby)) ∧
    (s.pairState ≠ .handover → (hoAbort cause tell s).pairState = s.pairState) := by
  obtain ⟨hkept, hev, hcount, hoff⟩ := abortTold_shows cause tell s
  have hnow := abortTold_now cause tell s
  rw [hoAbort_eq]
  generalize abortTold cause tell s = u at hkept hev hcount hoff hnow ⊢
  dsimp only
  split
  next h3 =>
    have hto := pairTo_fields (roleBefore s) u
    have hwall : (pairTo (roleBefore s) u).now + wallSec 10 = s.now + 2500000000 := by
      rw [pairTo_rest]
      exact congrArg (· + wallSec 10) hnow
    exact ⟨rfl, rfl, hwall, (hto.on (by decide)).trans hev, (hto.get (by decide)).trans hcount,
      fun _ => ⟨(hto.on (by decide)).trans (hoff h3), pairTo_pairState (roleBefore s) u⟩, fun h => absurd h3 h⟩
  next h3 =>
    exact ⟨rfl, rfl, congrArg (· + wallSec 10) hnow, hev, hcount, fun h => absurd h h3, fun _ => State.pairState_congr (s := s) (hkept.get (by decide))⟩

/-! ### Self-tests (R579) -/

/-- The fields that the result of test `k` is written in. -/
abbrev testFields (k : Nat) : List Fld := [⟨PAIR_TEST_RESULTS.reg, PAIR_TEST_RESULTS.lsb + k, 1⟩, PAIR_EVENT_SELFTEST_FAIL]

theorem testResult_fields (k : Nat) (ok : Bool) (s : State) : FieldsKept (testFields k) s (testResult k ok s) := by
  have hbit : FieldsKept (testFields k) s (s.putBit PAIR_TEST_RESULTS k ok) := (FieldsKept.refl _ s).put List.mem_cons_self _
  exact .ite hbit (hbit.put (g := PAIR_EVENT_SELFTEST_FAIL) (by simp) 1)

theorem testResult_rest (k : Nat) (ok : Bool) (s : State) : testResult k ok s = { s with regs := (testResult k ok s).regs } := by
  unfold testResult
  dsimp only
  split <;> rfl

/-- The flag reads the result; a failure is an event. -/
theorem testResult_shows {k : Nat} (hk : k < 5) (ok : Bool) (s : State) : (testResult k ok s).bit PAIR_TEST_RESULTS k = ok ∧
    (ok = false → (testResult k ok s).on PAIR_EVENT_SELFTEST_FAIL = true) := by
  have hbit : (s.putBit PAIR_TEST_RESULTS k ok).bit PAIR_TEST_RESULTS k = ok := (bit_putBit (by decide) hk hk).trans (if_pos rfl)
  unfold testResult
  dsimp only
  cases ok with
  | true => exact ⟨hbit, fun h => absurd h (by decide)⟩
  | false =>
    refine ⟨?_, fun _ => State.on_ev_same _ (by decide) (by decide)⟩
    rw [if_neg (by decide), State.bit, State.ev_eq, State.get_put_reg _ _ (by decide)]
    exact hbit

/-- The spare rows that failed, each withdrawn. -/
def rowsWithdrawn (n : Nat) (s : State) : State :=
  forEach (List.range (min n 65536)) (fun _ s =>
    let f := s.fresh
    let r := Config.eccObject 17 f.1 % 16
    let key := bankKey r (Config.eccBank 17 f.1)
    let used := min 16 (smGet 0 s.ecc.spares key + 1)
    let s : State := { f.2 with ecc := { f.2.ecc with spares := smSet 0 f.2.ecc.spares key used } }
    if used = 16 then s.put (ECC_REG_SPARES_OUT r) 1 else s) s

theorem rowsWithdrawn_pair (n : Nat) (s : State) : (rowsWithdrawn n s).pair = s.pair :=
  forEach_keeps (P := fun t => t.pair = s.pair) s rfl fun _ t ht => by
    dsimp only
    split
    · exact ht
    · exact ht

theorem marchTest_runs (h : testsRun s = true) (f : MarchFails) : marchTest f s = testResult 1 (decide (f.rows + f.cells = 0))
    (rowsWithdrawn f.rows { s with pair := { s.pair with marchFails := min 65535 (s.pair.marchFails + (f.rows + f.cells)) } }) :=
  if_neg (by simp [h])

theorem marchTest_paused (h : testsRun s = false) (f : MarchFails) : marchTest f s = s := if_pos (by simp [h])

theorem marchTest_passes (h : testsRun s = true) :
    (marchTest ⟨0, 0⟩ s).bit PAIR_TEST_RESULTS 1 = true ∧ (marchTest ⟨0, 0⟩ s).ecc.spares = s.ecc.spares := by
  rw [marchTest_runs h]
  refine ⟨(testResult_shows (by decide) _ _).1, ?_⟩
  rw [testResult_rest]
  rfl

theorem marchTest_fails (h : testsRun s = true) {f : MarchFails} (hf : f.rows + f.cells ≠ 0) :
    (marchTest f s).bit PAIR_TEST_RESULTS 1 = false ∧ (marchTest f s).on PAIR_EVENT_SELFTEST_FAIL = true ∧
    (marchTest f s).pair.marchFails = min 65535 (s.pair.marchFails + (f.rows + f.cells)) := by
  rw [marchTest_runs h, decide_eq_false hf]
  obtain ⟨hbit, hev⟩ := testResult_shows (k := 1) (by decide) false
    (rowsWithdrawn f.rows { s with pair := { s.pair with marchFails := min 65535 (s.pair.marchFails + (f.rows + f.cells)) } })
  refine ⟨hbit, hev rfl, ?_⟩
  rw [testResult_rest]
  exact congrArg PairRec.marchFails (rowsWithdrawn_pair _ _)

/-- Which lanes are idle does not depend on a test's result. -/
theorem loopIdle_testResult (ok : Bool) (s : State) (n : Nat) : loopIdle (testResult 2 ok s) n = loopIdle s n := by
  have hk := testResult_fields 2 ok s
  have hplls : (testResult 2 ok s).plls = s.plls := by rw [testResult_rest]
  have hlane : ∀ n < 65, (LN_CTRL_EN n).clearOf (testFields 2) = true := by decide
  have hquad : ∀ q < 16, (LN_QUAD_STATUS_PLL_LOCKED q).clearOf (testFields 2) = true := by decide
  have hlocked : ∀ q, (testResult 2 ok s).pllLocked q = s.pllLocked q := fun q => by
    unfold State.pllLocked State.pllRec
    split
    next hq => exact hk.on (hquad q hq)
    next => rw [hplls]
  unfold loopIdle
  by_cases hn : n < 65
  · unfold State.pllRuns
    rw [hlocked, State.pllRec, hplls, hk.on (hlane n hn)]
    rfl
  · rw [decide_eq_false hn]
    rfl

theorem loopNext_testResult (ok : Bool) (s : State) (n : Nat) : loopNext (testResult 2 ok s) n = loopNext s n := by
  unfold loopNext
  rw [funext (loopIdle_testResult ok s)]

theorem loopNext_lt (s : State) (n : Nat) : loopNext s n < 256 := by
  unfold loopNext
  cases h : ((List.range 65).map (fun k => (n + 1 + k) % 65)).find? (loopIdle s) with
  | none => decide
  | some k =>
    obtain ⟨j, -, hj⟩ := List.mem_map.1 (List.mem_of_find?_eq_some h)
    exact lt_of_eq_of_lt hj.symm (by omega)

theorem laneLoopTest_unchanged {e : Nat} (h : testsRun s = false ∨ s.get PAIR_TEST_LANE ≠ n ∨ loopIdle s n = false) :
    laneLoopTest n e s = s := by
  refine if_pos ?_
  simpa [or_assoc] using h

/-- The test of the lane ends, and the next idle lane follows. -/
theorem laneLoopTest_ends {e : Nat} (h : testsRun s = true) (hl : s.get PAIR_TEST_LANE = n) (hi : loopIdle s n = true) :
    laneLoopTest n e s = (testResult 2 (decide (e = 0)) { s with pair := { s.pair with loopErrs := min 65535 e } }).put PAIR_TEST_LANE
      (loopNext s n) := by
  have hnext : loopNext (testResult 2 (decide (e = 0)) { s with pair := { s.pair with loopErrs := min 65535 e } }) n = loopNext s n :=
    loopNext_testResult _ _ _
  unfold laneLoopTest
  rw [if_neg (by simp [h, hl, hi])]
  dsimp only
  rw [hnext]

theorem laneLoopTest_shows {e : Nat} (h : testsRun s = true) (hl : s.get PAIR_TEST_LANE = n) (hi : loopIdle s n = true) :
    (laneLoopTest n e s).bit PAIR_TEST_RESULTS 2 = decide (e = 0) ∧ (laneLoopTest n e s).pair.loopErrs = min 65535 e ∧
    (e ≠ 0 → (laneLoopTest n e s).on PAIR_EVENT_SELFTEST_FAIL = true) ∧ (laneLoopTest n e s).get PAIR_TEST_LANE = loopNext s n ∧
    (∀ k < 65, (laneLoopTest n e s).word (LN_CTRL k) = s.word (LN_CTRL k)) := by
  have hlanes : ∀ k < 65, Fld.clearOf ⟨LN_CTRL k, 0, 32⟩ (PAIR_TEST_LANE :: testFields 2) = true := by decide
  rw [laneLoopTest_ends h hl hi]
  obtain ⟨hbit, hev⟩ := testResult_shows (k := 2) (by decide) (decide (e = 0)) { s with pair := { s.pair with loopErrs := min 65535 e } }
  have hkept : FieldsKept (testFields 2) s (testResult 2 (decide (e = 0)) { s with pair := { s.pair with loopErrs := min 65535 e } }) :=
    testResult_fields 2 _ { s with pair := { s.pair with loopErrs := min 65535 e } }
  have herrs : (testResult 2 (decide (e = 0)) { s with pair := { s.pair with loopErrs := min 65535 e } }).pair.loopErrs = min 65535 e := by
    rw [testResult_rest]
  generalize testResult 2 (decide (e = 0)) { s with pair := { s.pair with loopErrs := min 65535 e } } = u at hbit hev hkept herrs ⊢
  have hput := (FieldsKept.refl [PAIR_TEST_LANE] u).put (g := PAIR_TEST_LANE) (by decide) (loopNext s n)
  refine ⟨?_, herrs, fun he => (hput.on (by decide)).trans (hev (decide_eq_false he)),
    State.get_put_fits u (f := PAIR_TEST_LANE) (by decide) (loopNext_lt s n), fun k hk => ?_⟩
  · unfold State.bit at hbit ⊢
    rw [hput.get (by decide)]
    exact hbit
  · exact ((hkept.mono (fun g hg => List.mem_cons_of_mem _ hg)).trans (hput.mono (by decide))).word (hlanes k hk)

end

/-- Settles O51: each row is the pair's own step, by the case its conditions name. -/
theorem sequenceRecordsHandoverAndSelfTests : Obligations.SequenceRecordsHandoverAndSelfTests :=
  ⟨fun _ _ hs h => timed_eq hs (seqRx_misfit h), fun _ _ hs h8 h0 hmax => timed_eq hs (seqRx_records h8 h0 hmax),
    fun _ _ hf hk hw => recordRx_waits hf hk hw, fun _ hs h => timed_eq hs (seqSend_none h),
    fun _ hs h hup => have hshows := seqSend_shows h
      ⟨_, timed_eq hs rfl, hshows.1, hshows.2.1, hshows.2.2.trans (if_pos hup)⟩,
    fun _ hs h hup => have hshows := seqSend_shows h
      ⟨_, timed_eq hs rfl, hshows.1, hshows.2.1, hshows.2.2.trans (if_neg (by rw [hup]; decide))⟩,
    fun _ _ hs h => timed_eq hs (seqTimeout_closes h), fun _ _ _ _ hs h hw hr => timed_eq hs (seqTimeout_frame h hw hr),
    fun _ _ _ _ hs h hr hw => timed_eq hs (seqTimeout_record h hr hw), fun _ r s => ⟨rfl, recordOrphan_shows r s⟩,
    fun _ _ hs h hw hr => timed_eq hs (seqTimeout_nothing h hw hr), fun _ _ _ hw => hoReq_stands hw,
    fun _ => ⟨hoAsk_unchanged, hoAsk_asks⟩, fun _ hs hp hr hw => timed_eq hs (hoRevertive_asks hp hr hw),
    fun _ hs h => timed_eq hs (hoRevertive_unchanged h), fun _ _ hs h => timed_eq hs (if_pos h),
    fun _ _ hs h h2 => timed_eq hs (hoReqRx_active h h2), fun _ _ hs h h2 => timed_eq hs (hoReqRx_other h h2),
    fun _ _ hs h => timed_eq hs (if_pos h), fun _ _ hs h h1 ha ht => timed_eq hs (hoAckRx_arms h h1 ha ht),
    fun _ _ hs h hn => timed_eq hs (hoAckRx_unchanged h hn), fun _ _ hs h => timed_eq hs (if_pos h),
    fun _ _ hs h ha => timed_eq hs (hoAbortRx_aborts h ha), fun _ _ hs h h3 ha => timed_eq hs (hoAbortRx_unchanged h h3 ha),
    fun _ hs ha h3 => timed_eq hs (hoAckTimeout_aborts ha h3), fun _ hs h => timed_eq hs (hoAckTimeout_unchanged h), hoAbort_shows,
    fun f _ hs h => timed_eq hs (marchTest_paused h f), fun _ hs h => ⟨_, timed_eq hs rfl, marchTest_passes h⟩,
    fun _ _ hs h hf => ⟨_, timed_eq hs rfl, marchTest_fails h hf⟩, fun _ _ _ hs h => timed_eq hs (laneLoopTest_unchanged h),
    fun _ _ _ hs h hl hi => ⟨_, timed_eq hs rfl, laneLoopTest_shows h hl hi⟩⟩

end Sys2Proof.Machine
end

section
/-!
PROOFS. The supply: triggers, the stages, the last gasp, and the restore (R590 to R601; what stops a hold or restore is log entry 101, a trigger
of the other kind in the cycle of t0 log entry 102).
-/

namespace Sys2Proof.Machine

open Sys2Proof

/-! ### Passes given up leave the supply's registers (R524, R527) -/

/-- PWR_STATUS and PWR_EVENT are as they were. -/
structure PwrKept (s t : State) : Prop where
  status : t.word PWR_STATUS = s.word PWR_STATUS
  event : t.word PWR_EVENT = s.word PWR_EVENT

theorem PwrKept.refl (s : State) : PwrKept s s := ⟨rfl, rfl⟩

/-- A register that is neither of the two. -/
def Reg.offPwr (r : Reg) : Prop := r.addr ≠ 0x02400004 ∧ r.addr ≠ 0x02400008

theorem offPwr_outStatus (n : Nat) : (OUT_STATUS n).offPwr := by
  simp only [Reg.offPwr, OUT_STATUS]
  omega

theorem offPwr_calStatus {k : Nat} (hk : k < 6) : (CAL_K_STATUS k).offPwr := by
  simp only [Reg.offPwr, CAL_K_STATUS]
  omega

namespace PwrKept

variable {s t : State} (h : PwrKept s t)
include h

theorem get {f : Fld} (hf : f.reg = PWR_STATUS ∨ f.reg = PWR_EVENT) : t.get f = s.get f := by
  unfold State.get
  rcases hf with hf | hf
  · rw [hf, h.status]
  · rw [hf, h.event]

theorem of_regs {u : State} (hu : u.regs = t.regs) : PwrKept s u :=
  ⟨(State.word_congr hu _).trans h.status, (State.word_congr hu _).trans h.event⟩

theorem put {f : Fld} (hf : f.reg.offPwr) (v : Nat) : PwrKept s (t.put f v) :=
  ⟨(State.word_put_other t v (Ne.symm hf.1)).trans h.status, (State.word_put_other t v (Ne.symm hf.2)).trans h.event⟩

theorem putWide {w : Wide} (hw : w.addr + 4 * w.words ≤ 0x02400004) (v : Nat) : PwrKept s (t.putWide w v) :=
  ⟨(State.word_putWide_other t w v (.inr hw)).trans h.status,
    (State.word_putWide_other t w v (.inr (Nat.le_trans hw (by decide)))).trans h.event⟩

omit h in
theorem ite {c : Prop} [Decidable c] {u : State} (h : PwrKept s t) (h' : PwrKept s u) : PwrKept s (if c then t else u) := by
  split
  · exact h
  · exact h'

omit h in
theorem forEach {α : Type} {l : List α} {g : α → State → State} (h : PwrKept s t) (hg : ∀ a ∈ l, ∀ u, PwrKept s u → PwrKept s (g a u)) :
    PwrKept s (forEach l g t) := forEach_keeps_mem (P := PwrKept s) h hg

theorem outRelease (n : Nat) : PwrKept s (outRelease n t) := by
  have hput := h.put (f := OUT_STATUS_STALE n) (offPwr_outStatus n) 0
  exact ite (hput.of_regs (outStopped_regs n _)) hput

theorem calApplied {k : Nat} (hk : k < 6) (i : Nat) : PwrKept s (calApplied k i t) := by
  have hc : calClass k < 6 := by
    unfold calClass
    split <;> omega
  refine (((h.put ?_ _).putWide ?_ _).put (offPwr_calStatus hc) _).put (offPwr_calStatus hc) _
  · simp only [Reg.offPwr, CAL_COUNT_V, CAL_COUNT]
    omega
  · simp only [CAL_LAST]
    omega

theorem outExchange (n : Nat) : PwrKept s (outExchange n t) := by
  unfold Machine.outExchange
  split
  · exact h
  next l _ =>
    have hlive : PwrKept s (({ t with cal := { t.cal with rotator := smSet [] t.cal.rotator n l } } : State).setOut n
        { t.outRec n with table := none }) := h.of_regs rfl
    exact ite h (((hlive.calApplied (by decide) n).outRelease n).of_regs (outSetCode_regs n _))

theorem outUnstale (n : Nat) : PwrKept s (outUnstale n t) := ite (ite h (h.outExchange n)) (h.outRelease n)

theorem ch78Follow : PwrKept s (ch78Follow t) := by
  have hstatus : CAL_STATUS.offPwr := by unfold Reg.offPwr; decide
  have hwas : ∀ (c : Prop) [Decidable c] (n : Nat), PwrKept s (if c then Machine.outUnstale n t else t) := fun _ _ n =>
    ite (h.outUnstale n) h
  have hrestart : ∀ {u : State}, PwrKept s u → PwrKept s (chanRestart 78 u) := fun hu => by
    unfold chanRestart
    dsimp only
    rw [if_neg (by decide)]
    exact hu.of_regs rfl
  unfold Machine.ch78Follow
  dsimp only
  split
  · exact ite h (hrestart ((((hwas _ _).put hstatus 0).put hstatus 0).put hstatus 0))
  · exact ite h ((((ite ((hwas _ _).put (offPwr_outStatus _) 1) (hwas _ _)).put hstatus 1).put hstatus _).put hstatus _)

theorem calDrop (k i : Nat) : PwrKept s (calDrop k i t) := by
  unfold Machine.calDrop
  split
  · exact ite (h.of_regs rfl) (h.of_regs rfl)
  · exact h.of_regs rfl
  · exact ite ((h.of_regs (u := t.setOut i { t.outRec i with table := none }) rfl).outRelease i) h
  · exact h

/-- Classes other than that of the samplers hold no adaptation. -/
theorem calFrozen {k : Nat} (hk : k < 4) (i : Nat) : PwrKept s (calFrozen k i t) := by
  have hsame : Machine.calFrozen k i t = t := if_neg (by omega)
  rw [hsame]
  exact h

theorem calSettle {k : Nat} (hk : k < 4) : PwrKept s (calSettle k t) := by
  unfold Machine.calSettle
  refine ite ?_ h
  rw [if_neg (by omega)]
  exact (h.of_regs (u := { t with cal := { t.cal with asked := t.cal.asked.erase k } }) rfl).put (offPwr_calStatus (by omega)) 0

theorem calAbandon {k : Nat} (hk : k < 4) (i : Nat) : PwrKept s (calAbandon k i t) := by
  have hclass : calClass k = k := if_neg (by omega)
  have hleft : PwrKept s { Machine.calDrop k i t with cal := { (Machine.calDrop k i t).cal with
      queue := (Machine.calDrop k i t).cal.queue.filter (fun e => !(e.1 == k && e.2 == i)) } } := (h.calDrop k i).of_regs rfl
  unfold Machine.calAbandon
  rw [hclass]
  exact ((((hleft.put (f := CAL_K_STATUS_LAST_RESULT k) (offPwr_calStatus (by omega)) 4).put (f := CAL_EVENT_ABANDONED)
    (by unfold Reg.offPwr; decide) 1).calFrozen hk i).ch78Follow).calSettle hk

end PwrKept

/-- What waits for its application is of the classes 0, 1 and 3. -/
theorem calPending_class {s : State} {e : Nat × Nat} (he : e ∈ calPending s) : e.1 < 4 := by
  simp only [calPending, List.mem_append, List.mem_map, List.mem_ite_nil_right, List.mem_singleton] at he
  rcases he with ((⟨-, rfl⟩ | ⟨-, rfl⟩) | ⟨_, -, rfl⟩) | ⟨_, -, rfl⟩ <;> simp

/-- Where no pass is under way, deferring what waits leaves the supply's registers. -/
theorem calShed_pwr {s : State} (hq : s.cal.queue = []) : PwrKept s (calShed s) := by
  have hall : PwrKept s (calAbandonAll (fun _ => true) s) := (PwrKept.refl s).forEach fun e he u hu => by
    simp only [hq, List.nil_append, List.filter_true] at he
    exact hu.calAbandon (calPending_class he) e.2
  unfold calShed
  simp only [hq, List.nil_append]
  refine PwrKept.forEach (hall.of_regs rfl) fun k hk u hu => ?_
  obtain ⟨e, he, rfl⟩ := List.mem_map.1 (List.mem_eraseDups.1 hk)
  have hclass : calClass e.1 < 6 := by
    have := calPending_class he
    unfold calClass
    split <;> omega
  exact (hu.put (f := CAL_K_STATUS_STATE (calClass e.1)) (offPwr_calStatus hclass) 2).put (f := CAL_EVENT_DEFERRED)
    (by unfold Reg.offPwr; decide) 1

end Sys2Proof.Machine
end

section
/-!
PROOFS. The supply's own steps (R590 to R601).
-/

namespace Sys2Proof.Machine

open Sys2Proof

theorem State.stage_congr {s t : State} (h : t.get PWR_STATUS_STAGE = s.get PWR_STATUS_STAGE) : t.stage = s.stage := h

/-! ### Triggers (R590, R592, R595) -/

section
variable {s : State}

/-- A rail below warning shows in both its bits. -/
theorem railBelow_shows (r : Fin 5) (s : State) :
    ((s.putBit PWR_STATUS_BELOW_WARN r true).putBit PWR_STATUS_BELOW_HYST r true).bit PWR_STATUS_BELOW_WARN r = true ∧
    ((s.putBit PWR_STATUS_BELOW_WARN r true).putBit PWR_STATUS_BELOW_HYST r true).stage = s.stage := by
  have hwarn : (s.putBit PWR_STATUS_BELOW_WARN r true).bit PWR_STATUS_BELOW_WARN r = true :=
    (bit_putBit (by decide) r.isLt r.isLt).trans (if_pos rfl)
  have hapart : PWR_STATUS_BELOW_WARN.Apart ⟨PWR_STATUS, 9 + r, 1⟩ ∧ PWR_STATUS_STAGE.Apart ⟨PWR_STATUS, 9 + r, 1⟩ ∧
      PWR_STATUS_STAGE.Apart ⟨PWR_STATUS, 4 + r, 1⟩ := by
    refine ⟨.inr ⟨rfl, by decide, .inl ?_⟩, .inr ⟨rfl, by decide, .inl ?_⟩, .inr ⟨rfl, by decide, .inl ?_⟩⟩ <;>
      simp only [PWR_STATUS_BELOW_WARN, PWR_STATUS_STAGE] <;> omega
  obtain ⟨hhyst, hstage9, hstage4⟩ := hapart
  refine ⟨?_, State.stage_congr ((State.get_put_apart _ _ hstage9).trans (State.get_put_apart s _ hstage4))⟩
  unfold State.bit at hwarn ⊢
  rw [State.putBit_eq _ PWR_STATUS_BELOW_HYST]
  exact (congrArg (Nat.testBit · r) (State.get_put_apart _ _ hhyst)).trans hwarn

theorem pfailAssert_off (h : s.on PWR_CTRL_PFAIL_EN = false) : pfailAssert s = s := if_pos (by simp [h])

theorem pfailAssert_on (h : s.on PWR_CTRL_PFAIL_EN = true) : pfailAssert s =
    let t := trigger 1 (s.put PWR_STATUS_PFAIL 1)
    if t.on HOLD_FRAM_CFG_EN && t.sel.readDone then framSave t.sel.sinceSave 2 t else t := if_neg (by simp [h])

/-- The event of a trigger of a kind. -/
abbrev triggerEvent (k : Nat) : Fld := if k = 1 then PWR_EVENT_PFAIL else PWR_EVENT_WARN

theorem triggerEvent_reg (k : Nat) : (triggerEvent k).reg = PWR_EVENT := by
  unfold triggerEvent
  split <;> rfl

theorem on_triggerEvent (k : Nat) (s : State) : (s.ev (triggerEvent k)).on (triggerEvent k) = true := by
  unfold triggerEvent
  split <;> exact State.on_ev_same _ (by decide) (by decide)

/-- While a stage stands, and no hold or restore is under way, no trigger counts. -/
theorem trigger_stands {k : Nat} (h0 : s.stage ≠ 0) (hr : s.on PWR_STATUS_RESTORING = false) : trigger k s = triggerBoth k s :=
  if_pos ⟨h0, by simp [hr]⟩

theorem triggerBoth_later {k : Nat} (h : ∀ x, s.pwr.at_ = some x → x.1 ≠ s.now) : triggerBoth k s = s := by
  unfold triggerBoth
  split
  next x first hx => exact if_pos (h _ hx)
  next => rfl

/-- One of the other kind in the cycle of t0 is recorded with it. -/
theorem triggerBoth_same {k : Nat} {b : Bool} (h : s.pwr.at_ = some (s.now, b)) : triggerBoth k s =
    let u : State := { s with pwr := { s.pwr with trig := s.pwr.trig ||| k } }
    if b then u.ev (triggerEvent k) else u := by
  unfold triggerBoth
  rw [h]
  exact if_neg (not_not.2 rfl)

theorem triggerBoth_shows {k : Nat} {b : Bool} (h : s.pwr.at_ = some (s.now, b)) : (triggerBoth k s).pwr.trig = s.pwr.trig ||| k ∧
    (triggerBoth k s).stage = s.stage ∧ (b = true → (triggerBoth k s).on (triggerEvent k) = true) := by
  rw [triggerBoth_same h]
  cases b with
  | true =>
    exact ⟨rfl, State.stage_congr (s := s) (State.get_put_reg (g := triggerEvent k) { s with pwr := { s.pwr with trig := s.pwr.trig ||| k } } 1
      (by rw [triggerEvent_reg]; decide)), fun _ => on_triggerEvent k _⟩
  | false => exact ⟨rfl, rfl, fun h => absurd h (by decide)⟩

/-- What a trigger that counts does in any stage: a new t0, and no hold or restore any more. -/
def triggerCounted (k : Nat) (s : State) : State :=
  let u := ((s.count PWR_CNT_TRIGGERS).put PWR_STATUS_RESTORING 0).putWide PWR_LAST (tb96Of s.tb.count)
  { u with pwr := ⟨false, k, decide (u.tbState = 0), some (u.now, decide (s.stage = 0))⟩ }

theorem trigger_counts {k : Nat} (h : s.stage = 0 ∨ s.on PWR_STATUS_RESTORING = true) : trigger k s =
    if s.stage = 0 then shed1 (raiseMinor 3 ((triggerCounted k s).ev (triggerEvent k))) else triggerCounted k s := by
  have hcounts : ¬(s.stage ≠ 0 ∧ (!s.on PWR_STATUS_RESTORING) = true) := by
    rintro ⟨h0, hr⟩
    rcases h with h | h
    · exact h0 h
    · simp [h] at hr
  unfold trigger
  rw [if_neg hcounts]
  simp only [decide_eq_true_eq]
  rfl

theorem triggerCounted_shows (k : Nat) (s : State) : (triggerCounted k s).stage = s.stage ∧
    (triggerCounted k s).on PWR_STATUS_RESTORING = false ∧
    (triggerCounted k s).get PWR_CNT_TRIGGERS = (s.get PWR_CNT_TRIGGERS + 1) % 2 ^ 16 ∧
    (triggerCounted k s).wide PWR_LAST = tb96Of s.tb.count % 2 ^ 96 ∧ (triggerCounted k s).pwr.trig = k := by
  have hlast : ∀ (u : State) (f : Fld), (f.reg.addr < PWR_LAST.addr) → (u.putWide PWR_LAST (tb96Of s.tb.count)).get f = u.get f :=
    fun u f hf => State.get_putWide_other u PWR_LAST _ (.inl hf)
  have hregs : ∀ u : State, ∀ p : PwrRec, State.regs { u with pwr := p } = u.regs := fun _ _ => rfl
  unfold triggerCounted
  dsimp only
  refine ⟨State.stage_congr ?_, ?_, ?_, ?_, rfl⟩
  · rw [State.get_of_regs (hregs _ _), hlast _ _ (by decide), State.get_put_apart _ _ (.inr (by decide)), State.count_eq,
      State.get_put_reg _ _ (by decide)]
  · rw [State.on_false, State.get_of_regs (hregs _ _), hlast _ _ (by decide), State.get_put_same _ _ _ (by decide)]
    rfl
  · rw [State.get_of_regs (hregs _ _), hlast _ _ (by decide), State.get_put_reg _ _ (by decide)]
    exact State.get_count_same s _ 1 (by decide)
  · rw [State.wide_congr (hregs _ _), State.wide_putWide]
    rfl

/-- From NORMAL the stage SHED1 is entered, the event and the minor alarm noted. -/
theorem trigger_normal {k : Nat} (h0 : s.stage = 0) : ∃ t, trigger k s = shed1 t ∧ t.on (triggerEvent k) = true ∧ t.bit FLT_MINOR_B 3 = true ∧
    t.get PWR_CNT_TRIGGERS = (s.get PWR_CNT_TRIGGERS + 1) % 2 ^ 16 ∧ t.wide PWR_LAST = tb96Of s.tb.count % 2 ^ 96 ∧ t.pwr.trig = k := by
  obtain ⟨-, -, hcount, hlast, htrig⟩ := triggerCounted_shows k s
  have hev := on_triggerEvent k (triggerCounted k s)
  refine ⟨_, (trigger_counts (.inl h0)).trans (if_pos h0), ?_, (bit_putBit (by decide) (by decide) (by decide)).trans (if_pos rfl), ?_, ?_, htrig⟩
  · unfold raiseMinor
    rw [State.on_true, State.get_putBit_reg _ _ (by rw [triggerEvent_reg]; decide), ← State.on_true]
    exact hev
  · unfold raiseMinor
    rw [State.get_putBit_reg _ _ (by decide), State.ev_eq, State.get_put_reg _ _ (by rw [triggerEvent_reg]; decide)]
    exact hcount
  · unfold raiseMinor
    rw [State.putBit_eq, State.wide_put_other _ _ (.inl (by decide)), State.ev_eq, State.wide_put_other _ _ (.inr ?_)]
    · exact hlast
    · rw [triggerEvent_reg]
      decide

theorem trigger_shows (k : Nat) (s : State) :
    (s.stage ≠ 0 → s.on PWR_STATUS_RESTORING = false → (∀ x, s.pwr.at_ = some x → x.1 ≠ s.now) → trigger k s = s) ∧
    (∀ b, s.stage ≠ 0 → s.on PWR_STATUS_RESTORING = false → s.pwr.at_ = some (s.now, b) → (trigger k s).pwr.trig = s.pwr.trig ||| k ∧
      (trigger k s).stage = s.stage ∧ (b = true → (trigger k s).on (triggerEvent k) = true)) ∧
    (s.stage ≠ 0 → s.on PWR_STATUS_RESTORING = true → (trigger k s).stage = s.stage ∧ (trigger k s).on PWR_STATUS_RESTORING = false ∧
      (trigger k s).get PWR_CNT_TRIGGERS = (s.get PWR_CNT_TRIGGERS + 1) % 2 ^ 16 ∧ (trigger k s).wide PWR_LAST = tb96Of s.tb.count % 2 ^ 96 ∧
      (trigger k s).pwr.trig = k) ∧
    (s.stage = 0 → ∃ t, trigger k s = shed1 t ∧ t.on (triggerEvent k) = true ∧
      t.bit FLT_MINOR_B 3 = true ∧ t.get PWR_CNT_TRIGGERS = (s.get PWR_CNT_TRIGGERS + 1) % 2 ^ 16 ∧
      t.wide PWR_LAST = tb96Of s.tb.count % 2 ^ 96 ∧ t.pwr.trig = k) := by
  refine ⟨fun h0 hr hx => (trigger_stands h0 hr).trans (triggerBoth_later hx), fun b h0 hr hb => ?_, fun h0 hr => ?_, trigger_normal⟩
  · rw [trigger_stands h0 hr]
    exact triggerBoth_shows hb
  · rw [trigger_counts (.inr hr), if_neg h0]
    exact triggerCounted_shows k s

/-! ### The stages (R592, R598) -/

/-- Without queues no STALLED mode changes. -/
theorem spillShed_idle (hq : s.queues = []) (h3 : s.stage ≠ 3) : spillShed s = s ∨ spillShed s = s.put QM_SPILL_STATUS_STATE 3 := by
  unfold spillShed stallAll
  dsimp only
  split
  · refine .inr ?_
    rw [State.put_queues, hq]
    rfl
  · exact .inl rfl

theorem eyeAbortAll_idle (hl : s.lanes = []) : eyeAbortAll s = s := by
  unfold eyeAbortAll
  rw [hl]
  rfl

theorem shed1_shows (hq : s.queues = []) (hl : s.lanes = []) (hc : s.cal.queue = []) :
    (shed1 s).stage = 1 ∧ (shed1 s).on PWR_EVENT_SHED1 = true := by
  have hstage : ((s.put PWR_STATUS_STAGE 1).ev PWR_EVENT_SHED1).stage = 1 :=
    (State.get_put_reg _ _ (by decide)).trans (State.get_put_same s PWR_STATUS_STAGE 1 (by decide))
  have hev : ((s.put PWR_STATUS_STAGE 1).ev PWR_EVENT_SHED1).on PWR_EVENT_SHED1 = true := State.on_ev_same _ (by decide) (by decide)
  have hspill := spillShed_idle (s := (s.put PWR_STATUS_STAGE 1).ev PWR_EVENT_SHED1) hq (by rw [hstage]; decide)
  have hkept : PwrKept ((s.put PWR_STATUS_STAGE 1).ev PWR_EVENT_SHED1) (shed1 s) := by
    unfold shed1
    dsimp only
    rcases hspill with he | he <;> rw [he]
    · rw [eyeAbortAll_idle (s := (s.put PWR_STATUS_STAGE 1).ev PWR_EVENT_SHED1) hl]
      exact calShed_pwr hc
    · rw [eyeAbortAll_idle (s := ((s.put PWR_STATUS_STAGE 1).ev PWR_EVENT_SHED1).put QM_SPILL_STATUS_STATE 3) hl]
      have hput := (PwrKept.refl ((s.put PWR_STATUS_STAGE 1).ev PWR_EVENT_SHED1)).put (f := QM_SPILL_STATUS_STATE)
        (by unfold Reg.offPwr; decide) 3
      have hshed := calShed_pwr (s := ((s.put PWR_STATUS_STAGE 1).ev PWR_EVENT_SHED1).put QM_SPILL_STATUS_STATE 3) hc
      exact ⟨hshed.status.trans hput.status, hshed.event.trans hput.event⟩
  refine ⟨(State.stage_congr (hkept.get (.inl rfl))).trans hstage, ?_⟩
  rw [State.on_true, hkept.get (.inr rfl), ← State.on_true]
  exact hev

variable {g : Nat}

theorem shedGroup_unchanged (hg : g < 3) (h : s.stage = 0 ∨ s.on PWR_STATUS_RESTORING = true ∨ s.get PWR_STATUS_GROUPS_SHED ≠ 2 - g) :
    shedGroup (g + 1) s = s := by
  refine if_pos ?_
  rw [show 3 - (g + 1) = 2 - g by omega]
  exact h

/-- The group of its turn is shed; the first one takes SHED1 to SHED2. -/
theorem shedGroup_sheds (hg : g < 3) (h0 : s.stage ≠ 0) (hr : s.on PWR_STATUS_RESTORING = false) (hn : s.get PWR_STATUS_GROUPS_SHED = 2 - g) :
    shedGroup (g + 1) s = shedLanes ((if s.stage = 1 then (s.put PWR_STATUS_STAGE 2).ev PWR_EVENT_SHED2 else s).put PWR_STATUS_GROUPS_SHED
      (3 - g)) := by
  refine (if_neg ?_).trans ?_
  · rw [show 3 - (g + 1) = 2 - g by omega]
    simp [h0, hr, hn]
  · rw [show 4 - (g + 1) = 3 - g by omega]

theorem shed3_unchanged (h : s.stage ≠ 2 ∨ s.on PWR_STATUS_RESTORING = true ∨ s.get PWR_STATUS_GROUPS_SHED ≠ 3) : shed3 s = s := if_pos h

/-- SHED3 follows the groups, with the last gasp in RUNNING alone. -/
theorem shed3_enters (h2 : s.stage = 2) (hr : s.on PWR_STATUS_RESTORING = false) (hn : s.get PWR_STATUS_GROUPS_SHED = 3) : shed3 s =
    let t := spillShed (((s.put PWR_STATUS_STAGE 3).ev PWR_EVENT_SHED3).count PWR_CNT_SHED3)
    selfDemote 2 (if t.running then lastGaspAnnounce (lastGaspWrite t) else t) := if_neg (by simp [h2, hr, hn])

/-! ### The last gasp (R596) -/

theorem lastGasp_length (s : State) : (lastGasp s).length = 64 := by
  unfold lastGasp
  simp only [List.length_append, length_leBytes]

theorem lastGaspWrite_on (hl : s.on PWR_CTRL_LG_FRAM_EN = true) (hf : s.on HOLD_FRAM_CFG_EN = true) : (lastGaspWrite s).on PWR_EVENT_LG_DONE = true ∧
    (lastGaspWrite s).sel.lgSlotB = !s.sel.lgSlotB ∧ (lastGaspWrite s).sel.lgSeq = (s.sel.lgSeq + 1) % 2 ^ 32 := by
  unfold lastGaspWrite
  rw [if_pos ⟨hl, hf⟩]
  exact ⟨State.on_ev_same _ (by decide) (by decide), rfl, rfl⟩

theorem lastGaspWrite_off (h : s.on PWR_CTRL_LG_FRAM_EN = false ∨ s.on HOLD_FRAM_CFG_EN = false) : lastGaspWrite s = s := by
  refine if_neg ?_
  rintro ⟨hl, hf⟩
  simp [hl, hf] at h

/-! ### The clear and the restore (R594, R598, R599) -/

/-- The rails and PFAIL_N are clear. -/
def railsClear (s : State) : State := ((s.put PWR_STATUS_BELOW_WARN 0).put PWR_STATUS_BELOW_HYST 0).put PWR_STATUS_PFAIL 0

theorem railsClear_shows (s : State) : FieldsKept [PWR_STATUS_BELOW_WARN, PWR_STATUS_BELOW_HYST, PWR_STATUS_PFAIL] s (railsClear s) ∧
    (railsClear s).get PWR_STATUS_BELOW_WARN = 0 ∧ (railsClear s).get PWR_STATUS_BELOW_HYST = 0 ∧ (railsClear s).on PWR_STATUS_PFAIL = false := by
  unfold railsClear
  refine ⟨(((FieldsKept.refl _ s).put (by decide) 0).put (by decide) 0).put (by decide) 0, ?_, ?_, State.on_put_same _ (by decide) (by decide)⟩
  · rw [State.get_put_apart _ _ (.inr (by decide)), State.get_put_apart _ _ (.inr (by decide)), State.get_put_same _ _ _ (by decide)]
    rfl
  · rw [State.get_put_apart _ _ (.inr (by decide)), State.get_put_same _ _ _ (by decide)]
    rfl

theorem triggerClear_eq (s : State) : triggerClear s =
    if s.stage = 0 ∨ s.pwr.restoring = true then railsClear s else (railsClear s).put PWR_STATUS_RESTORING 1 := by
  have hstage : (railsClear s).stage = s.stage := State.stage_congr ((railsClear_shows s).1.get (by decide))
  change (if (railsClear s).stage = 0 ∨ s.pwr.restoring = true then _ else _) = _
  rw [hstage]
  rfl

theorem triggerClear_holds (h0 : s.stage ≠ 0) (hr : s.pwr.restoring = false) : (triggerClear s).on PWR_STATUS_RESTORING = true ∧
    (triggerClear s).get PWR_STATUS_BELOW_WARN = 0 ∧ (triggerClear s).get PWR_STATUS_BELOW_HYST = 0 ∧
    (triggerClear s).on PWR_STATUS_PFAIL = false ∧ (triggerClear s).stage = s.stage := by
  obtain ⟨hkept, hwarn, hhyst, hpfail⟩ := railsClear_shows s
  have hput := (FieldsKept.refl [PWR_STATUS_RESTORING] (railsClear s)).put (g := PWR_STATUS_RESTORING) (by decide) 1
  rw [triggerClear_eq, if_neg (by simp [h0, hr])]
  exact ⟨State.on_put_same _ (by decide) (by decide), (hput.get (by decide)).trans hwarn, (hput.get (by decide)).trans hhyst,
    (hput.on (by decide)).trans hpfail, State.stage_congr (s := s) ((hput.get (by decide)).trans (hkept.get (by decide)))⟩

theorem triggerClear_stands (h : s.stage = 0 ∨ s.pwr.restoring = true) :
    (triggerClear s).on PWR_STATUS_RESTORING = s.on PWR_STATUS_RESTORING ∧ (triggerClear s).get PWR_STATUS_BELOW_WARN = 0 ∧
    (triggerClear s).on PWR_STATUS_PFAIL = false ∧ (triggerClear s).stage = s.stage := by
  obtain ⟨hkept, hwarn, -, hpfail⟩ := railsClear_shows s
  rw [triggerClear_eq, if_pos h]
  exact ⟨hkept.on (by decide), hwarn, hpfail, State.stage_congr (s := s) (hkept.get (by decide))⟩

theorem railHyst_shows (r : Fin 5) (s : State) : (railHyst r s).bit PWR_STATUS_BELOW_HYST r = true ∧ (railHyst r s).stage = s.stage ∧
    (railHyst r s).pwr = s.pwr := by
  have hapart : PWR_STATUS_STAGE.Apart ⟨PWR_STATUS, 9 + r, 1⟩ := .inr ⟨rfl, by decide, .inl (by simp only [PWR_STATUS_STAGE]; omega)⟩
  exact ⟨(bit_putBit (by decide) r.isLt r.isLt).trans (if_pos rfl), State.stage_congr (s := s) (State.get_put_apart s _ hapart), rfl⟩

theorem restoreStart_unchanged (h : s.on PWR_STATUS_RESTORING = false ∨ s.pwr.restoring = true ∨ s.get PWR_STATUS_BELOW_HYST ≠ 0 ∨
    s.on PWR_STATUS_PFAIL = true) : restoreStart s = s := by
  refine if_pos ?_
  simpa [or_assoc] using h

/-- The state in which the restore runs. -/
abbrev restoring (s : State) : State := { s with pwr := { s.pwr with restoring := true } }

theorem restoreStart_starts (hr : s.on PWR_STATUS_RESTORING = true) (hp : s.pwr.restoring = false) (hh : s.get PWR_STATUS_BELOW_HYST = 0)
    (hf : s.on PWR_STATUS_PFAIL = false) : restoreStart s = if s.stage = 3 then spillShed ((restoring s).put PWR_STATUS_STAGE 2)
      else if s.stage = 2 then groupRelease (restoring s) else restoreEnd (restoring s) := if_neg (by simp [hr, hp, hh, hf])

theorem restoreStep_unchanged (h : s.pwr.restoring = false) : restoreStep s = s := if_pos (by simp [h])

theorem restoreStep_steps (h : s.pwr.restoring = true) : restoreStep s = if s.stage = 2 then groupRelease s else restoreEnd s :=
  if_neg (by simp [h])

/-- The restore ends NORMAL, with RESTORED. -/
theorem restoreEnd_shows (h : s.get QM_SPILL_STATUS_STATE ≠ 3) : ∃ t, restoreEnd s = calResume t ∧ t.stage = 0 ∧
    t.on PWR_STATUS_RESTORING = false ∧ t.on PWR_EVENT_RESTORED = true ∧ t.pwr.restoring = false := by
  have hend : ∃ t : State, t.regs = (((s.put PWR_STATUS_STAGE 0).put PWR_STATUS_RESTORING 0).ev PWR_EVENT_RESTORED).regs ∧
      t.pwr.restoring = false ∧ restoreEnd s = calResume (if t.get QM_SPILL_STATUS_STATE = 3 then stallAll (spillReturn t) else t) :=
    ⟨{ ((s.put PWR_STATUS_STAGE 0).put PWR_STATUS_RESTORING 0).ev PWR_EVENT_RESTORED with pwr := { s.pwr with restoring := false } }, rfl, rfl, rfl⟩
  obtain ⟨t, hregs, hrest, he⟩ := hend
  have hspill : t.get QM_SPILL_STATUS_STATE = s.get QM_SPILL_STATUS_STATE := by
    rw [State.get_of_regs hregs, State.ev_eq, State.get_put_reg _ _ (by decide), State.get_put_reg _ _ (by decide),
      State.get_put_reg _ _ (by decide)]
  rw [hspill, if_neg h] at he
  refine ⟨t, he, State.stage_congr (s := s.put PWR_STATUS_STAGE 0) ?_ |>.trans (State.get_put_same s PWR_STATUS_STAGE 0 (by decide)), ?_, ?_, hrest⟩
  · rw [State.get_of_regs hregs, State.ev_eq, State.get_put_reg _ _ (by decide), State.get_put_apart _ _ (.inr (by decide))]
  · rw [State.on_of_regs hregs, State.on_false, State.ev_eq, State.get_put_reg _ _ (by decide), State.get_put_same _ _ _ (by decide)]
    rfl
  · rw [State.on_of_regs hregs]
    exact State.on_ev_same _ (by decide) (by decide)

end

/-- Settles O52: each row is the monitor's own step, by the case its conditions name. -/
theorem supplyCommands : Obligations.SupplyCommands := by
  refine ⟨fun r s hr => run_eq hr rfl, railBelow_shows, fun s hr h => run_eq hr (pfailAssert_off h), fun t s hr h ht hn => ?_,
    fun t s hr h ht hn => ?_, trigger_shows, fun s hq hl hc => shed1_shows hq hl hc, fun g s hr h => run_eq hr (shedGroup_unchanged g.isLt h),
    fun g s hr h1 hh hn => run_eq hr ((shedGroup_sheds g.isLt (by rw [h1]; decide) hh hn).trans (by rw [if_pos h1])),
    fun g s hr h2 hh hn => run_eq hr ((shedGroup_sheds g.isLt (by omega) hh hn).trans (by rw [if_neg (by omega)])),
    fun s hr h => run_eq hr (shed3_unchanged h), fun t s hr h2 hh hn ht hrun => ?_, fun t s hr h2 hh hn ht hrun => ?_,
    fun s => ⟨lastGaspWrite_on, lastGaspWrite_off, lastGasp_length s⟩, fun k s => ⟨selfDemote_active, selfDemote_other⟩,
    fun s hr h0 hp => ⟨_, run_eq hr rfl, triggerClear_holds h0 hp⟩, fun s hr h => ⟨_, run_eq hr rfl, triggerClear_stands h⟩,
    fun r s hr => ⟨_, run_eq hr rfl, railHyst_shows r s⟩, fun s hr h => run_eq hr (restoreStart_unchanged h),
    fun s hr ho hp hh hf h3 => ⟨_, run_eq hr ((restoreStart_starts ho hp hh hf).trans (if_pos h3)), _, rfl,
      State.get_put_same (restoring s) PWR_STATUS_STAGE 2 (by decide), rfl⟩,
    fun s hr ho hp hh hf h2 => run_eq hr ((restoreStart_starts ho hp hh hf).trans ((if_neg (by omega)).trans (if_pos h2))),
    fun s hr ho hp hh hf hlt => run_eq hr ((restoreStart_starts ho hp hh hf).trans ((if_neg (by omega)).trans (if_neg (by omega)))),
    fun s hr hp => run_eq hr (restoreStep_unchanged hp), fun s hr hp h2 => run_eq hr ((restoreStep_steps hp).trans (if_pos h2)),
    fun s hr hp h2 => run_eq hr ((restoreStep_steps hp).trans (if_neg h2)), fun s h => restoreEnd_shows h⟩
  · subst ht
    exact run_eq hr ((pfailAssert_on h).trans (if_neg (by rw [hn]; decide)))
  · subst ht
    exact run_eq hr ((pfailAssert_on h).trans (if_pos hn))
  · subst ht
    exact run_eq hr ((shed3_enters h2 hh hn).trans (congrArg (selfDemote 2) (if_neg (by rw [hrun]; decide))))
  · subst ht
    exact run_eq hr ((shed3_enters h2 hh hn).trans (congrArg (selfDemote 2) (if_pos hrun)))

end Sys2Proof.Machine
end

section
/-!
PROOFS. The records of an image: which record acts, the loader's writes, the waits, the verification and END (R620, R624 to R629, R638, R644;
that KEY_HASH is checked at the end of the verification is the model's order).
-/

namespace Sys2Proof.Machine

open Sys2Proof

section
variable {s : State}

/-! ### A record at the front (R624, R629) -/

theorem record_acts {ty : Nat} {f : List Byte → State → State} (ha : s.ldr.active = true) (he : s.ldr.executing = true) (hp : s.phase = 2)
    (ht : recType s = ty) : record ty f s = f (recBody s) (if ty = 8 then s else { s with ldr := { s.ldr with tblMixed := true } }) := by
  unfold record
  rw [if_pos ⟨ha, he, hp, ht⟩]
  dsimp only
  split <;> rfl

theorem record_other {ty : Nat} {f : List Byte → State → State}
    (h : s.ldr.active = false ∨ s.ldr.executing = false ∨ s.phase ≠ 2 ∨ recType s ≠ ty) : record ty f s = s := by
  refine if_neg ?_
  rintro ⟨ha, he, hp, ht⟩
  rcases h with h | h | h | h
  · exact absurd ha (by simp [h])
  · exact absurd he (by simp [h])
  · exact h hp
  · exact h ht

/-- The ten rows of records, each under its TYPE. -/
theorem exec_record {ty : Nat} {i : Instr} {f : List Byte → State → State} (h : (i, ty, f) ∈ ([(.write32, 0x02, recWrite32), (.writeBlock, 0x03, recWriteBlock),
    (.fill, 0x04, recFill), (.modify, 0x05, recModify), (.waitTime, 0x06, recWaitTime), (.waitBit, 0x07, recWaitBit),
    (.tableLoad, 0x08, recTableLoad), (.key, 0x09, recKey), (.signature, 0x0A, recSignature), (.end_, 0x0B, recEnd)] :
      List (Instr × Nat × (List Byte → State → State)))) (s : State) : exec i s = timed (record ty f) s := by
  simp only [List.mem_cons, Prod.mk.injEq, List.not_mem_nil, or_false] at h
  rcases h with ⟨rfl, rfl, rfl⟩ | ⟨rfl, rfl, rfl⟩ | ⟨rfl, rfl, rfl⟩ | ⟨rfl, rfl, rfl⟩ | ⟨rfl, rfl, rfl⟩ | ⟨rfl, rfl, rfl⟩ | ⟨rfl, rfl, rfl⟩ |
    ⟨rfl, rfl, rfl⟩ | ⟨rfl, rfl, rfl⟩ | ⟨rfl, rfl, rfl⟩ <;> rfl

/-! ### The loader's writes (R625) -/

theorem loaderPut_stores {a v : Nat} (ha : s.ldr.active = true) (h0 : (busWrite .loader a 15 (BitVec.ofNat 32 v) s).1 = 0) :
    loaderPut a v s = (busWrite .loader a 15 (BitVec.ofNat 32 v) s).2 := by
  unfold loaderPut
  rw [if_neg (by simp [ha])]
  exact if_neg (by simp [h0])

/-- A register that belongs to no port lies at its address in every state. -/
theorem placeOf_reg {a : Nat} {h : RegHit} (h4 : a % 4 = 0) (ha : a < 0x03000000) (hf : regAt a = some h) (hp : hitPort h = none) :
    placeOf s a = .reg h := by
  unfold placeOf
  rw [if_neg (by omega), if_neg (by omega), hf]
  dsimp only
  rw [hp]

/-- At the address lies a register that the loader does not write. -/
def barsLoader (a : Nat) : Bool :=
  a % 4 == 0 && decide (a < 0x02700000) && (regAt a).any (fun h => loaderBars h.spec.id && (hitPort h).isNone)

theorem barsLoader_words : ∀ r ∈ [GLB_CTRL, LDR_HOST_CTRL, LDR_HOST_FIFO], barsLoader r.addr = true := by decide +kernel

/-- The loader's write of it is refused there. -/
theorem placeWrite_barred {a : Nat} (hb : barsLoader a = true) (v : Word) (s0 s : State) : placeWrite .loader a 15 v s0 s = (3, s) := by
  simp only [barsLoader, Bool.and_eq_true, beq_iff_eq, decide_eq_true_eq, Option.any_eq_true, Option.isNone_iff_eq_none] at hb
  obtain ⟨⟨h4, ha⟩, h, hf, hbars, hport⟩ := hb
  unfold placeWrite
  rw [if_neg (by simp), placeOf_reg h4 (by omega) hf hport]
  dsimp only
  unfold regAccess
  have hlevel : privOf s .loader = 2 := rfl
  rw [hlevel]
  simp [hbars]

theorem busWrite_barred {a : Nat} (hb : barsLoader a = true) (v : Word) (s : State) :
    (busWrite .loader a 15 v s).1 = 3 ∧ OnlyPmc s (busWrite .loader a 15 v s).2 := by
  by_cases hs : served s .loader = true
  · have hplace := placeWrite_barred hb v s (counted .loader a s)
    refine ⟨?_, (counted_only .loader a s).trans (busWrite_only hs hplace)⟩
    rw [busWrite_served hs hplace]
    rfl
  · have hidle : busWrite .loader a 15 v s = (3, s) := if_pos (by simp [hs])
    rw [hidle]
    exact ⟨rfl, OnlyPmc.refl s⟩

/-! ### The next record, and the waits (R620, R629) -/

theorem ldrPhase_phase (p : Nat) (s : State) : (ldrPhase p s).phase = p % 2 ^ 4 := State.get_put_same s _ p (by decide)

/-- The front record was the section's last, and no section is read ahead. -/
theorem recDone_last (ha : s.ldr.active = true) (hb : s.ldr.buf.length ≤ 4 + recLen s) (h2 : s.ldr.buf2 = none) :
    (recDone s).ldr.executing = false ∧ (recDone s).phase = 2 ∧ (recDone s).ldr.offset = s.ldr.offset + (4 + recLen s) ∧
      (recDone s).ldr.wait = .none := by
  have hempty : s.ldr.buf.drop (4 + recLen s) = [] := List.drop_eq_nil_of_le hb
  have hdone : recDone s = fifoSpace (ldrPhase 2 { s with ldr := { s.ldr with
      buf := [], offset := s.ldr.offset + (4 + recLen s), wait := .none, executing := false } }) := by
    unfold recDone
    rw [if_neg (by simp [ha])]
    dsimp only
    rw [hempty]
    change (match s.ldr.buf2 with | none => _ | some b => _) = _
    rw [h2]
    rfl
  rw [hdone]
  exact ⟨rfl, (State.get_put_reg _ _ (by decide)).trans (ldrPhase_phase 2 _), rfl, rfl⟩

theorem recWait_shows (w : LdrWait) (s : State) : (recWait w s).phase = 3 ∧ (recWait w s).ldr.wait = w := ⟨ldrPhase_phase 3 _, rfl⟩

theorem waitTimeExpire_idle (h : s.ldr.active = false ∨ s.ldr.wait ≠ .time) : waitTimeExpire s = s := by
  unfold waitTimeExpire
  split
  next hw => exact if_neg (by simpa [hw] using h)
  next => rfl

theorem waitTimeExpire_ends (ha : s.ldr.active = true) (hw : s.ldr.wait = .time) : waitTimeExpire s = recDone s := by
  unfold waitTimeExpire
  rw [hw]
  exact if_pos ha

/-- No WAIT_BIT record of a load is waited for. -/
abbrev NoBitWait (s : State) : Prop := s.ldr.active = false ∨ ∀ a m e f, s.ldr.wait ≠ .bit a m e f

theorem waitBitMatch_idle (h : NoBitWait s) : waitBitMatch s = s := by
  unfold waitBitMatch
  split
  next a m e f hw =>
    rcases h with h | h
    · exact if_pos (by simp [h])
    · exact absurd hw (h a m e f)
  next => rfl

theorem waitBitTimeout_idle (h : NoBitWait s) : waitBitTimeout s = s := by
  unfold waitBitTimeout
  split
  next a m e f hw =>
    rcases h with h | h
    · exact if_pos (by simp [h])
    · exact absurd hw (h a m e f)
  next => rfl

section
variable {a m e : Nat} {f : Bool}

theorem waitBitMatch_polls (ha : s.ldr.active = true) (hw : s.ldr.wait = .bit a m e f) : waitBitMatch s =
    if (BitVec.ofNat 32 (busRead .loader a s).2.1 &&& BitVec.ofNat 32 m : Word) = BitVec.ofNat 32 e then
      recDone (busRead .loader a s).2.2 else (busRead .loader a s).2.2 := by
  unfold waitBitMatch
  rw [hw]
  exact if_neg (by simp [ha])

theorem waitBitTimeout_expires (ha : s.ldr.active = true) (hw : s.ldr.wait = .bit a m e f) :
    waitBitTimeout s = if f then ldrFail 8 s.ldr.offset s else recDone (s.ev LDR_EVENT_WAIT_EXPIRED) := by
  unfold waitBitTimeout
  rw [hw]
  exact if_neg (by simp [ha])

end

/-! ### The verification (R629) -/

/-- The key `k` verifies the signature held over the first `n` bytes of the image. -/
abbrev sigOk (s : State) (n : Nat) (k : List Byte) : Bool :=
  ecdsaOk (natBE ((k.drop 0).take 32)) (natBE ((k.drop 32).take 32)) (natBE ((s.ldr.sig.drop 0).take 32))
    (natBE ((s.ldr.sig.drop 32).take 32)) (s.ldr.all.take n)

theorem signatureVerified_idle (h : s.ldr.active = false ∨ s.phase ≠ 4 ∨ s.ldr.sigAt = none ∨ s.ldr.signKey = none) :
    signatureVerified s = s := by
  unfold signatureVerified
  split
  next n k hn hk => exact if_pos (by simpa [hn, hk] using h)
  next => rfl

theorem signatureVerified_checks {n : Nat} {k : List Byte} (ha : s.ldr.active = true) (hp : s.phase = 4) (hn : s.ldr.sigAt = some n)
    (hk : s.ldr.signKey = some k) : signatureVerified s = if s.otp.keyHash ≠ some (natBE (sha256 k)) then ldrFail 9 n s
      else if sigOk s n k then recDone s else ldrFail 0x0A n s := by
  unfold signatureVerified
  rw [hn, hk]
  exact if_neg (by simp [ha, hp])

end

/-! ### END (R42, R627, R644) -/

/-- The image's enables are applied, its directory and numbers shown, and DONE set. -/
def endShown (s : State) : State :=
  let s := ldrPhase 5 s
  let s := forEach s.ldr.defer deferApply s
  let s := backedSet s
  let us := (s.now - s.ldr.started) / 250
  let s := (s.put GLB_STATE_IMAGE (s.get LDR_STATUS_SOURCE)).put LDR_IMAGE_VER_V s.ldr.imgVer
  (s.put LDR_LOAD_TIME_V (min us (2 ^ 32 - 1))).ev LDR_EVENT_DONE

/-- The load is over: PHASE is DONE, no source is read. -/
def endStopped (s : State) : State :=
  let s : State := { s with ldr := { s.ldr with imgCrc := hdrWord s.ldr.hdr (0x3C + 12 * hdrSections s.ldr.hdr) } }
  (ldrPhase 8 (ldrStop s)).put LDR_STATUS_SOURCE 3

/-- The reload is over and the device in RUNNING. -/
def endEntered (s : State) : State :=
  let stays := if s.ldr.reload && s.on ECC_CTRL_CFG_RELOAD && s.on ECC_CTRL_CFG_CHECK_EN then upsetBlocks s else []
  let s : State := { s with
    ldr := { s.ldr with reload := false, left := [] }, ecc := { s.ecc with met := stays }, escDue := s.escDue + stays.length }
  (s.put GLB_CTRL_RELOAD 0).put GLB_STATE_STATE 3

/-- A time base without a source is noted there (R42). -/
def endRuns (s : State) : State :=
  if (endEntered s).on TB_STATUS_SRC_VOID then (endEntered s).ev TB_EVENT_SRC_VOID else endEntered s

theorem recEnd_eq (b : List Byte) (s : State) : recEnd b s = outStatusAll (endRuns (endStopped (endShown s))) := rfl

/-- The fields a stopped load leaves behind. -/
abbrev stopFields : List Fld := [LDR_HOST_CTRL_START, LDR_HOST_STATUS_WAITING, LDR_HOST_STATUS_SPACE]

theorem ldrStop_fields (s : State) : FieldsKept stopFields s (ldrStop s) := by
  have hstart : FieldsKept stopFields s ({ s with ldr := { s.ldr with
      active := false, hdr := [], all := [], buf := [], buf2 := none, executing := false, next := 0, retry := false, offset := 0,
      signKey := none, sigAt := none, sig := [], tblRegion := none, tblMixed := false, tblBytes := [],
      defer := [], dirNew := [], hostIf := 0, stream := [], wait := .none } }) := (FieldsKept.refl _ s).of_regs rfl
  exact ((hstart.put (by decide) 0).put (by decide) 0).put (g := LDR_HOST_STATUS_SPACE) (by decide) _

theorem endStopped_fields (s : State) : FieldsKept (LDR_STATUS_PHASE :: LDR_STATUS_SOURCE :: stopFields) s (endStopped s) := by
  have hstop := (ldrStop_fields { s with ldr := { s.ldr with imgCrc := hdrWord s.ldr.hdr (0x3C + 12 * hdrSections s.ldr.hdr) } }).mono
    (vs := LDR_STATUS_PHASE :: LDR_STATUS_SOURCE :: stopFields) (by decide)
  exact ((((FieldsKept.refl _ s).of_regs rfl).trans hstop).put (g := LDR_STATUS_PHASE) (by decide) 8).put (by decide) 3

theorem endStopped_phase (s : State) : (endStopped s).phase = 8 := by
  have hsource : ∀ t : State, (t.put LDR_STATUS_SOURCE 3).phase = t.phase := fun t => State.get_put_apart t 3 (.inr (by decide))
  exact (hsource _).trans (ldrPhase_phase 8 _)

theorem endRuns_fields (s : State) : FieldsKept [GLB_CTRL_RELOAD, GLB_STATE_STATE, TB_EVENT_SRC_VOID] s (endRuns s) := by
  have hrun : FieldsKept [GLB_CTRL_RELOAD, GLB_STATE_STATE, TB_EVENT_SRC_VOID] s (endEntered s) :=
    (((FieldsKept.refl _ s).of_regs rfl).put (by decide) 0).put (by decide) 3
  exact .ite (hrun.put (g := TB_EVENT_SRC_VOID) (by decide) 1) hrun

theorem endRuns_state (s : State) : (endRuns s).get GLB_STATE_STATE = 3 := by
  have hrun : (endEntered s).get GLB_STATE_STATE = 3 := State.get_put_same _ _ 3 (by decide)
  unfold endRuns
  split
  · rw [State.ev_eq, State.get_put_reg _ 1 (by decide), hrun]
  · exact hrun

theorem endRuns_ldr (s : State) : (endRuns s).ldr = { s.ldr with reload := false, left := [] } := by
  unfold endRuns
  split <;> rfl

/-- What END leaves. -/
theorem recEnd_shows (b : List Byte) (s : State) : (recEnd b s).phase = 8 ∧ (recEnd b s).on LDR_EVENT_DONE = true ∧
    (recEnd b s).get GLB_STATE_STATE = 3 ∧ (recEnd b s).ldr.active = false ∧ (recEnd b s).ldr.reload = false ∧ (recEnd b s).ldr.defer = [] := by
  have hdone : (endShown s).on LDR_EVENT_DONE = true := State.on_ev_same _ (by decide) (by decide)
  rw [recEnd_eq]
  generalize endShown s = t at hdone
  have houts := outStatusAll_only (endRuns (endStopped t))
  have hldr : (outStatusAll (endRuns (endStopped t))).ldr = { (endStopped t).ldr with reload := false, left := [] } := by
    rw [houts.rest]
    exact endRuns_ldr _
  refine ⟨?_, ?_, ?_, ?_, ?_, ?_⟩
  · exact ((houts.get (.inr (by decide)) (.inr (by decide))).trans ((endRuns_fields _).get (by decide))).trans (endStopped_phase t)
  · rw [State.on_true] at hdone ⊢
    rw [houts.get (.inr (by decide)) (.inr (by decide)), (endRuns_fields _).get (by decide), (endStopped_fields t).get (by decide)]
    exact hdone
  · exact (houts.get (.inl (by decide)) (.inl (by decide))).trans (endRuns_state _)
  · exact congrArg LdrRec.active hldr
  · exact congrArg LdrRec.reload hldr
  · exact congrArg LdrRec.defer hldr

/-- Settles O54, row by row. -/
theorem recordsOfAnImage : Obligations.RecordsOfAnImage := by
  refine ⟨fun ty i f hi s hs => ⟨fun h => ?_, fun ha he hp ht => ?_⟩, fun a v s ha h0 => loaderPut_stores ha h0,
    fun r v s hr => busWrite_barred (barsLoader_words r hr) v s, fun s ha hb h2 => recDone_last ha hb h2, fun b s => ?_,
    fun s hs h => timed_eq hs (waitTimeExpire_idle h), fun s hs ha hw => timed_eq hs (waitTimeExpire_ends ha hw),
    fun s hs h => timed_eq hs (waitBitMatch_idle h), fun a m e f s hs ha hw heq => timed_eq hs ?_,
    fun a m e f s hs ha hw hne => timed_eq hs ?_, fun s hs h => timed_eq hs (waitBitTimeout_idle h),
    fun a m e s hs ha hw => timed_eq hs (waitBitTimeout_expires ha hw), fun a m e s hs ha hw => timed_eq hs (waitBitTimeout_expires ha hw),
    fun s hs h => timed_eq hs (signatureVerified_idle h), fun n k s hs ha hp hn hk hh => timed_eq hs ?_,
    fun n k s hs ha hp hn hk hh hok => timed_eq hs ?_, fun n k s hs ha hp hn hk hh hok => timed_eq hs ?_⟩
  · rw [exec_record hi]
    exact timed_eq hs (record_other h)
  · rw [exec_record hi]
    exact timed_eq hs (record_acts ha he hp ht)
  · exact ⟨(recWait_shows _ s).1, (recWait_shows _ s).2, (recWait_shows _ s).1, (recWait_shows _ s).2, ldrPhase_phase 4 _, rfl, recEnd_shows b s⟩
  · rw [waitBitMatch_polls ha hw, if_pos heq]
  · rw [waitBitMatch_polls ha hw, if_neg hne]
  · rw [signatureVerified_checks ha hp hn hk, if_pos hh]
  · rw [signatureVerified_checks ha hp hn hk, if_neg (not_not.2 hh), if_pos hok]
  · rw [signatureVerified_checks ha hp hn hk, if_neg (not_not.2 hh), if_neg (by simp only [sigOk, hok]; decide)]

end Sys2Proof.Machine
end

section
/-!
PROOFS. Host loads: START where it is served, ABORT, the FIFO, and the timers (R630, R634 to R636, R638; where a START is served is log entry
104, the timers' restart log entry 110).
-/

namespace Sys2Proof.Machine

open Sys2Proof

/-! ### What a START does not look at: the known flips of register bits -/

/-- The state with other records of what protects its registers. -/
def State.withEcc (e : EccRec) (s : State) : State := { s with ecc := e }

section
variable {e : EccRec} {n : Nat} {s : State}

theorem withEcc_ite {c : Prop} [Decidable c] {t u t' u' : State} (ht : t = t'.withEcc e) (hu : u = u'.withEcc e) :
    (if c then t else u) = (if c then t' else u').withEcc e := by
  split
  · exact ht
  · exact hu

@[simp] theorem withEcc_get (f : Fld) : (s.withEcc e).get f = s.get f := rfl

@[simp] theorem withEcc_on (f : Fld) : (s.withEcc e).on f = s.on f := rfl

@[simp] theorem withEcc_put (f : Fld) (v : Nat) : (s.withEcc e).put f v = (s.put f v).withEcc e := rfl

@[simp] theorem withEcc_tb : (s.withEcc e).tb = s.tb := rfl

@[simp] theorem withEcc_outRec : (s.withEcc e).outRec n = s.outRec n := rfl

@[simp] theorem withEcc_putWide (w : Wide) (v : Nat) : (s.withEcc e).putWide w v = (s.putWide w v).withEcc e := by
  unfold State.putWide
  generalize w.words = l
  generalize 0 = k
  induction l generalizing s k v with
  | zero => rfl
  | succ l ih => exact ih (s := s.setWord (w.word k) (BitVec.ofNat 32 v)) (v / 2 ^ 32) (k + 1)

theorem outSetCode_withEcc : outSetCode n (s.withEcc e) = (outSetCode n s).withEcc e := by
  unfold outSetCode
  rw [withEcc_on]
  exact withEcc_ite rfl (withEcc_ite rfl rfl)

theorem outStopped_withEcc : outStopped n (s.withEcc e) = (outStopped n s).withEcc e := by
  have hset := outSetCode_withEcc (e := e) (n := n) (s := s.setOut n { s.outRec n with applied := outTarget s n, jump := false })
  unfold outStopped
  rw [withEcc_on]
  exact withEcc_ite rfl (withEcc_ite rfl hset)

theorem outRelease_withEcc : outRelease n (s.withEcc e) = (outRelease n s).withEcc e := by
  unfold outRelease
  rw [withEcc_put]
  exact withEcc_ite outStopped_withEcc rfl

theorem withEcc_count (f : Fld) : (s.withEcc e).count f = (s.count f).withEcc e := rfl

theorem withEcc_putB (f : Fld) (b : Bool) : (s.withEcc e).putB f b = (s.putB f b).withEcc e := rfl

theorem calApplied_withEcc (k i : Nat) : calApplied k i (s.withEcc e) = (calApplied k i s).withEcc e := by
  unfold calApplied
  dsimp only
  rw [withEcc_count, withEcc_tb, withEcc_putWide, withEcc_get, withEcc_putB, withEcc_put]

theorem outExchange_withEcc : outExchange n (s.withEcc e) = (outExchange n s).withEcc e := by
  unfold outExchange
  rw [withEcc_outRec]
  cases (s.outRec n).table with
  | none => rfl
  | some l =>
    refine withEcc_ite rfl ?_
    rw [← outSetCode_withEcc, ← outRelease_withEcc, ← calApplied_withEcc]
    rfl

theorem outToggles_withEcc : outToggles (s.withEcc e) n = outToggles s n := rfl

theorem outIdle_withEcc : outIdle n (s.withEcc e) = (outIdle n s).withEcc e := withEcc_ite rfl outExchange_withEcc

theorem srcHalf_withEcc (k : Nat) : srcHalf (s.withEcc e) k = srcHalf s k := rfl

theorem outTarget_withEcc : outTarget (s.withEcc e) n = outTarget s n := rfl

theorem outStatus_withEcc : outStatus n (s.withEcc e) = (outStatus n s).withEcc e := by
  simp [outStatus, State.putB_eq, outToggles_withEcc, srcHalf_withEcc, outTarget_withEcc]

/-- Output `n` follows its enable, its source and the device state (R41, R84), before its table and its status. -/
def outMoved (n : Nat) (s : State) : State :=
  let o := s.outRec n
  if s.dev ≠ .loading ∧ s.dev ≠ .running then s.setOut n { o with phase := .off }
  else if outRuns s n then
    if o.phase = .off ∨ o.phase = .stop then
      let s := outSetCode n (outTake n s)
      outStart n (srcPos s n + outLow s n) s
    else s
  else if o.phase = .hold ∨ o.phase = .low then s.setOut n { o with phase := .stop, next := srcPos s n + outLow s n }
  else s

theorem outFollow_eq (n : Nat) (s : State) : outFollow n s = outStatus n (outIdle n (outMoved n s)) := rfl

theorem outMoved_withEcc : outMoved n (s.withEcc e) = (outMoved n s).withEcc e := by
  have hstart : ∀ t u : State, t = u.withEcc e →
      outStart n (srcPos t n + outLow t n) t = (outStart n (srcPos u n + outLow u n) u).withEcc e := by
    rintro t u rfl
    rfl
  exact withEcc_ite rfl (withEcc_ite (withEcc_ite (hstart _ _ (outSetCode_withEcc (s := outTake n s))) rfl) (withEcc_ite rfl rfl))

theorem outFollow_withEcc : outFollow n (s.withEcc e) = (outFollow n s).withEcc e := by
  rw [outFollow_eq, outFollow_eq, outMoved_withEcc, outIdle_withEcc, outStatus_withEcc]

end

theorem outStatusAll_withEcc (e : EccRec) (s : State) : outStatusAll (s.withEcc e) = (outStatusAll s).withEcc e := by
  unfold outStatusAll forEach
  generalize List.range 12 = l
  induction l generalizing s with
  | nil => rfl
  | cons n l ih =>
    simp only [List.foldl_cons, outFollow_withEcc]
    exact ih _

/-! ### A START that is served (R634) -/

/-- In SAFE_MODE a served START leads to LOADING, with its cause, as a load of its own. -/
def safeLeft (s : State) : State :=
  let s : State := { s with ldr := { s.ldr with reload := false, started := s.now } }
  (s.put GLB_STATE_STATE 2).put GLB_STATE_ENTRY_CAUSE 6

/-- The host load of an interface begins. -/
def hostBegun (m : BusMaster) (s : State) : State :=
  let s : State := { s with ldr := { s.ldr with active := true, hostIf := ifOf m, left := [] } }
  let s := ((ldrPhase 1 s).put LDR_STATUS_SOURCE 2).put LDR_HOST_CTRL_START 1
  fifoSpace (s.put LDR_STATUS_SECTION 0)

/-- A START of SAFE_MODE. -/
def SafeStart (m : BusMaster) (s : State) : Prop := s.dev = .safeMode ∧ (m = .pcie ∨ m = .spi)

/-- A START that LOADING waits for. -/
def AwaitedStart (m : BusMaster) (s : State) : Prop := s.dev = .loading ∧ s.on LDR_HOST_STATUS_WAITING = true ∧ hostMay s m = true

section
variable {m : BusMaster} {s : State}

theorem hostStart_safe (h : SafeStart m s) : hostStart m s = (true, outStatusAll (hostBegun m (safeLeft (ldrStop s)))) := by
  obtain ⟨hd, hm⟩ := h
  have hserved : (m == .pcie || m == .spi) = true := by rcases hm with rfl | rfl <;> rfl
  unfold hostStart
  simp only [hd, hserved]
  rfl

theorem hostStart_awaited (h : AwaitedStart m s) : hostStart m s = (true, outStatusAll (hostBegun m (ldrStop s))) := by
  obtain ⟨hd, hw, hm⟩ := h
  unfold hostStart
  simp only [hd, hw, hm]
  rfl

theorem hostStart_other (h1 : s.dev ≠ .safeMode) (h2 : s.dev ≠ .loading ∨ s.on LDR_HOST_STATUS_WAITING = false ∨ hostMay s m = false) :
    hostStart m s = (false, s.ev LDR_EVENT_CFG_ERR) := by
  unfold hostStart
  refine if_neg ?_
  rcases h2 with h2 | h2 | h2 <;> simp [h1, h2]

/-- A START that is served looks at no flip known. -/
theorem hostStart_withEcc {e : EccRec} (h : SafeStart m s ∨ AwaitedStart m s) :
    hostStart m (s.withEcc e) = (true, (hostStart m s).2.withEcc e) := by
  rcases h with h | h
  · rw [hostStart_safe h, hostStart_safe (s := s.withEcc e) h]
    exact congrArg (Prod.mk true) (outStatusAll_withEcc e (hostBegun m (safeLeft (ldrStop s))))
  · rw [hostStart_awaited h, hostStart_awaited (s := s.withEcc e) h]
    exact congrArg (Prod.mk true) (outStatusAll_withEcc e (hostBegun m (ldrStop s)))

/-- The fields a load that begins writes. -/
abbrev begunFields : List Fld := [LDR_STATUS_PHASE, LDR_STATUS_SOURCE, LDR_STATUS_SECTION, LDR_HOST_CTRL_START, LDR_HOST_STATUS_SPACE]

theorem hostBegun_fields (m : BusMaster) (s : State) : FieldsKept begunFields s (hostBegun m s) := by
  have hactive : FieldsKept begunFields s { s with ldr := { s.ldr with active := true, hostIf := ifOf m, left := [] } } :=
    (FieldsKept.refl _ s).of_regs rfl
  exact ((((hactive.put (g := LDR_STATUS_PHASE) (by decide) 1).put (by decide) 2).put (by decide) 1).put (by decide) 0).put
    (g := LDR_HOST_STATUS_SPACE) (by decide) _

/-- The load of the host runs, in its header. -/
theorem hostBegun_shows (m : BusMaster) (s : State) : (hostBegun m s).ldr.active = true ∧ (hostBegun m s).get LDR_STATUS_SOURCE = 2 ∧
    (hostBegun m s).phase = 1 ∧ (hostBegun m s).on LDR_HOST_CTRL_START = true := by
  have hkept : ∀ {f g h : Fld} (t : State) (x y z : Nat), f.Apart g → f.Apart h → f.reg.addr ≠ LDR_HOST_STATUS.addr →
      (((t.put g x).put h y).put LDR_HOST_STATUS_SPACE z).get f = t.get f := fun t x y z hg hh ho =>
    (State.get_put_reg _ z ho).trans ((State.get_put_apart _ y hh).trans (State.get_put_apart t x hg))
  refine ⟨rfl, ?_, ?_, ?_⟩
  · exact (hkept _ _ _ _ (.inl (by decide)) (.inr (by decide)) (by decide)).trans (State.get_put_same _ _ 2 (by decide))
  · refine (State.get_put_reg (f := LDR_STATUS_PHASE) _ _ (by decide)).trans ?_
    rw [State.get_put_apart _ _ (.inr (by decide)), State.get_put_reg _ _ (by decide), State.get_put_apart _ _ (.inr (by decide))]
    exact ldrPhase_phase 1 _
  · rw [State.on_true]
    refine fun h0 => absurd ((State.get_put_reg (f := LDR_HOST_CTRL_START) _ _ (by decide)).symm.trans h0) ?_
    rw [State.get_put_reg _ _ (by decide), State.get_put_same _ _ _ (by decide)]
    decide

/-- What the load has begun with, the outputs that follow leave. -/
theorem hostBegun_followed (m : BusMaster) (s : State) : let t := outStatusAll (hostBegun m s)
    t.ldr.active = true ∧ t.get LDR_STATUS_SOURCE = 2 ∧ t.phase = 1 ∧ t.on LDR_HOST_CTRL_START = true := by
  obtain ⟨hactive, hsource, hphase, hstart⟩ := hostBegun_shows m s
  have houts := outStatusAll_only (hostBegun m s)
  have hldr : (outStatusAll (hostBegun m s)).ldr = (hostBegun m s).ldr := by rw [houts.rest]
  have hget : ∀ f : Fld, 0x02500000 ≤ f.reg.addr → (outStatusAll (hostBegun m s)).get f = (hostBegun m s).get f := fun f hf =>
    houts.get (.inr (by omega)) (.inr (by omega))
  refine ⟨(congrArg LdrRec.active hldr).trans hactive, (hget _ (by decide)).trans hsource, (hget _ (by decide)).trans hphase, ?_⟩
  rw [State.on_true] at hstart ⊢
  rw [hget _ (by decide)]
  exact hstart

theorem safeLeft_shows (s : State) : (safeLeft s).get GLB_STATE_STATE = 2 ∧ (safeLeft s).get GLB_STATE_ENTRY_CAUSE = 6 := by
  constructor
  · exact (State.get_put_apart _ 6 (.inr (by decide))).trans (State.get_put_same _ _ 2 (by decide))
  · exact State.get_put_same _ _ 6 (by decide)

theorem hostStart_safe_shows (h : SafeStart m s) : (hostStart m s).1 = true ∧ (hostStart m s).2.get GLB_STATE_STATE = 2 ∧
    (hostStart m s).2.get GLB_STATE_ENTRY_CAUSE = 6 ∧ (hostStart m s).2.ldr.active = true ∧ (hostStart m s).2.get LDR_STATUS_SOURCE = 2 ∧
    (hostStart m s).2.phase = 1 ∧ (hostStart m s).2.on LDR_HOST_CTRL_START = true := by
  rw [hostStart_safe h]
  obtain ⟨hstate, hcause⟩ := safeLeft_shows (ldrStop s)
  generalize safeLeft (ldrStop s) = t at hstate hcause ⊢
  obtain ⟨hactive, hsource, hphase, hstart⟩ := hostBegun_followed m t
  have hglb : ∀ f : Fld, f.reg = GLB_STATE → f.clearOf begunFields = true → (outStatusAll (hostBegun m t)).get f = t.get f := fun f hf hc => by
    rw [(outStatusAll_only _).get (.inl (by rw [hf]; decide)) (.inl (by rw [hf]; decide)), (hostBegun_fields m t).get hc]
  exact ⟨rfl, (hglb _ rfl (by decide)).trans hstate, (hglb _ rfl (by decide)).trans hcause, hactive, hsource, hphase, hstart⟩

theorem hostStart_awaited_shows (h : AwaitedStart m s) : (hostStart m s).1 = true ∧ (hostStart m s).2.on LDR_HOST_STATUS_WAITING = false ∧
    (hostStart m s).2.ldr.active = true ∧ (hostStart m s).2.phase = 1 ∧ (hostStart m s).2.get LDR_STATUS_SOURCE = 2 := by
  rw [hostStart_awaited h]
  obtain ⟨hactive, hsource, hphase, -⟩ := hostBegun_followed m (ldrStop s)
  have hwaits : (ldrStop s).get LDR_HOST_STATUS_WAITING = 0 :=
    (State.get_put_apart (g := LDR_HOST_STATUS_SPACE) _ _ (.inr (by decide))).trans (State.get_put_same _ _ 0 (by decide))
  refine ⟨rfl, ?_, hactive, hphase, hsource⟩
  rw [State.on_false, (outStatusAll_only _).get (.inr (by decide)) (.inr (by decide)), (hostBegun_fields m _).get (by decide), hwaits]

end

/-! ### Writes of LDR_HOST_CTRL (R17, R634) -/

/-- LDR_HOST_CTRL as the map has it. -/
def hostCtrlHit : RegHit :=
  ⟨⟨.LDR_HOST_CTRL, 0x02500020, 0x0, 1, 0x0, 1, 1, fun _ _ => 0, [⟨0, 1, .rws, []⟩, ⟨1, 1, .wo, []⟩]⟩, 0, 0, 0⟩

theorem regAt_hostCtrl : regAt LDR_HOST_CTRL.addr = some hostCtrlHit := rfl

theorem placeOf_hostCtrl (s : State) : placeOf s LDR_HOST_CTRL.addr = .reg hostCtrlHit := placeOf_reg rfl (by decide) regAt_hostCtrl rfl

/-- The write of a word as LDR_HOST_CTRL sees it: no field stores what is written, and two carry it. -/
def hostCtrlWrite (m : BusMaster) (w : Word) (s : State) : RegWrite :=
  ⟨m, .LDR_HOST_CTRL, 0, 0, 0x02500020, 0, s.wide LDR_HOST_CTRL.one, s.wide LDR_HOST_CTRL.one, w.toNat % 4⟩

section
variable {m : BusMaster} {w v : Word} {s c : State}

theorem writeSeen_hostCtrl (m : BusMaster) (w : Word) (s : State) : writeSeen m hostCtrlHit w s = hostCtrlWrite m w s := by
  have hrw : rwMask hostCtrlHit = 0 := rfl
  have hrw1c : hostCtrlHit.maskAll (fun a => a == .rw1c) = 0 := rfl
  have hw1s : hostCtrlHit.maskAll (fun a => a == .w1s) = 0 := rfl
  have hall : hostCtrlHit.maskAll (fun _ => true) = 2 ^ 2 - 1 := rfl
  have hv : w.toNat &&& hostCtrlHit.maskAll (fun _ => true) &&& (2 ^ 32 - 1) = w.toNat % 4 := by
    rw [hall, Nat.and_two_pow_sub_one_eq_mod, Nat.and_two_pow_sub_one_eq_mod]
    omega
  unfold writeSeen writeAs
  rw [takeStaged_one m hostCtrlHit w s rfl]
  dsimp only
  rw [hv]
  simp only [writtenValue, hrw, hrw1c, hw1s, Nat.zero_and, Nat.and_zero, Nat.sub_zero, Nat.add_zero, Nat.or_zero]
  rfl

/-- Its effect is ABORT's alone. -/
theorem regEffect_hostCtrl (m : BusMaster) (w : Word) (s t : State) :
    regEffect (hostCtrlWrite m w s) t = if w.toNat % 4 / 2 % 2 ≠ 0 then hostAbort t else t := by
  have hid : (hostCtrlWrite m w s).id = .LDR_HOST_CTRL := rfl
  unfold regEffect
  simp only [hid]
  rfl

/-- The bits of a word whose START and ABORT a row names. -/
theorem hostCtrl_bits (x y : Nat) (v : Word) :
    (withField LDR_HOST_CTRL_ABORT y (withField LDR_HOST_CTRL_START x v)).toNat % 4 = x % 2 + 2 * (y % 2) := by
  have hstart : extractBits (withField LDR_HOST_CTRL_ABORT y (withField LDR_HOST_CTRL_START x v)) 0 1 = x % 2 :=
    (extract_insert_other _ y (by decide) (.inl (by decide))).trans (extract_withField (f := LDR_HOST_CTRL_START) (by decide))
  have habort : extractBits (withField LDR_HOST_CTRL_ABORT y (withField LDR_HOST_CTRL_START x v)) 1 1 = y % 2 :=
    extract_withField (f := LDR_HOST_CTRL_ABORT) (by decide)
  simp only [extractBits] at hstart habort
  omega

/-- A commit of an ADMIN master meets START's own rule alone. -/
theorem hostCtrl_commits (hm : m ≠ .loader) (hp : privOf c m = 2) (s : State) : regCommit m hostCtrlHit (2 ^ 32 - 1) w.toNat s c =
    if (hostCtrl (hostCtrlWrite m w c) c).1 then regStore hostCtrlHit (2 ^ 32 - 1) (hostCtrlWrite m w c) (hostCtrl (hostCtrlWrite m w c) c).2
    else (3, (hostCtrl (hostCtrlWrite m w c) c).2) := by
  have hseen : writeAs m hostCtrlHit (2 ^ 32 - 1) w.toNat c = hostCtrlWrite m w c := by
    rw [← writeSeen_hostCtrl]
    unfold writeSeen
    rw [takeStaged_one m hostCtrlHit w c rfl]
  have hl : (m == BusMaster.loader) = false := by simpa using hm
  unfold regCommit
  rw [hseen]
  dsimp only
  rw [if_neg (by simp [hp]), if_neg (by rintro ⟨-, h⟩; exact h (Nat.and_zero _)), if_neg (by rintro ⟨h, -⟩; exact Bool.false_ne_true h)]
  simp only [hl, Bool.false_and, Bool.false_eq_true, if_false]
  rfl

/-- A write of an ADMIN master is that commit, in the state with its access counted. -/
theorem placeWrite_hostCtrl (hm : m ≠ .loader) (hp : privOf s m = 2) : placeWrite m LDR_HOST_CTRL.addr 15 w s (counted m LDR_HOST_CTRL.addr s) =
    regCommit m hostCtrlHit (2 ^ 32 - 1) w.toNat s (counted m LDR_HOST_CTRL.addr s) := by
  rw [placeWrite_reg (placeOf_hostCtrl s), regAccess_admin hm ((counted_only m _ s).privOf m |>.trans hp) (fun _ => by decide)
    (fun h => absurd h (by decide))]
  have hlowest : hostCtrlHit.w = 0 := rfl
  unfold regWrite
  rw [if_pos hlowest, takeStaged_one m hostCtrlHit w _ rfl]

/-- START's rule is met where none is under way and the word is odd. -/
theorem hostCtrl_start (hodd : w.toNat % 2 = 1) (hoff : c.on LDR_HOST_CTRL_START = false) : hostCtrl (hostCtrlWrite m w c) c = hostStart m c := by
  refine if_pos ?_
  have hv : (hostCtrlWrite m w c).v % 2 = 1 := by
    change w.toNat % 4 % 2 = 1
    omega
  simp [hv, hoff]
  rfl

/-! ### START written 1 (R634) -/

/-- The host's bits that no flip shows any more are those of the register written, whatever else the state holds. -/
theorem upsetsWritten_withEcc {h : RegHit} {b : Nat} {t : State} (he : t.ecc = c.ecc) : upsetsWritten h b t = t.withEcc (upsetsWritten h b c).ecc := by
  unfold upsetsWritten
  rw [he]
  rfl

theorem hostStart_ecc (h : SafeStart m s ∨ AwaitedStart m s) : (hostStart m s).2.ecc = s.ecc := by
  rcases h with h | h
  · rw [hostStart_safe h, (outStatusAll_only _).rest]
    rfl
  · rw [hostStart_awaited h, (outStatusAll_only _).rest]
    rfl

/-- A START that is served is stored, and acts. -/
theorem hostStart_committed (hm : m ≠ .loader) (hp : privOf c m = 2) (hodd : w.toNat % 4 = 1) (hoff : c.on LDR_HOST_CTRL_START = false)
    (h : SafeStart m c ∨ AwaitedStart m c) (s : State) : regCommit m hostCtrlHit (2 ^ 32 - 1) w.toNat s c =
      (0, (hostStart m (upsetsWritten hostCtrlHit (2 ^ 32 - 1) c)).2) := by
  have hl : (m == BusMaster.loader) = false := by simpa using hm
  have hserved : (hostStart m c).1 = true := congrArg Prod.fst (hostStart_withEcc (e := c.ecc) h)
  have hstore : regStore hostCtrlHit (2 ^ 32 - 1) (hostCtrlWrite m w c) (hostStart m c).2 =
      (0, upsetsWritten hostCtrlHit (2 ^ 32 - 1) (hostStart m c).2) := by
    have hsame : sameInReload hostCtrlHit (hostCtrlWrite m w c) = false := by simp [sameInReload, hostCtrlWrite, hl]
    have hnew : (hostCtrlWrite m w c).new = (hostCtrlWrite m w c).old := rfl
    have hmaster : ((hostCtrlWrite m w c).m == BusMaster.loader) = false := hl
    simp only [regStore, hmaster, hsame, hnew, Bool.false_and, Bool.and_false, Bool.false_eq_true, if_false, ne_eq, not_true_eq_false, false_and,
      if_true]
    rw [regEffect_hostCtrl, if_neg (by omega)]
  rw [hostCtrl_commits hm hp, hostCtrl_start (by omega) hoff, if_pos hserved, hstore, upsetsWritten_withEcc (hostStart_ecc h)]
  exact congrArg (fun x : Bool × State => (0, x.2)) (hostStart_withEcc h).symm

/-- A START that is not served sets CFG_ERR, whatever ABORT says. -/
theorem hostStart_discarded (hm : m ≠ .loader) (hp : privOf c m = 2) (hodd : w.toNat % 2 = 1) (hoff : c.on LDR_HOST_CTRL_START = false)
    (h1 : c.dev ≠ .safeMode) (h2 : c.dev ≠ .loading ∨ c.on LDR_HOST_STATUS_WAITING = false ∨ hostMay c m = false) (s : State) :
    regCommit m hostCtrlHit (2 ^ 32 - 1) w.toNat s c = (3, c.ev LDR_EVENT_CFG_ERR) := by
  rw [hostCtrl_commits hm hp, hostCtrl_start hodd hoff, hostStart_other h1 h2]
  rfl

theorem OnlyPmc.hostMay (hc : OnlyPmc s c) (m : BusMaster) : hostMay c m = hostMay s m := by
  unfold Machine.hostMay
  rw [hc.get LDR_STATUS_BOOT_SEL (by decide)]

theorem OnlyPmc.safeStart (hc : OnlyPmc s c) (h : SafeStart m s) : SafeStart m c := ⟨hc.dev.trans h.1, h.2⟩

theorem OnlyPmc.awaitedStart (hc : OnlyPmc s c) (h : AwaitedStart m s) : AwaitedStart m c := by
  obtain ⟨hd, hw, hmay⟩ := h
  exact ⟨hc.dev.trans hd, (hc.on _ (by decide)).trans hw, (hc.hostMay m).trans hmay⟩

theorem OnlyPmc.upsetsWritten (hc : OnlyPmc s c) (h : RegHit) (b : Nat) : AccessNoted s (upsetsWritten h b c) := by
  refine ⟨?_, hc.2⟩
  unfold Machine.upsetsWritten
  conv_lhs => rw [hc.1]
  rw [hc.1]

/-- A row that writes the register, out of RESET while no clock is gated. -/
theorem hostCtrl_run (hr : s.inReset = false) (hg : s.gated = false) (x y : Nat) (v : Word) :
    run (busSet2 m LDR_HOST_CTRL_START x LDR_HOST_CTRL_ABORT y v) s = .next (settle s (busWrite m LDR_HOST_CTRL.addr 15
      (withField LDR_HOST_CTRL_ABORT y (withField LDR_HOST_CTRL_START x v)) s).2) := run_eq hr (busPut_now hg)

/-- What a write that meets its rules has met: the register is an ADMIN master's. -/
theorem hostCtrl_meets (hw : Writable m LDR_HOST_CTRL w s) : MayWrite m LDR_HOST_CTRL.addr w s hostCtrlHit ∧ privOf s m = 2 := by
  have hk := (mayWrite_hit hw (placeOf_hostCtrl s)).1
  refine ⟨hk, hk.level.resolve_right ?_⟩
  rintro ⟨-, hadmin, -⟩
  exact Bool.false_ne_true hadmin.symm

theorem hostLoadStart_served (hw : Writable m LDR_HOST_CTRL (withField LDR_HOST_CTRL_ABORT 0 (withField LDR_HOST_CTRL_START 1 v)) s)
    (hoff : s.on LDR_HOST_CTRL_START = false) (h : SafeStart m s ∨ AwaitedStart m s) :
    ∃ c : State, AccessNoted s c ∧ exec (.hostLoadStart m v) s = .next (settle s (hostStart m c).2) := by
  obtain ⟨hk, hp⟩ := hostCtrl_meets hw
  obtain ⟨hm, hs⟩ := hk.master
  have hc := counted_only m LDR_HOST_CTRL.addr s
  have hplace := placeWrite_hostCtrl (w := withField LDR_HOST_CTRL_ABORT 0 (withField LDR_HOST_CTRL_START 1 v)) hm hp
  rw [hostStart_committed hm ((hc.privOf m).trans hp) (hostCtrl_bits 1 0 v) ((hc.on _ (by decide)).trans hoff)
    (h.imp hc.safeStart hc.awaitedStart)] at hplace
  refine ⟨_, hc.upsetsWritten hostCtrlHit (2 ^ 32 - 1), (hostCtrl_run hk.out hk.runs 1 0 v).trans ?_⟩
  rw [busWrite_served hs hplace, if_pos rfl, wrapsStand_other _ _ _ (by decide)]

/-- Nor is the load or the device's state touched by one that is not. -/
theorem hostLoadStart_discarded (hr : s.inReset = false) (hg : s.gated = false) (hs : served s m = true) (hm : m ≠ .loader)
    (hp : privOf s m = 2) (hoff : s.on LDR_HOST_CTRL_START = false) (h1 : s.dev ≠ .safeMode)
    (h2 : s.dev ≠ .loading ∨ s.on LDR_HOST_STATUS_WAITING = false ∨ hostMay s m = false) :
    ∃ u : State, exec (.hostLoadStart m v) s = .next (settle s u) ∧ u.on LDR_EVENT_CFG_ERR = true ∧ u.ldr = s.ldr ∧ u.dev = s.dev := by
  have hc := counted_only m LDR_HOST_CTRL.addr s
  have hodd := hostCtrl_bits 1 0 v
  have hplace := placeWrite_hostCtrl (w := withField LDR_HOST_CTRL_ABORT 0 (withField LDR_HOST_CTRL_START 1 v)) hm hp
  rw [hostStart_discarded hm ((hc.privOf m).trans hp) (by omega) ((hc.on _ (by decide)).trans hoff) (by rwa [hc.dev])
    (by rwa [hc.dev, hc.on _ (by decide), hc.hostMay m])] at hplace
  have hu := busWrite_only hs hplace
  refine ⟨_, hostCtrl_run hr hg 1 0 v, (hu.on _ (by decide)).trans (State.on_ev_same _ (by decide) (by decide)), ?_, ?_⟩
  · rw [hu.1, State.ev_eq, hc.1]
    rfl
  · rw [hu.dev]
    unfold State.dev
    rw [State.ev_eq, State.get_put_reg _ _ (by decide)]
    exact hc.dev

/-! ### ABORT and the FIFO (R630, R635) -/

theorem hostAbort_stands (hw : Writable m LDR_HOST_CTRL (withField LDR_HOST_CTRL_ABORT 1 (withField LDR_HOST_CTRL_START 0 v)) s) : ∃ R c,
    Stands m .LDR_HOST_CTRL 0 0 LDR_HOST_CTRL.one (withField LDR_HOST_CTRL_ABORT 1 (withField LDR_HOST_CTRL_START 0 v)).toNat s R c ∧
    exec (.hostAbort m v) s = .next (settle s (hostAbort c)) := by
  have hbits := hostCtrl_bits 0 1 v
  have hk := (hostCtrl_meets hw).1
  have heven : (writeSeen m hostCtrlHit (withField LDR_HOST_CTRL_ABORT 1 (withField LDR_HOST_CTRL_START 0 v)) s).v % 2 = 0 := by
    rw [writeSeen_hostCtrl]
    exact congrArg (· % 2) hbits
  obtain ⟨c, hst, -, hput⟩ := write_stands hk (by decide) (by decide) (fun _ => heven)
  rw [takeStaged_one m hostCtrlHit _ s rfl] at hst
  rw [writeSeen_hostCtrl, regEffect_hostCtrl, if_pos (by omega)] at hput
  exact ⟨_, c, hst, run_eq hk.out hput⟩

theorem hostAbort_eq (s : State) : (hostActive s = false → hostAbort s = s) ∧ (hostActive s = true → hostAbort s = ldrFail 0x0F (hostBytes s) s) :=
  ⟨fun h => if_neg (by simp [h]), fun h => if_pos h⟩

theorem hostFifoWrite_stands (hw : Writable m LDR_HOST_FIFO v s) : ∃ R c, Stands m .LDR_HOST_FIFO 0 0 LDR_HOST_FIFO.one v.toNat s R c ∧
    exec (.hostFifoWrite m v) s = .next (settle s (fifoWrite m v c)) := by
  have hn : namesOneWord LDR_HOST_FIFO .LDR_HOST_FIFO 0 0 = true := by decide +kernel
  have hcarried : Fld.carried ⟨LDR_HOST_FIFO, 0, 32⟩ = true := by decide +kernel
  obtain ⟨R, c, hst, hsees, hrun⟩ := hw.stands_sees hn (by decide) (by decide)
  obtain ⟨hmaster, hid, -, -, haddr⟩ := hst.who
  have hword : BitVec.ofNat 32 R.v = v := by
    have hfield := (hsees ⟨LDR_HOST_FIFO, 0, 32⟩ rfl (by decide)).1 hcarried
    simp only [RegWrite.field, haddr, Reg.one, Nat.sub_self, Nat.mul_zero, Nat.add_zero, pow_zero, Nat.div_one, extractBits] at hfield
    apply BitVec.eq_of_toNat_eq
    rw [BitVec.toNat_ofNat, hfield]
    exact Nat.mod_eq_of_lt v.isLt
  refine ⟨R, c, hst, ?_⟩
  unfold regEffect at hrun
  simp only [hid, hmaster, hword] at hrun
  exact hrun

/-- A word that no load of its interface takes is dropped. -/
theorem fifoWrite_dropped (h : hostActive s = false ∨ s.ldr.hostIf ≠ ifOf m) : fifoWrite m v s = s := by
  refine if_neg ?_
  rcases h with h | h <;> simp [h]

theorem fifoWrite_full (ha : hostActive s = true) (hi : s.ldr.hostIf = ifOf m) (hfull : 1024 ≤ fifoWords s) :
    fifoWrite m v s = ldrFail 0x0D (hostBytes s) s := by
  unfold fifoWrite
  rw [if_pos (by simp [ha, hi]), if_pos hfull]

theorem fifoWrite_joins (ha : hostActive s = true) (hi : s.ldr.hostIf = ifOf m) (hroom : fifoWords s < 1024) :
    (fifoWrite m v s).ldr.stream = s.ldr.stream ++ leBytes 4 v.toNat ∧ (fifoWrite m v s).ldr.active = true := by
  have hactive : s.ldr.active = true := (Bool.and_eq_true_iff.1 ha).1
  unfold fifoWrite
  rw [if_pos (by simp [ha, hi]), if_neg (by omega)]
  exact ⟨rfl, hactive⟩

/-! ### The timers (R636, R638) -/

theorem hostWaitTimeout_unchanged (h : s.on LDR_HOST_STATUS_WAITING = false ∨ s.get LDR_CFG_HOST_TO = 0) : hostWaitTimeout s = s := by
  refine if_neg ?_
  rcases h with h | h <;> simp [h]

theorem hostWaitTimeout_enters (hw : s.on LDR_HOST_STATUS_WAITING = true) (h0 : s.get LDR_CFG_HOST_TO ≠ 0) :
    hostWaitTimeout s = safeEnter 4 (s.put GLB_STATE_IMAGE 3) := if_pos (by simp [hw, h0])

end

/-- Settles O55: a START is LDR_HOST_CTRL's own rule, ABORT and the FIFO are effects of writes that stand. -/
theorem hostLoads : Obligations.HostLoads := by
  refine ⟨fun m v s hw hoff h => hostLoadStart_served hw hoff h,
    fun m v s hr hg hs hm hp hoff _ h1 h2 => hostLoadStart_discarded hr hg hs hm hp hoff h1 h2,
    fun m s hd hm => hostStart_safe_shows ⟨hd, hm⟩, fun m s hd hw hm => hostStart_awaited_shows ⟨hd, hw, hm⟩,
    fun m s h1 h2 => hostStart_other h1 h2, fun m v s hw => hostAbort_stands hw, hostAbort_eq, fun m v s hw => hostFifoWrite_stands hw,
    fun m v s => ⟨fifoWrite_dropped, fifoWrite_full, fifoWrite_joins⟩, fun s hs h => timed_eq hs (if_neg (by simp [h])),
    fun s hs h => timed_eq hs (if_pos h), fun s hs h => timed_eq hs (hostWaitTimeout_unchanged h),
    fun s hs hw h0 => timed_eq hs (hostWaitTimeout_enters hw h0)⟩

end Sys2Proof.Machine
end

section
/-!
PROOFS. Writes of the counters' own control registers: the accesses they count leave them, so that the write stands (R17, R671, R674, R675).
-/

namespace Sys2Proof.Machine

open Sys2Proof

/-- PMC_CTRL and PMC_DUMP_CTRL, which no event writes. -/
def pmcControls : List Reg := [PMC_CTRL, PMC_DUMP_CTRL]

section
variable {r : Reg} (hr : r ∈ pmcControls)
include hr

theorem pmcControls_addr : r.addr = 0x02700000 ∨ r.addr = 0x02700010 := by
  simp only [pmcControls, List.mem_cons, List.not_mem_nil, or_false] at hr
  exact hr.imp (congrArg Reg.addr) (congrArg Reg.addr)

theorem pmcAdd_control {n : Nat} (hn : n < 64) (k : Nat) (s : State) : (pmcAdd n k s).word r = s.word r := by
  have haddr := pmcControls_addr hr
  have hcnt : ∀ v, (s.putWide (PMC_CNT n) v).word r = s.word r := fun v => State.word_putWide_other s _ v (.inl (by simp only [PMC_CNT]; omega))
  unfold pmcAdd
  dsimp only
  split
  · have hevent : r.addr ≠ PMC_EVENT_OVF.reg.addr := by
      simp only [PMC_EVENT_OVF, PMC_EVENT]
      omega
    have hovf : r.addr ≠ (PMC_OVF.word (n / 32)).addr := by
      simp only [PMC_OVF, Wide.word]
      omega
    rw [State.ev_eq, State.word_put_other _ _ hevent, State.putBit_eq]
    exact (State.word_put_other _ _ hovf).trans (hcnt _)
  · exact hcnt _

theorem pmcEvent_control (code : Nat) (kind : PmcKind) (k : Nat) (s : State) : (pmcEvent code kind k s).word r = s.word r := by
  unfold pmcEvent
  split
  · rfl
  · refine forEach_keeps_mem (P := fun t => t.word r = s.word r) rfl fun n hn t ht => ?_
    split
    · exact (pmcAdd_control hr (List.mem_range.1 hn) k t).trans ht
    · exact ht

theorem counted_control (m : BusMaster) (a : Nat) (s : State) : (counted m a s).word r = s.word r :=
  (pmcEvent_control hr _ _ _ _).trans (pmcEvent_control hr _ _ _ _)

end

/-! ### The rules in turn -/

section
variable {m : BusMaster} {a : Nat} {w v : Word} {h : RegHit} {s c : State}

/-- A write that meets its rules reaches the register. -/
theorem regAccess_mayWrite (hm : MayWrite m a w s h) (hc : OnlyPmc s c) : regAccess m h a w s c =
    regCommit m h (takeStaged m h w c).1.1 (takeStaged m h w c).1.2 s (takeStaged m h w c).2 := by
  have hl : (m == BusMaster.loader) = false := by simpa using hm.master.1
  have hlevel : ¬(privOf c m = 0 ∨ privOf c m = 1 ∧ adminOnly h.spec.id = true) := by
    rw [hc.privOf m]
    rcases hm.level with hx | ⟨hx, hy, -⟩
    · simp [hx]
    · simp [hx, hy]
  have hloading : ¬(m != .loader && c.dev = .loading && !hostOpen a) = true := by
    simp only [Bool.and_eq_true, decide_eq_true_eq, Bool.not_eq_true']
    rintro ⟨⟨-, hd⟩, ho⟩
    exact Bool.false_ne_true (ho.symm.trans (hm.loading (hc.dev.symm.trans hd)))
  have hlocked : ¬(h.spec.id == .MGT_PRIV && m != .loader && c.on MGT_PRIV_LOCK) = true := by
    simp only [Bool.and_eq_true, beq_iff_eq]
    rintro ⟨⟨hid, -⟩, hlock⟩
    exact Bool.false_ne_true ((hm.locked hid).symm.trans ((hc.on _ (by decide)).symm.trans hlock))
  unfold regAccess
  dsimp only
  rw [if_neg hlevel, if_neg (by simp [hl]), if_neg hloading, if_neg hlocked]
  exact if_pos hm.place.2

/-- The registers whose writes meet no rule of the owner, the format, SAFE_MODE or a level of their own. -/
def plainRules (id : RegId) : Bool :=
  deferredMask id == 0 && !tb96Reg id && id != .DCO_OFFSET && id != .TB_INCR && id != .LDR_HOST_CTRL && id != .SYN_BAND_STORE && id != .POOL_CMD

theorem ownerRefuses_plain {R : RegWrite} (hid : plainRules R.id = true) (s : State) : ownerRefuses R s = none := by
  simp only [plainRules, Bool.and_eq_true, bne_iff_ne] at hid
  obtain ⟨⟨⟨⟨⟨⟨-, -⟩, hdco⟩, hincr⟩, -⟩, -⟩, -⟩ := hid
  unfold ownerRefuses
  split
  next h => exact absurd h hdco
  next h => exact absurd h hincr
  next => rfl

theorem adminPart_plain {R : RegWrite} (hid : plainRules R.id = true) : adminPart R = false := by
  simp only [plainRules, Bool.and_eq_true, bne_iff_ne] at hid
  obtain ⟨⟨-, hband⟩, hpool⟩ := hid
  unfold adminPart
  split
  next h => exact absurd h hband
  next h => exact absurd h hpool
  next => rfl

/-- The state in which a register of one word acts: the value is stored, and no flip of its bits is known any more (R553). -/
def stored (h : RegHit) (R : RegWrite) (c : State) : State :=
  upsetsWritten h (2 ^ 32 - 1) (if R.new = R.old then c else c.putWide h.wide R.new)

/-- Of such a register a write that meets its rules, whose value the access has not changed, is stored and acts. -/
theorem regCommit_plain (hm : MayWrite m a w s h) (hid : plainRules h.spec.id = true) (h1 : h.spec.words = 1) (hold : c.wide h.wide = s.wide h.wide) :
    regCommit m h (2 ^ 32 - 1) w.toNat s c = (0, regEffect (writeSeen m h w s) (stored h (writeSeen m h w s) c)) := by
  have hl : (m == BusMaster.loader) = false := by simpa using hm.master.1
  have hseen : writeAs m h (2 ^ 32 - 1) w.toNat c = writeSeen m h w s := by
    unfold writeSeen
    rw [takeStaged_one m h w s h1]
    unfold writeAs
    rw [hold]
  obtain ⟨⟨⟨⟨⟨⟨hmask, hformat⟩, -⟩, -⟩, hctrl⟩, -⟩, -⟩ : ((((((deferredMask h.spec.id = 0 ∧ tb96Reg h.spec.id = false) ∧ _) ∧ _) ∧
      h.spec.id ≠ .LDR_HOST_CTRL) ∧ _) ∧ _) := by simpa only [plainRules, Bool.and_eq_true, bne_iff_ne, beq_iff_eq, Bool.not_eq_true'] using hid
  have hstart : hostCtrl (writeSeen m h w s) c = (true, c) := by
    have hne : ((writeSeen m h w s).id == RegId.LDR_HOST_CTRL) = false := beq_eq_false_iff_ne.2 hctrl
    simp [hostCtrl, hne]
  unfold regCommit
  simp only [hseen]
  rw [if_neg (by simp [adminPart_plain (R := writeSeen m h w s) hid]),
    if_neg (by rintro ⟨-, hx⟩; exact hx (by rw [show (writeSeen m h w s).id = h.spec.id from rfl, hmask, Nat.and_zero])),
    if_neg (by rintro ⟨hx, -⟩; exact Bool.false_ne_true (hformat.symm.trans hx)), ownerRefuses_plain (R := writeSeen m h w s) hid]
  simp only [hl, Bool.false_and, Bool.false_eq_true, if_false]
  rw [if_neg (by rw [hm.values.1, hm.values.2]; decide), hm.idle]
  dsimp only
  rw [hm.modes, hstart]
  have hmaster : ((writeSeen m h w s).m == BusMaster.loader) = false := hl
  have hsame : sameInReload h (writeSeen m h w s) = false := by simp [sameInReload, hmaster]
  simp [regStore, stored, hmaster, hsame]

/-- The value is stored where a read of the register finds it. -/
theorem stored_stands (h1 : h.spec.words = 1) (ha : 0x02700000 ≤ h.base) (hc : OnlyPmc s c) (hold : c.wide h.wide = s.wide h.wide) :
    Stands m h.spec.id h.i h.j h.wide w.toNat s (writeSeen m h w s) (stored h (writeSeen m h w s) c) := by
  refine ⟨⟨rfl, rfl, rfl, rfl, rfl⟩, rfl, ?_, fun k hbit => ?_, ?_, fun x hx _ => ?_⟩
  · unfold stored
    rw [upsetsWritten_wide]
    split
    next he =>
      rw [he, hold]
      exact (Nat.mod_eq_of_lt (State.wide_lt _ _)).symm
    next => exact State.wide_putWide _ _ _
  · unfold writeSeen writeAs at hbit
    rw [takeStaged_one m h w s h1] at hbit
    exact testBit_of_and3 hbit
  · unfold stored upsetsWritten
    split
    · rw [hc.1]
    · unfold State.putWide
      rw [State.putWideFrom_eq, hc.1]
  · unfold stored
    rw [upsetsWritten_word]
    split
    · exact hc.2 x hx
    · exact (State.word_putWide_other _ _ _ (.inl (by simp only [RegHit.wide]; omega))).trans (hc.2 x hx)

end

/-- The control registers of the counters, by name. -/
theorem pmcControls_named : namesOneWord PMC_CTRL .PMC_CTRL 0 0 = true ∧ namesOneWord PMC_DUMP_CTRL .PMC_DUMP_CTRL 0 0 = true := by decide +kernel

section
variable {m : BusMaster} {r : Reg} {id : RegId} {v : Word} {s : State}

/-- The write of a control register of the counters stands, and the register acts. -/
theorem Writable.control_stands (hw : Writable m r v s) (hr : r ∈ pmcControls) (hn : namesOneWord r id 0 0 = true) (hid : plainRules id = true) :
    ∃ h c, regAt r.addr = some h ∧ h.wide = r.one ∧ Stands m id 0 0 r.one v.toNat s (writeSeen m h v s) c ∧
      run (busPut m r.addr v) s = .next (settle s (regEffect (writeSeen m h v s) c)) := by
  obtain ⟨h, hf, rfl, hi, hj, hwide⟩ := regAt_of_namesOneWord hn
  obtain ⟨k, hk⟩ := mayWrite_meets hw
  obtain rfl : h = k := Option.some.inj (hf.symm.trans (regAt_of_placeOf hk.place.1))
  have hwords : h.spec.words = 1 := congrArg Wide.words hwide
  have hc := counted_only m r.addr s
  have hold : (counted m r.addr s).wide h.wide = s.wide h.wide := by
    rw [hwide, State.wide_one, State.wide_one, counted_control hr]
  have hplace : placeWrite m r.addr 15 v s (counted m r.addr s) = _ := (placeWrite_reg hk.place.1).trans (regAccess_mayWrite hk hc)
  rw [takeStaged_one m h v _ hwords, regCommit_plain hk hid hwords hold] at hplace
  have haddr := pmcControls_addr hr
  have hwraps : ∀ n t, wrapsStand r.addr n t = t := fun n t => by
    have hevent : r.addr ≠ PMC_EVENT.addr := by simp only [PMC_EVENT]; omega
    have hovf : ¬(r.addr = PMC_OVF.addr ∨ r.addr = PMC_OVF.addr + 4) := by simp only [PMC_OVF]; omega
    simp [wrapsStand, hevent, hovf]
  have hput : busPut m r.addr v s = regEffect (writeSeen m h v s) (stored h (writeSeen m h v s) (counted m r.addr s)) := by
    rw [busPut_now hk.runs, busWrite_served hk.master.2 hplace, if_pos rfl, hwraps]
  have hst := stored_stands (m := m) (w := v) hwords (by rw [show h.base = r.addr from congrArg Wide.addr hwide]; omega) hc hold
  rw [hwide, hi, hj] at hst
  exact ⟨h, _, hf, hwide, hst, run_eq hk.out hput⟩

end

end Sys2Proof.Machine
end

section
/-!
PROOFS. Interrupt rearm, the I2C and MDIO masters, the event counters and the tally dumps (R664, R665, R667, R668, R673 to R677; a stretched
clock's bytes are log entry 55, a master that is not enabled log entry 51, the lost record log entry 117, a dump asked for log entry 175).
-/

namespace Sys2Proof.Machine

open Sys2Proof

/-! ### Rearm (R665) -/

theorem bitsOf_two_pow : ∀ k : Fin 32, bitsOf 32 (2 ^ k.val) = [k.val] := by decide

theorem irqRearm_one (k : Fin 32) (s : State) :
    (k.val ∈ vecsHigh s → irqRearm (2 ^ k.val) s = msixFire k s) ∧ (k.val ∉ vecsHigh s → irqRearm (2 ^ k.val) s = s) := by
  unfold irqRearm
  rw [bitsOf_two_pow]
  exact ⟨fun h => by simp [h, forEach], fun h => by simp [h, forEach]⟩

theorem irqRearm_stands {m : BusMaster} {v : Word} {s : State} (hw : Writable m MGT_IRQ_REARM v s) : ∃ R c,
    Stands m .MGT_IRQ_REARM 0 0 MGT_IRQ_REARM.one v.toNat s R c ∧ exec (.irqRearm m v) s = .next (settle s (irqRearm v.toNat c)) := by
  have hcarried : Fld.carried MGT_IRQ_REARM_V = true := by decide +kernel
  obtain ⟨R, c, hst, hsees, hrun⟩ := hw.stands_sees (id := .MGT_IRQ_REARM) (i := 0) (j := 0) (by decide +kernel) (by decide) (by decide)
  obtain ⟨-, hid, -, -, haddr⟩ := hst.who
  have hlow : R.v % 2 ^ 32 = v.toNat := by
    have hfield := (hsees MGT_IRQ_REARM_V rfl (by decide)).1 hcarried
    have hv := v.isLt
    simp only [MGT_IRQ_REARM_V, RegWrite.field, haddr, Reg.one, Nat.sub_self, Nat.mul_zero, Nat.add_zero, pow_zero, Nat.div_one, extractBits] at hfield
    rw [hfield]
    omega
  have hbits : bitsOf 32 R.v = bitsOf 32 v.toNat := by
    unfold bitsOf
    rw [← hlow]
    refine List.filter_congr fun k hk => ?_
    rw [Nat.testBit_mod_two_pow, decide_eq_true (List.mem_range.1 hk), Bool.true_and]
  have hrearm : irqRearm R.v c = irqRearm v.toNat c := by
    unfold irqRearm
    rw [hbits]
  refine ⟨R, c, hst, ?_⟩
  unfold regEffect at hrun
  simp only [hid, hrearm] at hrun
  exact hrun

/-! ### The I2C masters (R667) -/

section
variable {b : Fin 4} {s : State}

theorem i2cGo_starts {m : BusMaster} {v : Word} (hw : Writable m (MGT_I2C_CMD b) (withField (MGT_I2C_CMD_GO b) 1 v) s)
    (h0 : s.on (MGT_I2C_CMD_GO b) = false) : ∃ R c, Stands m .MGT_I2C_CMD b 0 (MGT_I2C_CMD b).one (withField (MGT_I2C_CMD_GO b) 1 v).toNat s R c ∧
      exec (.i2cCommand m b v) s = .next (settle s (i2cGo b c)) := by
  have hn : ∀ b : Fin 4, namesOneWord (MGT_I2C_CMD b) .MGT_I2C_CMD b 0 = true := by decide +kernel
  have hc : ∀ b : Fin 4, (MGT_I2C_CMD_GO b).carried = true := by decide +kernel
  obtain ⟨R, c, hst, hacts, hrun⟩ := Writable.stands_acts (f := MGT_I2C_CMD_GO b) (id := .MGT_I2C_CMD) hw (hn b) (hc b) rfl
    (by simp only [MGT_I2C_CMD_GO]; omega) (by simp only [MGT_I2C_CMD_GO, MGT_I2C_CMD]; omega) (by decide) h0
  obtain ⟨-, hid, hi, -, -⟩ := hst.who
  refine ⟨R, c, hst, ?_⟩
  unfold regEffect at hrun
  simp only [hid, hi, hacts, if_true] at hrun
  exact hrun

theorem i2cGo_unchanged (h : s.on (MGT_I2C_CFG_EN b) = false ∨ s.on (MGT_I2C_STATUS_BUSY b) = true) : i2cGo b s = s := by
  refine if_pos ?_
  rcases h with h | h <;> simp [h]

/-- The master is busy with the command. -/
def i2cBusy (b : Nat) (s : State) : State := (s.put (MGT_I2C_STATUS_BUSY b) 1).put (MGT_I2C_CMD_GO b) 1

/-- The switch and the page, where the command names them, before the transfer. -/
def i2cSelect (b : Nat) (fast : Bool) (dev : Nat) (s : State) : State :=
  let byte := fun (n : Nat) => (BitVec.ofNat 8 n : Byte)
  let s := if s.on (MGT_I2C_CFG_MUX_EN b) then
      s.send (.i2c b fast (s.get (MGT_I2C_CFG_MUX_ADDR b)) [byte (2 ^ s.get (MGT_I2C_CMD_MUX_CH b))] 0) else s
  if s.on (MGT_I2C_CMD_PAGE_EN b) then s.send (.i2c b fast dev [byte 127, byte (s.get (MGT_I2C_CMD_PAGE b))] 0) else s

/-- The transfer of the command. -/
def i2cTransfer (b : Nat) (fast : Bool) (pause dev off : Nat) (s : State) : State :=
  if s.on (MGT_I2C_CMD_WRITE b) then
    forEach (eights off 16 (i2cBytes s b (s.get (MGT_I2C_LEN_V b)))) (fun x s => s.send (.i2c b fast dev (BitVec.ofNat 8 x.1 :: x.2) pause)) s
  else s.send (.i2cRead b fast dev off (s.get (MGT_I2C_LEN_V b)))

theorem i2cGo_runs (he : s.on (MGT_I2C_CFG_EN b) = true) (h0 : s.on (MGT_I2C_STATUS_BUSY b) = false) : i2cGo b s =
    i2cTransfer b (s.on (MGT_I2C_CFG_FAST b)) (s.get (MGT_I2C_CFG_WR_WAIT b)) (s.get (MGT_I2C_CMD_DEV b)) (s.get (MGT_I2C_CMD_OFFSET b))
      (i2cSelect b (s.on (MGT_I2C_CFG_FAST b)) (s.get (MGT_I2C_CMD_DEV b)) (i2cBusy b s)) := if_neg (by simp [he, h0])

theorem i2cSelect_regs (b : Nat) (fast : Bool) (dev : Nat) (s : State) : (i2cSelect b fast dev s).regs = s.regs := by
  unfold i2cSelect
  dsimp only
  split_ifs <;> rfl

theorem i2cTransfer_regs (b : Nat) (fast : Bool) (pause dev off : Nat) (s : State) : (i2cTransfer b fast pause dev off s).regs = s.regs := by
  unfold i2cTransfer
  split
  · exact forEach_keeps (P := fun t => t.regs = s.regs) s rfl fun _ _ ht => ht
  · rfl

theorem i2cBusy_fields (b : Nat) (s : State) : FieldsKept [MGT_I2C_STATUS_BUSY b, MGT_I2C_CMD_GO b] s (i2cBusy b s) :=
  ((FieldsKept.refl _ s).put List.mem_cons_self 1).put (List.mem_cons_of_mem _ List.mem_cons_self) 1

/-- The fields of a command are clear of BUSY and GO. -/
theorem i2cCommand_clear : ∀ b : Fin 4, ∀ f ∈ [MGT_I2C_CFG_MUX_EN b, MGT_I2C_CMD_PAGE_EN b, MGT_I2C_CMD_WRITE b, MGT_I2C_LEN_V b],
    f.clearOf [MGT_I2C_STATUS_BUSY b, MGT_I2C_CMD_GO b] = true := by decide

theorem i2cBusy_apart : ∀ b : Fin 4, (MGT_I2C_STATUS_BUSY b).reg.addr ≠ (MGT_I2C_CMD_GO b).reg.addr := by decide

theorem i2cGo_shows (he : s.on (MGT_I2C_CFG_EN b) = true) (h0 : s.on (MGT_I2C_STATUS_BUSY b) = false) :
    (i2cGo b s).on (MGT_I2C_STATUS_BUSY b) = true ∧ (i2cGo b s).on (MGT_I2C_CMD_GO b) = true ∧
      (s.on (MGT_I2C_CFG_MUX_EN b) = false → s.on (MGT_I2C_CMD_PAGE_EN b) = false → s.on (MGT_I2C_CMD_WRITE b) = false →
        (i2cGo b s).out = s.out ++ [.i2cRead b (s.on (MGT_I2C_CFG_FAST b)) (s.get (MGT_I2C_CMD_DEV b)) (s.get (MGT_I2C_CMD_OFFSET b)) (s.get (MGT_I2C_LEN_V b))]) := by
  have hregs : (i2cGo b s).regs = (i2cBusy b s).regs := by rw [i2cGo_runs he h0, i2cTransfer_regs, i2cSelect_regs]
  have hon : ∀ f : Fld, (i2cGo b s).on f = (i2cBusy b s).on f := fun f => by
    unfold State.on
    rw [State.get_of_regs hregs]
  refine ⟨?_, ?_, fun hmux hpage hwrite => ?_⟩
  · have hlater : (i2cBusy b s).on (MGT_I2C_STATUS_BUSY b) = (s.put (MGT_I2C_STATUS_BUSY b) 1).on (MGT_I2C_STATUS_BUSY b) := by
      unfold State.on i2cBusy
      rw [State.get_put_reg _ _ (i2cBusy_apart b)]
    exact (hon _).trans (hlater.trans (State.on_put_same s (by simp only [MGT_I2C_STATUS_BUSY]; omega) Nat.one_lt_two))
  · exact (hon _).trans (State.on_put_same _ (by simp only [MGT_I2C_CMD_GO]; omega) Nat.one_lt_two)
  · have hkept := i2cBusy_fields b s
    have hclear := i2cCommand_clear b
    have hoff : ∀ f : Fld, f.clearOf [MGT_I2C_STATUS_BUSY b, MGT_I2C_CMD_GO b] = true → s.on f = false → ¬(i2cBusy b s).on f = true :=
      fun f hf h => by simp [hkept.on hf, h]
    have hselect : ∀ fast dev, i2cSelect b fast dev (i2cBusy b s) = i2cBusy b s := fun fast dev => by
      unfold i2cSelect
      dsimp only
      rw [if_neg (hoff _ (hclear _ (by simp)) hmux)]
      exact if_neg (hoff _ (hclear _ (by simp)) hpage)
    rw [i2cGo_runs he h0, hselect]
    unfold i2cTransfer
    rw [if_neg (hoff _ (hclear _ (by simp)) hwrite), hkept.get (hclear _ (by simp))]
    rfl

/-! ### The end of an I2C command (R667) -/

/-- The fields of its registers that the end of a command writes. -/
abbrev i2cEndFields (b : Nat) : List Fld :=
  [MGT_I2C_STATUS_BUSY b, MGT_I2C_CMD_GO b, MGT_I2C_STATUS_RESULT b, MGT_I2C_STATUS_BYTES b, MGT_EVENT_MOD_DONE, MGT_EVENT_MOD_ERR]

/-- The command's result stands in its status. -/
def i2cResult (b code n : Nat) (s : State) : State :=
  (((s.put (MGT_I2C_STATUS_BUSY b) 0).put (MGT_I2C_CMD_GO b) 0).put (MGT_I2C_STATUS_RESULT b) code).put (MGT_I2C_STATUS_BYTES b) n

/-- The end of a command is noted, an error beside it. -/
def i2cNoted (code : Nat) (s : State) : State :=
  if code = 0 then s.ev MGT_EVENT_MOD_DONE else (s.ev MGT_EVENT_MOD_DONE).ev MGT_EVENT_MOD_ERR

theorem i2cEnd_ends {code n : Nat} (h : s.on (MGT_I2C_STATUS_BUSY b) = true) : i2cEnd b code n s = i2cNoted code (i2cResult b code n s) :=
  if_neg (by simp [h])

theorem i2cEnd_idle {code n : Nat} (h : s.on (MGT_I2C_STATUS_BUSY b) = false) : i2cEnd b code n s = s := if_pos (by simp [h])

theorem i2cNoted_fields (code : Nat) (s : State) : FieldsKept [MGT_EVENT_MOD_DONE, MGT_EVENT_MOD_ERR] s (i2cNoted code s) := by
  have hdone : FieldsKept [MGT_EVENT_MOD_DONE, MGT_EVENT_MOD_ERR] s (s.ev MGT_EVENT_MOD_DONE) := (FieldsKept.refl _ s).put (by decide) 1
  exact .ite hdone (hdone.put (g := MGT_EVENT_MOD_ERR) (by decide) 1)

theorem i2cNoted_events (code : Nat) (s : State) : (i2cNoted code s).on MGT_EVENT_MOD_DONE = true ∧
    (code ≠ 0 → (i2cNoted code s).on MGT_EVENT_MOD_ERR = true) := by
  have hdone : (s.ev MGT_EVENT_MOD_DONE).get MGT_EVENT_MOD_DONE ≠ 0 := State.on_true.1 (State.on_ev_same s (by decide) (by decide))
  refine ⟨?_, fun hc => ?_⟩
  · rw [State.on_true]
    unfold i2cNoted
    split
    · exact hdone
    · rw [State.ev_eq _ MGT_EVENT_MOD_ERR, State.get_put_apart _ _ (.inr (by decide))]
      exact hdone
  · unfold i2cNoted
    rw [if_neg hc]
    exact State.on_ev_same _ (by decide) (by decide)

theorem i2cResult_fields (b code n : Nat) (s : State) : FieldsKept (i2cEndFields b) s (i2cResult b code n s) :=
  ((((FieldsKept.refl _ s).put (by simp) 0).put (by simp) 0).put (by simp) code).put (by simp) n

/-- How the four fields of a result stand to each other. -/
theorem i2cResult_clear : ∀ b : Fin 4,
    (MGT_I2C_STATUS_BUSY b).clearOf [MGT_I2C_CMD_GO b, MGT_I2C_STATUS_RESULT b, MGT_I2C_STATUS_BYTES b] = true ∧
    (MGT_I2C_CMD_GO b).clearOf [MGT_I2C_STATUS_RESULT b, MGT_I2C_STATUS_BYTES b] = true ∧
    (MGT_I2C_STATUS_RESULT b).clearOf [MGT_I2C_STATUS_BYTES b] = true := by decide

theorem i2cResult_shows (b : Fin 4) (code n : Nat) (s : State) : (i2cResult b code n s).get (MGT_I2C_STATUS_BUSY b) = 0 ∧
    (i2cResult b code n s).get (MGT_I2C_CMD_GO b) = 0 ∧ (i2cResult b code n s).get (MGT_I2C_STATUS_RESULT b) = code % 2 ^ 3 ∧
    (i2cResult b code n s).get (MGT_I2C_STATUS_BYTES b) = n % 2 ^ 8 := by
  obtain ⟨hbusy, hgo, hresult⟩ := i2cResult_clear b
  have hput : ∀ (f : Fld) (v : Nat) (t : State), f.lsb + f.width ≤ 32 → (t.put f v).get f = v % 2 ^ f.width := fun f v t hf =>
    State.get_put_same t f v hf
  refine ⟨?_, ?_, ?_, hput _ _ _ (by simp only [MGT_I2C_STATUS_BYTES]; omega)⟩
  · refine ((((FieldsKept.refl _ (s.put (MGT_I2C_STATUS_BUSY b) 0)).put (by simp) 0).put (by simp) code).put (by simp) n).get hbusy |>.trans ?_
    exact (hput _ 0 _ (by simp only [MGT_I2C_STATUS_BUSY]; omega)).trans (Nat.zero_mod _)
  · refine (((FieldsKept.refl _ ((s.put (MGT_I2C_STATUS_BUSY b) 0).put (MGT_I2C_CMD_GO b) 0)).put (by simp) code).put (by simp) n).get hgo |>.trans ?_
    exact (hput _ 0 _ (by simp only [MGT_I2C_CMD_GO]; omega)).trans (Nat.zero_mod _)
  · refine ((FieldsKept.refl _ (((s.put (MGT_I2C_STATUS_BUSY b) 0).put (MGT_I2C_CMD_GO b) 0).put (MGT_I2C_STATUS_RESULT b) code)).put
      (by simp) n).get hresult |>.trans ?_
    exact hput _ code _ (by simp only [MGT_I2C_STATUS_RESULT]; omega)

/-- No field of the masters' registers is an event's. -/
theorem i2c_clear_events : ∀ b : Fin 4, ∀ f ∈ [MGT_I2C_STATUS_BUSY b, MGT_I2C_CMD_GO b, MGT_I2C_STATUS_RESULT b, MGT_I2C_STATUS_BYTES b],
    f.clearOf [MGT_EVENT_MOD_DONE, MGT_EVENT_MOD_ERR] = true := by decide

/-- What the end of a command leaves. -/
theorem i2cEnd_shows {code n : Nat} (h : s.on (MGT_I2C_STATUS_BUSY b) = true) (hcode : code < 8) : let u := i2cEnd b code n s
    u.on (MGT_I2C_STATUS_BUSY b) = false ∧ u.on (MGT_I2C_CMD_GO b) = false ∧ u.get (MGT_I2C_STATUS_RESULT b) = code ∧
      u.get (MGT_I2C_STATUS_BYTES b) = n % 2 ^ 8 ∧ u.on MGT_EVENT_MOD_DONE = true ∧ (code ≠ 0 → u.on MGT_EVENT_MOD_ERR = true) := by
  obtain ⟨hbusy, hgo, hresult, hbytes⟩ := i2cResult_shows b code n s
  obtain ⟨hdone, herr⟩ := i2cNoted_events code (i2cResult b code n s)
  have hkept := i2cNoted_fields code (i2cResult b code n s)
  have hclear := i2c_clear_events b
  rw [i2cEnd_ends h]
  refine ⟨?_, ?_, ?_, ?_, hdone, herr⟩
  · rw [State.on_false, hkept.get (hclear _ (by simp)), hbusy]
  · rw [State.on_false, hkept.get (hclear _ (by simp)), hgo]
  · rw [hkept.get (hclear _ (by simp)), hresult]
    omega
  · rw [hkept.get (hclear _ (by simp)), hbytes]

/-! ### The bytes of a read (R667) -/

/-- The field of byte `k` of the data words. -/
def i2cByteFld (b k : Nat) : Fld := ⟨MGT_I2C_DATA b (k / 4), 8 * (k % 4), 8⟩

theorem i2cByteFld_apart {k j : Nat} (b : Nat) (h : k ≠ j) : (i2cByteFld b k).Apart (i2cByteFld b j) := by
  unfold i2cByteFld
  by_cases hw : k / 4 = j / 4
  · refine .inr ⟨by simp only [hw], ?_, ?_⟩ <;> dsimp only <;> omega
  · refine .inl ?_
    simp only [MGT_I2C_DATA]
    omega

/-- Bytes put at places of the data words. -/
def i2cPut (b : Nat) (l : List (Byte × Nat)) (s : State) : State := forEach l (fun x s => s.put (i2cByteFld b x.2) x.1.toNat) s

theorem i2cPut_other {l : List (Byte × Nat)} {k : Nat} (h : k ∉ l.map Prod.snd) (b : Nat) (s : State) :
    (i2cPut b l s).get (i2cByteFld b k) = s.get (i2cByteFld b k) := by
  refine forEach_keeps_mem (P := fun t => t.get (i2cByteFld b k) = s.get (i2cByteFld b k)) rfl fun x hx t ht => ?_
  have hne : k ≠ x.2 := fun he => h (he ▸ List.mem_map_of_mem hx)
  exact (State.get_put_apart t _ (i2cByteFld_apart b hne)).trans ht

/-- At places all different each byte stands where it was put. -/
theorem i2cPut_mem {l : List (Byte × Nat)} (hd : (l.map Prod.snd).Nodup) (b : Nat) (s : State) {x : Byte × Nat} (hx : x ∈ l) :
    (i2cPut b l s).get (i2cByteFld b x.2) = x.1.toNat := by
  induction l generalizing s with
  | nil => exact absurd hx List.not_mem_nil
  | cons y l ih =>
    obtain ⟨hy, hd⟩ := List.nodup_cons.1 hd
    rcases List.mem_cons.1 hx with rfl | hx
    · refine (i2cPut_other hy b _).trans ((State.get_put_same s _ _ ?_).trans (Nat.mod_eq_of_lt x.1.isLt))
      simp only [i2cByteFld]
      omega
    · exact ih hd _ hx

theorem zipIdx_take_nodup (l : List Byte) (n : Nat) : ((l.zipIdx.take n).map Prod.snd).Nodup := by
  have hmap : l.zipIdx.map Prod.snd = List.range l.length := by rw [List.zipIdx_map_snd, List.range_eq_range']
  rw [List.map_take, hmap]
  exact List.nodup_range.sublist (List.take_sublist _ _)

theorem mem_zipIdx_take {l : List Byte} {k n : Nat} (hk : k < l.length) (hn : k < n) : (l.getD k 0, k) ∈ l.zipIdx.take n := by
  have hlen : k < (l.zipIdx.take n).length := by
    rw [List.length_take, List.length_zipIdx]
    omega
  have hget : (l.zipIdx.take n)[k] = (l.getD k 0, k) := by simp [hk]
  exact hget ▸ List.getElem_mem hlen

/-- A byte of a read stands in its data word. -/
theorem i2cStore_get {l : List Byte} {k : Nat} (hk : k < l.length) (hn : k < 128) (b : Nat) (s : State) :
    (i2cStore b l s).get (i2cByteFld b k) = (l.getD k 0).toNat :=
  i2cPut_mem (zipIdx_take_nodup l 128) b s (mem_zipIdx_take hk hn)

/-- The data words of a master, as whole words. -/
def i2cDataFields (b : Nat) : List Fld := (List.range 32).map (fun j => ⟨MGT_I2C_DATA b j, 0, 32⟩)

theorem i2cStore_fields (b : Nat) (l : List Byte) (s : State) : FieldsKept (i2cDataFields b) s (i2cStore b l s) :=
  forEach_keeps_mem (FieldsKept.refl _ s) fun x hx t ht => by
    have hidx : x.2 < 128 := by
      obtain ⟨k, hk, hget⟩ := List.mem_take_iff_getElem.1 hx
      rw [← hget, List.getElem_zipIdx]
      simp only
      omega
    exact ht.put_word (g := i2cByteFld b x.2) (List.mem_map.2 ⟨x.2 / 4, List.mem_range.2 (by omega), rfl⟩) _

theorem i2cBusy_clear_data : ∀ b : Fin 4, (MGT_I2C_STATUS_BUSY b).clearOf (i2cDataFields b) = true := by decide +kernel

theorem i2cByte_clear_end {k : Nat} (b : Fin 4) (hk : k < 128) : (i2cByteFld b k).clearOf (i2cEndFields b) = true := by
  have hb := b.isLt
  simp only [Fld.clearOf, i2cEndFields, i2cByteFld, List.all_cons, List.all_nil, MGT_I2C_STATUS_BUSY, MGT_I2C_CMD_GO, MGT_I2C_STATUS_RESULT,
    MGT_I2C_STATUS_BYTES, MGT_EVENT_MOD_DONE, MGT_EVENT_MOD_ERR, MGT_I2C_DATA, MGT_I2C_STATUS, MGT_I2C_CMD, MGT_EVENT, Bool.and_true,
    Bool.and_eq_true, Bool.or_eq_true, bne_iff_ne]
  omega

theorem i2cEnd_fields {code n : Nat} (b : Nat) (s : State) : FieldsKept (i2cEndFields b) s (i2cEnd b code n s) := by
  have hnoted : FieldsKept (i2cEndFields b) (i2cResult b code n s) (i2cNoted code (i2cResult b code n s)) :=
    (i2cNoted_fields code _).mono (by simp)
  exact .ite (FieldsKept.refl _ s) ((i2cResult_fields b code n s).trans hnoted)

/-! ### The command ends on the bus, or in a stretched clock (R667) -/

/-- The code of a result. -/
def i2cCode : I2cResult → Nat
  | .ok => 0
  | .nack => 1
  | .busStuck => 3

theorem i2cCode_lt (r : I2cResult) : i2cCode r < 8 := by cases r <;> decide

theorem i2cCode_error {r : I2cResult} (h : r ≠ .ok) : i2cCode r ≠ 0 := by
  cases r with
  | ok => exact absurd rfl h
  | nack => exact Nat.one_ne_zero
  | busStuck => exact Nat.succ_ne_zero 2

/-- The bytes of a read have been taken, and a stuck bus freed. -/
def i2cTaken (b : Nat) (r : I2cResult) (l : List Byte) (s : State) : State :=
  let busy := s.on (MGT_I2C_STATUS_BUSY b)
  let s := if busy && !s.on (MGT_I2C_CMD_WRITE b) then i2cStore b l s else s
  if busy ∧ r = .busStuck then s.send (.i2cFree b) else s

theorem i2cDone_eq (b : Nat) (r : I2cResult) (l : List Byte) (s : State) : i2cDone b r l s = i2cEnd b (i2cCode r)
    (min l.length (s.get (MGT_I2C_LEN_V b))) (i2cTaken b r (l.take (min l.length (s.get (MGT_I2C_LEN_V b)))) s) := by
  cases r <;> rfl

theorem i2cTaken_fields (b : Nat) (r : I2cResult) (l : List Byte) (s : State) : FieldsKept (i2cDataFields b) s (i2cTaken b r l s) := by
  have hstored : FieldsKept (i2cDataFields b) s (if s.on (MGT_I2C_STATUS_BUSY b) && !s.on (MGT_I2C_CMD_WRITE b) then i2cStore b l s else s) :=
    .ite (i2cStore_fields b l s) (FieldsKept.refl _ s)
  exact .ite (hstored.of_regs rfl) hstored

theorem i2cTaken_get {r : I2cResult} {l : List Byte} {k : Nat} (h : s.on (MGT_I2C_STATUS_BUSY b) = true) (hw : s.on (MGT_I2C_CMD_WRITE b) = false)
    (hk : k < l.length) (hn : k < 128) : (i2cTaken b r l s).get (i2cByteFld b k) = (l.getD k 0).toNat := by
  have hregs : (i2cTaken b r l s).regs = (i2cStore b l s).regs := by
    unfold i2cTaken
    dsimp only
    rw [if_pos (show (s.on (MGT_I2C_STATUS_BUSY b) && !s.on (MGT_I2C_CMD_WRITE b)) = true by simp [h, hw])]
    split <;> rfl
  rw [State.get_of_regs hregs]
  exact i2cStore_get hk hn b s

theorem i2cDone_idle {r : I2cResult} {l : List Byte} (h : s.on (MGT_I2C_STATUS_BUSY b) = false) : i2cDone b r l s = s := by
  have htaken : ∀ n : List Byte, i2cTaken b r n s = s := fun n => by
    unfold i2cTaken
    dsimp only
    rw [if_neg (by simp [h]), if_neg (by simp [h])]
  rw [i2cDone_eq, htaken, i2cEnd_idle h]

theorem i2cDone_shows {r : I2cResult} {l : List Byte} (h : s.on (MGT_I2C_STATUS_BUSY b) = true) : let u := i2cDone b r l s
    u.on (MGT_I2C_STATUS_BUSY b) = false ∧ u.on (MGT_I2C_CMD_GO b) = false ∧ u.on MGT_EVENT_MOD_DONE = true ∧
      u.get (MGT_I2C_STATUS_BYTES b) = min l.length (s.get (MGT_I2C_LEN_V b)) ∧ u.get (MGT_I2C_STATUS_RESULT b) = i2cCode r ∧
      (r ≠ .ok → u.on MGT_EVENT_MOD_ERR = true) ∧
      (s.on (MGT_I2C_CMD_WRITE b) = false → ∀ k < 128, k < min l.length (s.get (MGT_I2C_LEN_V b)) →
        u.get ⟨MGT_I2C_DATA b (k / 4), 8 * (k % 4), 8⟩ = (l.getD k 0).toNat) := by
  have hlen : s.get (MGT_I2C_LEN_V b) < 2 ^ 8 := State.get_lt s _
  have hbusy : ∀ n : List Byte, (i2cTaken b r n s).on (MGT_I2C_STATUS_BUSY b) = true := fun n =>
    ((i2cTaken_fields b r n s).on (i2cBusy_clear_data b)).trans h
  rw [i2cDone_eq]
  generalize hn : min l.length (s.get (MGT_I2C_LEN_V b)) = n
  obtain ⟨h1, h2, h3, h4, h5, h6⟩ := i2cEnd_shows (code := i2cCode r) (n := n) (hbusy (l.take n)) (i2cCode_lt r)
  refine ⟨h1, h2, h5, h4.trans (Nat.mod_eq_of_lt (by omega)), h3, fun hr => h6 (i2cCode_error hr), fun hw k hk hkn => ?_⟩
  have htake : (l.take n).getD k 0 = l.getD k 0 := by simp [List.getD, hkn]
  exact ((i2cEnd_fields b _).get (i2cByte_clear_end b hk)).trans
    ((i2cTaken_get h hw (by rw [List.length_take]; omega) hk).trans (congrArg BitVec.toNat htake))

theorem i2cTimeout_idle (h : s.on (MGT_I2C_STATUS_BUSY b) = false) : i2cTimeout b s = s := if_pos (by simp [h])

/-- A stretched clock ends the command, with the bytes it has open but no more than asked for. -/
theorem i2cTimeout_ends (h : s.on (MGT_I2C_STATUS_BUSY b) = true) : ∃ (n : Nat) (t : State), n ≤ s.get (MGT_I2C_LEN_V b) ∧
    FieldsKept (i2cDataFields b) s t ∧ i2cTimeout b s = i2cEnd b 2 n t := by
  refine ⟨Config.i2cCount s.freeNo % (s.get (MGT_I2C_LEN_V b) + 1), _, Nat.le_of_lt_succ (Nat.mod_lt _ (Nat.succ_pos _)), ?_, if_neg (by simp [h])⟩
  have hfresh : FieldsKept (i2cDataFields b) s s.fresh.2 := (FieldsKept.refl _ s).of_regs rfl
  exact .ite hfresh (hfresh.trans (i2cStore_fields b _ _))

theorem i2cTimeout_shows (h : s.on (MGT_I2C_STATUS_BUSY b) = true) : let u := i2cTimeout b s
    u.on (MGT_I2C_STATUS_BUSY b) = false ∧ u.on (MGT_I2C_CMD_GO b) = false ∧ u.get (MGT_I2C_STATUS_RESULT b) = 2 ∧
      u.get (MGT_I2C_STATUS_BYTES b) ≤ s.get (MGT_I2C_LEN_V b) ∧ u.on MGT_EVENT_MOD_DONE = true ∧ u.on MGT_EVENT_MOD_ERR = true := by
  obtain ⟨n, t, hn, hkept, heq⟩ := i2cTimeout_ends h
  obtain ⟨h1, h2, h3, h4, h5, h6⟩ := i2cEnd_shows (code := 2) (n := n) ((hkept.on (i2cBusy_clear_data b)).trans h) (by decide)
  rw [heq]
  exact ⟨h1, h2, h3, h4 ▸ (Nat.mod_le _ _).trans hn, h5, h6 (by decide)⟩

end

/-! ### The MDIO master (R668) -/

section
variable {s : State}

theorem mdioGo_starts {m : BusMaster} {v : Word} (hw : Writable m MGT_MDIO_CMD (withField MGT_MDIO_CMD_GO 1 v) s)
    (h0 : s.on MGT_MDIO_CMD_GO = false) : ∃ R c, Stands m .MGT_MDIO_CMD 0 0 MGT_MDIO_CMD.one (withField MGT_MDIO_CMD_GO 1 v).toNat s R c ∧
      exec (.mdioFrame m v) s = .next (settle s (mdioGo c)) := by
  obtain ⟨R, c, hst, hacts, hrun⟩ := Writable.stands_acts (f := MGT_MDIO_CMD_GO) (id := .MGT_MDIO_CMD) (i := 0) (j := 0) hw (by decide +kernel)
    (by decide +kernel) rfl (by decide) (by decide) (by decide) h0
  obtain ⟨-, hid, -, -, -⟩ := hst.who
  refine ⟨R, c, hst, ?_⟩
  unfold regEffect at hrun
  simp only [hid, hacts, if_true] at hrun
  exact hrun

/-- The frame runs. -/
def mdioBusy (s : State) : State := (s.put MGT_MDIO_STATUS_BUSY 1).put MGT_MDIO_CMD_GO 1

theorem mdioBusy_fields (s : State) : FieldsKept [MGT_MDIO_STATUS_BUSY, MGT_MDIO_CMD_GO] s (mdioBusy s) :=
  ((FieldsKept.refl _ s).put (by decide) 1).put (by decide) 1

theorem mdioGo_shows (h : s.on MGT_MDIO_STATUS_BUSY = false) : (mdioGo s).on MGT_MDIO_STATUS_BUSY = true ∧ (mdioGo s).on MGT_MDIO_CMD_GO = true ∧
    (mdioGo s).out = s.out ++
      [.mdio (s.get MGT_MDIO_CFG_DIV) (s.get MGT_MDIO_CMD_OP) (s.get MGT_MDIO_CMD_PHYAD) (s.get MGT_MDIO_CMD_REGAD) (s.get MGT_MDIO_CMD_DATA)] := by
  have hkept := mdioBusy_fields s
  have hgo : mdioGo s = (mdioBusy s).send (.mdio (s.get MGT_MDIO_CFG_DIV) (s.get MGT_MDIO_CMD_OP) (s.get MGT_MDIO_CMD_PHYAD)
      (s.get MGT_MDIO_CMD_REGAD) (s.get MGT_MDIO_CMD_DATA)) := by
    unfold mdioGo
    rw [if_neg (by simp [h]), ← hkept.get (f := MGT_MDIO_CFG_DIV) (by decide), ← hkept.get (f := MGT_MDIO_CMD_OP) (by decide),
      ← hkept.get (f := MGT_MDIO_CMD_PHYAD) (by decide), ← hkept.get (f := MGT_MDIO_CMD_REGAD) (by decide),
      ← hkept.get (f := MGT_MDIO_CMD_DATA) (by decide)]
    rfl
  have hbusy : (mdioBusy s).on MGT_MDIO_STATUS_BUSY = true := by
    rw [State.on_true]
    unfold mdioBusy
    rw [State.get_put_reg _ _ (by decide), State.get_put_same _ _ _ (by decide)]
    decide
  rw [hgo]
  exact ⟨hbusy, State.on_put_same _ (by decide) (by decide), rfl⟩

/-- The frame is over. -/
def mdioEnded (s : State) : State := ((s.put MGT_MDIO_STATUS_BUSY 0).put MGT_MDIO_CMD_GO 0).ev MGT_EVENT_MOD_DONE

theorem mdioEnded_fields (s : State) : FieldsKept [MGT_MDIO_STATUS_BUSY, MGT_MDIO_CMD_GO, MGT_EVENT_MOD_DONE] s (mdioEnded s) :=
  (((FieldsKept.refl _ s).put (by decide) 0).put (by decide) 0).put (g := MGT_EVENT_MOD_DONE) (by decide) 1

theorem mdioEnded_shows (s : State) : (mdioEnded s).get MGT_MDIO_STATUS_BUSY = 0 ∧ (mdioEnded s).get MGT_MDIO_CMD_GO = 0 ∧
    (mdioEnded s).on MGT_EVENT_MOD_DONE = true := by
  refine ⟨?_, ?_, State.on_ev_same _ (by decide) (by decide)⟩
  · unfold mdioEnded
    rw [State.ev_eq, State.get_put_reg _ _ (by decide), State.get_put_reg _ _ (by decide), State.get_put_same _ _ _ (by decide)]
    rfl
  · unfold mdioEnded
    rw [State.ev_eq, State.get_put_reg _ _ (by decide), State.get_put_same _ _ _ (by decide)]
    rfl

theorem mdioDone_idle {d : Nat} (h : s.on MGT_MDIO_STATUS_BUSY = false) : mdioDone d s = s := if_pos (by simp [h])

theorem mdioDone_shows (d : Fin 65536) (h : s.on MGT_MDIO_STATUS_BUSY = true) : let u := mdioDone d s
    u.on MGT_MDIO_STATUS_BUSY = false ∧ u.on MGT_MDIO_CMD_GO = false ∧ u.on MGT_EVENT_MOD_DONE = true ∧ u.get MGT_MDIO_STATUS_RDATA =
      if s.get MGT_MDIO_CMD_OP = 1 ∨ s.get MGT_MDIO_CMD_OP = 4 then d.val else s.get MGT_MDIO_STATUS_RDATA := by
  obtain ⟨hbusy, hgo, hdone⟩ := mdioEnded_shows s
  have hends : mdioDone d s = if s.get MGT_MDIO_CMD_OP = 1 ∨ s.get MGT_MDIO_CMD_OP = 4 then (mdioEnded s).put MGT_MDIO_STATUS_RDATA d
      else mdioEnded s := if_neg (by simp [h])
  rw [State.on_true] at hdone
  dsimp only
  rw [hends, State.on_false, State.on_false, State.on_true]
  split
  · refine ⟨?_, ?_, ?_, State.get_put_fits _ (by decide) d.isLt⟩
    · rw [State.get_put_apart _ _ (.inr (by decide)), hbusy]
    · rw [State.get_put_reg _ _ (by decide), hgo]
    · rw [State.get_put_reg _ _ (by decide)]
      exact hdone
  · exact ⟨hbusy, hgo, hdone, (mdioEnded_fields s).get (by decide)⟩

end

/-! ### The event counters (R673, R674) -/

section
variable {m : BusMaster} {v : Word} {s : State}

/-- A row that sets a bit of a control register of the counters, where it stood at 0. -/
theorem Writable.control_acts {f : Fld} {id : RegId} (hw : Writable m f.reg (withField f 1 v) s) (hr : f.reg ∈ pmcControls)
    (hn : namesOneWord f.reg id 0 0 = true) (hid : plainRules id = true) (hc : f.carried = true) (h1 : f.width = 1) (hl : f.lsb < 32)
    (h0 : s.on f = false) : ∃ R c, Stands m id 0 0 f.reg.one (withField f 1 v).toNat s R c ∧ R.acts f = true ∧
      run (busSet m f 1 v) s = .next (settle s (regEffect R c)) := by
  obtain ⟨h, c, hf, hwide, hst, hrun⟩ := hw.control_stands hr hn hid
  have hfield := (writeSeen_seesFields (m := m) (w := withField f 1 v) (s := s) hf (congrArg Wide.words hwide) (congrArg Wide.addr hwide) f rfl (by omega)).1 hc
  have hwas := hst.was_eq.trans (State.on_false.1 h0)
  refine ⟨_, c, hst, ?_, hrun⟩
  unfold RegWrite.acts
  rw [hfield, hwas, extract_withField (by omega), h1]
  rfl

theorem pmcClear_stands (hw : Writable m PMC_CTRL (withField PMC_CTRL_CLEAR 1 v) s) (h0 : s.on PMC_CTRL_CLEAR = false) : ∃ R c,
    Stands m .PMC_CTRL 0 0 PMC_CTRL.one (withField PMC_CTRL_CLEAR 1 v).toNat s R c ∧ exec (.pmcClear m v) s = .next (settle s (pmcClear c)) := by
  obtain ⟨R, c, hst, hacts, hrun⟩ := Writable.control_acts (f := PMC_CTRL_CLEAR) (id := .PMC_CTRL) hw List.mem_cons_self pmcControls_named.1 (by decide)
    (by decide +kernel) rfl (by decide) h0
  obtain ⟨-, hid, -, -, -⟩ := hst.who
  refine ⟨R, c, hst, ?_⟩
  unfold regEffect at hrun
  simp only [hid, hacts, if_true] at hrun
  exact hrun

theorem tallyDumpNow_stands (hw : Writable m PMC_DUMP_CTRL (withField PMC_DUMP_CTRL_NOW 1 v) s) (h0 : s.on PMC_DUMP_CTRL_NOW = false) : ∃ R c,
    Stands m .PMC_DUMP_CTRL 0 0 PMC_DUMP_CTRL.one (withField PMC_DUMP_CTRL_NOW 1 v).toNat s R c ∧
    exec (.tallyDumpNow m v) s = .next (settle s (dumpNow c)) := by
  obtain ⟨R, c, hst, hacts, hrun⟩ := Writable.control_acts (f := PMC_DUMP_CTRL_NOW) (id := .PMC_DUMP_CTRL) hw
    (List.mem_cons_of_mem _ List.mem_cons_self) pmcControls_named.2 (by decide) (by decide +kernel) rfl (by decide) h0
  obtain ⟨-, hid, -, -, -⟩ := hst.who
  refine ⟨R, c, hst, ?_⟩
  unfold regEffect at hrun
  simp only [hid, hacts, if_true] at hrun
  exact hrun

/-- One bit of a word as a field. -/
theorem extractBits_bit (v : Word) (k : Nat) : extractBits v k 1 = (v.toNat.testBit k).toNat := (Nat.toNat_testBit _ _).symm

/-- FREEZE stands as written; CLEAR acts where it is written 1 and stood at 0. -/
theorem pmcFreeze_stands (hw : Writable m PMC_CTRL v s) : ∃ R c, Stands m .PMC_CTRL 0 0 PMC_CTRL.one v.toNat s R c ∧
    c.on PMC_CTRL_FREEZE = v.toNat.testBit 0 ∧
    exec (.pmcFreeze m v) s = .next (settle s (if v.toNat.testBit 1 && !s.on PMC_CTRL_CLEAR then pmcClear c else c)) := by
  obtain ⟨h, c, hf, hwide, hst, hrun⟩ := hw.control_stands List.mem_cons_self pmcControls_named.1 (by decide)
  have hsees := writeSeen_seesFields (m := m) (w := v) (s := s) hf (congrArg Wide.words hwide) (congrArg Wide.addr hwide)
  have hfreeze : c.get PMC_CTRL_FREEZE = (v.toNat.testBit 0).toNat :=
    (Stands.get_now (f := PMC_CTRL_FREEZE) hst (by decide)).trans (((hsees PMC_CTRL_FREEZE rfl (by decide)).2 (by decide +kernel)).trans (extractBits_bit v 0))
  have hclear := ((hsees PMC_CTRL_CLEAR rfl (by decide)).1 (by decide +kernel)).trans (extractBits_bit v 1)
  have hwas : (writeSeen m h v s).was PMC_CTRL_CLEAR = s.get PMC_CTRL_CLEAR := Stands.was_eq (f := PMC_CTRL_CLEAR) hst
  have hacts : (writeSeen m h v s).acts PMC_CTRL_CLEAR = (v.toNat.testBit 1 && !s.on PMC_CTRL_CLEAR) := by
    unfold RegWrite.acts State.on
    rw [hclear, hwas]
    cases v.toNat.testBit 1 <;> simp [bne]
  obtain ⟨-, hid, -, -, -⟩ := hst.who
  refine ⟨_, c, hst, ?_, ?_⟩
  · unfold State.on
    rw [hfreeze]
    cases v.toNat.testBit 0 <;> rfl
  · unfold regEffect at hrun
    simp only [hid, hacts] at hrun
    exact hrun

/-- The counters of a list are zero, the others as before. -/
theorem wide_clearCounters (l : List Nat) (n : Nat) (s : State) : (forEach l (fun n s => s.putWide (PMC_CNT n) 0) s).wide (PMC_CNT n) =
    if n ∈ l then 0 else s.wide (PMC_CNT n) := by
  induction l generalizing s with
  | nil => simp [forEach]
  | cons k l ih =>
    refine (ih (s.putWide (PMC_CNT k) 0)).trans ?_
    by_cases hk : n = k
    · subst hk
      have hzero : (s.putWide (PMC_CNT n) 0).wide (PMC_CNT n) = 0 := (State.wide_putWide s _ 0).trans (Nat.zero_mod _)
      simp [hzero]
    · have hother : (s.putWide (PMC_CNT k) 0).wide (PMC_CNT n) = s.wide (PMC_CNT n) :=
        ((WordsKept.refl (PMC_CNT k).addr ((PMC_CNT k).addr + 8) s).putWide (Nat.le_refl _) (Nat.le_refl _)).wide
          (by simp only [PMC_CNT]; omega)
      simp [hk, hother]

theorem pmcClear_shows (s : State) : (∀ n < 64, (pmcClear s).wide (PMC_CNT n) = 0) ∧ (pmcClear s).wide PMC_OVF = 0 ∧ (pmcClear s).mgt = s.mgt := by
  have hmgt : ∀ (t : State) (w : Wide), (t.putWide w 0).mgt = t.mgt := fun t w => by
    unfold State.putWide
    rw [State.putWideFrom_eq]
  refine ⟨fun n hn => ?_, (State.wide_putWide _ _ 0).trans (Nat.zero_mod _), ?_⟩
  · have hovf : (pmcClear s).wide (PMC_CNT n) = _ :=
      ((WordsKept.refl PMC_OVF.addr (PMC_OVF.addr + 8) _).putWide (Nat.le_refl _) (Nat.le_refl _)).wide (by simp only [PMC_CNT, PMC_OVF]; omega)
    rw [hovf, wide_clearCounters, if_pos (List.mem_range.2 hn)]
  · exact (hmgt _ _).trans (forEach_keeps (P := fun t => t.mgt = s.mgt) s rfl fun n t ht => (hmgt t _).trans ht)

end

/-! ### Tally dumps (R675 to R677) -/

section
variable {s : State}

theorem dumpDue_unchanged (h : s.on PMC_DUMP_CTRL_EN = false ∨ s.stage ≠ 0) : dumpDue s = s := by
  refine if_neg ?_
  rcases h with h | h <;> simp [h]

theorem dumpDue_taken (he : s.on PMC_DUMP_CTRL_EN = true) (h0 : s.stage = 0) : dumpDue s = dumpSnapshot false s := if_pos (by simp [he, h0])

theorem dumpNow_eq (s : State) : (s.stage ≠ 0 → dumpNow s = s) ∧ (s.stage = 0 → dumpNow s = dumpSnapshot true s) :=
  ⟨fun h => if_neg (by simp [h]), fun h => if_pos (by simp [h])⟩

/-- A snapshot has its number. -/
def dumpCounted (s : State) : State :=
  let s := s.count PMC_DUMP_SEQ_V
  { s with mgt := { s.mgt with resumed := false } }

theorem dumpCounted_fields (s : State) : FieldsKept [PMC_DUMP_SEQ_V] s (dumpCounted s) :=
  ((FieldsKept.refl _ s).put (g := PMC_DUMP_SEQ_V) (by decide) _).of_regs rfl

theorem dumpCounted_seq (s : State) : (dumpCounted s).get PMC_DUMP_SEQ_V = (s.get PMC_DUMP_SEQ_V + 1) % 2 ^ 32 := State.get_put_same s _ _ (by decide)

/-- The record stands in its slot of the ring on the chip. -/
def dumpChip (rec_ : List Nat) (s : State) : State :=
  forEach rec_.zipIdx (fun x t => t.storeLE (dumpSlot (s.get PMC_DUMP_STATUS_CHIP_WR) + 4 * x.2) 4 x.1) (dumpWritten s)

/-- The ring's next slot is named. -/
def dumpChipNext (rec_ : List Nat) (s : State) : State := (dumpChip rec_ s).put PMC_DUMP_STATUS_CHIP_WR ((s.get PMC_DUMP_STATUS_CHIP_WR + 1) % 120)

/-- The record that stood in its slot is lost with it, where the host had not taken it. -/
def dumpReplaced (full : Bool) (s : State) : State := if full then dumpLost s else s

theorem dumpSnapshot_chip (now : Bool) (hd : s.on PMC_DUMP_CTRL_DEST = false) : dumpSnapshot now s =
    dumpReplaced ((dumpCounted s).bytesLE (dumpSlot ((dumpCounted s).get PMC_DUMP_STATUS_CHIP_WR)) 4 == 0x4B544C59)
      (dumpChipNext (dumpRecord s now) (dumpCounted s)) := by
  have hdest : (dumpCounted s).on PMC_DUMP_CTRL_DEST = false := ((dumpCounted_fields s).on (by decide)).trans hd
  exact if_pos (by change (!(dumpCounted s).on PMC_DUMP_CTRL_DEST) = true; simp [hdest])

/-- The ring of the host has room for another record. -/
def dumpRoom (s : State) : Bool :=
  !(!s.mgt.bme || (s.get PMC_DUMP_HOST_WR_V + 1) % s.get PMC_DUMP_HOST_SIZE_V == s.get PMC_DUMP_HOST_RD_V)

/-- The record goes to the ring of the host. -/
def dumpHost (rec_ : List Nat) (s : State) : State :=
  ((dumpWritten s).put PMC_DUMP_HOST_WR_V ((s.get PMC_DUMP_HOST_WR_V + 1) % s.get PMC_DUMP_HOST_SIZE_V)).send
    (.dump (s.wide PMC_DUMP_HOST_BASE + 544 * s.get PMC_DUMP_HOST_WR_V) rec_)

theorem dumpSnapshot_host (now : Bool) (hd : s.on PMC_DUMP_CTRL_DEST = true) : dumpSnapshot now s =
    if dumpRoom (dumpCounted s) then dumpHost (dumpRecord s now) (dumpCounted s) else dumpLost (dumpCounted s) := by
  have hdest : (dumpCounted s).on PMC_DUMP_CTRL_DEST = true := ((dumpCounted_fields s).on (by decide)).trans hd
  have hhost : dumpSnapshot now s = if !(dumpCounted s).mgt.bme || ((dumpCounted s).get PMC_DUMP_HOST_WR_V + 1) %
      (dumpCounted s).get PMC_DUMP_HOST_SIZE_V == (dumpCounted s).get PMC_DUMP_HOST_RD_V then dumpLost (dumpCounted s)
      else dumpHost (dumpRecord s now) (dumpCounted s) :=
    if_neg (by change ¬(!(dumpCounted s).on PMC_DUMP_CTRL_DEST) = true; simp [hdest])
  rw [hhost]
  unfold dumpRoom
  cases (!(dumpCounted s).mgt.bme || ((dumpCounted s).get PMC_DUMP_HOST_WR_V + 1) % (dumpCounted s).get PMC_DUMP_HOST_SIZE_V ==
    (dumpCounted s).get PMC_DUMP_HOST_RD_V) <;> rfl

/-- The fields that a record lost writes, and those of a record written. -/
abbrev lostFields : List Fld := [PMC_DUMP_LOST_V, PMC_EVENT_DUMP_LOST]

abbrev chipFields : List Fld := [PMC_EVENT_DUMP, PMC_DUMP_STATUS_CHIP_WR]

abbrev hostFields : List Fld := [PMC_EVENT_DUMP, PMC_DUMP_HOST_WR_V]

theorem dumpLost_fields (s : State) : FieldsKept lostFields s (dumpLost s) :=
  (((FieldsKept.refl _ s).put (g := PMC_DUMP_LOST_V) (by decide) _).put (g := PMC_EVENT_DUMP_LOST) (by decide) 1).of_regs rfl

theorem dumpLost_shows (s : State) : (dumpLost s).get PMC_DUMP_LOST_V = (s.get PMC_DUMP_LOST_V + 1) % 2 ^ 32 ∧
    (dumpLost s).on PMC_EVENT_DUMP_LOST = true :=
  ⟨(State.get_put_reg (f := PMC_DUMP_LOST_V) _ 1 (by decide)).trans (State.get_put_same s _ _ (by decide)), State.on_ev_same _ (by decide) (by decide)⟩

theorem dumpReplaced_fields (full : Bool) (s : State) : FieldsKept lostFields s (dumpReplaced full s) :=
  .ite (dumpLost_fields s) (FieldsKept.refl _ s)

theorem dumpChip_regs (rec_ : List Nat) (s : State) : (dumpChip rec_ s).regs = (dumpWritten s).regs :=
  forEach_keeps (P := fun t => t.regs = (dumpWritten s).regs) _ rfl fun _ t ht => (State.storeLE_regs t _ _ _).trans ht

theorem dumpWritten_fields (s : State) : FieldsKept [PMC_EVENT_DUMP] s (dumpWritten s) :=
  ((FieldsKept.refl _ s).put (g := PMC_EVENT_DUMP) (by decide) 1).of_regs rfl

theorem dumpWritten_event (s : State) : (dumpWritten s).on PMC_EVENT_DUMP = true := State.on_ev_same s (by decide) (by decide)

theorem dumpChipNext_fields (rec_ : List Nat) (s : State) : FieldsKept chipFields s (dumpChipNext rec_ s) :=
  (((dumpWritten_fields s).of_regs (dumpChip_regs rec_ s)).mono (by decide)).put (by decide) _

theorem dumpChipNext_shows (rec_ : List Nat) (s : State) : (dumpChipNext rec_ s).get PMC_DUMP_STATUS_CHIP_WR = (s.get PMC_DUMP_STATUS_CHIP_WR + 1) % 120 ∧
    (dumpChipNext rec_ s).get PMC_EVENT_DUMP ≠ 0 := by
  have hfits : (s.get PMC_DUMP_STATUS_CHIP_WR + 1) % 120 < 2 ^ PMC_DUMP_STATUS_CHIP_WR.width :=
    (Nat.mod_lt _ (by decide)).trans (by decide)
  refine ⟨State.get_put_fits _ (by decide) hfits, ?_⟩
  unfold dumpChipNext
  rw [State.get_put_reg _ _ (by decide), State.get_of_regs (dumpChip_regs rec_ s)]
  exact State.on_true.1 (dumpWritten_event s)

theorem dumpHost_fields (rec_ : List Nat) (s : State) : FieldsKept hostFields s (dumpHost rec_ s) :=
  (((dumpWritten_fields s).mono (by decide)).put (g := PMC_DUMP_HOST_WR_V) (by decide) _).of_regs rfl

theorem dumpHost_shows (rec_ : List Nat) (s : State) : (dumpHost rec_ s).on PMC_EVENT_DUMP = true ∧
    (dumpHost rec_ s).out = s.out ++ [.dump (s.wide PMC_DUMP_HOST_BASE + 544 * s.get PMC_DUMP_HOST_WR_V) rec_] := by
  refine ⟨?_, rfl⟩
  rw [State.on_true]
  exact fun h0 => State.on_true.1 (dumpWritten_event s) ((State.get_put_reg (f := PMC_EVENT_DUMP) _ _ (by decide)).symm.trans h0)

/-- Whatever ring it goes to, a snapshot takes the next number. -/
theorem dumpSnapshot_seq (now : Bool) (s : State) : (dumpSnapshot now s).get PMC_DUMP_SEQ_V = (s.get PMC_DUMP_SEQ_V + 1) % 2 ^ 32 := by
  cases hd : s.on PMC_DUMP_CTRL_DEST with
  | false =>
    rw [dumpSnapshot_chip now hd, (dumpReplaced_fields _ _).get (by decide), (dumpChipNext_fields _ _).get (by decide), dumpCounted_seq]
  | true =>
    rw [dumpSnapshot_host now hd]
    split
    · rw [(dumpHost_fields _ _).get (by decide), dumpCounted_seq]
    · rw [(dumpLost_fields _).get (by decide), dumpCounted_seq]

theorem dumpSnapshot_chip_shows (now : Bool) (hd : s.on PMC_DUMP_CTRL_DEST = false) :
    (dumpSnapshot now s).get PMC_DUMP_STATUS_CHIP_WR = (s.get PMC_DUMP_STATUS_CHIP_WR + 1) % 120 ∧ (dumpSnapshot now s).on PMC_EVENT_DUMP = true := by
  obtain ⟨hnext, hevent⟩ := dumpChipNext_shows (dumpRecord s now) (dumpCounted s)
  have hkept := dumpReplaced_fields ((dumpCounted s).bytesLE (dumpSlot ((dumpCounted s).get PMC_DUMP_STATUS_CHIP_WR)) 4 == 0x4B544C59)
    (dumpChipNext (dumpRecord s now) (dumpCounted s))
  rw [dumpSnapshot_chip now hd]
  refine ⟨?_, ?_⟩
  · rw [hkept.get (by decide), hnext, (dumpCounted_fields s).get (by decide)]
  · rw [State.on_true, hkept.get (by decide)]
    exact hevent

/-- A record that the endpoint may not write is lost. -/
theorem dumpSnapshot_lost (now : Bool) (hd : s.on PMC_DUMP_CTRL_DEST = true) (hb : s.mgt.bme = false) :
    (dumpSnapshot now s).get PMC_DUMP_LOST_V = (s.get PMC_DUMP_LOST_V + 1) % 2 ^ 32 ∧ (dumpSnapshot now s).on PMC_EVENT_DUMP_LOST = true ∧
      (dumpSnapshot now s).get PMC_DUMP_HOST_WR_V = s.get PMC_DUMP_HOST_WR_V ∧ (dumpSnapshot now s).out = s.out := by
  have hroom : dumpRoom (dumpCounted s) = false := by
    have hbme : (dumpCounted s).mgt.bme = false := hb
    simp [dumpRoom, hbme]
  obtain ⟨hlost, hevent⟩ := dumpLost_shows (dumpCounted s)
  rw [dumpSnapshot_host now hd, hroom, if_neg (by decide)]
  refine ⟨?_, hevent, ?_, rfl⟩
  · rw [hlost, (dumpCounted_fields s).get (by decide)]
  · rw [(dumpLost_fields _).get (by decide), (dumpCounted_fields s).get (by decide)]

theorem dumpSnapshot_host_shows (now : Bool) (hd : s.on PMC_DUMP_CTRL_DEST = true) (hb : s.mgt.bme = true)
    (hroom : (s.get PMC_DUMP_HOST_WR_V + 1) % s.get PMC_DUMP_HOST_SIZE_V ≠ s.get PMC_DUMP_HOST_RD_V) :
    (dumpSnapshot now s).on PMC_EVENT_DUMP = true ∧
      (dumpSnapshot now s).out = s.out ++ [.dump (s.wide PMC_DUMP_HOST_BASE + 544 * s.get PMC_DUMP_HOST_WR_V) (dumpRecord s now)] := by
  have hkept := dumpCounted_fields s
  have hbme : (dumpCounted s).mgt.bme = true := hb
  have hfits : dumpRoom (dumpCounted s) = true := by
    unfold dumpRoom
    rw [hkept.get (f := PMC_DUMP_HOST_WR_V) (by decide), hkept.get (f := PMC_DUMP_HOST_SIZE_V) (by decide),
      hkept.get (f := PMC_DUMP_HOST_RD_V) (by decide), hbme]
    simp [hroom]
  obtain ⟨hevent, hout⟩ := dumpHost_shows (dumpRecord s now) (dumpCounted s)
  rw [dumpSnapshot_host now hd, if_pos hfits]
  refine ⟨hevent, ?_⟩
  rw [hout, hkept.get (by decide), hkept.wide (w := PMC_DUMP_HOST_BASE) (by decide)]
  rfl

end

/-- Settles O57, row by row. -/
theorem interruptsModuleBusesAndCounters : Obligations.InterruptsModuleBusesAndCounters := by
  refine ⟨fun m v s hw => irqRearm_stands hw, irqRearm_one, fun m b v s hw h0 => i2cGo_starts hw h0,
    fun b s => ⟨i2cGo_unchanged, i2cGo_shows⟩, fun b r l s hs h => timed_eq hs (i2cDone_idle h), fun b r l s hs h => ?_,
    fun b s hs h => timed_eq hs (i2cTimeout_idle h), fun b s hs h => ⟨_, timed_eq hs rfl, i2cTimeout_shows h⟩,
    fun m v s hw h0 => mdioGo_starts hw h0, fun s => ⟨fun h => if_pos h, mdioGo_shows⟩,
    fun d s hs h => timed_eq hs (mdioDone_idle h), fun d s hs h => ⟨_, timed_eq hs rfl, mdioDone_shows d h⟩,
    fun m v s hw h0 => pmcClear_stands hw h0, fun m v s hw h1 => ?_, fun m v s hw h1 h0 => ?_, pmcClear_shows,
    fun m v s hw h0 => tallyDumpNow_stands hw h0, fun s hs h => timed_eq hs (dumpDue_unchanged h),
    fun s hs he h0 => timed_eq hs (dumpDue_taken he h0), dumpNow_eq,
    fun now s => ⟨dumpSnapshot_seq now s, dumpSnapshot_chip_shows now, dumpSnapshot_lost now, dumpSnapshot_host_shows now⟩⟩
  · refine ⟨_, timed_eq hs rfl, ?_⟩
    cases r <;> exact i2cDone_shows h
  · obtain ⟨R, c, hst, hfreeze, hrun⟩ := pmcFreeze_stands hw
    exact ⟨R, c, hst, hfreeze, by simpa [h1] using hrun⟩
  · obtain ⟨R, c, hst, hfreeze, hrun⟩ := pmcFreeze_stands hw
    exact ⟨R, c, hst, hfreeze, by simpa [h1, h0] using hrun⟩

end Sys2Proof.Machine
end

section
/-!
PROOFS. PCIe, the rings of the CPU port, SPI, MMP requests and JTAG (R651 to R663; masking and pending of MSI-X vectors are log entry 144, the
other choices of the model log entries 72 and 113 to 115).
-/

namespace Sys2Proof.Machine

open Sys2Proof

/-! ### PCIe (R651, R652) -/

section
variable {s : State}

theorem cfgRequest_outside (q : CfgReq) (hr : s.inReset = false) :
    exec (.pcieConfigurationRequest q) s = .next (settle s (configRequest q s)) :=
  congrArg Host.Outcome.next (if_neg (by simp [hr]))

/-- A request out of RESET, once LOADING has been reached. -/
theorem cfgRequest_made (q : CfgReq) (hr : s.inReset = false) (h1 : s.dev ≠ .reset) (h2 : s.dev ≠ .clockStart) :
    exec (.pcieConfigurationRequest q) s = .next (settle s (cfgMake q s)) := by
  have hmake : configRequest q s = cfgMake q s := if_neg (by simp [h1, h2])
  rw [cfgRequest_outside q hr, hmake]

theorem cfgRequest_inReset (q : CfgReq) (hr : s.inReset = true) : exec (.pcieConfigurationRequest q) s = .next (cfgRetry q s) :=
  congrArg Host.Outcome.next (if_pos hr)

theorem cfgRequest_early (q : CfgReq) (hr : s.inReset = false) (h : s.dev = .reset ∨ s.dev = .clockStart) :
    exec (.pcieConfigurationRequest q) s = .next (settle s (cfgRetry q s)) := by
  have hretry : configRequest q s = cfgRetry q s := if_pos h
  rw [cfgRequest_outside q hr, hretry]

theorem cfgRetry_eq (q : CfgReq) (s : State) :
    ((∀ v m, q ≠ .vector v m) → cfgRetry q s = s.send (.cfg true)) ∧ ((∃ v m, q = .vector v m) → cfgRetry q s = s) := by
  cases q with
  | vector v m => exact ⟨fun h => absurd rfl (h v m), fun _ => rfl⟩
  | read | command | msix =>
    refine ⟨fun _ => rfl, ?_⟩
    rintro ⟨_, _, h⟩
    cases h

/-- A vector sends its message where messages can be sent; masked, it is pending. -/
theorem msixFire_shows (v : Nat) (s : State) : (msixRuns s = false → msixFire v s = s) ∧
    (msixRuns s = true → vecMasked s v = false → msixFire v s = s.send (.msix v)) ∧
    (msixRuns s = true → vecMasked s v = true → (msixFire v s).out = s.out ∧ (msixFire v s).mgt.vecPend = s.mgt.vecPend ||| 2 ^ v) := by
  refine ⟨fun h => if_pos (by simp [h]), fun h hm => ?_, fun h hm => ?_⟩
  · unfold msixFire
    rw [if_neg (by simp [h]), if_neg (by simp [hm])]
  · unfold msixFire
    rw [if_neg (by simp [h]), if_pos hm]
    exact ⟨rfl, rfl⟩

end

/-! ### TX descriptors (R653 to R655) -/

section
variable {t : Fin 8} {d : List Word} {f : List Byte} {s : State}

/-- LEN of a descriptor. -/
abbrev txLen (d : List Word) : Nat := (d.getD 2 0).toNat % 2 ^ 14

/-- The descriptor at the HEAD of ring `t` is the device's to take. -/
def TxTaken (t : Nat) (d : List Word) (s : State) : Prop := dmaRuns s = true ∧ txServed s = some t ∧ (d.getD 3 0).getLsbD 0 = true

theorem dmaTx_idle (h : dmaRuns s = false ∨ txServed s ≠ some t.val ∨ (d.getD 3 0).getLsbD 0 = false) : dmaTx t d f s = s := by
  refine if_pos ?_
  rcases h with h | h | h
  · exact .inl (by simp [h])
  · exact .inr (.inl h)
  · exact .inr (.inr (by simp only [h, Bool.not_false]))

/-- What a descriptor taken comes to. -/
theorem dmaTx_taken (h : TxTaken t d s) : dmaTx t d f s =
    if txLen d < 60 ∨ 9596 < txLen d then txFail t 1 s
    else if f.length < txLen d then s
    else if s.get (POOL_FREE_V 2) < cellsOf (txLen d + 4) ∨ !s.on (POOL_CFG_EN 2) then s
    else
      let a := cpuBuffers clsCpuDma (cellsOf (txLen d + 4)) s
      let s := cpuFrame (insBlock d) (f.take (txLen d)) a.2
      let s := forEach a.1 (fun i s => (poolFree 2 i clsCpuDma s).2) s
      (ringDone t true s).send (.dmaTx t (txWord3 0)) := by
  obtain ⟨hruns, hserved, hown⟩ := h
  exact if_neg (by simp only [hruns, hserved, hown]; simp)

theorem dmaTx_waits (h : TxTaken t d s) (h60 : 60 ≤ txLen d) (hmax : txLen d ≤ 9596)
    (hw : f.length < txLen d ∨ s.get (POOL_FREE_V 2) < cellsOf (txLen d + 4) ∨ s.on (POOL_CFG_EN 2) = false) : dmaTx t d f s = s := by
  rw [dmaTx_taken h, if_neg (by omega)]
  by_cases hread : f.length < txLen d
  · exact if_pos hread
  · rw [if_neg hread]
    refine if_pos ((hw.resolve_left hread).imp_right fun hoff => ?_)
    simp [hoff]

theorem dmaTx_sends {x : List Nat × State} (h : TxTaken t d s) (h60 : 60 ≤ txLen d) (hmax : txLen d ≤ 9596) (hread : txLen d ≤ f.length)
    (hcells : cellsOf (txLen d + 4) ≤ s.get (POOL_FREE_V 2)) (hon : s.on (POOL_CFG_EN 2) = true) (hx : x = cpuBuffers clsCpuDma (cellsOf (txLen d + 4)) s) :
    dmaTx t d f s = (ringDone t true (forEach x.1 (fun i s => (poolFree 2 i clsCpuDma s).2)
      (cpuFrame (insBlock d) (f.take (txLen d)) x.2))).send (.dmaTx t 2) := by
  subst hx
  rw [dmaTx_taken h, if_neg (by omega), if_neg (by omega)]
  refine if_neg ?_
  rintro (hlow | hoff)
  · omega
  · simp [hon] at hoff

theorem dmaReadTimeout_fails (hruns : dmaRuns s = true) (hserved : txServed s = some t.val) : dmaReadTimeout t s = txFail t 2 s :=
  if_pos ⟨hruns, hserved⟩

theorem dmaReadTimeout_idle (h : dmaRuns s = false ∨ txServed s ≠ some t.val) : dmaReadTimeout t s = s := by
  refine if_neg ?_
  rintro ⟨hruns, hserved⟩
  rcases h with h | h
  · exact Bool.false_ne_true (h.symm.trans hruns)
  · exact h hserved

/-- A descriptor completes without a frame. -/
theorem ringDone_shows (t : Fin 8) (s : State) :
    (ringDone t false s).get (MGT_RING_HEAD_V t) = (s.get (MGT_RING_HEAD_V t) + 1) % s.get (MGT_RING_SIZE_V t) % 2 ^ 12 ∧
      (ringDone t false s).bit MGT_DMA_EVENT_V t = true := by
  have ht := t.isLt
  have hevent : (MGT_RING_HEAD_V t).reg.addr ≠ MGT_DMA_EVENT.addr := by
    simp only [MGT_RING_HEAD_V, MGT_RING_HEAD, MGT_DMA_EVENT]
    omega
  constructor
  · refine (State.get_putBit_reg _ true hevent).trans (State.get_put_same s _ _ ?_)
    simp only [MGT_RING_HEAD_V]
    omega
  · refine (bit_putBit (by decide) ?_ ?_).trans (if_pos rfl)
    all_goals
      simp only [MGT_DMA_EVENT_V]
      omega

/-- The end of a descriptor with an error (R655). -/
theorem txFail_shows (t : Fin 8) (err : Nat) (s : State) :
    (txFail t err s).get (MGT_RING_HEAD_V t) = (s.get (MGT_RING_HEAD_V t) + 1) % s.get (MGT_RING_SIZE_V t) % 2 ^ 12 ∧
      (txFail t err s).bit MGT_DMA_EVENT_V t = true ∧ (txFail t err s).on MGT_EVENT_DMA_ERR = true ∧
      (txFail t err s).out = s.out ++ [.dmaTx t (2 + 16 * err)] ∧ (txFail t err s).frames = s.frames := by
  have ht := t.isLt
  obtain ⟨hhead, hbit⟩ := ringDone_shows t s
  have hring : (MGT_RING_HEAD_V t).reg.addr ≠ MGT_EVENT_DMA_ERR.reg.addr := by
    simp only [MGT_RING_HEAD_V, MGT_RING_HEAD, MGT_EVENT_DMA_ERR, MGT_EVENT]
    omega
  have hkept : ∀ g : Fld, g.reg.addr ≠ MGT_EVENT_DMA_ERR.reg.addr → (txFail t err s).get g = (ringDone t false s).get g := fun g hg =>
    State.get_put_reg _ 1 hg
  refine ⟨(hkept _ hring).trans hhead, ?_, State.on_ev_same (ringDone t false s) (by decide) (by decide), rfl, rfl⟩
  unfold State.bit at hbit ⊢
  rw [hkept _ (by decide)]
  exact hbit

end

/-! ### RX descriptors (R653, R656) -/

section
variable {t : Fin 8} {n : Nat} {s : State}

theorem dmaRx_idle (h : dmaRuns s = false ∨ ringReady s (8 + t.val) = false) : dmaRx t n s = s := by
  refine if_pos ?_
  rcases h with h | h <;> simp [h]

theorem dmaRx_loops {b : LbCopy} {l : List LbCopy} (hruns : dmaRuns s = true) (hready : ringReady s (8 + t.val) = true)
    (hring : s.get MGT_DMA_CTRL_LB_RING = t.val) (hl : s.mgt.loops = b :: l) : dmaRx t n s = rxDeliver t n b.bytes b.port b.tc b.flags b.stamp
      (forEach b.bufs (fun i s => (poolFree 2 i clsCpuDma s).2) { s with mgt := { s.mgt with loops := l } }) := by
  unfold dmaRx
  rw [if_neg (by simp [hruns, hready]), if_pos hring, hl]

/-- No loop-back copy waits for the ring. -/
def NoLoops (t : Nat) (s : State) : Prop := s.get MGT_DMA_CTRL_LB_RING ≠ t ∨ s.mgt.loops = []

theorem NoLoops.none_taken (h : NoLoops t s) : (if s.get MGT_DMA_CTRL_LB_RING = t.val then s.mgt.loops else []) = [] := by
  rcases h with h | h
  · exact if_neg h
  · rw [h, ite_self]

/-- Without one the head of its queue goes to the ring, where one is ready. -/
theorem dmaRx_queue {c : Nat} (hruns : dmaRuns s = true) (hready : ringReady s (8 + t.val) = true) (hnone : NoLoops t s)
    (hhead : headReady (queueJoin (512 + t.val) s) (512 + t.val) = some c) : dmaRx t n s = rxQueue t n c (queueJoin (512 + t.val) s) := by
  unfold dmaRx
  rw [if_neg (by simp [hruns, hready]), hnone.none_taken]
  dsimp only
  rw [hhead]

theorem dmaRx_empty (hruns : dmaRuns s = true) (hready : ringReady s (8 + t.val) = true) (hnone : NoLoops t s)
    (hhead : headReady (queueJoin (512 + t.val) s) (512 + t.val) = none) : dmaRx t n s = queueJoin (512 + t.val) s := by
  unfold dmaRx
  rw [if_neg (by simp [hruns, hready]), hnone.none_taken]
  dsimp only
  rw [hhead]

end

/-! ### SPI (R657) -/

section
variable {a : Word} {l : List Byte} {n : Nat} {s : State}

theorem spi_waits (hs : served s .spi = true) (hg : s.gated = true) : accWaits s .spi = true := by simp [accWaits, hs, hg]

theorem spi_unserved (hs : served s .spi = false) : ¬accWaits s .spi = true := by simp [accWaits, hs]

theorem spiWrite_unchanged (h : served s .spi = false ∨ (s.gated = false ∧ l.length < 4)) : spiWrite a.toNat l s = s := by
  unfold spiWrite
  rcases h with hs | ⟨hg, hl⟩
  · rw [if_neg (spi_unserved hs)]
    exact if_neg (by simp [hs])
  · have hgroups : l.length / 4 = 0 := by omega
    rw [if_neg (by simp [accWaits_running hg]), hgroups]
    exact ite_self s

/-- A group of four bytes is one write of their word. -/
theorem spiWrites_group (n a : Nat) (hl : 4 ≤ l.length) (s : State) : spiWrites (n + 1) a l s = spiWrites n ((a + 4) % 2 ^ 32) (l.drop 4)
    (spiMark (spiAfter (busWrite .spi a 15 (BitVec.ofNat 32 (natBE (l.take 4))) s).1)
      (busWrite .spi a 15 (BitVec.ofNat 32 (natBE (l.take 4))) s).2) := if_neg (by omega)

theorem spiWrite_word (hs : served s .spi = true) (hg : s.gated = false) (hl : l.length = 4) : spiWrite a.toNat l s =
    spiMark (spiAfter (busWrite .spi a.toNat 15 (BitVec.ofNat 32 (natBE l)) s).1) (busWrite .spi a.toNat 15 (BitVec.ofNat 32 (natBE l)) s).2 := by
  have hgroups : l.length / 4 = 0 + 1 := by omega
  have htake : l.take 4 = l := List.take_of_length_le (by omega)
  unfold spiWrite
  rw [if_neg (by simp [accWaits_running hg]), if_pos hs, hgroups, spiWrites_group 0 a.toNat (by omega), htake]
  rfl

theorem spiWrite_waits (hs : served s .spi = true) (hg : s.gated = true) : spiWrite a.toNat l s = accWait (.spiWrite a.toNat l) s :=
  if_pos (spi_waits hs hg)

theorem spiRead_unserved (hs : served s .spi = false) : spiRead a.toNat n s = s := by
  unfold spiRead
  rw [if_neg (spi_unserved hs)]
  exact if_neg (by simp [hs])

theorem spiRead_waits (hs : served s .spi = true) (hg : s.gated = true) : spiRead a.toNat n s = accWait (.spiRead a.toNat n) s :=
  if_pos (spi_waits hs hg)

theorem spiRead_reads (hs : served s .spi = true) (hg : s.gated = false) :
    spiRead a.toNat n s = (spiReads n a.toNat s).2.send (.spi (spiReads n a.toNat s).1) := by
  unfold spiRead
  rw [if_neg (by simp [accWaits_running hg])]
  exact if_pos hs

/-- Each word of a read is five bytes: the mark, and the word's. -/
theorem spiReads_length (n a : Nat) (s : State) : (spiReads n a s).1.length = 5 * n := by
  induction n generalizing a s with
  | zero => rfl
  | succ n ih =>
    simp only [spiReads, List.cons_append, List.length_cons, List.length_append, ih, beBytes, List.length_reverse, length_leBytes]
    omega

theorem spiStatus_unserved (hs : served s .spi = false) : spiStatus s = s := if_neg (by simp [hs])

theorem spiStatus_shows (hs : served s .spi = true) : (spiStatus s).mgt.spiStat = 0 ∧
    (spiStatus s).out = s.out ++ [.spi [BitVec.ofNat 8 s.mgt.spiStat]] ∧ (spiStatus s).regs = s.regs := by
  have hsent : spiStatus s = spiMark 0 (s.send (.spi [BitVec.ofNat 8 s.mgt.spiStat])) := if_pos hs
  rw [hsent]
  exact ⟨rfl, rfl, rfl⟩

end

/-! ### MMP requests (R659, R660) -/

section
variable {s : State}

/-- What a request discarded leaves: its counter, saturating, and MMP_DROP. -/
theorem mmpDrop_shows {f : Fld} (hf : f.reg = MGT_MMP_CNT) (hw : f.width = 8) (hl : f.lsb + f.width ≤ 32) (s : State) :
    (mmpDrop f s).mgt = s.mgt ∧ (mmpDrop f s).on MGT_EVENT_MMP_DROP = true ∧ (mmpDrop f s).get f = min (s.get f + 1) 255 ∧
      (mmpDrop f s).out = s.out := by
  refine ⟨rfl, State.on_ev_same _ (by decide) (by decide), ?_, rfl⟩
  refine (State.get_put_reg (f := f) (s.countSat f) 1 (by rw [hf]; decide)).trans ?_
  rw [State.countSat_eq, hw]
  exact State.get_put_fits s hl (by rw [hw]; omega)

/-- The PDU of a request: its frame without the header and the FCS. -/
def mmpPdu (r : MmpReq) : List Byte := (r.frame.take (r.frame.length - 4)).drop (parseFrame r.frame).off

/-- The number of operations of a PDU, and the bytes before its HMAC. -/
def mmpOpCount (p : List Byte) : Nat := natLE ((p.drop 2).take 2)

abbrev mmpSize (p : List Byte) : Nat := 16 + 12 * mmpOpCount p

/-- The key that is set signs the PDU. -/
def MmpSigned (s : State) (p : List Byte) : Prop :=
  s.on MGT_MMP_CFG_KEY_SET = true ∧ hmac256 (leBytes 32 (s.wide MGT_MMP_KEY)) (p.take (mmpSize p)) = (p.drop (mmpSize p)).take 32

/-- A PDU of the form of R659. -/
structure MmpForm (p : List Byte) : Prop where
  version : byteAt p 0 = 1
  request : byteAt p 1 = 1
  count : 1 ≤ mmpOpCount p ∧ mmpOpCount p ≤ 64
  zero : (p.drop 12).take 4 = [0, 0, 0, 0]
  size : mmpSize p + 32 ≤ p.length

section
variable {r : MmpReq} {l : List MmpReq}

/-- The request that has waited longest leaves the queue and is judged: FORMAT, AUTH, REPLAY. -/
theorem mmpRequest_judges (hq : s.mgt.mmpq = r :: l) (hs : served s .mmp = true) : mmpRequest s =
    let p := mmpPdu r
    let t : State := { s with mgt := { s.mgt with mmpq := l } }
    if byteAt p 0 ≠ 1 ∨ byteAt p 1 ≠ 1 ∨ mmpOpCount p = 0 ∨ 64 < mmpOpCount p ∨ !((p.drop 12).take 4).all (fun b => b == 0) ∨
        p.length < mmpSize p + 32 then mmpDrop MGT_MMP_CNT_FORMAT t
    else if !t.on MGT_MMP_CFG_KEY_SET ∨ hmac256 (leBytes 32 (t.wide MGT_MMP_KEY)) (p.take (mmpSize p)) ≠ (p.drop (mmpSize p)).take 32 then
      mmpDrop MGT_MMP_CNT_AUTH t
    else if natLE ((p.drop 4).take 8) ≤ t.wide MGT_MMP_LAST_SEQ then mmpDrop MGT_MMP_CNT_REPLAY t
    else mmpServe r p (mmpOpCount p) t := by
  unfold mmpRequest
  rw [hq]
  exact if_neg (by simp [hs])

theorem mmpRequest_idle (h : s.mgt.mmpq = [] ∨ served s .mmp = false) : mmpRequest s = s := by
  unfold mmpRequest
  split
  next => rfl
  next r l hq => exact if_pos (by rcases h with h | h <;> simp_all)

theorem mmpRequest_misformed (hq : s.mgt.mmpq = r :: l) (hs : served s .mmp = true)
    (h : byteAt (mmpPdu r) 0 ≠ 1 ∨ byteAt (mmpPdu r) 1 ≠ 1 ∨ mmpOpCount (mmpPdu r) = 0 ∨ 64 < mmpOpCount (mmpPdu r)) :
    mmpRequest s = mmpDrop MGT_MMP_CNT_FORMAT { s with mgt := { s.mgt with mmpq := l } } :=
  (mmpRequest_judges hq hs).trans (if_pos (by
    rcases h with h | h | h | h
    · exact .inl h
    · exact .inr (.inl h)
    · exact .inr (.inr (.inl h))
    · exact .inr (.inr (.inr (.inl h)))))

/-- A request of the form asked for is judged by its HMAC and number. -/
theorem mmpRequest_formed (hq : s.mgt.mmpq = r :: l) (hs : served s .mmp = true) (hf : MmpForm (mmpPdu r)) : mmpRequest s =
    let p := mmpPdu r
    let t : State := { s with mgt := { s.mgt with mmpq := l } }
    if !t.on MGT_MMP_CFG_KEY_SET ∨ hmac256 (leBytes 32 (t.wide MGT_MMP_KEY)) (p.take (mmpSize p)) ≠ (p.drop (mmpSize p)).take 32 then
      mmpDrop MGT_MMP_CNT_AUTH t
    else if natLE ((p.drop 4).take 8) ≤ t.wide MGT_MMP_LAST_SEQ then mmpDrop MGT_MMP_CNT_REPLAY t
    else mmpServe r p (mmpOpCount p) t := by
  obtain ⟨hversion, hrequest, ⟨hlow, hhigh⟩, hzero, hsize⟩ := hf
  refine (mmpRequest_judges hq hs).trans (if_neg ?_)
  rintro (h | h | h | h | h | h)
  · exact h hversion
  · exact h hrequest
  · omega
  · omega
  · rw [hzero] at h
    exact absurd h (by decide)
  · omega

theorem mmpRequest_unsigned (hq : s.mgt.mmpq = r :: l) (hs : served s .mmp = true) (hf : MmpForm (mmpPdu r)) (h : s.on MGT_MMP_CFG_KEY_SET = false ∨
      hmac256 (leBytes 32 (s.wide MGT_MMP_KEY)) ((mmpPdu r).take (mmpSize (mmpPdu r))) ≠ ((mmpPdu r).drop (mmpSize (mmpPdu r))).take 32) :
    mmpRequest s = mmpDrop MGT_MMP_CNT_AUTH { s with mgt := { s.mgt with mmpq := l } } := by
  refine (mmpRequest_formed hq hs hf).trans (if_pos (h.imp_left fun hoff => ?_))
  change (!s.on MGT_MMP_CFG_KEY_SET) = true
  rw [hoff]
  rfl

/-- A request signed is judged by its number. -/
theorem mmpRequest_signed (hq : s.mgt.mmpq = r :: l) (hs : served s .mmp = true) (hf : MmpForm (mmpPdu r)) (h : MmpSigned s (mmpPdu r)) :
    mmpRequest s = if natLE (((mmpPdu r).drop 4).take 8) ≤ s.wide MGT_MMP_LAST_SEQ then
        mmpDrop MGT_MMP_CNT_REPLAY { s with mgt := { s.mgt with mmpq := l } }
      else mmpServe r (mmpPdu r) (mmpOpCount (mmpPdu r)) { s with mgt := { s.mgt with mmpq := l } } := by
  obtain ⟨hkey, hmac⟩ := h
  refine (mmpRequest_formed hq hs hf).trans (if_neg ?_)
  rintro (hoff | hne)
  · change (!s.on MGT_MMP_CFG_KEY_SET) = true at hoff
    rw [hkey] at hoff
    exact Bool.false_ne_true hoff
  · exact hne hmac

end

end

/-! ### JTAG (R663) -/

section
variable {s : State}

theorem jtagTake_stays {j : JtagInstr} (h : s.mgt.jtag.drives = false ∨ s.mgt.jtag = j) :
    jtagTake j s = { s with mgt := { s.mgt with jtag := j } } := by
  refine if_neg ?_
  rcases h with h | h <;> simp [h]

theorem jtagTake_leaves {j : JtagInstr} (h : s.mgt.jtag.drives = true) (hj : s.mgt.jtag ≠ j) :
    jtagTake j s = deviceReset 0 { s with mgt := { s.mgt with jtag := j } } := if_pos (by simp [h, hj])

/-- The rows that load an instruction without an answer. -/
theorem exec_jtag {i : Instr} {j : JtagInstr} (h : (i, j) ∈ ([(.bypass, .bypass), (.samplePreload, .sample), (.extest, .extest),
    (.extestPulse, .extestPulse), (.extestTrain, .extestTrain)] : List (Instr × JtagInstr))) (s : State) : exec i s = .next (jtagTake j s) := by
  simp only [List.mem_cons, Prod.mk.injEq, List.not_mem_nil, or_false] at h
  rcases h with ⟨rfl, rfl⟩ | ⟨rfl, rfl⟩ | ⟨rfl, rfl⟩ | ⟨rfl, rfl⟩ | ⟨rfl, rfl⟩ <;> rfl

theorem exec_idcode (s : State) : exec .idcode s = .next ((jtagTake .idcode s).send (.jtag 0x1648096B)) := rfl

theorem exec_extestExit (s : State) : exec .extestExit s = .next (extestExit s) := rfl

/-- IDCODE drives no ball. -/
theorem drives_ne_idcode (h : s.mgt.jtag.drives = true) : s.mgt.jtag ≠ .idcode := by
  intro hid
  rw [hid] at h
  exact Bool.false_ne_true h

end

/-- Settles O56, row by row. -/
theorem managementPortsAndJtag : Obligations.ManagementPortsAndJtag := by
  refine ⟨fun s hr => run_eq hr rfl, fun q s hr => cfgRequest_inReset q hr, fun q s hr h => cfgRequest_early q hr h, cfgRetry_eq,
    fun k s hr h1 h2 => cfgRequest_made _ hr h1 h2, fun v s hr h1 h2 => cfgRequest_made _ hr h1 h2, fun e f s hr h1 h2 => cfgRequest_made _ hr h1 h2,
    fun v s hr h1 h2 => cfgRequest_made _ hr h1 h2, fun v s hr h1 h2 => cfgRequest_made _ hr h1 h2, msixFire_shows,
    fun t d f s hr h => run_eq hr (dmaTx_idle h), fun t d f s hr hd hs ho hlen => ?_,
    fun t d f s hr hd hs ho h60 hmax hw => run_eq hr (dmaTx_waits ⟨hd, hs, ho⟩ h60 hmax hw),
    fun t d f x s hr hd hs ho h60 hmax hread hcells hon hx => run_eq hr (dmaTx_sends ⟨hd, hs, ho⟩ h60 hmax hread hcells hon hx),
    fun t s hr hd hs => ⟨_, run_eq hr (dmaReadTimeout_fails hd hs), txFail_shows t 2 s⟩, fun t s hr h => run_eq hr (dmaReadTimeout_idle h),
    fun t n s hr h => run_eq hr (dmaRx_idle h), fun t n b l s hr hd hready hring hl => run_eq hr (dmaRx_loops hd hready hring hl),
    fun t n s hr hd hready hnone hhead => run_eq hr (dmaRx_empty hd hready hnone hhead),
    fun t n c s hr hd hready hnone hhead => run_eq hr (dmaRx_queue hd hready hnone hhead), fun t n p c f st l s => rfl,
    fun a l s hr h => run_eq hr (spiWrite_unchanged h), fun a l s hr hs hg hl => run_eq hr (spiWrite_word hs hg hl),
    fun n a l s hl => spiWrites_group n a hl s, fun a n s hr hs => run_eq hr (spiRead_unserved hs),
    fun a l s hr hs hg => run_eq hr (spiWrite_waits hs hg), fun a n s hr hs hg => run_eq hr (spiRead_waits hs hg),
    fun a n s hr hs hg => run_eq hr (spiRead_reads hs hg), spiReads_length, fun s hr hs => run_eq hr (spiStatus_unserved hs),
    fun s hr hs => ⟨_, run_eq hr rfl, spiStatus_shows hs⟩, fun s hs h => timed_eq hs (mmpRequest_idle h),
    fun r l p s hs hq hm hp h => ?_, fun r l p s hs hq hm hp h0 h1 hn hn' hz hl h => ?_,
    fun r l p s hs hq hm hp h0 h1 hn hn' hz hl hk hh hseq => ?_, fun r l p s hs hq hm hp h0 h1 hn hn' hz hl hk hh hseq => ?_,
    fun i j hi s => ?_, fun s => ⟨fun h => ?_, fun h => ?_, fun h => ?_, fun h => ?_⟩⟩
  · exact ⟨_, run_eq hr ((dmaTx_taken ⟨hd, hs, ho⟩).trans (if_pos hlen)), txFail_shows t 1 s⟩
  · subst hp
    obtain ⟨hmgt, hshows⟩ := mmpDrop_shows (f := MGT_MMP_CNT_FORMAT) rfl rfl (by decide) { s with mgt := { s.mgt with mmpq := l } }
    exact ⟨_, timed_eq hs (mmpRequest_misformed hq hm h), congrArg MgtRec.mmpq hmgt, hshows⟩
  · subst hp
    obtain ⟨hmgt, hshows⟩ := mmpDrop_shows (f := MGT_MMP_CNT_AUTH) rfl rfl (by decide) { s with mgt := { s.mgt with mmpq := l } }
    exact ⟨_, timed_eq hs (mmpRequest_unsigned hq hm ⟨h0, h1, ⟨hn, hn'⟩, hz, hl⟩ h), congrArg MgtRec.mmpq hmgt, hshows⟩
  · subst hp
    obtain ⟨hmgt, hshows⟩ := mmpDrop_shows (f := MGT_MMP_CNT_REPLAY) rfl rfl (by decide) { s with mgt := { s.mgt with mmpq := l } }
    exact ⟨_, timed_eq hs ((mmpRequest_signed hq hm ⟨h0, h1, ⟨hn, hn'⟩, hz, hl⟩ ⟨hk, hh⟩).trans (if_pos hseq)), congrArg MgtRec.mmpq hmgt, hshows⟩
  · subst hp
    exact timed_eq hs ((mmpRequest_signed hq hm ⟨h0, h1, ⟨hn, hn'⟩, hz, hl⟩ ⟨hk, hh⟩).trans (if_neg (by unfold mmpPdu; omega)))
  · rw [exec_jtag hi]
    exact ⟨fun h => congrArg Host.Outcome.next (jtagTake_stays h), fun h hj => congrArg Host.Outcome.next (jtagTake_leaves h hj)⟩
  · rw [exec_idcode, jtagTake_stays (.inl h)]
  · rw [exec_idcode, jtagTake_leaves h (drives_ne_idcode h)]
  · rw [exec_extestExit]
    exact congrArg Host.Outcome.next (if_neg (by simp [h]))
  · rw [exec_extestExit]
    exact congrArg Host.Outcome.next ((if_pos h).trans (jtagTake_leaves h (drives_ne_idcode h)))

end Sys2Proof.Machine
end
